-- ==== Sys2Proof/Word.lean ====
section
/-! DEFINITION. The word types of the module: a 64-bit lane word, a byte, and the register widths.
Multi-byte fields are little-endian (R13); the byte-order helpers stand in Machine/Bits.lean. -/

namespace Sys2Proof

/-- A 64-bit lane word: a general register, a floating-point register or an address (R168). -/
abbrev Word := BitVec 64

/-- One byte. -/
abbrev Byte := BitVec 8

/-- A 16-bit field. -/
abbrev U16 := BitVec 16

/-- A 32-bit register of a register block (R212), or a lane instruction (R177). -/
abbrev U32 := BitVec 32

/-- Which of the two cores of a lane (R130): the leading core L or the trailing core T. -/
inductive CoreSel where
  | leading
  | trailing
deriving DecidableEq, Repr

/-- A lane of the module, 0 to 7 (R6). -/
abbrev LaneId := Fin 8

/-- A vote group, VG0 to VG15 (R7). -/
abbrev GroupId := Fin 16

/-- A mailbox pair, MB0 to MB23 (Table 7.2). -/
abbrev PairId := Fin 24

/-- The two Weft links (R6): WEFT_A to the next slot and WEFT_B to the previous slot. -/
inductive Side where
  | a
  | b
deriving DecidableEq, Repr

/-- The register fields of a lane instruction of classes 0 to 13 (Table 5.7): every operand form and every
reserved field that the word can hold. `imm12` is RB and MOD, `imm12b` RD and MOD, `imm17` RA, RB and MOD. -/
structure Fields where
  rd : BitVec 5
  ra : BitVec 5
  rb : BitVec 5
  mod : BitVec 7
deriving DecidableEq, Repr

/-- The fields of a class-15 instruction (Table 5.7). -/
structure Wide where
  rd : BitVec 5
  imm21 : BitVec 21
deriving DecidableEq, Repr

/-- Which core a lane instruction runs on. -/
structure CoreRef where
  lane : LaneId
  core : CoreSel
deriving DecidableEq, Repr

/-- Who accesses a register or a device from inside the module: a lane's store or load, or Selvedge (R212). -/
inductive Master where
  | lane (l : LaneId)
  | selvedge
deriving DecidableEq, Repr

/-- Whose comparator a command concerns: a lane's, or Selvedge's (R144, R231). -/
inductive PairRef where
  | lane (l : LaneId)
  | selvedge
deriving DecidableEq, Repr

/-- What a comparator answers on its dual-rail pair (EQ, NE) (R144, Table 4.5). -/
inductive Rail where
  | spacer
  | eq
  | ne
  | both
deriving DecidableEq, Repr

/-- The two power feeds (R436). -/
inductive Feed where
  | a
  | b
deriving DecidableEq, Repr

/-- What a start finds in the world: the SLOT pins at step 3 (R515), the results of the hardware tests that
Table 16.1 runs, and how long it took. -/
structure StartEnv where
  slot : BitVec 2
  /-- The loader's SHA-256 equals its fused digest (R492). -/
  loaderOk : Bool
  /-- Selvedge's injection tests found every defect (R236). -/
  selvedgeOk : Bool
  /-- DRAM training of both channels succeeded (step 5). -/
  dramOk : Bool
  /-- Selvedge did not fail before the end of step 7 (Table 16.2). -/
  step7Ok : Bool
  /-- Injection tests that each lane detected (R153). -/
  bist : Vector (BitVec 6) 8
  /-- RST_REQ_L is low at the first sample after PD0 is powered (R458). -/
  rstLow : Bool
  /-- Duration of steps 1 to 8 in ms. -/
  ms : U32
deriving DecidableEq, Repr

/-- A requester's IP address and UDP port (R243). -/
structure NetAddr where
  ip : U32
  port : U16
deriving DecidableEq, Repr

/-- The header of a received Weft frame (Table 3.1), without TYPE and LENGTH. -/
structure WeftHdr where
  level : BitVec 8
  seq : U32
  ack : U32
  epochLo : U32
deriving DecidableEq, Repr

/-- Why a received Weft frame is discarded (R78). -/
inductive Discard where
  | badCrc
  | badLength
  | badType
  | wrongEpoch (seq : U32)
deriving DecidableEq, Repr

/-- What a safety field-side frame carries (R387). -/
structure SafeFrame where
  /-- Channel levels A and B of the safe inputs. -/
  a : BitVec 8
  b : BitVec 8
  /-- SAFE_V in units of 10 mV. -/
  volt : BitVec 14
  /-- V_L of each safe output is at least 0.55 Un. -/
  vl : BitVec 8
  /-- V_H of each safe output is above 3 V. -/
  vh : BitVec 8
  /-- The condition of a fault of Table 13.7 stands at each output. -/
  outFault : BitVec 8
  /-- Edges of each speed input since the last tick, by direction. -/
  plus : Vector Nat 4
  minus : Vector Nat 4
  /-- The last counted edge was −1. -/
  reverse : BitVec 4
  /-- Conditions of Table 13.8 that stand at each speed input: WIRE_A, WIRE_B, ILLEGAL, FREQ from bit 0. -/
  speedFault : Vector (BitVec 4) 4
deriving DecidableEq, Repr

/-- A memory location that a scrub pass reads, by area code of Table 6.9 and byte offset within the area. -/
structure MemLoc where
  area : BitVec 8
  offset : Nat
deriving DecidableEq, Repr

/-- What a read of a protected memory finds (R222). -/
inductive MemErr where
  | none
  | correctable
  | uncorrectable
deriving DecidableEq, Repr

end Sys2Proof
end

