-- ==== Sys2Proof/Syntax.lean ====
section
/-! DEFINITION. The commands of the module: one constructor per row of the opcode table, with the row's
operands. A lane instruction names the core that runs it and the register fields of its word; a mailbox command
names the pair that is served; an event names the unit it concerns and what came with it. -/

namespace Sys2Proof

/-- A command of the module (Tables of operations and events; each row is one whole, indivisible step). -/
inductive Instr where
  /-- POWER_ON (R451). -/
  | powerOn (feed : Feed) (env : StartEnv)
  /-- MODULE_RESET (R456). -/
  | moduleReset (cause : BitVec 8) (env : StartEnv)
  /-- RESET_REQUEST (R457). -/
  | resetRequest (lows : Nat) (env : StartEnv)
  /-- RST_STUCK (R457). -/
  | rstStuck
  /-- RST_UNSTUCK (R457). -/
  | rstUnstuck
  /-- HEARTBEAT_WRITE (R234). -/
  | heartbeatWrite (data : U32)
  /-- HEARTBEAT_TIMEOUT (R234). -/
  | heartbeatTimeout
  /-- SUPERVISOR_RESTART (R235). -/
  | supervisorRestart (env : StartEnv)
  /-- REF_LOSS (R288). -/
  | refLoss
  /-- REF_FREQ_DEV (R288). -/
  | refFreqDev
  /-- BOUNDARY (R40). -/
  | boundary
  /-- RAW_CLOSE (R42). -/
  | rawClose
  /-- EXCHANGE_END (R88). -/
  | exchangeEnd
  /-- SOURCE_SET_COMPUTE (R89). -/
  | sourceSetCompute
  /-- SEAL (R41). -/
  | seal
  /-- BUDGET_WARNING (R196). -/
  | budgetWarning
  /-- BUDGET_EXHAUSTED_TAKEN (R196). -/
  | budgetExhaustedTaken (c : CoreRef)
  /-- COMMIT (R55). -/
  | commit (c : CoreRef)
  /-- COMMIT_DEADLINE (R62). -/
  | commitDeadline
  /-- COMMIT_LATE_TAKEN (R196). -/
  | commitLateTaken (c : CoreRef)
  /-- DIGEST_READY (R68). -/
  | digestReady (lane : LaneId)
  /-- OWN_DIGEST_DEADLINE (R69). -/
  | ownDigestDeadline
  /-- VOTE_CLOSE (R102). -/
  | voteClose
  /-- CDN_OUT_RELEASE (R107). -/
  | cdnOutRelease
  /-- CDN_IN_HIGH (R108). -/
  | cdnInHigh (sd : Side)
  /-- CDN_IN_STUCK (R107). -/
  | cdnInStuck (sd : Side)
  /-- ROLE_START (R113). -/
  | roleStart
  /-- TB2_SYNC_SEND (R85). -/
  | tb2SyncSend
  /-- WEFT_FRAME_SEND (R79). -/
  | weftFrameSend (sd : Side)
  /-- WEFT_FRAME_DISCARD (R78). -/
  | weftFrameDiscard (sd : Side) (why : Discard)
  /-- WEFT_HELLO (R83). -/
  | weftHello (sd : Side) (hdr : WeftHdr) (payload : List Byte)
  /-- WEFT_IDENT (R84). -/
  | weftIdent (sd : Side) (hdr : WeftHdr) (payload : List Byte)
  /-- WEFT_IDENT_RESULT (R84). -/
  | weftIdentResult (sd : Side) (hdr : WeftHdr) (payload : List Byte)
  /-- WEFT_TB2_SYNC (R85). -/
  | weftTb2Sync (sd : Side) (hdr : WeftHdr) (payload : List Byte)
  /-- WEFT_RAW (R42). -/
  | weftRaw (sd : Side) (hdr : WeftHdr) (payload : List Byte)
  /-- WEFT_RX_REPORT (R88). -/
  | weftRxReport (sd : Side) (hdr : WeftHdr) (payload : List Byte)
  /-- WEFT_DIGEST (R101). -/
  | weftDigest (sd : Side) (hdr : WeftHdr) (payload : List Byte)
  /-- WEFT_CONDEMN (R108). -/
  | weftCondemn (sd : Side) (hdr : WeftHdr) (payload : List Byte)
  /-- WEFT_UNIT_SAFE (R111). -/
  | weftUnitSafe (sd : Side) (hdr : WeftHdr) (payload : List Byte)
  /-- WEFT_CATCHUP (R123). -/
  | weftCatchup (sd : Side) (hdr : WeftHdr) (payload : List Byte)
  /-- WEFT_MAILBOX (R244). -/
  | weftMailbox (sd : Side) (hdr : WeftHdr) (payload : List Byte)
  /-- WEFT_NAK (R80). -/
  | weftNak (sd : Side) (hdr : WeftHdr) (payload : List Byte)
  /-- WEFT_BLOCK_LOCK (R82). -/
  | weftBlockLock (sd : Side)
  /-- WEFT_LOCK_LOST (R81). -/
  | weftLockLost (sd : Side)
  /-- WEFT_CRC_RUN_DOWN (R81). -/
  | weftCrcRunDown (sd : Side)
  /-- WEFT_SILENCE_DOWN (R81). -/
  | weftSilenceDown (sd : Side)
  /-- WEFT_RETRAIN (R81). -/
  | weftRetrain (sd : Side)
  /-- WEFT_LINKUP_TIMEOUT (R82). -/
  | weftLinkupTimeout (sd : Side)
  /-- WEFT_REFUSED_RETRY (R83). -/
  | weftRefusedRetry (sd : Side)
  /-- WINDOW_COMPARE (R144). -/
  | windowCompare (p : PairRef) (ansA : Option Rail) (ansB : Option Rail) (parity : Bool)
  /-- DRAIN_COMPLETE (R132). -/
  | drainComplete (lane : LaneId)
  /-- CMP_RAIL_TIMEOUT (R144). -/
  | cmpRailTimeout (p : PairRef)
  /-- TRAIL_STALL (R146). -/
  | trailStall (p : PairRef)
  /-- INJECTION_TESTS_DONE (R154). -/
  | injectionTestsDone (lane : LaneId) (detected : BitVec 6)
  /-- LANE_RELOAD_DONE (R535). -/
  | laneReloadDone (lane : LaneId)
  /-- REJOIN_COPY_DONE (R160). -/
  | rejoinCopyDone (lane : LaneId) (equal : Bool)
  /-- MODE_REQ_WRITE (R157). -/
  | modeReqWrite (lane : LaneId) (data : U32)
  /-- LANE_PERF_WRITE (R165). -/
  | lanePerfWrite (data : U32)
  /-- PERF_RAMP_DONE (R165). -/
  | perfRampDone (domain : Fin 4)
  /-- SPEED_INTERVAL (R166). -/
  | speedInterval
  /-- LANE_SPEED_READ (R166). -/
  | laneSpeedRead (lane : LaneId)
  /-- FIRN_INJECT (R155). -/
  | firnInject (lane : LaneId) (data : U32) (detected : Bool)
  /-- EPOCH_WARN_WRITE (R535). -/
  | epochWarnWrite (data : U32)
  /-- LATCHING_LO_READ (R289). -/
  | latchingLoRead (m : Master) (addr : BitVec 40)
  /-- REGISTER_WRITE (R14). -/
  | registerWrite (m : Master) (addr : BitVec 40) (data : U32)
  /-- ADD (R180). -/
  | add (c : CoreRef) (f : Fields)
  /-- SUB (R180). -/
  | sub (c : CoreRef) (f : Fields)
  /-- AND (R180). -/
  | and (c : CoreRef) (f : Fields)
  /-- OR (R180). -/
  | or (c : CoreRef) (f : Fields)
  /-- XOR (R180). -/
  | xor (c : CoreRef) (f : Fields)
  /-- ANDN (R180). -/
  | andn (c : CoreRef) (f : Fields)
  /-- ORN (R180). -/
  | orn (c : CoreRef) (f : Fields)
  /-- XNOR (R180). -/
  | xnor (c : CoreRef) (f : Fields)
  /-- SLT (R180). -/
  | slt (c : CoreRef) (f : Fields)
  /-- SLTU (R180). -/
  | sltu (c : CoreRef) (f : Fields)
  /-- MIN (R180). -/
  | min (c : CoreRef) (f : Fields)
  /-- MAX (R180). -/
  | max (c : CoreRef) (f : Fields)
  /-- MINU (R180). -/
  | minu (c : CoreRef) (f : Fields)
  /-- MAXU (R180). -/
  | maxu (c : CoreRef) (f : Fields)
  /-- ADDW (R180). -/
  | addw (c : CoreRef) (f : Fields)
  /-- SUBW (R180). -/
  | subw (c : CoreRef) (f : Fields)
  /-- SEQ (R180). -/
  | seq (c : CoreRef) (f : Fields)
  /-- ADDI (R180). -/
  | addi (c : CoreRef) (f : Fields)
  /-- ANDI (R180). -/
  | andi (c : CoreRef) (f : Fields)
  /-- ORI (R180). -/
  | ori (c : CoreRef) (f : Fields)
  /-- XORI (R180). -/
  | xori (c : CoreRef) (f : Fields)
  /-- SLTI (R180). -/
  | slti (c : CoreRef) (f : Fields)
  /-- SLTIU (R180). -/
  | sltiu (c : CoreRef) (f : Fields)
  /-- ADDIW (R180). -/
  | addiw (c : CoreRef) (f : Fields)
  /-- SLL (R180). -/
  | sll (c : CoreRef) (f : Fields)
  /-- SRL (R180). -/
  | srl (c : CoreRef) (f : Fields)
  /-- SRA (R180). -/
  | sra (c : CoreRef) (f : Fields)
  /-- ROL (R180). -/
  | rol (c : CoreRef) (f : Fields)
  /-- ROR (R180). -/
  | ror (c : CoreRef) (f : Fields)
  /-- SLLW (R180). -/
  | sllw (c : CoreRef) (f : Fields)
  /-- SRLW (R180). -/
  | srlw (c : CoreRef) (f : Fields)
  /-- SRAW (R180). -/
  | sraw (c : CoreRef) (f : Fields)
  /-- SLLI (R180). -/
  | slli (c : CoreRef) (f : Fields)
  /-- SRLI (R180). -/
  | srli (c : CoreRef) (f : Fields)
  /-- SRAI (R180). -/
  | srai (c : CoreRef) (f : Fields)
  /-- RORI (R180). -/
  | rori (c : CoreRef) (f : Fields)
  /-- EXTU (R180). -/
  | extu (c : CoreRef) (f : Fields)
  /-- EXTS (R180). -/
  | exts (c : CoreRef) (f : Fields)
  /-- INS (R180). -/
  | ins (c : CoreRef) (f : Fields)
  /-- CLZ (R180). -/
  | clz (c : CoreRef) (f : Fields)
  /-- CTZ (R180). -/
  | ctz (c : CoreRef) (f : Fields)
  /-- POPC (R180). -/
  | popc (c : CoreRef) (f : Fields)
  /-- REV8 (R180). -/
  | rev8 (c : CoreRef) (f : Fields)
  /-- MUL (R181). -/
  | mul (c : CoreRef) (f : Fields)
  /-- MULH (R181). -/
  | mulh (c : CoreRef) (f : Fields)
  /-- MULHU (R181). -/
  | mulhu (c : CoreRef) (f : Fields)
  /-- MULHSU (R181). -/
  | mulhsu (c : CoreRef) (f : Fields)
  /-- DIV (R181). -/
  | div (c : CoreRef) (f : Fields)
  /-- DIVU (R181). -/
  | divu (c : CoreRef) (f : Fields)
  /-- REM (R181). -/
  | rem (c : CoreRef) (f : Fields)
  /-- REMU (R181). -/
  | remu (c : CoreRef) (f : Fields)
  /-- MULW (R181). -/
  | mulw (c : CoreRef) (f : Fields)
  /-- DIVW (R181). -/
  | divw (c : CoreRef) (f : Fields)
  /-- DIVUW (R181). -/
  | divuw (c : CoreRef) (f : Fields)
  /-- REMW (R181). -/
  | remw (c : CoreRef) (f : Fields)
  /-- REMUW (R181). -/
  | remuw (c : CoreRef) (f : Fields)
  /-- LB (R182). -/
  | lb (c : CoreRef) (f : Fields)
  /-- LBU (R182). -/
  | lbu (c : CoreRef) (f : Fields)
  /-- LH (R182). -/
  | lh (c : CoreRef) (f : Fields)
  /-- LHU (R182). -/
  | lhu (c : CoreRef) (f : Fields)
  /-- LW (R182). -/
  | lw (c : CoreRef) (f : Fields)
  /-- LWU (R182). -/
  | lwu (c : CoreRef) (f : Fields)
  /-- LD (R182). -/
  | ld (c : CoreRef) (f : Fields)
  /-- FLW (R187). -/
  | flw (c : CoreRef) (f : Fields)
  /-- FLD (R182). -/
  | fld (c : CoreRef) (f : Fields)
  /-- SB (R182). -/
  | sb (c : CoreRef) (f : Fields)
  /-- SH (R182). -/
  | sh (c : CoreRef) (f : Fields)
  /-- SW (R182). -/
  | sw (c : CoreRef) (f : Fields)
  /-- SD (R182). -/
  | sd (c : CoreRef) (f : Fields)
  /-- FSW (R187). -/
  | fsw (c : CoreRef) (f : Fields)
  /-- FSD (R182). -/
  | fsd (c : CoreRef) (f : Fields)
  /-- BEQ (R182). -/
  | beq (c : CoreRef) (f : Fields)
  /-- BNE (R182). -/
  | bne (c : CoreRef) (f : Fields)
  /-- BLT (R182). -/
  | blt (c : CoreRef) (f : Fields)
  /-- BGE (R182). -/
  | bge (c : CoreRef) (f : Fields)
  /-- BLTU (R182). -/
  | bltu (c : CoreRef) (f : Fields)
  /-- BGEU (R182). -/
  | bgeu (c : CoreRef) (f : Fields)
  /-- JAL (R182). -/
  | jal (c : CoreRef) (f : Fields)
  /-- JALR (R182). -/
  | jalr (c : CoreRef) (f : Fields)
  /-- FADD (R183). -/
  | fadd (c : CoreRef) (f : Fields)
  /-- FSUB (R183). -/
  | fsub (c : CoreRef) (f : Fields)
  /-- FMUL (R183). -/
  | fmul (c : CoreRef) (f : Fields)
  /-- FDIV (R183). -/
  | fdiv (c : CoreRef) (f : Fields)
  /-- FSQRT (R183). -/
  | fsqrt (c : CoreRef) (f : Fields)
  /-- FMIN (R185). -/
  | fmin (c : CoreRef) (f : Fields)
  /-- FMAX (R185). -/
  | fmax (c : CoreRef) (f : Fields)
  /-- FCPYS (R183). -/
  | fcpys (c : CoreRef) (f : Fields)
  /-- FCPYN (R183). -/
  | fcpyn (c : CoreRef) (f : Fields)
  /-- FCPYX (R183). -/
  | fcpyx (c : CoreRef) (f : Fields)
  /-- FMADD (R186). -/
  | fmadd (c : CoreRef) (f : Fields)
  /-- FMSUB (R186). -/
  | fmsub (c : CoreRef) (f : Fields)
  /-- FNMADD (R186). -/
  | fnmadd (c : CoreRef) (f : Fields)
  /-- FNMSUB (R186). -/
  | fnmsub (c : CoreRef) (f : Fields)
  /-- FCMPEQ (R183). -/
  | fcmpeq (c : CoreRef) (f : Fields)
  /-- FCMPLT (R183). -/
  | fcmplt (c : CoreRef) (f : Fields)
  /-- FCMPLE (R183). -/
  | fcmple (c : CoreRef) (f : Fields)
  /-- FKIND (R183). -/
  | fkind (c : CoreRef) (f : Fields)
  /-- FTOL (R184). -/
  | ftol (c : CoreRef) (f : Fields)
  /-- FTOLU (R184). -/
  | ftolu (c : CoreRef) (f : Fields)
  /-- FTOW (R184). -/
  | ftow (c : CoreRef) (f : Fields)
  /-- FTOWU (R184). -/
  | ftowu (c : CoreRef) (f : Fields)
  /-- FFROML (R183). -/
  | ffroml (c : CoreRef) (f : Fields)
  /-- FFROMLU (R183). -/
  | ffromlu (c : CoreRef) (f : Fields)
  /-- FRND32 (R187). -/
  | frnd32 (c : CoreRef) (f : Fields)
  /-- FIS32 (R183). -/
  | fis32 (c : CoreRef) (f : Fields)
  /-- FTOG (R183). -/
  | ftog (c : CoreRef) (f : Fields)
  /-- FFROMG (R183). -/
  | ffromg (c : CoreRef) (f : Fields)
  /-- ATSWAP (R188). -/
  | atswap (c : CoreRef) (f : Fields)
  /-- ATADD (R188). -/
  | atadd (c : CoreRef) (f : Fields)
  /-- ATAND (R188). -/
  | atand (c : CoreRef) (f : Fields)
  /-- ATORR (R188). -/
  | atorr (c : CoreRef) (f : Fields)
  /-- ATXOR (R188). -/
  | atxor (c : CoreRef) (f : Fields)
  /-- ATMIN (R188). -/
  | atmin (c : CoreRef) (f : Fields)
  /-- ATMAX (R188). -/
  | atmax (c : CoreRef) (f : Fields)
  /-- ATMINU (R188). -/
  | atminu (c : CoreRef) (f : Fields)
  /-- ATMAXU (R188). -/
  | atmaxu (c : CoreRef) (f : Fields)
  /-- ATCAS (R188). -/
  | atcas (c : CoreRef) (f : Fields)
  /-- FENCE (R203). -/
  | fence (c : CoreRef) (f : Fields)
  /-- YIELD (R191). -/
  | yield (c : CoreRef) (f : Fields)
  /-- TRAP (R189). -/
  | trap (c : CoreRef) (f : Fields)
  /-- RETURN (R176). -/
  | ret (c : CoreRef) (f : Fields)
  /-- CRR (R189). -/
  | crr (c : CoreRef) (f : Fields)
  /-- CRW (R175). -/
  | crw (c : CoreRef) (f : Fields)
  /-- CRS (R189). -/
  | crs (c : CoreRef) (f : Fields)
  /-- CRC (R172). -/
  | crc (c : CoreRef) (f : Fields)
  /-- ADDS (R190). -/
  | adds (c : CoreRef) (f : Fields)
  /-- SUBS (R190). -/
  | subs (c : CoreRef) (f : Fields)
  /-- ADDUS (R190). -/
  | addus (c : CoreRef) (f : Fields)
  /-- SUBUS (R190). -/
  | subus (c : CoreRef) (f : Fields)
  /-- NEGS (R190). -/
  | negs (c : CoreRef) (f : Fields)
  /-- ABSS (R190). -/
  | abss (c : CoreRef) (f : Fields)
  /-- SATS (R190). -/
  | sats (c : CoreRef) (f : Fields)
  /-- SATU (R190). -/
  | satu (c : CoreRef) (f : Fields)
  /-- MULQ (R190). -/
  | mulq (c : CoreRef) (f : Fields)
  /-- MACQ (R190). -/
  | macq (c : CoreRef) (f : Fields)
  /-- CLAMP (R190). -/
  | clamp (c : CoreRef) (f : Fields)
  /-- RATE (R190). -/
  | rate (c : CoreRef) (f : Fields)
  /-- CKINIT (R192). -/
  | ckinit (c : CoreRef) (f : Fields)
  /-- CKF8 (R192). -/
  | ckf8 (c : CoreRef) (f : Fields)
  /-- CKF16 (R192). -/
  | ckf16 (c : CoreRef) (f : Fields)
  /-- CKF32 (R192). -/
  | ckf32 (c : CoreRef) (f : Fields)
  /-- CKFOLD (R354). -/
  | ckfold (c : CoreRef) (f : Fields)
  /-- CKRD (R192). -/
  | ckrd (c : CoreRef) (f : Fields)
  /-- CKWR (R192). -/
  | ckwr (c : CoreRef) (f : Fields)
  /-- CKFIN (R192). -/
  | ckfin (c : CoreRef) (f : Fields)
  /-- LIS (R192). -/
  | lis (c : CoreRef) (w : Wide)
  /-- LIK (R192). -/
  | lik (c : CoreRef) (w : Wide)
  /-- PCREL (R192). -/
  | pcrel (c : CoreRef) (w : Wide)
  /-- PATROL_SCRUB (R228). -/
  | patrolScrub (err : MemErr)
  /-- SRAM_SCRUB (R228). -/
  | sramScrub (errs : List (MemLoc × MemErr))
  /-- DOORBELL_RING (R245). -/
  | doorbellRing (lane : LaneId) (data : U32)
  /-- MB_ABORT (R239). -/
  | mbAbort (pair : PairId) (data : U32)
  /-- MB_REQUEST_ARRIVE (R239). -/
  | mbRequestArrive (pair : PairId) (src : NetAddr) (port : Option (Fin 4)) (bytes : List Byte)
  /-- EVENT_NOTICE (R268). -/
  | eventNotice (pair : PairId)
  /-- HELLO (R261). -/
  | hello (pair : PairId)
  /-- SYS_GET_IDENTITY (R260). -/
  | sysGetIdentity (pair : PairId)
  /-- SYS_GET_STATUS (R260). -/
  | sysGetStatus (pair : PairId)
  /-- SYS_GET_MEMORY (R262). -/
  | sysGetMemory (pair : PairId)
  /-- SYS_RESTART (R263). -/
  | sysRestart (pair : PairId)
  /-- SYS_ECHO (R260). -/
  | sysEcho (pair : PairId)
  /-- SYS_GET_MBOX_STATS (R260). -/
  | sysGetMboxStats (pair : PairId)
  /-- SYS_DELIVER (R264). -/
  | sysDeliver (pair : PairId)
  /-- SYS_SUBSCRIBE (R265). -/
  | sysSubscribe (pair : PairId)
  /-- SYS_GET_RESET_LOG (R260). -/
  | sysGetResetLog (pair : PairId)
  /-- CFG_GET_STATUS (R493). -/
  | cfgGetStatus (pair : PairId)
  /-- CFG_STAGE_BEGIN (R493). -/
  | cfgStageBegin (pair : PairId)
  /-- CFG_STAGE_WRITE (R493). -/
  | cfgStageWrite (pair : PairId)
  /-- CFG_STAGE_FINISH (R479). -/
  | cfgStageFinish (pair : PairId)
  /-- CFG_READ (R493). -/
  | cfgRead (pair : PairId)
  /-- CFG_DISCARD (R493). -/
  | cfgDiscard (pair : PairId)
  /-- EPOCH_GET_CONFIG (R74). -/
  | epochGetConfig (pair : PairId)
  /-- EPOCH_GET_STATUS (R74). -/
  | epochGetStatus (pair : PairId)
  /-- EPOCH_GET_MARGIN (R74). -/
  | epochGetMargin (pair : PairId)
  /-- EPOCH_CLEAR_COUNTERS (R75). -/
  | epochClearCounters (pair : PairId)
  /-- EPOCH_SET_WARN (R75). -/
  | epochSetWarn (pair : PairId)
  /-- VOTE_GET_STATUS (R127). -/
  | voteGetStatus (pair : PairId)
  /-- VOTE_GET_LINKS (R127). -/
  | voteGetLinks (pair : PairId)
  /-- VOTE_GET_GROUPS (R127). -/
  | voteGetGroups (pair : PairId)
  /-- VOTE_WITHDRAW (R128). -/
  | voteWithdraw (pair : PairId)
  /-- VOTE_REJOIN (R128). -/
  | voteRejoin (pair : PairId)
  /-- VOTE_RESUME_GROUP (R128). -/
  | voteResumeGroup (pair : PairId)
  /-- VOTE_CLEAR_COUNTERS (R127). -/
  | voteClearCounters (pair : PairId)
  /-- VOTE_GET_ADMIT (R127). -/
  | voteGetAdmit (pair : PairId)
  /-- TIME_GET_ALL (R290). -/
  | timeGetAll (pair : PairId)
  /-- TIME_GET_SERVO (R290). -/
  | timeGetServo (pair : PairId)
  /-- TIME_SET_SERVO (R291). -/
  | timeSetServo (pair : PairId)
  /-- TIME_SET_INCR (R291). -/
  | timeSetIncr (pair : PairId)
  /-- TIME_SET (R291). -/
  | timeSet (pair : PairId)
  /-- TIME_CAP_SET (R291). -/
  | timeCapSet (pair : PairId)
  /-- TIME_TPO_SET (R291). -/
  | timeTpoSet (pair : PairId)
  /-- TIME_PTP_SET (R292). -/
  | timePtpSet (pair : PairId)
  /-- TIME_PTP_GET (R290). -/
  | timePtpGet (pair : PairId)
  /-- NET_GET_PORT (R322). -/
  | netGetPort (pair : PairId)
  /-- NET_SET_PORT (R323). -/
  | netSetPort (pair : PairId)
  /-- NET_CLEAR_COUNTERS (R322). -/
  | netClearCounters (pair : PairId)
  /-- NET_GCL_SET (R323). -/
  | netGclSet (pair : PairId)
  /-- NET_GCL_GET (R322). -/
  | netGclGet (pair : PairId)
  /-- NET_CB_GET (R322). -/
  | netCbGet (pair : PairId)
  /-- NET_PD_GET (R322). -/
  | netPdGet (pair : PairId)
  /-- NET_MVB_GET (R322). -/
  | netMvbGet (pair : PairId)
  /-- NET_CAN_GET (R322). -/
  | netCanGet (pair : PairId)
  /-- NET_CAN_RECOVER (R323). -/
  | netCanRecover (pair : PairId)
  /-- ROUTE_BEGIN (R317). -/
  | routeBegin (pair : PairId)
  /-- ROUTE_COPY_DONE (R317). -/
  | routeCopyDone
  /-- ROUTE_WRITE (R323). -/
  | routeWrite (pair : PairId)
  /-- ROUTE_COMMIT (R318). -/
  | routeCommit (pair : PairId)
  /-- ROUTE_CHECK_DONE (R318). -/
  | routeCheckDone
  /-- ROUTE_ABORT (R317). -/
  | routeAbort (pair : PairId)
  /-- ROUTE_GET_STATUS (R322). -/
  | routeGetStatus (pair : PairId)
  /-- ROUTE_READ (R323). -/
  | routeRead (pair : PairId)
  /-- RACK_GET_STATUS (R348). -/
  | rackGetStatus (pair : PairId)
  /-- RACK_READ (R349). -/
  | rackRead (pair : PairId)
  /-- RACK_WRITE (R349). -/
  | rackWrite (pair : PairId)
  /-- RACK_GET_LOG (R348). -/
  | rackGetLog (pair : PairId)
  /-- RACK_CLEAR (R348). -/
  | rackClear (pair : PairId)
  /-- RACK_SET_POLL (R349). -/
  | rackSetPoll (pair : PairId)
  /-- RACK_SET_PF (R349). -/
  | rackSetPf (pair : PairId)
  /-- FIO_GET_STATUS (R384). -/
  | fioGetStatus (pair : PairId)
  /-- FIO_GET_COMPAT (R384). -/
  | fioGetCompat (pair : PairId)
  /-- FIO_GET_CHANNEL (R384). -/
  | fioGetChannel (pair : PairId)
  /-- FIO_SET_CHANNEL (R385). -/
  | fioSetChannel (pair : PairId)
  /-- FIO_CLEAR (R385). -/
  | fioClear (pair : PairId) (hot : U32)
  /-- SAFE_GET_STATUS (R414). -/
  | safeGetStatus (pair : PairId)
  /-- SAFE_GET_SPEED (R414). -/
  | safeGetSpeed (pair : PairId)
  /-- SAFE_GET_FUNC (R414). -/
  | safeGetFunc (pair : PairId)
  /-- SAFE_GET_CONFIG (R414). -/
  | safeGetConfig (pair : PairId)
  /-- SAFE_CLEAR (R416). -/
  | safeClear (pair : PairId)
  /-- SAFE_OUT_REQUEST (R415). -/
  | safeOutRequest (pair : PairId)
  /-- ANA_GET_STATUS (R434). -/
  | anaGetStatus (pair : PairId)
  /-- ANA_GET_CHANNEL (R434). -/
  | anaGetChannel (pair : PairId)
  /-- ANA_SET_DET (R435). -/
  | anaSetDet (pair : PairId)
  /-- ANA_SYNC (R435). -/
  | anaSync (pair : PairId)
  /-- ANA_GET_ROM (R435). -/
  | anaGetRom (pair : PairId)
  /-- PWR_GET_STATUS (R450). -/
  | pwrGetStatus (pair : PairId)
  /-- PWR_SET_PERF (R450). -/
  | pwrSetPerf (pair : PairId)
  /-- PWR_HOLDUP_TEST (R450). -/
  | pwrHoldupTest (pair : PairId)
  /-- PWR_GET_LOG (R450). -/
  | pwrGetLog (pair : PairId)
  /-- UPD_GET_STATUS (R475). -/
  | updGetStatus (pair : PairId)
  /-- UPD_BEGIN (R476). -/
  | updBegin (pair : PairId)
  /-- UPD_WRITE (R476). -/
  | updWrite (pair : PairId)
  /-- UPD_FINISH (R476). -/
  | updFinish (pair : PairId)
  /-- UPD_ABORT (R476). -/
  | updAbort (pair : PairId)
  /-- SEC_GET_STATUS (R494). -/
  | secGetStatus (pair : PairId)
  /-- SEC_GET_KEYS (R494). -/
  | secGetKeys (pair : PairId)
  /-- SEC_GET_REGISTRY (R494). -/
  | secGetRegistry (pair : PairId)
  /-- SEC_GET_IDENTITY (R494). -/
  | secGetIdentity (pair : PairId)
  /-- SEC_GET_CERT (R494). -/
  | secGetCert (pair : PairId)
  /-- SEC_ATTEST (R494). -/
  | secAttest (pair : PairId)
  /-- SEC_SUBMIT_CHANGE (R485). -/
  | secSubmitChange (pair : PairId)
  /-- SEC_DEBUG_LOCK (R489). -/
  | secDebugLock (pair : PairId)
  /-- REC_GET_STATUS (R506). -/
  | recGetStatus (pair : PairId)
  /-- REC_READ (R507). -/
  | recRead (pair : PairId)
  /-- REC_MARK (R506). -/
  | recMark (pair : PairId)
  /-- REC_SET_CFG (R507). -/
  | recSetCfg (pair : PairId)
  /-- DBG_GET_STATUS (R506). -/
  | dbgGetStatus (pair : PairId)
  /-- DBG_FREEZE (R507). -/
  | dbgFreeze (pair : PairId)
  /-- DEBUG_UNLOCK_EXPIRE (R489). -/
  | debugUnlockExpire
  /-- FREEZE_PIN (R495). -/
  | freezePin
  /-- TAP_IDCODE (R499). -/
  | tapIdcode
  /-- TAP_DBG_STATUS (R499). -/
  | tapDbgStatus
  /-- TAP_SCAN_SELECT (R500). -/
  | tapScanSelect (chain : U16)
  /-- TAP_SCAN_READ (R500). -/
  | tapScanRead
  /-- TAP_MEM_ADDR (R499). -/
  | tapMemAddr (addr : BitVec 40)
  /-- TAP_MEM_READ (R500). -/
  | tapMemRead
  /-- TAP_MEM_WRITE (R499). -/
  | tapMemWrite (data : Word)
  /-- TAP_FIRN_INJECT (R155). -/
  | tapFirnInject (data : U32) (detected : Bool)
  /-- TAP_RESUME (R497). -/
  | tapResume (bit : Bool) (frzHigh : Bool)
  /-- TAP_BYPASS (R499). -/
  | tapBypass
  /-- DBG_CTRL_WRITE (R505). -/
  | dbgCtrlWrite (data : U32)
  /-- MORAINE_FLUSH (R504). -/
  | moraineFlush
  /-- RATE_WINDOW_END (R503). -/
  | rateWindowEnd
  /-- SERVO_MEAS_WRITE (R274). -/
  | servoMeasWrite (k : Fin 2) (data : U32)
  /-- SERVO_HELD_UPDATE (R276). -/
  | servoHeldUpdate (k : Fin 3)
  /-- INCR_WRITE (R273). -/
  | incrWrite (k : Fin 3) (data : U32)
  /-- SERVO_HOLDOVER (R278). -/
  | servoHoldover (k : Fin 3)
  /-- SERVO_LOST (R278). -/
  | servoLost (k : Fin 3)
  /-- CAPTURE (R282). -/
  | capture (unit : Fin 16) (falling : Bool) (glitch : Bool)
  /-- TPO_EDGE (R285). -/
  | tpoEdge (out : Fin 8)
  /-- TPO_CTRL_WRITE (R287). -/
  | tpoCtrlWrite (out : Fin 8) (reg : Fin 6) (data : U32)
  /-- ETH_FRAME_RX (R304). -/
  | ethFrameRx (port : Fin 4) (bytes : List Byte)
  /-- ETH_LINK_CHANGE (R294). -/
  | ethLinkChange (port : Fin 4) (link : BitVec 2) (fec : Bool)
  /-- GATE_INTERVAL (R298). -/
  | gateInterval (port : Fin 4)
  /-- ETH_FRAME_TX (R298). -/
  | ethFrameTx (port : Fin 4) (queue : Fin 8)
  /-- CB_RECOVERY_TIMEOUT (R299). -/
  | cbRecoveryTimeout (stream : U16)
  /-- RING_TAIL_WRITE (R310). -/
  | ringTailWrite (m : Master) (ring : Fin 64) (data : U32)
  /-- RING_DESC_DONE (R310). -/
  | ringDescDone (ring : Fin 64) (ok : Bool)
  /-- MVB_FRAME (R312). -/
  | mvbFrame (lineB : Bool) (master : Bool) (code : BitVec 4) (addr : BitVec 12) (data : List Byte)
  /-- MVB_BA_PERIOD (R312). -/
  | mvbBaPeriod
  /-- CAN_FRAME_RX (R313). -/
  | canFrameRx (port : Fin 4) (ident : U32) (data : List Byte)
  /-- CAN_TX_DONE (R313). -/
  | canTxDone (port : Fin 4)
  /-- CAN_BUS_OFF (R313). -/
  | canBusOff (port : Fin 4)
  /-- CAN_BUSOFF_RECOVERY (R313). -/
  | canBusoffRecovery (port : Fin 4)
  /-- RACK_LOCK_WRITE (R331). -/
  | rackLockWrite (m : Master) (data : U32)
  /-- RACK_LOCK_TIMEOUT (R331). -/
  | rackLockTimeout
  /-- RACK_GRANT (R340). -/
  | rackGrant
  /-- RACK_BUS_ACCESS_DONE (R327). -/
  | rackBusAccessDone (answers : List (BitVec 2 × U32))
  /-- RACK_SCAN_START (R333). -/
  | rackScanStart
  /-- INBOUND_WRITE (R336). -/
  | inboundWrite (addr : U32) (byteEn : BitVec 4) (data : U32) (locked : Bool)
  /-- INBOUND_DRAIN (R336). -/
  | inboundDrain
  /-- INBOUND_READ (R338). -/
  | inboundRead (addr : U32) (width : Nat) (locked : Bool)
  /-- PF_REFILL_DONE (R337). -/
  | pfRefillDone (window : Fin 8)
  /-- DELAYED_READ_DONE (R338). -/
  | delayedReadDone (buffer : Fin 4)
  /-- DR_EXPIRE (R338). -/
  | drExpire (buffer : Fin 4)
  /-- RB_IRQ_POLL (R341). -/
  | rbIrqPoll (lines : BitVec 8)
  /-- RACK_MONITOR_CYCLE (R345). -/
  | rackMonitorCycle (cmd : BitVec 4) (addr : U32) (byteEn : BitVec 4) (data : List U32) (rsp : BitVec 2) (wl : Bool)
  /-- RB_CLK_LOSS (R346). -/
  | rbClkLoss
  /-- RACK_BRIDGE_FAIL (R346). -/
  | rackBridgeFail
  /-- CHK_DATA_WRITE (R352). -/
  | chkDataWrite (m : Master) (trailing : Bool) (ctx : Fin 16) (size : Nat) (data : U32)
  /-- CHK_FOLD_WRITE (R354). -/
  | chkFoldWrite (m : Master) (trailing : Bool) (ctx : Fin 16) (data : U32)
  /-- CHK_VAL_WRITE (R351). -/
  | chkValWrite (m : Master) (trailing : Bool) (ctx : Fin 16) (data : U32)
  /-- CHK_CMP_WRITE (R359). -/
  | chkCmpWrite (m : Master) (trailing : Bool) (ctx : Fin 16) (data : U32)
  /-- CHK_INIT_WRITE (R358). -/
  | chkInitWrite (m : Master) (trailing : Bool) (ctx : Fin 16) (data : U32)
  /-- CHK_CFG_WRITE (R355). -/
  | chkCfgWrite (ctx : Fin 16) (data : U32)
  /-- FIELD_FRAME (R365). -/
  | fieldFrame (volt0 : BitVec 14) (volt1 : BitVec 14)
  /-- FIELD_RELEASE_FRAME (R368). -/
  | fieldReleaseFrame (hot : U32)
  /-- INPUT_FILTER_EDGE (R364). -/
  | inputFilterEdge (ch : Fin 32)
  /-- FIO_CURRENT_LIMIT (R371). -/
  | fioCurrentLimit (ch : Fin 32) (engaged : Bool)
  /-- FIO_OVERLOAD (R369). -/
  | fioOverload (ch : Fin 32)
  /-- FIO_OVERTEMP (R369). -/
  | fioOvertemp (ch : Fin 32)
  /-- OPEN_WIRE_ON (R369). -/
  | openWireOn (ch : Fin 32) (low : Bool)
  /-- OPEN_WIRE_OFF (R369). -/
  | openWireOff (ch : Fin 32) (high : Bool)
  /-- EXT_DRIVE (R369). -/
  | extDrive (ch : Fin 32) (driven : Bool)
  /-- FIELD_HB_LOST (R373). -/
  | fieldHbLost
  /-- FIELD_HB_RETURN (R373). -/
  | fieldHbReturn
  /-- TSS_TIMEOUT (R375). -/
  | tssTimeout
  /-- SUPPLY_WARN (R378). -/
  | supplyWarn (group : Fin 2) (low : Bool)
  /-- SUPPLY_TRIP (R378). -/
  | supplyTrip (group : Fin 2)
  /-- REARM_PERMIT (R378). -/
  | rearmPermit (group : Fin 2) (dip : Bool)
  /-- SAFETY_TICK (R386). -/
  | safetyTick
  /-- DISCREPANCY_LATCH (R390). -/
  | discrepancyLatch (input : Fin 8)
  /-- TPS_DARK (R391). -/
  | tpsDark (tps : Fin 2)
  /-- TPS_LIGHT (R391). -/
  | tpsLight (tps : Fin 2)
  /-- SAFETY_FIELD_FRAME (R387). -/
  | safetyFieldFrame (frame : SafeFrame)
  /-- SAFETY_RELEASE_FRAME (R395). -/
  | safetyReleaseFrame
  /-- SAFETY_HB_LOST (R387). -/
  | safetyHbLost
  /-- SAFETY_FIELD_SILENCE (R387). -/
  | safetyFieldSilence
  /-- SAFETY_TSS (R395). -/
  | safetyTss
  /-- SHUTDOWN_CONFIRM (R397). -/
  | shutdownConfirm (out : Fin 8)
  /-- SHUTDOWN_STUCK (R397). -/
  | shutdownStuck (out : Fin 8)
  /-- PRECHECK_TIMEOUT (R397). -/
  | precheckTimeout (out : Fin 8)
  /-- OUTPUT_TEST_PULSE (R400). -/
  | outputTestPulse (out : Fin 8) (low : Bool) (failed : Bool) (cross : Option (Fin 8))
  /-- SAFE_OVERLOAD (R397). -/
  | safeOverload (out : Fin 8)
  /-- SAFE_OVERTEMP (R397). -/
  | safeOvertemp (out : Fin 8) (hotLow : Bool)
  /-- OPEN_LOAD (R401). -/
  | openLoad (out : Fin 8) (isOpen : Bool)
  /-- SAFE_SUPPLY_LOW (R402). -/
  | safeSupplyLow
  /-- SAFE_SUPPLY_RETURN (R402). -/
  | safeSupplyReturn
  /-- SPEED_INPUT_FAULT (R404). -/
  | speedInputFault (input : Fin 4) (fault : BitVec 4)
  /-- CHECK_DIFF_FAULT (R407). -/
  | checkDiffFault (func : Fin 4)
  /-- STANDSTILL_REACHED (R405). -/
  | standstillReached
  /-- ANALOG_SAMPLE (R426). -/
  | analogSample (ch : Fin 16) (at16 : Nat) (code : BitVec 24)
  /-- ANALOG_OPEN (R418). -/
  | analogOpen (ch : Fin 16) (low : Bool)
  /-- ANALOG_OVERCUR (R418). -/
  | analogOvercur (ch : Fin 16) (high : Bool)
  /-- BURDEN_DISCONNECT (R418). -/
  | burdenDisconnect (ch : Fin 16)
  /-- BURDEN_RECONNECT (R418). -/
  | burdenReconnect (ch : Fin 16)
  /-- CHAIN_FAULT (R432). -/
  | chainFault (ch : Fin 16)
  /-- MU_SYNC_WRITE (R428). -/
  | muSyncWrite (data : U32)
  /-- FEED_INVALID (R437). -/
  | feedInvalid (feed : Feed) (centivolts : BitVec 12)
  /-- FEED_VALID (R437). -/
  | feedValid (feed : Feed) (centivolts : BitVec 12) (env : StartEnv)
  /-- FEED_OVER (R519). -/
  | feedOver (feed : Feed)
  /-- CALVING_STAGE_2 (R444). -/
  | calvingStage2 (energy : BitVec 12)
  /-- CALVING_STAGE_3 (R444). -/
  | calvingStage3 (energy : BitVec 12)
  /-- CALVING_STAGE_5 (R444). -/
  | calvingStage5 (energy : BitVec 12)
  /-- RESTORE_COMPLETE (R448). -/
  | restoreComplete
  /-- HOLDUP_TEST_DAILY (R441). -/
  | holdupTestDaily
  /-- HOLDUP_MEASURE_DONE (R441). -/
  | holdupMeasureDone (cap : BitVec 12)
  /-- BANK_FULL (R439). -/
  | bankFull
  /-- VBAK_LOW (R442). -/
  | vbakLow (millivolts : BitVec 12)
  /-- PWR_DRAW_READ (R449). -/
  | pwrDrawRead
  /-- SLOT_PIN_CHANGE (R515). -/
  | slotPinChange (pins : BitVec 2)
  /-- RB_CLK_RETURN (R346). -/
  | rbClkReturn
  /-- VBAK_RETURN (R442). -/
  | vbakReturn (millivolts : BitVec 12)
  /-- CALVING_FLUSH_DONE (R447). -/
  | calvingFlushDone (env : StartEnv)
  /-- LINKUP_TB2_ROUND (R82). -/
  | linkupTb2Round (sd : Side)
  /-- LONG_COMMAND_DONE (R252). -/
  | longCommandDone (pair : PairId) (ok : Bool)
  /-- LONG_COMMAND_TIMEOUT (R252). -/
  | longCommandTimeout (pair : PairId)
  /-- PD0_SUPERVISOR_FAULT (R261). -/
  | pd0SupervisorFault (env : StartEnv)
deriving DecidableEq, Repr

end Sys2Proof
end

