-- ==== Sys2Proof/Machine/Bits.lean ====
section
/-! DEFINITION. Bit fields, sign extension, byte order and the CRCs that several blocks share
(R13 little-endian fields; Table 11.1 for the CRC parameters). -/

namespace Sys2Proof.Machine

/-- The low `w` bits of `v` as an unsigned number: `zx(v, w)` of the notation of chapter 5. -/
def zx (v : Word) (w : Nat) : Nat := v.toNat % 2 ^ w

/-- The low `w` bits of the integer `v` read as a signed number: `sx(v, w)`. -/
def sxInt (v : Int) (w : Nat) : Int :=
  let m := v % (2 ^ w : Int)
  if 2 * m < (2 ^ w : Int) then m else m - (2 ^ w : Int)

/-- `wrap(v)`: `v` modulo 2^64 as a word. -/
def wrap (v : Int) : Word := BitVec.ofInt 64 v

/-- The number `n` as `k` little-endian bytes (R13). -/
def leBytes : Nat → Nat → List Byte
  | 0, _ => []
  | k + 1, n => BitVec.ofNat 8 n :: leBytes k (n / 256)

/-- The number that little-endian bytes spell (R13). -/
def ofLe : List Byte → Nat
  | [] => 0
  | b :: bs => b.toNat + 256 * ofLe bs

/-- The number that big-endian bytes spell (fields of a named standard, R13). -/
def ofBe (bs : List Byte) : Nat := bs.foldl (fun n b => 256 * n + b.toNat) 0

/-- The number `n` as `k` big-endian bytes. -/
def beBytes (k n : Nat) : List Byte := (leBytes k n).reverse

/-- Bytes `off` to `off + n - 1` of a byte list; a byte beyond the end reads 0. -/
def slice (bs : List Byte) (off n : Nat) : List Byte :=
  let t := (bs.drop off).take n
  t ++ List.replicate (n - t.length) 0

/-- The little-endian number at byte `off` of width `n` bytes. -/
def leAt (bs : List Byte) (off n : Nat) : Nat := ofLe (slice bs off n)

/-- `n` zero bytes. -/
def zeros (n : Nat) : List Byte := List.replicate n 0

/-- `bs` cut or padded with zeros to exactly `n` bytes. -/
def fit (n : Nat) (bs : List Byte) : List Byte := slice bs 0 n

/-- Bit `i` of a number. -/
def bitOf (n i : Nat) : Bool := n.testBit i

/-- The field `[hi:lo]` of a number. -/
def field (n hi lo : Nat) : Nat := (n / 2 ^ lo) % 2 ^ (hi + 1 - lo)

/-- A Bool as the number 0 or 1. -/
def b2n (b : Bool) : Nat := if b then 1 else 0

/-- Saturating addition at `2 ^ w - 1`. -/
def satAdd {w : Nat} (x : BitVec w) (n : Nat) : BitVec w :=
  BitVec.ofNat w (min (x.toNat + n) (2 ^ w - 1))

/-- One increment of a saturating counter. -/
def satInc {w : Nat} (x : BitVec w) : BitVec w := satAdd x 1

/-- `x` with bit `i` set. -/
def setBit {w : Nat} (x : BitVec w) (i : Nat) : BitVec w := x ||| BitVec.ofNat w (2 ^ i)

/-- `x` with bit `i` cleared. -/
def clearBit {w : Nat} (x : BitVec w) (i : Nat) : BitVec w := x &&& ~~~ BitVec.ofNat w (2 ^ i)

/-- `x` with bit `i` set to `b`. -/
def putBit {w : Nat} (x : BitVec w) (i : Nat) (b : Bool) : BitVec w :=
  if b then setBit x i else clearBit x i

/-- The number of the Bools of a list, first element at bit 0. -/
def bitsNum : List Bool → Nat
  | [] => 0
  | b :: bs => b2n b + 2 * bitsNum bs

/-- The even parity bit over the low `w` bits of `n` (Table 4.3). -/
def parityOf : Nat → Nat → Bool
  | 0, _ => false
  | w + 1, n => xor (n % 2 == 1) (parityOf w (n / 2))

/-- One step of a non-reflected CRC: the register takes one message bit, most significant first. -/
def crcStepMsb (w poly : Nat) (r : Nat) (bit : Bool) : Nat :=
  let top := xor (r.testBit (w - 1)) bit
  let r' := (r * 2) % 2 ^ w
  if top then Nat.xor r' poly else r'

/-- One byte into a non-reflected CRC, most significant bit first. -/
def crcByteMsb (w poly : Nat) (r : Nat) (b : Byte) : Nat :=
  [7, 6, 5, 4, 3, 2, 1, 0].foldl (fun r i => crcStepMsb w poly r (b.getLsbD i)) r

/-- One step of a reflected CRC: the register takes one message bit, least significant first; `rpoly` is the
polynomial with its bits reversed. -/
def crcStepLsb (rpoly : Nat) (r : Nat) (bit : Bool) : Nat :=
  let low := xor (r.testBit 0) bit
  let r' := r / 2
  if low then Nat.xor r' rpoly else r'

/-- One byte into a reflected CRC, least significant bit first. -/
def crcByteLsb (rpoly : Nat) (r : Nat) (b : Byte) : Nat :=
  [0, 1, 2, 3, 4, 5, 6, 7].foldl (fun r i => crcStepLsb rpoly r (b.getLsbD i)) r

/-- The polynomial of CRC-64/ECMA-182 (R142). -/
def ecmaPoly : Nat := 0x42F0E1EBA9EA3693

/-- Bytes into a running CRC-64/ECMA-182 value: init 0, not reflected, XorOut 0 (R142). -/
def crc64Feed (r : Word) (bs : List Byte) : Word :=
  BitVec.ofNat 64 (bs.foldl (crcByteMsb 64 ecmaPoly) r.toNat)

/-- CRC-64/ECMA-182 of a byte string. -/
def crc64 (bs : List Byte) : Word := crc64Feed 0 bs

/-- CRC-32C of a byte string: reflected, init and XorOut all ones (Table 11.1). -/
def crc32c (bs : List Byte) : U32 :=
  BitVec.ofNat 32 (Nat.xor (bs.foldl (crcByteLsb 0x82F63B78) 0xFFFFFFFF) 0xFFFFFFFF)

end Sys2Proof.Machine
end

