-- ==== Sys2Proof/Machine/LaneState.lean ====
section
/-! DEFINITION. The state of the eight lanes: their cores, Drift queues, Firn units, store gates and epoch
states (chapters 2, 4, 5 and 6), as plain data. -/

namespace Sys2Proof.Machine

/-- A sparse byte memory: address and byte pairs, addresses strictly rising, no byte equal to 0, which is what
an unlisted address reads as (log entry 12). -/
abbrev Mem := List (Nat × Byte)

/-- A register file of 32 words of 64 bits (R168). -/
abbrev RegFile := Vector Word 32

/-- The control registers that are stored in a core (Tables 5.1 to 5.6, 6.5, 6.6). EPOCH_NO, EPOCH_TIME,
LANE_ID, SLOT_ID, IMAGE_GEN, BUDGET_LEFT and RETIRED are read from other state. -/
structure CtrlRegs where
  /-- TASK_CLASS (5): class in bits 1:0, task index in bits 15:8. -/
  taskClass : Word
  /-- RM (6). -/
  rm : BitVec 3
  /-- FFLAGS (7): NV, DZ, OF, UF, NX from bit 0. -/
  fflags : BitVec 5
  /-- IFLAGS (8): DZ, OV, SAT from bit 0. -/
  iflags : BitVec 3
  /-- STATUS (9): PRIV, PREV_PRIV, EXC, BEX_PEND, CAD_PEND from bit 0. -/
  status : BitVec 5
  /-- CAUSE (10): CODE in bits 5:0, FETCH, WRITE, ASYNC. -/
  cause : BitVec 9
  /-- EPC (11). -/
  epc : Word
  /-- EVAL (12). -/
  eval : Word
  /-- VBASE (13). -/
  vbase : Word
  /-- SCRATCH_0 (14). -/
  scratch0 : Word
  /-- SCRATCH_1 (15). -/
  scratch1 : Word
  /-- TASK_TAB (16). -/
  taskTab : Word
  /-- TASK_SEL (17). -/
  taskSel : Word
  /-- PROT_BASE_k (32 + k). -/
  protBase : Vector Word 16
  /-- PROT_ATTR_k (48 + k). -/
  protAttr : Vector Word 16
deriving DecidableEq, Repr

/-- The control registers at lane load and reload (R169, Tables 5.1 to 5.4). -/
def CtrlRegs.reset : CtrlRegs :=
  { taskClass := 0, rm := 0, fflags := 0, iflags := 0, status := 1, cause := 0, epc := 0, eval := 0
    vbase := 0x4000000000, scratch0 := 0, scratch1 := 0, taskTab := 0, taskSel := 0
    protBase := Vector.replicate 16 0, protAttr := Vector.replicate 16 0 }

/-- A closed Firn window of one core, waiting for its compare (R142 to R145). -/
structure FirnWindow where
  wseq : U32
  count : U32
  sig : Word
  /-- Retired count since lane load at the first instruction of the window (Table 4.23). -/
  start : Word
deriving DecidableEq, Repr

/-- One core of a lane (R168). -/
structure Core where
  g : RegFile
  f : RegFile
  pc : Word
  cr : CtrlRegs
  /-- Instructions retired since lane load: control register RETIRED (19). -/
  retired : Word
  /-- The rounding mode latched by the last write to TASK_SEL that took effect (R175, R176). -/
  latchedRm : BitVec 3
  /-- A RETURN to user mode has happened since load, so TASK_TAB is read-only (R174). -/
  taskTabLocked : Bool
  /-- Suspended by a yield until the next seal (R191). -/
  suspended : Bool
  /-- BUDGET_EXHAUSTED was taken this epoch (R196). -/
  bexTaken : Bool
  /-- COMMIT_LATE was taken this epoch (R196). -/
  cadTaken : Bool
  /-- Instruction TCM of this core. -/
  itcm : Mem
  /-- Data TCM of this core. -/
  dtcm : Mem
  /-- Running CRC-64 of the open Firn window (R142). -/
  sig : Word
  /-- Firn records of the exception entries since the last retired instruction: they are fed with the next one (R141,
  log entry 92). -/
  entry : List Byte
  /-- Window sequence number of the open window. -/
  wseq : U32
  /-- Window counter: instructions retired in the open window (R143). -/
  wcount : U32
  /-- Retired count at the first instruction of the open window. -/
  wstart : Word
  /-- Closed windows that wait for comparison, oldest first (R145). -/
  closed : List FirnWindow
  /-- Instructions retired since the last drain point (R131). -/
  sinceDrain : Nat
  /-- Instructions retired in the running 10 µs interval of TB3 (R166). -/
  interval : Nat
  /-- LANE_SPEED.CUR of this core. -/
  speedCur : U16
  /-- LANE_SPEED.MIN of this core. -/
  speedMin : U16
  /-- The commit flag of the yield that suspended the core (R55). -/
  yieldCommit : Bool
  /-- The core's commit of this epoch was accepted (R55, R159). -/
  committed : Bool
  /-- A memory error in a retained block of the core has its commit of this epoch rejected (R226). -/
  rejected : Bool
deriving DecidableEq, Repr

/-- A core as lane load leaves it: registers 0, TCM as given, control registers at their reset values (R169). -/
def Core.loaded (itcm dtcm : Mem) : Core :=
  { g := Vector.replicate 32 0, f := Vector.replicate 32 0, pc := 0, cr := CtrlRegs.reset, retired := 0
    latchedRm := 0, taskTabLocked := false, suspended := true, bexTaken := false, cadTaken := false
    itcm := itcm, dtcm := dtcm, sig := 0, entry := [], wseq := 0, wcount := 0, wstart := 0, closed := [], sinceDrain := 0
    interval := 0, speedCur := 0, speedMin := 0xFFFF, yieldCommit := false, committed := false, rejected := false }

/-- Lane modes (Table 4.8). -/
inductive LaneMode where
  | paired
  | split
  | rejoining
  | independent
deriving DecidableEq, Repr

/-- Lane epoch states (Table 2.7). -/
inductive EpState where
  | stopped
  | waitSeal
  | compute
  | committed
  | late
  | diverged
  | faulted
  | shed
deriving DecidableEq, Repr

/-- KIND of a Drift entry (Table 4.3). -/
inductive DriftKind where
  | load
  | atomic
  | check
  | device
  | async
  | mark
deriving DecidableEq, Repr

/-- A Drift queue entry (Table 4.3). `kind` is KIND as stored, 4 bits. -/
structure DriftEntry where
  data : Word
  kind : BitVec 4
  seq : BitVec 10
  parity : Bool
deriving DecidableEq, Repr

/-- A store held in the store gate (R136). -/
structure GateEntry where
  addr : Nat
  size : Nat
  data : Word
  /-- WSEQ of the Firn window that holds the store. -/
  wseq : U32
deriving DecidableEq, Repr

/-- The drain point at which L waits (Table 4.1). -/
inductive DrainKind where
  | yield
  | load
  | gateFull
deriving DecidableEq, Repr

/-- An initialised section of a lane image (R462): TARGET 0 instruction TCM, 1 data TCM, 2 partition. -/
structure ImageSection where
  target : Nat
  dest : Nat
  data : List Byte
deriving DecidableEq, Repr

/-- What the running lane image of a lane holds (R462, R50). -/
structure LaneImage where
  sections : List ImageSection
  /-- Retained blocks declared by the leading core (R59, R158). -/
  ownL : List Nat
  /-- Retained blocks declared by the trailing core. -/
  ownT : List Nat
deriving DecidableEq, Repr

/-- One lane (chapters 2 and 4). -/
structure Lane where
  /-- LANE_CFG.DELAY. -/
  delay : BitVec 2
  /-- LANE_CFG.WINDOW. -/
  window : BitVec 2
  /-- LANE_CFG.SPLIT_ALLOWED. -/
  splitAllowed : Bool
  /-- LANE_CTRL.MODE_REQ. -/
  modeReq : BitVec 2
  /-- The MODE_REQ that stood when the commit of this epoch completed (R157). -/
  modeTaken : BitVec 2
  mode : LaneMode
  disabled : Bool
  bistPass : Bool
  l : Core
  t : Core
  epochState : EpState
  /-- The lane image that the set holds for this lane, none when it holds none. -/
  image : Option LaneImage
  /-- Drift queue, oldest entry first (R138). -/
  drift : List DriftEntry
  driftPeak : BitVec 13
  driftStalls : U32
  /-- Store gate, oldest store first (R136). -/
  gate : List GateEntry
  /-- The drain point at which L waits, if any. -/
  drain : Option DrainKind
  /-- The copy of a rejoin has ended equal (R160). -/
  rejoinDone : Bool
  /-- A seal has come while a rejoin copy ran (R160). -/
  sealSeen : Bool
  /-- Lane faulted after D_c with an accepted commit: FAULTED at the next boundary (R65). -/
  faultPending : Bool
  /-- A lane fault of checker class awaits its injection tests (R150). -/
  testsDue : Bool
  firnCause : BitVec 4
  firnChecker : Bool
  firnMask : BitVec 9
  firnWseq : U32
  firnSigL : Word
  firnSigT : Word
  firnPos : Word
  firnSigLHi : U32
  firnSigTHi : U32
  firnPosHi : U32
  /-- FIRN_STATUS, the signatures and FIRN_FAULT_POS are frozen until reload (R148). -/
  firnFrozen : Bool
  faultsCore : BitVec 8
  faultsChecker : BitVec 8
  /-- TB3 times in nanoseconds of the lane faults that count toward R151, newest first. -/
  faultTimes : List Nat
  bistDetected : BitVec 6
  bistDone : Bool
  bistAllPass : Bool
  bistLast : BitVec 3
  ovrCnt : U32
  /-- Margins D_c minus commit timestamp of the last accepted commits, newest first, at most 1024. -/
  margins : List Nat
  /-- Latest commit timestamp in nanoseconds after B(n) (Table 2.25). -/
  lastCommit : U32
  /-- The lane read a STALE published block in this epoch (R61). -/
  readStale : Bool
  /-- Its commit was rejected for a stale read in this epoch (R61, R62). -/
  staleRejected : Bool
  /-- The lane's published block is STALE (R60). -/
  publishedStale : Bool
  /-- L's retired count at the seal (Table 4.16). -/
  retiredAtSeal : Word
  /-- LANE_RETIRED. -/
  retiredLast : U32
  /-- Catch-up of the lane's blocks is complete (R64, R123). -/
  caughtUp : Bool
  /-- Agreeing epochs of the lane's admission, 0 to 10 (R124). -/
  admits : Nat
  /-- The lane's groups take part after admission (R124). -/
  admitted : Bool
  /-- The lane's count was reset, and its blocks are to be sent again before counting goes on (R125). -/
  resend : Bool
  /-- A reload of the lane is under way (R535). -/
  reloading : Bool
  /-- The lane was in COMPUTE at some time of the running 10 µs interval (R166). -/
  computed : Bool
deriving DecidableEq, Repr

/-- A lane after module reset: STOPPED, no image (Tables 2.17, 4.13 to 4.25). -/
def Lane.reset : Lane :=
  { delay := 1, window := 1, splitAllowed := false, modeReq := 0, modeTaken := 0, mode := .paired
    disabled := false, bistPass := false, l := Core.loaded [] [], t := Core.loaded [] []
    epochState := .stopped, image := none, drift := [], driftPeak := 0, driftStalls := 0, gate := []
    drain := none, rejoinDone := false, sealSeen := false, faultPending := false, testsDue := false
    firnCause := 0, firnChecker := false, firnMask := 0, firnWseq := 0, firnSigL := 0, firnSigT := 0
    firnPos := 0, firnSigLHi := 0, firnSigTHi := 0, firnPosHi := 0, firnFrozen := false, faultsCore := 0
    faultsChecker := 0, faultTimes := [], bistDetected := 0, bistDone := false, bistAllPass := false
    bistLast := 0, ovrCnt := 0, margins := [], lastCommit := 0xFFFFFFFF, readStale := false
    staleRejected := false, publishedStale := false, retiredAtSeal := 0, retiredLast := 0
    caughtUp := false, admits := 0, admitted := false, resend := false, reloading := false
    computed := false }

/-- An entry of the partition map (Table 6.4). -/
structure PartEntry where
  units : Nat
  splitUnits : Nat
  codePages : Nat
deriving DecidableEq, Repr

/-- The lanes as a block, with the module-wide LANE registers (Tables 4.12 to 4.19). -/
structure LaneBlock where
  lane : Vector Lane 8
  /-- The partition map of the running image set (R215). -/
  parts : Vector PartEntry 8
  /-- Image generation of the running lane images. -/
  imageGen : U32
  /-- CHK_c_CFG of each context as the running image set binds it (R355). -/
  bindings : Vector (BitVec 8) 16
  /-- LANE_PERF[7:0]: levels of PD3 to PD6. -/
  perf : BitVec 8
  /-- LANE_PERF.RAMPING. -/
  ramping : BitVec 4
  /-- LANE_SPEED_WARN.THRESHOLD. -/
  speedWarn : U16
  /-- LANE_GLOBAL.INDEPENDENT (RWP). -/
  independent : Bool
  /-- LANE_GLOBAL.INDEPENDENT_ACTIVE. -/
  independentActive : Bool
  event : U32
  intEn : U32
deriving DecidableEq, Repr

/-- The lane block after module reset; LANE_PERF is P1 in every domain (R165). -/
def LaneBlock.reset : LaneBlock :=
  { lane := Vector.replicate 8 Lane.reset, parts := Vector.replicate 8 ⟨0, 0, 0⟩, imageGen := 0, bindings := Vector.replicate 16 0xF0
    perf := 0x55, ramping := 0, speedWarn := 0x1388, independent := false, independentActive := false
    event := 0, intEn := 0 }

end Sys2Proof.Machine
end

