-- ==== Sys2Proof/Machine/Operands.lean ====
section
/-! DEFINITION. Every operand form of a lane instruction (Table 5.7, R177), the instruction word that the fields
spell, and the reading and writing of registers (R168). -/

namespace Sys2Proof.Machine

/-- imm12: RB and MOD (Table 5.7). -/
def imm12 (f : Fields) : BitVec 12 := f.rb ++ f.mod

/-- imm12b: RD and MOD (Table 5.7). -/
def imm12b (f : Fields) : BitVec 12 := f.rd ++ f.mod

/-- imm17: RA, RB and MOD (Table 5.7). -/
def imm17 (f : Fields) : BitVec 17 := (f.ra ++ f.rb) ++ f.mod

/-- `I`: imm12 sign-extended. -/
def immI (f : Fields) : Word := (imm12 f).signExtend 64

/-- The word of an instruction of classes 0 to 13 (Table 5.7). -/
def wordOf (major : BitVec 4) (minor : BitVec 6) (f : Fields) : U32 :=
  ((((major ++ minor : BitVec 10) ++ f.rd : BitVec 15) ++ f.ra : BitVec 20) ++ f.rb : BitVec 25) ++ f.mod

/-- The word of a class-15 instruction: MAJOR, OP, imm21 bits 20 to 17, RD, imm21 bits 16 to 0 (Table 5.7). -/
def wordWide (op : BitVec 2) (w : Wide) : U32 :=
  ((((0xF : BitVec 4) ++ op : BitVec 6) ++ w.imm21.extractLsb' 17 4 : BitVec 10) ++ w.rd : BitVec 15)
    ++ w.imm21.extractLsb' 0 17

/-- Register `i` of a file. -/
def rget (r : RegFile) (i : BitVec 5) : Word := r[i.toNat]

/-- The file with register `i` set. -/
def rset (r : RegFile) (i : BitVec 5) (v : Word) : RegFile := r.set i.toNat v

/-- A general register; g0 reads as 0 (R168). -/
def gget (k : Core) (i : BitVec 5) : Word := if i = 0 then 0 else rget k.g i

/-- Writes a general register; a write to g0 is discarded (R168). -/
def gset (k : Core) (i : BitVec 5) (v : Word) : Core := if i = 0 then k else { k with g := rset k.g i v }

/-- A floating-point register. -/
def fget (k : Core) (i : BitVec 5) : Word := rget k.f i

/-- Writes a floating-point register. -/
def fset (k : Core) (i : BitVec 5) (v : Word) : Core := { k with f := rset k.f i v }

/-- PRIV: the core runs in supervisor mode (Table 5.4). -/
def isSup (k : Core) : Bool := k.cr.status.getLsbD 0

/-- STATUS.EXC. -/
def excSet (k : Core) : Bool := k.cr.status.getLsbD 2

/-- The window length W in instructions (R143). -/
def windowLen (ln : Lane) : Nat := 256 * 4 ^ ln.window.toNat

/-- The delay D in instructions (R130). -/
def delayLen (ln : Lane) : Nat := 128 * 2 ^ ln.delay.toNat

/-- The lead of L over T since the last drain point (R131). -/
def lead (ln : Lane) : Nat := ln.l.sinceDrain - ln.t.sinceDrain

/-- One core of a lane. -/
def coreOf (ln : Lane) (c : CoreSel) : Core := match c with
  | .leading => ln.l
  | .trailing => ln.t

/-- A lane with one core replaced. -/
def putCore (ln : Lane) (c : CoreSel) (k : Core) : Lane := match c with
  | .leading => { ln with l := k }
  | .trailing => { ln with t := k }

/-- SPLIT and INDEPENDENT: the cores run on their own (Table 4.8). -/
def isSplit (ln : Lane) : Bool := ln.mode = .split || ln.mode = .independent

/-- The commit of the whole lane was accepted in this epoch (R55, R159): it shows so until the next boundary, whatever state
the lane enters (Table 2.18). -/
def laneCommitted (ln : Lane) : Bool := ln.l.committed && ln.t.committed

end Sys2Proof.Machine
end

