-- ==== Sys2Proof/Machine/Mem.lean ====
section
/-! DEFINITION. Reading and writing a sparse byte memory in its canonical form: addresses strictly rising and no
byte equal to 0, which is what an unlisted address reads as (log entry 12). -/

namespace Sys2Proof.Machine

/-- The canonical form: addresses above `lo` strictly rising, no byte 0. -/
def Mem.wfFrom : Nat → Mem → Bool
  | _, [] => true
  | lo, (a, b) :: r => decide (lo ≤ a) && b != 0 && Mem.wfFrom (a + 1) r

/-- The canonical form holds. -/
def Mem.wf (m : Mem) : Bool := Mem.wfFrom 0 m

/-- The byte at an address. -/
def memGet (m : Mem) (a : Nat) : Byte := match m.find? (·.1 == a) with
  | some c => c.2
  | none => 0

/-- `n` bytes from address `a` of a memory whose entries all lie at `a` or above. -/
def memRun : Nat → Nat → Mem → List Byte
  | 0, _, _ => []
  | n + 1, a, [] => 0 :: memRun n (a + 1) []
  | n + 1, a, c :: r => if c.1 = a then c.2 :: memRun n (a + 1) r else 0 :: memRun n (a + 1) (c :: r)

/-- `n` bytes from address `a`. -/
def memBytes (m : Mem) (a n : Nat) : List Byte := memRun n a (m.dropWhile (·.1 < a))

/-- The entries that spell a byte string at address `a`: no entry for a 0 byte. -/
def memCells : Nat → List Byte → Mem
  | _, [] => []
  | a, b :: bs => if b = 0 then memCells (a + 1) bs else (a, b) :: memCells (a + 1) bs

/-- Writes a byte string at address `a`. -/
def memWrite (m : Mem) (a : Nat) (bs : List Byte) : Mem :=
  m.filter (·.1 < a) ++ memCells a bs ++ m.filter (fun c => decide (a + bs.length ≤ c.1))

/-- The little-endian number of `n` bytes at `a` (R13). -/
def memLe (m : Mem) (a n : Nat) : Nat := ofLe (memBytes m a n)

/-- Writes `n` bytes of a number, little-endian (R13). -/
def memPutLe (m : Mem) (a n v : Nat) : Mem := memWrite m a (leBytes n v)

/-- Writes those bytes of a 32-bit word whose byte enable is set. -/
def memPutBe (m : Mem) (a : Nat) (be : BitVec 4) (v : U32) : Mem :=
  [0, 1, 2, 3].foldl (fun m i =>
    if be.getLsbD i then memWrite m (a + i) [v.extractLsb' (8 * i) 8] else m) m

/-- Sets `n` bytes from `a` to 0. -/
def memZero (m : Mem) (a n : Nat) : Mem := m.filter (fun c => decide (c.1 < a) || decide (a + n ≤ c.1))

/-- Copies `n` bytes of `src` from `sa` to `da` of `m`. -/
def memCopy (m : Mem) (da : Nat) (src : Mem) (sa n : Nat) : Mem :=
  m.filter (·.1 < da)
    ++ (src.filter (fun c => decide (sa ≤ c.1) && decide (c.1 < sa + n))).map (fun c => (c.1 - sa + da, c.2))
    ++ m.filter (fun c => decide (da + n ≤ c.1))

end Sys2Proof.Machine
end

