-- ==== Sys2Proof/Config.lean ====
section
/-! DEFINITION. What the spec leaves open. Each constant here is opaque and has no body: no proof can see its
value, so a claim about the model holds whatever the value is. A function of `Nat` is applied to the step
counter `State.freeCtr`, so that each use is a fresh value. -/

namespace Sys2Proof.Config

/-- A 64-bit value the spec leaves undefined, by the state's free-value counter (log entry 7). -/
opaque freeWord : Nat → BitVec 64

/-- A byte string the spec leaves open (a challenge nonce, contents left undefined), by the free-value counter
and the byte index (log entry 7). -/
opaque freeByte : Nat → Nat → BitVec 8

/-- Whether a fused multiply-add of zero and infinity with a quiet NaN addend signals invalid operation:
IEEE 754-2019 leaves it to the implementation and chapter 5 does not decide it (log entry 8). -/
opaque fmaZeroInfNan : Bool

/-- Hardware issue number (Table 7.17): fixed by the hardware, not by the spec. -/
opaque hwIssue : BitVec 16

/-- The module is of temperature class OT6, otherwise OT4 (Table 7.17). -/
opaque classT6 : Bool

/-- MAC address of an Ethernet port, 48 bits: fixed by the hardware, not by the spec (log entry 34). -/
opaque portMac : Nat → Nat

/-- The MAC address that ARP has resolved for an IPv4 address (log entry 34). -/
opaque arpMac : BitVec 32 → Nat

/-- Type of service, identification and time to live of the IPv4 headers that the module builds (log entry 34). -/
opaque ipTos : BitVec 8
opaque ipIdent : BitVec 16
opaque ipTtl : BitVec 8

/-- Priority and protocol version of a TRDP header that the gateway builds (log entry 34). -/
opaque trdpVersion : BitVec 16

/-- The topology counters that the firmware of Selvedge learns from a TTDP frame: etbTopoCnt and opTrnTopoCnt; the spec names
IEC 61375-2-5 for them (R295, log entry 80). -/
opaque ttdpTopo : List (BitVec 8) → BitVec 32 × BitVec 32

/-- portState and mean path delay as the PTP firmware of Selvedge leaves them after a message, by the free-value counter (R280,
log entry 80). -/
opaque ptpState : Nat → BitVec 8
opaque ptpDelay : Nat → BitVec 64

/-- A CAN error counter after a frame that was sent or received, with the errors since the last one, by the free-value counter
and the counter before (R313, log entry 103). -/
opaque canCount : Nat → BitVec 8 → BitVec 8

/-- Device status that the MVB port answers (log entry 35). -/
opaque mvbDeviceStatus : BitVec 16

/-- A coefficient of a half-band response in the ROM: code and tap (Table 14.3, log entry 40). -/
opaque halfBand : Nat → Nat → BitVec 32

/-- A coefficient of a resampler prototype in the ROM: code and index, in phase order (Table 14.4, log entry 40). -/
opaque prototype : Nat → Nat → BitVec 32

/-- Contents of the boot ROM and of the resident loader area, by byte: the spec does not give them (log entry 59). -/
opaque romByte : Nat → BitVec 8
opaque loaderByte : Nat → BitVec 8

/-- Units of the Moraine ring whose flash write fails in a flush, by the free-value counter (R504, log entry 109). -/
opaque flashFails : Nat → Nat

/-- The entries of the chain directory, INDEX, LENGTH in bits and SOURCE: the spec does not list the chains (R500, log entry
60). -/
opaque chainDir : List (BitVec 16 × BitVec 32 × BitVec 8)

/-- A scan chain of the test access port as it is read: its contents, by chain and free-value counter, and the length in bits of
one that the directory does not list (log entry 60). -/
opaque chainLength : BitVec 16 → Nat
opaque chainBits : BitVec 16 → Nat → Nat

/-- The upset of a stored word, if any, that a clock tick brings, by the free-value counter: area and place as `MemLoc` gives
them, two bits wrong or one, and whether the word's cache line is dirty (R224, log entry 98). -/
opaque upset : Nat → Option (BitVec 8 × Nat × Bool × Bool)

end Sys2Proof.Config
end

