-- ==== Sys2Proof/Machine/ConfigState.lean ====
section
/-! DEFINITION. What the loaded container fixes for the whole module (chapters 3 and 17): the image map and the
vote-group map, and the state of start-up, update, containers, security store and identity (chapters 16
and 17), as plain data. -/

namespace Sys2Proof.Machine

/-- TYPE of a signal (Table 3.6). -/
inductive SigType where
  | binary
  | signed
  | unsigned
  | counter
  | network
deriving DecidableEq, Repr

/-- A signal descriptor of the image map (Table 3.6). -/
structure Signal where
  bitOffset : Nat
  type : SigType
  /-- RULE2: BINARY 0 AND, 1 OR; numbers 0 LOW, 1 HIGH, 2 MEAN. -/
  rule2 : Nat
  /-- Bits; for NETWORK, bytes of the area. -/
  size : Nat
  subst : Word
deriving DecidableEq, Repr

/-- A vote-group descriptor with its safe values (Table 3.9). -/
structure Group where
  enabled : Bool
  lane : LaneId
  trailing : Bool
  safetyRelevant : Bool
  safeLatch : Bool
  holdLimit : BitVec 4
  offset : Nat
  length : Nat
  /-- SAFE_REF, and the safe values that it names. -/
  safeRef : Nat
  safe : List Byte
deriving DecidableEq, Repr

/-- The maps of the loaded container that the epoch and the vote use. -/
structure Maps where
  /-- A container is loaded: the module is configured (R472, R473). -/
  configured : Bool
  rawDecl : Nat
  signals : List Signal
  /-- The vote groups by number (R98). -/
  group : Vector (Option Group) 16
  safeTable : List Byte
deriving DecidableEq, Repr

/-- No container. -/
def Maps.none : Maps := ⟨false, 0, [], Vector.replicate 16 Option.none, []⟩

/-- Image bank states (Table 16.7). -/
inductive BankState where
  | valid
  | writing
  | complete
  | invalid
deriving DecidableEq, Repr

/-- A slot directory record (Table 16.8) without its CRC, and whether the CRC is correct. -/
structure DirRecord where
  seq : U32
  current : BitVec 8
  bank : BankState
  recoveryReq : Bool
  format : Vector U16 2
  commitFw : Vector U32 2
  svcIp : U32
  mgmtIp : U32
  mgmtVid : U16
  mgmtPorts : BitVec 4
  prefixLen : BitVec 8
  crcOk : Bool
deriving DecidableEq, Repr

/-- Reset request line states (Table 16.3). -/
inductive RstLine where
  | idle
  | pressed
  | stuck
deriving DecidableEq, Repr

/-- A reset log entry (Table 7.25): TB0 seconds at the reset or 0, cause, and the vote state before the reset. -/
structure ResetEntry where
  tb0Sec : Nat
  cause : BitVec 8
  voteState : Nat
deriving DecidableEq, Repr

/-- Start-up and update (chapter 16). -/
structure Boot where
  bootLock : Bool
  /-- Last step of Table 16.1 completed. -/
  step : BitVec 8
  rstStuckPowerOn : Bool
  rstStuckService : Bool
  containerRestored : Bool
  containerUnreadable : Bool
  recovery : Bool
  reason : BitVec 8
  /-- No start: no mailbox is served (Table 16.2 first row, R492). -/
  noStart : Bool
  /-- UNCONFIGURED by R464, R472 or R479. -/
  unconfigured : Bool
  /-- Selvedge failed before the end of step 7 in the last start (Table 16.2). -/
  failedEarly : Bool
  startMs : U32
  rst : RstLine
  dir : Vector DirRecord 2
  /-- The two container slots of managed flash, 16 MiB each (Table 16.4). -/
  slot : Vector Mem 2
  /-- The image bank of managed flash, 512 MiB (Table 16.4). -/
  bank : Mem
  /-- Mailbox pair that owns the update. -/
  updOwner : Option PairId
  written : Nat
  setSize : Nat
  setGen : U32
  /-- Header fields of the running image set. -/
  fwRunning : U32
  formats : List U16
  imageGen : U32
  keySlot : BitVec 2
  /-- Newest first, at most eight. -/
  resetLog : List ResetEntry
  /-- Resets since manufacture, saturating (Table 7.18). -/
  restarts : U16
  /-- TB3 in nanoseconds of the last reset. -/
  resetAt : Nat
  /-- Format of the loaded container, 0 if unconfigured (Table 7.17). -/
  activeFormat : U16
  /-- A restart is due after the answer to SYS_RESTART: recovery wanted (R263). -/
  restartDue : Option Bool
deriving DecidableEq, Repr

/-- Staging buffer states (Table 17.13). -/
inductive StageState where
  | empty
  | writing
  | ready
  | failed
deriving DecidableEq, Repr

/-- A registry entry (Table 17.7). -/
structure RegEntry where
  serial : Word
  key : List Byte
deriving DecidableEq, Repr

/-- Containers, security store and identity (chapter 17). -/
structure Sec where
  stage : StageState
  stageOwner : Option PairId
  stageBytes : List Byte
  stageSize : Nat
  lastCheck : BitVec 8
  factory : Bool
  independent : Bool
  pendingSlot : BitVec 2
  changeSeq : Word
  /-- Four keys of 32 bytes per role; all zeros for an empty slot. -/
  maint : Vector (List Byte) 4
  sa : Vector (List Byte) 4
  registry : Vector RegEntry 3
  /-- The CRC of the store is correct (R482). -/
  storeOk : Bool
  /-- Keys received by IDENT on WEFT_A and WEFT_B; zeros before. -/
  peerKeyA : List Byte
  peerKeyB : List Byte
  peerSerialA : Word
  peerSerialB : Word
deriving DecidableEq, Repr

/-- What manufacture fixes and nothing changes later: the identity in one-time-programmable memory (R490, R491), the
vendor key of the boot ROM (R463), and the boot ROM and the fuse-protected loader (R459). -/
structure Otp where
  serial : Word
  /-- Ed25519 private seed (R490). -/
  seed : List Byte
  pubkey : List Byte
  cert : List Byte
  vendorKey : List Byte
  /-- Loader and boot ROM versions (Table 7.16). -/
  loader : U32
  rom : U32
deriving DecidableEq, Repr

/-- The values of manufacture, which the spec does not give (log entry 10). -/
def Otp.reset : Otp :=
  { serial := 0, seed := zeros 32, pubkey := zeros 32, cert := [], vendorKey := zeros 32, loader := 0, rom := 0 }

/-- A directory record with no container committed. -/
def DirRecord.reset : DirRecord :=
  { seq := 0, current := 0xFF, bank := .invalid, recoveryReq := false, format := Vector.replicate 2 0
    commitFw := Vector.replicate 2 0, svcIp := 0, mgmtIp := 0, mgmtVid := 1, mgmtPorts := 0, prefixLen := 24
    crcOk := true }

/-- Start-up state of an unpowered module whose flash holds nothing. -/
def Boot.reset : Boot :=
  { bootLock := false, step := 0, rstStuckPowerOn := false, rstStuckService := false
    containerRestored := false, containerUnreadable := false, recovery := false, reason := 0
    noStart := false, unconfigured := false, failedEarly := false, startMs := 0, rst := .idle
    dir := Vector.replicate 2 DirRecord.reset, slot := Vector.replicate 2 [], bank := [], updOwner := none
    written := 0, setSize := 0, setGen := 0, fwRunning := 0, formats := [], imageGen := 0, keySlot := 0
    resetLog := [], restarts := 0, resetAt := 0, activeFormat := 0, restartDue := none }

/-- The security store as it leaves manufacture, without the commissioning keys, which the spec does not give
(R482, log entry 20). -/
def Sec.reset : Sec :=
  { stage := .empty, stageOwner := none, stageBytes := [], stageSize := 0, lastCheck := 0, factory := true
    independent := false, pendingSlot := 0, changeSeq := 0, maint := Vector.replicate 4 (zeros 32)
    sa := Vector.replicate 4 (zeros 32), registry := Vector.replicate 3 ⟨0, zeros 32⟩, storeOk := true
    peerKeyA := zeros 32, peerKeyB := zeros 32, peerSerialA := 0, peerSerialB := 0 }

end Sys2Proof.Machine
end

