-- ==== Sys2Proof/Machine/EpochState.lean ====
section
/-! DEFINITION. The state of the epoch sequencer and of the memories: process-image SRAM, DRAM and the memory
status block (chapters 2 and 6), as plain data. -/

namespace Sys2Proof.Machine

/-- EPOCH_PHASE.PHASE (Table 2.15). -/
inductive Phase where
  | exchange
  | compute
  | digest
  | release
deriving DecidableEq, Repr

/-- A queued item of a raw input image before it is placed (R45, R46, R537). -/
structure QueuedItem where
  /-- Capture timestamp: TB2 in nanoseconds (R23). -/
  stamp : Nat
  /-- Source index of Table 1.1. -/
  source : Nat
  /-- Order within one source index: capture index, channel, port or mailbox (Table 1.1). -/
  sub : Nat
  late : Bool
  body : List Byte
deriving DecidableEq, Repr

/-- A pending EPOCH_CLEAR_COUNTERS (R75). -/
structure ClearReq where
  mask : BitVec 8
  lateItems : Bool
deriving DecidableEq, Repr

/-- The module status that the raw input image of an epoch takes at B(n) (Table 2.4, last row). The spec gives it no signal
and no place in the image (log entry 73). -/
structure ModuleStatus where
  feedA : Bool
  feedB : Bool
  /-- Calving stage (Table 15.2). -/
  stage : BitVec 3
  /-- Epoch states of the lanes in the epoch that ended, lane 0 first (Table 2.7). -/
  lanes : List Nat
deriving DecidableEq, Repr

/-- The epoch sequencer (chapter 2). -/
structure Epoch where
  /-- Epoch number n (R38). -/
  no : Word
  /-- EPOCH_NO_HI as latched by a read of EPOCH_NO_LO. -/
  noHi : U32
  /-- EPOCH_CFG.PERIOD. -/
  period : BitVec 3
  k0 : BitVec 3
  k1 : BitVec 3
  k2 : BitVec 3
  k3 : BitVec 3
  /-- WARN_LEAD in force. -/
  warnLead : U16
  /-- WARN_LEAD written and taken at the next boundary (Table 2.13). -/
  warnNext : Option U16
  phase : Phase
  running : Bool
  sealNs : U32
  /-- The seal of the current epoch has happened. -/
  sealed : Bool
  /-- Raw close of the current epoch has happened. -/
  rawClosed : Bool
  event : BitVec 23
  intEn : BitVec 23
  lateItems : U32
  rawBytes : BitVec 23
  clearReq : Option ClearReq
  /-- Queued items of the epoch whose boundary is next, in arrival order. -/
  items : List QueuedItem
  /-- Queued items of the current epoch between B(n) and raw close. -/
  closing : List QueuedItem
  /-- The own raw input image as closed: its length and item count. -/
  rawItems : Nat
  /-- The current own raw image holds items with LATE set (Table 2.5). -/
  rawLate : Bool
  /-- The current own raw image was truncated (R48). -/
  rawOversize : Bool
  /-- No digests in any group for the epoch, by SEAL_LATE, R90 or R225. -/
  abstainAll : Bool
  /-- Groups abstained in this epoch by R69, R224 or Table 6.7. -/
  abstainGroups : U16
  /-- No further RAW frame in this epoch (R225). -/
  noRaw : Bool
  /-- Number of the boundary that the sequencer raises next (R37, R39). -/
  next : Nat
  /-- The next boundary follows whatever instant has passed: after a start or a TB2 step (R39). -/
  resync : Bool
  /-- The exchange end of the current epoch has passed. -/
  exchanged : Bool
  /-- The source set of the current epoch has been computed. -/
  sourced : Bool
  /-- Module status as latched at B(n) (R45). -/
  status : ModuleStatus
deriving DecidableEq, Repr

/-- The epoch sequencer after module reset; the codes of EPOCH_CFG are those of an absent section. -/
def Epoch.reset : Epoch :=
  { no := 0, noHi := 0, period := 4, k0 := 0, k1 := 0, k2 := 0, k3 := 0, warnLead := 0x14, warnNext := none
    phase := .exchange, running := false, sealNs := 0, sealed := false, rawClosed := false, event := 0
    intEn := 0, lateItems := 0, rawBytes := 0, clearReq := none, items := [], closing := [], rawItems := 0
    rawLate := false, rawOversize := false, abstainAll := false, abstainGroups := 0, noRaw := false
    next := 0, resync := true, exchanged := false, sourced := false, status := ⟨false, false, 0, []⟩ }

/-- A stored word that holds wrong bits and that nothing has read since (R224): one wrong bit, or two. `dirty` says of a
line of the level-2 cache that it has not been written back. -/
structure Upset where
  /-- The area of Table 6.9 and the place in it; of a cache, the DRAM address of the line's word. -/
  loc : MemLoc
  double : Bool
  dirty : Bool
deriving DecidableEq, Repr

/-- The memories of the module (Tables 6.1, 6.3, 2.6) and the memory status block (Table 6.8). Each memory is
kept in one canonical form (`Mem`), with addresses counted from the start of its own region. -/
structure Memory where
  /-- DRAM, 16 GiB (Table 6.3). -/
  dram : Mem
  /-- Own raw input image. -/
  rawOwn : Mem
  /-- Sibling-A raw input image. -/
  rawA : Mem
  /-- Sibling-B raw input image. -/
  rawB : Mem
  /-- Consolidated input image. -/
  cons : Mem
  /-- Output image. -/
  out : Mem
  /-- Current copy of the retained window (1 MiB). -/
  retained : Mem
  /-- Working bank of the retained state (R57). -/
  working : Mem
  /-- 4 KiB blocks written this epoch, present in the working bank. -/
  written : List Nat
  /-- Published exchange blocks, 512 KiB. -/
  published : Mem
  /-- Exchange shadows, 512 KiB. -/
  shadow : Mem
  dramCe : U32
  dramUe : U32
  cacheCe : U32
  cacheUe : U32
  icachePar : U32
  tcmCe : U32
  tcmUe : U32
  pisCe : U32
  pisUe : U32
  scrubPasses : U32
  /-- Next burst of the patrol scrub, 0 to 268435455. -/
  scrubBurst : Nat
  lastUeAddr : Nat
  lastUeArea : Nat
  lastUeLane : Nat
  lastUeEpoch : Word
  /-- Correctable errors since reset, per row of Table 6.7 (R229). -/
  ceCount : Vector Nat 16
  /-- Words that hold wrong bits (R224, log entry 98). -/
  upsets : List Upset
  /-- Retained blocks marked dirty by an uncorrectable error, until catch-up or the initial value restores them (R226). -/
  lostBlocks : List Nat
deriving DecidableEq, Repr

/-- The memories after module reset: nothing listed. -/
def Memory.reset : Memory :=
  { dram := [], rawOwn := [], rawA := [], rawB := [], cons := [], out := [], retained := [], working := []
    written := [], published := [], shadow := [], dramCe := 0, dramUe := 0, cacheCe := 0, cacheUe := 0
    icachePar := 0, tcmCe := 0, tcmUe := 0, pisCe := 0, pisUe := 0, scrubPasses := 0, scrubBurst := 0
    lastUeAddr := 0, lastUeArea := 0, lastUeLane := 0xFF, lastUeEpoch := 0, ceCount := Vector.replicate 16 0
    upsets := [], lostBlocks := [] }

end Sys2Proof.Machine
end

