-- ==== Sys2Proof/Machine/FioState.lean ====
section
/-! DEFINITION. The state of the isolated field I/O (chapter 12), as plain data: the field side, the last frame
that the logic side received, and the configuration. -/

namespace Sys2Proof.Machine

/-- Output channel states (Table 12.6). -/
inductive OutState where
  | off
  | on
  | limit
  | latched
  | groupOff
  | silent
deriving DecidableEq, Repr

/-- Configuration of a channel: FIO_CH_c_CFG (Table 12.11). -/
structure FioCfg where
  output : Bool
  safeOn : Bool
  offTest : Bool
  event : Bool
  filter : BitVec 8
deriving DecidableEq, Repr

/-- A channel on the field side (R364, R369, R371). -/
structure FioChan where
  cfg : FioCfg
  /-- FILTER, OFF_TEST and EVENT that reach the field side at the next boundary. -/
  cfgNext : Option FioCfg
  /-- Filtered state of an input; readback of an output. -/
  filtered : Bool
  state : OutState
  overload : Bool
  openOn : Bool
  openOff : Bool
  overtemp : Bool
  extDrive : Bool
  /-- Junction at 130 °C or above. -/
  hot : Bool
  /-- ON bit of the last release frame that the field side applied. -/
  onBit : Bool
  /-- Edge items created, saturating. -/
  events : U32
deriving DecidableEq, Repr

/-- A channel group's supply on the field side (R378). -/
structure FioGroup where
  volt : BitVec 14
  warn : Bool
  tripped : Bool
  rearmOk : Bool
deriving DecidableEq, Repr

/-- The content of a field-side frame (R365). -/
structure FieldFrame where
  state : U32
  overload : U32
  openWire : U32
  overtemp : U32
  extDrive : U32
  group : Vector FioGroup 2
  tss : Bool
deriving DecidableEq, Repr

/-- The field I/O block (chapter 12). -/
structure Fio where
  /-- A field I/O map is loaded. -/
  mapped : Bool
  nom : Vector (BitVec 3) 2
  tssMs : BitVec 10
  signal : Nat
  eventLimit : Nat
  word : Vector Nat 2
  chan : Vector FioChan 32
  group : Vector FioGroup 2
  tssSeen : Bool
  /-- The last complete frame that the logic side received. -/
  frame : FieldFrame
  fieldOk : Bool
  framesLost : U16
  out : U32
  event : BitVec 11
  intEn : BitVec 11
  items : Nat
  lostMark : Bool
  /-- Edges that EVENT_LIMIT has kept out of a raw image, counted without end (R382). -/
  dropped : Nat
  /-- Last service frame of FIO_CLEAR left something latched or refused. -/
  leftover : Bool
  /-- The field side is declared lost, until frames have returned for 1 ms (R373). -/
  lost : Bool
  /-- The words of G0 and G1 of a release frame that is on its way to the field side (R368). -/
  release : Option (Word × Word)
deriving DecidableEq, Repr

/-- An empty field frame. -/
def FieldFrame.empty : FieldFrame := ⟨0, 0, 0, 0, 0, Vector.replicate 2 ⟨0, false, false, false⟩, false⟩

/-- A channel at reset: an input with FILTER 1 (Table 17.16). -/
def FioChan.reset : FioChan :=
  { cfg := ⟨false, false, false, false, 1⟩, cfgNext := none, filtered := false, state := .off
    overload := false, openOn := false, openOff := false, overtemp := false, extDrive := false, hot := false
    onBit := false, events := 0 }

/-- The block after module reset, without a map (Tables 12.11, 17.16). -/
def Fio.reset : Fio :=
  { mapped := false, nom := Vector.replicate 2 0, tssMs := 20, signal := 0, eventLimit := 32
    word := Vector.replicate 2 0, chan := Vector.replicate 32 FioChan.reset
    group := Vector.replicate 2 ⟨0, false, false, false⟩, tssSeen := false, frame := FieldFrame.empty
    fieldOk := false, framesLost := 0, out := 0, event := 0, intEn := 0, items := 0, lostMark := false, dropped := 0
    leftover := false, lost := false, release := none }

end Sys2Proof.Machine
end

