-- ==== Sys2Proof/Machine/MboxState.lean ====
section
/-! DEFINITION. The state of Selvedge and of the 24 mailbox pairs (chapter 7), as plain data. -/

namespace Sys2Proof.Machine

/-- Mailbox states (Table 7.3). -/
inductive MbState where
  | idle
  | armed
  | pending
  | serving
  | done
deriving DecidableEq, Repr

/-- An open segmented transfer (R253). -/
structure Transfer where
  command : Nat
  tag : Nat
  bytes : List Byte
deriving DecidableEq, Repr

/-- A long command that its mailbox is SERVING (R252): its code and its whole payload. -/
structure LongJob where
  command : Nat
  payload : List Byte
deriving DecidableEq, Repr

/-- An event notice (Table 7.26), without LOST and EPOCH_NO's width. -/
structure Notice where
  group : Nat
  code : Nat
  epoch : Word
  data : List Byte
deriving DecidableEq, Repr

/-- A mailbox pair (Tables 7.3, 7.12, 7.21, R243 to R268). -/
structure MailPair where
  state : MbState
  level : BitVec 3
  bound : Option NetAddr
  /-- TB3 in nanoseconds of the last request from the bound address. -/
  lastReq : Nat
  xfer : Option Transfer
  req : Mem
  rsp : Mem
  /-- COMMAND, TAG and CRC of the last request served (R254). -/
  lastServed : Option (Nat × Nat × Nat)
  lastTag : U16
  served : U32
  crcErr : U16
  dbIgnored : U16
  busyCnt : U32
  repeats : U32
  /-- ROLE and CLIENT_ID of the last HELLO, recorded only (Table 7.15). -/
  role : BitVec 8
  clientId : U32
  job : Option LongJob
  /-- GROUP_MASK of the subscription (R265). -/
  subs : U16
  noticeCnt : U16
  notice : Option Notice
  noticeLost : U16
  /-- TB3 in nanoseconds of the last notice sent (R267). -/
  lastNotice : Option Nat
  /-- For a lane pair: a delivery is placed and not yet latched into a raw image (R246, R248). -/
  undelivered : Bool
  /-- The delivery has been latched; the next boundary releases the mailbox (R248). -/
  latched : Bool
  /-- For a SYS_DELIVER in service: the lane it delivers to (R264). -/
  deliverTo : Option LaneId
  /-- The last message sent for the pair, a response or a notice, and the address it went to (R243, R266). -/
  lastSent : List Byte
  sentTo : Option NetAddr
  /-- A lane pair was DONE when it rang (R254). -/
  wasDone : Bool
  /-- The message that stands in the request slot, as received (pairs 16 to 23), and where it came from. -/
  rx : List Byte
  src : Option NetAddr
  /-- The Ethernet port on which it arrived. -/
  rxPort : Option (Fin 4)
deriving DecidableEq, Repr

/-- A pair after module restart (Table 7.4). -/
def MailPair.reset : MailPair :=
  { state := .idle, level := 1, bound := none, lastReq := 0, xfer := none, req := [], rsp := []
    lastServed := none, lastTag := 0, served := 0, crcErr := 0, dbIgnored := 0, busyCnt := 0, repeats := 0
    role := 0, clientId := 0, job := none, subs := 0, noticeCnt := 0, notice := none, noticeLost := 0
    lastNotice := none, undelivered := false, latched := false, deliverTo := none, lastSent := [], sentTo := none
    wasDone := false, rx := [], src := none, rxPort := none }

/-- The MBOX block and Selvedge (chapter 7). -/
structure Mbox where
  pair : Vector MailPair 24
  levelMax : BitVec 3
  bindIdle : BitVec 8
  event : BitVec 6
  intEn : BitVec 6
  rounds : U32
  /-- The next pair that the running round visits (R250). -/
  roundPos : Nat
  /-- Selvedge has stopped by a failure (R233). -/
  failed : Bool
  /-- TB3 in nanoseconds of the last write of SUP_HEARTBEAT (R234). -/
  heartbeat : Nat
  /-- Selvedge's own TCM, 512 KiB (Table 7.1). -/
  tcm : Mem
deriving DecidableEq, Repr

/-- The MBOX block after module reset. -/
def Mbox.reset : Mbox :=
  { pair := Vector.replicate 24 MailPair.reset, levelMax := 4, bindIdle := 0x3C, event := 0, intEn := 0
    rounds := 0, roundPos := 0, failed := false, heartbeat := 0, tcm := [] }

end Sys2Proof.Machine
end

