-- ==== Sys2Proof/Machine/MuslinState.lean ====
section
/-! DEFINITION. The state of the analog channels and the Muslin chain (chapter 14), as plain data. -/

namespace Sys2Proof.Machine

/-- The configuration of a channel (Table 14.9): MU_CH_c_CFG, HB, DET, HIGH, LOW, HYST. -/
structure MuCfg where
  range : BitVec 3
  hbCount : BitVec 3
  proto : BitVec 3
  mMinus1 : BitVec 12
  hb : BitVec 18
  ne : BitVec 7
  attack : BitVec 4
  release : BitVec 4
  evtEn : Bool
  high : U32
  low : U32
  hyst : BitVec 23
deriving DecidableEq, Repr

/-- Limit comparator states (R426). -/
inductive LimitState where
  | normal
  | high
  | low
deriving DecidableEq, Repr

/-- An analog channel (R417 to R432). -/
structure MuChan where
  cfg : MuCfg
  /-- Values written and taken at the next boundary (R433). -/
  cfgNext : Option MuCfg
  /-- First signal index (R430). -/
  signal : Nat
  valid : Bool
  ovr : Bool
  /-- OVR of the epoch in progress. -/
  ovrNow : Bool
  openFlag : Bool
  overcur : Bool
  /-- OPEN and OVERCUR have been set at some time in the epoch in progress (Table 14.6). -/
  openSeen : Bool
  overcurSeen : Bool
  settling : Bool
  detSettling : Bool
  limit : LimitState
  settleCount : U16
  /-- SETTLE_COUNT still to be shared out to following epochs (R429). -/
  settleLeft : Nat
  /-- Running window: count, largest, smallest, sum of squares. -/
  count : Nat
  runMax : Int
  runMin : Int
  sumSq : Nat
  /-- The window opened at or after the end of settling (R429). -/
  winSettled : Bool
  peakMax : U32
  peakMin : U32
  rms : U32
  env : U32
  /-- Envelope e (R425). -/
  e : Int
  events : U32
  disconnected : Bool
  /-- F_h samples in the resampler history, newest first: TB2 instant in units of 2^-16 ns, and code. -/
  history : List (Nat × Int)
  /-- Samples of the epoch in progress, in order (R422). -/
  samples : List Int
  /-- TB2 in units of 2^-16 ns of the last synchronising reset. -/
  resetAt : Nat
  /-- A reset that makes the channel valid is due at the first boundary at or after this TB2 time in nanoseconds
  (R428 causes 1 and 2, R432). -/
  resetDue : Option Nat
  /-- A reset is due at the next boundary (R428 causes 3 and 5). -/
  resetNow : Bool
  /-- TB3 in nanoseconds of the chain faults (R432), newest first. -/
  faults : List Nat
  /-- A second chain fault within 3600 s: invalid until restart. -/
  dead : Bool
deriving DecidableEq, Repr

/-- The MUSLIN block (chapter 14). -/
structure Muslin where
  mapped : Bool
  eventLimit : Nat
  syncWord : Option Nat
  chan : Vector MuChan 16
  event : BitVec 7
  intEn : BitVec 7
  items : Nat
  lostMark : Bool
  /-- Limit items that EVENT_LIMIT has kept out of a raw image, counted without end (R427). -/
  dropped : Nat
deriving DecidableEq, Repr

/-- A disabled channel (Table 17.16). -/
def MuCfg.reset : MuCfg := ⟨0, 0, 0, 0, 0, 1, 0, 0, false, 0, 0, 0⟩

/-- A channel after module reset. -/
def MuChan.reset : MuChan :=
  { cfg := MuCfg.reset, cfgNext := none, signal := 0, valid := false, ovr := false, ovrNow := false
    openFlag := false, overcur := false, openSeen := false, overcurSeen := false, settling := false, detSettling := false, limit := .normal
    settleCount := 0, settleLeft := 0, count := 0, runMax := 0, runMin := 0, sumSq := 0, winSettled := false
    peakMax := 0, peakMin := 0, rms := 0, env := 0, e := 0, events := 0, disconnected := false, history := []
    samples := [], resetAt := 0, resetDue := none, resetNow := false, faults := [], dead := false }

/-- The block after module reset, without a map. -/
def Muslin.reset : Muslin :=
  ⟨false, 32, none, Vector.replicate 16 MuChan.reset, 0, 0, 0, false, 0⟩

end Sys2Proof.Machine
end

