-- ==== Sys2Proof/Machine/NetState.lean ====
section
/-! DEFINITION. The state of the packet engine, the ports and the gateway (chapter 9), as plain data, with the
descriptors that the container loads. -/

namespace Sys2Proof.Machine

/-- An Ethernet frame that waits in a transmit queue. -/
structure EthFrame where
  bytes : List Byte
  /-- The publication descriptor that built the frame, if one did, and the telegram's sequence counter (R301, R303). -/
  pub : Option (Nat × Nat)
  /-- Ring and entry that posted the frame, if one did (R310). -/
  ring : Option (Nat × Nat)
deriving DecidableEq, Repr

/-- A gate control list (R298): base time base, cycle and entries of (gate states, interval). -/
structure GateList where
  tb : BitVec 2
  cycleNs : Nat
  entries : List (BitVec 8 × Nat)
deriving DecidableEq, Repr

/-- An Ethernet port (Tables 9.12, 9.15). -/
structure EthPort where
  en : Bool
  fec : Bool
  force1g : Bool
  role : BitVec 2
  mgmt : Bool
  tasTb : BitVec 2
  tasEn : Bool
  link : BitVec 2
  fecActive : Bool
  shed : Bool
  rx : U32
  tx : U32
  rxErr : U32
  rxDrop : U32
  list : GateList
  pendingList : Option GateList
  /-- Index of the gate entry in force, and the gate states. -/
  gateIx : Nat
  gates : BitVec 8
  /-- Eight transmit queues, oldest frame first. -/
  queue : Vector (List EthFrame) 8
  /-- Items that the port placed in the raw image of the epoch in progress (R307). -/
  mdItems : Nat
  /-- Module address and unit address (R296), and the prefix length of both (Table 17.4). -/
  ip : U32
  unitIp : U32
  prefixLen : BitVec 8
  /-- TB3 in nanoseconds of the OK response to the pending list (R298). -/
  pendingAt : Nat
  /-- Default VID and PCP of untagged frames, and the VIDs of the ingress filter; none listed: every VID passes (Table 9.2,
  log entry 101). -/
  defVid : Nat
  defPcp : Nat
  vids : List Nat
deriving DecidableEq, Repr

/-- An 802.1CB stream (R299, Table 9.18). -/
structure Stream where
  /-- Ports of the stream's mask. -/
  ports : BitVec 4
  /-- Identification: destination MAC and VID, or destination IPv4 and UDP port; none while unused. -/
  ident : Option (Bool × Nat × Nat)
  historyLen : Nat
  txSeq : U16
  /-- Last accepted sequence number, none after a reset of the history. -/
  last : Option U16
  /-- Sequence numbers accepted within the history, newest first. -/
  seen : List Nat
  passed : U32
  discarded : U32
  resets : U32
  /-- Recovery timeout in milliseconds, 0 for none (log entry 101), and TB3 in nanoseconds of the last frame received. -/
  timeoutMs : Nat
  lastRx : Nat
deriving DecidableEq, Repr

/-- A PD publication descriptor (Table 9.3) with its counts. -/
structure Publication where
  comId : U32
  destIp : U32
  srcOffset : Nat
  length : Nat
  portMask : BitVec 4
  prio : BitVec 3
  scopeUnit : Bool
  vid : Nat
  cycle : Nat
  phase : Nat
  stream : Nat
  count : U32
  lastSeq : U32
deriving DecidableEq, Repr

/-- A telegram staged for a NETWORK area (R305). LATE stays clear: a frame is processed at its stamp (R46, log entry
102). -/
structure Staged where
  port : Nat
  seq : Nat
  stamp : Nat
  lineB : Bool
  late : Bool
  payload : List Byte
deriving DecidableEq, Repr

/-- A PD subscription descriptor (Table 9.4) with its counts and staged telegram. -/
structure Subscription where
  comId : U32
  srcIp : U32
  srcMask : U32
  destIp : U32
  signal : Nat
  timeoutMs : Nat
  portMask : BitVec 4
  topoCheck : Bool
  zeroOnTimeout : Bool
  count : U32
  timeouts : U32
  lastSeq : U32
  /-- Telegrams that wait for their boundary, oldest first. -/
  staged : List Staged
  /-- The area's timeout has been counted since the last reception. -/
  timedOut : Bool
deriving DecidableEq, Repr

/-- A ring (Table 9.16). Its descriptors lie in DRAM (Table 9.7). -/
structure Ring where
  base : U32
  size : BitVec 4
  dir : Bool
  owner : BitVec 2
  lane : BitVec 3
  en : Bool
  gateEn : Bool
  port : BitVec 4
  prio : BitVec 3
  gateGroup : BitVec 4
  head : BitVec 12
  tail : BitVec 12
  /-- What the boundaries have decided of a lane's transmit ring with GATE_EN, in ring order: up to which entry, and whether
  those descriptors are sent or completed with STATUS 0x04 (R311). -/
  gates : List (BitVec 12 × Bool)
  /-- Frames of the descriptor at HEAD that wait in transmit queues (R310). -/
  posted : Nat
deriving DecidableEq, Repr

/-- An MVB port of the container (R312): sink into a signal, or source from the output image. -/
structure MvbPort where
  address : Nat
  /-- Bytes: 2, 4, 8, 16 or 32. -/
  size : Nat
  source : Bool
  /-- Signal index of a sink; byte offset in the output image of a source. -/
  target : Nat
  timeoutMs : Nat
  zeroOnTimeout : Bool
  scopeUnit : Bool
  /-- Data of a source port as released. -/
  data : List Byte
  staged : List Staged
deriving DecidableEq, Repr

/-- The MVB port (Table 9.13, R312). -/
structure Mvb where
  /-- The container enables the port, as administrator if `admin`. -/
  enabled : Bool
  admin : Bool
  lineAOk : Bool
  lineBOk : Bool
  lineActive : Bool
  deviceAddr : BitVec 12
  framesA : U32
  framesB : U32
  errors : U32
  ports : List MvbPort
  /-- Poll list: port addresses per basic period. -/
  poll : List (List Nat)
  pollPos : Nat
  /-- Master frames to send or sent: function code and address. -/
  sentMasters : List (Nat × Nat)
  /-- Slave frames answered: address and data. -/
  answered : Option (Nat × List Byte)
deriving DecidableEq, Repr

/-- A CAN receive filter (R313): identifier and mask, 29-bit flag in bit 31; to an area or to queued items. -/
structure CanFilter where
  ident : U32
  mask : U32
  /-- Signal index of a NETWORK area, none for queued items. -/
  signal : Option Nat
  timeoutMs : Nat
  zeroOnTimeout : Bool
  staged : List Staged
deriving DecidableEq, Repr

/-- A CAN transmit object (R313). -/
structure CanObject where
  ident : U32
  fd : Bool
  offset : Nat
  length : Nat
  scopeUnit : Bool
  /-- Data queued for sending. -/
  queued : Option (List Byte)
deriving DecidableEq, Repr

/-- A CAN FD port (Table 9.13, R313). -/
structure CanPort where
  state : BitVec 2
  autoRecover : Bool
  tec : BitVec 8
  recCnt : BitVec 8
  rx : U32
  tx : U32
  busOffCnt : U32
  recovering : Bool
  filters : List CanFilter
  objects : List CanObject
  /-- Frames queued by the gateway: identifier and data. -/
  fwd : List (U32 × List Byte)
  limit : Nat
  items : Nat
  /-- Nominal and data bit rates in kbit/s, and FD frames (R313, Table 17.4). -/
  nominalKbps : Nat
  dataKbps : Nat
  fd : Bool
deriving DecidableEq, Repr

/-- A packet-buffer slice assigned to a lane (R309). -/
structure Slice where
  lane : LaneId
  base : Nat
  size : Nat
deriving DecidableEq, Repr

/-- The MD outbox that the container names (R308). -/
structure Outbox where
  group : GroupId
  offset : Nat
  length : Nat
deriving DecidableEq, Repr

/-- The packet engine (chapter 9). -/
structure Pkt where
  mgmtEn : Bool
  mgmtVid : BitVec 12
  /-- Addresses of the module on the management VLAN and on SVC (R242, Table 17.4). -/
  mgmtIp : U32
  svcIp : U32
  /-- Prefix length of both addresses (R469, Table 17.4). -/
  mgmtPrefix : BitVec 8
  topoEtb : U32
  topoOptrn : U32
  topoEtbNext : Option U32
  topoOptrnNext : Option U32
  port : Vector EthPort 4
  streams : List (Nat × Stream)
  pubs : List Publication
  subs : List Subscription
  mdListeners : List Nat
  mdLimit : Nat
  outbox : Option Outbox
  ring : Vector Ring 64
  slices : List Slice
  mvb : Mvb
  can : Vector CanPort 4
  event : BitVec 12
  intEn : BitVec 12
  pdTimeout : U32
  mdDrop : U32
  bufUe : U32
  cbDiscard : U32
  cbReset : U32
  pubMissed : U32
  gapDrop : U32
  txOverwrite : U32
  /-- Frames delivered to Selvedge (port 9), newest last. -/
  toSelvedge : List (List Byte)
  /-- Frames that Selvedge has sent on SVC, newest last (R242). -/
  svcSent : List (List Byte)
deriving DecidableEq, Repr

/-- A route entry (Table 9.8). -/
structure RouteEntry where
  flags : BitVec 8
  srcPort : BitVec 8
  kind : BitVec 8
  transform : BitVec 8
  ident : U32
  dstMask : U16
  prio : BitVec 8
  newIdent : U32
  param : U32
  /-- Reserved bytes 11 and 20 to 31, in that order, as written. -/
  reserved : List Byte
deriving DecidableEq, Repr

/-- A copy of the route table: entries that are not all zeros, by index 0 to 65535, indices rising. -/
abbrev RouteTable := List (Nat × RouteEntry)

/-- Shadow states (Table 9.10). -/
inductive ShadowState where
  | idle
  | copying
  | building
  | checking
  | ready
deriving DecidableEq, Repr

/-- The gateway (Table 9.17, R317 to R319). -/
structure Route where
  fwdEn : Bool
  missToSelvedge : Bool
  copy : Bool
  shadowState : ShadowState
  active : RouteTable
  shadow : RouteTable
  tableId : U32
  tableCrc : U32
  shadowId : U32
  shadowCrc : U32
  activateEpoch : Word
  swapEpoch : Word
  swapEpochHi : U32
  lookups : Word
  lookupsHi : U32
  miss : U32
  drop : U32
  event : BitVec 4
  intEn : BitVec 4
  owner : Option PairId
  /-- TB2 in nanoseconds at REBUILD_DONE (Table 9.10). -/
  readyAt : Nat
  /-- Sequence counters of the transforms 0x05 and 0x06, by entry index. -/
  seqs : List (Nat × Nat)
deriving DecidableEq, Repr

/-- An Ethernet port at reset: disabled, ETH2 and ETH3 in role ETB (Table 9.1). -/
def EthPort.reset (p : Nat) : EthPort :=
  { en := false, fec := false, force1g := false, role := if 2 ≤ p then 1 else 0, mgmt := false, tasTb := 2, tasEn := false
    link := 0, fecActive := false, shed := false, rx := 0, tx := 0, rxErr := 0, rxDrop := 0
    list := ⟨2, 0, []⟩, pendingList := none, gateIx := 0, gates := 0xFF, queue := Vector.replicate 8 []
    mdItems := 0, ip := 0, unitIp := 0, prefixLen := 0, pendingAt := 0, defVid := 1, defPcp := 0, vids := [] }

/-- A CAN port at reset. -/
def CanPort.reset : CanPort := ⟨3, true, 0, 0, 0, 0, 0, false, [], [], [], 32, 0, 0, 0, false⟩

/-- A ring at reset. -/
def Ring.reset : Ring := ⟨0, 0, false, 0, 0, false, false, 0, 0, 0, 0, 0, [], 0⟩

/-- The packet engine after module reset. -/
def Pkt.reset : Pkt :=
  { mgmtEn := false, mgmtVid := 1, mgmtIp := 0, svcIp := 0, mgmtPrefix := 24, topoEtb := 0, topoOptrn := 0, topoEtbNext := none, topoOptrnNext := none
    port := #v[EthPort.reset 0, EthPort.reset 1, EthPort.reset 2, EthPort.reset 3], streams := [], pubs := [], subs := [], mdListeners := []
    mdLimit := 32, outbox := none, ring := Vector.replicate 64 Ring.reset, slices := []
    mvb := ⟨false, false, false, false, false, 0, 0, 0, 0, [], [], 0, [], none⟩
    can := Vector.replicate 4 CanPort.reset, event := 0, intEn := 0, pdTimeout := 0, mdDrop := 0, bufUe := 0
    cbDiscard := 0, cbReset := 0, pubMissed := 0, gapDrop := 0, txOverwrite := 0, toSelvedge := [], svcSent := [] }

/-- The gateway after module reset. -/
def Route.reset : Route :=
  { fwdEn := false, missToSelvedge := false, copy := false, shadowState := .idle, active := [], shadow := []
    tableId := 0, tableCrc := 0, shadowId := 0, shadowCrc := 0, activateEpoch := 0
    swapEpoch := 0, swapEpochHi := 0, lookups := 0, lookupsHi := 0, miss := 0, drop := 0, event := 0
    intEn := 0, owner := none, readyAt := 0, seqs := [] }

end Sys2Proof.Machine
end

