-- ==== Sys2Proof/Machine/PowerState.lean ====
section
/-! DEFINITION. The state of the power sequencer and the PD0 supervisor (chapter 15), as plain data. -/

namespace Sys2Proof.Machine

/-- A feed-loss log entry (Table 15.9). -/
structure FeedLoss where
  tb0Sec : Nat
  stageMax : Nat
  flags : BitVec 2
  duration : U32
  energyLeft : U16
deriving DecidableEq, Repr

/-- The power sequencer (chapter 15). -/
structure Power where
  aVolt : BitVec 12
  aValid : Bool
  bVolt : BitVec 12
  bValid : Bool
  stage : BitVec 3
  backstop : Bool
  restoring : Bool
  /-- t0 in nanoseconds of TB3, none when fed. -/
  t0 : Option Nat
  /-- TB0 seconds at t0, 0 if TB0 was not valid (Table 15.9). -/
  tb0Loss : Nat
  energy : BitVec 12
  charging : Bool
  full : Bool
  lowCap : Bool
  cap : BitVec 12
  /-- A capacity measurement runs. -/
  measuring : Bool
  /-- Mailbox pair that waits for the measurement (PWR_HOLDUP_TEST). -/
  testPair : Option Nat
  domains : BitVec 12
  eth : BitVec 4
  pf : Bool
  power : BitVec 12
  peak : BitVec 12
  vbak : BitVec 12
  vbakOk : Bool
  event : BitVec 9
  intEn : BitVec 9
  losses : U16
  deep : U16
  stageMax : BitVec 3
  lastCause : BitVec 8
  log : List FeedLoss
  /-- Lanes that a restore waits for. -/
  restoreLanes : BitVec 8
  /-- Ports that a restore waits for. -/
  restorePorts : BitVec 4
  /-- A feed has returned in stage 3 or 4 (R447). -/
  returned : Bool
  /-- Backup RAM of PD0 as Selvedge's map reaches it, 16 KiB (Table 7.1). -/
  backupRam : Mem
deriving DecidableEq, Repr

/-- The power block after a power-on, before any measurement (Tables 15.5, 15.7). -/
def Power.reset : Power :=
  { aVolt := 0, aValid := false, bVolt := 0, bValid := false, stage := 0, backstop := false
    restoring := false, t0 := none, tb0Loss := 0, energy := 0, charging := false, full := false, lowCap := false, cap := 0
    measuring := false, testPair := none, domains := 0, eth := 0, pf := false, power := 0, peak := 0
    vbak := 0, vbakOk := false, event := 0, intEn := 0, losses := 0, deep := 0, stageMax := 0, lastCause := 0
    log := [], restoreLanes := 0, restorePorts := 0, returned := false, backupRam := [] }

end Sys2Proof.Machine
end

