-- ==== Sys2Proof/Machine/RackState.lean ====
section
/-! DEFINITION. The state of the rack bus bridge (chapter 10), as plain data, with the rack bus map. -/

namespace Sys2Proof.Machine

/-- A scan entry (Table 10.5). -/
structure ScanEntry where
  address : U32
  words : Nat
  signal : Nat
deriving DecidableEq, Repr

/-- An inbound range (Table 10.4). -/
structure RackRange where
  offset : Nat
  length : Nat
  signal : Nat
deriving DecidableEq, Repr

/-- The rack bus map of the container (Table 10.4). -/
structure RackMap where
  eventLimit : Nat
  scanLeadUs : Nat
  scan : List ScanEntry
  wlGroup : Nat
  wlOffset : Nat
  wlLength : Nat
  inBase : Nat
  irqSignal : Nat
  statusSignal : Nat
  ranges : List RackRange
deriving DecidableEq, Repr

/-- What an outbound access serves. -/
inductive OutKind where
  /-- A posted write (R329). -/
  | write
  /-- A load of a lane's core, or of Selvedge, by requester (R330). -/
  | read (requester : Nat)
  /-- A scan entry, by index (R333). -/
  | scan (entry : Nat)
  /-- RACK_READ of a mailbox pair (R348). -/
  | service (pair : Nat)
  /-- RACK_WRITE of a mailbox pair (R348). -/
  | serviceWrite (pair : Nat)
deriving DecidableEq, Repr

/-- An outbound access in the queue, or open on the bus (R327, R329, R340). -/
structure OutAccess where
  kind : OutKind
  address : U32
  byteEn : BitVec 4
  data : U32
  /-- Data cycles: 1, or 4 for READ4. -/
  words : Nat
  /-- SOURCE of Table 10.9. -/
  source : Nat
  writeList : Bool
  /-- Epoch in which the access was issued. -/
  epoch : Word
  /-- RETRY answers received so far. -/
  retries : Nat
  /-- Words of data completed, oldest first. -/
  got : List U32
deriving DecidableEq, Repr

/-- An error log entry (Table 10.9). -/
structure RackLog where
  address : U32
  data : U32
  byteEn : BitVec 4
  source : Nat
  code : Nat
  flags : BitVec 3
  epoch : Word
  stamp : Nat
deriving DecidableEq, Repr

/-- A queued inbound write (R336): an offset from IN_BASE. -/
structure InWrite where
  offset : Nat
  byteEn : BitVec 4
  data : U32
  stamp : Nat
deriving DecidableEq, Repr

/-- A prefetch window (Table 10.13) and its buffer (R337). -/
structure PfWindow where
  en : Bool
  base : BitVec 12
  limit : BitVec 12
  /-- Address and bytes held, none while empty. -/
  buffer : Option (Nat × List Byte)
  /-- Address from which a refill is under way, and the queued writes to be applied before it. -/
  refill : Option (Nat × Nat)
deriving DecidableEq, Repr

/-- A delayed-read buffer (R338): address, width, queued inbound writes to be applied before it, data when done. -/
structure DelayBuf where
  offset : Nat
  width : Nat
  after : Nat
  data : Option U32
  /-- TB3 in nanoseconds at which the read completed. -/
  doneAt : Nat
deriving DecidableEq, Repr

/-- The value of a scan entry (R333). -/
structure ScanValue where
  words : List U32
  fresh : Bool
  /-- The entry's read completed in the running scan: it succeeded, or it failed. -/
  result : Option Bool
  /-- Words read in the running scan, not yet latched. -/
  staged : List U32
deriving DecidableEq, Repr

/-- The rack bus bridge (chapter 10). -/
structure Rack where
  map : Option RackMap
  en : Bool
  shared : Bool
  pfEn : Bool
  retryLimit : BitVec 8
  clkOk : Bool
  pfShed : Bool
  pollUs : BitVec 10
  irqLevel : BitVec 8
  lock : Bool
  owner : BitVec 4
  /-- RB_LOCK_L is held low by this bridge. -/
  lockHeld : Bool
  /-- RB_LOCK_L is held low by a rack master (R339). -/
  busLocked : Bool
  /-- Outbound queue, oldest first, at most 32 (R329). -/
  outQueue : List OutAccess
  /-- The access that is open on the bus, after its grant if `granted` (R340). -/
  openAccess : Option OutAccess
  granted : Bool
  /-- Completed outbound reads that their load has not yet taken, by requester (R330): core `c` of lane `l` is
  2l + c, Selvedge is 16. -/
  reads : List (Nat × U32)
  /-- A scan is in progress. -/
  scanBusy : Bool
  scanValues : List ScanValue
  /-- Records of the released write list that are still to be queued. -/
  writeList : List (U32 × U32 × BitVec 4 × Bool)
  /-- Epoch whose values the running write list carries. -/
  wlEpoch : Word
  inQueue : List InWrite
  /-- Shared memory, 1 MiB. -/
  shm : Mem
  pf : Vector PfWindow 8
  dr : Vector (Option DelayBuf) 4
  items : Nat
  lostMark : Bool
  log : List RackLog
  logNext : BitVec 4
  event : BitVec 8
  intEn : BitVec 8
  inWr : U32
  inRd : U32
  inRetry : U32
  outWr : U32
  outRd : U32
  outRetry : U32
  failures : U32
  evtDropped : U32
  wlDiscard : U32
  drExpired : U32
  monMismatch : U16
  notDriver : U16
  /-- R346: a parity error has failed the bridge. -/
  failed : Bool
  /-- R346: in SHARED mode a failed bridge sends no DIGEST frame from the next epoch until restart. -/
  mute : Bool
  /-- R346: a monitor has lost an inbound write. -/
  monLost : Bool
  /-- Write-list cycles of the holder still expected by a monitor (R345). -/
  expect : List (U32 × U32 × BitVec 4)
  pollNext : Option (BitVec 10)
  pfNext : List (Nat × Bool × Nat × Nat)
  clearNext : BitVec 2
  /-- The last answer the bridge gave as target: RSP and data (Table 10.1). -/
  answer : Option (BitVec 2 × U32)
deriving DecidableEq, Repr

/-- The bridge after module reset, without a map (Tables 10.11 to 10.14, 17.16). -/
def Rack.reset : Rack :=
  { map := none, en := false, shared := false, pfEn := false, retryLimit := 0x40, clkOk := false
    pfShed := false, pollUs := 10, irqLevel := 0, lock := false, owner := 0xF, lockHeld := false
    busLocked := false, outQueue := [], openAccess := none, granted := false, reads := []
    scanBusy := false, scanValues := [], writeList := [], wlEpoch := 0, inQueue := [], shm := []
    pf := Vector.replicate 8 ⟨false, 0, 0, none, none⟩, dr := Vector.replicate 4 none, items := 0
    lostMark := false, log := [], logNext := 0, event := 0, intEn := 0, inWr := 0, inRd := 0, inRetry := 0
    outWr := 0, outRd := 0, outRetry := 0, failures := 0, evtDropped := 0, wlDiscard := 0, drExpired := 0
    monMismatch := 0, notDriver := 0, failed := false, mute := false, monLost := false, expect := []
    pollNext := none, pfNext := [], clearNext := 0, answer := none }

end Sys2Proof.Machine
end

