-- ==== Sys2Proof/Machine/RecorderState.lean ====
section
/-! DEFINITION. The state of the Moraine recorder, of Rime freeze, of debug unlock and of the test access port
(chapter 18), as plain data. -/

namespace Sys2Proof.Machine

/-- A Moraine record (Table 18.3). The CRC is computed when the record is read out as bytes. -/
structure MorRecord where
  seq : Word
  tb0Ns : Nat
  tb0Sec : Nat
  tb0Valid : Bool
  /-- Written at start from backup RAM. -/
  held : Bool
  /-- Table 18.4. -/
  source : Nat
  /-- R502, Table 18.5. -/
  code : U16
  /-- 0 to 7; 0xFF for none. -/
  lane : Nat
  /-- Table 3.14. -/
  voteState : Nat
  epochNo : Word
  /-- TB3 as SEC × 10^9 + NS. -/
  tb3 : Nat
  /-- DATA, at most 20 bytes; the rest is 0. -/
  data : List Byte
deriving DecidableEq, Repr

/-- What a source has written in the running 10 ms window (R503). -/
structure MorWindow where
  count : Nat
  dropped : Nat
  /-- The SEQ that stood at the first dropped record. -/
  firstLost : Word
deriving DecidableEq, Repr

/-- The Moraine recorder (Table 18.6, R501 to R504). -/
structure Moraine where
  /-- Next SEQ. -/
  nextSeq : Word
  seqHi : U32
  oldestHi : U32
  /-- Staged records, oldest first. -/
  staged : List MorRecord
  /-- Records in the ring, oldest first. -/
  ring : List MorRecord
  running : Bool
  flushing : Bool
  lost : U32
  badUnits : U32
  flushMs : U16
  rate : U16
  event : BitVec 4
  intEn : BitVec 4
  /-- Per source 0x00 to 0x13 (Table 18.4). -/
  window : Vector MorWindow 20
  /-- Records kept in backup RAM until Moraine runs (R458, R498). -/
  backup : List MorRecord
deriving DecidableEq, Repr

/-- The recorder after module reset. -/
def Moraine.reset : Moraine :=
  { nextSeq := 0, seqHi := 0, oldestHi := 0, staged := [], ring := [], running := false, flushing := false
    lost := 0, badUnits := 0, flushMs := 0x3E8, rate := 0x100, event := 0, intEn := 0
    window := Vector.replicate 20 ⟨0, 0, 0⟩, backup := [] }

/-- The test access port (Table 18.2). -/
structure Tap where
  /-- Instruction register. -/
  instr : BitVec 8
  /-- The selected instruction's condition was met (R499). -/
  granted : Bool
  /-- SCAN_SELECT. -/
  chain : U16
  /-- MEM_ADDR. -/
  memAddr : BitVec 40
  /-- The data register captured by the last read instruction, and its length in bits. -/
  data : Nat
  length : Nat
deriving DecidableEq, Repr

/-- Freeze, debug unlock and the DBG block (Table 18.7). -/
structure Debug where
  frozen : Bool
  /-- FRZ_L is low. -/
  frzPin : Bool
  /-- End of debug unlock in nanoseconds of TB3, none while locked (R489). -/
  unlockEnd : Option Nat
  /-- TRST_L is low. -/
  tapReset : Bool
  lastCause : BitVec 8
  freezes : U16
  frzTb : Bool
  event : BitVec 4
  intEn : BitVec 4
  tap : Tap
deriving DecidableEq, Repr

/-- The debug block after module reset. -/
def Debug.reset : Debug :=
  { frozen := false, frzPin := false, unlockEnd := none, tapReset := false, lastCause := 0, freezes := 0
    frzTb := false, event := 0, intEn := 0, tap := ⟨0xFF, true, 0, 0, 0, 1⟩ }

end Sys2Proof.Machine
end

