-- ==== Sys2Proof/Machine/SafeState.lean ====
section
/-! DEFINITION. The state of the safety block: safe inputs, safe outputs, speed inputs and speed functions
(chapter 13), as plain data. -/

namespace Sys2Proof.Machine

/-- Safe output states (Table 13.5). -/
inductive SafeOutState where
  | safeOff
  | precheck
  | on
  | shutdown
  | locked
deriving DecidableEq, Repr

/-- Function states (R405). -/
inductive FuncState where
  | off
  | permit
  | noPermit
  | fault
deriving DecidableEq, Repr

/-- A safe input (R389 to R393) with SAFE_IN_n_CFG. -/
structure SafeIn where
  mode : BitVec 2
  srcA : BitVec 2
  srcB : BitVec 2
  limit : BitVec 14
  state : Bool
  /-- Channel values as used at the last tick. -/
  chA : Bool
  chB : Bool
  count : Nat
  discrepancy : Bool
  crossShort : Bool
  shortSupply : Bool
  /-- For channel A and channel B, in the window of TPS0 and of TPS1: the value at tick k, a 1 seen at tick
  k+3 or k+4, a 0 seen at both (Table 13.2). -/
  winA : Vector (Bool × Bool × Bool) 2
  winB : Vector (Bool × Bool × Bool) 2
deriving DecidableEq, Repr

/-- A safe output (R394 to R401) with SAFE_OUT_n_CFG. -/
structure SafeOut where
  en : Bool
  pulseEn : Bool
  state : SafeOutState
  fault : BitVec 4
  swH : Bool
  swL : Bool
  /-- TB3 in nanoseconds at which SAFE_OFF was entered. -/
  offSince : Nat
  /-- TB3 in nanoseconds at which the state was entered. -/
  entered : Nat
  /-- ON bit of the previous release frame; 1 after a module reset (R396). -/
  prevOn : Bool
  openLoad : Bool
  /-- Consecutive ticks in SAFE_OFF with V_H above 3 V (Table 13.7). -/
  highTicks : Nat
  /-- The switches that opened first when the output locked (Table 13.7): SOUTn_H bit 0, SOUTn_L bit 1. -/
  first : BitVec 2
deriving DecidableEq, Repr

/-- A speed input (R403, R404) with SPD_s_CFG. -/
structure SpeedIn where
  dEdge : BitVec 16
  win : BitVec 14
  /-- Edges of the last WIN ticks, newest first. -/
  edges : List Nat
  net : Word
  netHi : U32
  wireA : Bool
  wireB : Bool
  illegal : Bool
  freq : Bool
  reverse : Bool
  /-- Speed v in mm/s (R403). -/
  v : Nat
  /-- Fault conditions that stand now, in the order WIRE_A, WIRE_B, ILLEGAL, FREQ. -/
  present : BitVec 4
deriving DecidableEq, Repr

/-- A speed function (R405 to R408) with FUNC_f_CFG0, LIMIT and HYST. -/
structure SafeFunc where
  sensor : BitVec 2
  chkEn : Bool
  check : BitVec 2
  en : Bool
  fwdForbidden : Bool
  outMask : BitVec 8
  chkTol : BitVec 16
  limit : U32
  hyst : U32
  state : FuncState
  latched : Bool
  /-- r of function 1, d of function 2, in micrometres. -/
  dist : Nat
  /-- Consecutive ticks with v at most 138 mm/s (function 3). -/
  still : Nat
  /-- Consecutive ticks with a check difference above CHK_TOL (R407). -/
  diffs : Nat
  /-- Fault code of Table 13.18 and the speed input that raised it. -/
  faultCode : BitVec 4
deriving DecidableEq, Repr

/-- A release word as it crosses the barrier, waiting for the tick at which it is applied. -/
structure SafeRelease where
  word : Word
  /-- A SAFE_CLEAR frame: function 3 is cleared without its own permit (R416). -/
  service : Bool
deriving DecidableEq, Repr

/-- The safety block (chapter 13). -/
structure Safe where
  mapped : Bool
  signal : Nat
  eventLimit : Nat
  nom : BitVec 3
  word : Nat
  tpIn : BitVec 10
  tpOut : BitVec 14
  input : Vector SafeIn 8
  output : Vector SafeOut 8
  speed : Vector SpeedIn 4
  func : Vector SafeFunc 4
  fieldOk : Bool
  /-- The field side receives no logic frame and holds every switch open (R387). -/
  fieldSilent : Bool
  /-- Silence: no valid release frame for T_SS (R395). -/
  silent : Bool
  supplyLow : Bool
  frame : SafeFrame
  /-- The safety word of a release frame that is on its way to the field side (R395). -/
  sent : Option Word
  /-- Release frame that the next tick applies. -/
  release : Option SafeRelease
  /-- TPS0 and TPS1 are dark. -/
  dark : Vector Bool 2
  /-- Ticks since the last window of TPS0 and TPS1 opened. -/
  sinceDark : Vector Nat 2
  /-- TPS0's window of the running test period has been sampled (R392). -/
  windowDone : Bool
  /-- HB_LOST: no valid field frame for 50 µs (R387). -/
  lost : Bool
  /-- Calving stage 3 has been entered, and the restart that follows has not come (R397). -/
  calved : Bool
  event : BitVec 10
  intEn : BitVec 10
  items : Nat
  lostMark : Bool
  /-- Clears that the last tick refused: outputs, inputs, functions. -/
  refused : Bool
  /-- Rejection reason of the last release frame for each output, 0 for none (R415). -/
  rejected : Vector (BitVec 3) 8
deriving DecidableEq, Repr

/-- A safe input without a safety map (Table 17.16). -/
def SafeIn.reset : SafeIn :=
  { mode := 0, srcA := 0, srcB := 0, limit := 10, state := false, chA := false, chB := false, count := 0
    discrepancy := false, crossShort := false, shortSupply := false
    winA := Vector.replicate 2 (false, false, false), winB := Vector.replicate 2 (false, false, false) }

/-- A safe output after a reset of cause 0x01, without a safety map. -/
def SafeOut.reset : SafeOut :=
  { en := false, pulseEn := false, state := .safeOff, fault := 0, swH := false, swL := false, offSince := 0
    entered := 0, prevOn := true, openLoad := false, highTicks := 0, first := 0 }

/-- A speed input without a safety map. -/
def SpeedIn.reset : SpeedIn :=
  { dEdge := 1, win := 1000, edges := [], net := 0, netHi := 0, wireA := false, wireB := false
    illegal := false, freq := false, reverse := false, v := 0, present := 0 }

/-- A speed function without a safety map. -/
def SafeFunc.reset : SafeFunc :=
  { sensor := 0, chkEn := false, check := 0, en := false, fwdForbidden := false, outMask := 0, chkTol := 0
    limit := 0, hyst := 0, state := .off, latched := false, dist := 0, still := 0, diffs := 0
    faultCode := 0 }

/-- An empty safety frame. -/
def SafeFrame.empty : SafeFrame :=
  ⟨0, 0, 0, 0, 0, 0, Vector.replicate 4 0, Vector.replicate 4 0, 0, Vector.replicate 4 0⟩

/-- The block after module reset, without a map (Tables 13.14 to 13.16, 17.16). -/
def Safe.reset : Safe :=
  { mapped := false, signal := 0, eventLimit := 32, nom := 0, word := 0, tpIn := 100, tpOut := 1000
    input := Vector.replicate 8 SafeIn.reset, output := Vector.replicate 8 SafeOut.reset
    speed := Vector.replicate 4 SpeedIn.reset, func := Vector.replicate 4 SafeFunc.reset, fieldOk := false
    fieldSilent := true, silent := false, supplyLow := false, frame := SafeFrame.empty, sent := none, release := none
    dark := Vector.replicate 2 false, sinceDark := Vector.replicate 2 100
    windowDone := false, lost := false, calved := false, event := 0
    intEn := 0, items := 0, lostMark := false, refused := false, rejected := Vector.replicate 8 0 }

end Sys2Proof.Machine
end

