-- ==== Sys2Proof/Machine/TimeState.lean ====
section
/-! DEFINITION. The state of the time bases, captures and pulse outputs (chapter 8) and of the check engine
(chapter 11), as plain data. -/

namespace Sys2Proof.Machine

/-- A time base value (Table 8.2): seconds, nanoseconds, fraction in units of 2^-32 ns. -/
structure TbValue where
  sec : BitVec 48
  ns : BitVec 30
  frac : U32
deriving DecidableEq, Repr

/-- Servo states (Table 8.3). -/
inductive ServoState where
  | free
  | locking
  | locked
  | holdover
  | lost
deriving DecidableEq, Repr

/-- One time base with its servo (Tables 8.9, 8.10). -/
structure TimeBase where
  value : TbValue
  /-- SEC and FRAC as latched by a read of TB_k_NS (R289). -/
  latchSec : BitVec 48
  latchFrac : U32
  /-- INCR_NS as last written; both halves take effect on the write of INCR_FRAC. -/
  incrNs : BitVec 8
  /-- INCR in force, in units of 2^-32 ns (R273). -/
  incr : Nat
  kp : BitVec 6
  ki : BitVec 6
  lockNs : U16
  holdS : U16
  measLo : U32
  measHi : U32
  /-- Accumulator of R275. -/
  acc : Int
  /-- ADJ in units of 2^-32 ns per tick. -/
  adj : Int
  /-- An update is running (R276). -/
  busy : Bool
  /-- A held measurement, in units of 2^-16 ns. -/
  heldMeas : Option Int
  state : ServoState
  lockCount : Nat
  lastOfs : U32
  stepCnt : U32
  /-- The time base was held in a freeze: its servo steps on the next measurement (R497). -/
  stepNext : Bool
  /-- REF_FREQ marks the servo LOCKING at the next measurement (R288). -/
  relock : Bool
deriving DecidableEq, Repr

/-- INCR at reset: exactly 10 ns (R273). -/
def incrReset : Nat := 0xA00000000

/-- A time base after a power-on of cause 0x01; `k` is its number (Tables 8.9, 8.10). -/
def TimeBase.reset (k : Nat) : TimeBase :=
  { value := ⟨0, 0, 0⟩, latchSec := 0, latchFrac := 0, incrNs := 0x0A, incr := incrReset, kp := 21, ki := 24
    lockNs := if k = 2 then 0x32 else 0x3E8, holdS := 0x3C, measLo := 0, measHi := 0, acc := 0, adj := 0
    busy := false, heldMeas := none, state := if k = 3 then .locked else .free, lockCount := 0, lastOfs := 0
    stepCnt := 0, stepNext := false, relock := false }

/-- A capture unit (Table 8.11, R282 to R284). -/
structure CapUnit where
  source : BitVec 8
  edge : BitVec 2
  tb : BitVec 2
  en : Bool
  limit : BitVec 8
  cnt : U32
  lost : U32
  /-- Epoch number (by TB2 stamp) to which the count `placed` belongs. -/
  epoch : Nat
  /-- Items placed in the raw image of that epoch. -/
  placed : Nat
  /-- A capture was lost since the last item (FLAGS.LOST). -/
  lostFlag : Bool
  /-- The unit ignores its source before this TB3 time in nanoseconds (R282). -/
  quietUntil : Nat
deriving DecidableEq, Repr

/-- A timed pulse output (Table 8.12). -/
structure Tpo where
  en : Bool
  periodic : Bool
  pol : Bool
  tb : BitVec 2
  startNs : BitVec 30
  startSec : BitVec 48
  period : U32
  width : U32
  armed : Bool
  active : Bool
  missed : U16
  /-- Time in nanoseconds of the next edge on the selected time base. -/
  nextEdge : Nat
  /-- The next edge is a leading edge. -/
  nextLeading : Bool
  /-- The pin is at high impedance: from calving stage 5 (R287). -/
  hiZ : Bool
deriving DecidableEq, Repr

/-- PTP on a port (Tables 8.15, 8.16). -/
structure PtpPort where
  en : Bool
  p2p : Bool
  udp : Bool
  tb : Bool
  domain : BitVec 8
  asymPs : U32
  portState : BitVec 8
  meanDelay : Word
  syncRx : U32
  tsMiss : U32
deriving DecidableEq, Repr

/-- The TIME block (chapter 8). -/
structure TimeBlock where
  tb : Vector TimeBase 4
  cap : Vector CapUnit 16
  tpo : Vector Tpo 8
  ptp : Vector PtpPort 4
  event : BitVec 14
  intEn : BitVec 14
  /-- The 100 MHz reference is missing (R288). -/
  refMissing : Bool
  /-- The reference deviates by more than 1000 ppm (R288). -/
  refFreq : Bool
  /-- TB0 to TB2 hold their values in a freeze (Table 18.1). -/
  tbHeld : Bool
deriving DecidableEq, Repr

/-- A capture unit at reset. -/
def CapUnit.reset : CapUnit := ⟨0, 0, 0, false, 0x10, 0, 0, 0, 0, false, 0⟩

/-- A pulse output at reset. -/
def Tpo.reset : Tpo := ⟨false, false, false, 0, 0, 0, 0, 0, false, false, 0, 0, false, false⟩

/-- PTP of a port at reset: disabled. -/
def PtpPort.reset : PtpPort := ⟨false, false, false, false, 0, 0, 0, 0, 0, 0⟩

/-- The TIME block after a power-on. -/
def TimeBlock.reset : TimeBlock :=
  { tb := #v[TimeBase.reset 0, TimeBase.reset 1, TimeBase.reset 2, TimeBase.reset 3]
    cap := Vector.replicate 16 CapUnit.reset, tpo := Vector.replicate 8 Tpo.reset
    ptp := Vector.replicate 4 PtpPort.reset, event := 0, intEn := 0, refMissing := false, refFreq := false
    tbHeld := false }

/-- A check context (Table 11.4). -/
structure CheckCtx where
  alg : BitVec 3
  core : Bool
  owner : BitVec 4
  /-- Running value, before XorOut (R351). -/
  running : Word
  valHi : U32
  valHiStage : U32
  finHi : U32
  cmpHi : U32
  result : BitVec 2
  folded : Bool
  bytes : U16
deriving DecidableEq, Repr

/-- A check context at reset: unbound, no algorithm. -/
def CheckCtx.reset : CheckCtx := ⟨0, false, 0xF, 0, 0, 0, 0, 0, 0, false, 0⟩

/-- The check engine (chapter 11). -/
structure CheckBlock where
  ctx : Vector CheckCtx 16
  event : BitVec 17
  intEn : BitVec 17
  misuseCnt : U32
deriving DecidableEq, Repr

/-- The check engine at reset. -/
def CheckBlock.reset : CheckBlock := ⟨Vector.replicate 16 CheckCtx.reset, 0, 0, 0⟩

end Sys2Proof.Machine
end

