-- ==== Sys2Proof/Machine/WeftState.lean ====
section
/-! DEFINITION. The state of the Weft links, the voter, catch-up and the vote states (chapter 3), as plain
data. -/

namespace Sys2Proof.Machine

/-- Link states (Table 3.3). -/
inductive LinkState where
  | down
  | training
  | negotiate
  | identity
  | time
  | up
  | stranger
  | refused
deriving DecidableEq, Repr

/-- Vote states (Table 3.14). -/
inductive VoteState where
  | starting
  | bench
  | unconfigured
  | stranger
  | foreign
  | catchup
  | admitting
  | voter
  | excluded
  | unitSafe
  | withdrawn
deriving DecidableEq, Repr

/-- Vote outcomes (Table 3.20). -/
inductive VoteOutcome where
  | noDecision
  | unanimous
  | majority
  | pair
deriving DecidableEq, Repr

/-- A frame that waits to be sent, or that was sent and is kept for resending (Table 3.1, R79, R80). -/
structure TxFrame where
  type : Nat
  epochLo : U32
  payload : List Byte
  /-- The frame is a retransmission (R79). -/
  resend : Bool
  seq : U32
deriving DecidableEq, Repr

/-- A DIGEST frame's content (Table 3.10). -/
structure DigestFrame where
  epochNo : Word
  imageGen : U32
  offered : U16
  flags : BitVec 8
  slice : BitVec 8
  digest : Vector Word 16
  audit : Word
deriving DecidableEq, Repr

/-- A HELLO payload (Table 3.5). -/
structure Hello where
  levelMin : Nat
  levelMax : Nat
  slot : Nat
  period : Nat
  kCodes : List Nat
  imageGen : U32
  mode : BitVec 8
  voteState : Nat
  nonce : List Byte
deriving DecidableEq, Repr

/-- One Weft link and the sibling at its end (Tables 3.3, 3.4, 3.18, 3.25, 3.26, 3.29). -/
structure Link where
  state : LinkState
  level : BitVec 4
  peerSlot : BitVec 2
  peerState : BitVec 4
  peerGen : U32
  peerMode : BitVec 8
  /-- Next SEQ of the transmit direction. -/
  txSeq : U32
  /-- Next SEQ expected from the other end. -/
  rxSeq : U32
  /-- Last ACK received. -/
  acked : U32
  /-- The nonce sent in HELLO, and the one received. -/
  nonceSent : List Byte
  nonceGot : List Byte
  helloSent : Bool
  helloGot : Bool
  /-- Own verdict on the peer's identity (R84). -/
  identOk : Option Bool
  /-- The peer's verdict, by IDENT_RESULT. -/
  identResult : Option Bool
  /-- TB2_SYNC rounds completed in link-up (R82). -/
  syncRounds : Nat
  /-- The t1 stamp outstanding, in units of 2^-16 ns (R85). -/
  t1 : Option Nat
  /-- θ of the last exchange in units of 2^-16 ns (R85). -/
  theta : Int
  /-- A θ of this link is known. -/
  thetaValid : Bool
  crcRun : Nat
  /-- Whole epochs without an intact frame (R81). -/
  silentEpochs : Nat
  intact : Bool
  crcErr : U32
  retx : U32
  absentCnt : U32
  /-- Frames ready to be sent. -/
  txq : List TxFrame
  /-- Frames sent in this epoch, kept for level 3 (R80). -/
  sent : List TxFrame
  /-- RAW parts received in this epoch: offset and length. -/
  rawParts : List (Nat × Nat)
  /-- The sibling's raw image of this epoch is complete and correct at the exchange end (R88). -/
  rawOk : Bool
  /-- RECEIVED mask of the sibling's RX_REPORT of this epoch. -/
  rxReport : Option (BitVec 3)
  digest : Option DigestFrame
  /-- CONDEMN of this module by this sibling arrived for this epoch (R108). -/
  condemnedBy : Bool
  /-- CDN_IN of this side: level, stuck (R107). -/
  cdnIn : Bool
  /-- CDN_OUT of this side. -/
  cdnOut : Bool
  /-- Whole epochs for which a stuck line has been low. -/
  cdnLowEpochs : Nat
  /-- This module condemned the sibling for the last epoch (Table 3.22). -/
  sentCondemn : Bool
  /-- Agreeing epochs of this sibling in a formation, as seen by the source or by a member (R119). -/
  agree : Nat
  /-- The sibling's UNIT_SAFE was received. -/
  unitSafe : Bool
  /-- Blocks dirty for the sibling, as its catch-up source (R123). -/
  dirty : List Nat
  /-- This module is catch-up source for the sibling. -/
  isSource : Bool
  /-- The catch-up was judged complete; the tail is not yet sent (R123). -/
  tail : Bool
  /-- Lanes whose blocks the catch-up covers. -/
  cuLanes : BitVec 8
  /-- Per lane of a voting sibling: epochs since its catch-up was judged complete in which none of its groups was
  offered; none while its groups are offered (R124, log entry 53). -/
  quiet : Vector (Option Nat) 8
  /-- The link came up in this epoch: it carries epoch traffic from the next boundary (Table 3.4). -/
  fresh : Bool
  /-- The last offset has not yet entered a TB2 target (R86). -/
  thetaFresh : Bool
  /-- CDN_IN of this side is stuck, and ignored (R107). -/
  cdnStuck : Bool
  /-- The last frame that left, as its bytes (Table 3.1). -/
  lastFrame : List Byte
  /-- The last DIGEST frame of the sibling as an observer, and the groups in which it equalled the deciding digest (R84, R118). -/
  logged : Option (DigestFrame × U16)
  /-- RECEIVED mask of the sibling's RX_REPORT of the last epoch (R121). -/
  lastReport : Option (BitVec 3)
  /-- The sibling entered CATCHUP or ADMITTING through a formation (R119). -/
  viaForm : Bool
  /-- The tail has been sent, and the receiver has not yet been seen ADMITTING (R123). -/
  cuSent : Bool
  /-- Lanes of the sibling that have offered a group since it was seen ADMITTING (R124, log entry 53). -/
  offeredLanes : BitVec 8
deriving DecidableEq, Repr

/-- A link after module reset. -/
def Link.reset : Link :=
  { state := .down, level := 0, peerSlot := 0, peerState := 0, peerGen := 0, peerMode := 0, txSeq := 0
    rxSeq := 0, acked := 0, nonceSent := [], nonceGot := [], helloSent := false, helloGot := false
    identOk := none, identResult := none, syncRounds := 0, t1 := none, theta := 0, thetaValid := false
    crcRun := 0, silentEpochs := 0, intact := false, crcErr := 0, retx := 0, absentCnt := 0, txq := []
    sent := [], rawParts := [], rawOk := false, rxReport := none, digest := none, condemnedBy := false
    cdnIn := false, cdnOut := false, cdnLowEpochs := 0, sentCondemn := false, agree := 0
    unitSafe := false, dirty := [], isSource := false, tail := false, cuLanes := 0
    quiet := Vector.replicate 8 none, fresh := false, thetaFresh := false, cdnStuck := false, lastFrame := []
    logged := none, lastReport := none, viaForm := false, cuSent := false, offeredLanes := 0 }

/-- The vote, the release and the membership of this module (chapter 3). -/
structure Weft where
  linkAEn : Bool
  linkBEn : Bool
  levelMax : BitVec 2
  a : Link
  b : Link
  own : VoteState
  /-- V: bit s−1 is slot s. -/
  voters : BitVec 3
  roleSlot : BitVec 2
  /-- The holder chosen at V_c for the epoch after the next boundary (R112). -/
  roleNext : BitVec 2
  /-- This module has started the single-driver functions (R113). -/
  roleStarted : Bool
  /-- The holder that V_c replaced still qualified, so that the role passes over without a gap (R114). -/
  handover : Bool
  sources : BitVec 3
  disagreeRun : BitVec 2
  voteGen : U32
  outcome : Vector VoteOutcome 16
  released : U16
  safe : U16
  hold : Vector (BitVec 4) 16
  latched : U16
  /-- Groups released since this module became a VOTER (R105). -/
  everReleased : U16
  lastReleased : Vector (List Byte) 16
  /-- Own digest of each group in this epoch, once computed (R99). -/
  ownDigest : Vector (Option Word) 16
  ownAudit : Option Word
  /-- The DIGEST frame of this epoch as sent. -/
  ownFrame : Option DigestFrame
  /-- Groups whose own digest equals the deciding digest (R104). -/
  ownEqual : U16
  /-- Outcome of the audit, and own audit digest equal. -/
  auditOutcome : VoteOutcome
  auditEqual : Bool
  byA : Bool
  byB : Bool
  stuck0 : Bool
  stuck1 : Bool
  excludedNow : Bool
  /-- TB3 times in nanoseconds of the exclusions within 3600 s (R109), newest first. -/
  exclTimes : List Nat
  /-- Condemned by some sibling for the epoch that ends: starts no active-role function (R108). -/
  condemnedEpoch : Bool
  event : BitVec 17
  intEn : BitVec 17
  /-- CU_ROLE and PEER_SLOT as receiver. -/
  cuReceiver : Bool
  cuPeer : BitVec 2
  /-- Blocks received in admission, written at the next boundary (R125). -/
  cuStaged : List (Nat × List Byte)
  /-- CU_COMPLETE arrived in the DIGEST frame of this epoch. -/
  cuComplete : Bool
  /-- Admission counting is suspended until R123 is met again (R125). -/
  cuAgain : Bool
  admitCount : Nat
  cuBlocks : BitVec 12
  /-- Formation source slot, 0 for none (R119). -/
  formSource : BitVec 2
  dissentCnt : U32
  ndCnt : U32
  /-- TB2 has been synchronised to a sibling (R87). -/
  tb2Synced : Bool
  /-- Requests taken at the next boundary (R127). -/
  withdrawReq : Bool
  rejoinReq : Bool
  resumeMask : U16
  clearMask : BitVec 3
  /-- Epochs with both links DOWN (Table 3.15). -/
  bothDown : Nat
  /-- The voter was not in S of this epoch (R90). -/
  outOfSet : Bool
  /-- A calving stage or a reference loss has stopped digests and release (R31, R444). -/
  stopped : Bool
  /-- Selvedge failed: abstain from the next boundary (Table 1.5). -/
  abstainNext : Bool
  /-- Bytes of each group as released at the last boundary: own, held or safe values (Table 3.13). -/
  current : Vector (List Byte) 16
  /-- Slots in V that dissented from a MAJORITY in this epoch, and so are condemned by both others (R106). -/
  dissent : BitVec 3
  /-- The safe values of UNIT_SAFE have been released (R111). -/
  unitSafeDone : Bool
  /-- The fourth exclusion within 3600 s: EXCLUDED until a restart (R109). -/
  exclFinal : Bool
  /-- This module entered CATCHUP or ADMITTING through a formation (R119). -/
  viaForm : Bool
deriving DecidableEq, Repr

/-- The voter after module reset. -/
def Weft.reset : Weft :=
  { linkAEn := true, linkBEn := true, levelMax := 3, a := Link.reset, b := Link.reset, own := .starting
    voters := 0, roleSlot := 0, roleNext := 0, roleStarted := false, handover := false, sources := 0, disagreeRun := 0
    voteGen := 0, outcome := Vector.replicate 16 .noDecision, released := 0, safe := 0
    hold := Vector.replicate 16 0, latched := 0, everReleased := 0, lastReleased := Vector.replicate 16 []
    ownDigest := Vector.replicate 16 none, ownAudit := none, ownFrame := none, ownEqual := 0
    auditOutcome := .noDecision, auditEqual := false, byA := false, byB := false, stuck0 := false
    stuck1 := false, excludedNow := false, exclTimes := [], condemnedEpoch := false, event := 0, intEn := 0
    cuReceiver := false, cuPeer := 0, cuStaged := [], cuComplete := false, cuAgain := false, admitCount := 0
    cuBlocks := 0, formSource := 0, dissentCnt := 0, ndCnt := 0, tb2Synced := false, withdrawReq := false
    rejoinReq := false, resumeMask := 0, clearMask := 0, bothDown := 0, outOfSet := false, stopped := false
    abstainNext := false, current := Vector.replicate 16 [], dissent := 0, unitSafeDone := false, exclFinal := false
    viaForm := false }

end Sys2Proof.Machine
end

