-- ==== Sys2Proof/Machine/State.lean ====
section
/-! DEFINITION. The state of one module, the reasons a step can stop, and the state of a module that holds no
power: the state before its first power-on. -/

namespace Sys2Proof.Machine

/-- The state of one Garorn module: one structure per block, and the queue of waiting commands. -/
structure State where
  /-- Lanes, Firn units and store gates (chapters 2, 4, 5, 6). -/
  lanes : LaneBlock
  /-- Epoch sequencer (chapter 2). -/
  epoch : Epoch
  /-- Memories and the memory status block (chapter 6). -/
  mem : Memory
  /-- Time bases, captures, pulse outputs and PTP (chapter 8). -/
  time : TimeBlock
  /-- Check engine (chapter 11). -/
  check : CheckBlock
  /-- Moraine recorder (chapter 18). -/
  mor : Moraine
  /-- Freeze, debug unlock and the test access port (chapter 18). -/
  dbg : Debug
  /-- Weft links and the vote (chapter 3). -/
  weft : Weft
  /-- Selvedge and the mailboxes (chapter 7). -/
  mbox : Mbox
  /-- Packet engine and ports (chapter 9). -/
  pkt : Pkt
  /-- Gateway (chapter 9). -/
  route : Route
  /-- Rack bus bridge (chapter 10). -/
  rack : Rack
  /-- Field I/O (chapter 12). -/
  fio : Fio
  /-- Safety block (chapter 13). -/
  safe : Safe
  /-- Analog channels (chapter 14). -/
  muslin : Muslin
  /-- Power sequencer and PD0 supervisor (chapter 15). -/
  power : Power
  /-- Start-up and update (chapter 16). -/
  boot : Boot
  /-- Containers, security store and identity (chapter 17). -/
  sec : Sec
  /-- What manufacture fixes (chapters 16 and 17). -/
  otp : Otp
  /-- Maps of the loaded container (chapters 3 and 17). -/
  maps : Maps
  /-- SLOT[1:0] as sampled at step 3 of the start (R515). -/
  slot : BitVec 2
  /-- SLOT[1:0] pins as they stand (R515). -/
  slotPins : BitVec 2
  /-- Data answered to the last register read command of Selvedge or of a lane. -/
  readData : U32
  /-- The model's own: how many free values have been taken (log entry 7). -/
  freeCtr : Nat
  /-- Commands that wait, first in, first out (log entry 1). -/
  pending : List Instr
deriving DecidableEq, Repr

/-- Why the module stops with a fault. No command of the spec stops the module: an error is an effect on State. -/
inductive Fault where
  /-- Raised by no meaning: the spec gives every command an effect. Safe. -/
  | none
deriving DecidableEq, Repr

/-- Why a command has no meaning. -/
inductive Refusal where
  /-- Raised by the arm of a command that has no meaning yet. Safe. -/
  | notModelled (mnemonic : String)
deriving DecidableEq, Repr

/-- The module without power and with empty flash: what every start begins from (chapters 15 to 17). -/
def State.reset : State :=
  { lanes := LaneBlock.reset, epoch := Epoch.reset, mem := Memory.reset, time := TimeBlock.reset
    check := CheckBlock.reset, mor := Moraine.reset, dbg := Debug.reset, weft := Weft.reset
    mbox := Mbox.reset, pkt := Pkt.reset, route := Route.reset, rack := Rack.reset, fio := Fio.reset
    safe := Safe.reset, muslin := Muslin.reset, power := Power.reset, boot := Boot.reset, sec := Sec.reset, otp := Otp.reset
    maps := Maps.none, slot := 0, slotPins := 0, readData := 0, freeCtr := 0, pending := [] }

end Sys2Proof.Machine
end

