-- ==== Sys2Proof/Machine/Ops.lean ====
section
/-! DEFINITION. The operations that every block shares: power and freeze, the time bases as numbers, the phase
figures of the epoch, vote-state codes, queued items of the raw input image, and Moraine records. -/

namespace Sys2Proof.Machine

/-- A power domain of Table 1.2 is on. -/
def powered (s : State) (d : Nat) : Bool := s.power.domains.getLsbD d

/-- The unclocked logic of a domain runs: it is powered and no freeze halts it (R24, R495). -/
def running (s : State) (d : Nat) : Bool := powered s d && !s.dbg.frozen

/-- The next state of a command of domain `d`: nothing happens while the domain is off or frozen. -/
def live (s : State) (d : Nat) (t : State) : Host.Outcome State Fault Refusal :=
  .next (if running s d then t else s)

/-- The next state of a command of a part that a freeze does not halt (Table 18.1). -/
def always (s : State) (d : Nat) (t : State) : Host.Outcome State Fault Refusal :=
  .next (if powered s d then t else s)

/-- The number of a lane's power domain: PD3 to PD6 (Table 1.2). -/
def laneDomain (l : LaneId) : Nat := 3 + l.val / 2

/-- A time base value in nanoseconds: SEC × 10^9 + NS. -/
def tbNanos (v : TbValue) : Nat := v.sec.toNat * 1000000000 + v.ns.toNat

/-- A time base value in units of 2^-32 ns. -/
def tbFine (v : TbValue) : Nat := tbNanos v * 2 ^ 32 + v.frac.toNat

/-- The time base value of a number of units of 2^-32 ns, modulo the range of Table 8.2. -/
def tbOfFine (n : Nat) : TbValue :=
  { sec := BitVec.ofNat 48 (n / 2 ^ 32 / 1000000000), ns := BitVec.ofNat 30 (n / 2 ^ 32 % 1000000000)
    frac := BitVec.ofNat 32 n }

/-- TB2 now, in nanoseconds. -/
def tb2 (s : State) : Nat := tbNanos s.time.tb[2].value

/-- TB3 now, in nanoseconds. -/
def tb3 (s : State) : Nat := tbNanos s.time.tb[3].value

/-- TB0 is valid: its servo is LOCKED or in HOLDOVER (R279). -/
def tbValid (b : TimeBase) : Bool := b.state = .locked || b.state = .holdover

/-- The value of an epoch period or class multiplier code, in ms or as a multiplier (Table 2.1). -/
def periodOf (c : BitVec 3) : Nat := match c.toNat with
  | 0 => 1 | 1 => 2 | 2 => 4 | 3 => 5 | 4 => 10 | 5 => 20 | 6 => 50 | _ => 100

/-- T_E in microseconds (R35). -/
def epochUs (e : Epoch) : Nat := periodOf e.period * 1000

/-- T_E in nanoseconds. -/
def epochNs (e : Epoch) : Nat := epochUs e * 1000

/-- t_X in microseconds (R43). -/
def exchangeUs (e : Epoch) : Nat := epochUs e * 8 / 100

/-- t_V in microseconds (R43). -/
def voteUs (e : Epoch) : Nat := epochUs e * 4 / 100

/-- The compute interval in microseconds (R26). -/
def computeUs (e : Epoch) : Nat := epochUs e - exchangeUs e - voteUs e - 10

/-- Raw and output image maximum in bytes (R44). -/
def imageMax (e : Epoch) : Nat := min 4194304 (98304 * periodOf e.period)

/-- B(n) in nanoseconds of TB2 (R37). -/
def boundaryNs (e : Epoch) : Nat := e.no.toNat * epochNs e

/-- D_c in nanoseconds of TB2 (Table 2.2). -/
def deadlineNs (e : Epoch) : Nat := boundaryNs e + epochNs e - voteUs e * 1000

/-- W(n) in nanoseconds of TB2 (Table 2.2). -/
def warningNs (e : Epoch) : Nat := deadlineNs e - e.warnLead.toNat * 1000

/-- A warning lead that Table 2.13 accepts. -/
def warnOk (e : Epoch) (us : Nat) : Bool := us != 0 && decide (us < computeUs e)

/-- Vote state codes (Table 3.14). -/
def voteCode : VoteState → Nat
  | .starting => 0 | .bench => 1 | .unconfigured => 2 | .stranger => 3 | .foreign => 4 | .catchup => 5
  | .admitting => 6 | .voter => 7 | .excluded => 8 | .unitSafe => 9 | .withdrawn => 10

/-- Lane epoch state codes (Table 2.7). -/
def epCode : EpState → Nat
  | .stopped => 0 | .waitSeal => 1 | .compute => 2 | .committed => 3 | .late => 4 | .diverged => 5
  | .faulted => 6 | .shed => 7

/-- Lane mode codes (Table 4.8). -/
def modeCode : LaneMode → Nat
  | .paired => 0 | .split => 1 | .rejoining => 2 | .independent => 3

/-- Link state codes (Table 3.3). -/
def linkCode : LinkState → Nat
  | .down => 0 | .training => 1 | .negotiate => 2 | .identity => 3 | .time => 4 | .up => 5 | .stranger => 6
  | .refused => 7

/-- The state with one lane replaced. -/
def putLane (s : State) (l : LaneId) (ln : Lane) : State :=
  { s with lanes := { s.lanes with lane := s.lanes.lane.set l.val ln } }

/-- A lane of the state. -/
def laneOf (s : State) (l : LaneId) : Lane := s.lanes.lane[l.val]

/-- All lanes, changed by a function of lane number and lane. -/
def mapLanes (s : State) (f : LaneId → Lane → Lane) : State :=
  { s with lanes := { s.lanes with lane := Vector.ofFn (fun l => f l (laneOf s l)) } }

/-- A free value: its number, and the state in which that number is used up (log entry 7). -/
def takeFree (s : State) : Nat × State := (s.freeCtr, { s with freeCtr := s.freeCtr + 1 })

/-- `n` free bytes: a string the spec leaves open (log entry 7). -/
def freeBytes (s : State) (n : Nat) : List Byte := (List.range n).map (Config.freeByte s.freeCtr)

/-- A message padded with zeros to `n` bytes. -/
def padded (n : Nat) (bs : List Byte) : List Byte := bs ++ zeros (n - bs.length)

/-- `bs` padded with zeros to a multiple of 8 bytes. -/
def pad8 (bs : List Byte) : List Byte := bs ++ zeros ((8 - bs.length % 8) % 8)

/-- A Moraine record as its 64 bytes (Table 18.3). -/
def morBytes (r : MorRecord) : List Byte :=
  let body := leBytes 8 r.seq.toNat ++ leBytes 4 r.tb0Ns ++ leBytes 6 r.tb0Sec
    ++ [BitVec.ofNat 8 (b2n r.tb0Valid + 2 * b2n r.held), BitVec.ofNat 8 r.source] ++ leBytes 2 r.code.toNat
    ++ [BitVec.ofNat 8 r.lane, BitVec.ofNat 8 r.voteState] ++ leBytes 8 r.epochNo.toNat ++ leBytes 8 r.tb3
    ++ fit 20 r.data
  body ++ leBytes 4 (crc32c body).toNat

/-- The record that a report makes now, before it has its SEQ. -/
def morMake (s : State) (source : Nat) (code : U16) (lane : Nat) (data : List Byte) : MorRecord :=
  { seq := 0, tb0Ns := s.time.tb[0].value.ns.toNat, tb0Sec := s.time.tb[0].value.sec.toNat
    tb0Valid := tbValid s.time.tb[0], held := false, source := source, code := code, lane := lane
    voteState := voteCode s.weft.own, epochNo := s.epoch.no, tb3 := tb3 s, data := data.take 20 }

/-- Puts a record into staging with the next SEQ (R501); more than 64 KiB pending sets STAGING_HIGH, and beyond
256 MiB the oldest pending record is dropped (R504). -/
def morStage (m : Moraine) (r : MorRecord) : Moraine :=
  let staged := m.staged ++ [{ r with seq := m.nextSeq }]
  let m := { m with nextSeq := m.nextSeq + 1, staged := staged }
  let m := if staged.length > 1024 then { m with event := setBit m.event 1 } else m
  if staged.length > 4194304 then
    let w := m.window[14]
    { m with staged := staged.tail, lost := satInc m.lost, event := setBit m.event 0
             window := m.window.set 14 { w with dropped := w.dropped + 1
                                                firstLost := if w.dropped = 0 then (staged.head?.map (·.seq)).getD 0
                                                             else w.firstLost } }
  else m

/-- Writes a Moraine record (R501). A source writes at most RATE records in 10 ms; further ones are dropped and
counted (R503). Before the recorder runs, the record is held in backup RAM (R458, R498). -/
def record (s : State) (source : Nat) (code : U16) (lane : Nat) (data : List Byte) : State :=
  let m := s.mor
  let r := morMake s source code lane data
  let i := source % 20
  let w := m.window[i]'(Nat.mod_lt _ (by decide))
  let put := fun (w' : MorWindow) (m : Moraine) =>
    { m with window := m.window.set i w' (Nat.mod_lt _ (by decide)) }
  if !m.running then { s with mor := { m with backup := m.backup ++ [{ r with held := true }] } }
  else if w.count ≥ m.rate.toNat then
    { s with mor := put { w with dropped := w.dropped + 1
                                 firstLost := if w.dropped = 0 then m.nextSeq else w.firstLost }
                        { m with lost := satInc m.lost, event := setBit m.event 0 } }
  else { s with mor := put { w with count := w.count + 1 } (morStage m r) }

/-- A record for which the spec lists no code: its CODE and DATA are free values (log entry 46). -/
def recordOpen (s : State) (source lane : Nat) : State :=
  let (n, s) := takeFree s
  record s source (BitVec.ofNat 16 (Config.freeWord n).toNat) lane ((List.range 20).map (Config.freeByte n))

/-- A record of a W1C bit of a register block (R502): the code is the offset over 4, DATA the bit, the register's
value and the block's details. -/
def recordBit (s : State) (block off bit value lane : Nat) (detail : List Byte) : State :=
  record s block (BitVec.ofNat 16 (off / 4)) lane (BitVec.ofNat 8 bit :: leBytes 4 value ++ detail)

/-- The record of a write that a rule ignored (R533, Table 18.9). -/
def recordIgnored (s : State) (block addr value lane rule : Nat) : State :=
  record s block 0xFF02 lane (leBytes 8 addr ++ leBytes 4 value ++ [BitVec.ofNat 8 rule])

/-- A queued item of a raw input image: header and body of R537. -/
def itemBytes (q : QueuedItem) : List Byte :=
  [BitVec.ofNat 8 q.source, BitVec.ofNat 8 (b2n q.late)] ++ leBytes 2 q.body.length ++ zeros 4 ++ pad8 q.body

/-- Queues an item for the raw input image (R45). An item stamped before the current B(n) waits for raw close
(R42), and after raw close it goes to the next image with LATE set and counted (R46); `mark` sets the LATE flag
in the body of its source. -/
def queueItem (s : State) (stamp source sub : Nat) (body : List Byte) (mark : List Byte → List Byte) : State :=
  let e := s.epoch
  let q : QueuedItem := ⟨stamp, source, sub, false, body⟩
  if e.running && decide (stamp < boundaryNs e) then
    if e.rawClosed then
      { s with epoch := { e with items := e.items ++ [{ q with late := true, body := mark body }]
                                 lateItems := satInc e.lateItems, event := setBit e.event 19 } }
    else { s with epoch := { e with closing := e.closing ++ [q] } }
  else { s with epoch := { e with items := e.items ++ [q] } }

/-- An item with this stamp waits for raw close of the image of the current B(n) (R42). -/
def joinsClosing (e : Epoch) (stamp : Nat) : Bool := e.running && !e.rawClosed && decide (stamp < boundaryNs e)

/-- How many items of a source the raw image already has that an item with this stamp enters: those that wait for raw
close of the current image, or `next`, those of the image of the next boundary (R342, R427: "one raw input image"). -/
def itemsBeside (e : Epoch) (stamp source next : Nat) : Nat :=
  if joinsClosing e stamp then (e.closing.filter (·.source == source)).length else next

/-- A body with bit 1 (LATE) of its flags byte at `off` set. -/
def markLate (off : Nat) (body : List Byte) : List Byte :=
  body.take off ++ [setBit ((body.drop off).headD 0) 1] ++ body.drop (off + 1)

/-- The analog channels of a mask that are configured reset at the next boundary (R428 causes 3 and 5). -/
def muRequest (s : State) (mask : Nat) : State :=
  { s with muslin := { s.muslin with chan := Vector.ofFn (fun (c : Fin 16) =>
      let x := s.muslin.chan[c]
      if bitOf mask c.val && x.cfg.range != 0 then { x with resetNow := true } else x) } }

/-- Standstill: function 3 enabled and in PERMIT (R409). -/
def standstill (s : State) : Bool := s.safe.func[3].en && s.safe.func[3].state = .permit

/-- Debug is unlocked (R489). -/
def unlocked (s : State) : Bool := s.dbg.unlockEnd.isSome

/-- The index of the directory copy in force: the higher SEQ among those whose CRC is correct (R470). -/
def dirIndex (s : State) : Option (Fin 2) :=
  let a := s.boot.dir[0]
  let b := s.boot.dir[1]
  if a.crcOk && (!b.crcOk || b.seq.toNat ≤ a.seq.toNat) then some 0 else if b.crcOk then some 1 else none

/-- The directory record in force; without a readable copy, one that names no container and an INVALID bank (log
entry 45). -/
def dirNow (s : State) : DirRecord := match dirIndex s with
  | some i => s.boot.dir[i]
  | none => DirRecord.reset

/-- BANK_STATE is VALID (R465, R467). -/
def bankValid (s : State) : Bool := (dirNow s).bank = .valid

/-- The module is in bench mode: SLOT[1:0] = 0 (R515). -/
def bench (s : State) : Bool := s.slot == 0

/-- MODULE_OK (Table 16.2, R31): active from the end of step 7 until a failure of Table 1.5. -/
def moduleOk (s : State) : Bool :=
  s.boot.step.toNat ≥ 7 && !s.boot.recovery && !s.boot.unconfigured && !s.boot.noStart && !s.mbox.failed
    && !s.time.refMissing && powered s 1

/-- An enabled event of a block raises a Selvedge interrupt (its INT_EN register). -/
def raisesIrq {w : Nat} (event enable : BitVec w) : Bool := event &&& enable != 0

/-- The Selvedge interrupts that stand, by register block of Table 6.1 (each block's INT_EN, such as Tables 2.20 and 10.12): Selvedge
finds them and acts by the commands that are its own. -/
def selvedgeInterrupts (s : State) : BitVec 16 :=
  BitVec.ofNat 16 (bitsNum [raisesIrq s.lanes.event s.lanes.intEn, false, raisesIrq s.epoch.event s.epoch.intEn
    , raisesIrq s.mbox.event s.mbox.intEn, raisesIrq s.time.event s.time.intEn, raisesIrq s.check.event s.check.intEn
    , raisesIrq s.pkt.event s.pkt.intEn, raisesIrq s.route.event s.route.intEn, raisesIrq s.rack.event s.rack.intEn
    , raisesIrq s.fio.event s.fio.intEn, raisesIrq s.safe.event s.safe.intEn, raisesIrq s.muslin.event s.muslin.intEn
    , raisesIrq s.weft.event s.weft.intEn, raisesIrq s.power.event s.power.intEn, raisesIrq s.mor.event s.mor.intEn
    , raisesIrq s.dbg.event s.dbg.intEn])

/-- FAULT_L is low (Table 16.2, R31, R453), and without power by its pull-down (R521). -/
def faultLow (s : State) : Bool :=
  !powered s 1 || s.boot.noStart || s.boot.recovery || s.mbox.failed || s.time.refMissing
    || s.lanes.lane.toList.any (·.disabled)

end Sys2Proof.Machine
end

