-- ==== Sys2Proof/Machine/CheckOps.lean ====
section
/-! DEFINITION. The check engine's operations (chapter 11): the five algorithms, feeds and folds, binding and
comparison. -/

namespace Sys2Proof.Machine

/-- Width of an algorithm in bits (Table 11.1); 0 for the codes 0, 6 and 7. -/
def algWidth (alg : Nat) : Nat := match alg with
  | 1 => 32 | 2 => 32 | 3 => 64 | 4 => 16 | 5 => 8 | _ => 0

/-- Initial value (Table 11.1). -/
def algInit (alg : Nat) : Nat := match alg with
  | 1 => 0xFFFFFFFF | 2 => 0xFFFFFFFF | 3 => 0 | 4 => 0xFFFF | 5 => 0xFF | _ => 0

/-- XorOut (Table 11.1). -/
def algXor (alg : Nat) : Nat := match alg with
  | 1 => 0xFFFFFFFF | 2 => 0xFFFFFFFF | 3 => 0 | 4 => 0 | 5 => 0xFF | _ => 0

/-- One byte into the running value (R350). -/
def algByte (alg : Nat) (r : Nat) (b : Byte) : Nat := match alg with
  | 1 => crcByteLsb 0xEDB88320 r b
  | 2 => crcByteLsb 0x82F63B78 r b
  | 3 => crcByteMsb 64 ecmaPoly r b
  | 4 => crcByteMsb 16 0x1021 r b
  | 5 => crcByteMsb 8 0x1D r b
  | _ => r

/-- Bytes into the running value, in order. -/
def algFeed (alg : Nat) (r : Nat) (bs : List Byte) : Nat := bs.foldl (algByte alg) r

/-- The four bytes of a fold: most significant first (R352, R354). -/
def foldBytes (v : U32) : List Byte := beBytes 4 v.toNat

/-- The safety code of a byte string with a folded seed (R94, R354). -/
def algCode (alg : Nat) (bs : List Byte) (seed : U32) : Nat :=
  Nat.xor (algFeed alg (algInit alg) (bs ++ foldBytes seed)) (algXor alg)

/-- A context of the check engine. -/
def ctxOf (s : State) (c : Nat) : CheckCtx := (s.check.ctx[c]?).getD CheckCtx.reset

/-- The state with a context replaced. -/
def putCtx (s : State) (c : Nat) (x : CheckCtx) : State :=
  { s with check := { s.check with ctx := s.check.ctx.setIfInBounds c x } }

/-- CKINIT, a write of INIT, and the reset of R358: the initial value, STATUS cleared. -/
def ctxInit (x : CheckCtx) : CheckCtx :=
  { x with running := BitVec.ofNat 64 (algInit x.alg.toNat), result := 0, folded := false, bytes := 0 }

/-- A feed of bytes (R352). -/
def ctxFeed (x : CheckCtx) (bs : List Byte) : CheckCtx :=
  { x with running := BitVec.ofNat 64 (algFeed x.alg.toNat x.running.toNat bs), result := 0
           bytes := satAdd x.bytes bs.length }

/-- A fold (R354). -/
def ctxFold (x : CheckCtx) (v : U32) : CheckCtx := { ctxFeed x (foldBytes v) with folded := true }

/-- A write of the running value, truncated to the width (R351, Table 11.4). -/
def ctxSet (x : CheckCtx) (v : Nat) : CheckCtx :=
  { x with running := BitVec.ofNat 64 (v % 2 ^ algWidth x.alg.toNat), result := 0 }

/-- The final value: running xor XorOut (R351). -/
def ctxFinal (x : CheckCtx) : Nat := Nat.xor x.running.toNat (algXor x.alg.toNat)

/-- The comparison of R359: the context, and whether it is a MISMATCH. -/
def ctxCompare (x : CheckCtx) (lo : U32) : CheckCtx × Bool :=
  let w := 2 ^ algWidth x.alg.toNat
  let got := (x.cmpHi.toNat * 2 ^ 32 + lo.toNat) % w
  if ctxFinal x % w = got then ({ x with result := 1 }, false) else ({ x with result := 2 }, true)

/-- A comparison of context `c`: RESULT, and the MISMATCH event (R359). -/
def chkCompare (s : State) (c : Nat) (lo : U32) : State :=
  let r := ctxCompare (ctxOf s c) lo
  let s := putCtx s c r.1
  if r.2 then { s with check := { s.check with event := setBit s.check.event c } } else s

/-- The context has an algorithm (Table 11.4). -/
def ctxHasAlg (x : CheckCtx) : Bool := algWidth x.alg.toNat != 0

/-- Who may use a lane-bound context (Table 11.2). -/
def ctxUsable (s : State) (c : CoreRef) (ctx : Nat) : Bool :=
  let x := ctxOf s ctx
  ctxHasAlg x && x.owner.toNat == c.lane.val && match (laneOf s c.lane).mode with
    | .paired => !x.core
    | .rejoining => false
    | _ => x.core == (c.core == .trailing)

/-- A CHECK_MISUSE is counted and reported (Table 11.5). -/
def chkMisuse (s : State) : State :=
  { s with check := { s.check with misuseCnt := satInc s.check.misuseCnt, event := setBit s.check.event 16 } }

/-- Every context bound to a lane takes its initial value (R358, R137). -/
def resetLaneCtxs (s : State) (l : LaneId) : State :=
  { s with check := { s.check with ctx := s.check.ctx.map (fun x =>
      if x.owner.toNat = l.val then { ctxInit x with cmpHi := 0, valHiStage := 0 } else x) } }

end Sys2Proof.Machine
end

