-- ==== Sys2Proof/Machine/RegRead.lean ====
section
/-! DEFINITION. What a read of each register of the sixteen register blocks returns (Table 6.1), and what a read
latches or resets. Reserved registers read 0 (R16). Blocks are numbered as in Table 6.1. -/

namespace Sys2Proof.Machine

/-- A field at bit `sh`. -/
def at' (sh : Nat) (n : Nat) : Nat := n * 2 ^ sh

/-- A flag at bit `sh`. -/
def flag (sh : Nat) (b : Bool) : Nat := if b then 2 ^ sh else 0

/-- A 32-bit register of fields. -/
def reg32 (fs : List Nat) : U32 := BitVec.ofNat 32 fs.sum

/-- The lower half of a 64-bit value. -/
def lo32 (w : Word) : U32 := w.extractLsb' 0 32

/-- The upper half of a 64-bit value. -/
def hi32 (w : Word) : U32 := w.extractLsb' 32 32

/-- A signed number as 32 bits, saturating. -/
def satI32 (v : Int) : U32 := BitVec.ofInt 32 (min (max v (-(2 ^ 31))) (2 ^ 31 - 1))

/-- The slot at the far end of a link (R76): WEFT_A leads to the next slot, WEFT_B to the previous one. -/
def sideSlot (s : State) (sd : Side) : Nat := match sd with
  | .a => s.slot.toNat % 3 + 1
  | .b => (s.slot.toNat + 1) % 3 + 1

/-- The link of a side. -/
def linkOf (s : State) (sd : Side) : Link := match sd with
  | .a => s.weft.a
  | .b => s.weft.b

/-- The state with a link replaced. -/
def putLink (s : State) (sd : Side) (k : Link) : State := match sd with
  | .a => { s with weft := { s.weft with a := k } }
  | .b => { s with weft := { s.weft with b := k } }

/-- The module holds the active role and has started (R113). -/
def isHolder (s : State) : Bool :=
  s.weft.roleSlot != 0 && s.weft.roleSlot == s.slot && s.weft.own = .voter && s.weft.roleStarted

/-- A vote state that releases outputs (Table 3.14): VOTER; BENCH with debug unlocked. -/
def releasing (s : State) : Bool := match s.weft.own with
  | .voter => !s.weft.stopped
  | .bench => unlocked s
  | _ => false

/-- The bridge drives the bus for the scan, the write list and outbound accesses (R344, R345). -/
def rackDrives (s : State) : Bool :=
  s.rack.en && !s.rack.failed && s.power.stage.toNat < 3 &&
    (if s.rack.shared then isHolder s else s.weft.own = .voter && !s.weft.stopped)

/-- A posted outbound write: an entry of the queue of 32 (R329). -/
def isPosted (a : OutAccess) : Bool := match a.kind with
  | .write => true
  | .serviceWrite _ => true
  | _ => false

/-- OUT_LEVEL of RACK_STATUS: posted writes that wait (R329, Table 10.11). Reads wait behind them and take no entry. -/
def outLevel (b : Rack) : Nat := (b.outQueue.filter isPosted).length

/-- The bridge drives the bus for service accesses alone (R344). -/
def rackServes (s : State) : Bool :=
  s.rack.en && !s.rack.failed && !s.rack.shared && s.power.stage.toNat < 3

/-- ROLE of RACK_STATUS (Table 10.11). -/
def rackRole (s : State) : Nat :=
  if s.rack.failed then 3 else if !s.rack.en then 0 else if rackDrives s then 1
  else if s.rack.shared then 2 else 0

/-- LANE block: the set of one lane at offset `o` (Tables 4.13 to 4.16). -/
def laneSetRead (s : State) (l : LaneId) (o : Nat) : U32 :=
  let ln := laneOf s l
  match o with
  | 0x00 => reg32 [ln.delay.toNat, at' 2 ln.window.toNat, flag 4 ln.splitAllowed]
  | 0x04 => reg32 [ln.modeReq.toNat]
  | 0x08 => reg32 [modeCode ln.mode, flag 2 ln.disabled, flag 3 ln.bistPass, at' 16 (min (lead ln) 1024)]
  | 0x0C => reg32 [ln.l.speedCur.toNat, at' 16 ln.l.speedMin.toNat]
  | 0x10 => reg32 [ln.t.speedCur.toNat, at' 16 ln.t.speedMin.toNat]
  | 0x14 => ln.retiredLast
  | _ => 0

/-- LANE block (Table 4.12). -/
def laneRead (s : State) (o : Nat) : U32 :=
  let b := s.lanes
  if h : o < 0x800 then laneSetRead s ⟨o / 0x100, by omega⟩ (o % 0x100)
  else match o with
  | 0x900 => reg32 [b.perf.toNat, at' 8 b.ramping.toNat]
  | 0x904 => reg32 [b.speedWarn.toNat]
  | 0x908 => reg32 [flag 0 b.independent, flag 1 b.independentActive]
  | 0x90C => b.event
  | 0x910 => b.intEn
  | _ => 0

/-- Lane faults within the last 3600 s (R151). -/
def recentFaults (s : State) (ln : Lane) : Nat :=
  (ln.faultTimes.filter (fun t => decide (tb3 s ≤ t + 3600000000000))).length

/-- FIRN block (Tables 4.20 to 4.25). -/
def firnRead (s : State) (o : Nat) : U32 :=
  if h : o < 0x800 then
    let ln := laneOf s ⟨o / 0x100, by omega⟩
    match o % 0x100 with
    | 0x00 => reg32 [ln.firnCause.toNat, flag 4 ln.firnChecker
                    , flag 5 (ln.mode = .paired && ln.epochState = .compute), at' 8 ln.firnMask.toNat]
    | 0x04 => ln.firnWseq
    | 0x08 => lo32 ln.firnSigL
    | 0x0C => ln.firnSigLHi
    | 0x10 => lo32 ln.firnSigT
    | 0x14 => ln.firnSigTHi
    | 0x18 => lo32 ln.firnPos
    | 0x1C => ln.firnPosHi
    | 0x20 => reg32 [ln.drift.length % 8192, at' 16 ln.driftPeak.toNat]
    | 0x24 => ln.driftStalls
    | 0x28 => reg32 [ln.faultsCore.toNat, at' 8 ln.faultsChecker.toNat, at' 16 (min (recentFaults s ln) 15)]
    | 0x30 => reg32 [ln.bistDetected.toNat, flag 6 ln.bistDone, flag 7 ln.bistAllPass, at' 8 ln.bistLast.toNat]
    | _ => 0
  else 0

/-- PHASE code (Table 2.15). -/
def phaseCode : Phase → Nat
  | .exchange => 0 | .compute => 1 | .digest => 2 | .release => 3

/-- The bits of the lanes for which `f` holds. -/
def laneBits (s : State) (f : Lane → Bool) : Nat := bitsNum (s.lanes.lane.toList.map f)

/-- EPOCH_LANE_STATE (Table 2.17). -/
def laneStates (s : State) : Nat :=
  (s.lanes.lane.toList.map (fun ln => epCode ln.epochState)).foldr (fun c n => c + 16 * n) 0

/-- Smallest margin over the last 1024 accepted commits (Table 2.21). -/
def marginOf (ln : Lane) : U32 := BitVec.ofNat 32 (ln.margins.foldl min 0xFFFFFFFF)

/-- EPOCH block (Tables 2.11 to 2.21). DESIGN CHOICE: EPOCH_PHASE.RUNNING stays 1 while the reference is missing or the module is
frozen, when no boundary can be raised: the sequencer has not been stopped (log entry 95). -/
def epochRead (s : State) (o : Nat) : U32 :=
  let e := s.epoch
  if h : 0x40 ≤ o ∧ o < 0x60 then (laneOf s ⟨(o - 0x40) / 4, by omega⟩).ovrCnt
  else if h : 0x60 ≤ o ∧ o < 0x80 then marginOf (laneOf s ⟨(o - 0x60) / 4, by omega⟩)
  else match o with
  | 0x00 => reg32 [e.period.toNat, at' 8 e.k0.toNat, at' 12 e.k1.toNat, at' 16 e.k2.toNat, at' 20 e.k3.toNat]
  | 0x04 => reg32 [e.warnLead.toNat]
  | 0x08 => lo32 e.no
  | 0x0C => e.noHi
  | 0x10 => reg32 [phaseCode e.phase, flag 2 e.running]
  | 0x14 => e.sealNs
  | 0x18 => reg32 [laneStates s]
  | 0x1C => reg32 [laneBits s laneCommitted]
  | 0x20 => reg32 [laneBits s (fun ln => ln.epochState = .diverged)]
  | 0x24 => reg32 [e.event.toNat]
  | 0x28 => reg32 [e.intEn.toNat]
  | 0x80 => e.lateItems
  | 0x84 => reg32 [e.rawBytes.toNat]
  | _ => 0

/-- Mailbox state codes (Table 7.3). -/
def mbCode : MbState → Nat
  | .idle => 0 | .armed => 1 | .pending => 2 | .serving => 3 | .done => 4

/-- MBOX_PENDING. -/
def mboxPending (s : State) : Nat :=
  bitsNum (s.mbox.pair.toList.map (fun p => p.state = .armed || p.state = .pending || p.state = .serving))

/-- MBOX block (Tables 7.11, 7.12). -/
def mboxRead (s : State) (o : Nat) : U32 :=
  let b := s.mbox
  if h : o < 0x6000 then
    let p := b.pair[o / 0x400]
    let k := o % 0x400
    BitVec.ofNat 32 (if k < 0x200 then memLe p.req (k / 4 * 4) 4 else memLe p.rsp ((k - 0x200) / 4 * 4) 4)
  else if h : 0x8000 ≤ o ∧ o < 0x8180 then
    let p := b.pair[(o - 0x8000) / 0x10]
    let i := (o - 0x8000) / 0x10
    let bound := if i = 22 then s.weft.a.state = .up else if i = 23 then s.weft.b.state = .up else p.bound.isSome
    match o % 0x10 with
    | 0x4 => reg32 [mbCode p.state, at' 4 p.level.toNat, flag 7 bound, flag 8 p.xfer.isSome
                   , at' 16 p.lastTag.toNat]
    | 0x8 => p.served
    | 0xC => reg32 [p.crcErr.toNat, at' 16 p.dbIgnored.toNat]
    | _ => 0
  else match o with
  | 0x9000 => reg32 [b.levelMax.toNat, at' 8 b.bindIdle.toNat]
  | 0x9004 => reg32 [mboxPending s]
  | 0x9008 => reg32 [b.event.toNat]
  | 0x900C => reg32 [b.intEn.toNat]
  | 0x9010 => b.rounds
  | _ => 0

/-- Servo state codes (Table 8.3). -/
def servoCode : ServoState → Nat
  | .free => 0 | .locking => 1 | .locked => 2 | .holdover => 3 | .lost => 4

/-- TIME block (Tables 8.8 to 8.13). -/
def timeRead (s : State) (o : Nat) : U32 :=
  let b := s.time
  if h : o < 0x100 then
    let t := b.tb[o / 0x40]
    let is3 := o / 0x40 == 3
    match o % 0x40 with
    | 0x00 => reg32 [t.value.ns.toNat]
    | 0x04 => reg32 [t.latchSec.toNat % 2 ^ 32]
    | 0x08 => reg32 [t.latchSec.toNat / 2 ^ 32]
    | 0x0C => t.latchFrac
    | 0x10 => reg32 [t.incrNs.toNat]
    | 0x14 => reg32 [t.incr % 2 ^ 32]
    | 0x18 => if is3 then 0 else reg32 [t.kp.toNat, at' 8 t.ki.toNat, at' 16 t.lockNs.toNat]
    | 0x1C => t.measLo
    | 0x20 => t.measHi
    | 0x24 => BitVec.ofInt 32 t.adj
    | 0x28 => reg32 [servoCode t.state, flag 3 (tbValid t), at' 16 t.holdS.toNat]
    | 0x2C => t.lastOfs
    | 0x30 => t.stepCnt
    | _ => 0
  else if h : o < 0x200 then
    let c := b.cap[(o - 0x100) / 0x10]
    match o % 0x10 with
    | 0x0 => reg32 [c.source.toNat, at' 8 c.edge.toNat, at' 10 c.tb.toNat, flag 12 c.en, at' 16 c.limit.toNat]
    | 0x4 => c.cnt
    | 0x8 => c.lost
    | _ => 0
  else if h : o < 0x300 then
    let t := b.tpo[(o - 0x200) / 0x20]
    match o % 0x20 with
    | 0x00 => reg32 [flag 0 t.en, flag 1 t.periodic, flag 2 t.pol, at' 3 t.tb.toNat]
    | 0x04 => reg32 [t.startNs.toNat]
    | 0x08 => reg32 [t.startSec.toNat % 2 ^ 32]
    | 0x0C => reg32 [t.startSec.toNat / 2 ^ 32]
    | 0x10 => t.period
    | 0x14 => t.width
    | 0x18 => reg32 [flag 0 t.armed, flag 1 t.active, at' 16 t.missed.toNat]
    | _ => 0
  else match o with
  | 0x300 => reg32 [b.event.toNat]
  | 0x304 => reg32 [b.intEn.toNat]
  | _ => 0

/-- CHECK block (Tables 11.3 to 11.5). -/
def checkRead (s : State) (o : Nat) : U32 :=
  let b := s.check
  if o < 0x400 then
    let x := ctxOf s (o / 0x40)
    match o % 0x40 with
    | 0x08 => lo32 x.running
    | 0x0C => x.valHi
    | 0x10 => BitVec.ofNat 32 (ctxFinal x)
    | 0x14 => x.finHi
    | 0x24 => reg32 [x.result.toNat, flag 2 x.folded, at' 16 x.bytes.toNat]
    | 0x28 => reg32 [x.alg.toNat, flag 3 x.core, at' 4 x.owner.toNat]
    | _ => 0
  else match o with
  | 0x800 => reg32 [b.event.toNat]
  | 0x804 => reg32 [b.intEn.toNat]
  | 0x808 => b.misuseCnt
  | _ => 0

/-- PKT_PORT_p_CFG (Table 9.12). -/
def portCfg (p : EthPort) : Nat :=
  [flag 0 p.en, flag 1 p.fec, flag 2 p.force1g, at' 3 p.role.toNat, flag 5 p.mgmt, at' 6 p.tasTb.toNat
  , flag 8 p.tasEn].sum

/-- PKT_MVB_STATUS (Table 9.13). -/
def mvbStatus (s : State) : Nat :=
  let m := s.pkt.mvb
  [if !m.enabled then 0 else if !m.admin then 1 else if isHolder s then 3 else 2, flag 2 m.lineAOk
  , flag 3 m.lineBOk, flag 4 m.lineActive, at' 16 m.deviceAddr.toNat].sum

/-- PKT_CAN_c_STATUS (Table 9.13). -/
def canStatus (c : CanPort) : Nat :=
  [c.state.toNat, flag 2 c.autoRecover, at' 8 c.tec.toNat, at' 16 c.recCnt.toNat].sum

/-- PKT block (Tables 9.11 to 9.16). -/
def pktRead (s : State) (o : Nat) : U32 :=
  let b := s.pkt
  if h : 0x10 ≤ o ∧ o < 0x50 then
    let p := b.port[(o - 0x10) / 0x10]
    match o % 0x10 with
    | 0x0 => reg32 [portCfg p]
    | 0x4 => reg32 [p.link.toNat, flag 2 p.fecActive, flag 3 p.shed, flag 4 p.pendingList.isSome
                   , at' 16 p.list.entries.length]
    | 0x8 => p.rx
    | _ => p.tx
  else if h : 0x110 ≤ o ∧ o < 0x120 then reg32 [canStatus b.can[(o - 0x110) / 4]]
  else if h : 0x300 ≤ o ∧ o < 0x320 then
    let p := b.port[(o - 0x300) / 8]
    if o % 8 < 4 then p.rxErr else p.rxDrop
  else if h : 0x1000 ≤ o ∧ o < 0x1400 then
    let r := b.ring[(o - 0x1000) / 0x10]
    match o % 0x10 with
    | 0x0 => r.base
    | 0x4 => reg32 [r.size.toNat, flag 4 r.dir, at' 5 r.owner.toNat, at' 7 r.lane.toNat, flag 10 r.en
                   , flag 11 r.gateEn, at' 12 r.port.toNat, at' 16 r.prio.toNat, at' 20 r.gateGroup.toNat]
    | 0x8 => reg32 [r.head.toNat]
    | _ => reg32 [r.tail.toNat]
  else match o with
  | 0x000 => reg32 [flag 0 (s.weft.own = .voter), flag 1 (isHolder s), flag 2 b.mgmtEn, at' 16 b.mgmtVid.toNat]
  | 0x004 => b.topoEtb
  | 0x008 => b.topoOptrn
  | 0x100 => reg32 [mvbStatus s]
  | 0x200 => reg32 [b.event.toNat]
  | 0x204 => reg32 [b.intEn.toNat]
  | 0x320 => b.pdTimeout
  | 0x324 => b.mdDrop
  | 0x328 => b.bufUe
  | 0x32C => b.cbDiscard
  | 0x330 => b.cbReset
  | 0x334 => b.pubMissed
  | 0x338 => b.gapDrop
  | 0x33C => b.txOverwrite
  | _ => 0

/-- Shadow state codes (Table 9.17). -/
def shadowCode : ShadowState → Nat
  | .idle => 0 | .copying => 1 | .building => 2 | .checking => 3 | .ready => 4

/-- FORWARDING: holder, started, and FWD_EN set. -/
def forwarding (s : State) : Bool := isHolder s && s.route.fwdEn

/-- ROUTE_STATUS (Table 9.17). -/
def routeStatus (s : State) : Nat :=
  [flag 0 s.route.copy, at' 1 (shadowCode s.route.shadowState), flag 4 (forwarding s)].sum

/-- ROUTE block (Table 9.17). -/
def routeRead (s : State) (o : Nat) : U32 :=
  let b := s.route
  match o with
  | 0x00 => reg32 [flag 0 b.fwdEn, flag 1 b.missToSelvedge]
  | 0x04 => reg32 [routeStatus s]
  | 0x08 => b.tableId
  | 0x0C => b.tableCrc
  | 0x10 => lo32 b.swapEpoch
  | 0x14 => b.swapEpochHi
  | 0x18 => lo32 b.lookups
  | 0x1C => b.lookupsHi
  | 0x20 => b.miss
  | 0x24 => b.drop
  | 0x28 => reg32 [b.event.toNat]
  | 0x2C => reg32 [b.intEn.toNat]
  | _ => 0

/-- RACK_CTRL (Table 10.11). -/
def rackCtrl (s : State) : Nat :=
  [flag 0 s.rack.en, flag 1 s.rack.shared, flag 2 s.rack.pfEn, at' 3 s.rack.retryLimit.toNat].sum

/-- WL_BUSY (Table 10.11): a record of the write list has not been performed. -/
def listRuns (b : Rack) : Bool := !b.writeList.isEmpty || (b.openAccess.toList ++ b.outQueue).any (·.writeList)

/-- RACK_STATUS (Table 10.11). -/
def rackStatus (s : State) : Nat :=
  let b := s.rack
  [rackRole s, flag 2 b.clkOk, flag 3 b.pfShed, flag 4 b.scanBusy, flag 5 (listRuns b)
  , at' 8 b.inQueue.length, at' 16 (outLevel b)
  , at' 24 (bitsNum (b.dr.toList.map (·.isSome)))].sum

/-- RACK_POLL (Table 10.11). -/
def rackPoll (s : State) : Nat := [s.rack.pollUs.toNat, at' 16 s.rack.irqLevel.toNat].sum

/-- A log entry as its 32 bytes (Table 10.9). -/
def rackLogBytes (e : RackLog) : List Byte :=
  leBytes 4 e.address.toNat ++ leBytes 4 e.data.toNat
    ++ [BitVec.ofNat 8 e.byteEn.toNat, BitVec.ofNat 8 e.source, BitVec.ofNat 8 e.code, BitVec.ofNat 8 e.flags.toNat]
    ++ zeros 4 ++ leBytes 8 e.epoch.toNat ++ leBytes 8 e.stamp

/-- The counters of Table 10.14 in order. -/
def rackCounters (b : Rack) : List U32 :=
  [b.inWr, b.inRd, b.inRetry, b.outWr, b.outRd, b.outRetry, b.failures, b.evtDropped, b.wlDiscard, b.drExpired
  , reg32 [b.monMismatch.toNat, at' 16 b.notDriver.toNat]]

/-- Log entry `k` of the ring as bytes: the entry at index `k` (Table 10.12). The log list is in ring index
order. -/
def rackLogAt (b : Rack) (k : Nat) : List Byte := match b.log[k]? with
  | some e => rackLogBytes e
  | none => zeros 32

/-- RACK block (Tables 10.10 to 10.14). -/
def rackRead (s : State) (o : Nat) : U32 :=
  let b := s.rack
  if h : 0x40 ≤ o ∧ o < 0x80 then
    let w := b.pf[(o - 0x40) / 8]
    if o % 8 < 4 then reg32 [flag 0 w.en, at' 8 w.base.toNat] else reg32 [at' 8 w.limit.toNat]
  else if 0x80 ≤ o ∧ o < 0xAC then ((rackCounters b)[(o - 0x80) / 4]?).getD 0
  else if 0x100 ≤ o ∧ o < 0x300 then BitVec.ofNat 32 (leAt (rackLogAt b ((o - 0x100) / 32)) (o % 32) 4)
  else match o with
  | 0x00 => reg32 [rackCtrl s]
  | 0x04 => reg32 [rackStatus s]
  | 0x08 => reg32 [rackPoll s]
  | 0x0C => reg32 [flag 0 b.lock, at' 1 b.owner.toNat]
  | 0x10 => reg32 [b.event.toNat]
  | 0x14 => reg32 [b.intEn.toNat]
  | 0x18 => reg32 [b.logNext.toNat, at' 4 b.log.length]
  | _ => 0

/-- FIO_CH_c_CFG (Table 12.11). -/
def fioChCfg (c : FioCfg) : Nat :=
  [flag 0 c.output, flag 1 c.safeOn, flag 2 c.offTest, flag 3 c.event, at' 8 c.filter.toNat].sum

/-- FIO_GROUP_g (Table 12.11). -/
def fioGroup (g : FioGroup) : Nat :=
  [g.volt.toNat, flag 14 g.warn, flag 15 g.tripped, flag 16 g.rearmOk].sum

/-- FIO_LINK (Table 12.11). -/
def fioLink (f : Fio) : Nat := [flag 0 f.fieldOk, flag 1 f.frame.tss, at' 16 f.framesLost.toNat].sum

/-- FIO_COMPAT (R380). -/
def fioCompat (f : Fio) : Nat :=
  [flag 0 (f.frame.group[0].warn || f.frame.group[0].tripped)
  , flag 1 (f.frame.group[1].warn || f.frame.group[1].tripped)].sum

/-- FIO block (Tables 12.10, 12.11). -/
def fioRead (s : State) (o : Nat) : U32 :=
  let f := s.fio
  if h : 0x40 ≤ o ∧ o < 0xC0 then reg32 [fioChCfg (f.chan[(o - 0x40) / 4].cfgNext.getD f.chan[(o - 0x40) / 4].cfg)]
  else match o with
  | 0x00 => reg32 [f.nom[0].toNat, at' 4 f.nom[1].toNat, at' 8 f.tssMs.toNat]
  | 0x04 => reg32 [fioLink f]
  | 0x08 => f.frame.state
  | 0x0C => f.out
  | 0x10 => f.frame.overload
  | 0x14 => f.frame.openWire
  | 0x18 => f.frame.overtemp
  | 0x1C => f.frame.extDrive
  | 0x20 => reg32 [fioGroup f.frame.group[0]]
  | 0x24 => reg32 [fioGroup f.frame.group[1]]
  | 0x28 => reg32 [fioCompat f]
  | 0x2C => reg32 [f.event.toNat]
  | 0x30 => reg32 [f.intEn.toNat]
  | _ => 0

/-- Safe output state codes (Table 13.5). -/
def safeOutCode : SafeOutState → Nat
  | .safeOff => 0 | .precheck => 1 | .on => 2 | .shutdown => 3 | .locked => 4

/-- Function state codes (Table 13.14). -/
def funcCode : FuncState → Nat
  | .off => 0 | .permit => 1 | .noPermit => 2 | .fault => 3

/-- Output n's permit: every enabled function with bit n in OUT_MASK is in PERMIT (R406). -/
def outPermit (f : Safe) (n : Nat) : Bool :=
  f.func.toList.all (fun x => !(x.en && x.outMask.getLsbD n) || x.state = .permit)

/-- Bits of a vector. -/
def vecBits {n : Nat} {α : Type} (v : Vector α n) (f : α → Bool) : Nat := bitsNum (v.toList.map f)

/-- Nibbles of a vector, first element lowest. -/
def vecNibbles {n : Nat} {α : Type} (v : Vector α n) (f : α → Nat) : Nat :=
  (v.toList.map f).foldr (fun c k => c + 16 * k) 0

/-- SAFE_LINK (Table 13.14). -/
def safeLink (f : Safe) : Nat := [flag 0 f.fieldOk, flag 1 f.supplyLow, at' 16 f.frame.volt.toNat].sum

/-- SAFE_IN_STATE (Table 13.14). -/
def safeInState (f : Safe) : Nat :=
  [vecBits f.input (·.state), at' 8 (vecBits f.input (·.chA)), at' 16 (vecBits f.input (·.chB))].sum

/-- SAFE_IN_FAULT (Table 13.14). -/
def safeInFault (f : Safe) : Nat :=
  [vecBits f.input (·.discrepancy), at' 8 (vecBits f.input (·.crossShort))
  , at' 16 (vecBits f.input (·.shortSupply))].sum

/-- SAFE_OUT_STATE (Table 13.14). -/
def safeOutStates (f : Safe) : Nat := vecNibbles f.output (fun x => safeOutCode x.state)

/-- SAFE_OUT_FAULT (Table 13.14). -/
def safeOutFaults (f : Safe) : Nat := vecNibbles f.output (fun x => x.fault.toNat)

/-- SAFE_FUNC (Table 13.14). -/
def safeFuncs (f : Safe) : Nat :=
  vecNibbles f.func (fun x => funcCode x.state + flag 2 x.latched)
    + at' 16 (bitsNum ((List.range 8).map (outPermit f)))

/-- SPD_s_STATUS (Table 13.16). -/
def spdStatus (x : SpeedIn) : Nat :=
  [flag 0 x.wireA, flag 1 x.wireB, flag 2 x.illegal, flag 3 x.freq, flag 4 x.reverse
  , at' 16 (min x.v 0xFFFF)].sum

/-- VALUE of a function: v, r, d or v (Table 13.16), saturating. -/
def funcValue (f : Safe) (i : Fin 4) : Nat :=
  let x := f.func[i.val]
  min 0xFFFFFFFF (if i.val = 1 ∨ i.val = 2 then x.dist else (f.speed[x.sensor.toNat]).v)

/-- FUNC_f_CFG0 (Table 13.16). -/
def funcCfg (x : SafeFunc) : Nat :=
  [x.sensor.toNat, flag 2 x.chkEn, at' 3 x.check.toNat, flag 5 x.en, flag 6 x.fwdForbidden
  , at' 8 x.outMask.toNat, at' 16 x.chkTol.toNat].sum

/-- SAFE_IN_n_CFG (Table 13.16). MODE 3 reads as 0. -/
def safeInCfg (x : SafeIn) : Nat :=
  [if x.mode = 3 then 0 else x.mode.toNat, at' 2 x.srcA.toNat, at' 4 x.srcB.toNat, at' 16 x.limit.toNat].sum

/-- SAFE_OUT_n_CFG (Table 13.16). -/
def safeOutCfg (x : SafeOut) : Nat := [flag 0 x.en, flag 1 x.pulseEn].sum

/-- SPD_s_CFG (Table 13.16). -/
def spdCfg (x : SpeedIn) : Nat := [x.dEdge.toNat, at' 16 x.win.toNat].sum

/-- SAFE block (Tables 13.13 to 13.16). -/
def safeRead (s : State) (o : Nat) : U32 :=
  let f := s.safe
  if h : 0x40 ≤ o ∧ o < 0x60 then reg32 [safeInCfg f.input[(o - 0x40) / 4]]
  else if h : 0x60 ≤ o ∧ o < 0x80 then reg32 [safeOutCfg f.output[(o - 0x60) / 4]]
  else if h : 0x80 ≤ o ∧ o < 0xC0 then
    let x := f.speed[(o - 0x80) / 0x10]
    match o % 0x10 with
    | 0x0 => reg32 [spdCfg x]
    | 0x4 => lo32 x.net
    | 0x8 => x.netHi
    | _ => reg32 [spdStatus x]
  else if h : 0xC0 ≤ o ∧ o < 0x100 then
    let i : Fin 4 := ⟨(o - 0xC0) / 0x10, by omega⟩
    let x := f.func[i.val]
    match o % 0x10 with
    | 0x0 => reg32 [funcCfg x]
    | 0x4 => x.limit
    | 0x8 => x.hyst
    | _ => reg32 [funcValue f i]
  else match o with
  | 0x00 => reg32 [safeLink f]
  | 0x04 => reg32 [safeInState f]
  | 0x08 => reg32 [safeInFault f]
  | 0x0C => reg32 [safeOutStates f]
  | 0x10 => reg32 [safeOutFaults f]
  | 0x14 => reg32 [safeFuncs f]
  | 0x18 => reg32 [f.event.toNat]
  | 0x1C => reg32 [f.intEn.toNat]
  | 0x20 => reg32 [f.tpIn.toNat, at' 10 f.nom.toNat, at' 16 f.tpOut.toNat]
  | _ => 0

/-- Limit state codes (Table 14.9). -/
def limitCode : LimitState → Nat
  | .normal => 0 | .high => 1 | .low => 2

/-- MU_CH_c_CFG (Table 14.9). -/
def muCfg (c : MuCfg) : Nat :=
  [c.range.toNat, at' 3 c.hbCount.toNat, at' 6 c.proto.toNat, at' 16 c.mMinus1.toNat].sum

/-- MU_CH_c_DET (Table 14.9). -/
def muDet (c : MuCfg) : Nat :=
  [c.ne.toNat, at' 8 c.attack.toNat, at' 12 c.release.toNat, flag 16 c.evtEn].sum

/-- MU_CH_c_STATUS (Table 14.9). -/
def muStatus (c : MuChan) : Nat :=
  [flag 0 c.valid, flag 1 c.ovr, flag 2 c.openFlag, flag 3 c.overcur, flag 4 c.settling, flag 5 c.detSettling
  , at' 6 (limitCode c.limit), at' 16 c.settleCount.toNat].sum

/-- The twelve registers of an analog channel in order (Table 14.8). -/
def muRegs (c : MuChan) : List U32 :=
  let g := c.cfgNext.getD c.cfg
  [reg32 [muCfg g], reg32 [g.hb.toNat], reg32 [muDet g], g.high, g.low
  , reg32 [g.hyst.toNat], reg32 [muStatus c], c.peakMax, c.peakMin, c.rms, c.env, c.events]

/-- MUSLIN block (Tables 14.8, 14.9). -/
def muslinRead (s : State) (o : Nat) : U32 :=
  let m := s.muslin
  if h : o < 0x400 then ((muRegs m.chan[o / 0x40])[o % 0x40 / 4]?).getD 0
  else match o with
  | 0x404 => reg32 [m.event.toNat]
  | 0x408 => reg32 [m.intEn.toNat]
  | _ => 0

/-- WEFT_UNIT_STATE (Table 3.19). -/
def unitState (s : State) : Nat :=
  let w := s.weft
  [voteCode w.own, at' 4 w.voters.toNat, flag 7 s.lanes.independentActive, at' 8 w.roleSlot.toNat
  , flag 10 (w.roleSlot != 0 && w.roleSlot == s.slot), at' 12 w.sources.toNat, at' 16 w.disagreeRun.toNat].sum

/-- WEFT_LINK_STATE (Table 3.18); the level is 0 while the link is not UP. -/
def linkStates (s : State) : Nat :=
  let lv := fun (k : Link) => if k.state = .up || k.state = .stranger then k.level.toNat else 0
  [linkCode s.weft.a.state, at' 4 (lv s.weft.a), at' 8 (linkCode s.weft.b.state), at' 12 (lv s.weft.b)].sum

/-- Exclusions within the last 3600 s (R109). -/
def recentExclusions (s : State) : Nat :=
  (s.weft.exclTimes.filter (fun t => decide (tb3 s ≤ t + 3600000000000))).length

/-- WEFT_CONDEMN (Table 3.22). -/
def condemnReg (s : State) : Nat :=
  let w := s.weft
  [flag 0 w.byA, flag 1 w.byB, flag 2 w.a.sentCondemn, flag 3 w.b.sentCondemn, flag 4 w.a.cdnIn, flag 5 w.b.cdnIn
  , flag 6 w.stuck0, flag 7 w.stuck1, flag 8 w.excludedNow, at' 12 (min (recentExclusions s) 15)].sum

/-- WEFT_CATCHUP (Table 3.24). DESIGN CHOICE (log entry 100): a module that is source on both links shows WEFT_A's receiver, and a
receiver shows DIRTY 0. -/
def catchupReg (s : State) : Nat :=
  let w := s.weft
  if w.a.isSource then [1, at' 2 (sideSlot s .a), flag 4 w.a.tail, at' 8 w.a.dirty.length].sum
  else if w.b.isSource then [1, at' 2 (sideSlot s .b), flag 4 w.b.tail, at' 8 w.b.dirty.length].sum
  else if w.cuReceiver then [2, at' 2 w.cuPeer.toNat].sum else 0

/-- WEFT_ADMIT (Table 3.24). -/
def admitReg (s : State) : Nat := vecNibbles s.lanes.lane (fun ln => min ln.admits 10)

/-- Outcome codes (Table 3.20). -/
def outcomeCode : VoteOutcome → Nat
  | .noDecision => 0 | .unanimous => 1 | .majority => 2 | .pair => 3

/-- WEFT block (Tables 3.16 to 3.26). -/
def weftRead (s : State) (o : Nat) : U32 :=
  let w := s.weft
  match o with
  | 0x00 => reg32 [flag 0 w.linkAEn, flag 1 w.linkBEn, at' 2 w.levelMax.toNat]
  | 0x04 => reg32 [linkStates s]
  | 0x08 => reg32 [unitState s]
  | 0x0C => s.boot.imageGen
  | 0x10 => w.voteGen
  | 0x14 => reg32 [(w.outcome.toList.map outcomeCode).foldr (fun c n => c + 4 * n) 0]
  | 0x18 => reg32 [w.released.toNat, at' 16 w.safe.toNat]
  | 0x1C => reg32 [((w.hold.toList.take 8).map (·.toNat)).foldr (fun c n => c + 16 * n) 0]
  | 0x20 => reg32 [((w.hold.toList.drop 8).map (·.toNat)).foldr (fun c n => c + 16 * n) 0]
  | 0x24 => reg32 [condemnReg s]
  | 0x28 => reg32 [w.event.toNat]
  | 0x2C => reg32 [w.intEn.toNat]
  | 0x30 => reg32 [catchupReg s]
  | 0x34 => reg32 [admitReg s]
  | 0x38 => satI32 (w.a.theta / 2 ^ 16)
  | 0x3C => satI32 (w.b.theta / 2 ^ 16)
  | 0x40 => reg32 [w.cuBlocks.toNat]
  | 0x44 => w.a.crcErr
  | 0x48 => w.b.crcErr
  | 0x4C => w.a.retx
  | 0x50 => w.b.retx
  | 0x54 => w.a.absentCnt
  | 0x58 => w.b.absentCnt
  | 0x5C => w.dissentCnt
  | 0x60 => w.ndCnt
  | _ => 0

/-- PWR_STAGE (Table 15.7). -/
def pwrStage (s : State) : Nat :=
  let p := s.power
  [p.stage.toNat, flag 3 p.backstop, flag 4 p.restoring
  , at' 16 (match p.t0 with | some t => min 0xFFFF ((tb3 s - t) / 100000) | none => 0)].sum

/-- The PWR registers in order of Table 15.6, without PWR_INT_EN's neighbour order (Table 15.7). -/
def pwrRead (s : State) (o : Nat) : U32 :=
  let p := s.power
  match o with
  | 0x00 => reg32 [p.aVolt.toNat, flag 12 p.aValid, at' 16 p.bVolt.toNat, flag 28 p.bValid]
  | 0x04 => reg32 [pwrStage s]
  | 0x08 => reg32 [p.energy.toNat, flag 12 p.charging, flag 13 p.full, flag 14 p.lowCap, at' 16 p.cap.toNat]
  | 0x0C => reg32 [p.domains.toNat, at' 12 p.eth.toNat, flag 16 p.pf]
  | 0x10 => reg32 [p.power.toNat, at' 16 p.peak.toNat]
  | 0x14 => reg32 [p.vbak.toNat, flag 12 p.vbakOk]
  | 0x18 => reg32 [p.event.toNat]
  | 0x1C => reg32 [p.intEn.toNat]
  | 0x20 => reg32 [p.losses.toNat, at' 16 p.deep.toNat]
  | _ => 0

/-- MOR_STATUS (Table 18.6). -/
def morStatus (m : Moraine) : Nat :=
  [flag 0 m.running, flag 1 m.flushing, flag 2 (decide (m.staged.length > 1024))
  , at' 8 (min 0xFFFFFF m.staged.length)].sum

/-- Oldest SEQ in the ring; the next SEQ while the ring is empty. -/
def morOldest (m : Moraine) : Word := match m.ring with
  | r :: _ => r.seq
  | [] => match m.staged with
    | r :: _ => r.seq
    | [] => m.nextSeq

/-- MORAINE block (Table 18.6). -/
def morRead (s : State) (o : Nat) : U32 :=
  let m := s.mor
  match o with
  | 0x00 => reg32 [morStatus m]
  | 0x04 => lo32 m.nextSeq
  | 0x08 => m.seqHi
  | 0x0C => lo32 (morOldest m)
  | 0x10 => m.oldestHi
  | 0x14 => m.lost
  | 0x18 => m.badUnits
  | 0x1C => reg32 [m.flushMs.toNat, at' 16 m.rate.toNat]
  | 0x20 => reg32 [m.event.toNat]
  | 0x24 => reg32 [m.intEn.toNat]
  | _ => 0

/-- DBG_STATUS (Table 18.7). -/
def dbgStatus (s : State) : Nat :=
  let d := s.dbg
  [flag 0 d.frozen, flag 1 d.frzPin, flag 2 (unlocked s), flag 3 (bench s), flag 4 d.tapReset
  , at' 8 d.lastCause.toNat, at' 16 d.freezes.toNat].sum

/-- DBG block (Table 18.7). -/
def dbgRead (s : State) (o : Nat) : U32 := match o with
  | 0x0 => reg32 [dbgStatus s]
  | 0x4 => reg32 [flag 0 s.dbg.frzTb]
  | 0x8 => reg32 [s.dbg.event.toNat]
  | 0xC => reg32 [s.dbg.intEn.toNat]
  | _ => 0

/-- The register at offset `o` of block `b` (Table 6.1). -/
def blockValue (s : State) (b o : Nat) : U32 := match b with
  | 0 => laneRead s o
  | 1 => firnRead s o
  | 2 => epochRead s o
  | 3 => mboxRead s o
  | 4 => timeRead s o
  | 5 => checkRead s o
  | 6 => pktRead s o
  | 7 => routeRead s o
  | 8 => rackRead s o
  | 9 => fioRead s o
  | 10 => safeRead s o
  | 11 => muslinRead s o
  | 12 => weftRead s o
  | 13 => pwrRead s o
  | 14 => morRead s o
  | 15 => dbgRead s o
  | _ => 0

/-- What a read of a LANE register resets: LANE_SPEED.MIN (R166). -/
def laneLatch (s : State) (o : Nat) : State :=
  if h : o < 0x800 then
    let l : LaneId := ⟨o / 0x100, by omega⟩
    let ln := laneOf s l
    if o % 0x100 = 0x0C then putLane s l { ln with l := { ln.l with speedMin := 0xFFFF } }
    else if o % 0x100 = 0x10 then putLane s l { ln with t := { ln.t with speedMin := 0xFFFF } }
    else s
  else s

/-- What a read of a FIRN _LO register latches (Table 4.22). -/
def firnLatch (s : State) (o : Nat) : State :=
  if h : o < 0x800 then
    let l : LaneId := ⟨o / 0x100, by omega⟩
    let ln := laneOf s l
    match o % 0x100 with
    | 0x08 => putLane s l { ln with firnSigLHi := hi32 ln.firnSigL }
    | 0x10 => putLane s l { ln with firnSigTHi := hi32 ln.firnSigT }
    | 0x18 => putLane s l { ln with firnPosHi := hi32 ln.firnPos }
    | _ => s
  else s

/-- What a read of TB_k_NS latches (R289). -/
def timeLatch (s : State) (o : Nat) : State :=
  if h : o < 0x100 ∧ o % 0x40 = 0 then
    let t := s.time.tb[o / 0x40]
    let t' : TimeBase := { t with latchSec := t.value.sec, latchFrac := t.value.frac }
    { s with time := { s.time with tb := s.time.tb.set (o / 0x40) t' } }
  else s

/-- What a read of CHK_c_VAL_LO or CHK_c_FIN_LO latches (Table 11.4). -/
def checkLatch (s : State) (o : Nat) : State :=
  if o < 0x400 then
    let x := ctxOf s (o / 0x40)
    match o % 0x40 with
    | 0x08 => putCtx s (o / 0x40) { x with valHi := hi32 x.running }
    | 0x10 => putCtx s (o / 0x40) { x with finHi := BitVec.ofNat 32 (ctxFinal x / 2 ^ 32) }
    | _ => s
  else s

/-- What a read of SPD_s_NET_LO latches (Table 13.16). -/
def safeLatch (s : State) (o : Nat) : State :=
  if h : 0x80 ≤ o ∧ o < 0xC0 ∧ o % 0x10 = 4 then
    let x := s.safe.speed[(o - 0x80) / 0x10]
    { s with safe := { s.safe with speed := s.safe.speed.set ((o - 0x80) / 0x10) { x with netHi := hi32 x.net } } }
  else s

/-- What a read of a register latches or resets. -/
def blockLatch (s : State) (b o : Nat) : State := match b with
  | 0 => laneLatch s o
  | 1 => firnLatch s o
  | 2 => if o = 0x08 then { s with epoch := { s.epoch with noHi := hi32 s.epoch.no } } else s
  | 4 => timeLatch s o
  | 5 => checkLatch s o
  | 7 => if o = 0x10 then { s with route := { s.route with swapEpochHi := hi32 s.route.swapEpoch } }
         else if o = 0x18 then { s with route := { s.route with lookupsHi := hi32 s.route.lookups } } else s
  | 10 => safeLatch s o
  | 13 => if o = 0x10 then { s with power := { s.power with peak := 0 } } else s
  | 14 => if o = 0x04 then { s with mor := { s.mor with seqHi := hi32 s.mor.nextSeq } }
          else if o = 0x0C then { s with mor := { s.mor with oldestHi := hi32 (morOldest s.mor) } } else s
  | _ => s

end Sys2Proof.Machine
end

