-- ==== Sys2Proof/Machine/RackOps.lean ====
section
/-! DEFINITION. The rack bus bridge as the rest of the module uses it: the outbound queue, locked sequences, the
error log and the rack items of the raw input image (chapter 10). -/

namespace Sys2Proof.Machine

open Sys2Proof

/-- Sets a bit of RACK_EVENT. -/
def rackEvent (s : State) (bit : Nat) : State :=
  { s with rack := { s.rack with event := setBit s.rack.event bit } }

/-- A rack item with its stamp for the raw input image (R342): at most EVENT_LIMIT enter one image; further ones are
dropped and counted, and the next that enters carries LOST. `sub` orders items of one stamp. -/
def rackItemAt (s : State) (stamp kind sub : Nat) (body : List Byte) : State :=
  let b := s.rack
  let limit := (b.map.map (·.eventLimit)).getD 0
  if itemsBeside s.epoch stamp 4 b.items ≥ limit then
    { s with rack := { b with evtDropped := satInc b.evtDropped, event := setBit b.event 4, lostMark := true } }
  else
    let item := [BitVec.ofNat 8 kind, BitVec.ofNat 8 (b2n b.lostMark)] ++ leBytes 2 body.length ++ zeros 4 ++ body
    let items := if joinsClosing s.epoch stamp then b.items else b.items + 1
    queueItem { s with rack := { b with items := items, lostMark := false } } stamp 4 sub item (markLate 1)

/-- A rack item stamped now. -/
def rackItem (s : State) (kind sub : Nat) (body : List Byte) : State := rackItemAt s (tb2 s) kind sub body

/-- Writes an error log entry (R343): the ring overwrites its oldest entry, ERR_LOGGED is raised and an ERROR
item is created. -/
def rackLog (s : State) (e : RackLog) : State :=
  let b := s.rack
  let log := if b.log.length < 16 then b.log ++ [e] else b.log.set b.logNext.toNat e
  let s := { s with rack := { b with log := log, logNext := b.logNext + 1, failures := satInc b.failures
                                     event := setBit b.event 0 } }
  rackItem s 2 16 (rackLogBytes e)

/-- The log entry of an outbound access that failed with a code of Table 10.9. -/
def rackLogOf (s : State) (a : OutAccess) (code : Nat) : RackLog :=
  let rd := match a.kind with
    | .write => false
    | .serviceWrite _ => false
    | _ => true
  let sc := match a.kind with
    | .scan _ => true
    | _ => false
  { address := a.address, data := if rd then 0xFFFFFFFF else a.data, byteEn := a.byteEn, source := a.source
    code := code, flags := BitVec.ofNat 3 (b2n a.writeList + 2 * b2n rd + 4 * b2n sc), epoch := a.epoch
    stamp := tb2 s }

/-- The bridge may start an access: clock present, not failed, no rack master holds the lock (R339, R346). -/
def rackCanStart (s : State) : Bool :=
  s.rack.en && !s.rack.failed && s.rack.clkOk && !s.rack.busLocked && s.rack.openAccess.isNone

/-- An access of the agent that owns the lock (R331): its own loads, stores and service accesses, neither the scan nor the
write list. -/
def ofOwner (b : Rack) (a : OutAccess) : Bool :=
  a.source == b.owner.toNat && !a.writeList && match a.kind with
    | .scan _ => false
    | _ => true

/-- The access that starts next: the oldest, or with RB_LOCK_L held by this bridge the oldest of the owner
(R330, R331). -/
def rackNext (b : Rack) : Option OutAccess :=
  if b.lockHeld then b.outQueue.find? (ofOwner b) else b.outQueue.head?

/-- Starts the next access: the bridge raises RB_REQ_L (R340). -/
def rackPump (s : State) : State :=
  let b := s.rack
  if rackCanStart s then
    match rackNext b with
    | none => s
    | some a =>
      { s with rack := { b with outQueue := b.outQueue.erase a, openAccess := some a, granted := false } }
  else s

/-- Room in the queue of 32 posted writes (R329). -/
def rackRoom (s : State) : Bool := decide (outLevel s.rack < 32)

/-- Puts an access into the outbound queue (R329). -/
def rackQueue (s : State) (a : OutAccess) : State :=
  rackPump { s with rack := { s.rack with outQueue := s.rack.outQueue ++ [a] } }

/-- Counts an outbound access of a module that does not drive the bus (R345). -/
def rackNotDriver (s : State) : State :=
  { s with rack := { s.rack with notDriver := satInc s.rack.notDriver } }

/-- A posted outbound write of a lane or of Selvedge (R329): none while the queue is full. A module that does not
drive the bus discards it (R345; in SEGMENTED mode by the model's reading, log entry 21). -/
def rackPost (s : State) (source : Nat) (address : U32) (byteEn : BitVec 4) (data : U32) : Option State :=
  if !rackDrives s then some (rackNotDriver s)
  else if rackRoom s then
    some (rackQueue s { kind := .write, address := address, byteEn := byteEn, data := data, words := 1
                        source := source, writeList := false, epoch := s.epoch.no, retries := 0, got := [] })
  else none

/-- The requester has an outbound read that is queued or open. -/
def rackReading (s : State) (req : Nat) : Bool :=
  let mine := fun (a : OutAccess) => match a.kind with
    | .read r => r == req
    | _ => false
  s.rack.outQueue.any mine || (s.rack.openAccess.map mine).getD false

/-- The value of a completed outbound read that the requester has not yet taken. -/
def rackTaken (s : State) (req : Nat) : Option U32 := (s.rack.reads.find? (·.1 == req)).map (·.2)

/-- What a load from the outbound window finds: a value with the state in which it is taken, or none while the
read is on its way, with the state in which it has been queued (R330). A module that does not drive the bus
answers all ones (R345). -/
def rackLoad (s : State) (req source : Nat) (address : U32) (byteEn : BitVec 4) : Option U32 × State :=
  match rackTaken s req with
  | some v => (some v, { s with rack := { s.rack with reads := s.rack.reads.filter (·.1 != req) } })
  | none =>
    if rackReading s req then (none, s)
    else if !rackDrives s then (some 0xFFFFFFFF, rackNotDriver s)
    else (none, rackQueue s { kind := .read req, address := address, byteEn := byteEn, data := 0, words := 1
                              source := source, writeList := false, epoch := s.epoch.no, retries := 0, got := [] })

/-- Forgets the outbound reads of a lane that is stopped. -/
def rackForget (s : State) (l : LaneId) : State :=
  let keep := fun (a : OutAccess) => match a.kind with
    | .read r => r / 2 != l.val || r ≥ 16
    | _ => true
  { s with rack := { s.rack with outQueue := s.rack.outQueue.filter keep
                                 reads := s.rack.reads.filter (fun r => r.1 / 2 != l.val || r.1 ≥ 16) } }

/-- The bridge releases the lock (R331). -/
def rackFree (s : State) : State :=
  rackPump { s with rack := { s.rack with lock := false, owner := 0xF, lockHeld := false } }

/-- The bridge breaks a lock and logs LOCK_BROKEN (R331). The log entry names the open access, or no address. -/
def rackBreak (s : State) : State :=
  if s.rack.owner = 0xF then s
  else
    let src := s.rack.owner.toNat
    let e : RackLog := match s.rack.openAccess with
      | some a => { rackLogOf s a 5 with source := src }
      | none => { address := 0, data := 0, byteEn := 0, source := src, code := 5, flags := 0, epoch := s.epoch.no
                  stamp := tb2 s }
    rackFree (rackLog s e)

/-- A lane that yields, faults or is reloaded loses a lock that it owns (R331). -/
def rackBreakLane (s : State) (l : LaneId) : State :=
  if s.rack.owner.toNat = l.val then rackBreak s else s

/-- The owner of the lock has an access that is queued or open. -/
def ownerBusy (b : Rack) : Bool := b.outQueue.any (ofOwner b) || (b.openAccess.map (ofOwner b)).getD false

/-- A write of RACK_LOCK by agent `a` (R331): 0 to 7 a lane, 8 Selvedge. A lock that is cleared lasts to the end of the first
access of its owner after that; an owner that has neither held RB_LOCK_L nor an access on its way has none to wait for. -/
def rackLockWrite (s : State) (a : Nat) (data : U32) : State :=
  let b := s.rack
  if data.getLsbD 0 then
    if b.owner = 0xF then { s with rack := { b with lock := true, owner := BitVec.ofNat 4 a } }
    else if b.owner.toNat = a then { s with rack := { b with lock := true } }
    else rackEvent s 3
  else if b.owner.toNat = a then
    if b.lockHeld || ownerBusy b then { s with rack := { b with lock := false } } else rackFree s
  else if b.owner = 0xF then s
  else rackEvent s 3

end Sys2Proof.Machine
end

