-- ==== Sys2Proof/Machine/FirnOps.lean ====
section
/-! DEFINITION. The Drift queue, the Firn records and windows, drain points and lane faults (chapter 4). -/

namespace Sys2Proof.Machine

open Sys2Proof

/-- KIND codes of Table 4.3. -/
def kindCode : DriftKind → Nat
  | .load => 1 | .atomic => 2 | .check => 3 | .device => 4 | .async => 5 | .mark => 6

/-- PARITY of a Drift entry: even parity over bits 78 to 0 (Table 4.3). -/
def driftParity (data : Word) (kind : BitVec 4) (seq : BitVec 10) : Bool :=
  xor (parityOf 64 data.toNat) (xor (parityOf 4 kind.toNat) (parityOf 10 seq.toNat))

/-- SEQ of a core's next instruction: bits 9 to 0 of its retired count (Table 4.3). -/
def seqOf (k : Core) : BitVec 10 := k.retired.extractLsb' 0 10

/-- A lane with an entry written at the end of its Drift queue (R138). -/
def driftPut (ln : Lane) (kind : DriftKind) (data : Word) (seq : BitVec 10) : Lane :=
  let kd : BitVec 4 := BitVec.ofNat 4 (kindCode kind)
  let q := ln.drift ++ [⟨data, kd, seq, driftParity data kd seq⟩]
  { ln with drift := q, driftPeak := BitVec.ofNat 13 (max ln.driftPeak.toNat q.length) }

/-- What T finds at the front of the queue. -/
inductive DriftGot where
  /-- The entry it needs, and the lane without it. -/
  | ok (data : Word) (ln : Lane)
  /-- Nothing yet. -/
  | empty
  /-- A lane-fault cause of Table 4.6. -/
  | fault (cause : Nat)

/-- T consumes the entry its instruction needs (R140). -/
def driftTake (ln : Lane) (kind : DriftKind) : DriftGot := match ln.drift with
  | [] => .empty
  | e :: rest =>
    if e.parity != driftParity e.data e.kind e.seq then .fault 5
    else if e.kind.toNat != kindCode kind || e.seq != seqOf ln.t then .fault 6
    else .ok e.data { ln with drift := rest }

/-- A register-file record (Table 4.4). -/
def regRecord (r : Nat × Word) : List Byte := [1, BitVec.ofNat 8 r.1] ++ leBytes 8 r.2.toNat

/-- A store record (Table 4.4) for `size` bytes at address `a`. -/
def storeRecord (a size : Nat) (v : Word) : List Byte :=
  let sh := a % 8
  let en := (2 ^ size - 1) * 2 ^ sh % 256
  [2, BitVec.ofNat 8 en] ++ leBytes 5 (a - sh) ++ [0]
    ++ leBytes 8 (v.toNat % 2 ^ (8 * size) * 2 ^ (8 * sh))

/-- The control registers that a core can change, with their indices, in ascending order (Table 5.1). STATUS
enters without its pending bits, which are timing-dependent (log entry 23). DESIGN CHOICE: the registers that change by
themselves (RETIRED, EPOCH_NO, EPOCH_TIME, BUDGET_LEFT) give no record (log entry 92). -/
def ctrlList (c : CtrlRegs) : List (Nat × Word) :=
  [(5, c.taskClass), (6, c.rm.zeroExtend 64), (7, c.fflags.zeroExtend 64), (8, c.iflags.zeroExtend 64)
  , (9, (c.status.extractLsb' 0 3).zeroExtend 64), (10, c.cause.zeroExtend 64), (11, c.epc), (12, c.eval)
  , (13, c.vbase), (14, c.scratch0), (15, c.scratch1), (16, c.taskTab), (17, c.taskSel)]
  ++ (List.finRange 16).map (fun i => (32 + i.val, c.protBase[i]))
  ++ (List.finRange 16).map (fun i => (48 + i.val, c.protAttr[i]))

/-- The control-register records of a change (R141): one for each register that changes. -/
def ctrlRecords (old new : CtrlRegs) : List (Nat × Word) :=
  (((ctrlList old).zip (ctrlList new)).filter (fun p => p.1.2 != p.2.2)).map (fun p => (64 + p.2.1, p.2.2))

/-- A core's Firn unit takes in records (R141). -/
def firnFeed (k : Core) (bs : List Byte) : Core := { k with sig := crc64Feed k.sig bs }

/-- Why T may not close its window at a MARK entry: wrong parity (R140), or another COUNT or WSEQ than its own (R143). -/
def markCause (e : DriftEntry) (k : Core) : Option Nat :=
  if e.parity != driftParity e.data e.kind e.seq then some 5
  else if e.data.extractLsb' 0 32 != k.wcount || e.data.extractLsb' 32 32 != k.wseq then some 4
  else none

/-- A core closes its open window (R142, R143). -/
def firnClose (k : Core) : Core :=
  let w : FirnWindow := ⟨k.wseq, k.wcount, crc64Feed k.sig (leBytes 4 k.wcount.toNat), k.wstart⟩
  { k with closed := k.closed ++ [w], wseq := k.wseq + 1, wcount := 0, wstart := k.retired
           sig := crc64Feed 0 (leBytes 4 (k.wseq + 1).toNat) }

/-- L closes its window: the MARK carries COUNT and WSEQ, with the SEQ of the last retired instruction (R143,
Table 4.3). -/
def closeL (ln : Lane) : Lane :=
  let k := ln.l
  let ln := driftPut ln .mark (k.wseq ++ k.wcount) ((k.retired - 1).extractLsb' 0 10)
  { ln with l := firnClose k }

/-- L stops at a drain point (R132): the open window closes, if it holds an instruction. -/
def beginDrain (ln : Lane) (d : DrainKind) : Lane :=
  let ln := if ln.l.wcount = 0 then ln else closeL ln
  { ln with drain := some d }

/-- CAUSE_MASK bit of a cause (Table 4.21). -/
def causeBit (cause : Nat) : BitVec 9 := BitVec.ofNat 9 (2 ^ (cause - 1))

/-- A cause of checker class (Table 4.6): codes 1 to 5. -/
def checkerCause (cause : Nat) : Bool := decide (cause ≤ 5)

/-- The faults that count toward R151: those within 3600 s of TB3, the last one included (R11). -/
def liveFaults (s : State) (times : List Nat) : List Nat :=
  times.filter (fun t => decide (tb3 s ≤ t + 3600000000000))

/-- Both cores of a lane stop: gate and Drift queue are cleared, closed windows are dropped (R148). An accepted commit
stays noted until the boundary. -/
def haltLane (ln : Lane) : Lane :=
  { ln with gate := [], drift := [], drain := none
            l := { ln.l with closed := [], suspended := true, yieldCommit := false }
            t := { ln.t with closed := [], suspended := true, yieldCommit := false } }

/-- The commits of a lane in this epoch are discarded (R65). -/
def dropCommits (ln : Lane) : Lane :=
  { ln with l := { ln.l with committed := false }, t := { ln.t with committed := false } }

/-- Groups of a lane, by number. -/
def groupsOf (s : State) (l : LaneId) : List GroupId :=
  (List.finRange 16).filter (fun g => match s.maps.group[g] with
    | some d => d.lane == l
    | none => false)

/-- Groups of one core of a lane: all of them unless the cores run on their own (R158, R159). -/
def coreGroups (s : State) (l : LaneId) (c : CoreSel) : List GroupId :=
  (groupsOf s l).filter (fun g => !isSplit (laneOf s l) || match s.maps.group[g] with
    | some d => d.trailing == (c == .trailing)
    | none => false)

/-- No digest is offered for some groups in this epoch. -/
def abstainIn (s : State) (gs : List GroupId) : State :=
  { s with weft := { s.weft with ownDigest := Vector.ofFn (fun g => if gs.contains g then none else s.weft.ownDigest[g]) } }

/-- No digest is offered for the groups of a lane in this epoch (R62, R65). -/
def abstainLane (s : State) (l : LaneId) : State := abstainIn s (groupsOf s l)

/-- D_c of the epoch has passed (Table 2.15): what happens at the very instant D_c is not after it (R65, R67). -/
def afterDeadline (s : State) : Bool :=
  s.epoch.phase = .release || (s.epoch.phase = .digest && decide (deadlineNs s.epoch < tb2 s))

/-- The epoch state that a lane takes when it is stopped by a fault (Table 2.8, R65, R534). -/
def faultState (s : State) (ln : Lane) : EpState := match ln.epochState with
  | .stopped => .stopped
  | .shed => .shed
  | .committed => if afterDeadline s then .committed else .faulted
  | _ => .faulted

/-- Stops a lane (R65, R148, R224): the commit is discarded when D_c has not passed; otherwise it stands, also that of
one core of a SPLIT lane, and a COMMITTED lane is stopped at the next boundary. -/
def stopLane (s : State) (l : LaneId) : State :=
  let ln := laneOf s l
  let after := afterDeadline s
  let late := ln.epochState = .committed && after
  let h := if late then { ln with gate := [], drift := [], drain := none, faultPending := true }
    else if after then haltLane ln else dropCommits (haltLane ln)
  let s := putLane s l { h with epochState := faultState s ln, caughtUp := false }
  let s := if after then s else abstainLane s l
  rackForget (rackBreakLane s l) l

/-- A lane that has had four faults within 3600 s, or that missed an injection test, is DISABLED (R151, R154): FAULTED
becomes STOPPED (Table 2.8), and a reload that was under way ends. -/
def disableLane (s : State) (l : LaneId) : State :=
  let ln := laneOf s l
  putLane s l { ln with disabled := true, reloading := false
                        epochState := if ln.epochState = .faulted then .stopped else ln.epochState }

/-- Sets a bit of LANE_EVENT. -/
def laneEvent (s : State) (bit : Nat) : State :=
  { s with lanes := { s.lanes with event := setBit s.lanes.event bit } }

/-- Sets a bit of EPOCH_EVENT. -/
def epochEvent (s : State) (bit : Nat) : State :=
  { s with epoch := { s.epoch with event := setBit s.epoch.event bit } }

/-- Selvedge stops by a failure (R233, R234, Table 1.5): the module abstains and stops publication from the next
boundary, MODULE_OK goes inactive and FAULT_L low, and the failure is recorded (R31). -/
def selvedgeFail (s : State) : State :=
  if s.mbox.failed then s
  else
    recordOpen { s with mbox := { s.mbox with failed := true }, weft := { s.weft with abstainNext := true }
                        boot := { s.boot with failedEarly := s.boot.failedEarly || decide (s.boot.step.toNat < 7) } } 0x12 0xFF

/-- The open window of a core as it stands. -/
def coreWindow (k : Core) : FirnWindow := ⟨k.wseq, k.wcount, k.sig, k.wstart⟩

/-- The window that T is in, as L and as T hold it: the faulting window of a cause that no compare raises (R140, R143). For
TRAIL_STALL and a rail that fails outside a compare the spec names no window: DESIGN CHOICE (log entry 92). -/
def trailWindow (ln : Lane) : FirnWindow × FirnWindow :=
  ((ln.l.closed.find? (fun w => w.wseq == ln.t.wseq)).getD (coreWindow ln.l), coreWindow ln.t)

/-- CAUSE_MASK of several causes (R149). -/
def causeMask (causes : List Nat) : BitVec 9 := causes.foldl (fun m c => m ||| causeBit c) 0

/-- FIRN_STATUS and the fault counts of a lane fault (R148, R149): frozen from the first fault on. -/
def firnNote (ln : Lane) (causes : List Nat) (w : Option (FirnWindow × FirnWindow)) : Lane :=
  let chk := causes.any checkerCause
  let low := causes.foldl min (causes.headD 0)
  let ln := { ln with faultsCore := if chk then ln.faultsCore else satInc ln.faultsCore
                      faultsChecker := if chk then satInc ln.faultsChecker else ln.faultsChecker }
  if ln.firnFrozen then ln
  else
    let w := w.getD (trailWindow ln)
    { ln with firnFrozen := true, firnCause := BitVec.ofNat 4 low, firnChecker := chk, firnMask := causeMask causes
              firnWseq := w.1.wseq, firnSigL := w.1.sig, firnSigT := w.2.sig, firnPos := w.1.start }

/-- A lane fault with causes of Table 4.6 that are raised together (R148, R149, R150, R151, R534): the lowest code is CAUSE, and
the Moraine record holds the mask. `w` is the window whose compare raised it. A SHED lane raises none, and a lane that is
already FAULTED only records it. -/
def laneFaults (s : State) (l : LaneId) (causes : List Nat) (w : Option (FirnWindow × FirnWindow)) : State :=
  let ln := laneOf s l
  let report := fun (s : State) =>
    let s := laneEvent s (8 + l.val)
    recordBit s 0 0x90C (8 + l.val) s.lanes.event.toNat l.val (leBytes 2 (causeMask causes).toNat)
  if causes.isEmpty then s
  else match ln.epochState with
    | .shed => s
    | .faulted => report s
    | st =>
      let times := tb3 s :: liveFaults s ln.faultTimes
      let due := causes.any checkerCause && st != .stopped
      let s := putLane s l { firnNote ln causes w with faultTimes := times, testsDue := ln.testsDue || due }
      let s := report (stopLane s l)
      if times.length ≥ 4 then disableLane s l else s

/-- A lane fault with one cause. -/
def laneFault (s : State) (l : LaneId) (cause : Nat) (w : Option (FirnWindow × FirnWindow)) : State :=
  laneFaults s l [cause] w

end Sys2Proof.Machine
end

