-- ==== Sys2Proof/Machine/Images.lean ====
section
/-! DEFINITION. The raw input image, its queued part and header, and the consolidation of the images of the source
set (R41 to R48, R91 to R97, R537). -/

namespace Sys2Proof.Machine

open Sys2Proof

/-- Bits that a signal takes in the image (Table 3.6). -/
def sigBits (g : Signal) : Nat := match g.type with
  | .binary => 1
  | .network => 8 * g.size
  | _ => g.size

/-- The first byte after the configured signal that ends highest: E of R537. -/
def rawEnd (m : Maps) : Nat := max 64 (((m.signals.map (fun g => g.bitOffset + sigBits g)).foldl max 0 + 7) / 8)

/-- The first multiple of 8 at or above `n`. -/
def align8 (n : Nat) : Nat := (n + 7) / 8 * 8

/-- Where the queued part of a raw input image starts (R537). -/
def rawQueue (m : Maps) : Nat := align8 (rawEnd m)

/-- The size at which R48 cuts the raw input image: RAW_DECL (R91). -/
def rawMax (s : State) : Nat := min s.maps.rawDecl (imageMax s.epoch)

/-- Order of queued items: timestamp, source index, order within the source (R23, Table 1.1). -/
def itemBefore (a b : QueuedItem) : Bool :=
  a.stamp < b.stamp || (a.stamp == b.stamp &&
    (a.source < b.source || (a.source == b.source && a.sub < b.sub)))

/-- Inserts an item after those that do not come later. -/
def insertItem (q : QueuedItem) : List QueuedItem → List QueuedItem
  | [] => [q]
  | x :: r => if itemBefore q x then q :: x :: r else x :: insertItem q r

/-- The queued items in the order of R23. -/
def sortItems (l : List QueuedItem) : List QueuedItem := l.foldl (fun acc q => insertItem q acc) []

/-- The items that fit in `room` bytes: from the first that does not, all are dropped (R48). -/
def fitItems : Nat → List QueuedItem → List QueuedItem
  | _, [] => []
  | room, q :: r =>
    let n := (itemBytes q).length
    if n ≤ room then q :: fitItems (room - n) r else []

/-- The header of a raw or consolidated image (Table 2.5), with `time` the 32 bytes from TB0_SEC to byte 55. -/
def imageHeader (format b2 flags : Nat) (gen : U32) (epoch : Word) (length count : Nat) (time : List Byte) :
    List Byte :=
  let h := leBytes 2 format ++ [BitVec.ofNat 8 b2, BitVec.ofNat 8 flags] ++ leBytes 4 gen.toNat
    ++ leBytes 8 epoch.toNat ++ leBytes 4 length ++ leBytes 4 count ++ fit 32 time ++ zeros 4
  h ++ leBytes 4 (crc32c h).toNat

/-- The time bytes of the header: TB0 and TB1 at B(n) and TIME_FLAGS (Table 2.5). -/
def timeBytes (s : State) : List Byte :=
  let part := fun (b : TimeBase) => leBytes 8 b.value.sec.toNat ++ leBytes 4 b.value.ns.toNat
  part s.time.tb[0] ++ zeros 4 ++ part s.time.tb[1]
    ++ leBytes 4 (b2n (tbValid s.time.tb[0]) + 2 * b2n (tbValid s.time.tb[1]))

/-- The value of a configured signal in an image: a bit, or a little-endian number (R91). -/
def sigGet (m : Mem) (g : Signal) : Nat := match g.type with
  | .binary => b2n ((memGet m (g.bitOffset / 8)).getLsbD (g.bitOffset % 8))
  | .network => 0
  | _ => memLe m (g.bitOffset / 8) (g.size / 8)

/-- An image with a configured signal set. -/
def sigPut (m : Mem) (g : Signal) (v : Nat) : Mem := match g.type with
  | .binary =>
    memWrite m (g.bitOffset / 8) [putBit (memGet m (g.bitOffset / 8)) (g.bitOffset % 8) (v % 2 == 1)]
  | .network => m
  | _ => memPutLe m (g.bitOffset / 8) (g.size / 8) v

/-- The raw image with the signal of index `i` set; nothing where the map has no such signal. -/
def rawSet (s : State) (i v : Nat) : State := match s.maps.signals[i]? with
  | some g => { s with mem := { s.mem with rawOwn := sigPut s.mem.rawOwn g v } }
  | none => s

/-- Consecutive signals from index `i`. -/
def rawSetAll (s : State) (i : Nat) (vs : List Nat) : State :=
  (vs.zipIdx).foldl (fun s p => rawSet s (i + p.2) p.1) s

/-- The raw image with the bytes of a NETWORK area written (R305). -/
def rawArea (s : State) (i : Nat) (bs : List Byte) : State := match s.maps.signals[i]? with
  | some g => { s with mem := { s.mem with rawOwn := memWrite s.mem.rawOwn (g.bitOffset / 8) (fit g.size bs) } }
  | none => s

/-- The bytes of the area of signal `i` in the own raw image. -/
def areaBytes (s : State) (i : Nat) : List Byte := match s.maps.signals[i]? with
  | some g => memBytes s.mem.rawOwn (g.bitOffset / 8) g.size
  | none => []

/-- Raw close (R42, R46, R48): the items are sorted, those that fit are written after the configured part, and the
header is completed. -/
def closeRaw (s : State) : State :=
  let e := s.epoch
  let q := rawQueue s.maps
  let items := sortItems e.closing
  let kept := fitItems (rawMax s - q) items
  let excess := decide (kept.length < items.length)
  let late := kept.any (·.late)
  let body := kept.flatMap itemBytes
  let len := q + body.length
  let time := memBytes s.mem.rawOwn 24 32
  let hdr := imageHeader 1 s.slot.toNat (b2n late + 2 * b2n excess) s.boot.imageGen e.no len kept.length time
  let img := memWrite (memWrite s.mem.rawOwn q body) 0 hdr
  { s with mem := { s.mem with rawOwn := img }
           epoch := { e with closing := [], rawClosed := true, rawItems := kept.length, rawLate := late
                             rawOversize := excess, rawBytes := BitVec.ofNat 23 len
                             event := if excess then setBit e.event 21 else e.event } }

/-- The queued items that an image holds, each whole with its header (R537). -/
def imageItems (m : Mem) : Nat → Nat → Nat → List (List Byte)
  | 0, _, _ => []
  | k + 1, off, limit =>
    let n := 8 + align8 (memLe m (off + 2) 2)
    if off + n ≤ limit then memBytes m off n :: imageItems m k (off + n) limit else []

/-- The queued items of a raw image. -/
def itemsOf (maps : Maps) (m : Mem) : List (List Byte) :=
  imageItems m (memLe m 20 4) (rawQueue maps) (min (memLe m 16 4) 0x400000)

/-- The middle of three numbers. -/
def median3 (a b c : Int) : Int := max (min a b) (min (max a b) c)

/-- The rule of Table 3.7 for numbers: the median of three, RULE2 of two. -/
def pickNum (rule2 : Nat) : List Int → Int
  | [a, b, c] => median3 a b c
  | [a, b] => if rule2 = 0 then min a b else if rule2 = 1 then max a b else (a + b) / 2
  | [a] => a
  | _ => 0

/-- The copies of a numeric signal as integers. -/
def sigInt (g : Signal) (n : Nat) : Int := match g.type with
  | .signed => sxInt n g.size
  | _ => n

/-- A consolidated number from its copies in slot order (R92, R93). -/
def consNum (g : Signal) (vs : List Nat) : Nat := match g.type, vs with
  | .counter, b :: _ =>
    let d := pickNum g.rule2 (vs.map (fun (c : Nat) => sxInt ((c : Int) - (b : Int)) g.size))
    ((b + d) % 2 ^ g.size).toNat
  | _, _ => ((pickNum g.rule2 (vs.map (sigInt g))) % 2 ^ g.size).toNat

/-- A consolidated bit from its copies (R92). -/
def consBit (g : Signal) : List Nat → Nat
  | [a, b, c] => b2n (a + b + c ≥ 2)
  | [a, b] => if g.rule2 = 0 then min a b else max a b
  | [a] => a
  | _ => 0

/-- A quality byte (Table 3.8). -/
def quality (sources : Nat) (dissent invalid late : Bool) : Byte :=
  BitVec.ofNat 8 (sources % 4 + 4 * b2n dissent + 8 * b2n invalid + 16 * b2n (sources == 1) + 32 * b2n late)

/-- Three copies that are not all equal. -/
def notAllEqual {α : Type} [DecidableEq α] : List α → Bool
  | [a, b, c] => !(a == b && b == c)
  | _ => false

/-- A copy of a NETWORK area is valid: its VALID flag, and its safety code where the signal names one (R94). -/
def areaValid (g : Signal) (bs : List Byte) : Bool :=
  let off := g.subst.toNat % 2 ^ 16
  let alg := g.subst.toNat / 2 ^ 16 % 2 ^ 8
  let seed := g.subst.toNat / 2 ^ 32
  (bs.headD 0).getLsbD 0 && (alg == 0 ||
    algCode alg (slice bs 16 off) (BitVec.ofNat 32 seed) == ofBe (slice bs (16 + off) (algWidth alg / 8)))

/-- SEQ of a NETWORK area. -/
def areaSeq (bs : List Byte) : Nat := leAt bs 4 4

/-- `a` is newer than `b` (R94). -/
def newer (a b : Nat) : Bool :=
  let d := (a + 2 ^ 32 - b) % 2 ^ 32
  1 ≤ d && d < 2 ^ 31

/-- The newest of valid copies; ties go to the lowest slot (R94). -/
def newestArea : List (List Byte) → List Byte
  | [] => []
  | a :: r => r.foldl (fun best c => if newer (areaSeq c) (areaSeq best) then c else best) a

/-- One configured signal consolidated into an image, with its quality byte (R92 to R94, R96). -/
def consSignal (g : Signal) (imgs : List Mem) (out : Mem) : Mem × Byte :=
  let k := imgs.length
  match g.type with
  | .network =>
    let ok := (imgs.map (fun m => memBytes m (g.bitOffset / 8) g.size)).filter (areaValid g)
    match ok with
    | [] => (out, quality 0 false true false)
    | _ =>
      let best := newestArea ok
      (memWrite out (g.bitOffset / 8) best, quality ok.length (notAllEqual ok) false ((best.headD 0).getLsbD 3))
  | .binary =>
    let vs := imgs.map (fun m => sigGet m g)
    if k = 0 then (sigPut out g (g.subst.toNat % 2), quality 0 false true false)
    else (sigPut out g (consBit g vs), quality k (notAllEqual vs) false false)
  | _ =>
    let vs := imgs.map (fun m => sigGet m g)
    if k = 0 then (sigPut out g g.subst.toNat, quality 0 false true false)
    else (sigPut out g (consNum g vs), quality k (notAllEqual vs) false false)

/-- All configured signals, and their quality bytes in signal-index order. -/
def consSignals (imgs : List Mem) : List Signal → Mem → Mem × List Byte
  | [], out => (out, [])
  | g :: r, out =>
    let p := consSignal g imgs out
    let q := consSignals imgs r p.1
    (q.1, p.2 :: q.2)

/-- An item of the consolidated queue: its tag and the copied item (R95). -/
def consItem (slot : Nat) (it : List Byte) : List Byte :=
  [BitVec.ofNat 8 slot, 0] ++ leBytes 2 it.length ++ zeros 4 ++ it

/-- The items that fit in `room` bytes; from the first that does not, all are dropped (R95). -/
def fitCons : Nat → List (List Byte) → List (List Byte)
  | _, [] => []
  | room, x :: r => if x.length ≤ room then x :: fitCons (room - x.length) r else []

/-- The pair (seconds, nanoseconds) of a time base in an image header, if it is marked valid. -/
def imageTime (m : Mem) (off bit : Nat) : Option (Nat × Nat) :=
  if (memGet m 52).getLsbD bit then some (memLe m off 8, memLe m (off + 8) 4) else none

/-- `a` is earlier than or equal to `b`. -/
def timeLe (a b : Nat × Nat) : Bool := a.1 < b.1 || (a.1 == b.1 && a.2 ≤ b.2)

/-- The median of valid times; the lower of two (R97). -/
def timeMedian : List (Nat × Nat) → Option (Nat × Nat)
  | [a, b, c] =>
    let lo := fun (x y : Nat × Nat) => if timeLe x y then x else y
    let hi := fun (x y : Nat × Nat) => if timeLe x y then y else x
    some (hi (lo a b) (lo (hi a b) c))
  | [a, b] => some (if timeLe a b then a else b)
  | [a] => some a
  | _ => none

/-- The time bytes of the consolidated header (R97). -/
def consTime (imgs : List Mem) : List Byte :=
  let t0 := timeMedian (imgs.filterMap (fun m => imageTime m 24 0))
  let t1 := timeMedian (imgs.filterMap (fun m => imageTime m 40 1))
  let part := fun (t : Option (Nat × Nat)) => match t with
    | some (a, b) => leBytes 8 a ++ leBytes 4 b
    | none => zeros 12
  part t0 ++ zeros 4 ++ part t1 ++ leBytes 4 (b2n t0.isSome + 2 * b2n t1.isSome)

/-- The consolidated image of the images of S, in slot order, and whether items were dropped (R92 to R97). -/
def consolidate (s : State) (imgs : List (Nat × Mem)) (mask : Nat) : Mem × Bool :=
  let ms := imgs.map (·.2)
  let p := consSignals ms s.maps.signals []
  let e := rawEnd s.maps
  let q := align8 (e + s.maps.signals.length)
  let all := imgs.flatMap (fun x => (itemsOf s.maps x.2).map (consItem x.1))
  let kept := fitCons (0x400000 - q) all
  let excess := decide (kept.length < all.length)
  let body := kept.flatten
  let flags := ms.foldl (fun f m => f ||| memGet m 3) (if excess then 2 else 0)
  let hdr := imageHeader 2 mask flags.toNat s.boot.imageGen s.epoch.no (q + body.length) kept.length (consTime ms)
  (memWrite (memWrite (memWrite p.1 e p.2) q body) 0 hdr, excess)

end Sys2Proof.Machine
end

