-- ==== Sys2Proof/Machine/VoteOps.lean ====
section
/-! DEFINITION. Weft frames, the source set, digests, the outcome of a group, and the membership of V as this
module sees it (chapter 3). -/

namespace Sys2Proof.Machine

open Sys2Proof

/-- Sets a bit of WEFT_EVENT. -/
def weftEvent (s : State) (bit : Nat) : State :=
  { s with weft := { s.weft with event := setBit s.weft.event bit } }

/-- The bit of a slot in a slot mask; slot 0, the bench, has none. -/
def slotBit (slot : Nat) : BitVec 3 := if slot = 0 then 0 else BitVec.ofNat 3 (2 ^ (slot - 1))

/-- A slot is in a slot mask. -/
def inMask (m : BitVec 3) (slot : Nat) : Bool := slot != 0 && m.getLsbD (slot - 1)

/-- The slots of a mask in ascending order. -/
def maskSlots (m : BitVec 3) : List Nat := [1, 2, 3].filter (inMask m)

/-- This module is in V. -/
def isVoter (s : State) : Bool := s.weft.own = .voter

/-- The side that leads to a slot (R76). -/
def slotSide (s : State) (slot : Nat) : Option Side :=
  if s.slot = 0 then none else if sideSlot s .a = slot then some .a else if sideSlot s .b = slot then some .b else none

/-- The link to a slot. -/
def linkTo (s : State) (slot : Nat) : Option Link := (slotSide s slot).map (linkOf s)

/-- A link that has come up: UP or STRANGER. -/
def linkOn (k : Link) : Bool := k.state = .up || k.state = .stranger

/-- A link that carries epoch traffic: from the first boundary after it came up (Table 3.4). -/
def carries (k : Link) : Bool := linkOn k && !k.fresh

/-- Both sides. -/
def sides : List Side := [.a, .b]

/-- A frame made ready on a link (R79). -/
def linkQueue (k : Link) (type : Nat) (epochLo : U32) (payload : List Byte) : Link :=
  { k with txq := k.txq ++ [⟨type, epochLo, payload, false, 0⟩] }

/-- A frame made ready on the link of a side. -/
def sendSide (s : State) (sd : Side) (type : Nat) (payload : List Byte) : State :=
  putLink s sd (linkQueue (linkOf s sd) type (lo32 s.epoch.no) payload)

/-- A frame made ready on each link that carries epoch traffic. -/
def sendBoth (s : State) (type : Nat) (payload : List Byte) : State :=
  sides.foldl (fun s sd => if carries (linkOf s sd) then sendSide s sd type payload else s) s

/-- The payloads of RAW frames for bytes `off` to `off + n - 1` of an image: OFFSET and at most 2024 bytes
(Table 3.2). -/
def rawFrames (m : Mem) (off n : Nat) : List (List Byte) :=
  (List.range ((n + 2023) / 2024)).map (fun i =>
    leBytes 4 (off + 2024 * i) ++ memBytes m (off + 2024 * i) (min 2024 (n - 2024 * i)))

/-- RAW frames for a part of the own raw image on both links; none once R225 stopped them. -/
def sendRaw (s : State) (off n : Nat) : State :=
  if s.epoch.noRaw then s else (rawFrames s.mem.rawOwn off n).foldl (fun s p => sendBoth s 0x10 p) s

/-- Bytes 0 to `len - 1` are covered by parts (offset, length): checks from `at` on with fuel. -/
def covered (parts : List (Nat × Nat)) (len : Nat) : Nat → Nat → Bool
  | 0, pos => decide (len ≤ pos)
  | k + 1, pos =>
    if len ≤ pos then true
    else
      let reach := (parts.filter (fun p => decide (p.1 ≤ pos))).foldl (fun m p => max m (p.1 + p.2)) pos
      if reach ≤ pos then false else covered parts len k reach

/-- The raw image region of a sibling (Table 6.1): WEFT_A's is sibling-A. -/
def sideImage (s : State) (sd : Side) : Mem := match sd with
  | .a => s.mem.rawA
  | .b => s.mem.rawB

/-- The raw image of a side arrived complete and correct (R88); a stranger's never counts (R84). -/
def rawComplete (s : State) (sd : Side) : Bool :=
  let k := linkOf s sd
  let m := sideImage s sd
  let len := memLe m 16 4
  k.state = .up && decide (64 ≤ len) && covered k.rawParts len (k.rawParts.length + 1) 0
    && crc32c (memBytes m 0 60) == BitVec.ofNat 32 (memLe m 60 4) && memLe m 8 8 == s.epoch.no.toNat
    && memLe m 4 4 == s.weft.voteGen.toNat

/-- The RECEIVED mask of this module (R88): its own image, and those of its links. DESIGN CHOICE (log entry 100): the own bit is set
whatever the own generation. -/
def receivedMask (s : State) : BitVec 3 :=
  sides.foldl (fun m sd => if (linkOf s sd).rawOk then m ||| slotBit (sideSlot s sd) else m) (slotBit s.slot.toNat)

/-- `ok(x, y)` of R89: x holds y's raw image. -/
def holdsRaw (s : State) (x y : Nat) : Bool :=
  if x = y then true
  else if x = s.slot.toNat then inMask (receivedMask s) y
  else match linkTo s x with
    | some k => inMask ((k.rxReport).getD 0) y
    | none => false

/-- Both of a pair hold each other's images (R89). -/
def pairLinked (s : State) (x y : Nat) : Bool := holdsRaw s x y && holdsRaw s y x

/-- Every pair of a list is linked. -/
def allLinked (s : State) : List Nat → Bool
  | [] => true
  | x :: r => r.all (pairLinked s x) && allLinked s r

/-- The candidates of R89 in order of preference: more members first, then lower slots. -/
def sourceOrder : List (List Nat) := [[1, 2, 3], [1, 2], [1, 3], [2, 3], [1], [2], [3]]

/-- The source set S (R89). -/
def sourceSet (s : State) : BitVec 3 :=
  match sourceOrder.find? (fun c => c.all (inMask s.weft.voters) && allLinked s c) with
  | some c => c.foldl (fun m x => m ||| slotBit x) 0
  | none => 0

/-- The images of S that this module holds, in slot order; on the bench its own alone (R117). -/
def sourceImages (s : State) : List (Nat × Mem) :=
  if s.slot = 0 then [(0, s.mem.rawOwn)]
  else (maskSlots s.weft.sources).filterMap (fun x =>
    if x = s.slot.toNat then some (x, s.mem.rawOwn)
    else match slotSide s x with
      | some sd => if (linkOf s sd).rawOk then some (x, sideImage s sd) else none
      | none => none)

/-- Every lane is marked as having read stale data, and no group is offered (R90). -/
def abstainEpoch (s : State) : State :=
  let s := mapLanes s (fun _ ln => { ln with readStale := true })
  { s with epoch := { s.epoch with abstainAll := true } }

/-- The descriptor of a group that is configured and enabled. -/
def groupOn (s : State) (g : GroupId) : Option Group :=
  (s.maps.group[g]).bind (fun d => if d.enabled then some d else none)

/-- All groups. -/
def allGroups : List GroupId := List.finRange 16

/-- The core that produces a group has an accepted commit in this epoch (R62, R159), and the lane has been neither shed nor
made DIVERGED since. -/
def groupCommitted (s : State) (d : Group) : Bool :=
  let ln := laneOf s d.lane
  if isSplit ln then
    (if d.trailing then ln.t else ln.l).committed && ln.epochState != .shed && ln.epochState != .diverged
  else ln.epochState = .committed

/-- The prefix of a digest (R99). -/
def digestPrefix (s : State) (g : Nat) : List Byte :=
  leBytes 8 s.epoch.no.toNat ++ leBytes 4 s.boot.imageGen.toNat ++ [BitVec.ofNat 8 g] ++ zeros 3

/-- The digest of a group's bytes in the output image (R99). -/
def groupDigest (s : State) (g : GroupId) (d : Group) : Word :=
  crc64 (digestPrefix s g.val ++ memBytes s.mem.out d.offset d.length)

/-- The slice that the audit covers in this epoch (R100). -/
def auditSlice (s : State) : Nat := s.epoch.no.toNat % 16

/-- The audit digest (R100). -/
def auditDigest (s : State) : Word :=
  crc64 (digestPrefix s 0xFF ++ memBytes s.mem.retained (auditSlice s * 0x10000) 0x10000)

/-- A lane whose retained blocks are not current (R100). -/
def notCurrent (ln : Lane) : Bool := match ln.epochState with
  | .diverged => true
  | .faulted => true
  | .shed => true
  | .stopped => ln.disabled && ln.image.isSome
  | _ => false

/-- Retained blocks that a lane declares. -/
def laneBlocks (ln : Lane) : List Nat := match ln.image with
  | some im => im.ownL ++ im.ownT
  | none => []

/-- The audit is withheld in this epoch (R100). -/
def auditWithheld (s : State) : Bool :=
  s.lanes.lane.toList.any (fun ln => notCurrent ln && (laneBlocks ln).any (fun b => b / 16 == auditSlice s))

/-- A vote state whose digests are compared or counted (Table 3.14). -/
def offersDigests : VoteState → Bool
  | .voter => true | .admitting => true | .withdrawn => true | .foreign => true | .stranger => true | _ => false

/-- The module does not offer in this epoch: R90, R225, SEAL_LATE, a Selvedge failure, calving, a missing reference. -/
def abstains (s : State) : Bool := s.epoch.abstainAll || s.weft.stopped

/-- A group that a SPLIT lane may not offer (R156). -/
def splitSafety (s : State) (d : Group) : Bool := d.safetyRelevant && (laneOf s d.lane).mode = .split

/-- A group is marked OFFERED (R101, R156). -/
def groupOffered (s : State) (g : GroupId) : Bool :=
  !abstains s && offersDigests s.weft.own && !s.epoch.abstainGroups.getLsbD g.val
    && (s.weft.ownDigest[g]).isSome && match groupOn s g with
      | some d => !splitSafety s d && (!isVoter s || (laneOf s d.lane).admitted)
      | none => false

/-- The DIGEST content of this module (Table 3.10), without CU_COMPLETE. -/
def ownDigestFrame (s : State) : DigestFrame :=
  let off := BitVec.ofNat 16 (bitsNum (allGroups.map (groupOffered s)))
  let audit := if abstains s || !offersDigests s.weft.own || auditWithheld s then none else s.weft.ownAudit
  let stranger := sides.foldl (fun n sd =>
    if (linkOf s sd).state = .stranger then n + 2 ^ (2 + sideSlot s sd) else n) 0
  { epochNo := s.epoch.no, imageGen := s.boot.imageGen, offered := off
    flags := BitVec.ofNat 8 (b2n s.lanes.independentActive + 2 * b2n audit.isSome
      + 4 * b2n (s.power.stage != 0 || s.power.restoring) + stranger)
    slice := BitVec.ofNat 8 (auditSlice s)
    digest := Vector.ofFn (fun g => if groupOffered s g then (s.weft.ownDigest[g]).getD 0 else 0)
    audit := audit.getD 0 }

/-- A DIGEST payload (Table 3.10). -/
def digestBytes (d : DigestFrame) : List Byte :=
  leBytes 8 d.epochNo.toNat ++ leBytes 4 d.imageGen.toNat ++ leBytes 2 d.offered.toNat ++ [d.flags, d.slice]
    ++ d.digest.toList.flatMap (fun w => leBytes 8 w.toNat) ++ leBytes 8 d.audit.toNat

/-- A DIGEST payload read (Table 3.10). -/
def digestOf (p : List Byte) : DigestFrame :=
  { epochNo := BitVec.ofNat 64 (leAt p 0 8), imageGen := BitVec.ofNat 32 (leAt p 8 4)
    offered := BitVec.ofNat 16 (leAt p 12 2), flags := BitVec.ofNat 8 (leAt p 14 1)
    slice := BitVec.ofNat 8 (leAt p 15 1)
    digest := Vector.ofFn (fun (g : Fin 16) => BitVec.ofNat 64 (leAt p (16 + 8 * g.val) 8))
    audit := BitVec.ofNat 64 (leAt p 144 8) }

/-- Blocks that become current at the next boundary: written in this epoch by a core with an accepted commit
(R57, R159), whatever state its lane has entered since; one commit of a PAIRED lane stands for both cores. -/
def comingCurrent (s : State) : List Nat :=
  s.mem.written.filter (fun b => s.lanes.lane.toList.any (fun ln => match ln.image with
    | some im => (ln.l.committed && im.ownL.contains b) || (ln.t.committed && im.ownT.contains b)
    | none => false))

/-- The retained blocks of a set of lanes, ascending. -/
def blocksOf (s : State) (lanes : BitVec 8) : List Nat :=
  let bs := (List.finRange 8).flatMap (fun l => if lanes.getLsbD l.val then laneBlocks (laneOf s l) else [])
  (List.range 256).filter bs.contains

/-- The sibling's DIGEST frame of this epoch offers a group. -/
def offersSome (k : Link) : Bool := (k.digest.map (fun d => d.offered != 0)).getD false

/-- As catch-up source this module judges the receiver's catch-up complete (R123): its window carried every dirty
block, and the tail fits the next one. After the tail, it judges again until the receiver's frame shows it ADMITTING. -/
def catchupDone (s : State) (sd : Side) : Bool :=
  let k := linkOf s sd
  k.isSource && !k.tail && !(k.cuSent && offersSome k) && k.dirty.isEmpty && k.txq.all (fun f => f.type != 0x30)
    && decide (((comingCurrent s).filter (blocksOf s k.cuLanes).contains).length ≤ s.weft.cuBlocks.toNat)

/-- The DIGEST frame goes out on each link that is UP or STRANGER, with CU_COMPLETE to a receiver whose catch-up is
complete (R101, R123); a module whose release is stopped sends none (Table 15.2), nor one whose bridge has failed on a
SHARED bus (R346). -/
def sendDigest (s : State) : State :=
  if s.weft.stopped || s.rack.mute || s.weft.ownFrame.isSome then s
  else
    let d := ownDigestFrame s
    let s := sides.foldl (fun s sd =>
      let k := linkOf s sd
      if carries k then
        let done := catchupDone s sd
        let d := if done then { d with flags := setBit d.flags 6 } else d
        let s := sendSide s sd 0x20 (digestBytes d)
        let t := putLink s sd { linkOf s sd with tail := true }
        if !done then s else if k.cuSent then t else weftEvent t 13
      else s) s
    { s with weft := { s.weft with ownFrame := some d } }

/-- A digest of a group that a member of V offers in this epoch; `slot` is a member (R102, R103). -/
def offerOf (s : State) (slot : Nat) (g : GroupId) (safety : Bool) : Option Word :=
  let take := fun (d : DigestFrame) (nonSafe : Bool) =>
    if d.offered.getLsbD g.val && !(safety && (nonSafe || d.flags.getLsbD 0)) then some d.digest[g] else none
  if slot = s.slot.toNat then (s.weft.ownFrame).bind (fun d => take d s.lanes.independentActive)
  else (linkTo s slot).bind (fun k => (k.digest).bind (fun d =>
    if k.state = .up && d.imageGen == s.weft.voteGen then take d (k.peerMode.getLsbD 0) else none))

/-- The audit digest that a member of V offers (R100, R103). -/
def auditOf (s : State) (slot : Nat) : Option Word :=
  let take := fun (d : DigestFrame) (nonSafe : Bool) =>
    if d.flags.getLsbD 1 && !nonSafe && !d.flags.getLsbD 0 then some d.audit else none
  if slot = s.slot.toNat then (s.weft.ownFrame).bind (fun d => take d s.lanes.independentActive)
  else (linkTo s slot).bind (fun k => (k.digest).bind (fun d =>
    if k.state = .up && d.imageGen == s.weft.voteGen then take d (k.peerMode.getLsbD 0) else none))

/-- The outcome of Table 3.12 and its deciding digest, from the digests that `voters` members of V offered. -/
def decideVote (voters : Nat) (ds : List Word) : VoteOutcome × Option Word :=
  if voters = 3 then match ds with
    | [a, b, c] =>
      if a = b && b = c then (.unanimous, some a)
      else if a = b then (.majority, some a)
      else if a = c then (.majority, some a)
      else if b = c then (.majority, some b)
      else (.noDecision, none)
    | [a, b] => if a = b then (.majority, some a) else (.noDecision, none)
    | _ => (.noDecision, none)
  else if voters = 2 then match ds with
    | [a, b] => if a = b then (.pair, some a) else (.noDecision, none)
    | _ => (.noDecision, none)
  else (.noDecision, none)

/-- The vote on one group: its outcome, and the deciding digest (R102). -/
def voteGroup (s : State) (g : GroupId) (d : Group) : VoteOutcome × Option Word :=
  let vs := maskSlots s.weft.voters
  decideVote vs.length (vs.filterMap (fun x => offerOf s x g d.safetyRelevant))

/-- The vote on the audit (R100). -/
def voteAudit (s : State) : VoteOutcome × Option Word :=
  let vs := maskSlots s.weft.voters
  decideVote vs.length (vs.filterMap (auditOf s))

/-- The outcome of a group that is not voted is NO_DECISION (R105). -/
def outcomeOf (s : State) (g : GroupId) : VoteOutcome × Option Word := match groupOn s g with
  | some d => voteGroup s g d
  | none => (.noDecision, none)

/-- Groups in which a member's offered digest differs from a deciding MAJORITY digest (R106). -/
def dissentGroups (s : State) (slot : Nat) : U16 :=
  BitVec.ofNat 16 (bitsNum (allGroups.map (fun g => match groupOn s g with
    | some d => match voteGroup s g d, offerOf s slot g d.safetyRelevant with
      | (.majority, some w), some v => v != w
      | _, _ => false
    | none => false)))

/-- A member's audit digest differs from a deciding MAJORITY digest (R106). -/
def dissentAudit (s : State) (slot : Nat) : Bool := match voteAudit s, auditOf s slot with
  | (.majority, some w), some v => v != w
  | _, _ => false

/-- A member of V dissents (R106). -/
def dissents (s : State) (slot : Nat) : Bool := dissentGroups s slot != 0 || dissentAudit s slot

/-- A member of V offered a DIGEST frame for the epoch without FEED_LOSS (R112). -/
def roleReady (s : State) (slot : Nat) : Bool :=
  let fit := fun (d : Option DigestFrame) => (d.map (fun d => !d.flags.getLsbD 2)).getD false
  if slot = s.slot.toNat then fit s.weft.ownFrame else match linkTo s slot with
    | some k => k.state = .up && fit k.digest
    | none => false

/-- The holder of the active role from the next boundary: the lowest slot in V that qualifies, 0 for none
(R112). -/
def roleChoice (s : State) : BitVec 2 :=
  BitVec.ofNat 2 (((maskSlots s.weft.voters).find? (fun x => !dissents s x && roleReady s x)).getD 0)

/-- Two voters both offered, and differ, in a SAFETY_RELEVANT group (R110). -/
def safetyDiffer (s : State) : Bool := allGroups.any (fun g => match groupOn s g with
  | some d => d.safetyRelevant && match (maskSlots s.weft.voters).map (fun x => offerOf s x g true) with
    | [some a, some b] => a != b
    | _ => false
  | none => false)

/-- The own digest of a group, offered or only compared, equals the deciding digest (R104, R124). -/
def ownAgrees (s : State) (g : GroupId) : Bool := match (outcomeOf s g).2, s.weft.ownDigest[g] with
  | some w, some v => w == v
  | _, _ => false

/-- The own digest of a group as admission judges it (R124): of an ADMITTING module what its DIGEST frame offers, of a lane of a
VOTER, which does not offer it, what was computed. -/
def admissionDigest (s : State) (whole : Bool) (g : GroupId) : Bool :=
  if whole then (s.weft.ownFrame.map (fun d => d.offered.getLsbD g.val)).getD false else (s.weft.ownDigest[g]).isSome

/-- One epoch of admission (R124): nothing when none of the groups is decided, else whether all agreed. The groups
are those in `gs`; of a whole module the audit counts too, when it is offered and decided. -/
def admissionEpoch (s : State) (gs : List GroupId) (withAudit : Bool) : Option Bool :=
  if gs.all (fun g => (outcomeOf s g).1 = .noDecision) then none
  else
    let bad := gs.any (fun g =>
      !admissionDigest s withAudit g || ((outcomeOf s g).1 != .noDecision && !ownAgrees s g))
    let aud := withAudit && match voteAudit s, s.weft.ownAudit with
      | (_, some w), some v => !auditWithheld s && w != v
      | _, _ => false
    some (!bad && !aud)

/-- The enabled groups of a lane. -/
def laneGroups (s : State) (l : LaneId) : List GroupId :=
  (groupsOf s l).filter (fun g => (groupOn s g).isSome)

/-- The enabled groups of the lanes that are not DISABLED. -/
def liveGroups (s : State) : List GroupId :=
  allGroups.filter (fun g => match groupOn s g with
    | some d => !(laneOf s d.lane).disabled
    | none => false)

/-- Two DIGEST frames agree in every enabled group and in the audit (R119). -/
def framesAgree (s : State) (a b : DigestFrame) : Bool :=
  (allGroups.filter (fun g => (groupOn s g).isSome)).all (fun g =>
    a.offered.getLsbD g.val && b.offered.getLsbD g.val && a.digest[g] == b.digest[g])
  && a.flags.getLsbD 1 && b.flags.getLsbD 1 && a.audit == b.audit

/-- The DIGEST frame of a slot in this epoch. -/
def frameOf (s : State) (slot : Nat) : Option DigestFrame :=
  if slot = s.slot.toNat then s.weft.ownFrame else (linkTo s slot).bind (·.digest)

/-- The lanes of the groups that a frame offers. -/
def lanesOffered (s : State) (d : DigestFrame) : BitVec 8 :=
  allGroups.foldl (fun m g => match groupOn s g with
    | some x => if d.offered.getLsbD g.val then setBit m x.lane.val else m
    | none => m) 0

/-- A member's frames equal the deciding digests in every group it is judged on, as another voter sees it (R124). No frame
names the sibling's DISABLED lanes: a lane is taken as one until the sibling, in its admission, has offered a group of it
(log entry 53). -/
def peerAgrees (s : State) (slot : Nat) : Option Bool :=
  let lanes := ((linkTo s slot).map (·.offeredLanes)).getD 0
  let gs := allGroups.filter (fun g => match groupOn s g with
    | some d => lanes.getLsbD d.lane.val
    | none => false)
  if gs.all (fun g => (outcomeOf s g).1 = .noDecision) then none
  else match frameOf s slot with
    | none => some false
    | some d =>
      let same := gs.all (fun g => d.offered.getLsbD g.val
        && ((outcomeOf s g).1 = .noDecision || (outcomeOf s g).2 == some d.digest[g]))
      let aud := match voteAudit s with
        | (_, some w) => !d.flags.getLsbD 1 || d.audit == w
        | _ => true
      some (same && aud)

/-- Some voter linked to a slot holds that link as STRANGER, or sent no DIGEST frame (R124). -/
def heldAsStranger (s : State) (slot : Nat) : Bool :=
  (maskSlots s.weft.voters).any (fun v => v != slot && match frameOf s v with
    | some d => d.flags.getLsbD (2 + slot)
    | none => true)

/-- The bytes released for the output image at the last boundary: byte `o`, 0 outside every group. -/
def releasedByte (s : State) (o : Nat) : Byte :=
  (allGroups.findSome? (fun g => match s.maps.group[g] with
    | some d => if d.offset ≤ o && o < d.offset + d.length then (s.weft.current[g])[o - d.offset]? else none
    | none => none)).getD 0

/-- `n` released bytes from offset `o` of the output image. -/
def releasedBytes (s : State) (o n : Nat) : List Byte := (List.range n).map (fun i => releasedByte s (o + i))

/-- What one group releases (Table 3.13, R105). -/
inductive ReleaseKind where
  | own
  | held
  | safe
  /-- A group that holds but has no last released values: safe values, counted as held (R105). -/
  | bare
  /-- NO_DECISION with the hold count at HOLD_LIMIT. -/
  | limit
deriving DecidableEq, Repr

/-- The row of Table 3.13 for a group of a VOTER. A NON_SAFE module counts as not offering a SAFETY_RELEVANT group (R103). -/
def releaseKind (s : State) (g : GroupId) (d : Group) : ReleaseKind :=
  let w := s.weft
  let decided := w.outcome[g] != .noDecision
  let offered := (w.ownFrame.map (fun f => f.offered.getLsbD g.val)).getD false
  let equal := w.ownEqual.getLsbD g.val && offered && !(d.safetyRelevant && s.lanes.independentActive)
  if !d.enabled then .safe
  else if decided && equal then (if w.latched.getLsbD g.val then .safe else .own)
  else if (w.hold[g]).ult d.holdLimit then (if w.everReleased.getLsbD g.val then .held else .bare)
  else .limit

/-- The row of Table 3.13 for a group that is NO_DECISION because V is dissolved (R129). -/
def undecidedKind (s : State) (g : GroupId) (d : Group) : ReleaseKind :=
  let w := s.weft
  if !d.enabled then .safe
  else if (w.hold[g]).ult d.holdLimit then (if w.everReleased.getLsbD g.val then .held else .bare)
  else .limit

/-- One group by a row of Table 3.13 (R104, R105). -/
def releaseAs (s : State) (g : GroupId) (d : Group) (kind : ReleaseKind) : State :=
  let w := s.weft
  let put := fun (w : Weft) (bytes : List Byte) => { w with current := w.current.set g.val bytes }
  let w' := match kind with
    | .own =>
      let bytes := memBytes s.mem.out d.offset d.length
      put { w with hold := w.hold.set g.val 0, released := setBit w.released g.val, safe := clearBit w.safe g.val
                   everReleased := setBit w.everReleased g.val, lastReleased := w.lastReleased.set g.val bytes } bytes
    | .held =>
      put { w with hold := w.hold.set g.val (w.hold[g] + 1), released := clearBit w.released g.val
                   safe := clearBit w.safe g.val } w.lastReleased[g]
    | .bare =>
      put { w with hold := w.hold.set g.val (w.hold[g] + 1), released := clearBit w.released g.val
                   safe := setBit w.safe g.val } d.safe
    | .safe =>
      put { w with hold := if d.enabled then w.hold else w.hold.set g.val 0, released := clearBit w.released g.val
                   safe := setBit w.safe g.val } d.safe
    | .limit =>
      put { w with released := clearBit w.released g.val, safe := setBit w.safe g.val
                   latched := if d.safeLatch then setBit w.latched g.val else w.latched } d.safe
  { s with weft := w' }

/-- One group released by a VOTER (R104, R105). -/
def releaseGroup (s : State) (g : GroupId) (d : Group) : State := releaseAs s g d (releaseKind s g d)

/-- One group of a module that left VOTER by a dissolution (R129): it goes to its safe values after its hold limit. -/
def releaseUndecided (s : State) (g : GroupId) (d : Group) : State := releaseAs s g d (undecidedKind s g d)

/-- One group of a bench module: its own committed values with debug unlocked and an accepted commit, else the safe
values (R117). -/
def releaseBench (s : State) (g : GroupId) (d : Group) : State :=
  let w := s.weft
  let own := unlocked s && groupCommitted s d
  let bytes := if own then memBytes s.mem.out d.offset d.length else d.safe
  { s with weft := { w with current := w.current.set g.val bytes, released := putBit w.released g.val own
                            safe := putBit w.safe g.val (!own) } }

/-- A group at its safe values (R111). -/
def releaseSafe (s : State) (g : GroupId) (d : Group) : State :=
  let w := s.weft
  { s with weft := { w with current := w.current.set g.val d.safe, released := clearBit w.released g.val
                            safe := setBit w.safe g.val } }

/-- All configured groups released one by one. -/
def releaseAll (s : State) (f : State → GroupId → Group → State) : State :=
  allGroups.foldl (fun s g => match s.maps.group[g] with
    | some d => f s g d
    | none => s) s

/-- A module that has released groups and is in no V: V is dissolved, and no new one has formed (R129). -/
def dissolved (s : State) : Bool := s.weft.voters = 0 && s.weft.everReleased != 0

/-- The values at a boundary (R104, R111, R117): a state without output release releases nothing. While V is dissolved, the hold
counts and SAFE bits of a module that was a VOTER go on (R129), and nothing of that reaches an output (R116). -/
def releaseValues (s : State) : State := match s.weft.own with
  | .voter => if s.weft.stopped then s else releaseAll s releaseGroup
  | .bench => releaseAll s releaseBench
  | .unitSafe =>
    if s.weft.unitSafeDone then s
    else
      let s := releaseAll s releaseSafe
      { s with weft := { s.weft with unitSafeDone := true } }
  | _ =>
    let s := if dissolved s then releaseAll s releaseUndecided else s
    { s with weft := { s.weft with released := 0 } }

end Sys2Proof.Machine
end

