-- ==== Sys2Proof/Machine/FioOps.lean ====
section
/-! DEFINITION. The isolated field I/O: its frames across the barrier, its output channels and its events
(chapter 12). -/

namespace Sys2Proof.Machine

open Sys2Proof

/-- Sets a bit of FIO_EVENT. -/
def fioEvent (s : State) (bit : Nat) : State :=
  { s with fio := { s.fio with event := setBit s.fio.event bit } }

/-- The group of a channel (R361). -/
def groupOfChan (c : Fin 32) : Fin 2 := ⟨c.val / 16, by omega⟩

/-- A channel replaced. -/
def putChan (s : State) (c : Fin 32) (x : FioChan) : State :=
  { s with fio := { s.fio with chan := s.fio.chan.set c.val x } }

/-- A channel group replaced. -/
def putGroup (s : State) (g : Fin 2) (x : FioGroup) : State :=
  { s with fio := { s.fio with group := s.fio.group.set g.val x } }

/-- The switch of an output channel is closed (Table 12.6). -/
def chanClosed (c : FioChan) : Bool := c.cfg.output && match c.state with
  | .on => true | .limit => true | .silent => c.cfg.safeOn | _ => false

/-- A channel that enters a state; an output that is off shows no OPEN_WIRE of the on state (Table 12.4). -/
def enterState (c : FioChan) (st : OutState) : FioChan :=
  let c := { c with state := st }
  if chanClosed c then c else { c with openOn := false }

/-- The frame that the field side sends (R365). -/
def fieldFrameOf (f : Fio) : FieldFrame :=
  let bits := fun (p : FioChan → Bool) => BitVec.ofNat 32 (bitsNum (f.chan.toList.map p))
  { state := bits (·.filtered), overload := bits (·.overload), openWire := bits (fun c => c.openOn || c.openOff)
    overtemp := bits (·.overtemp), extDrive := bits (·.extDrive), group := f.group, tss := f.tssSeen }

/-- An edge item of a channel (R382): at most EVENT_LIMIT enter one raw image. -/
def edgeItem (s : State) (c : Fin 32) (falling : Bool) : State :=
  let f := s.fio
  if f.items ≥ f.eventLimit then { (fioEvent s 10) with fio := { (fioEvent s 10).fio with lostMark := true, dropped := f.dropped + 1 } }
  else
    let body := [BitVec.ofNat 8 c.val, BitVec.ofNat 8 (b2n falling), BitVec.ofNat 8 (b2n f.lostMark)] ++ zeros 5
      ++ leBytes 8 (tb2 s)
    let ch := f.chan[c]
    let s := putChan s c { ch with events := satInc ch.events }
    queueItem { s with fio := { s.fio with items := s.fio.items + 1, lostMark := false } } (tb2 s) 2 c.val body
      (markLate 2)

/-- The edges of a frame: an item for each channel with EVENT whose filtered state changed (R382). -/
def frameEdges (s : State) (old new : U32) : State :=
  (List.finRange 32).foldl (fun s c =>
    let a := old.getLsbD c.val
    let b := new.getLsbD c.val
    if a != b && s.fio.chan[c].cfg.event then edgeItem s c a else s) s

/-- The events that a frame raises: what it reports newly (Table 12.11). -/
def frameEvents (s : State) (old new : FieldFrame) : State :=
  let rise := fun (a b : U32) => (b &&& ~~~ a) != 0
  let raise := fun (b : Bool) (i : Nat) (s : State) => if b then fioEvent s i else s
  let g := fun (p : FioGroup → Bool) => (List.finRange 2).any (fun i => p new.group[i] && !p old.group[i])
  raise (rise old.overload new.overload) 0 <| raise (rise old.openWire new.openWire) 1 <|
  raise (rise old.overtemp new.overtemp) 2 <| raise (rise old.extDrive new.extDrive) 3 <|
  raise (g (·.warn)) 4 <| raise (g (·.tripped)) 5 <| raise (new.tss && !old.tss) 8 s

/-- A frame of the field side reaches the logic side (R365, R382). -/
def fieldFrameArrives (s : State) : State :=
  let old := s.fio.frame
  let new := fieldFrameOf s.fio
  let s := frameEdges (frameEvents s old new) old.state new.state
  { s with fio := { s.fio with frame := new, fieldOk := s.fio.fieldOk || !s.fio.lost } }

/-- The ON bit of a channel in its group's word (Table 12.3). -/
def onBitOf (w : Word) (c : Fin 32) : Bool := w.getLsbD (c.val % 16)

/-- CLEAR on one channel (R372): whether it stays latched because it is hot. -/
def clearChan (f : Fio) (w : Word) (c : Fin 32) (hot : Bool) (ch : FioChan) : FioChan × Bool :=
  if w.getLsbD 17 && ch.cfg.output && ch.state = .latched && !onBitOf w c then
    if hot then (ch, true)
    else (enterState { ch with overload := false, overtemp := false, hot := false }
            (if f.group[groupOfChan c].tripped then .groupOff else .off), false)
  else (ch, false)

/-- ON on one channel (Table 12.7). -/
def onChan (w : Word) (c : Fin 32) (ch : FioChan) : FioChan :=
  let b := onBitOf w c
  let ch := { ch with onBit := b }
  if !ch.cfg.output then ch else match ch.state with
    | .silent => enterState ch (if b then .on else .off)
    | .off => if b then enterState ch .on else ch
    | .on => if b then ch else enterState ch .off
    | .limit => if b then ch else enterState ch .off
    | _ => ch

/-- CLEAR of a release frame over all channels. -/
def frameClear (s : State) (w : Fin 2 → Word) (hot : U32) : State :=
  let f := s.fio
  let r := fun (c : Fin 32) => clearChan f (w (groupOfChan c)) c (hot.getLsbD c.val) f.chan[c]
  let s := { s with fio := { f with chan := Vector.ofFn (fun c => (r c).1) } }
  if (List.finRange 32).any (fun c => (r c).2) then
    { (fioEvent s 7) with fio := { (fioEvent s 7).fio with leftover := true } }
  else s

/-- REARM of a release frame on one group (R379). -/
def frameRearm (s : State) (g : Fin 2) (w : Word) : State :=
  let x := s.fio.group[g]
  if w.getLsbD 16 && x.tripped then
    if x.rearmOk then
      let s := putGroup s g { x with tripped := false, rearmOk := false }
      let f := s.fio
      { s with fio := { f with chan := Vector.ofFn (fun c =>
          if groupOfChan c = g && f.chan[c].state = .groupOff then enterState f.chan[c] .off else f.chan[c]) } }
    else { (fioEvent s 6) with fio := { (fioEvent s 6).fio with leftover := true } }
  else s

/-- The field side applies a release frame: CLEAR, then REARM, then ON (R368, R371). -/
def applyRelease (s : State) (w0 w1 : Word) (hot : U32) : State :=
  let w := fun (g : Fin 2) => if g = 0 then w0 else w1
  let s := { s with fio := { s.fio with leftover := false } }
  let s := frameRearm (frameRearm (frameClear s w hot) 0 w0) 1 w1
  let f := s.fio
  { s with fio := { f with chan := Vector.ofFn (fun c => onChan (w (groupOfChan c)) c f.chan[c]), tssSeen := false } }

/-- The word of a group built from the safe states of its channels (R368). -/
def safeWord (f : Fio) (g : Fin 2) : Word :=
  BitVec.ofNat 64 (bitsNum (((List.finRange 32).filter (fun c => groupOfChan c = g)).map (fun c =>
    f.chan[c].cfg.output && f.chan[c].cfg.safeOn)))

/-- The channels that are at 130 °C or above, as the field side knows them. -/
def hotChans (f : Fio) : U32 := BitVec.ofNat 32 (bitsNum (f.chan.toList.map (·.hot)))

/-- ON bits of a release frame (Table 12.11). -/
def outBits (w0 w1 : Word) : U32 := BitVec.ofNat 32 (w0.toNat % 2 ^ 16 + w1.toNat % 2 ^ 16 * 2 ^ 16)

/-- The logic side sends a release frame at a boundary (R368): released words, or the safe states where the module
releases nothing. -/
def fioRelease (s : State) (released : Bool) : State :=
  let f := s.fio
  let word := fun (g : Fin 2) =>
    if released && f.mapped then BitVec.ofNat 64 (ofLe (releasedBytes s f.word[g] 8)) else safeWord f g
  { s with fio := { f with release := some (word 0, word 1), out := outBits (word 0) (word 1) } }

/-- Every field output takes its safe state at once (R109, Table 15.2). -/
def fioSafe (s : State) : State :=
  let w0 := safeWord s.fio 0
  let w1 := safeWord s.fio 1
  let s := applyRelease s w0 w1 (hotChans s.fio)
  { s with fio := { s.fio with release := none, out := outBits w0 w1 } }

/-- What a boundary does to the block before its release frame: settings reach the field side, and the item count of
the raw image starts again (R382, Table 12.11). -/
def fioBoundary (s : State) : State :=
  let take := fun (c : FioChan) => match c.cfgNext with
    | some n => { c with cfg := { c.cfg with offTest := n.offTest, event := n.event, filter := n.filter }
                         cfgNext := none, openOff := c.openOff && n.offTest }
    | none => c
  { s with fio := { s.fio with chan := s.fio.chan.map take, items := 0 } }

/-- The field I/O signals latched at B(n) (R373, R381, Table 12.8). -/
def latchFio (s : State) : State :=
  let f := s.fio
  if !f.mapped then s
  else
    let x := f.frame
    let bits := fun (v : U32) => (List.range 32).map (fun i => b2n (!f.lost && v.getLsbD i))
    let grp := fun (g : FioGroup) => [b2n g.warn, b2n g.tripped, b2n g.rearmOk]
    rawSetAll s f.signal (bits x.state ++ bits x.overload ++ bits x.openWire ++ bits x.overtemp ++ bits x.extDrive
      ++ grp x.group[0] ++ grp x.group[1] ++ [b2n (f.fieldOk && !f.lost), b2n x.tss, x.group[0].volt.toNat
      , x.group[1].volt.toNat])

/-- FIELD_FRAME (R365): the field side measures both supplies and sends its frame; the logic side receives it. -/
def execFieldFrame (volt0 volt1 : BitVec 14) (s : State) : Host.Outcome State Fault Refusal :=
  let g0 := s.fio.group[0]
  let g1 := s.fio.group[1]
  let s' := putGroup (putGroup s 0 { g0 with volt := volt0 }) 1 { g1 with volt := volt1 }
  always s 10 (if s.dbg.frozen then s' else fieldFrameArrives s')

/-- FIELD_RELEASE_FRAME (R368, R371): the field side applies the release frame on its way; `hot` names the channels
whose junction is at 130 °C or above. -/
def execFieldReleaseFrame (hot : U32) (s : State) : Host.Outcome State Fault Refusal :=
  always s 10 (match s.fio.release with
    | some (w0, w1) => applyRelease { s with fio := { s.fio with release := none } } w0 w1 hot
    | none => s)

/-- INPUT_FILTER_EDGE (R364): the filtered state of a channel changes on the field side. -/
def execInputFilterEdge (ch : Fin 32) (s : State) : Host.Outcome State Fault Refusal :=
  let c := s.fio.chan[ch]
  always s 10 (putChan s ch { c with filtered := !c.filtered })

/-- FIO_CURRENT_LIMIT (Table 12.7): the current limit engages, or the current falls below it. -/
def execFioCurrentLimit (ch : Fin 32) (engaged : Bool) (s : State) : Host.Outcome State Fault Refusal :=
  let c := s.fio.chan[ch]
  always s 10 (
    if c.cfg.output && c.state = .on && engaged then putChan s ch (enterState c .limit)
    else if c.cfg.output && c.state = .limit && !engaged then putChan s ch (enterState c .on)
    else s)

/-- FIO_OVERLOAD (Tables 12.4, 12.7): 2 ms in current limit latch the channel. -/
def execFioOverload (ch : Fin 32) (s : State) : Host.Outcome State Fault Refusal :=
  let c := s.fio.chan[ch]
  always s 10 (
    if c.cfg.output && c.state = .limit then putChan s ch (enterState { c with overload := true } .latched) else s)

/-- FIO_OVERTEMP (Tables 12.4, 12.7): the junction reaches 150 °C. -/
def execFioOvertemp (ch : Fin 32) (s : State) : Host.Outcome State Fault Refusal :=
  let c := s.fio.chan[ch]
  always s 10 (
    if c.cfg.output then putChan s ch (enterState { c with overtemp := true, hot := true } .latched) else s)

/-- OPEN_WIRE_ON (Table 12.4): the load current of an output that is ON has been below 2 mA for 10 ms, or at least
2 mA again. -/
def execOpenWireOn (ch : Fin 32) (low : Bool) (s : State) : Host.Outcome State Fault Refusal :=
  let c := s.fio.chan[ch]
  always s 10 (if chanClosed c then putChan s ch { c with openOn := low } else s)

/-- OPEN_WIRE_OFF (Table 12.4): the pin of an output that is off has been above 3 V for 10 ms under the test source,
or is at or below it again. -/
def execOpenWireOff (ch : Fin 32) (high : Bool) (s : State) : Host.Outcome State Fault Refusal :=
  let c := s.fio.chan[ch]
  always s 10 (
    if !high then putChan s ch { c with openOff := false }
    else if c.cfg.output && c.cfg.offTest && !chanClosed c then putChan s ch { c with openOff := true }
    else s)

/-- EXT_DRIVE (Table 12.4): the unfiltered comparator of an output that is off has read ON for 1 ms, or OFF for
1 ms. -/
def execExtDrive (ch : Fin 32) (driven : Bool) (s : State) : Host.Outcome State Fault Refusal :=
  let c := s.fio.chan[ch]
  always s 10 (
    if !driven then putChan s ch { c with extDrive := false }
    else if c.cfg.output && !chanClosed c then putChan s ch { c with extDrive := true }
    else s)

/-- FIELD_HB_LOST (R373): no valid frame for 50 µs, five frames of the 10 µs rhythm. -/
def execFieldHbLost (s : State) : Host.Outcome State Fault Refusal :=
  let s' := fioEvent { s with fio := { s.fio with lost := true, fieldOk := false
                                                  framesLost := satAdd s.fio.framesLost 5 } } 9
  live s 10 (recordBit s' 9 0x2C 9 s'.fio.event.toNat 0xFF [])

/-- FIELD_HB_RETURN (R373): valid frames have arrived again for 1 ms. -/
def execFieldHbReturn (s : State) : Host.Outcome State Fault Refusal :=
  live s 10 { s with fio := { s.fio with lost := false, fieldOk := true } }

/-- The silence timeout on one channel (Table 12.7). -/
def silence (c : FioChan) : FioChan :=
  if !c.cfg.output then c else match c.state with
    | .on => enterState c .silent
    | .limit => enterState c .silent
    | .off => enterState c .silent
    | _ => c

/-- TSS_TIMEOUT (R374, R375): the field side has received no valid release frame for T_SS. -/
def execTssTimeout (s : State) : Host.Outcome State Fault Refusal :=
  always s 10 { s with fio := { s.fio with chan := s.fio.chan.map silence, tssSeen := true } }

/-- SUPPLY_WARN (R378): the supply has been below 0.77 Un for 1 ms, or at or above it for 100 ms. -/
def execSupplyWarn (group : Fin 2) (low : Bool) (s : State) : Host.Outcome State Fault Refusal :=
  let g := s.fio.group[group]
  always s 10 (putGroup s group { g with warn := low })

/-- SUPPLY_TRIP (R378): 200 µs below 0.6 Un open every output of the group. -/
def execSupplyTrip (group : Fin 2) (s : State) : Host.Outcome State Fault Refusal :=
  let g := s.fio.group[group]
  let f := (putGroup s group { g with tripped := true, rearmOk := false }).fio
  always s 10 { s with fio := { f with chan := Vector.ofFn (fun c =>
    if groupOfChan c = group && f.chan[c].cfg.output && f.chan[c].state != .latched then
      enterState f.chan[c] .groupOff
    else f.chan[c]) } }

/-- REARM_PERMIT (R378): since the last trip the supply has been at least 0.7 Un for 100 ms, or it dips below. -/
def execRearmPermit (group : Fin 2) (dip : Bool) (s : State) : Host.Outcome State Fault Refusal :=
  let g := s.fio.group[group]
  always s 10 (
    if dip then putGroup s group { g with rearmOk := false }
    else if g.tripped then putGroup s group { g with rearmOk := true } else s)

end Sys2Proof.Machine
end

