-- ==== Sys2Proof/Machine/Frames.lean ====
section
/-! DEFINITION. Ethernet, IPv4, UDP and TRDP frames as bytes, and the transmit queues of the Ethernet ports (chapter 9). The
layouts of the headers are those of the named standards (log entry 36). -/

namespace Sys2Proof.Machine

open Sys2Proof

/-- Sets a bit of PKT_EVENT. -/
def pktEvent (s : State) (bit : Nat) : State :=
  { s with pkt := { s.pkt with event := setBit s.pkt.event bit } }

/-- The state with an Ethernet port replaced. -/
def putPort (s : State) (p : Fin 4) (x : EthPort) : State :=
  { s with pkt := { s.pkt with port := s.pkt.port.set p.val x } }

/-- A frame dropped on a port is counted in RX_DROP. -/
def rxDrop (s : State) (p : Fin 4) : State :=
  putPort s p { s.pkt.port[p] with rxDrop := satInc s.pkt.port[p].rxDrop }

/-- CRC-32 of IEEE 802.3, as of the frame check sequence and the TRDP header FCS. -/
def crc32 (bs : List Byte) : Nat := Nat.xor (algFeed 1 0xFFFFFFFF bs) 0xFFFFFFFF

/-- A big-endian field. -/
def beAt (bs : List Byte) (off n : Nat) : Nat := ofBe (slice bs off n)

/-- The sum of big-endian 16-bit words of an IPv4 or UDP checksum. -/
def inetSum : List Byte → Nat
  | a :: b :: r => a.toNat * 256 + b.toNat + inetSum r
  | [a] => a.toNat * 256
  | [] => 0

/-- A sum folded to 16 bits with end-around carry. -/
def inetFold (n : Nat) : Nat :=
  let a := n % 65536 + n / 65536
  let b := a % 65536 + a / 65536
  b % 65536 + b / 65536

/-- The checksum of a byte string whose checksum field is 0. -/
def inetCheck (bs : List Byte) : Nat := 0xFFFF - inetFold (inetSum bs)

/-- A frame taken apart: addresses, VLAN tag, R-TAG, ethertype and payload. -/
structure EthView where
  dst : Nat
  src : Nat
  tci : Option Nat
  rtag : Option Nat
  type : Nat
  body : List Byte

/-- A frame without its FCS, taken apart. -/
def ethView (f : List Byte) : EthView :=
  let vlan := beAt f 12 2 == 0x8100
  let o := if vlan then 16 else 12
  let tag := beAt f o 2 == 0xF1C1
  let o2 := if tag then o + 6 else o
  { dst := beAt f 0 6, src := beAt f 6 6, tci := if vlan then some (beAt f 14 2) else none
    rtag := if tag then some (beAt f (o + 4) 2) else none, type := beAt f o2 2, body := f.drop (o2 + 2) }

/-- VID and PCP of a frame that arrived on a port: an untagged frame takes the port's defaults (Table 9.2), and a tag with VID 0
gives no VID. -/
def EthView.vid (v : EthView) (x : EthPort) : Nat := match v.tci with
  | some t => if t % 4096 = 0 then x.defVid else t % 4096
  | none => x.defVid

/-- See `EthView.vid`. -/
def EthView.pcp (v : EthView) (x : EthPort) : Nat := match v.tci with
  | some t => t / 8192
  | none => x.defPcp

/-- An IPv4 packet taken apart. -/
structure IpView where
  src : U32
  dst : U32
  proto : Nat
  /-- Header intact: version 4 and checksum correct. -/
  ok : Bool
  fragment : Bool
  body : List Byte

/-- An IPv4 packet, if the frame carries one. -/
def ipView (v : EthView) : Option IpView :=
  if v.type = 0x0800 then
    let b := v.body
    let hl := 4 * (u8' b 0 % 16)
    some { src := BitVec.ofNat 32 (beAt b 12 4), dst := BitVec.ofNat 32 (beAt b 16 4), proto := u8' b 9
           ok := u8' b 0 / 16 == 4 && decide (20 ≤ hl) && inetFold (inetSum (b.take hl)) == 0xFFFF
           fragment := beAt b 6 2 % 0x4000 != 0, body := (b.take (beAt b 2 2)).drop hl }
  else none
where
  /-- A byte. -/
  u8' (b : List Byte) (o : Nat) : Nat := leAt b o 1

/-- A UDP datagram taken apart. -/
structure UdpView where
  src : Nat
  dst : Nat
  ok : Bool
  data : List Byte

/-- The UDP checksum over the pseudo-header. -/
def udpSum (src dst : U32) (udp : List Byte) : Nat :=
  inetSum (beBytes 4 src.toNat ++ beBytes 4 dst.toNat ++ [0, 17] ++ beBytes 2 udp.length) + inetSum udp

/-- A UDP datagram, if the packet carries one whole. -/
def udpView (p : IpView) : Option UdpView :=
  if p.proto = 17 && !p.fragment then
    let u := p.body.take (beAt p.body 4 2)
    let ck := beAt u 6 2
    some { src := beAt u 0 2, dst := beAt u 2 2, data := u.drop 8
           ok := p.ok && (ck == 0 || inetFold (udpSum p.src p.dst u) == 0xFFFF) }
  else none

/-- Fields of a TRDP PD header (R301). -/
structure PdView where
  seq : Nat
  pull : Bool
  comId : Nat
  etb : Nat
  optrn : Nat
  data : List Byte

/-- A TRDP PD telegram whose header FCS is correct and whose msgType is "Pd" or "Pr" (R304). -/
def pdView (u : UdpView) : Option PdView :=
  let d := u.data
  let t := beAt d 6 2
  if u.dst = 17224 && u.ok && decide (40 ≤ d.length) && leAt d 36 4 == crc32 (d.take 36)
      && (t == 0x5064 || t == 0x5072) then
    some { seq := beAt d 0 4, pull := t == 0x5072, comId := beAt d 8 4, etb := beAt d 12 4, optrn := beAt d 16 4
           data := (d.drop 40).take (beAt d 20 4) }
  else none

/-- The MAC address of an IPv4 destination: the group address of a multicast, or what ARP has resolved. -/
def macFor (ip : U32) : Nat :=
  if ip.toNat / 2 ^ 28 = 0xE then 0x01005E000000 + ip.toNat % 2 ^ 23 else Config.arpMac ip % 2 ^ 48

/-- An Ethernet frame without FCS, tagged when `tci` is given, with an R-TAG when `rtag` is given. -/
def ethFrame (dst src : Nat) (tci rtag : Option Nat) (type : Nat) (body : List Byte) : List Byte :=
  beBytes 6 dst ++ beBytes 6 src
    ++ (match tci with | some t => beBytes 2 0x8100 ++ beBytes 2 t | none => [])
    ++ (match rtag with | some q => beBytes 2 0xF1C1 ++ zeros 2 ++ beBytes 2 q | none => [])
    ++ beBytes 2 type ++ body

/-- An IPv4 packet that the module builds. -/
def ipPacket (src dst : U32) (proto : Nat) (body : List Byte) : List Byte :=
  let h := fun (ck : Nat) => [0x45, Config.ipTos] ++ beBytes 2 (20 + body.length) ++ beBytes 2 Config.ipIdent.toNat
    ++ zeros 2 ++ [Config.ipTtl, BitVec.ofNat 8 proto] ++ beBytes 2 ck ++ beBytes 4 src.toNat ++ beBytes 4 dst.toNat
  h (inetCheck (h 0)) ++ body

/-- A UDP datagram that the module builds. -/
def udpPacket (src dst : U32) (sp dp : Nat) (data : List Byte) : List Byte :=
  let u := fun (ck : Nat) => beBytes 2 sp ++ beBytes 2 dp ++ beBytes 2 (8 + data.length) ++ beBytes 2 ck ++ data
  let ck := 0xFFFF - inetFold (udpSum src dst (u 0))
  ipPacket src dst 17 (u (if ck = 0 then 0xFFFF else ck))

/-- A TRDP PD telegram (R301): replyComId and replyIpAddress 0, header FCS. -/
def pdTelegram (seq comId etb optrn : Nat) (data : List Byte) : List Byte :=
  let h := beBytes 4 seq ++ beBytes 2 Config.trdpVersion.toNat ++ beBytes 2 0x5064 ++ beBytes 4 comId ++ beBytes 4 etb
    ++ beBytes 4 optrn ++ beBytes 4 data.length ++ zeros 12
  h ++ leBytes 4 (crc32 h) ++ data

/-- The port may send and receive: enabled, powered and with a link (R294, Table 9.12). -/
def portUp (x : EthPort) : Bool := x.en && !x.shed && decide (2 ≤ x.link.toNat)

/-- A port takes frames to send: it is enabled and powered. -/
def portTakes (x : EthPort) : Bool := x.en && !x.shed

/-- A frame enqueued on a port (R301). -/
def enqueue (s : State) (p : Fin 4) (q : Nat) (f : EthFrame) : State :=
  let x := s.pkt.port[p]
  if portTakes x then
    let i := q % 8
    putPort s p { x with queue := x.queue.set i (x.queue[i]'(Nat.mod_lt _ (by decide)) ++ [f]) (Nat.mod_lt _ (by decide)) }
  else s

/-- The ports of a mask in ascending order. -/
def maskPorts (m : Nat) : List (Fin 4) := (List.finRange 4).filter (fun p => bitOf m p.val)

end Sys2Proof.Machine
end

