-- ==== Sys2Proof/Machine/MboxOps.lean ====
section
/-! DEFINITION. Doorbells, slots and events of the mailbox pairs (chapter 7). -/

namespace Sys2Proof.Machine

open Sys2Proof

/-- A mailbox pair by number; a number above 23 gives an idle pair. -/
def pairAt (s : State) (i : Nat) : MailPair := (s.mbox.pair[i]?).getD MailPair.reset

/-- The state with a pair replaced. -/
def putPair (s : State) (i : Nat) (p : MailPair) : State :=
  { s with mbox := { s.mbox with pair := s.mbox.pair.setIfInBounds i p } }

/-- Sets a bit of MBOX_EVENT. -/
def mboxEvent (s : State) (bit : Nat) : State :=
  { s with mbox := { s.mbox with event := setBit s.mbox.event bit } }

/-- The request of a pair is withdrawn (Table 7.4). -/
def mboxWithdraw (s : State) (i : Nat) : State := putPair s i { pairAt s i with state := .idle }

/-- A doorbell or an arriving request that finds the mailbox occupied is ignored and counted (Table 7.4). -/
def mboxIgnored (s : State) (i : Nat) : State :=
  let p := pairAt s i
  mboxEvent (putPair s i { p with dbIgnored := satInc p.dbIgnored }) 1

/-- The doorbell of lane pair MB(2L) (R245, Table 7.4): IDLE and DONE become ARMED, any other state stays. A ring
of MB(2L+1), which is never served (Table 7.9), and of pairs 16 and above does nothing (log entry 22). -/
def mboxRing (s : State) (i : Nat) : State :=
  if i < 16 && i % 2 == 0 then
    let p := pairAt s i
    match p.state with
    | .idle => putPair s i { p with state := .armed, wasDone := false }
    | .done => putPair s i { p with state := .armed, wasDone := true }
    | _ => mboxIgnored s i
  else s

/-- A write of MB_i_DB (Table 7.12): ABORT withdraws an ARMED or PENDING request, and in table order decides
before RING (R239). -/
def mboxDoorbell (s : State) (i : Nat) (data : U32) : State :=
  let p := pairAt s i
  if data.getLsbD 1 && (p.state = .armed || p.state = .pending) then mboxWithdraw s i
  else if data.getLsbD 0 then mboxRing s i
  else s

/-- A store of lane `l` to its own offsets of the MBOX block (R258): its request slot of MB(2L) and the doorbells;
every other own offset ignores it. -/
def mboxStore (s : State) (l : LaneId) (o size : Nat) (v : Word) : State :=
  let i := 2 * l.val
  if o / 0x400 = i && o < 0x8000 then
    if o % 0x400 < 0x200 then
      let p := pairAt s i
      putPair s i { p with req := memPutLe p.req (o % 0x400) size v.toNat }
    else s
  else if 0x8000 ≤ o && o % 0x10 == 0 then mboxDoorbell s ((o - 0x8000) / 0x10) (v.extractLsb' 0 32)
  else s

end Sys2Proof.Machine
end

