-- ==== Sys2Proof/Machine/MbService.lean ====
section
/-! DEFINITION. The mailbox service: arriving requests, the order of service, the request checks, responses, repeats,
segmented transfers, long commands and event notices (chapter 7, R239 to R268). -/

namespace Sys2Proof.Machine

open Sys2Proof

/-- A request as its slot holds it (Table 7.5). -/
structure Request where
  level : Nat
  flags : Nat
  command : Nat
  tag : Nat
  length : Nat
  status : Nat
  reserved : Nat
  crc : Nat
  payload : List Byte
  crcOk : Bool
  /-- PAYLOAD_LEN is consistent with the transport (R242). -/
  lengthOk : Bool
deriving DecidableEq, Repr

/-- CRC of a message (Table 7.5): bytes 0 to 11, then the payload. -/
def messageCrc (head payload : List Byte) : Nat := (crc32c (head ++ payload)).toNat

/-- The message that stands in the request slot of a pair: the slot for a lane pair, otherwise as received. -/
def messageOf (s : State) (i : Nat) : List Byte :=
  let p := pairAt s i
  if i < 16 then memBytes p.req 0 512 else p.rx

/-- A message read as a request. -/
def parseRequest (i : Nat) (m : List Byte) : Request :=
  let n := leAt m 6 2
  let body := (m.drop 16).take n
  { level := leAt m 0 1, flags := leAt m 1 1, command := leAt m 2 2, tag := leAt m 4 2, length := n
    status := leAt m 8 2, reserved := leAt m 10 2, crc := leAt m 12 4, payload := body
    crcOk := messageCrc (fit 12 m) body == leAt m 12 4
    lengthOk := decide (n ≤ 496) && (i < 16 || m.length == 16 + n) }

/-- The request of a pair. -/
def requestOf (s : State) (i : Nat) : Request := parseRequest i (messageOf s i)

/-- What a command answers: a status of Table 7.6, its DETAIL and a payload. -/
structure Answer where
  status : Nat
  detail : Nat
  payload : List Byte
deriving DecidableEq, Repr

/-- OK with a payload. -/
def okWith (p : List Byte) : Answer := ⟨0, 0, p⟩

/-- OK without a payload. -/
def okEmpty : Answer := ⟨0, 0, []⟩

/-- A status without payload. -/
def failWith (status : Nat) : Answer := ⟨status, 0, []⟩

/-- A status with DETAIL. -/
def failDetail (status detail : Nat) : Answer := ⟨status, detail, []⟩

/-- BUSY. -/
def stBusy : Nat := 1
/-- UNKNOWN_COMMAND. -/
def stUnknown : Nat := 2
/-- BAD_LENGTH. -/
def stLength : Nat := 3
/-- BAD_PARAM. -/
def stParam : Nat := 4
/-- NOT_PERMITTED. -/
def stPermit : Nat := 5
/-- LOCKED. -/
def stLocked : Nat := 6
/-- VERSION. -/
def stVersion : Nat := 7
/-- TIMEOUT. -/
def stTimeout : Nat := 8
/-- HW_FAULT. -/
def stHwFault : Nat := 9
/-- CRC. -/
def stCrc : Nat := 10

/-- What a group fixes for a command: its code and level, the mailboxes that accept it, whether it is segmented, and
the payload lengths it takes. -/
structure CmdSpec where
  code : Nat
  level : Nat
  accept : Nat → Bool
  segmented : Bool
  lengthOk : Nat → Bool

/-- Mailboxes that accept reads (Table 7.9). -/
def onReads (i : Nat) : Bool := decide (16 ≤ i) || i % 2 == 0

/-- Mailboxes that accept commands that change state (Table 7.9). -/
def onChanges (i : Nat) : Bool := decide (16 ≤ i) && decide (i ≤ 21)

/-- A payload of exactly `n` bytes. -/
def lenIs (n : Nat) (k : Nat) : Bool := k == n

/-- A read command of Table 7.9 with a payload of `n` bytes. -/
def readCmd (code level n : Nat) : CmdSpec := ⟨code, level, onReads, false, lenIs n⟩

/-- A state-changing command of Table 7.9 with a payload of `n` bytes. -/
def changeCmd (code level n : Nat) : CmdSpec := ⟨code, level, onChanges, false, lenIs n⟩

/-- MBOX_CFG.LEVEL_MAX as it acts (Table 7.12). -/
def levelCap (s : State) : Nat :=
  let v := s.mbox.levelMax.toNat
  if v = 0 || 4 < v then 4 else v

/-- The pair is bound (R243, R244): a sibling pair while its link is UP. -/
def pairBound (s : State) (i : Nat) : Bool :=
  if i = 22 then s.weft.a.state = .up else if i = 23 then s.weft.b.state = .up else (pairAt s i).bound.isSome

/-- Selvedge, or in recovery mode the loader, serves mailboxes (R233, R236, R259). -/
def selvedgeRuns (s : State) : Bool := running s 1 && !s.mbox.failed && !s.boot.noStart

/-- The pair is served: in recovery mode only MB16 to MB21 (R259). -/
def servesPair (s : State) (i : Nat) : Bool := selvedgeRuns s && (!s.boot.recovery || onChanges i)

/-- The lowest PENDING pair with an index from `lo` on. -/
def pendingFrom (s : State) (lo : Nat) : Option Nat :=
  (List.range 24).find? (fun i => decide (lo ≤ i) && (pairAt s i).state == .pending && servesPair s i)

/-- The pair whose turn it is (R250). -/
def mboxTurn (s : State) : Option Nat := match pendingFrom s s.mbox.roundPos with
  | some i => some i
  | none => pendingFrom s 0

/-- Selvedge starts on the request of a pair: SERVING, and the round moves past it. A round ends when no PENDING
request lies ahead of it (R250, log entry 30). -/
def beginService (s : State) (i : Nat) : State :=
  let ended := decide (i < s.mbox.roundPos)
  let s := putPair s i { pairAt s i with state := .serving }
  let s := { s with mbox := { s.mbox with rounds := if ended then s.mbox.rounds + 1 else s.mbox.rounds
                                          roundPos := i + 1 } }
  match pendingFrom s (i + 1) with
  | some _ => s
  | none => { s with mbox := { s.mbox with rounds := s.mbox.rounds + 1, roundPos := 0 } }

/-- MORE is allowed on a request (R253). -/
def moreAllowed (s : State) (i : Nat) (segmented : Bool) : Bool :=
  segmented && decide (16 ≤ i) && decide (3 ≤ (pairAt s i).level.toNat)

/-- Checks 1 to 4 of Table 7.8. A request's STATUS field counts as a reserved field that must be 0 (log entry 31). -/
def headerCheck (s : State) (i : Nat) (r : Request) (hello segmented : Bool) : Option Nat :=
  if !r.crcOk then some stCrc
  else if !r.lengthOk then some stLength
  else if !(if hello then decide (1 ≤ r.level) && decide (r.level ≤ 4) else r.level == (pairAt s i).level.toNat) then
    some stVersion
  else if bitOf r.flags 0 || bitOf r.flags 2 || r.flags / 8 != 0 || r.status != 0 || r.reserved != 0
      || (bitOf r.flags 1 && !moreAllowed s i segmented) then some stParam
  else none

/-- Checks 6 and 7 of Table 7.8, and R259: in recovery mode the system and update groups alone. -/
def commandCheck (s : State) (i : Nat) (c : CmdSpec) : Option Nat :=
  if c.level > (pairAt s i).level.toNat then some stVersion
  else if s.boot.recovery && c.code / 256 != 1 && c.code / 256 != 0x0B then some stPermit
  else if !c.accept i then some stPermit
  else none

/-- A message: header and payload (Table 7.5). -/
def messageBytes (level flags command tag status detail : Nat) (payload : List Byte) : List Byte :=
  let head := [BitVec.ofNat 8 level, BitVec.ofNat 8 flags] ++ leBytes 2 command ++ leBytes 2 tag
    ++ leBytes 2 payload.length ++ [BitVec.ofNat 8 status, BitVec.ofNat 8 detail] ++ zeros 2
  head ++ leBytes 4 (messageCrc head payload) ++ payload

/-- A slot that holds a message, padded with zeros (log entry 32). -/
def slotOf (m : List Byte) : Mem := memWrite [] 0 m

/-- A datagram of a network or service pair (R242, R243): to the bound address, or before a binding to the requester. It leaves
tagged on the management VLAN, on the port on which the request came, or untagged on SVC (log entry 107). -/
def mboxDatagram (s : State) (i : Nat) (m : List Byte) : State :=
  let p := pairAt s i
  match p.bound.orElse (fun _ => p.src) with
  | none => s
  | some a =>
    let s := putPair s i { p with sentTo := some a }
    let frame := fun (mac : Nat) (tci : Option Nat) (src : U32) =>
      ethFrame (macFor a.ip) mac tci none 0x0800 (udpPacket src a.ip (50100 + i) a.port.toNat m)
    if i < 20 then match p.rxPort with
      | some k => enqueue s k 0 ⟨frame (Config.portMac k.val % 2 ^ 48) (some s.pkt.mgmtVid.toNat) s.pkt.mgmtIp, none, none⟩
      | none => s
    else { s with pkt := { s.pkt with svcSent := s.pkt.svcSent ++ [frame (Config.portMac 4 % 2 ^ 48) none s.pkt.svcIp] } }

/-- A message leaves on the transport of a pair: a datagram on MB16 to MB21 (R242), a Weft MAILBOX frame on MB22 and
MB23 while the link is UP (R244). -/
def mboxSend (s : State) (i : Nat) (m : List Byte) : State :=
  let s := putPair s i { pairAt s i with lastSent := m }
  if i < 22 then mboxDatagram s i m
  else if i = 22 then (if s.weft.a.state = .up then sendSide s .a 0x40 m else s)
  else if i = 23 then (if s.weft.b.state = .up then sendSide s .b 0x40 m else s)
  else s

/-- A mailbox delivery item (Table 7.7) for the raw input image (R246). -/
def deliverItem (s : State) (i kind source : Nat) (m : List Byte) : State :=
  let body := [BitVec.ofNat 8 i, BitVec.ofNat 8 kind, BitVec.ofNat 8 source, 0] ++ leBytes 2 m.length ++ zeros 2 ++ m
  queueItem (putPair s i { pairAt s i with undelivered := true, latched := false }) (tb2 s) 6 i body id

/-- The response of a pair is complete (R241, Table 7.4): it is written, counted, and sent or delivered. A request
that failed its CRC is echoed with LEVEL as received. -/
def respond (s : State) (i : Nat) (r : Request) (a : Answer) : State :=
  let p := pairAt s i
  let level := if a.status = stCrc then r.level else p.level.toNat
  let m := messageBytes level 1 r.command r.tag a.status (if p.level.toNat ≤ 1 then 0 else a.detail) a.payload
  let p := { p with state := .done, rsp := slotOf m, served := satInc p.served, lastTag := BitVec.ofNat 16 r.tag
                    lastServed := some (r.command, r.tag, r.crc), job := none
                    busyCnt := if a.status = stBusy then satInc p.busyCnt else p.busyCnt
                    crcErr := if a.status = stCrc then satInc p.crcErr else p.crcErr }
  let s := putPair s i p
  let s := if a.status = stCrc then mboxEvent s 0 else s
  if i < 16 then deliverItem s i 1 i m else mboxSend s i m

/-- The commands of the groups that have a meaning of their own (Table 7.10 and the groups' tables). -/
def definedCommand (c : Nat) : Bool :=
  let lo := c % 256
  match c / 256 with
  | 0x01 => decide (lo ≤ 0x09)
  | 0x02 => decide (lo ≤ 0x05)
  | 0x03 => decide (lo ≤ 0x04) || (decide (0x20 ≤ lo) && decide (lo ≤ 0x27))
  | 0x04 => decide (lo ≤ 0x08)
  | 0x05 => decide (lo ≤ 0x09) || (decide (0x10 ≤ lo) && decide (lo ≤ 0x15))
  | 0x06 => decide (lo ≤ 0x06)
  | 0x07 => decide (lo ≤ 0x04)
  | 0x08 => decide (lo ≤ 0x05)
  | 0x09 => decide (lo ≤ 0x04)
  | 0x0A => decide (lo ≤ 0x03)
  | 0x0B => decide (lo ≤ 0x04)
  | 0x0C => decide (lo ≤ 0x07)
  | 0x0D => decide (lo ≤ 0x05)
  | _ => false

/-- A transfer is closed early (R253): the buffer is discarded and TRANSFER_DISCARD is set. -/
def discardXfer (s : State) (i : Nat) : State :=
  mboxEvent (putPair s i { pairAt s i with xfer := none }) 5

/-- The open transfer of a pair goes on with this request. -/
def sameXfer (s : State) (i : Nat) (r : Request) : Option Transfer := match (pairAt s i).xfer with
  | some x => if x.command = r.command && x.tag = r.tag then some x else none
  | none => none

/-- A request with another COMMAND or TAG closes an open transfer (R253). -/
def closeOther (s : State) (i : Nat) (r : Request) : State :=
  if (pairAt s i).xfer.isSome && (sameXfer s i r).isNone then discardXfer s i else s

/-- The answer to a request whose code has no command of its own: UNKNOWN_COMMAND, and BAD_PARAM for the code of an
event notice (R259, R260). -/
def answerUnknown (s : State) (i : Nat) : State :=
  let r := requestOf s i
  let st := match headerCheck s i r false false with
    | some st => st
    | none => if r.command = 0x01FF then stParam else stUnknown
  respond (closeOther (beginService s i) i r) i r (failWith st)

/-- The stored response of a pair. -/
def storedResponse (p : MailPair) : List Byte := memBytes p.rsp 0 (16 + min 496 (memLe p.rsp 6 2))

/-- A lane's request in its turn is the last one again, and the pair was DONE when it rang (R254). -/
def laneRepeats (s : State) (i : Nat) : Bool :=
  let r := requestOf s i
  decide (i < 16) && (pairAt s i).wasDone && (pairAt s i).lastServed == some (r.command, r.tag, r.crc)

/-- A repeated request of a lane: the stored response is sent again, and counted (R254). -/
def repeatLane (s : State) (i : Nat) : State :=
  let s := beginService s i
  let p := pairAt s i
  deliverItem (putPair s i { p with state := .done, served := satInc p.served, repeats := satInc p.repeats }) i 1 i
    (storedResponse p)

/-- Requests at the front of the round that repeat the last one, or whose code is not defined, are answered as their turn
comes. -/
def mboxAutoN : Nat → State → State
  | 0, s => s
  | k + 1, s => match mboxTurn s with
    | some i =>
      if laneRepeats s i then mboxAutoN k (repeatLane s i)
      else if definedCommand (requestOf s i).command then s else mboxAutoN k (answerUnknown s i)
    | none => s

/-- As `mboxAutoN`, for every pair. -/
def mboxAuto (s : State) : State := mboxAutoN 24 s

/-- What a command does: its effect on the state and its answer, or none while it runs on as a long command (R252). -/
abbrev Body := State → List Byte → State × Option Answer

/-- A command executes on its whole payload (checks 8 to 12 of Table 7.8 lie in `lengthOk` and in the body). -/
def runBody (s : State) (i : Nat) (r : Request) (c : CmdSpec) (payload : List Byte) (body : Body) : State :=
  if !c.lengthOk payload.length then respond s i r (failWith stLength)
  else match body s payload with
    | (s, some a) => respond s i r a
    | (s, none) => putPair s i { pairAt s i with job := some ⟨c.code, payload⟩ }

/-- A request of a segmented command (R253). -/
def runSegment (s : State) (i : Nat) (r : Request) (c : CmdSpec) (body : Body) : State :=
  let open' := sameXfer s i r
  let whole := ((open'.map (·.bytes)).getD []) ++ r.payload
  if 65536 < whole.length then
    let s := if open'.isSome then discardXfer s i else s
    respond s i r (failWith stLength)
  else if bitOf r.flags 1 then
    respond (putPair s i { pairAt s i with xfer := some ⟨r.command, r.tag, whole⟩ }) i r okEmpty
  else runBody (putPair s i { pairAt s i with xfer := none }) i r c whole body

/-- A request in service: the checks of Table 7.8 in order, then the command (R249). -/
def runRequest (s : State) (i : Nat) (r : Request) (c : CmdSpec) (body : Body) : State :=
  let s := closeOther s i r
  match headerCheck s i r (c.code == 0x0100) c.segmented with
  | some st => respond s i r (failWith st)
  | none =>
    match commandCheck s i c with
    | some st => respond s i r (failWith st)
    | none => if c.segmented then runSegment s i r c body else runBody s i r c r.payload body

/-- The service of a command by its turn (R250): nothing happens unless the pair's turn has come and its request
carries the command's code. -/
def serve (s : State) (pair : PairId) (c : CmdSpec) (body : Body) : Host.Outcome State Fault Refusal :=
  let i := pair.val
  let r := requestOf s i
  .next (if mboxTurn s = some i && r.command == c.code then
      mboxAuto (runRequest (beginService s i) i r c body)
    else s)

/-- A command that reads and changes nothing. -/
def reads (f : State → List Byte → Answer) : Body := fun s p => (s, some (f s p))

/-- A long command of a pair is answered (R252): its body's result is written and sent. -/
def finishLong (s : State) (i : Nat) (a : Answer) : State :=
  if (pairAt s i).state = .serving then mboxAuto (respond s i (requestOf s i) a) else s

/-- A pair's subscription ends (R265). A notice that was held is dropped, and counted (R268). -/
def endSubs (s : State) (i : Nat) : State :=
  let p := pairAt s i
  let t := putPair s i { p with subs := 0, notice := none
                                noticeLost := if p.notice.isSome then satInc p.noticeLost else p.noticeLost }
  if p.notice.isSome then mboxEvent t 4 else t

/-- An event-notice message (Table 7.26, R266). -/
def noticeBytes (p : MailPair) (n : Notice) : List Byte :=
  messageBytes p.level.toNat 5 0x01FF p.noticeCnt.toNat 0 0
    ([BitVec.ofNat 8 n.group, BitVec.ofNat 8 n.code] ++ leBytes 2 p.noticeLost.toNat ++ leBytes 8 n.epoch.toNat
      ++ fit 16 n.data)

/-- A pair may send notices now (R267). -/
def noticeRate (s : State) (p : MailPair) : Bool := match p.lastNotice with
  | some t => decide (t + 1000000 ≤ tb3 s)
  | none => true

/-- A notice goes out on a pair (R266, R267). -/
def sendNotice (s : State) (i : Nat) (n : Notice) : State :=
  let p := pairAt s i
  let s := mboxSend s i (noticeBytes p n)
  putPair s i { pairAt s i with noticeCnt := p.noticeCnt + 1, notice := none, noticeLost := 0, lastNotice := some (tb3 s) }

/-- A notice for one pair: sent at once, or held as the newest unsent one (R268). -/
def offerNotice (s : State) (i : Nat) (n : Notice) : State :=
  let p := pairAt s i
  if !(p.level == 4 && p.bound.isSome && p.subs.getLsbD (n.group - 1)) then s
  else if p.notice.isNone && noticeRate s p then sendNotice s i n
  else
    let s := putPair s i { p with notice := some n
                                  noticeLost := if p.notice.isSome then satInc p.noticeLost else p.noticeLost }
    if p.notice.isSome then mboxEvent s 4 else s

/-- A notice of a group for every subscriber on MB16 to MB21 (R265, R267). -/
def postNotice (s : State) (group code : Nat) (data : List Byte) : State :=
  [16, 17, 18, 19, 20, 21].foldl (fun s i => offerNotice s i ⟨group, code, s.epoch.no, data⟩) s

/-- EVENT_NOTICE (R268): a held notice is sent once the pair's rate permits. -/
def execEventNotice (pair : PairId) (s : State) : Host.Outcome State Fault Refusal :=
  let p := pairAt s pair.val
  .next (match p.notice with
    | some n => if selvedgeRuns s && noticeRate s p then sendNotice s pair.val n else s
    | none => s)

/-- A command record (code 0xFF09): HELLO, SYS_RESTART, a change set, a debug lock or unlock. -/
def recordCommand (s : State) (i status detail command tag : Nat) : State :=
  record s 0x10 0xFF09 0xFF
    ([BitVec.ofNat 8 i, BitVec.ofNat 8 status, BitVec.ofNat 8 detail, 0] ++ leBytes 2 command ++ leBytes 2 tag)

/-- A dropped datagram is counted (R242, R243). -/
def dropDatagram (s : State) (i : Nat) (reject : Bool) : State :=
  let p := pairAt s i
  let s := putPair s i { p with crcErr := satInc p.crcErr }
  if reject then mboxEvent s 3 else s

/-- Who may use a pair (R243, R244): the bound address; a HELLO where the pair is unbound or has been silent for
BIND_IDLE seconds; on a sibling pair, any frame while the link is UP. -/
def admits (s : State) (i : Nat) (src : NetAddr) (m : List Byte) : Bool :=
  let p := pairAt s i
  let hello := leAt m 2 2 == 0x0100
  if 22 ≤ i then pairBound s i
  else match p.bound with
    | none => hello
    | some b => b == src || (hello && decide (p.lastReq + s.mbox.bindIdle.toNat * 1000000000 ≤ tb3 s))

/-- A message is a repeat of the last request served on a DONE pair (R254), from its own requester. -/
def isRepeat (p : MailPair) (i : Nat) (src : NetAddr) (m : List Byte) : Bool :=
  p.state == .done && (decide (22 ≤ i) || p.src == some src)
    && p.lastServed == some (leAt m 2 2, leAt m 4 2, leAt m 12 4)

/-- A request message arrives on MB16 to MB23 (R239, R242 to R244, R254). -/
def mboxArrive (s : State) (i : Nat) (src : NetAddr) (port : Option (Fin 4)) (m : List Byte) : State :=
  if m.length < 16 then dropDatagram s i false
  else if !admits s i src m then dropDatagram s i (decide (i < 22))
  else
    let p := pairAt s i
    let s := if i < 22 && p.bound == some src then putPair s i { p with lastReq := tb3 s } else s
    let p := pairAt s i
    if isRepeat p i src m then
      mboxSend (putPair s i { p with served := satInc p.served, repeats := satInc p.repeats }) i (storedResponse p)
    else
      let next := mboxAuto (putPair s i { p with state := .pending, req := slotOf (m.take 512), rx := m, src := some src
                                                 rxPort := port })
      match p.state with
      | .idle => next
      | .done => next
      | _ => mboxIgnored s i

/-- MB_REQUEST_ARRIVE (R239, R243). -/
def execMbRequestArrive (pair : PairId) (src : NetAddr) (port : Option (Fin 4)) (bytes : List Byte) (s : State) :
    Host.Outcome State Fault Refusal :=
  .next (if decide (16 ≤ pair.val) && servesPair s pair.val then
      mboxArrive s pair.val src port bytes else s)

/-- DOORBELL_RING (R245): the gated store of lane `lane` to its doorbell is performed. -/
def execDoorbellRing (lane : LaneId) (data : U32) (s : State) : Host.Outcome State Fault Refusal :=
  live s 1 (mboxAuto (mboxDoorbell s (2 * lane.val) data))

/-- MB_ABORT (Table 7.4): a write of MB_i_DB withdraws an ARMED or PENDING request. -/
def execMbAbort (pair : PairId) (data : U32) (s : State) : Host.Outcome State Fault Refusal :=
  live s 1 (mboxAuto (mboxDoorbell s pair.val data))

end Sys2Proof.Machine
end

