-- ==== Sys2Proof/Machine/MbSystem.lean ====
section
/-! DEFINITION. The system group of mailbox commands (chapter 7, Table 7.14). -/

namespace Sys2Proof.Machine

open Sys2Proof

/-- A byte of a payload. -/
def u8 (p : List Byte) (off : Nat) : Nat := leAt p off 1

/-- A 16-bit field of a payload. -/
def u16 (p : List Byte) (off : Nat) : Nat := leAt p off 2

/-- A 32-bit field of a payload. -/
def u32 (p : List Byte) (off : Nat) : Nat := leAt p off 4

/-- A 64-bit field of a payload. -/
def u64 (p : List Byte) (off : Nat) : Nat := leAt p off 8

/-- The bytes of a reserved field are 0 (check 9 of Table 7.8). -/
def allZero (p : List Byte) (off n : Nat) : Bool := (slice p off n).all (· == 0)

/-- One byte of an answer. -/
def b8 (n : Nat) : List Byte := [BitVec.ofNat 8 n]

/-- A HELLO payload is in range (Table 7.15). -/
def helloOk (p : List Byte) : Bool :=
  decide (1 ≤ u8 p 0) && decide (u8 p 0 ≤ 4) && decide (u8 p 0 ≤ u8 p 1) && decide (u8 p 2 ≤ 3) && u8 p 3 == 0

/-- The HELLO response (Table 7.16). -/
def helloResponse (s : State) (i level : Nat) : List Byte :=
  b8 level ++ b8 1 ++ b8 (levelCap s) ++ b8 i ++ b8 s.slot.toNat ++ b8 (voteCode s.weft.own) ++ leBytes 2 496
    ++ leBytes 4 (if 3 ≤ level then 65536 else 496) ++ zeros 4

/-- A pair takes a level and, on MB16 to MB21, the binding of a HELLO (R261, R243, R265). -/
def helloTake (s : State) (i level : Nat) (p : List Byte) : State :=
  let rebound := onChanges i && (pairAt s i).bound != (pairAt s i).src
  let s := if rebound || level < 4 then endSubs s i else s
  let q := pairAt s i
  putPair s i { q with level := BitVec.ofNat 3 level, xfer := none, role := BitVec.ofNat 8 (u8 p 2)
                       clientId := BitVec.ofNat 32 (if p.length = 4 then 0 else u32 p 4)
                       bound := if onChanges i then q.src else q.bound
                       lastReq := if onChanges i then tb3 s else q.lastReq }

/-- HELLO (R261): the negotiated level, and the binding. -/
def helloBody (i tag : Nat) : Body := fun s p =>
  let level := min (u8 p 1) (levelCap s)
  if !helloOk p then (s, some (failWith stParam))
  else if level < u8 p 0 then (s, some (failWith stVersion))
  else (recordCommand (helloTake s i level p) i 0 0 0x0100 tag, some (okWith (helloResponse s i level)))

/-- HELLO (R261). -/
def execHello (pair : PairId) (s : State) : Host.Outcome State Fault Refusal :=
  serve s pair ⟨0x0100, 1, onReads, false, fun n => n == 8 || n == 4⟩
    (helloBody pair.val (requestOf s pair.val).tag)

/-- The order code in ASCII, padded (Table 7.17). -/
def partCode : List Byte :=
  [0x42, 0x58, 0x4E, 0x2D, 0x47, 0x41, 0x34, 0x38, 0x34, 0x2D, 0x54, if Config.classT6 then 0x36 else 0x34]
    ++ zeros 4

/-- SYS_GET_IDENTITY response (Table 7.17). -/
def identityBytes (s : State) : List Byte :=
  partCode ++ leBytes 8 s.otp.serial.toNat ++ leBytes 2 Config.hwIssue.toNat ++ b8 s.slot.toNat
    ++ b8 (if Config.classT6 then 6 else 4) ++ leBytes 4 s.boot.fwRunning.toNat ++ leBytes 4 s.otp.rom.toNat
    ++ leBytes 4 s.otp.loader.toNat ++ leBytes 4 s.boot.imageGen.toNat ++ leBytes 2 s.boot.activeFormat.toNat
    ++ zeros 2

/-- SYS_GET_IDENTITY (Table 7.17). -/
def execSysGetIdentity (pair : PairId) (s : State) : Host.Outcome State Fault Refusal :=
  serve s pair (readCmd 0x0101 1 0) (reads (fun s _ => okWith (identityBytes s)))

/-- Cause of the last reset (Table 7.13). -/
def lastCause (s : State) : Nat := match s.boot.resetLog with
  | e :: _ => e.cause.toNat
  | [] => 0

/-- FLAGS of SYS_GET_STATUS (Table 7.18). -/
def statusFlags (s : State) : Nat :=
  [flag 0 (moduleOk s), flag 1 (faultLow s), flag 2 s.power.aValid, flag 3 s.power.bValid, flag 4 s.boot.bootLock
  , flag 5 (unlocked s), flag 6 s.maps.configured, flag 7 s.boot.recovery].sum

/-- A lane runs (Table 7.18). -/
def laneRunning (ln : Lane) : Bool :=
  ln.epochState = .waitSeal || ln.epochState = .compute || ln.epochState = .committed

/-- SYS_GET_STATUS response (Table 7.18). -/
def statusBytes (s : State) : List Byte :=
  leBytes 8 s.epoch.no.toNat ++ leBytes 4 ((tb3 s - s.boot.resetAt) / 1000000000) ++ b8 (voteCode (if s.boot.recovery then .starting else s.weft.own))
    ++ b8 s.power.stage.toNat ++ b8 (laneBits s laneRunning) ++ b8 (laneBits s (·.disabled)) ++ b8 (statusFlags s)
    ++ b8 (lastCause s) ++ leBytes 2 s.boot.restarts.toNat ++ leBytes 4 s.boot.fwRunning.toNat ++ zeros 8

/-- SYS_GET_STATUS (Table 7.18). -/
def execSysGetStatus (pair : PairId) (s : State) : Host.Outcome State Fault Refusal :=
  serve s pair (readCmd 0x0102 1 0) (reads (fun s _ => okWith (statusBytes s)))

/-- The memory status block (Table 6.8). -/
def memoryStatus (s : State) : List Byte :=
  let m := s.mem
  [m.dramCe, m.dramUe, m.cacheCe, m.cacheUe, m.icachePar, m.tcmCe, m.tcmUe, m.pisCe, m.pisUe, m.scrubPasses].flatMap
      (fun c => leBytes 4 c.toNat)
    ++ leBytes 4 (m.scrubBurst / 1024) ++ leBytes 4 (m.lastUeAddr % 2 ^ 32) ++ leBytes 4 (m.lastUeAddr / 2 ^ 32 % 256)
    ++ b8 m.lastUeArea ++ b8 m.lastUeLane ++ zeros 2 ++ leBytes 8 m.lastUeEpoch.toNat

/-- SYS_GET_MEMORY (R262). -/
def execSysGetMemory (pair : PairId) (s : State) : Host.Outcome State Fault Refusal :=
  serve s pair (readCmd 0x0103 2 0) (reads (fun s _ => okWith (memoryStatus s)))

/-- Slots in a mask. -/
def maskSize (m : BitVec 3) : Nat := (maskSlots m).length

/-- The module is a VOTER whose leaving would leave V with fewer than two members (R129, R263). -/
def leavesTooFew (s : State) : Bool := isVoter s && decide (maskSize s.weft.voters < 3)

/-- SYS_RESTART (R263): accepted, it is answered and recorded, and a restart is due. -/
def restartBody (i tag : Nat) : Body := fun s p =>
  if 1 < u8 p 0 || 1 < u8 p 1 || !allZero p 2 2 || u32 p 4 != 0x5A5A then (s, some (failWith stParam))
  else if leavesTooFew s && !(u8 p 1 == 1 && standstill s) then (s, some (failWith stPermit))
  else
    let s := recordCommand s i 0 0 0x0104 tag
    ({ s with boot := { s.boot with restartDue := some (u8 p 0 == 1) } }, some okEmpty)

/-- SYS_RESTART (R263). -/
def execSysRestart (pair : PairId) (s : State) : Host.Outcome State Fault Refusal :=
  serve s pair (changeCmd 0x0104 1 8) (restartBody pair.val (requestOf s pair.val).tag)

/-- SYS_ECHO (Table 7.14). -/
def execSysEcho (pair : PairId) (s : State) : Host.Outcome State Fault Refusal :=
  serve s pair ⟨0x0105, 1, onReads, false, fun n => decide (n ≤ 496)⟩ (reads (fun _ p => okWith p))

/-- The statistics of a pair (Table 7.21). -/
def mboxStats (s : State) (k : Nat) : List Byte :=
  let p := pairAt s k
  b8 k ++ b8 p.level.toNat ++ b8 (mbCode p.state) ++ b8 (b2n (pairBound s k)) ++ leBytes 4 p.served.toNat
    ++ leBytes 4 p.crcErr.toNat ++ leBytes 4 p.dbIgnored.toNat ++ leBytes 4 p.busyCnt.toNat
    ++ leBytes 4 p.repeats.toNat

/-- SYS_GET_MBOX_STATS (Tables 7.20, 7.21). -/
def mboxStatsBody (i : Nat) : Body := reads (fun s p =>
  let k := if u8 p 0 = 0xFF then i else u8 p 0
  if 23 < k || !allZero p 1 3 then failWith stParam
  else if i < 16 && k / 2 != i / 2 then failWith stPermit
  else okWith (mboxStats s k))

/-- SYS_GET_MBOX_STATS. -/
def execSysGetMboxStats (pair : PairId) (s : State) : Host.Outcome State Fault Refusal :=
  serve s pair (readCmd 0x0106 2 4) (mboxStatsBody pair.val)

/-- A lane takes no deliveries (R264). -/
def refusesDelivery (ln : Lane) : Bool :=
  ln.epochState = .stopped || ln.epochState = .faulted || ln.epochState = .shed || ln.disabled

/-- SYS_DELIVER (R264): the request slot of MB(2L+1) is written and its delivery placed; the answer comes once the
raw image that holds it has closed. -/
def deliverBody (i tag : Nat) : Body := fun s p =>
  if h : u8 p 0 < 8 then
    let l : LaneId := ⟨u8 p 0, h⟩
    let k := 2 * l.val + 1
    if u8 p 1 != 0 || u16 p 2 + 8 != p.length || !allZero p 4 4 then (s, some (failWith stParam))
    else if refusesDelivery (laneOf s l) then (s, some (failWith stPermit))
    else if (pairAt s k).undelivered then (s, some (failWith stBusy))
    else
      let m := messageBytes 4 0 0x0107 tag 0 0 (p.drop 8)
      let s := putPair s k { pairAt s k with req := slotOf m }
      let s := deliverItem s k 0 i m
      (putPair s i { pairAt s i with deliverTo := some l }, none)
  else (s, some (failWith stParam))

/-- SYS_DELIVER (R264). -/
def execSysDeliver (pair : PairId) (s : State) : Host.Outcome State Fault Refusal :=
  serve s pair ⟨0x0107, 2, onChanges, false, fun n => decide (8 ≤ n) && decide (n ≤ 496)⟩
    (deliverBody pair.val (requestOf s pair.val).tag)

/-- At raw close, a SYS_DELIVER whose delivery the image holds is answered (R264, Table 7.23). -/
def deliverClosed (s : State) (i : Nat) : State :=
  let p := pairAt s i
  match p.deliverTo with
  | some l =>
    if p.state = .serving && (pairAt s (2 * l.val + 1)).latched then
      finishLong (putPair s i { p with deliverTo := none }) i (okWith (leBytes 8 s.epoch.no.toNat))
    else s
  | none => s

/-- Every SYS_DELIVER in service at raw close. -/
def deliverClose (s : State) : State := [16, 17, 18, 19, 20, 21].foldl deliverClosed s

/-- SYS_SUBSCRIBE (R265). -/
def subscribeBody (i : Nat) : Body := fun s p =>
  if 0x1FFF < u16 p 0 || !allZero p 2 2 then (s, some (failWith stParam))
  else
    let s := endSubs s i
    (putPair s i { pairAt s i with subs := BitVec.ofNat 16 (u16 p 0), noticeCnt := 0 }, some okEmpty)

/-- SYS_SUBSCRIBE (R265). -/
def execSysSubscribe (pair : PairId) (s : State) : Host.Outcome State Fault Refusal :=
  serve s pair (changeCmd 0x0108 4 4) (subscribeBody pair.val)

/-- The reset log as eight entries, newest first (Table 7.25). -/
def resetLogBytes (s : State) : List Byte :=
  fit 64 (s.boot.resetLog.flatMap (fun e => leBytes 6 e.tb0Sec ++ b8 e.cause.toNat ++ b8 e.voteState))

/-- SYS_GET_RESET_LOG (Table 7.25). -/
def execSysGetResetLog (pair : PairId) (s : State) : Host.Outcome State Fault Refusal :=
  serve s pair (readCmd 0x0109 2 0) (reads (fun s _ => okWith (resetLogBytes s)))

end Sys2Proof.Machine
end

