-- ==== Sys2Proof/Machine/SafeOps.lean ====
section
/-! DEFINITION. The safety block: safe inputs and their test pulses, safe outputs, speed inputs, speed functions and
the safety tick (chapter 13). -/

namespace Sys2Proof.Machine

open Sys2Proof

/-- Sets a bit of SAFE_EVENT. -/
def safeEvent (s : State) (bit : Nat) : State :=
  { s with safe := { s.safe with event := setBit s.safe.event bit } }

/-- A safety event item (Table 13.11, R412): `fault` says that `value` is a fault code. Items of one stamp are
ordered by kind, index, and fault before state. -/
def safeItem (s : State) (kind index value : Nat) (fault : Bool) (speed : Nat) : State :=
  let f := s.safe
  if f.items ≥ f.eventLimit then { (safeEvent s 9) with safe := { (safeEvent s 9).safe with lostMark := true } }
  else
    let body := [BitVec.ofNat 8 kind, BitVec.ofNat 8 index, BitVec.ofNat 8 value
      , BitVec.ofNat 8 (b2n f.lostMark + 4 * b2n fault), BitVec.ofNat 8 speed] ++ zeros 3 ++ leBytes 8 (tb2 s)
    queueItem { s with safe := { f with items := f.items + 1, lostMark := false } } (tb2 s) 0
      (kind * 32 + index * 2 + b2n (!fault)) body (markLate 3)

/-- A safe input replaced. -/
def putIn (s : State) (n : Fin 8) (x : SafeIn) : State :=
  { s with safe := { s.safe with input := s.safe.input.set n.val x } }

/-- A safe output replaced. -/
def putOut (s : State) (n : Fin 8) (x : SafeOut) : State :=
  { s with safe := { s.safe with output := s.safe.output.set n.val x } }

/-- A speed input replaced. -/
def putSpeed (s : State) (n : Fin 4) (x : SpeedIn) : State :=
  { s with safe := { s.safe with speed := s.safe.speed.set n.val x } }

/-- A speed function replaced. -/
def putFunc (s : State) (n : Fin 4) (x : SafeFunc) : State :=
  { s with safe := { s.safe with func := s.safe.func.set n.val x } }

/-- The channels stand at the ON levels of Table 13.1. -/
def inOn (x : SafeIn) (a b : Bool) : Bool := match x.mode.toNat with
  | 1 => a && b
  | 2 => a && !b
  | _ => false

/-- The channels stand at the safe levels of Table 13.1. -/
def inSafe (x : SafeIn) (a b : Bool) : Bool := match x.mode.toNat with
  | 1 => !a && !b
  | 2 => !a && b
  | _ => true

/-- A latched fault of an input (R393). -/
def inFaulty (x : SafeIn) : Bool := x.discrepancy || x.crossShort || x.shortSupply

/-- The fault with this code stands latched already: it latches once, until it is cleared (R393). -/
def inHolds (x : SafeIn) (code : Nat) : Bool := match code with
  | 1 => x.discrepancy
  | 2 => x.crossShort
  | _ => x.shortSupply

/-- The state of an input changed: an item (R412). -/
def inState (s : State) (n : Fin 8) (b : Bool) : State :=
  let x := s.safe.input[n]
  if x.state = b then s else safeItem (putIn s n { x with state := b }) 1 n.val (b2n b) false 0

/-- A fault of an input latches (R390, R392): the item of the fault, and the state goes OFF. -/
def inLatch (s : State) (n : Fin 8) (code : Nat) : State :=
  let x := s.safe.input[n]
  let x := match code with
    | 1 => { x with discrepancy := true }
    | 2 => { x with crossShort := true }
    | _ => { x with shortSupply := true }
  inState (safeItem (safeEvent (putIn s n x) 0) 1 n.val code true 0) n false

/-- The tick is masked for a channel whose source is `src` (R391): 0 none, 1 TPS0, 2 TPS1. -/
def masked (f : Safe) (src : BitVec 2) : Bool := match src.toNat with
  | 1 => decide (f.sinceDark[0] < 6)
  | 2 => decide (f.sinceDark[1] < 6)
  | _ => false

/-- One test-pulse window of a channel after a tick sample: value at tick k, a 1 at k+3 or k+4, a 0 at both. `ticks`
is how many ticks had passed since the window opened. -/
def windowStep (w : Bool × Bool × Bool) (ticks : Nat) (sample : Bool) : Bool × Bool × Bool :=
  if ticks = 2 then (w.1, sample, !sample)
  else if ticks = 3 then (w.1, w.2.1 || sample, w.2.2 && !sample)
  else w

/-- What Table 13.2 latches for a channel with source `src`: 0 none, 2 CROSS_SHORT, 3 SHORT_SUPPLY. -/
def windowFault (src : BitVec 2) (w : Vector (Bool × Bool × Bool) 2) : Nat :=
  let judge := fun (own other : Bool × Bool × Bool) =>
    if own.1 && own.2.1 then (if other.2.2 then 2 else 3) else 0
  match src.toNat with
  | 1 => judge w[0] w[1]
  | 2 => judge w[1] w[0]
  | _ => 0

/-- One tick of a safe input (R389 to R392). `raw` are the sampled channels. -/
def inputTick (s : State) (n : Fin 8) : State :=
  let f := s.safe
  let x := f.input[n]
  let rawA := f.frame.a.getLsbD n.val
  let rawB := f.frame.b.getLsbD n.val
  let a := if masked f x.srcA then x.chA else rawA
  let b := if masked f x.srcB then x.chB else rawB
  let winA := #v[windowStep x.winA[0] f.sinceDark[0] rawA, windowStep x.winA[1] f.sinceDark[1] rawA]
  let winB := #v[windowStep x.winB[0] f.sinceDark[0] rawB, windowStep x.winB[1] f.sinceDark[1] rawB]
  let agree := inOn x a b || inSafe x a b
  let count := if agree then 0 else x.count + 1
  let s := putIn s n { x with chA := a, chB := b, winA := winA, winB := winB, count := count }
  let s := if !agree && !x.discrepancy && decide (x.limit.toNat ≤ count) then inLatch s n 1 else s
  let close := f.sinceDark[1] = 3 && f.windowDone
  let test := fun (s : State) (code : Nat) => if close && code != 0 && !inHolds s.safe.input[n] code then inLatch s n code else s
  let s := test (test s (windowFault x.srcA winA)) (windowFault x.srcB winB)
  inState s n (inOn x a b && !inFaulty s.safe.input[n])

/-- The counters of the dark windows after a tick. -/
def windowTick (f : Safe) : Safe :=
  { f with sinceDark := f.sinceDark.map (fun k => min 100 (k + 1))
           windowDone := if f.sinceDark[0] = 3 then true else if f.sinceDark[1] = 3 then false else f.windowDone }

/-- One tick of a speed input (R403): the edges since the last tick, the signed count, and the speed in mm/s. -/
def speedTick (s : State) (n : Fin 4) : State :=
  let f := s.safe
  let x := f.speed[n]
  let p := f.frame.plus[n]
  let m := f.frame.minus[n]
  let edges := ((p + m) :: x.edges).take x.win.toNat
  let fault := f.frame.speedFault[n]
  putSpeed s n { x with
    edges := edges, net := x.net + BitVec.ofNat 64 p - BitVec.ofNat 64 m
    reverse := if p + m = 0 then x.reverse else f.frame.reverse.getLsbD n.val
    v := edges.sum * x.dEdge.toNat * 10 / x.win.toNat, present := fault
    wireA := x.wireA || fault.getLsbD 0, wireB := x.wireB || fault.getLsbD 1
    illegal := x.illegal || fault.getLsbD 2, freq := x.freq || fault.getLsbD 3 }

/-- The latched faults of a speed input, WIRE_A, WIRE_B, ILLEGAL, FREQ from bit 0. -/
def speedFaults (x : SpeedIn) : BitVec 4 :=
  BitVec.ofNat 4 (b2n x.wireA + 2 * b2n x.wireB + 4 * b2n x.illegal + 8 * b2n x.freq)

/-- The lowest fault code of Table 13.18 in a mask of Table 13.8. -/
def lowestFault (m : BitVec 4) : Nat :=
  if m.getLsbD 0 then 1 else if m.getLsbD 1 then 2 else if m.getLsbD 2 then 3 else if m.getLsbD 3 then 4 else 0

/-- The speed input that is the SENSOR of a function. -/
def sensorOf (f : Safe) (x : SafeFunc) : SpeedIn := f.speed[x.sensor.toNat]

/-- The speed input that is its CHECK. -/
def checkOf (f : Safe) (x : SafeFunc) : SpeedIn := f.speed[x.check.toNat]

/-- |v of SENSOR − v of CHECK| exceeds CHK_TOL (R407). -/
def checkDiffers (f : Safe) (x : SafeFunc) : Bool :=
  let a := (sensorOf f x).v
  let b := (checkOf f x).v
  decide (x.chkTol.toNat < (a - b) + (b - a))

/-- A function enters a state: the items and events of R412, and PERMIT_LOST when it leaves PERMIT. -/
def funcState (s : State) (i : Fin 4) (st : FuncState) : State :=
  let x := s.safe.func[i]
  if x.state = st then s
  else
    let s := putFunc s i { x with state := st }
    let s := if x.state = .permit then safeEvent s 2 else s
    safeItem s 3 i.val (funcCode st) false 0

/-- A function enters FAULT with a code of Table 13.18 raised by a speed input (R404, R407). -/
def funcFault (s : State) (i : Fin 4) (code speed : Nat) : State :=
  let x := s.safe.func[i]
  if x.state = .fault then s
  else
    let s := putFunc s i { x with latched := true, faultCode := BitVec.ofNat 4 code, still := 0 }
    funcState (safeItem (safeEvent s 3) 3 i.val code true (if code ≤ 4 then speed else 0)) i .fault

/-- The fault of R404 that a function takes from its speed inputs: code and speed input. -/
def funcSpeedFault (f : Safe) (x : SafeFunc) : Nat × Nat :=
  let a := lowestFault (speedFaults (sensorOf f x))
  if a != 0 then (a, x.sensor.toNat)
  else if x.chkEn then (lowestFault (speedFaults (checkOf f x)), x.check.toNat) else (0, 0)

/-- Distance and time measures of a function after a tick (Table 13.9). -/
def measure (f : Safe) (i : Fin 4) (x : SafeFunc) : SafeFunc :=
  let e := f.frame
  let p := e.plus[x.sensor.toNat]
  let m := e.minus[x.sensor.toNat]
  let d := (sensorOf f x).dEdge.toNat
  let diffs := if x.chkEn && checkDiffers f x then x.diffs + 1 else 0
  let x := { x with diffs := diffs }
  match i.val with
  | 1 => { x with dist := if x.fwdForbidden then x.dist + p * d - m * d else x.dist + m * d - p * d }
  | 2 => { x with dist := if f.func[3].en && f.func[3].state = .permit then 0 else x.dist + (p + m) * d }
  | 3 => { x with still := if (sensorOf f x).v ≤ 138 then min 100000 (x.still + 1) else 0 }
  | _ => x

/-- The permit of Table 13.9 for the measures of a function, `had` the permit before. -/
def permitNow (f : Safe) (i : Fin 4) (x : SafeFunc) : Bool :=
  let v := (sensorOf f x).v
  match i.val with
  | 0 => decide (v + x.hyst.toNat ≤ x.limit.toNat) || (x.state = .permit && decide (v ≤ x.limit.toNat))
  | 1 => decide (x.dist ≤ x.limit.toNat)
  | 2 => decide (x.dist ≤ x.limit.toNat)
  | _ => decide (100000 ≤ x.still)

/-- One tick of a function (R405 to R407). -/
def funcTick (s : State) (i : Fin 4) : State :=
  let x := s.safe.func[i]
  if !x.en then s
  else
    let x := measure s.safe i x
    let s := putFunc s i x
    let sf := funcSpeedFault s.safe x
    if x.state = .fault then s
    else if sf.1 != 0 then funcFault s i sf.1 sf.2
    else if x.chkEn && decide (1000 ≤ x.diffs) then funcFault s i 5 0
    else if x.latched then s
    else if permitNow s.safe i x then funcState s i .permit
    else
      let latch := i.val = 1 || i.val = 2
      funcState (putFunc s i { x with latched := latch && x.state = .permit || x.latched }) i .noPermit

/-- The condition of a function's fault is gone (R408). -/
def funcCleared (f : Safe) (x : SafeFunc) : Bool :=
  (sensorOf f x).present = 0 && (!x.chkEn || ((checkOf f x).present = 0 && !checkDiffers f x))

/-- Clears a function and the latched faults of its speed inputs (R404, R408). -/
def clearFunc (s : State) (i : Fin 4) (service : Bool) : State :=
  let x := s.safe.func[i]
  let standing := (i.val = 3 && service && x.state = .fault) || (s.safe.func[3].en && s.safe.func[3].state = .permit)
  if !x.en || !(x.state = .fault || x.state = .noPermit) then s
  else if standing && funcCleared s.safe x then
    let clean := fun (s : State) (k : Fin 4) =>
      putSpeed s k { s.safe.speed[k] with wireA := false, wireB := false, illegal := false, freq := false }
    let s := clean s ⟨x.sensor.toNat, x.sensor.isLt⟩
    let s := if x.chkEn then clean s ⟨x.check.toNat, x.check.isLt⟩ else s
    let y := { x with latched := false, faultCode := 0, dist := 0, diffs := 0 }
    let s := putFunc s i y
    let m := if i.val = 3 then y else measure s.safe i y
    if x.state = .fault then funcState s i (if permitNow s.safe i m then .permit else .noPermit) else s
  else { (safeEvent s 5) with safe := { (safeEvent s 5).safe with refused := true } }

/-- Clears a latched input fault (R393). -/
def clearInput (s : State) (n : Fin 8) : State :=
  let x := s.safe.input[n]
  if !inFaulty x then s
  else if inSafe x x.chA x.chB then
    putIn s n { x with discrepancy := false, crossShort := false, shortSupply := false, count := 0 }
  else { (safeEvent s 5) with safe := { (safeEvent s 5).safe with refused := true } }

/-- An output enters a state, with its switches (Table 13.5) and the item of the change (R412). -/
def outState (s : State) (n : Fin 8) (st : SafeOutState) : State :=
  let x := s.safe.output[n]
  let h := st = .precheck || st = .on
  let x' := { x with state := st, swH := h, swL := st = .on, entered := tb3 s, highTicks := 0, first := 0
                     offSince := if st = .safeOff then tb3 s else x.offSince }
  safeItem (putOut s n x') 2 n.val (safeOutCode st) false 0

/-- The switches that a fault of Table 13.7 opens first: SOUTn_H bit 0, SOUTn_L bit 1. `low` says of a test pulse that it is
one of SOUTn_L, and of an overtemperature that SOUTn_L is the hot switch. -/
def firstOpen (code : Nat) (low : Bool) : BitVec 2 := match code with
  | 1 => 2
  | 4 => if low then 1 else 2
  | 6 => 3
  | 7 => if low then 2 else 1
  | _ => 1

/-- A fault of Table 13.7 locks an output in ON, PRECHECK or SHUTDOWN (Table 13.6). -/
def outFault (s : State) (n : Fin 8) (code : Nat) (low : Bool) : State :=
  let x := s.safe.output[n]
  match x.state with
  | .safeOff => s
  | .locked => s
  | _ =>
    let s := putOut s n { x with fault := BitVec.ofNat 4 code }
    let s := outState (safeItem (safeEvent s 1) 2 n.val code true 0) n .locked
    putOut s n { s.safe.output[n] with first := firstOpen code low }

/-- A shut-down demand on one output (Table 13.6). -/
def outDemand (s : State) (n : Fin 8) : State := match s.safe.output[n].state with
  | .precheck => outState s n .shutdown
  | .on => outState s n .shutdown
  | _ => s

/-- A shut-down demand on every safe output. -/
def safeDemand (s : State) : State := (List.finRange 8).foldl outDemand s

/-- A shut-down demand other than a missing permit or an ON bit at 0 stands (R397). -/
def demandStands (s : State) : Bool :=
  let f := s.safe
  f.lost || f.silent || f.supplyLow || s.weft.own = .excluded || s.weft.own = .unitSafe || f.calved

/-- The reason of R399 for which an enable request of output `n` is refused, 0 for none. -/
def rejectReason (s : State) (n : Fin 8) : Nat :=
  let x := s.safe.output[n]
  if !x.en then 6
  else if x.state != .safeOff && x.state != .shutdown then 4
  else if x.state = .shutdown || (x.state = .safeOff && 0 < x.offSince && x.offSince = tb3 s) then 1
  else if tb3 s < x.offSince + 100000000 then 2
  else if !outPermit s.safe n.val then 3
  else if demandStands s then 5 else 0

/-- A rejected enable request (R399). -/
def outReject (s : State) (n : Fin 8) (reason : Nat) : State :=
  let s := safeEvent s 4
  let s := recordBit s 10 0x18 4 s.safe.event.toNat 0xFF [BitVec.ofNat 8 n.val, BitVec.ofNat 8 reason]
  let s := { s with safe := { s.safe with rejected := s.safe.rejected.set n.val (BitVec.ofNat 3 reason) } }
  safeItem s 4 n.val reason false 0

/-- One tick of an output by Table 13.6, with the release frame that the tick applies, if any (R396 to R399). -/
def outputTick (s : State) (r : Option SafeRelease) (n : Fin 8) : State :=
  let x := s.safe.output[n]
  let bit := fun (i : Nat) => (r.map (fun r => r.word.getLsbD i)).getD false
  let on := bit n.val
  let request := r.isSome && on && !x.prevOn
  let clear := bit (8 + n.val)
  let off := r.isSome && !on
  let demand := demandStands s || !outPermit s.safe n.val || off
  let reason := rejectReason s n
  let s := { s with safe := { s.safe with
    output := s.safe.output.set n.val { x with prevOn := if r.isSome then on else x.prevOn } } }
  let s := match x.state with
    | .precheck =>
      if x.fault != 0 then outFault s n x.fault.toNat false
      else if demand then outDemand s n
      else if s.safe.frame.vl.getLsbD n.val then outState s n .on else s
    | .on => if demand then outDemand s n else s
    | .shutdown => s
    | .safeOff =>
      let y := s.safe.output[n]
      let high := s.safe.frame.vh.getLsbD n.val
      let s := if high && y.highTicks = 9 && y.fault = 0 then
          safeItem (putOut s n { y with highTicks := 10, fault := 1 }) 2 n.val 1 true 0
        else putOut s n { y with highTicks := if high then min 10 (y.highTicks + 1) else 0 }
      if request && reason = 0 then outState s n .precheck else s
    | .locked =>
      if clear then
        if !on && !s.safe.frame.outFault.getLsbD n.val then
          outState (putOut s n { s.safe.output[n] with fault := 0 }) n .safeOff
        else { (safeEvent s 5) with safe := { (safeEvent s 5).safe with refused := true } }
      else s
  if request && reason != 0 then outReject s n reason else s

/-- The safety tick (R386): frame, inputs, speeds, functions, outputs. Function 3 is evaluated before the clears of a
release frame and before the functions that depend on it (R405, R408). -/
def safetyTick (s : State) : State :=
  let r := s.safe.release
  let s := { s with safe := { s.safe with release := none, refused := false
                                          rejected := Vector.replicate 8 0 } }
  let s := (List.finRange 8).foldl inputTick s
  let s := { s with safe := windowTick s.safe }
  let s := (List.finRange 4).foldl speedTick s
  let s := funcTick s 3
  let s := match r with
    | some r =>
      let s := (List.finRange 8).foldl (fun s n => if r.word.getLsbD (16 + n.val) then clearInput s n else s) s
      (List.finRange 4).foldl (fun s i => if r.word.getLsbD (24 + i.val) then clearFunc s i r.service else s) s
    | none => s
  let s := [0, 1, 2].foldl funcTick s
  let s := { s with safe := { s.safe with frame := { s.safe.frame with
    plus := Vector.replicate 4 0, minus := Vector.replicate 4 0 } } }
  (List.finRange 8).foldl (fun s n => outputTick s r n) s

/-- The logic side sends a release frame at a boundary (R395): the released word when the group's own or held values
are released, else zeros. -/
def safeRelease (s : State) (released : Bool) : State :=
  let f := s.safe
  let g := allGroups.find? (fun g => match s.maps.group[g] with
    | some d => d.offset ≤ f.word && f.word < d.offset + d.length
    | none => false)
  let live := released && f.mapped && match g with
    | some g => !s.weft.safe.getLsbD g.val
    | none => false
  let w : Word := if live then BitVec.ofNat 64 (ofLe (releasedBytes s f.word 8)) else 0
  { s with safe := { f with sent := some w } }

/-- A release frame reaches the field side: the next tick applies it (R395). -/
def safeApply (s : State) (w : Word) (service : Bool) : State :=
  { s with safe := { s.safe with sent := none, release := some ⟨w, service⟩, silent := false, fieldSilent := false } }

/-- DIST of a speed input: NET × D_EDGE_UM as a signed number (R403). -/
def distOf (x : SpeedIn) : Int := sxInt x.net.toNat 64 * x.dEdge.toNat

/-- A signed number as an unsigned field of `w` bits. -/
def twos (w : Nat) (v : Int) : Nat := (v % (2 ^ w : Int)).toNat

/-- The safety signals latched at B(n) (R388, R411, Table 13.10). -/
def latchSafe (s : State) : State :=
  let f := s.safe
  if !f.mapped then s
  else
    rawSetAll s f.signal (
      f.input.toList.map (fun x => b2n x.state) ++ f.input.toList.map (fun x => b2n (inFaulty x))
      ++ f.output.toList.map (fun x => b2n (x.state = .on)) ++ f.output.toList.map (fun x => b2n (x.state = .locked))
      ++ f.func.toList.map (fun x => b2n (x.state = .permit)) ++ f.func.toList.map (fun x => b2n (x.state = .fault))
      ++ f.speed.toList.map (fun x => min x.v 0xFFFFFFFF) ++ f.speed.toList.map (fun x => twos 64 (distOf x))
      ++ [min f.func[1].dist 0xFFFFFFFF, min f.func[2].dist 0xFFFFFFFF, b2n f.supplyLow, b2n f.lost])

/-- DISCREPANCY_LATCH (R390): the channels have disagreed at N consecutive ticks. -/
def execDiscrepancyLatch (input : Fin 8) (s : State) : Host.Outcome State Fault Refusal :=
  let x := s.safe.input[input]
  live s 10 (if x.count != 0 && !x.discrepancy then
      inLatch (putIn s input { x with count := max x.count x.limit.toNat }) input 1
    else s)

/-- TPS_DARK (R391): a test-pulse source goes dark after the tick sample at its phase; every channel's value at that
tick is kept. -/
def execTpsDark (tps : Fin 2) (s : State) : Host.Outcome State Fault Refusal :=
  let f := s.safe
  let open' := fun (x : SafeIn) =>
    { x with winA := x.winA.set tps.val (x.chA, false, false), winB := x.winB.set tps.val (x.chB, false, false) }
  live s 10 { s with safe := { f with dark := f.dark.set tps.val true, sinceDark := f.sinceDark.set tps.val 0
                                      input := f.input.map open' } }

/-- TPS_LIGHT (R391): the source turns on again after the fourth following tick sample. -/
def execTpsLight (tps : Fin 2) (s : State) : Host.Outcome State Fault Refusal :=
  live s 10 { s with safe := { s.safe with dark := s.safe.dark.set tps.val false } }

/-- SAFETY_FIELD_FRAME (R387): the last complete frame from the safety field side. -/
def execSafetyFieldFrame (frame : SafeFrame) (s : State) : Host.Outcome State Fault Refusal :=
  live s 10 { s with safe := { s.safe with frame := frame, fieldOk := true, lost := false } }

/-- SAFETY_RELEASE_FRAME (R395): the field side applies the release frame on its way; the next tick judges it. -/
def execSafetyReleaseFrame (s : State) : Host.Outcome State Fault Refusal :=
  live s 10 (match s.safe.sent with
    | some w => safeApply s w false
    | none => s)

/-- SAFETY_HB_LOST (R387): no valid field frame for 50 µs. -/
def execSafetyHbLost (s : State) : Host.Outcome State Fault Refusal :=
  let s' := safeEvent { s with safe := { s.safe with fieldOk := false, lost := true } } 8
  live s 10 (safeDemand (recordBit s' 10 0x18 8 s'.safe.event.toNat 0xFF []))

/-- SAFETY_FIELD_SILENCE (R387): the field side has received no logic frame for 50 µs and opens every switch. -/
def execSafetyFieldSilence (s : State) : Host.Outcome State Fault Refusal :=
  always s 10 { s with safe := { s.safe with
    fieldSilent := true, output := s.safe.output.map (fun x => { x with swH := false, swL := false }) } }

/-- SAFETY_TSS (R395): no valid release frame for T_SS. -/
def execSafetyTss (s : State) : Host.Outcome State Fault Refusal :=
  always s 10 (safeDemand { s with safe := { s.safe with silent := true } })

/-- SHUTDOWN_CONFIRM (Table 13.6): V_H and the current have been low for 1 ms. -/
def execShutdownConfirm (out : Fin 8) (s : State) : Host.Outcome State Fault Refusal :=
  live s 10 (if s.safe.output[out].state = .shutdown then outState s out .safeOff else s)

/-- SHUTDOWN_STUCK (Table 13.6): de-energisation not confirmed 20 ms after entry. -/
def execShutdownStuck (out : Fin 8) (s : State) : Host.Outcome State Fault Refusal :=
  live s 10 (if s.safe.output[out].state = .shutdown then outFault s out 6 false else s)

/-- PRECHECK_TIMEOUT (Table 13.6): 2 ms without V_L at 0.55 Un. -/
def execPrecheckTimeout (out : Fin 8) (s : State) : Host.Outcome State Fault Refusal :=
  live s 10 (if s.safe.output[out].state = .precheck then outFault s out 3 false else s)

/-- OUTPUT_TEST_PULSE (R400, Table 13.7): a dark pulse of one switch of an output that is ON; it passes, or the
readback fails it, or another output that is ON follows it. -/
def execOutputTestPulse (out : Fin 8) (low failed : Bool) (cross : Option (Fin 8)) (s : State) :
    Host.Outcome State Fault Refusal :=
  let x := s.safe.output[out]
  live s 10 (
    if !(x.state = .on && x.pulseEn) then s
    else match cross with
      | some m => if m != out && s.safe.output[m].state = .on then outFault (outFault s out 4 low) m 4 low else s
      | none => if failed then outFault s out (if low then 2 else 1) low else s)

/-- SAFE_OVERLOAD (Table 13.7): 2 ms in current limit. -/
def execSafeOverload (out : Fin 8) (s : State) : Host.Outcome State Fault Refusal := live s 10 (outFault s out 5 false)

/-- SAFE_OVERTEMP (Table 13.7): a switch junction at 150 °C. -/
def execSafeOvertemp (out : Fin 8) (hotLow : Bool) (s : State) : Host.Outcome State Fault Refusal :=
  live s 10 (outFault s out 7 hotLow)

/-- OPEN_LOAD (R401): an output that is ON has carried less than 5 mA for 10 ms, or at least 5 mA again. -/
def execOpenLoad (out : Fin 8) (isOpen : Bool) (s : State) : Host.Outcome State Fault Refusal :=
  let x := s.safe.output[out]
  live s 10 (
    if !isOpen then putOut s out { x with openLoad := false }
    else if x.state = .on then safeEvent (putOut s out { x with openLoad := true }) 6 else s)

/-- SAFE_SUPPLY_LOW (R402): below 0.6 Un for 200 µs. -/
def execSafeSupplyLow (s : State) : Host.Outcome State Fault Refusal :=
  live s 10 (safeDemand (safeEvent { s with safe := { s.safe with supplyLow := true } } 7))

/-- SAFE_SUPPLY_RETURN (R402): at least 0.7 Un for 100 ms. -/
def execSafeSupplyReturn (s : State) : Host.Outcome State Fault Refusal :=
  live s 10 { s with safe := { s.safe with supplyLow := false } }

/-- SPEED_INPUT_FAULT (R404): faults of Table 13.8 latch, and every function that names the input faults. -/
def execSpeedInputFault (input : Fin 4) (fault : BitVec 4) (s : State) : Host.Outcome State Fault Refusal :=
  let x := s.safe.speed[input]
  let s' := putSpeed s input { x with
    wireA := x.wireA || fault.getLsbD 0, wireB := x.wireB || fault.getLsbD 1
    illegal := x.illegal || fault.getLsbD 2, freq := x.freq || fault.getLsbD 3, present := x.present ||| fault }
  live s 10 ((List.finRange 4).foldl (fun s i =>
    let f := s.safe.func[i]
    let sf := funcSpeedFault s.safe f
    if f.en && sf.1 != 0 then funcFault s i sf.1 sf.2 else s) s')

/-- CHECK_DIFF_FAULT (R407): the speeds of SENSOR and CHECK have differed by more than CHK_TOL at 1000 consecutive
ticks. -/
def execCheckDiffFault (func : Fin 4) (s : State) : Host.Outcome State Fault Refusal :=
  let x := s.safe.func[func]
  live s 10 (if x.en && x.chkEn && checkDiffers s.safe x then
      funcFault (putFunc s func { x with diffs := max 1000 x.diffs }) func 5 0
    else s)

/-- STANDSTILL_REACHED (Table 13.9): v of function 3's SENSOR has been at most 138 mm/s for 100 000 ticks. -/
def execStandstillReached (s : State) : Host.Outcome State Fault Refusal :=
  let x := s.safe.func[3]
  live s 10 (if x.en && x.state != .fault && decide ((sensorOf s.safe x).v ≤ 138) then
      funcState (putFunc s 3 { x with still := 100000 }) 3 .permit
    else s)

end Sys2Proof.Machine
end

