-- ==== Sys2Proof/Machine/MbSafety.lean ====
section
/-! DEFINITION. The field I/O group and the safety group of mailbox commands, and the safety tick, after which
SAFE_CLEAR and SAFE_OUT_REQUEST are answered (chapters 12 and 13). -/

namespace Sys2Proof.Machine

open Sys2Proof

/-- FIO_GET_STATUS (Table 12.12). -/
def execFioGetStatus (pair : PairId) (s : State) : Host.Outcome State Fault Refusal :=
  serve s pair (readCmd 0x0700 1 0) (reads (fun s _ =>
    let f := s.fio
    okWith ([f.frame.state.toNat, f.out.toNat, f.frame.overload.toNat, f.frame.openWire.toNat, f.frame.overtemp.toNat
      , f.frame.extDrive.toNat, fioGroup f.frame.group[0], fioGroup f.frame.group[1], fioLink f].flatMap (leBytes 4))))

/-- FIO_GET_COMPAT (R380). -/
def execFioGetCompat (pair : PairId) (s : State) : Host.Outcome State Fault Refusal :=
  serve s pair (readCmd 0x0701 1 0) (reads (fun s _ => okWith (leBytes 4 (fioCompat s.fio))))

/-- Output state codes (Table 12.6). -/
def outStateCode : OutState → Nat
  | .off => 0 | .on => 1 | .limit => 2 | .latched => 3 | .groupOff => 4 | .silent => 5

/-- FIO_GET_CHANNEL response (Table 12.13). -/
def channelBytes (f : Fio) (c : Fin 32) : List Byte :=
  let x := f.chan[c]
  let g := x.cfgNext.getD x.cfg
  let bit := fun (v : U32) => b2n (v.getLsbD c.val)
  b8 c.val ++ b8 (b2n g.output) ++ b8 (b2n g.safeOn) ++ b8 (b2n g.offTest + 2 * b2n g.event) ++ b8 g.filter.toNat
    ++ b8 (if g.output then outStateCode x.state else 0)
    ++ b8 (bit f.frame.state + 2 * bit f.frame.overload + 4 * bit f.frame.openWire + 8 * bit f.frame.overtemp
        + 16 * bit f.frame.extDrive)
    ++ zeros 1 ++ leBytes 4 x.events.toNat

/-- FIO_GET_CHANNEL. -/
def execFioGetChannel (pair : PairId) (s : State) : Host.Outcome State Fault Refusal :=
  serve s pair (readCmd 0x0702 2 4) (reads (fun s p =>
    if h : u8 p 0 < 32 then
      if allZero p 1 3 then okWith (channelBytes s.fio ⟨u8 p 0, h⟩) else failWith stParam
    else failWith stParam))

/-- FIO_SET_CHANNEL (R384, R385): taken at the next boundary. -/
def setChannelBody : Body := fun s p =>
  if h : u8 p 0 < 32 then
    let c : Fin 32 := ⟨u8 p 0, h⟩
    let x := s.fio.chan[c]
    if u8 p 1 = 0 || 250 < u8 p 1 || 3 < u8 p 2 || u8 p 3 != 0 then (s, some (failWith stParam))
    else
      let g : FioCfg := { x.cfgNext.getD x.cfg with filter := BitVec.ofNat 8 (u8 p 1), offTest := bitOf (u8 p 2) 0
                                                    event := bitOf (u8 p 2) 1 }
      (putChan s c { x with cfgNext := some g }, some okEmpty)
  else (s, some (failWith stParam))

/-- FIO_SET_CHANNEL. -/
def execFioSetChannel (pair : PairId) (s : State) : Host.Outcome State Fault Refusal :=
  serve s pair (changeCmd 0x0703 2 4) setChannelBody

/-- Vote states in which FIO_CLEAR and SAFE_CLEAR are accepted (R385, R416). -/
def clearsPermitted (s : State) : Bool :=
  s.weft.own = .bench || s.weft.own = .unconfigured || s.weft.own = .withdrawn

/-- A service frame with CLEAR for the channels of a mask, REARM for groups, and the safe states (R385). -/
def serviceFrame (s : State) (mask : U32) (groups : Nat) (hot : U32) : State :=
  let f := s.fio
  let word := fun (g : Fin 2) (rearm : Bool) => safeWord f g ||| BitVec.ofNat 64 (2 ^ 17 + 2 ^ 16 * b2n rearm)
  let w0 := word 0 (bitOf groups 0)
  let w1 := word 1 (bitOf groups 1)
  let r := fun (c : Fin 32) =>
    if mask.getLsbD c.val then clearChan f (if groupOfChan c = 0 then w0 else w1) c (hot.getLsbD c.val) f.chan[c]
    else (f.chan[c], false)
  let refused := (List.finRange 32).any (fun c => (r c).2)
  let s := { s with fio := { f with chan := Vector.ofFn (fun c => (r c).1), leftover := false } }
  let s := if refused then fioEvent s 7 else s
  let s := frameRearm (frameRearm s 0 w0) 1 w1
  let g := s.fio
  { s with fio := { g with chan := Vector.ofFn (fun c => onChan (if groupOfChan c = 0 then w0 else w1) c g.chan[c])
                           tssSeen := false, out := outBits w0 w1 } }

/-- FIO_CLEAR (R385): the field side applies the frame and reports; `hot` names the channels whose junction is at
130 °C or above. While the field side is lost, no result comes and the request waits for its TIMEOUT. -/
def fioClearBody (hot : U32) : Body := fun s p =>
  if 3 < u8 p 4 || !allZero p 5 3 then (s, some (failWith stParam))
  else if !clearsPermitted s then (s, some (failWith stPermit))
  else if s.fio.lost then (s, none)
  else
    let mask : U32 := BitVec.ofNat 32 (u32 p 0)
    let s := serviceFrame s mask (u8 p 4) hot
    let stays := (List.finRange 32).any (fun c => mask.getLsbD c.val && s.fio.chan[c].state == .latched)
    (s, some ⟨0, b2n (stays || s.fio.leftover), []⟩)

/-- FIO_CLEAR (R385). -/
def execFioClear (pair : PairId) (hot : U32) (s : State) : Host.Outcome State Fault Refusal :=
  serve s pair (changeCmd 0x0704 2 8) (fioClearBody hot)

/-- SAFE_GET_STATUS (Table 13.17). -/
def execSafeGetStatus (pair : PairId) (s : State) : Host.Outcome State Fault Refusal :=
  serve s pair (readCmd 0x0800 1 0) (reads (fun s _ =>
    let f := s.safe
    okWith ([safeLink f, safeInState f, safeInFault f, safeOutStates f, safeOutFaults f, safeFuncs f
      , f.event.toNat].flatMap (leBytes 4))))

/-- SAFE_GET_SPEED. -/
def execSafeGetSpeed (pair : PairId) (s : State) : Host.Outcome State Fault Refusal :=
  serve s pair (readCmd 0x0801 2 4) (reads (fun s p =>
    if h : u8 p 0 < 4 then
      let x := s.safe.speed[u8 p 0]
      if allZero p 1 3 then
        okWith (leBytes 4 (spdStatus x) ++ zeros 4 ++ leBytes 8 x.net.toNat ++ leBytes 8 (twos 64 (distOf x)))
      else failWith stParam
    else failWith stParam))

/-- SAFE_GET_FUNC. -/
def execSafeGetFunc (pair : PairId) (s : State) : Host.Outcome State Fault Refusal :=
  serve s pair (readCmd 0x0802 2 4) (reads (fun s p =>
    if h : u8 p 0 < 4 then
      let i : Fin 4 := ⟨u8 p 0, h⟩
      let x := s.safe.func[i]
      if allZero p 1 3 then
        okWith (b8 (funcCode x.state) ++ b8 (b2n x.latched) ++ zeros 2 ++ leBytes 4 (funcValue s.safe i)
          ++ leBytes 4 (funcCfg x) ++ leBytes 4 x.limit.toNat ++ leBytes 4 x.hyst.toNat)
      else failWith stParam
    else failWith stParam))

/-- The safety map as its 144 bytes (Table 13.12). -/
def safetyMapBytes (f : Safe) : List Byte :=
  leBytes 2 f.signal ++ b8 f.eventLimit ++ b8 f.nom.toNat ++ leBytes 4 f.word ++ leBytes 2 f.tpIn.toNat
    ++ leBytes 2 f.tpOut.toNat ++ zeros 4 ++ f.input.toList.flatMap (fun x => leBytes 4 (safeInCfg x))
    ++ f.output.toList.flatMap (fun x => leBytes 4 (safeOutCfg x))
    ++ f.speed.toList.flatMap (fun x => leBytes 4 (spdCfg x))
    ++ f.func.toList.flatMap (fun x => leBytes 4 (funcCfg x) ++ leBytes 4 x.limit.toNat ++ leBytes 4 x.hyst.toNat)

/-- SAFE_GET_CONFIG. -/
def execSafeGetConfig (pair : PairId) (s : State) : Host.Outcome State Fault Refusal :=
  serve s pair (readCmd 0x0803 2 0) (reads (fun s _ => okWith (safetyMapBytes s.safe)))

/-- SAFE_CLEAR (R416): a service frame with the request masks; answered after the safety tick that applies it. -/
def safeClearBody : Body := fun s p =>
  if 15 < u8 p 2 || u8 p 3 != 0 then (s, some (failWith stParam))
  else if !clearsPermitted s then (s, some (failWith stPermit))
  else
    let w := u8 p 0 * 2 ^ 8 + u8 p 1 * 2 ^ 16 + u8 p 2 * 2 ^ 24
    (safeApply s (BitVec.ofNat 64 w) true, none)

/-- SAFE_CLEAR (R416). -/
def execSafeClear (pair : PairId) (s : State) : Host.Outcome State Fault Refusal :=
  serve s pair (changeCmd 0x0804 2 4) safeClearBody

/-- SAFE_OUT_REQUEST (R415): a release frame that changes one bit of ON; answered after the safety tick that applies
it. -/
def outRequestBody : Body := fun s p =>
  if 7 < u8 p 0 || 1 < u8 p 1 || !allZero p 2 2 then (s, some (failWith stParam))
  else if !(s.weft.own = .bench && unlocked s) then (s, some (failWith stPermit))
  else
    let on := s.safe.output.toList.map (·.prevOn)
    (safeApply s (BitVec.ofNat 64 (bitsNum (on.set (u8 p 0) (u8 p 1 == 1)))) false, none)

/-- SAFE_OUT_REQUEST (R415). -/
def execSafeOutRequest (pair : PairId) (s : State) : Host.Outcome State Fault Refusal :=
  serve s pair (changeCmd 0x0805 2 4) outRequestBody

/-- The answer to a request that waits for the safety tick (R415, R416). -/
def safeAnswer (s : State) (i : Nat) : State := match (pairAt s i).job with
  | some j =>
    if j.command = 0x0804 then finishLong s i ⟨0, b2n s.safe.refused, []⟩
    else if j.command = 0x0805 then
      let why := ((s.safe.rejected.toList)[u8 j.payload 0]?.getD 0).toNat
      finishLong s i (if why = 0 then okEmpty else failDetail stPermit why)
    else s
  | none => s

/-- SAFETY_TICK (R386): the logic of one tick; then the requests that waited for it are answered. -/
def execSafetyTick (s : State) : Host.Outcome State Fault Refusal :=
  live s 10 (
    let applied := s.safe.release.isSome
    let s := safetyTick s
    if applied then [16, 17, 18, 19, 20, 21].foldl safeAnswer s else s)

end Sys2Proof.Machine
end

