-- ==== Sys2Proof/Machine/LaneMem.lean ====
section
/-! DEFINITION. The lane address map, what a lane may do in each region, the protection unit, and the performing
of loads and stores (chapter 6, with the register-block rules of each chapter). -/

namespace Sys2Proof.Machine

open Sys2Proof

/-- Fetch, load, store, or an atomic's load and store. -/
inductive Access where
  | fetch
  | load
  | store
  | atomic
deriving DecidableEq, Repr

/-- A region of the lane address map with the offset in it (Table 6.1, Table 2.6). -/
inductive Region where
  | dram (a : Nat)
  | itcm (o : Nat)
  | dtcm (o : Nat)
  /-- Own, sibling-A and sibling-B raw input images: 0, 1, 2. -/
  | raw (k o : Nat)
  | cons (o : Nat)
  | out (o : Nat)
  | retained (o : Nat)
  | published (o : Nat)
  | shadow (o : Nat)
  /-- Working bank, dirty map and catch-up control. -/
  | hidden
  | block (b o : Nat)
  | rack (a : Nat)
  | unmapped
deriving DecidableEq, Repr

/-- The region of an address (Table 6.1). -/
def regionOf (a : Nat) : Region :=
  if a < 0x400000000 then .dram a
  else if a < 0x4000000000 then .unmapped
  else if a < 0x4000040000 then .itcm (a - 0x4000000000)
  else if a < 0x4000080000 then .dtcm (a - 0x4000040000)
  else if a < 0x4100000000 then .unmapped
  else if a < 0x4100C00000 then .raw ((a - 0x4100000000) / 0x400000) ((a - 0x4100000000) % 0x400000)
  else if a < 0x4101000000 then .cons (a - 0x4100C00000)
  else if a < 0x4101400000 then .out (a - 0x4101000000)
  else if a < 0x4101500000 then .retained (a - 0x4101400000)
  else if a < 0x4101600000 then .hidden
  else if a < 0x4101680000 then .published (a - 0x4101600000)
  else if a < 0x4101700000 then .shadow (a - 0x4101680000)
  else if a < 0x4101800000 then .hidden
  else if a < 0x5000000000 then .unmapped
  else if a < 0x5000100000 then .block ((a - 0x5000000000) / 0x10000) ((a - 0x5000000000) % 0x10000)
  else if a < 0x6000000000 then .unmapped
  else if a < 0x6100000000 then .rack (a - 0x6000000000)
  else .unmapped

/-- The first region that matches an address, as its attributes (R219). -/
def protMatch (c : CtrlRegs) (page : Nat) : List (Fin 16) → Option Word
  | [] => none
  | i :: rest =>
    let at' := c.protAttr[i]
    let base := field c.protBase[i].toNat 39 12
    if at'.getLsbD 0 && decide (base ≤ page) && decide (page ≤ field at'.toNat 39 12) then some at'
    else protMatch c page rest

/-- The protection unit grants an access (R219). -/
def protGrants (k : Core) (a : Nat) (acc : Access) : Bool :=
  let sup := isSup k
  let bit := fun (at' : Word) (i : Nat) => at'.getLsbD (if sup then i + 3 else i)
  match protMatch k.cr (field a 39 12) (List.finRange 16) with
  | some at' => match acc with
    | .load => bit at' 1
    | .store => bit at' 2
    | .fetch => bit at' 3
    | .atomic => bit at' 1 && bit at' 2
  | none => match acc, regionOf a with
    | .fetch, .itcm _ => sup
    | .fetch, _ => false
    | _, _ => sup

/-- 64 MiB. -/
def unitSize : Nat := 0x4000000

/-- A lane's entry of the partition map. -/
def partOf (s : State) (l : LaneId) : PartEntry := s.lanes.parts[l.val]

/-- First byte of a lane's partition (R216). -/
def partBase (s : State) (l : LaneId) : Nat :=
  unitSize * ((s.lanes.parts.toList.take l.val).map (·.units)).sum

/-- The address lies in the lane's code pages (R217). -/
def inCode (s : State) (l : LaneId) (a : Nat) : Bool :=
  decide (partBase s l ≤ a) && decide (a < partBase s l + (partOf s l).codePages * 0x1000)

/-- The address lies in the partition that the core owns: the whole one in PAIRED, its units in SPLIT and
INDEPENDENT (R216). -/
def inPart (s : State) (c : CoreRef) (a : Nat) : Bool :=
  let p := partOf s c.lane
  let base := partBase s c.lane
  let mid := base + unitSize * (p.units - p.splitUnits)
  let top := base + unitSize * p.units
  if isSplit (laneOf s c.lane) then match c.core with
    | .leading => decide (base ≤ a) && decide (a < mid)
    | .trailing => decide (mid ≤ a) && decide (a < top)
  else decide (base ≤ a) && decide (a < top)

/-- The address lies in a packet-buffer slice assigned to the lane (R309). -/
def inSlice (s : State) (l : LaneId) (a size : Nat) : Bool :=
  s.pkt.slices.any (fun x => x.lane == l && decide (x.base ≤ a) && decide (a + size ≤ x.base + x.size))

/-- A byte of the output image lies in a vote group of the core (Table 6.2, R158). -/
def inGroup (s : State) (c : CoreRef) (o : Nat) : Bool :=
  s.maps.group.toList.any (fun g => match g with
    | some d => d.lane == c.lane && decide (d.offset ≤ o) && decide (o < d.offset + d.length)
        && (!isSplit (laneOf s c.lane) || d.trailing == (c.core == .trailing))
    | none => false)

/-- The core owns a 4 KiB retained block (R59, R158). -/
def ownsBlock (ln : Lane) (c : CoreSel) (b : Nat) : Bool := match ln.image with
  | none => false
  | some im =>
    if isSplit ln then match c with
      | .leading => im.ownL.contains b
      | .trailing => im.ownT.contains b
    else im.ownL.contains b || im.ownT.contains b

/-- What the fixed rules say of an access that the protection unit grants. -/
inductive Rule where
  | allow
  | deny
  /-- Performed in supervisor mode, TIMING_ACCESS in user mode (R194). -/
  | timing
  /-- CHECK_MISUSE of a context (R356). -/
  | misuse (ctx : Nat)
deriving DecidableEq, Repr

/-- A rule that a condition must also permit. -/
def Rule.when (b : Bool) (r : Rule) : Rule := if b then r else .deny

/-- Registers that are not timing-dependent among the 4-byte loads of blocks 0, 9, 10 and 11 (R167, R383, R413,
R433). -/
def steadyReg (b o : Nat) : Bool := match b with
  | 0 => o == 0x908 || (decide (o < 0x900) && o % 0x100 == 0)
  | 9 => o == 0 || (decide (0x40 ≤ o) && decide (o < 0xC0))
  | 10 => o == 0x20 || (decide (0x40 ≤ o) && decide (o < 0x80))
      || (decide (0x80 ≤ o) && decide (o < 0xC0) && o % 0x10 == 0)
      || (decide (0xC0 ≤ o) && decide (o < 0x100) && o % 0x10 != 0xC)
  | 11 => decide (o < 0x400) && decide (o % 0x40 < 0x18)
  | _ => false

/-- A mailbox offset that the lane reaches (R258). -/
def ownMbox (l : LaneId) (o : Nat) : Bool :=
  (decide (o < 0x8000) && o / 0x400 / 2 == l.val)
    || (decide (0x8000 ≤ o) && decide (o < 0x8180) && (o - 0x8000) / 0x10 / 2 == l.val)

/-- What a core may load from a register block (R167, R536, R258, R289, R356, R320, R321, R347, R383, R413, R433,
R126, R449, R505). The width comes before the binding of a check context (Table 5.16). DESIGN CHOICE: R212 names LW, LWU and
SW as the 4-byte accesses; FLW and FSW, of the same width, are permitted too (log entry 97). -/
def blockLoadRule (s : State) (c : CoreRef) (sup : Bool) (b o size : Nat) : Rule :=
  let four := size == 4
  let own := decide (o < 0x800) && o / 0x100 == c.lane.val || (decide (0x800 ≤ o) && decide (o < 0x900))
  match b with
  | 0 => .when (four && (own || (decide (0x900 ≤ o) && decide (o ≤ 0x910))))
      (if steadyReg 0 o then .allow else .timing)
  | 1 => .when (four && own) .timing
  | 3 => .when (sup && ownMbox c.lane o && (four || (size == 8 && decide (o < 0x8000)))) .allow
  | 5 => .when (four && decide (o < 0x400)) (if ctxUsable s c (o / 0x40) then .allow else .misuse (o / 0x40))
  | _ => .when four (if steadyReg b o then .allow else .timing)

/-- What a core may store to a register block. A user-mode store but to a usable check context is an access violation, a ring's
TAIL included (R532, which outranks R194, Table 5.16, log entry 24). FSW counts as a 4-byte store (log entry 97). -/
def blockStoreRule (s : State) (c : CoreRef) (sup : Bool) (b o size : Nat) : Rule :=
  let four := size == 4
  match b with
  | 0 => .when (four && sup && (o == c.lane.val * 0x100 + 4 || o == 0x804)) .allow
  | 3 => .when (sup && ownMbox c.lane o && (four || (size == 8 && decide (o < 0x8000)))
      && !(isSplit (laneOf s c.lane) && c.core == .trailing)) .allow
  | 5 =>
    let wide := four || (o % 0x40 == 0 && (size == 1 || size == 2))
    .when (wide && decide (o < 0x400))
      (if ctxUsable s c (o / 0x40) then .allow else if sup then .misuse (o / 0x40) else .deny)
  | 6 => if h : 0x1000 ≤ o ∧ o < 0x1400 then
      let r := s.pkt.ring[(o - 0x1000) / 0x10]
      .when (four && sup && o % 0x10 == 0xC && r.owner == 2 && r.lane.toNat == c.lane.val) .allow
    else .deny
  | 8 => .when (four && sup && o == 0x0C) .allow
  | _ => .deny

/-- The fixed rules of Table 6.2 for a load or a store. The exchange shadow of a SPLIT or INDEPENDENT lane belongs to L (R158);
DESIGN CHOICE: T's load of it is refused as its store is, since the cores share no writable memory (R206, log entry 96). -/
def accessRule (s : State) (c : CoreRef) (k : Core) (store : Bool) (a size : Nat) : Rule :=
  let sup := isSup k
  let ln := laneOf s c.lane
  match regionOf a with
  | .dram a =>
    if inCode s c.lane a then .when (!store) .allow
    else if inPart s c a then .allow
    else .when (sup && inSlice s c.lane a size) .allow
  | .itcm _ => .when (!store) .allow
  | .dtcm _ => .allow
  | .raw _ _ => .when (!store) .timing
  | .cons _ => .when (!store) .allow
  | .out o =>
    .when ((List.range size).all (fun i => inGroup s c (o + i)) && !(store && k.committed)) .allow
  | .retained o => .when (!store || ownsBlock ln c.core (o / 0x1000)) .allow
  | .published _ => .when (!store) .allow
  | .shadow o =>
    .when (o / 0x10000 == c.lane.val && !(isSplit ln && c.core == .trailing)) .allow
  | .hidden => .deny
  | .block b o => if store then blockStoreRule s c sup b o size else blockLoadRule s c sup b o size
  | .rack _ => .when (decide (size < 8)) .timing
  | .unmapped => .deny

/-- A lane may fetch from an address (Table 6.2). -/
def fetchRule (s : State) (c : CoreRef) (a : Nat) : Bool := match regionOf a with
  | .itcm _ => true
  | .dram a => inCode s c.lane a
  | _ => false

/-- The fetch of the next instruction is permitted (R204, R211, R219). -/
def fetchOk (s : State) (c : CoreRef) (k : Core) : Bool :=
  fetchRule s c k.pc.toNat && protGrants k k.pc.toNat .fetch

/-- The working copy of a retained block is the core's own (R58, R206). -/
def ownWorking (s : State) (c : CoreRef) (b : Nat) : Bool :=
  s.mem.written.contains b && ownsBlock (laneOf s c.lane) c.core b

/-- The number that a load finds in a memory of the module (R199); TCM stands in the core. -/
def memLoad (s : State) (c : CoreRef) (k : Core) (r : Region) (size : Nat) : Nat := match r with
  | .dram a => memLe s.mem.dram a size
  | .itcm o => memLe k.itcm o size
  | .dtcm o => memLe k.dtcm o size
  | .raw 0 o => memLe s.mem.rawOwn o size
  | .raw 1 o => memLe s.mem.rawA o size
  | .raw _ o => memLe s.mem.rawB o size
  | .cons o => memLe s.mem.cons o size
  | .out o => memLe s.mem.out o size
  | .retained o => memLe (if ownWorking s c (o / 0x1000) then s.mem.working else s.mem.retained) o size
  | .published o => memLe s.mem.published o size
  | .shadow o => memLe s.mem.shadow o size
  | _ => 0

/-- A load from a STALE published block marks the lane as having read stale data (R61). -/
def noteStale (s : State) (c : CoreRef) (r : Region) : State := match r with
  | .published o =>
    if h : o / 0x10000 < 8 then
      if (laneOf s ⟨o / 0x10000, h⟩).publishedStale then
        putLane s c.lane { laneOf s c.lane with readStale := true }
      else s
    else s
  | _ => s

/-- The own-lane alias of the LANE and FIRN blocks (R167). -/
def unalias (l : LaneId) (b o : Nat) : Nat :=
  if (b = 0 || b = 1) && 0x800 ≤ o && o < 0x900 then l.val * 0x100 + (o - 0x800) else o

/-- A load from a register block: the value, and what reading it latches. -/
def blockLoad (s : State) (l : LaneId) (b o size : Nat) : Nat × State :=
  let o := unalias l b o
  let v := (blockValue s b o).toNat + (if size = 8 then (blockValue s b (o + 4)).toNat * 2 ^ 32 else 0)
  (v, blockLatch s b o)

/-- The first write of an epoch to a retained block starts its working copy from the current one (R57). -/
def openBlock (m : Memory) (b : Nat) : Memory :=
  if m.written.contains b then m
  else { m with working := memCopy m.working (b * 0x1000) m.retained (b * 0x1000) 0x1000
                written := b :: m.written }

/-- A store to a memory of the module, TCM aside (R57, R58). -/
def memStore (s : State) (r : Region) (size : Nat) (v : Word) : State :=
  let m := s.mem
  match r with
  | .dram a => { s with mem := { m with dram := memPutLe m.dram a size v.toNat } }
  | .out o => { s with mem := { m with out := memPutLe m.out o size v.toNat } }
  | .retained o =>
    let m := openBlock m (o / 0x1000)
    { s with mem := { m with working := memPutLe m.working o size v.toNat } }
  | .shadow o => { s with mem := { m with shadow := memPutLe m.shadow o size v.toNat } }
  | _ => s

/-- A store of a lane or of Selvedge to the registers of a usable check context, at once (R357, Table 11.4). -/
def checkStore (s : State) (o size : Nat) (v : Word) : State :=
  let ctx := o / 0x40
  let x := ctxOf s ctx
  let w : U32 := v.extractLsb' 0 32
  match o % 0x40 with
  | 0x00 => putCtx s ctx (ctxFeed x (leBytes size v.toNat))
  | 0x04 => putCtx s ctx (ctxFold x w)
  | 0x08 => putCtx s ctx (ctxSet x (w.toNat + x.valHiStage.toNat * 2 ^ 32))
  | 0x0C => putCtx s ctx { x with valHiStage := w }
  | 0x18 => chkCompare s ctx w
  | 0x1C => putCtx s ctx { x with cmpHi := w }
  | 0x20 => if w.getLsbD 0 then putCtx s ctx (ctxInit x) else s
  | _ => s

/-- A mode request (R157, Table 4.14): other values, SPLIT where LANE_CFG does not permit it, and every write in
INDEPENDENT are ignored. -/
def modeRequest (s : State) (l : LaneId) (data : U32) : State :=
  let ln := laneOf s l
  let v := data.toNat % 4
  if s.lanes.independentActive || v > 1 || (v = 1 && !ln.splitAllowed) then s
  else putLane s l { ln with modeReq := BitVec.ofNat 2 v }

/-- A write of RING_r_TAIL hands over the entries up to it (R310, Table 9.16). -/
def ringTail (s : State) (r : Nat) (data : U32) : State :=
  match s.pkt.ring[r]? with
  | some x =>
    let x' : Ring := { x with tail := data.extractLsb' 0 12 }
    { s with pkt := { s.pkt with ring := s.pkt.ring.setIfInBounds r x' } }
  | none => s

/-- Byte enables of a rack access of `size` bytes at byte address `a` (R328). -/
def rackEnables (a size : Nat) : BitVec 4 := BitVec.ofNat 4 ((2 ^ size - 1) * 2 ^ (a % 4))

/-- Performs a store to a register block or to the outbound window (R136, R157, R258, R310, R329, R331); none
while the outbound queue is full. -/
def performStore (s : State) (c : CoreRef) (a size : Nat) (v : Word) : Option State :=
  match regionOf a with
  | .block 0 _ =>
    if isSplit (laneOf s c.lane) && c.core == .trailing then some s
    else some (modeRequest s c.lane (v.extractLsb' 0 32))
  | .block 3 o => some (mboxStore s c.lane o size v)
  | .block 6 o => some (ringTail s ((o - 0x1000) / 0x10) (v.extractLsb' 0 32))
  | .block 8 _ => some (rackLockWrite s c.lane.val (v.extractLsb' 0 32))
  | .rack a => rackPost s c.lane.val (BitVec.ofNat 32 a) (rackEnables a size)
      (BitVec.ofNat 32 (v.toNat % 2 ^ (8 * size) * 2 ^ (8 * (a % 4))))
  | _ => some s

/-- Performs the gated stores at the front of the gate whose window has been accepted, in program order (R136,
R201); it stops at one that has to wait. -/
def gatePerform (s : State) (l : LaneId) : List GateEntry → State
  | [] => putLane s l { laneOf s l with gate := [] }
  | e :: rest =>
    if decide ((laneOf s l).l.wseq.toNat = e.wseq.toNat) || (laneOf s l).l.closed.any (fun w => w.wseq == e.wseq) then
      putLane s l { laneOf s l with gate := e :: rest }
    else match performStore s ⟨l, .leading⟩ e.addr e.size e.data with
      | some s' => gatePerform s' l rest
      | none => putLane s l { laneOf s l with gate := e :: rest }

/-- Performs what the gate of a lane holds ready. -/
def gateRun (s : State) (l : LaneId) : State := gatePerform s l (laneOf s l).gate

end Sys2Proof.Machine
end

