-- ==== Sys2Proof/Machine/MemErrs.lean ====
section
/-! DEFINITION. Memory errors, what an access that meets one does, and the two scrubbers (chapter 6, R224 to R230). The model's
memories hold the bytes as they were written; where a word has gone wrong, the list of upsets says so. -/

namespace Sys2Proof.Machine

open Sys2Proof

/-- The physical address of a location of an area (Tables 6.1, 6.3). TCM copies lie lane by lane, L before T. -/
def locAddr (x : MemLoc) : Nat := match x.area.toNat with
  | 0x08 => 0x4000000000 + x.offset % 0x40000
  | 0x09 => 0x4000040000 + x.offset % 0x40000
  | 0x0A => 0x4100000000 + x.offset
  | 0x0B => 0x4100C00000 + x.offset
  | 0x0C => 0x4101000000 + x.offset
  | 0x0D => 0x4101400000 + x.offset
  | _ => x.offset

/-- Bytes of an area that the second scrubber passes over; 0 for an area that it does not (R228). The TCM copies are those of
sixteen lane cores, then those of Selvedge's two. -/
def scrubSize (area : Nat) : Nat := match area with
  | 0x08 => 18 * 0x40000
  | 0x09 => 18 * 0x40000
  | 0x0A => 0xC00000
  | 0x0B => 0x400000
  | 0x0C => 0x400000
  | 0x0D => 0x400000
  | _ => 0

/-- The area of a DRAM address (Tables 6.3, 6.9). -/
def dramArea (a : Nat) : Nat :=
  if a < 0x390000000 then 1 else if a < 0x3B0000000 then 2 else if a < 0x3F0000000 then 3 else 4

/-- The lane whose partition holds a DRAM address. -/
def partOwner (s : State) (a : Nat) : Option LaneId :=
  (List.finRange 8).find? (fun l => decide (partBase s l ≤ a) && decide (a < partBase s l + unitSize * (partOf s l).units))

/-- The lane that declares a 4 KiB retained block, and whether its trailing core does (R59, R158). -/
def blockOwner (s : State) (b : Nat) : Option LaneId :=
  (List.finRange 8).find? (fun l => (laneBlocks (laneOf s l)).contains b)

/-- The lane of a TCM copy; none for Selvedge's own. -/
def tcmLane (o : Nat) : Option LaneId := if h : o / 0x80000 < 8 then some ⟨o / 0x80000, h⟩ else none

/-- The lane that a location belongs to (Table 6.8, LAST_UE_LANE). -/
def locLane (s : State) (x : MemLoc) : Option LaneId := match x.area.toNat with
  | 0x01 => partOwner s x.offset
  | 0x05 => partOwner s x.offset
  | 0x06 => partOwner s x.offset
  | 0x07 => partOwner s x.offset
  | 0x08 => tcmLane x.offset
  | 0x09 => tcmLane x.offset
  | 0x0D =>
    if x.offset < 0x200000 then blockOwner s (x.offset % 0x100000 / 0x1000)
    else if x.offset < 0x300000 then some ⟨x.offset % 0x80000 / 0x10000 % 8, by omega⟩
    else none
  | _ => none

/-- A lane number as records and status registers carry it: 0xFF for none. -/
def laneNumber (l : Option LaneId) : Nat := (l.map (·.val)).getD 0xFF

/-- The record of a memory error (R229, Table 18.5). -/
def memRecord (s : State) (x : MemLoc) (uncorrectable : Bool) : State :=
  record s 0x13 0xFF04 (laneNumber (locLane s x))
    ([x.area, BitVec.ofNat 8 (b2n uncorrectable), 0, 0] ++ leBytes 8 (locAddr x))

/-- The row of Table 6.7 of a location, by which correctable errors are recorded (R229). -/
def ceRow (x : MemLoc) : Fin 16 := match x.area.toNat with
  | 0x02 => 1 | 0x03 => 2 | 0x04 => 3 | 0x08 => 4 | 0x09 => 4 | 0x0A => 5 | 0x0B => 5 | 0x0C => 6
  | 0x0D => if x.offset < 0x200000 then 7 else 8
  | _ => 0

/-- The counters of Table 6.8 with one corrected error more. -/
def countCe (m : Memory) (area : Nat) : Memory :=
  if area ≤ 4 then { m with dramCe := satInc m.dramCe }
  else if area = 5 || area = 6 then { m with cacheCe := satInc m.cacheCe }
  else if area = 8 || area = 9 then { m with tcmCe := satInc m.tcmCe }
  else { m with pisCe := satInc m.pisCe }

/-- The counters of Table 6.8 with one uncorrectable error more. -/
def countUe (m : Memory) (area : Nat) : Memory :=
  if area ≤ 4 then { m with dramUe := satInc m.dramUe }
  else if area = 5 || area = 6 then { m with cacheUe := satInc m.cacheUe }
  else if area = 8 || area = 9 then { m with tcmUe := satInc m.tcmUe }
  else { m with pisUe := satInc m.pisUe }

/-- A corrected error: counted, and recorded at the first and at every 1000th of its row of Table 6.7 (R224, R229). -/
def memCorrected (s : State) (x : MemLoc) : State :=
  let i := ceRow x
  let n := s.mem.ceCount[i] + 1
  let s := { s with mem := { countCe s.mem x.area.toNat with ceCount := s.mem.ceCount.set i n } }
  if n = 1 || n % 1000 = 0 then memRecord s x false else s

/-- A lane stopped by a memory error (R224): as after a core-class fault, but FIRN_STATUS stays as it is. -/
def memStopLane (s : State) (l : LaneId) : State := match (laneOf s l).epochState with
  | .stopped => s
  | .faulted => s
  | .shed => s
  | _ =>
    let s := laneEvent (stopLane s l) (8 + l.val)
    recordBit s 0 0x90C (8 + l.val) s.lanes.event.toNat l.val [0, 0]

/-- The digests of groups whose core has no accepted commit any more are dropped. -/
def dropUncommitted (s : State) : State :=
  { s with weft := { s.weft with ownDigest := Vector.ofFn (fun g => match s.maps.group[g] with
      | some d => if groupCommitted s d then s.weft.ownDigest[g] else none
      | none => none) } }

/-- A core whose commit of this epoch is rejected (R226). -/
def rejectCore (k : Core) : Core := { k with committed := false, rejected := true }

/-- A core of a SPLIT lane owns a retained block; without a block, the leading core is meant. -/
def ownerCore (ln : Lane) (c : CoreSel) (b : Option Nat) : Bool := match b with
  | some n => ownsBlock ln c n
  | none => c = .leading

/-- The owner of a retained block, or of an exchange shadow, overruns in this epoch (R226, R62): a lane that is COMMITTED is
LATE at once, as after a rejected commit of R61, and counts its overrun; one in COMPUTE is LATE at D_c (DEDUCED, log entry
93). -/
def memReject (s : State) (l : LaneId) (b : Option Nat) : State :=
  let ln := laneOf s l
  let ln' := { ln with
    l := if !isSplit ln || ownerCore ln .leading b then rejectCore ln.l else ln.l
    t := if !isSplit ln || ownerCore ln .trailing b then rejectCore ln.t else ln.t
    caughtUp := false }
  match ln.epochState with
  | .committed =>
    dropUncommitted (epochEvent (putLane s l { ln' with epochState := .late, ovrCnt := satInc ln.ovrCnt }) l.val)
  | .compute => dropUncommitted (putLane s l ln')
  | .waitSeal => putLane s l ln'
  | _ => putLane s l { ln with caughtUp := false }

/-- A retained block that an error has hit (R226): it is marked dirty. With no sibling in V it takes the initial value, 0, and
the lane abstains until admission. -/
def memRetained (s : State) (b : Nat) : State := match blockOwner s b with
  | none => s
  | some l =>
    let s := memReject s l (some b)
    let s := { s with mem := { s.mem with lostBlocks := b :: s.mem.lostBlocks.filter (· != b) } }
    if (maskSlots s.weft.voters).all (· == s.slot.toNat) then
      let m := { s.mem with retained := memZero s.mem.retained (b * 4096) 4096
                            working := memZero s.mem.working (b * 4096) 4096
                            written := s.mem.written.filter (· != b), lostBlocks := s.mem.lostBlocks.filter (· != b)
                            upsets := s.mem.upsets.filter (fun u => u.loc.area != 0x0D || u.loc.offset % 0x100000 / 0x1000 != b
                              || decide (0x200000 ≤ u.loc.offset)) }
      putLane { s with mem := m } l { laneOf s l with admits := 0, admitted := false }
    else s

/-- A published block is marked STALE for the rest of the epoch (Table 6.7). An exchange shadow is the working copy of its
lane (DESIGN CHOICE, log entry 57). -/
def memExchange (s : State) (o : Nat) : State :=
  let l : LaneId := ⟨o % 0x80000 / 0x10000 % 8, by omega⟩
  if o < 0x280000 then putLane s l { laneOf s l with publishedStale := true }
  else memReject s l none

/-- A lane whose commits of this epoch a damaged input image rejects after the fact (R225, R61): it is LATE, as after a stale read
at its commit, and DIVERGED at the boundary. -/
def rejectStale (s : State) (l : LaneId) : State :=
  let ln := laneOf s l
  if ln.l.committed || ln.t.committed then
    let st := if ln.epochState = .committed then .late else ln.epochState
    epochEvent (putLane s l { dropCommits ln with epochState := st, staleRejected := true }) (8 + l.val)
  else s

/-- A raw input image or the consolidated image is hit (R225): no further RAW frame is sent, those that wait included, no group is
offered, and every lane has read stale data, so that no commit of the epoch stands (DEDUCED, log entry 98). -/
def memImage (s : State) : State :=
  let s := (List.finRange 8).foldl rejectStale (abstainEpoch s)
  let hold := fun (k : Link) => { k with txq := k.txq.filter (fun f => f.type != 0x10) }
  { s with epoch := { s.epoch with noRaw := true }
           weft := { s.weft with a := hold s.weft.a, b := hold s.weft.b, ownDigest := Vector.replicate 16 none } }

/-- The module abstains in the group whose bytes hold the error (Table 6.7, R69). -/
def memOutput (s : State) (o : Nat) : State :=
  let hit := allGroups.filter (fun g => match s.maps.group[g] with
    | some d => decide (d.offset ≤ o) && decide (o < d.offset + d.length)
    | none => false)
  let e := { s.epoch with abstainGroups := hit.foldl (fun m g => setBit m g.val) s.epoch.abstainGroups }
  let w := { s.weft with ownDigest := Vector.ofFn (fun g => if hit.contains g then none else s.weft.ownDigest[g]) }
  { s with epoch := e, weft := w }

/-- A frame or descriptor in the packet area is discarded and counted (R224, R310). Which staged telegram the engine holds at the
place the spec does not say: a free value picks one, or none (log entry 98). -/
def memPacket (s : State) : State :=
  let (n, s) := takeFree s
  let k := (Config.freeWord n).toNat % (s.pkt.subs.length + 1)
  { s with pkt := { s.pkt with
      bufUe := satInc s.pkt.bufUe, event := setBit s.pkt.event 6
      subs := s.pkt.subs.modify k (fun d => { d with staged := d.staged.drop 1 }) } }

/-- A staged record is lost, and a loss record tells so (Table 6.7, R504): the slot of a record is its SEQ modulo the
records that staging holds. -/
def memStaging (s : State) (a : Nat) : State :=
  let slot := (a - 0x3F0000000) / 64
  let hit := fun (r : MorRecord) => r.seq.toNat % 4194304 == slot
  match s.mor.staged.find? hit with
  | none => s
  | some r =>
    let m := { s.mor with staged := s.mor.staged.filter (fun q => !hit q), lost := satInc s.mor.lost
                          event := setBit s.mor.event 0 }
    { s with mor := morStage m (morMake s 14 0xFF08 0xFF (leBytes 4 1 ++ leBytes 8 r.seq.toNat)) }

/-- An uncorrectable error in a TCM copy stops its lane; in Selvedge's it is a Selvedge failure (Table 6.7, R233). -/
def memTcm (s : State) (o : Nat) : State := match tcmLane o with
  | some l => memStopLane s l
  | none => selvedgeFail s

/-- The effect of an uncorrectable error for its area (Table 6.7, R227). `dirty` tells of a line of the level-2 cache; a clean one is
read again from DRAM and has no effect of its own. -/
def memEffect (s : State) (x : MemLoc) (dirty : Bool) : State :=
  let owner := match partOwner s x.offset with
    | some l => memStopLane s l
    | none => s
  match x.area.toNat with
  | 0x01 => owner
  | 0x02 => selvedgeFail s
  | 0x03 => memPacket s
  | 0x04 => memStaging s x.offset
  | 0x05 => owner
  | 0x06 => if dirty then owner else s
  | 0x08 => memTcm s x.offset
  | 0x09 => memTcm s x.offset
  | 0x0A => memImage s
  | 0x0B => memImage s
  | 0x0C => memOutput s x.offset
  | 0x0D =>
    if x.offset < 0x200000 then memRetained s (x.offset % 0x100000 / 0x1000)
    else if x.offset < 0x300000 then memExchange s x.offset
    else s
  | _ => s

/-- An uncorrectable error: counted, shown in the memory status block, recorded, and handled (R224, R227, R229, R230). -/
def memUncorrectable (s : State) (x : MemLoc) (dirty : Bool) : State :=
  let i := x.area.toNat
  let m := { countUe s.mem i with lastUeAddr := locAddr x, lastUeArea := i, lastUeLane := laneNumber (locLane s x)
                                  lastUeEpoch := s.epoch.no }
  memEffect (memRecord { s with mem := m } x true) x dirty

/-- What a read of a protected location finds. -/
def memFound (s : State) (x : MemLoc) : MemErr → State
  | .none => s
  | .correctable => memCorrected s x
  | .uncorrectable => memUncorrectable s x true

/-- A word stays wrong after it has been read, until it is written: two wrong bits in a memory that nothing else discards. -/
def stays (u : Upset) : Bool := u.double && match u.loc.area.toNat with
  | 0x03 => false | 0x04 => false | 0x05 => false | 0x06 => false | 0x07 => false
  | _ => true

/-- An access meets one upset (Table 6.7): a single bit is corrected in place, an instruction-cache line is fetched again, and a
double error is handled. -/
def meetOne (s : State) (u : Upset) : State :=
  let s := if stays u then s else { s with mem := { s.mem with upsets := s.mem.upsets.erase u } }
  if u.loc.area = 0x07 then { s with mem := { s.mem with icachePar := satInc s.mem.icachePar } }
  else if u.double then memUncorrectable s u.loc u.dirty
  else memCorrected s u.loc

/-- An access meets the upsets for which `hit` holds. -/
def meet (s : State) (hit : Upset → Bool) : State := (s.mem.upsets.filter hit).foldl meetOne s

/-- An upset lies in a word of 8 bytes that `n` bytes from offset `o` of an area touch. -/
def upsetIn (area o n : Nat) (u : Upset) : Bool :=
  u.loc.area.toNat == area && decide (o / 8 ≤ u.loc.offset / 8) && decide (u.loc.offset < o + n)

/-- A read of `n` bytes from offset `o` of an area. -/
def touch (s : State) (area o n : Nat) : State := meet s (upsetIn area o n)

/-- Words that are written anew hold right bits again. -/
def rewritten (m : Memory) (hit : Upset → Bool) : Memory := { m with upsets := m.upsets.filter (fun u => !hit u) }

/-- The area of Table 6.9 and the place in it of a region that a core reaches; TCM is the core's own copy. -/
def regionLoc (s : State) (c : CoreRef) (r : Region) : Option MemLoc :=
  let tcm := c.lane.val * 0x80000 + (if c.core = .trailing then 0x40000 else 0)
  match r with
  | .dram a => some ⟨BitVec.ofNat 8 (dramArea a), a⟩
  | .itcm o => some ⟨0x08, tcm + o⟩
  | .dtcm o => some ⟨0x09, tcm + o⟩
  | .raw k o => some ⟨0x0A, k * 0x400000 + o⟩
  | .cons o => some ⟨0x0B, o⟩
  | .out o => some ⟨0x0C, o⟩
  | .retained o => some ⟨0x0D, if ownWorking s c (o / 0x1000) then 0x100000 + o else o⟩
  | .published o => some ⟨0x0D, 0x200000 + o⟩
  | .shadow o => some ⟨0x0D, 0x280000 + o⟩
  | _ => none

/-- The upsets that an access of a core to `n` bytes of a region meets: those of the memory, and for a DRAM partition those of the
data caches, or of the instruction cache on a fetch (R222). -/
def accessHits (s : State) (c : CoreRef) (r : Region) (n : Nat) (fetch : Bool) (u : Upset) : Bool :=
  match regionLoc s c r with
  | some x =>
    upsetIn x.area.toNat x.offset n u || (x.area == 0x01 &&
      (upsetIn (if fetch then 0x07 else 0x05) x.offset n u || upsetIn 0x06 x.offset n u))
  | none => false

/-- An upset stops the lane that meets it (Table 6.7). -/
def stopsLane (u : Upset) : Bool := u.double && match u.loc.area.toNat with
  | 0x01 => true | 0x05 => true | 0x06 => u.dirty | 0x08 => true | 0x09 => true | _ => false

/-- What the data of an access come to. -/
inductive Delivered where
  /-- As stored, or corrected. -/
  | good
  /-- Never delivered, in a memory that does not stop the lane: the instruction runs on with a free value (log entry 98). -/
  | open
  /-- Never delivered: the lane has stopped. -/
  | stopped
deriving DecidableEq, Repr

/-- An access of a core to a region as far as its data go (R224): what it meets, and what is delivered. -/
def access (s : State) (c : CoreRef) (r : Region) (n : Nat) (fetch : Bool) : State × Delivered :=
  let hits := s.mem.upsets.filter (accessHits s c r n fetch)
  (meet s (accessHits s c r n fetch),
    if hits.any stopsLane then .stopped else if hits.any (fun u => u.double && stays u) then .open else .good)

/-- A store of a core to a region: whole words of 8 bytes are right afterwards, and in a word that it writes in part it meets what
is there (R224, R227). -/
def storeMeets (s : State) (c : CoreRef) (r : Region) (n : Nat) : State × Delivered :=
  if n = 8 then ({ s with mem := rewritten s.mem (accessHits s c r n false) }, .good) else access s c r n false

/-- Bursts of one patrol pass (R228). -/
def patrolBursts : Nat := 268435456

/-- PATROL_SCRUB (R228): one burst is read, and the position moves on; `err` is what the read found besides the upsets that
the model knows of. -/
def execPatrolScrub (err : MemErr) (s : State) : Host.Outcome State Fault Refusal :=
  let a := s.mem.scrubBurst * 64
  let s' := meet (memFound s ⟨BitVec.ofNat 8 (dramArea a), a⟩ err) (upsetIn (dramArea a) a 64)
  let last := decide (patrolBursts ≤ s.mem.scrubBurst + 1)
  live s 7 { s' with mem := { s'.mem with
    scrubBurst := if last then 0 else s.mem.scrubBurst + 1
    scrubPasses := if last then satInc s'.mem.scrubPasses else s'.mem.scrubPasses } }

/-- A TCM location is scrubbed while its domain runs: that of its lane, or PD1 for Selvedge's. -/
def scrubbed (s : State) (x : MemLoc) : Bool :=
  decide (x.offset < scrubSize x.area.toNat)
    && (decide (10 ≤ x.area.toNat) || running s (if x.offset < 0x400000 then 3 + x.offset / 0x100000 else 1))

/-- SRAM_SCRUB (R228): a pass over the process-image SRAM and every TCM copy; `errs` are the locations at which it found
an error besides the upsets that the model knows of. Other locations are not part of the pass. -/
def execSramScrub (errs : List (MemLoc × MemErr)) (s : State) : Host.Outcome State Fault Refusal :=
  let t := errs.foldl (fun s e => if scrubbed s e.1 then memFound s e.1 e.2 else s) s
  live s 2 (meet t (fun u => scrubbed s u.loc))

end Sys2Proof.Machine
end

