-- ==== Sys2Proof/Machine/MorOps.lean ====
section
/-! DEFINITION. The Moraine recorder: the flush of staged records to the ring and the rate windows (chapter 18, R501 to
R504). -/

namespace Sys2Proof.Machine

open Sys2Proof

/-- Records of 64 bytes in a unit of 64 KiB (R504, Table 18.3). -/
def morUnit : Nat := 1024

/-- Records that the ring of 32 GiB holds (Table 16.4), without its retired units. -/
def morCapacity (m : Moraine) : Nat := (524288 - m.badUnits.toNat) * morUnit

/-- Records written to the ring: when it is full, the oldest unit is overwritten and WRAPPED is set (R504). -/
def morWrite (m : Moraine) (rs : List MorRecord) : Moraine :=
  let all := m.ring ++ rs
  let excess := all.length - morCapacity m
  if excess = 0 then { m with ring := all }
  else { m with ring := all.drop ((excess + morUnit - 1) / morUnit * morUnit), event := setBit m.event 3 }

/-- Every staged record goes to the ring in SEQ order (R504). -/
def morFlush (m : Moraine) : Moraine := { morWrite m m.staged with staged := [], flushing := false }

/-- Units whose flash write fails are retired for good and skipped, and FLASH_ERR is set (R504). -/
def morRetire (m : Moraine) (bad : Nat) : Moraine :=
  if bad = 0 then m else { m with badUnits := satAdd m.badUnits bad, event := setBit m.event 2 }

/-- MORAINE_FLUSH (R504): a staged record that holds an uncorrectable error is lost (Table 6.7). How many units
fail their flash write is a free value (log entry 109). -/
def execMoraineFlush (s : State) : Host.Outcome State Fault Refusal :=
  let (n, t) := takeFree (meet s (fun u => u.loc.area == 0x04))
  live s 1 (if s.mor.running then { t with mor := morFlush (morRetire t.mor (Config.flashFails n)) } else s)

/-- The 0xFF08 record of one source, which is not itself limited (R503). -/
def lossRecord (s : State) (i : Fin 20) : State :=
  let w := s.mor.window[i]
  let s := { s with mor := { s.mor with window := s.mor.window.set i ⟨0, 0, 0⟩ } }
  let r := morMake s i.val 0xFF08 0xFF (leBytes 4 w.dropped ++ leBytes 8 w.firstLost.toNat)
  if w.dropped = 0 then s else { s with mor := morStage s.mor r }

/-- RATE_WINDOW_END (R503): the 10 ms window of every source ends. -/
def execRateWindowEnd (s : State) : Host.Outcome State Fault Refusal :=
  live s 1 (if s.mor.running then (List.finRange 20).foldl lossRecord s else s)

/-- The power-loss record of stage 4 goes to the ring ahead of the records still pending, out of SEQ order (R504). -/
def powerLossRecord (s : State) (elapsed : Nat) : State :=
  let r := morMake s 0x12 0xFF06 0xFF
    ([4, BitVec.ofNat 8 (b2n s.power.backstop)] ++ leBytes 2 s.power.energy.toNat ++ leBytes 4 elapsed)
  { s with mor := morWrite { s.mor with nextSeq := s.mor.nextSeq + 1 } [{ r with seq := s.mor.nextSeq }] }

end Sys2Proof.Machine
end

