-- ==== Sys2Proof/Machine/MuslinOps.lean ====
section
/-! DEFINITION. The analog channels: the resampler, the detectors and the limit comparator at each F_h sample, what a
boundary latches and resets, and the analog group of mailbox commands (chapter 14). -/

namespace Sys2Proof.Machine

open Sys2Proof

/-- The largest code of a stage (R419). -/
def muMax : Int := 8388607

/-- `rnd(v, n)`: division by 2^n, ties toward plus infinity (R419). -/
def rnd (v : Int) (n : Nat) : Int := (v + 2 ^ (n - 1)) / 2 ^ n

/-- A stage result, saturated to 24 bits, and whether it saturated. -/
def muSat (v : Int) : Int × Bool := if muMax < v then (muMax, true) else if v < -muMax then (-muMax, true) else (v, false)

/-- Sets a bit of MU_EVENT. -/
def muEvent (s : State) (bit : Nat) : State :=
  { s with muslin := { s.muslin with event := setBit s.muslin.event bit } }

/-- The state with a channel replaced. -/
def putMu (s : State) (c : Fin 16) (x : MuChan) : State :=
  { s with muslin := { s.muslin with chan := s.muslin.chan.set c.val x } }

/-- Taps per phase of a prototype (Table 14.4). -/
def protoTaps (code : Nat) : Nat := match code with
  | 0 => 8 | 1 => 12 | 2 => 16 | 3 => 24 | 4 => 32 | _ => 48

/-- Taps of a half-band response (Table 14.3). -/
def hbTaps (code : Nat) : Nat := match code with
  | 0 => 11 | 1 => 19 | 2 => 27 | 3 => 35 | 4 => 43 | 5 => 51 | 6 => 59 | _ => 63

/-- M of a channel (R421). -/
def muM (g : MuCfg) : Nat := g.mMinus1.toNat + 1

/-- The period of F_h in units of 2^-16 ns. -/
def muPeriod (g : MuCfg) : Nat := 102400000 * 2 ^ g.hbCount.toNat

/-- The output of phase `p` over the history: a 48-bit accumulator, rounded once and saturated (R419, R422). -/
def phaseOut (g : MuCfg) (h : List (Nat × Int)) (p : Nat) : Int × Bool :=
  let t := protoTaps g.proto.toNat
  let term := fun (j : Nat) => (Config.prototype g.proto.toNat (p * t + j)).toInt * ((h[j]?.map (·.2)).getD 0)
  muSat (rnd (sxInt (((List.range t).map term).sum) 48) 30)

/-- The instant t_k of a sample in units of 2^-16 ns (R422). -/
def sampleInstant (s : State) (g : MuCfg) (k : Nat) : Nat :=
  boundaryNs s.epoch * 2 ^ 16 + k * (epochNs s.epoch * 2 ^ 16) / muM g

/-- One sample of the resampler at instant `t` (R422): μ is the fraction of the input period since the newest F_h
sample, cut to 24 bits (log entry 41). -/
def resample (g : MuCfg) (h : List (Nat × Int)) (t : Nat) : Int × Bool :=
  let x := (h.head?.map (·.1)).getD t
  let mu := min ((t - x) * 2 ^ 24 / muPeriod g) (2 ^ 24 - 1)
  let a := phaseOut g h (mu / 65536)
  let b := phaseOut g h (mu / 65536 + 1)
  let v := muSat (a.1 + rnd ((b.1 - a.1) * ((mu % 65536 : Nat) : Int)) 16)
  (v.1, a.2 || b.2 || v.2)

/-- The samples of the running epoch whose instants lie before `limit` are computed, in order. -/
def resampleTo (s : State) (limit : Nat) : Nat → MuChan → MuChan
  | 0, x => x
  | n + 1, x =>
    let k := x.samples.length
    let t := sampleInstant s x.cfg k
    if k < muM x.cfg && t < limit then
      let r := resample x.cfg x.history t
      resampleTo s limit n { x with samples := x.samples ++ [r.1], ovrNow := x.ovrNow || r.2 }
    else x

/-- One step of the envelope (R425). -/
def envStep (g : MuCfg) (e x : Int) : Int :=
  let a := x.natAbs
  let sh := if e < (a : Int) then g.attack.toNat + 2 else g.release.toNat + 2
  e + ((a : Int) - e) / 2 ^ sh

/-- A code of a limit register. -/
def muCode (v : U32) : Int := v.toInt

/-- The limit states that one sample passes through, in order (R426). -/
def limitPath (g : MuCfg) (st : LimitState) (x : Int) : List LimitState :=
  let hyst : Int := g.hyst.toNat
  let fromNormal := if muCode g.high < x then [LimitState.high] else if x < muCode g.low then [LimitState.low] else []
  match st with
  | .normal => fromNormal
  | .high => if x < muCode g.high - hyst then .normal :: (if x < muCode g.low then [.low] else []) else []
  | .low => if muCode g.low + hyst < x then .normal :: (if muCode g.high < x then [.high] else []) else []

/-- A limit item (R427): at most EVENT_LIMIT of the block enter one raw image. -/
def limitItem (s : State) (c : Fin 16) (st : LimitState) (stamp : Nat) : State :=
  let m := s.muslin
  if itemsBeside s.epoch stamp 3 m.items ≥ m.eventLimit then { (muEvent s 5) with muslin := { (muEvent s 5).muslin with lostMark := true, dropped := m.dropped + 1 } }
  else
    let body := b8 c.val ++ b8 (limitCode st) ++ b8 (b2n m.lostMark) ++ zeros 5 ++ leBytes 8 stamp
    let x := m.chan[c]
    let s := putMu s c { x with events := satInc x.events }
    let items := if joinsClosing s.epoch stamp then m.items else m.items + 1
    queueItem { s with muslin := { s.muslin with items := items, lostMark := false } } stamp 3 c.val body
      (markLate 2)

/-- A channel enters a limit state (R426, R427). -/
def limitTo (s : State) (c : Fin 16) (st : LimitState) (stamp : Nat) : State :=
  let x := s.muslin.chan[c]
  let s := muEvent (putMu s c { x with limit := st }) 3
  if x.cfg.evtEn then limitItem s c st stamp else s

/-- A code sets OVR (Table 14.1). -/
def rangeOver (g : MuCfg) (v : Int) : Bool := v == muMax || v == -muMax || (g.range == 2 && decide (v < -163840))

/-- The detectors, the envelope and the history take an F_h sample (R424, R425). -/
def takeSample (x : MuChan) (at16 : Nat) (v : Int) : MuChan :=
  { x with ovrNow := x.ovrNow || rangeOver x.cfg v, count := x.count + 1
           runMax := if x.count = 0 then v else max x.runMax v, runMin := if x.count = 0 then v else min x.runMin v
           sumSq := x.sumSq + v.natAbs * v.natAbs, e := envStep x.cfg x.e v
           history := ((at16, v) :: x.history).take 48 }

/-- A channel works: configured, with valid data (R432). -/
def muRuns (x : MuChan) : Bool := x.cfg.range != 0 && x.valid

/-- ANALOG_SAMPLE (R422, R424 to R427): an F_h sample, with the TB2 instant in units of 2^-16 ns of the last modulator
bit that entered it. -/
def execAnalogSample (ch : Fin 16) (at16 : Nat) (code : BitVec 24) (s : State) : Host.Outcome State Fault Refusal :=
  let x := s.muslin.chan[ch]
  let v := (muSat code.toInt).1
  live s 11 (if !muRuns x then s
    else
      let x := takeSample (if s.epoch.running then resampleTo s at16 (muM x.cfg) x else x) at16 v
      (limitPath x.cfg x.limit v).foldl (fun s st => limitTo s ch st (at16 / 2 ^ 16)) (putMu s ch x))

/-- A channel of the current range (R418). -/
def isCurrent (x : MuChan) : Bool := x.cfg.range == 4

/-- ANALOG_OPEN (R418): below 3.6 mA for 10 ms, or not below it for 10 ms. -/
def execAnalogOpen (ch : Fin 16) (low : Bool) (s : State) : Host.Outcome State Fault Refusal :=
  let x := s.muslin.chan[ch]
  live s 11 (if !isCurrent x || x.openFlag == low || (x.disconnected && !low) then s
    else
      let s := putMu s ch { x with openFlag := low, openSeen := x.openSeen || low }
      if low then muEvent s 1 else s)

/-- ANALOG_OVERCUR (R418): above 21 mA for 10 ms, or not above it for 10 ms. -/
def execAnalogOvercur (ch : Fin 16) (high : Bool) (s : State) : Host.Outcome State Fault Refusal :=
  let x := s.muslin.chan[ch]
  live s 11 (if !isCurrent x || x.overcur == high then s
    else
      let s := putMu s ch { x with overcur := high, overcurSeen := x.overcurSeen || high }
      if high then muEvent s 2 else s)

/-- BURDEN_DISCONNECT (R418): above 30 mA for 10 ms; the channel sets OPEN while it is disconnected. -/
def execBurdenDisconnect (ch : Fin 16) (s : State) : Host.Outcome State Fault Refusal :=
  let x := s.muslin.chan[ch]
  live s 11 (if !isCurrent x || x.disconnected then s
    else
      let s := putMu s ch { x with disconnected := true, openFlag := true, openSeen := true }
      if x.openFlag then s else muEvent s 1)

/-- BURDEN_RECONNECT (R418): 1 s after the disconnection. -/
def execBurdenReconnect (ch : Fin 16) (s : State) : Host.Outcome State Fault Refusal :=
  live s 11 (putMu s ch { s.muslin.chan[ch] with disconnected := false })

/-- CHAIN_FAULT (R432): the channel is invalid until it resets at the next boundary; after a second fault within
3600 s, until restart. The failure is recorded (R31). -/
def execChainFault (ch : Fin 16) (s : State) : Host.Outcome State Fault Refusal :=
  let x := s.muslin.chan[ch]
  let again := x.faults.any (fun t => decide (tb3 s ≤ t + 3600000000000))
  live s 11 (if x.cfg.range = 0 then s
    else
      let t := muEvent (putMu s ch { x with valid := false, faults := tb3 s :: x.faults, dead := x.dead || again
                                            resetDue := some (x.resetDue.getD 0) }) 6
      recordBit t 11 0x404 6 t.muslin.event.toNat 0xFF [BitVec.ofNat 8 ch.val])

/-- MU_SYNC_WRITE (R428 cause 5). -/
def execMuSyncWrite (data : U32) (s : State) : Host.Outcome State Fault Refusal :=
  live s 11 (muRequest s (data.toNat % 65536))

/-- The integer square root of a number below 2^48. -/
def muSqrt (n : Nat) : Nat :=
  (List.range 24).foldl (fun r i =>
    let t := r + 2 ^ (23 - i)
    if t * t ≤ n then t else r) 0

/-- D in units of 1/16 ns (R429): sinc, half-band stages and resampler. -/
def muDelay (g : MuCfg) : Nat :=
  let d := fun (c : Nat) => (hbTaps c - 1) / 2
  let stage := fun (j : Nat) => d (g.hb.toNat / 2 ^ (3 * j) % 8) * 25000 * 2 ^ j
  46875 + ((List.range g.hbCount.toNat).map stage).sum + protoTaps g.proto.toNat / 2 * 25000 * 2 ^ g.hbCount.toNat

/-- Leading samples that are SETTLING after a reset: ⌈2D × F_r⌉ (R429). -/
def muSettle (s : State) (g : MuCfg) : Nat :=
  let n := 2 * muDelay g * muM g
  let d := 16 * epochNs s.epoch
  (n + d - 1) / d

/-- The window of the detectors closes at B(n) (R424). -/
def closeWindow (n : Nat) (x : MuChan) : MuChan :=
  if n % max 1 x.cfg.ne.toNat = 0 then
    let got := x.count != 0
    { x with peakMax := if got then BitVec.ofInt 32 x.runMax else x.peakMax
             peakMin := if got then BitVec.ofInt 32 x.runMin else x.peakMin
             rms := if got then BitVec.ofNat 32 (muSqrt (x.sumSq / x.count)) else x.rms
             detSettling := !x.winSettled, count := 0, runMax := 0, runMin := 0, sumSq := 0 }
  else x

/-- The window that opens at B(n) opens after the settling time (R429). -/
def openWindow (s : State) (x : MuChan) : MuChan :=
  if s.epoch.no.toNat % max 1 x.cfg.ne.toNat = 0 then
    { x with winSettled := decide (x.resetAt * 16 + 2 * muDelay x.cfg * 2 ^ 16 ≤ boundaryNs s.epoch * 16 * 2 ^ 16) }
  else x

/-- The signals of a channel (Table 14.6). -/
def muSignals (x : MuChan) : List Nat :=
  let m := muM x.cfg
  if x.valid then
    [1, b2n x.ovr, b2n x.openSeen, b2n x.overcurSeen, b2n x.detSettling, x.settleCount.toNat, x.peakMax.toNat
    , x.peakMin.toNat, x.rms.toNat, x.env.toNat] ++ x.samples.map (fun v => (BitVec.ofInt 32 v).toNat)
  else List.replicate (10 + m) 0

/-- What a channel latches at B(n) of the epoch that ends (R423, R424, R429). `prev` is the state of that epoch. -/
def latchChan (prev s : State) (x : MuChan) : MuChan :=
  let m := muM x.cfg
  let x := if prev.epoch.running then resampleTo prev (boundaryNs s.epoch * 2 ^ 16) m x else x
  let x := { x with samples := (x.samples ++ List.replicate (m - x.samples.length) 0).take m }
  let x := closeWindow s.epoch.no.toNat x
  let n := min m x.settleLeft
  { x with ovr := x.ovrNow, ovrNow := false, settleCount := BitVec.ofNat 16 n, settleLeft := x.settleLeft - n
           settling := n != 0, env := BitVec.ofInt 32 x.e }

/-- A channel without valid data shows zeros (R432). -/
def blankChan (x : MuChan) : MuChan :=
  { x with ovr := false, ovrNow := false, openFlag := false, overcur := false, openSeen := false, overcurSeen := false, settling := false, detSettling := false
           settleCount := 0, peakMax := 0, peakMin := 0, rms := 0, env := 0, samples := [] }

/-- A synchronising reset at B(n) (R428, R429). -/
def resetChan (s : State) (x : MuChan) : MuChan :=
  { x with history := [], count := 0, runMax := 0, runMin := 0, sumSq := 0, e := 0, limit := .normal
           winSettled := false, detSettling := true, settleLeft := muSettle s x.cfg, resetAt := boundaryNs s.epoch * 2 ^ 16 }

/-- The reset of a channel at B(n), if one is due (R428, R432). -/
def chanReset (s : State) (word : Bool) (x : MuChan) : MuChan × Bool :=
  let due := match x.resetDue with
    | some t => decide (t ≤ boundaryNs s.epoch)
    | none => false
  if x.cfg.range = 0 || !(due || x.resetNow || word) then (x, false)
  else
    let y := resetChan s x
    ({ y with valid := x.valid || (due && !x.dead), resetDue := if due then none else x.resetDue, resetNow := false }
    , true)

/-- The channels at B(n): latch and signals, then resets, then new settings (R423, R428, R433). `word` is the released
sync word of R431, 0 for none; `prev` is the state of the epoch that ends. -/
def latchMuslin (prev s : State) (word : Nat) : State :=
  if !powered s 11 then s
  else
    let one := fun (s : State) (c : Fin 16) =>
      let x := s.muslin.chan[c]
      if x.cfg.range = 0 then s
      else
        let x := if x.valid then latchChan prev s x else blankChan x
        let s := rawSetAll s x.signal (muSignals x)
        let s := if x.ovr then muEvent s 0 else s
        let r := chanReset s (bitOf word c.val) x
        let y := openWindow s { r.1 with samples := [], openSeen := x.openFlag, overcurSeen := x.overcur, cfg := x.cfgNext.getD x.cfg
                                         cfgNext := none }
        let s := putMu s c y
        if r.2 then muEvent s 4 else s
    let s := (List.finRange 16).foldl one s
    { s with muslin := { s.muslin with items := 0 } }

/-- The channels when PD11 is shed: their signals read 0 at every boundary (R432). -/
def blankMuslin (s : State) : State :=
  if powered s 11 then s
  else s.muslin.chan.toList.foldl (fun s x =>
    if x.cfg.range = 0 then s else rawSetAll s x.signal (List.replicate (10 + muM x.cfg) 0)) s

/-- ANA_GET_STATUS (Table 14.10). -/
def execAnaGetStatus (pair : PairId) (s : State) : Host.Outcome State Fault Refusal :=
  serve s pair (readCmd 0x0900 1 0) (reads (fun s _ =>
    okWith (s.muslin.chan.toList.flatMap (fun x => leBytes 4 (muStatus x)))))

/-- ANA_GET_CHANNEL. -/
def execAnaGetChannel (pair : PairId) (s : State) : Host.Outcome State Fault Refusal :=
  serve s pair (readCmd 0x0901 2 4) (reads (fun s p =>
    if h : u8 p 0 < 16 then
      if allZero p 1 3 then okWith ((muRegs s.muslin.chan[u8 p 0]).flatMap (fun r => leBytes 4 r.toNat))
      else failWith stParam
    else failWith stParam))

/-- The thresholds of a channel are in range (R426, R435). -/
def limitsOk (high low : Int) (hyst : Nat) : Bool :=
  decide (high.natAbs ≤ 8388607) && decide (low.natAbs ≤ 8388607) && decide (hyst < 2 ^ 23)
    && decide (low + (hyst : Int) ≤ high - (hyst : Int))

/-- ANA_SET_DET (R435): taken at the next boundary. -/
def setDetBody : Body := fun s p =>
  if h : u8 p 0 < 16 then
    let c : Fin 16 := ⟨u8 p 0, h⟩
    let x := s.muslin.chan[c]
    let w := fun (o : Nat) => BitVec.ofNat 32 (u32 p o)
    if u8 p 1 = 0 || 64 < u8 p 1 || 15 < u8 p 2 || 15 < u8 p 3 || 1 < u8 p 4 || !allZero p 5 3
        || !limitsOk (w 8).toInt (w 12).toInt (u32 p 16) then (s, some (failWith stParam))
    else
      let g : MuCfg := { x.cfgNext.getD x.cfg with
        ne := BitVec.ofNat 7 (u8 p 1), attack := BitVec.ofNat 4 (u8 p 2), release := BitVec.ofNat 4 (u8 p 3)
        evtEn := u8 p 4 == 1, high := w 8, low := w 12, hyst := BitVec.ofNat 23 (u32 p 16) }
      (putMu s c { x with cfgNext := some g }, some okEmpty)
  else (s, some (failWith stParam))

/-- ANA_SET_DET. -/
def execAnaSetDet (pair : PairId) (s : State) : Host.Outcome State Fault Refusal :=
  serve s pair (changeCmd 0x0902 2 20) setDetBody

/-- ANA_SYNC (R435). -/
def execAnaSync (pair : PairId) (s : State) : Host.Outcome State Fault Refusal :=
  serve s pair (changeCmd 0x0903 2 4) (fun s p =>
    if !allZero p 2 2 then (s, some (failWith stParam))
    else if !(s.weft.own = .bench || s.weft.own = .unconfigured || s.weft.own = .withdrawn) then
      (s, some (failWith stPermit))
    else (muRequest s (u16 p 0), some okEmpty))

/-- ANA_GET_ROM (R435). -/
def romAnswer (p : List Byte) : Answer :=
  let k := u8 p 0
  let c := u8 p 1
  let n := u8 p 4
  let taps := if k = 0 then hbTaps c else 256 * protoTaps c
  let coef := fun (i : Nat) => if k = 0 then Config.halfBand c i else Config.prototype c i
  if 1 < k || (if k = 0 then 7 else 5) < c || n = 0 || 120 < n || !allZero p 5 3 || taps < u16 p 2 + n then
    failWith stParam
  else
    okWith (leBytes 2 taps ++ zeros 2 ++ (List.range n).flatMap (fun i => leBytes 4 (coef (u16 p 2 + i)).toNat))

/-- ANA_GET_ROM. -/
def execAnaGetRom (pair : PairId) (s : State) : Host.Outcome State Fault Refusal :=
  serve s pair (readCmd 0x0904 2 8) (reads (fun _ p => romAnswer p))

end Sys2Proof.Machine
end

