-- ==== Sys2Proof/Machine/TimeOps.lean ====
section
/-! DEFINITION. The passing of time, the servos, captures and timed pulse outputs, and the events of the TIME block
(chapter 8). -/

namespace Sys2Proof.Machine

open Sys2Proof

/-- Sets a bit of TIME_EVENT. -/
def timeEvent (s : State) (bit : Nat) : State :=
  { s with time := { s.time with event := setBit s.time.event bit } }

/-- The state with a time base replaced. -/
def putTb (s : State) (k : Fin 4) (b : TimeBase) : State :=
  { s with time := { s.time with tb := s.time.tb.set k.val b } }

/-- The effective increment of a time base in units of 2^-32 ns (R271). -/
def effIncr (b : TimeBase) : Int := b.incr + b.adj

/-- A time base after `n` ticks (R271). An update that ran has completed (R275), unless a held measurement waits for its end:
SERVO_HELD_UPDATE then ends it and starts the held one, and until then a further measurement replaces the held one (R276). -/
def tbAfter (b : TimeBase) (n : Nat) : TimeBase :=
  { b with value := tbOfFine ((tbFine b.value : Int) + n * effIncr b).toNat, busy := b.busy && b.heldMeas.isSome }

/-- `n` ticks of the reference pass (R271). Nothing counts while PD0 is off or the reference is missing; TB0 to TB2
stand still while a freeze holds them (Table 18.1). -/
def passTicks (s : State) (n : Nat) : State :=
  if powered s 0 && !s.time.refMissing then
    { s with time := { s.time with tb := Vector.ofFn (fun (k : Fin 4) =>
        if s.time.tbHeld && k.val != 3 then s.time.tb[k] else tbAfter s.time.tb[k] n) } }
  else s

/-- The ticks after which time base `k` is at least `ns` nanoseconds. -/
def ticksTo (b : TimeBase) (ns : Nat) : Nat :=
  let d := ns * 2 ^ 32 - tbFine b.value
  let i := (effIncr b).toNat
  if i = 0 then 0 else (d + i - 1) / i

/-- Time passes until time base `k` reaches an instant; nothing passes when it already has (log entry 28). -/
def passUntil (s : State) (k : Fin 4) (ns : Nat) : State := passTicks s (ticksTo s.time.tb[k] ns)

/-- Time base `k` has reached an instant. -/
def reached (s : State) (k : Fin 4) (ns : Nat) : Bool := decide (ns ≤ tbNanos s.time.tb[k].value)

/-- Limits the servo's output (R275). -/
def adjMax : Int := 21474836

/-- Clamps to ADJ_MAX. -/
def clampAdj (v : Int) : Int := min (max v (-adjMax)) adjMax

/-- The instants of a pulse output's schedule: START in nanoseconds (R285). -/
def tpoStart (t : Tpo) : Nat := t.startSec.toNat * 1000000000 + t.startNs.toNat

/-- The limits of R285 hold. -/
def tpoOk (t : Tpo) : Bool :=
  decide (t.startNs.toNat < 1000000000) && decide (100 ≤ t.width.toNat) && decide (1000 ≤ t.period.toNat)
    && (!t.periodic || decide (t.width.toNat < t.period.toNat))

/-- The schedule after instant `now`: level at `now`, and the next edge with its kind, if any (R285). -/
def tpoAt (t : Tpo) (now : Nat) : Bool × Option (Nat × Bool) :=
  let st := tpoStart t
  if now < st then (false, some (st, true))
  else
    let p := t.period.toNat
    let r := if t.periodic then (now - st) % p else now - st
    if r < t.width.toNat then (true, some (now - r + t.width.toNat, false))
    else (false, if t.periodic then some (now - r + p, true) else none)

/-- A pulse output with its next edge set. -/
def tpoNext (t : Tpo) (next : Option (Nat × Bool)) : Tpo := match next with
  | some (e, lead) => { t with armed := true, nextEdge := e, nextLeading := lead }
  | none => { t with armed := false }

/-- Leading edges of a schedule from `lo` to `hi`. -/
def tpoLeads (t : Tpo) (lo hi : Nat) : Nat :=
  let st := tpoStart t
  let upto := fun (x : Nat) =>
    if x < st then 0 else if t.periodic && t.period != 0 then (x - st) / t.period.toNat + 1 else 1
  upto hi - (if lo = 0 then 0 else upto (lo - 1))

/-- A pulse output when its time base has stepped forward to `now` (R286): scheduled edges that were passed are not
driven. The Bool says that an edge was skipped. -/
def tpoStep (t : Tpo) (now : Nat) : Tpo × Bool :=
  if t.en && t.armed && decide (t.nextEdge ≤ now) then
    let n := tpoLeads t t.nextEdge now
    let r := tpoAt t now
    ({ tpoNext t r.2 with active := r.1, missed := satAdd t.missed n }, true)
  else (t, false)

/-- The pulse outputs of a time base that has stepped forward (R286). -/
def tpoSteps (s : State) (k : Fin 4) : State :=
  let now := tbNanos s.time.tb[k].value
  let on := fun (t : Tpo) => t.tb.toNat == k.val
  let hit := s.time.tpo.toList.any (fun t => on t && (tpoStep t now).2)
  let s := { s with time := { s.time with tpo := s.time.tpo.map (fun t => if on t then (tpoStep t now).1 else t) } }
  if hit then timeEvent s 12 else s

/-- A lane that has an epoch state between STOPPED and FAULTED becomes DIVERGED, and the module abstains in its groups
(R39, R497). -/
def divergeLane (s : State) (l : LaneId) : State :=
  let ln := laneOf s l
  if ln.epochState = .stopped || ln.epochState = .faulted || ln.epochState = .shed then s
  else
    let s := putLane s l { haltLane ln with epochState := .diverged, caughtUp := false, faultPending := false, admits := 0
                                            admitted := false, resend := false }
    rackForget (rackBreakLane (abstainLane s l) l) l

/-- Every lane that runs becomes DIVERGED. -/
def divergeAll (s : State) : State := (List.finRange 8).foldl divergeLane s

/-- The epochs after a step of TB2 (R39): a forward step past a boundary goes on with the first boundary after the new
value; after a backward step the next boundary is that with the number after n. TB2_STEP is set, and every lane becomes
DIVERGED. -/
def epochStep (s : State) (fwd : Bool) : State :=
  let e := { s.epoch with event := setBit s.epoch.event 20 }
  let passed := fwd && e.running && decide (e.next * epochNs e ≤ tb2 s)
  divergeAll { s with epoch := if passed then { e with next := tb2 s / epochNs e + 1, resync := true } else e }

/-- The entry of a gate list in force at a position of its cycle. -/
def gateIndex (es : List (BitVec 8 × Nat)) (pos : Nat) : Nat :=
  ((List.range es.length).find? (fun i => decide (pos < ((es.take (i + 1)).map (·.2)).sum))).getD 0

/-- The gates of a port on a time base that has stepped take at once what the schedule gives (R298). -/
def gateStep (x : EthPort) (now : Nat) : EthPort :=
  if x.list.entries.isEmpty then x
  else
    let i := gateIndex x.list.entries (now % 1000000000 % (max x.list.cycleNs 1))
    { x with gateIx := i, gates := ((x.list.entries[i]?).map (·.1)).getD 0xFF }

/-- The gates of every port on a time base that has stepped. -/
def gateSteps (s : State) (k : Fin 4) : State :=
  let now := tbNanos s.time.tb[k].value
  { s with pkt := { s.pkt with port := s.pkt.port.map (fun x =>
      if x.tasTb.toNat = k.val then gateStep x now else x) } }

/-- A servo enters a state; a change sets STATE_CHANGE. -/
def servoTo (s : State) (k : Fin 4) (st : ServoState) : State :=
  let b := s.time.tb[k]
  if b.state = st then s else timeEvent (putTb s k { b with state := st }) (4 + k.val)

/-- A time base set to a value in units of 2^-32 ns at one tick, which counts as a step (R275, R286, R39): its servo is
LOCKING with a lock count of 0 (R278). -/
def stepBase (s : State) (k : Fin 4) (fine : Nat) : State :=
  let b := s.time.tb[k]
  let old := tbFine b.value
  let s := putTb s k { b with value := tbOfFine fine, stepCnt := satInc b.stepCnt, lockCount := 0, stepNext := false }
  let s := servoTo (timeEvent s k.val) k .locking
  let fwd := decide (old < fine)
  let s := gateSteps (if fwd then tpoSteps s k else s) k
  if k.val = 2 then muRequest (epochStep s fwd) 0xFFFF else s

/-- The servo state after a measurement, with the lock count that it brings (R278, Table 8.4). -/
def servoNext (b : TimeBase) (within : Bool) (count : Nat) : ServoState :=
  if b.relock then .locking
  else match b.state with
    | .free => .locking
    | .lost => .locking
    | .locking => if 4 ≤ count then .locked else .locking
    | .locked => if within then .locked else .locking
    | .holdover => if within then .locked else .locking

/-- One servo update with θ in units of 2^-16 ns (R275, R278). -/
def servoUpdate (s : State) (k : Fin 4) (theta : Int) : State :=
  let b := s.time.tb[k]
  let ofs := satI32 (theta / 2 ^ 16)
  if b.stepNext || decide (100000 * 2 ^ 16 < theta.natAbs) then
    let s := putTb s k { b with adj := clampAdj b.acc, busy := true, lastOfs := ofs, relock := false }
    stepBase s k (max ((tbFine b.value : Int) + theta * 2 ^ 16) 0).toNat
  else
    let p := theta * 2 ^ 16 / 2 ^ b.kp.toNat
    let acc := clampAdj (b.acc + theta * 2 ^ 16 / 2 ^ b.ki.toNat)
    let within := decide (theta.natAbs ≤ b.lockNs.toNat * 2 ^ 16)
    let count := if within then min (b.lockCount + 1) 4 else 0
    let st := servoNext b within count
    let s := putTb s k { b with acc := acc, adj := clampAdj (p + acc), busy := true, lastOfs := ofs
                                lockCount := count, relock := false }
    servoTo s k st

/-- A measurement arrives (R276): while an update runs it is held, and it replaces one already held. -/
def servoMeasure (s : State) (k : Fin 4) (theta : Int) : State :=
  let b := s.time.tb[k]
  if b.busy then
    let s := putTb s k { b with heldMeas := some theta }
    if b.heldMeas.isSome then timeEvent s 9 else s
  else servoUpdate s k theta

/-- The measurement that a write of TB_k_MEAS_HI completes (R274). -/
def measOf (b : TimeBase) (hi : U32) : Int := (hi ++ b.measLo).toInt

/-- A write of TB_k_MEAS_HI of TB0 or TB1 (R274). -/
def measHiWrite (s : State) (k : Fin 4) (data : U32) : State :=
  let s := putTb s k { s.time.tb[k] with measHi := data }
  servoMeasure s k (measOf s.time.tb[k] data)

/-- SERVO_MEAS_WRITE (R274): a write of TB_k_MEAS_HI starts an update of TB0 or TB1. -/
def execServoMeasWrite (k : Fin 2) (data : U32) (s : State) : Host.Outcome State Fault Refusal :=
  live s 0 (measHiWrite s ⟨k.val, by omega⟩ data)

/-- SERVO_HELD_UPDATE (R276): the running update completes, and a held measurement starts its own. -/
def execServoHeldUpdate (k : Fin 3) (s : State) : Host.Outcome State Fault Refusal :=
  let k4 : Fin 4 := ⟨k.val, by omega⟩
  let b := s.time.tb[k4]
  always s 0 (match b.heldMeas with
    | some m => servoUpdate (putTb s k4 { b with busy := false, heldMeas := none }) k4 m
    | none => s)

/-- INCR is in the range of R273. -/
def incrOk (n : Nat) : Bool := decide (0x9FD70A3D8 ≤ n) && decide (n ≤ 0xA028F5C28)

/-- A write of TB_k_INCR_FRAC of TB0 to TB2 (R273): both halves take effect together, or INCR_BAD is set. -/
def incrWrite (s : State) (k : Fin 4) (data : U32) : State :=
  let b := s.time.tb[k]
  let n := b.incrNs.toNat * 2 ^ 32 + data.toNat
  if incrOk n then putTb s k { b with incr := n } else timeEvent s 8

/-- INCR_WRITE (R273). -/
def execIncrWrite (k : Fin 3) (data : U32) (s : State) : Host.Outcome State Fault Refusal :=
  live s 0 (incrWrite s ⟨k.val, by omega⟩ data)

/-- SERVO_HOLDOVER (R278): no measurement for 2 s of TB3 in LOCKED. -/
def execServoHoldover (k : Fin 3) (s : State) : Host.Outcome State Fault Refusal :=
  let k4 : Fin 4 := ⟨k.val, by omega⟩
  always s 0 (if s.time.tb[k4].state = .locked then servoTo s k4 .holdover else s)

/-- SERVO_LOST (R278): HOLD_S seconds of TB3 in HOLDOVER. -/
def execServoLost (k : Fin 3) (s : State) : Host.Outcome State Fault Refusal :=
  let k4 : Fin 4 := ⟨k.val, by omega⟩
  always s 0 (if s.time.tb[k4].state = .holdover then servoTo s k4 .lost else s)

/-- REF_FREQ_DEV (R288): REF_FREQ is set, and TB0 to TB2 become LOCKING at their next measurement. -/
def execRefFreqDev (s : State) : Host.Outcome State Fault Refusal :=
  let mark := fun (k : Fin 4) => if k.val = 3 then s.time.tb[k] else { s.time.tb[k] with relock := true }
  always s 0 { timeEvent s 13 with
    time := { (timeEvent s 13).time with tb := Vector.ofFn mark, refFreq := true } }

/-- A capture source of Table 8.6. -/
def capSourceOk (n : Nat) : Bool :=
  n = 0 || (1 ≤ n && n ≤ 4) || (8 ≤ n && n ≤ 0xF) || (0x20 ≤ n && n ≤ 0x3F) || (0x40 ≤ n && n ≤ 0x43)

/-- The fixed delay that is compensated to the pin, in nanoseconds (R282, Table 8.6). -/
def capDelay (n : Nat) : Nat := if n ≤ 0xF then 20 else 0

/-- A time base value moved back by whole nanoseconds. -/
def tbBack (v : TbValue) (ns : Nat) : TbValue := tbOfFine (tbFine v - ns * 2 ^ 32)

/-- A capture item (Table 8.7). -/
def captureItem (u : Fin 16) (c : CapUnit) (falling glitch valid : Bool) (v t2 : TbValue) : List Byte :=
  [BitVec.ofNat 8 u.val, c.source.zeroExtend 8
  , BitVec.ofNat 8 (b2n falling + 2 * b2n c.lostFlag + 4 * b2n valid + 8 * b2n glitch), BitVec.ofNat 8 c.tb.toNat]
  ++ leBytes 4 v.ns.toNat ++ leBytes 8 v.sec.toNat ++ leBytes 4 t2.ns.toNat ++ zeros 4 ++ leBytes 8 t2.sec.toNat

/-- The unit takes the edge: enabled, a source, the edge selected, and not within 100 ns of its last capture
(R281, R282). -/
def capTakes (s : State) (c : CapUnit) (falling : Bool) : Bool :=
  c.en && c.source != 0 && c.edge.getLsbD (b2n falling) && decide (c.quietUntil ≤ tb3 s)

/-- A capture (R282 to R284). -/
def captureNow (s : State) (u : Fin 16) (falling glitch : Bool) : State :=
  let c := s.time.cap[u]
  let b := s.time.tb[c.tb.toNat]
  let back := capDelay c.source.toNat
  let v := tbBack b.value back
  let t2 := tbBack s.time.tb[2].value back
  let epoch := tbNanos t2 / epochNs s.epoch + 1
  let c : CapUnit := { c with quietUntil := tb3 s + 100, epoch := epoch
                              placed := if c.epoch = epoch then c.placed else 0 }
  if c.placed < c.limit.toNat then
    let item := captureItem u c falling glitch (tbValid b) v t2
    let c : CapUnit := { c with cnt := satInc c.cnt, placed := c.placed + 1, lostFlag := false }
    queueItem { s with time := { s.time with cap := s.time.cap.set u.val c } } (tbNanos t2) 1 u.val item id
  else
    let c : CapUnit := { c with lost := satInc c.lost, lostFlag := true }
    timeEvent { s with time := { s.time with cap := s.time.cap.set u.val c } } 10

/-- CAPTURE (R282): a synchronised edge; `glitch` says that both edges of a both-edge unit fell in this tick, of
which `falling` names the later. Units stop at calving stage 5 (R287). -/
def execCapture (unit : Fin 16) (falling glitch : Bool) (s : State) : Host.Outcome State Fault Refusal :=
  let c := s.time.cap[unit]
  always s 0 (if capTakes s c falling && decide (s.power.stage.toNat < 5) then
      captureNow s unit falling (glitch && c.edge == 3) else s)

/-- The state with a pulse output replaced. -/
def putTpo (s : State) (p : Fin 8) (t : Tpo) : State :=
  { s with time := { s.time with tpo := s.time.tpo.set p.val t } }

/-- A pulse output after its next edge is driven (R285). -/
def tpoDrive (t : Tpo) : Tpo :=
  if t.nextLeading then { t with active := true, nextLeading := false, nextEdge := t.nextEdge + t.width.toNat }
  else if t.periodic then
    { t with active := false, nextLeading := true, nextEdge := t.nextEdge - t.width.toNat + t.period.toNat }
  else { t with active := false, armed := false }

/-- TPO_EDGE (R285): the selected time base reaches the next scheduled edge, which is driven. -/
def execTpoEdge (out : Fin 8) (s : State) : Host.Outcome State Fault Refusal :=
  let t := s.time.tpo[out]
  let k : Fin 4 := ⟨t.tb.toNat, t.tb.isLt⟩
  let s' := passUntil s k t.nextEdge
  always s 0 (if t.en && t.armed && decide (s.power.stage.toNat < 5) && reached s' k t.nextEdge then
      putTpo s' out (tpoDrive t) else s)

/-- A pulse output is enabled (R285, R286): its first edge is the first leading edge not yet past; a one-shot whose
START is past fires nothing and has missed one. The Bool says that an edge was missed. A schedule that breaks the
limits of R285 has no edge (log entry 29). -/
def tpoEnable (t : Tpo) (now : Nat) : Tpo × Bool :=
  let t := { t with en := true, active := false, missed := 0 }
  if !tpoOk t then ({ t with armed := false }, false)
  else if now ≤ tpoStart t then (tpoNext t (some (tpoStart t, true)), false)
  else if t.periodic then
    let p := t.period.toNat
    (tpoNext t (some (tpoStart t + (now - tpoStart t + p - 1) / p * p, true)), false)
  else ({ t with armed := false, missed := 1 }, true)

/-- A pulse output is stopped: the inactive level (R287). -/
def tpoStop (t : Tpo) : Tpo := { t with en := false, armed := false, active := false }

/-- EN of a pulse output is written (R286, R287). -/
def tpoSetEn (s : State) (p : Fin 8) (t : Tpo) (en : Bool) : State :=
  if en then
    if t.en then putTpo s p t
    else
      let r := tpoEnable t (tbNanos s.time.tb[t.tb.toNat].value)
      let s := putTpo s p r.1
      if r.2 then timeEvent s 12 else s
  else putTpo s p (if t.en then tpoStop t else t)

/-- A write of a TPO_p register by its number in Table 8.12 (R287). While EN is 1, a write to START, PERIOD or WIDTH,
or one that would change TB, is ignored with TPO_BUSY. -/
def tpoWrite (s : State) (p : Fin 8) (reg : Nat) (data : U32) : State :=
  let t := s.time.tpo[p]
  let set := fun (t' : Tpo) => if t.en then timeEvent s 11 else putTpo s p t'
  match reg with
  | 0 =>
    let tb := data.extractLsb' 3 2
    let clash := t.en && tb != t.tb
    let t' := { t with periodic := data.getLsbD 1, pol := data.getLsbD 2, tb := if t.en then t.tb else tb }
    let s := if clash then timeEvent s 11 else s
    tpoSetEn s p t' (data.getLsbD 0)
  | 1 => set { t with startNs := data.extractLsb' 0 30 }
  | 2 => set { t with startSec := t.startSec.extractLsb' 32 16 ++ data }
  | 3 => set { t with startSec := data.extractLsb' 0 16 ++ t.startSec.extractLsb' 0 32 }
  | 4 => set { t with period := data }
  | 5 => set { t with width := data }
  | _ => s

/-- TPO_CTRL_WRITE (R287): a write of one of the six writable registers of an output. -/
def execTpoCtrlWrite (out : Fin 8) (reg : Fin 6) (data : U32) (s : State) : Host.Outcome State Fault Refusal :=
  live s 0 (tpoWrite s out reg.val data)

end Sys2Proof.Machine
end

