-- ==== Sys2Proof/Machine/RackEvents.lean ====
section
/-! DEFINITION. The rack bus at work: outbound accesses, scan and write list, inbound accesses, interrupt lines and
failures (chapter 10). -/

namespace Sys2Proof.Machine

open Sys2Proof

/-- A write to the word at `offset` with byte enables reaches one of `n` bytes from `o` on (R337). -/
def writeHits (offset : Nat) (byteEn : BitVec 4) (o n : Nat) : Bool :=
  [0, 1, 2, 3].any (fun i => byteEn.getLsbD i && decide (o ≤ offset / 4 * 4 + i) && decide (offset / 4 * 4 + i < o + n))

/-- Bytes written into the shared memory: prefetch buffers that they overlap are invalidated (R337). -/
def shmWrite (b : Rack) (offset : Nat) (byteEn : BitVec 4) (data : U32) : Rack :=
  let base := offset / 4 * 4
  let put := fun (m : Mem) (i : Nat) =>
    if byteEn.getLsbD i then memPutLe m (base + i) 1 (data.toNat / 2 ^ (8 * i) % 256) else m
  let hit := fun (w : PfWindow) => match w.buffer with
    | some (o, bs) => writeHits offset byteEn o bs.length
    | none => false
  { b with shm := [0, 1, 2, 3].foldl put b.shm
           pf := b.pf.map (fun w => if hit w then { w with buffer := none } else w) }

/-- An outbound access of the write list (R334). -/
def listAccess (s : State) (address data : U32) (byteEn : BitVec 4) : OutAccess :=
  let lane := match s.rack.map with
    | some m => match (s.maps.group[m.wlGroup]?).join with
      | some g => g.lane.val
      | none => 0
    | none => 0
  { kind := .write, address := address, byteEn := byteEn, data := data, words := 1, source := lane, writeList := true
    epoch := s.rack.wlEpoch, retries := 0, got := [] }

/-- Records of the released write list go to the queue while there is room; a LOCAL record writes the shared memory
(R329, R334). -/
def feedList : Nat → State → State
  | 0, s => s
  | k + 1, s => match s.rack.writeList with
    | [] => s
    | (a, d, be, isLocal) :: rest =>
      if isLocal then feedList k { s with rack := { shmWrite s.rack a.toNat be d with writeList := rest } }
      else if rackRoom s then
        feedList k { s with rack := { s.rack with writeList := rest
                                                  outQueue := s.rack.outQueue ++ [listAccess s a d be] } }
      else s

/-- An access of the scan. -/
def isScan (a : OutAccess) : Bool := match a.kind with
  | .scan _ => true
  | _ => false

/-- The next scan entry that has no result goes to the queue, one at a time, behind the writes accepted before it
(R330, R333). -/
def feedScan (s : State) : State :=
  let b := s.rack
  let waiting := b.outQueue.any isScan || (b.openAccess.map isScan).getD false
  if !b.scanBusy || waiting || !rackDrives s then s
  else match b.map with
    | none => s
    | some m => match (m.scan.zip b.scanValues).zipIdx.find? (fun x => x.1.2.result.isNone) with
      | some ((e, _), i) =>
        { s with rack := { b with outQueue := b.outQueue ++
          [{ kind := .scan i, address := e.address, byteEn := 0xF, data := 0, words := e.words, source := 8
             writeList := false, epoch := s.epoch.no, retries := 0, got := [] }] } }
      | none => s

/-- The service access that a pair asks for, while the pair is SERVING it (R348). -/
def serviceAccess (s : State) (i : Nat) : Option OutAccess := match (pairAt s i).job with
  | some j =>
    let a := u32 j.payload 0
    let w := u8 j.payload 4
    let be := BitVec.ofNat 4 ((2 ^ w - 1) * 2 ^ (a % 4))
    if j.command = 0x0601 then
      some { kind := .service i, address := BitVec.ofNat 32 a, byteEn := be, data := 0, words := 1, source := 8
             writeList := false, epoch := s.epoch.no, retries := 0, got := [] }
    else if j.command = 0x0602 then
      some { kind := .serviceWrite i, address := BitVec.ofNat 32 a, byteEn := be
             data := BitVec.ofNat 32 (u32 j.payload 8 % 2 ^ (8 * w) * 2 ^ (8 * (a % 4))), words := 1, source := 8
             writeList := false, epoch := s.epoch.no, retries := 0, got := [] }
    else none
  | none => none

/-- The access serves a pair. -/
def servesFor (i : Nat) (a : OutAccess) : Bool := match a.kind with
  | .service k => k == i
  | .serviceWrite k => k == i
  | _ => false

/-- A service access joins the queue; a write waits for room (R329). -/
def feedService (s : State) (i : Nat) : State :=
  if s.rack.outQueue.any (servesFor i) || (s.rack.openAccess.map (servesFor i)).getD false then s
  else match serviceAccess s i with
    | some a =>
      if isPosted a && !rackRoom s then s else { s with rack := { s.rack with outQueue := s.rack.outQueue ++ [a] } }
    | none => s

/-- What waits is queued as far as there is room, and the next access starts. -/
def rackGo (s : State) : State :=
  rackPump (feedScan ((List.range 24).foldl feedService (feedList 513 s)))

/-- The bytes of a read on byte lanes, as the number that a load of its width returns. -/
def laneData (a : OutAccess) (v : U32) : Nat := (v.toNat &&& byteMask) / 2 ^ (8 * (a.address.toNat % 4))
where
  /-- The enabled byte lanes. -/
  byteMask : Nat := ([0, 1, 2, 3].map (fun i => if a.byteEn.getLsbD i then 255 * 2 ^ (8 * i) else 0)).sum

/-- A result of a scan entry (R333): only while the scan that issued the read still runs. -/
def scanResult (s : State) (i : Nat) (a : OutAccess) (ok : Bool) (data : List U32) : State :=
  if s.rack.scanBusy && a.epoch == s.epoch.no then
    { s with rack := { s.rack with scanValues := s.rack.scanValues.modify i (fun v =>
        { v with result := some ok, staged := data }) } }
  else s

/-- What the issuer of an ended access gets: `code` 0 for success (R330, R333, R348). -/
def rackDeliver (s : State) (a : OutAccess) (code : Nat) : State :=
  let v : U32 := if code = 0 then a.got.headD 0 else 0xFFFFFFFF
  match a.kind with
  | .write => s
  | .read r => if 16 < r then s else { s with rack := { s.rack with reads := s.rack.reads ++ [(r, v)] } }
  | .scan i => scanResult s i a (code == 0) a.got
  | .service i => finishLong s i (okWith (leBytes 4 (laneData a v) ++ b8 code ++ zeros 3))
  | .serviceWrite i => finishLong s i (okWith (b8 code ++ zeros 3))

/-- Counters of a completed access (Table 10.14). -/
def rackCount (b : Rack) (a : OutAccess) : Rack := match a.kind with
  | .write => { b with outWr := satInc b.outWr }
  | .serviceWrite _ => { b with outWr := satInc b.outWr }
  | _ => { b with outRd := satInc b.outRd }

/-- The open access has ended: the lock is released after the first access of its owner since LOCK was cleared
(R331), and the next access starts. -/
def rackEnd (s : State) (a : OutAccess) (code : Nat) : State :=
  let s := { s with rack := { s.rack with openAccess := none, granted := false } }
  let s := if code = 0 then { s with rack := rackCount s.rack a } else rackLog s (rackLogOf s a code)
  let b := s.rack
  let s := if b.lockHeld && !b.lock && ofOwner b a then
      { s with rack := { b with owner := 0xF, lockHeld := false } } else s
  rackGo (rackDeliver s a code)

/-- The data cycles of the open access, in order (R326, R327): OK, RETRY, ERROR or no response. -/
def rackAnswers : List (BitVec 2 × U32) → State → OutAccess → State
  | [], s, a => { s with rack := { s.rack with openAccess := some a } }
  | (rsp, v) :: rest, s, a =>
    match rsp.toNat with
    | 1 =>
      let a := { a with got := a.got ++ [v] }
      if a.words ≤ a.got.length then rackEnd s a 0 else rackAnswers rest s a
    | 2 =>
      let s := { s with rack := { s.rack with outRetry := satInc s.rack.outRetry } }
      if s.rack.retryLimit.toNat ≤ a.retries then rackEnd s a 3
      else rackAnswers rest s { a with retries := a.retries + 1 }
    | 3 => rackEnd s a 1
    | _ => rackEnd s a 2

/-- Every queued or open outbound access fails (R109, R116, R346, calving stage 3), with code 0x04 of Table 10.9; the
write list, the scan and a lock end with it. -/
def rackAbort (s : State) : State :=
  let b := s.rack
  let all := b.openAccess.toList ++ b.outQueue
  let s := { s with rack := { b with openAccess := none, granted := false, outQueue := [], writeList := []
                                     scanBusy := false } }
  let s := rackBreak s
  all.foldl (fun s a => rackDeliver (rackLog s (rackLogOf s a 4)) a 4) s

/-- RACK_LOCK_WRITE (R331). -/
def execRackLockWrite (m : Master) (data : U32) (s : State) : Host.Outcome State Fault Refusal :=
  live s 9 (rackGo (rackLockWrite s (match m with
    | .lane l => l.val
    | .selvedge => 8) data))

/-- RACK_LOCK_TIMEOUT (R331): RB_LOCK_L has been held for more than 20 µs. -/
def execRackLockTimeout (s : State) : Host.Outcome State Fault Refusal :=
  live s 9 (if s.rack.lockHeld then rackGo (rackBreak s) else s)

/-- RACK_GRANT (R331, R340): the address cycle of the open access; the first access of a lock's owner pulls
RB_LOCK_L. -/
def execRackGrant (s : State) : Host.Outcome State Fault Refusal :=
  let b := s.rack
  live s 9 (match b.openAccess with
    | some a =>
      if b.granted || b.busLocked || !b.clkOk || b.failed then s
      else { s with rack := { b with granted := true
                                     lockHeld := b.lockHeld || ofOwner b a } }
    | none => s)

/-- RACK_BUS_ACCESS_DONE (R326, R327): the data cycles of the granted access. -/
def execRackBusAccessDone (answers : List (BitVec 2 × U32)) (s : State) : Host.Outcome State Fault Refusal :=
  live s 9 (match s.rack.openAccess with
    | some a => if s.rack.granted && s.rack.clkOk then rackAnswers answers s a else s
    | none => s)

/-- RACK_SCAN_START (R333): at B(n) − SCAN_LEAD_US the scan of the next boundary starts, and on a monitor its scan
span (R345). -/
def execRackScanStart (s : State) : Host.Outcome State Fault Refusal :=
  live s 9 (match s.rack.map with
    | some m =>
      let s := passUntil s 2 (s.epoch.next * epochNs s.epoch - m.scanLeadUs * 1000)
      let b := s.rack
      if !s.epoch.running || !b.en || b.failed || m.scan.isEmpty || !(rackDrives s || b.shared) then s
      else rackGo { s with rack := { b with scanBusy := true
                                            scanValues := b.scanValues.map (fun v => { v with result := none }) } }
    | none => s)

/-- The offset of an address that the bridge claims (R335): only while it answers inbound accesses (R344, R345). -/
def rackClaims (s : State) (addr : U32) : Option Nat := match s.rack.map with
  | some m =>
    if rackDrives s && s.rack.clkOk && decide (m.inBase ≤ addr.toNat) && decide (addr.toNat < m.inBase + 0x101000) then
      some (addr.toNat - m.inBase)
    else none
  | none => none

/-- The answer of the bridge as target; RETRY answers are counted. -/
def rackAnswer (s : State) (rsp : BitVec 2) (data : U32) : State :=
  { s with rack := { s.rack with answer := some (rsp, data)
                                 inRetry := if rsp = 2 then satInc s.rack.inRetry else s.rack.inRetry } }

/-- A rack master holds or has released RB_LOCK_L (R339). -/
def rackHeld (s : State) (locked : Bool) : State :=
  rackGo { s with rack := { s.rack with busLocked := locked } }

/-- A posted inbound write enters the queue of 64 (R336); none when it is full. -/
def rackPosted (s : State) (offset : Nat) (byteEn : BitVec 4) (data : U32) : Option State :=
  if s.rack.inQueue.length < 64 then
    some { s with rack := { s.rack with inQueue := s.rack.inQueue ++ [⟨offset, byteEn, data, tb2 s⟩] } }
  else none

/-- INBOUND_WRITE (R335, R336, R339): one data cycle of a write. -/
def execInboundWrite (addr : U32) (byteEn : BitVec 4) (data : U32) (locked : Bool) (s : State) :
    Host.Outcome State Fault Refusal :=
  let h := rackHeld s locked
  live s 9 (match rackClaims s addr with
    | some o => match rackPosted h o byteEn data with
      | some s => rackAnswer { s with rack := { s.rack with inWr := satInc s.rack.inWr } } 1 0
      | none => rackAnswer h 2 0
    | none => { h with rack := { h.rack with answer := some (0, 0) } })

/-- Body of a DOORBELL item (R342). -/
def doorbellBody (w : InWrite) : List Byte :=
  leBytes 4 w.data.toNat ++ b8 w.byteEn.toNat ++ zeros 3 ++ leBytes 8 w.stamp

/-- A queued write is applied (R336): to the shared memory, or as a DOORBELL item; the rest of the compatibility page
ignores it (Table 10.7). -/
def rackApply (s : State) (w : InWrite) : State :=
  if w.offset < 0x100000 then { s with rack := shmWrite s.rack w.offset w.byteEn w.data }
  else if w.offset / 4 * 4 = 0x100008 then rackItemAt s w.stamp 3 0 (doorbellBody w)
  else s

/-- INBOUND_DRAIN (R336): the oldest queued write is applied. -/
def execInboundDrain (s : State) : Host.Outcome State Fault Refusal :=
  live s 9 (match s.rack.inQueue with
    | w :: rest =>
      let b := s.rack
      rackApply { s with rack := { b with
        inQueue := rest, dr := b.dr.map (fun d => d.map (fun d => { d with after := d.after - 1 }))
        pf := b.pf.map (fun p => { p with refill := p.refill.map (fun r => (r.1, r.2 - 1)) }) } } w
    | [] => s)

/-- The enabled prefetch window that covers an offset of the shared memory (R337, R339, Table 10.13). -/
def pfWindowOf (b : Rack) (o : Nat) : Option (Fin 8) :=
  (List.finRange 8).find? (fun k =>
    let w := b.pf[k]
    b.pfEn && !b.pfShed && w.en && decide (o < 0x100000) && decide (w.base.toNat ≤ o / 256)
      && decide (o / 256 ≤ w.limit.toNat))

/-- Read data on byte lanes. -/
def onLanes (bs : List Byte) (o : Nat) : U32 := BitVec.ofNat 32 (ofLe bs * 2 ^ (8 * (o % 4)))

/-- A read inside a prefetch window (R337). -/
def pfRead (s : State) (k : Fin 8) (o width : Nat) : State :=
  let b := s.rack
  let w := b.pf[k]
  let queued := b.inQueue.any (fun q => writeHits q.offset q.byteEn o width)
  let refill := rackAnswer { s with rack := { b with pf := b.pf.set k.val { w with
    refill := some (w.refill.getD (o, b.inQueue.length)) } } } 2 0
  match w.buffer with
  | some (base, bs) =>
    if decide (base ≤ o) && decide (o + width ≤ base + bs.length) && !queued then
      rackAnswer { s with rack := { b with inRd := satInc b.inRd } } 1 (onLanes (slice bs (o - base) width) o)
    else refill
  | none => refill

/-- The delayed-read buffer of an address and width. -/
def drOf (b : Rack) (o width : Nat) : Option (Fin 4) :=
  (List.finRange 4).find? (fun k => match b.dr[k] with
    | some d => d.offset == o && d.width == width
    | none => false)

/-- A delayed read starts if a buffer is free (R338). -/
def drStart (s : State) (o width : Nat) : State :=
  let b := s.rack
  match (List.finRange 4).find? (fun k => b.dr[k].isNone) with
  | some k => { s with rack := { b with dr := b.dr.set k.val (some ⟨o, width, b.inQueue.length, none, 0⟩) } }
  | none => s

/-- Every other claimed read is a delayed read (R338); while an outbound access is open it is answered RETRY
(R340). -/
def drRead (s : State) (o width : Nat) : State :=
  let b := s.rack
  match drOf b o width with
  | none => rackAnswer (drStart s o width) 2 0
  | some k => match b.dr[k] with
    | some ⟨_, _, _, some v, _⟩ =>
      if b.openAccess.isSome then rackAnswer s 2 0
      else rackAnswer { s with rack := { b with dr := b.dr.set k.val none, inRd := satInc b.inRd } } 1 v
    | _ => rackAnswer s 2 0

/-- INBOUND_READ (R335, R337 to R340): one data cycle of a read; with RB_LOCK_L low it is a delayed read (R339). -/
def execInboundRead (addr : U32) (width : Nat) (locked : Bool) (s : State) : Host.Outcome State Fault Refusal :=
  let h := rackHeld s locked
  live s 9 (match rackClaims s addr with
    | some o => match (if locked then none else pfWindowOf s.rack o) with
      | some k => pfRead h k o width
      | none => drRead h o width
    | none => { h with rack := { h.rack with answer := some (0, 0) } })

/-- PF_REFILL_DONE (R337): the buffer takes up to 256 bytes, clipped at LIMIT, once every write queued before the
request is applied. -/
def execPfRefillDone (window : Fin 8) (s : State) : Host.Outcome State Fault Refusal :=
  let b := s.rack
  let w := b.pf[window]
  live s 9 (match w.refill with
    | some (o, 0) =>
      let n := min 256 ((w.limit.toNat + 1) * 256 - o)
      { s with rack := { b with pf := b.pf.set window.val { w with buffer := some (o, memBytes b.shm o n)
                                                                   refill := none } } }
    | _ => s)

/-- A read of the compatibility page (Table 10.7). -/
def compatRead (s : State) (o : Nat) : Nat :=
  match o / 4 * 4 with
  | 0x100000 => 0x47410484
  | 0x100004 => [flag 0 (moduleOk s), at' 1 s.slot.toNat, flag 3 (rackDrives s)].sum
  | _ => 0

/-- DELAYED_READ_DONE (R338): the read is performed once every write queued before it is applied. -/
def execDelayedReadDone (buffer : Fin 4) (s : State) : Host.Outcome State Fault Refusal :=
  let b := s.rack
  live s 9 (match b.dr[buffer] with
    | some ⟨o, w, 0, none, _⟩ =>
      let v : U32 := if o < 0x100000 then onLanes (memBytes b.shm o w) o else BitVec.ofNat 32 (compatRead s o)
      { s with rack := { b with dr := b.dr.set buffer.val (some ⟨o, w, 0, some v, tb3 s⟩) } }
    | _ => s)

/-- DR_EXPIRE (R338): a completed buffer has not been claimed within 1 ms. -/
def execDrExpire (buffer : Fin 4) (s : State) : Host.Outcome State Fault Refusal :=
  let b := s.rack
  live s 9 (match b.dr[buffer] with
    | some ⟨_, _, _, some _, _⟩ =>
      { s with rack := { b with dr := b.dr.set buffer.val none, drExpired := satInc b.drExpired } }
    | _ => s)

/-- Body of an IRQ item (R342). -/
def irqBody (line : Nat) (level : Bool) (stamp : Nat) : List Byte :=
  b8 line ++ b8 (b2n level) ++ zeros 6 ++ leBytes 8 stamp

/-- RB_IRQ_POLL (R341): every line whose level has changed gives an item. -/
def execRbIrqPoll (lines : BitVec 8) (s : State) : Host.Outcome State Fault Refusal :=
  let old := s.rack.irqLevel
  live s 9 (if !s.rack.en || !s.rack.clkOk then s
    else (List.range 8).foldl (fun s i =>
        if lines.getLsbD i == old.getLsbD i then s
        else rackItem s 1 (1 + i) (irqBody i (lines.getLsbD i) (tb2 s)))
      { s with rack := { s.rack with irqLevel := lines } })

/-- A read on the bus that a monitor latches for its scan entries (R345). -/
def monitorRead (s : State) (addr : U32) (data : List U32) : State := match s.rack.map with
  | some m =>
    if s.rack.scanBusy then
      ((m.scan.zipIdx).filter (fun e => e.1.address == addr && decide (e.1.words ≤ data.length))).foldl (fun s e =>
        { s with rack := { s.rack with scanValues := s.rack.scanValues.modify e.2 (fun v =>
            { v with result := some true, staged := data.take e.1.words }) } }) s
    else s
  | none => s

/-- An inbound write on the bus that a monitor applies, or loses while its queue is full (R345, R346). -/
def monitorWrite (s : State) (offset : Nat) (byteEn : BitVec 4) (data : U32) : State :=
  match rackPosted s offset byteEn data with
  | some s => s
  | none => { s with rack := { s.rack with monLost := true, notDriver := satInc s.rack.notDriver } }

/-- A write-list cycle of the holder, compared with the own released records (R345). -/
def monitorList (s : State) (addr : U32) (byteEn : BitVec 4) (data : U32) : State :=
  let b := s.rack
  let differs := { s with rack := { b with expect := b.expect.tail, monMismatch := satInc b.monMismatch
                                           event := setBit b.event 7 } }
  match b.expect with
  | (a, d, be) :: rest =>
    if a == addr && be == byteEn && d == data then { s with rack := { b with expect := rest } } else differs
  | [] => differs

/-- RACK_MONITOR_CYCLE (R345): an access of another master on the shared bus; `wl` marks a cycle of the holder's write
list. -/
def execRackMonitorCycle (cmd : BitVec 4) (addr : U32) (byteEn : BitVec 4) (data : List U32) (rsp : BitVec 2)
    (wl : Bool) (s : State) : Host.Outcome State Fault Refusal :=
  let b := s.rack
  let base := (b.map.map (·.inBase)).getD 0
  let ours := decide (base ≤ addr.toNat) && decide (addr.toNat < base + 0x101000)
  live s 9 (if !b.en || !b.shared || b.failed || !b.clkOk || b.map.isNone || isHolder s then s
    else if cmd = 1 || cmd = 3 then (if rsp = 1 then monitorRead s addr data else s)
    else if cmd = 2 || cmd = 4 then
      if wl then (if rsp = 2 then s else monitorList s addr byteEn (data.headD 0))
      else if ours && rsp = 1 then
        (data.zipIdx).foldl (fun s d => monitorWrite s (addr.toNat - base + 4 * d.2) byteEn d.1) s
      else s
    else s)

/-- RB_CLK_LOSS (R346): RB_CLK has been missing for more than 2 µs. -/
def execRbClkLoss (s : State) : Host.Outcome State Fault Refusal :=
  live s 9 (if s.rack.clkOk then rackEvent { s with rack := { s.rack with clkOk := false } } 5 else s)

/-- RB_CLK_RETURN (R346): the bus resumes. -/
def execRbClkReturn (s : State) : Host.Outcome State Fault Refusal :=
  live s 9 (if s.rack.clkOk then s else rackGo { s with rack := { s.rack with clkOk := true } })

/-- RACK_READ and RACK_WRITE in service when the bridge fails (R348). -/
def rackAnswerFault (s : State) : State :=
  (List.range 24).foldl (fun s i => match (pairAt s i).job with
    | some j => if j.command = 0x0601 || j.command = 0x0602 then finishLong s i (failWith stHwFault) else s
    | none => s) s

/-- RACK_BRIDGE_FAIL (R346): a parity error fails the bridge until restart, with a record (R31). -/
def execRackBridgeFail (s : State) : Host.Outcome State Fault Refusal :=
  live s 9 (if s.rack.failed then s
    else
      let t := rackEvent (rackAbort (rackAnswerFault { s with rack := { s.rack with failed := true } })) 6
      recordBit t 8 0x10 6 t.rack.event.toNat 0xFF [])

/-- A word of the shared memory at B(n): the writes stamped before it are applied (R336). -/
def rangeWord (s : State) (o : Nat) : Nat :=
  let early := s.rack.inQueue.filter (fun w => decide (w.stamp < boundaryNs s.epoch) && w.offset / 4 == o / 4)
  memLe (early.foldl (fun b w => shmWrite b w.offset w.byteEn w.data) s.rack).shm o 4

/-- One scan entry at B(n) (R333): its value and FRESH. -/
def scanLatch (b : Rack) (v : ScanValue) : ScanValue :=
  if b.scanBusy && v.result == some true && !b.failed then { v with words := v.staged, fresh := true, result := none }
  else { v with fresh := false, result := none }

/-- The signals of a scan entry and FRESH. -/
def scanSignals (s : State) (e : ScanEntry) (v : ScanValue) : State :=
  rawSet (rawSetAll s e.signal (v.words.map (·.toNat))) (e.signal + e.words) (b2n v.fresh)

/-- The signals of an inbound range. -/
def rangeSignals (s : State) (r : RackRange) : State :=
  rawSetAll s r.signal ((List.range (r.length / 4)).map (fun i => rangeWord s (r.offset + 4 * i)))

/-- The scan ends at B(n) (R333), while the module still is what it was in the epoch: every entry takes its value, and entries
still unread are abandoned. In SHARED mode a bridge that has failed silences the module from this epoch on (R346). -/
def rackScanEnd (s : State) : State :=
  let b := s.rack
  let late := b.scanBusy && rackDrives s && b.scanValues.any (·.result.isNone)
  let s := { s with rack := { b with scanValues := b.scanValues.map (scanLatch b), scanBusy := false
                                     outQueue := b.outQueue.filter (fun a => !isScan a)
                                     mute := b.mute || (b.failed && b.shared) } }
  if late then rackEvent s 1 else s

/-- What the raw image takes from the rack bus at B(n) (R333, R336, R341, Table 10.4). A failed bridge keeps its range
signals. -/
def latchRack (s : State) : State := match s.rack.map with
  | none => s
  | some m =>
    let b := s.rack
    let s := { s with rack := { b with items := 0 } }
    let s := (m.scan.zip b.scanValues).foldl (fun s x => scanSignals s x.1 x.2) s
    let s := if b.failed then s else m.ranges.foldl rangeSignals s
    let s := rawSetAll s m.irqSignal ((List.range 8).map (fun i => b2n (b.irqLevel.getLsbD i)))
    rawSetAll s m.statusSignal [b2n b.clkOk, b2n (b.failed || b.monLost), b2n (rackDrives s)]

/-- The records of a write list, up to one with END or the end of the region (Table 10.6). -/
def listRecords : Nat → List Byte → List (U32 × U32 × BitVec 4 × Bool)
  | 0, _ => []
  | k + 1, bs =>
    if bs.length < 16 then []
    else
      let r := (BitVec.ofNat 32 (leAt bs 0 4), BitVec.ofNat 32 (leAt bs 4 4), BitVec.ofNat 4 (leAt bs 8 1)
        , bitOf (leAt bs 9 1) 0)
      if bitOf (leAt bs 9 1) 1 then [r] else r :: listRecords k (bs.drop 16)

/-- The module stops driving a SHARED bus while it goes on voting (R345): what it has queued, the write list apart, is
answered as an access of a monitor; a cycle that is granted ends. -/
def rackYield (s : State) : State :=
  let b := s.rack
  let gone := (if b.granted then [] else b.openAccess.toList) ++ b.outQueue.filter (fun a => !a.writeList)
  let s := { s with rack := { b with outQueue := b.outQueue.filter (·.writeList), lockHeld := false
                                     openAccess := if b.granted then b.openAccess else none } }
  gone.foldl (fun s a => rackDeliver (rackNotDriver s) a 4) s

/-- The bridge performs the write list of this boundary (R334, R344, R345): it drives the bus, or releases the safe values of
UNIT_SAFE once on its own segment (log entry 99). -/
def rackLists (s : State) : Bool :=
  let b := s.rack
  rackDrives s || (s.weft.own = .unitSafe && b.en && !b.failed && !b.shared && decide (s.power.stage.toNat < 3))

/-- At a boundary that releases WL_GROUP, records of the previous list that are not performed are discarded, and the new ones
are handed to the bridge (R334). A monitor applies the LOCAL records and expects the others from the holder (R345). `bytes`
is the released region. -/
def rackRelease (s : State) (epoch : Word) (bytes : List Byte) : State :=
  let rs := listRecords (bytes.length / 16) bytes
  let left := s.rack.writeList.length + (s.rack.outQueue.filter (·.writeList)).length
  let b := { s.rack with writeList := [], outQueue := s.rack.outQueue.filter (fun a => !a.writeList)
                         wlDiscard := satAdd s.rack.wlDiscard left }
  let t := { s with rack := b }
  let t := if left = 0 then t else rackEvent t 2
  if rackLists s then rackGo { t with rack := { t.rack with writeList := rs, wlEpoch := epoch } }
  else if b.en && b.shared && !b.failed then
    let rack := (rs.filter (·.2.2.2)).foldl (fun b r => shmWrite b r.1.toNat r.2.2.1 r.2.1) t.rack
    { t with rack := { rack with expect := (rs.filter (fun r => !r.2.2.2)).map (fun r => (r.1, r.2.1, r.2.2.1)) } }
  else t

/-- What mailbox commands changed takes effect at a boundary (R348). -/
def rackTake (s : State) : State :=
  let b := s.rack
  let pf := b.pfNext.foldl (fun (v : Vector PfWindow 8) x =>
    v.setIfInBounds x.1 ⟨x.2.1, BitVec.ofNat 12 x.2.2.1, BitVec.ofNat 12 x.2.2.2, none, none⟩) b.pf
  let b := { b with pollUs := b.pollNext.getD b.pollUs, pollNext := none, pf := pf, pfNext := [] }
  let b := if b.clearNext.getLsbD 0 then
      { b with inWr := 0, inRd := 0, inRetry := 0, outWr := 0, outRd := 0, outRetry := 0, failures := 0, evtDropped := 0
               wlDiscard := 0, drExpired := 0, monMismatch := 0, notDriver := 0 } else b
  let b := if b.clearNext.getLsbD 1 then { b with log := [], logNext := 0 } else b
  { s with rack := { b with clearNext := 0 } }

end Sys2Proof.Machine
end

