-- ==== Sys2Proof/Machine/Crypto.lean ====
section
/-! DEFINITION. The named cryptographic standards of chapters 3, 16 and 17: SHA-256 and SHA-512 (FIPS 180-4) and pure
Ed25519 (RFC 8032). -/

namespace Sys2Proof.Machine

open Sys2Proof

/-- The first 64 primes. -/
def primes64 : List Nat :=
  [2, 3, 5, 7, 11, 13, 17, 19, 23, 29, 31, 37, 41, 43, 47, 53, 59, 61, 67, 71, 73, 79, 83, 89, 97, 101, 103, 107, 109
  , 113, 127, 131, 137, 139, 149, 151, 157, 163, 167, 173, 179, 181, 191, 193, 197, 199, 211, 223, 227, 229, 233, 239
  , 241, 251, 257, 263, 269, 271, 277, 281, 283, 293, 307, 311]

/-- The primes 65 to 80. -/
def primes80 : List Nat :=
  primes64 ++ [313, 317, 331, 337, 347, 349, 353, 359, 367, 373, 379, 383, 389, 397, 401, 409]

/-- The largest `r` below 2^`bits` for which `f r` holds, when `f` is downward closed. -/
def searchRoot (f : Nat → Bool) : Nat → Nat → Nat
  | 0, r => r
  | b + 1, r => if f (r + 2 ^ b) then searchRoot f b (r + 2 ^ b) else searchRoot f b r

/-- The first `w` bits of the fraction of the cube root of `n`. -/
def cbrtFrac (w n : Nat) : Nat := searchRoot (fun r => decide (r ^ 3 ≤ n * 2 ^ (3 * w))) (w + 3) 0 % 2 ^ w

/-- The first `w` bits of the fraction of the square root of `n`. -/
def sqrtFrac (w n : Nat) : Nat := searchRoot (fun r => decide (r ^ 2 ≤ n * 2 ^ (2 * w))) (w + 4) 0 % 2 ^ w

/-- What SHA-256 and SHA-512 differ in: word width, block bytes, round constants and rotations. -/
structure ShaKind where
  w : Nat
  block : Nat
  k : List Nat
  big0 : Nat × Nat × Nat
  big1 : Nat × Nat × Nat
  small0 : Nat × Nat × Nat
  small1 : Nat × Nat × Nat

/-- SHA-256 (FIPS 180-4). -/
def sha256Kind : ShaKind :=
  ⟨32, 64, primes64.map (cbrtFrac 32), (2, 13, 22), (6, 11, 25), (7, 18, 3), (17, 19, 10)⟩

/-- SHA-512 (FIPS 180-4). -/
def sha512Kind : ShaKind :=
  ⟨64, 128, primes80.map (cbrtFrac 64), (28, 34, 39), (14, 18, 41), (1, 8, 7), (19, 61, 6)⟩

/-- Rotation right of a `w`-bit number. -/
def rotr (w n x : Nat) : Nat := x / 2 ^ n + x % 2 ^ n * 2 ^ (w - n)

/-- A capital sigma: three rotations. -/
def bigSigma (w : Nat) (r : Nat × Nat × Nat) (x : Nat) : Nat :=
  Nat.xor (Nat.xor (rotr w r.1 x) (rotr w r.2.1 x)) (rotr w r.2.2 x)

/-- A small sigma: two rotations and a shift. -/
def smallSigma (w : Nat) (r : Nat × Nat × Nat) (x : Nat) : Nat :=
  Nat.xor (Nat.xor (rotr w r.1 x) (rotr w r.2.1 x)) (x / 2 ^ r.2.2)

/-- The message schedule, newest word first, extended by `n` words. -/
def shaExtend (q : ShaKind) : Nat → List Nat → List Nat
  | 0, ws => ws
  | n + 1, ws =>
    let at' := fun i => (ws[i]?).getD 0
    shaExtend q n ((smallSigma q.w q.small1 (at' 1) + at' 6 + smallSigma q.w q.small0 (at' 14) + at' 15) % 2 ^ q.w :: ws)

/-- One round on the eight working variables. -/
def shaRound (q : ShaKind) (v : List Nat) (kw : Nat × Nat) : List Nat := match v with
  | [a, b, c, d, e, f, g, h] =>
    let m := 2 ^ q.w
    let ch := Nat.xor (e &&& f) ((m - 1 - e) &&& g)
    let maj := Nat.xor (Nat.xor (a &&& b) (a &&& c)) (b &&& c)
    let t1 := (h + bigSigma q.w q.big1 e + ch + kw.1 + kw.2) % m
    let t2 := (bigSigma q.w q.big0 a + maj) % m
    [(t1 + t2) % m, a, b, c, (d + t1) % m, e, f, g]
  | _ => v

/-- The big-endian words of a block. -/
def shaWords (q : ShaKind) (bs : List Byte) : List Nat :=
  (List.range 16).map (fun i => ofBe (slice bs (i * (q.w / 8)) (q.w / 8)))

/-- One block into the hash value. -/
def shaBlock (q : ShaKind) (hash : List Nat) (bs : List Byte) : List Nat :=
  let ws := (shaExtend q (q.k.length - 16) (shaWords q bs).reverse).reverse
  let v := (q.k.zip ws).foldl (shaRound q) hash
  (hash.zip v).map (fun x => (x.1 + x.2) % 2 ^ q.w)

/-- The blocks of a padded message. -/
def shaBlocks (q : ShaKind) : Nat → List Nat → List Byte → List Nat
  | 0, hash, _ => hash
  | n + 1, hash, bs => shaBlocks q n (shaBlock q hash (bs.take q.block)) (bs.drop q.block)

/-- A message with its padding. -/
def shaPad (q : ShaKind) (m : List Byte) : List Byte :=
  let l := q.w / 4
  let fill := (2 * q.block - (m.length + 1 + l) % q.block) % q.block
  m ++ [0x80] ++ zeros fill ++ beBytes l (8 * m.length)

/-- The hash of a message, from initial values. -/
def shaHash (q : ShaKind) (m : List Byte) : List Byte :=
  let p := shaPad q m
  let h0 := (primes64.take 8).map (sqrtFrac q.w)
  (shaBlocks q (p.length / q.block) h0 p).flatMap (beBytes (q.w / 8))

/-- SHA-256. -/
def sha256 (m : List Byte) : List Byte := shaHash sha256Kind m

/-- SHA-512. -/
def sha512 (m : List Byte) : List Byte := shaHash sha512Kind m

/-- The field prime 2^255 − 19. -/
def edP : Nat := 2 ^ 255 - 19

/-- The group order. -/
def edL : Nat := 2 ^ 252 + 27742317777372353535851937790883648493

/-- Modular power over `n` bits of the exponent. -/
def powMod (b e m : Nat) : Nat → Nat
  | 0 => 1
  | n + 1 =>
    let r := powMod b (e / 2) m n
    let r := r * r % m
    if e % 2 = 1 then r * b % m else r

/-- The inverse in the field. -/
def edInv (x : Nat) : Nat := powMod x (edP - 2) edP 255

/-- The curve constant d = −121665/121666. -/
def edD : Nat := (edP - 121665) * edInv 121666 % edP

/-- A square root of −1. -/
def edI : Nat := powMod 2 ((edP - 1) / 4) edP 255

/-- A point in extended coordinates. -/
structure EdPoint where
  x : Nat
  y : Nat
  z : Nat
  t : Nat

/-- Addition. -/
def edAdd (p q : EdPoint) : EdPoint :=
  let a := (p.y + edP - p.x) * (q.y + edP - q.x) % edP
  let b := (p.y + p.x) * (q.y + q.x) % edP
  let c := 2 * p.t * q.t % edP * edD % edP
  let d := 2 * p.z * q.z % edP
  let e := (b + edP - a) % edP
  let f := (d + edP - c) % edP
  let g := (d + c) % edP
  let h := (b + a) % edP
  ⟨e * f % edP, g * h % edP, f * g % edP, e * h % edP⟩

/-- A multiple of a point, over `n` bits of the scalar. -/
def edMul (k : Nat) (p : EdPoint) : Nat → EdPoint
  | 0 => ⟨0, 1, 1, 0⟩
  | n + 1 =>
    let r := edMul (k / 2) p n
    let r := edAdd r r
    if k % 2 = 1 then edAdd r p else r

/-- Equality of points. -/
def edEq (p q : EdPoint) : Bool :=
  p.x * q.z % edP == q.x * p.z % edP && p.y * q.z % edP == q.y * p.z % edP

/-- The x of a y with a given sign bit, if the point is on the curve. -/
def edX (y sign : Nat) : Option Nat :=
  let u := (y * y + edP - 1) % edP
  let v := (edD * (y * y % edP) + 1) % edP
  let v3 := v * v % edP * v % edP
  let x := u * v3 % edP * powMod (u * (v3 * v3 % edP * v % edP) % edP) ((edP - 5) / 8) edP 255 % edP
  let vx := v * (x * x % edP) % edP
  let root := if vx = u then some x else if vx = (edP - u) % edP then some (x * edI % edP) else none
  match root with
  | some x =>
    if x = 0 && sign = 1 then none else some (if x % 2 = sign then x else (edP - x) % edP)
  | none => none

/-- A point from its 32 bytes. -/
def edDecode (bs : List Byte) : Option EdPoint :=
  let n := ofLe (fit 32 bs)
  let y := n % 2 ^ 255
  if edP ≤ y then none else (edX y (n / 2 ^ 255)).map (fun x => ⟨x, y, 1, x * y % edP⟩)

/-- A point as its 32 bytes. -/
def edEncode (p : EdPoint) : List Byte :=
  let i := edInv p.z
  let x := p.x * i % edP
  leBytes 32 (p.y * i % edP + x % 2 * 2 ^ 255)

/-- The base point. -/
def edBase : EdPoint :=
  let y := 4 * edInv 5 % edP
  let x := (edX y 0).getD 0
  ⟨x, y, 1, x * y % edP⟩

/-- The secret scalar and the prefix of a seed. -/
def edSecret (seed : List Byte) : Nat × List Byte :=
  let h := sha512 seed
  let a := ofLe (h.take 32)
  (a % 2 ^ 254 / 8 * 8 + 2 ^ 254, h.drop 32)

/-- The public key of a seed. -/
def edPublic (seed : List Byte) : List Byte := edEncode (edMul (edSecret seed).1 edBase 255)

/-- A pure Ed25519 signature. -/
def edSign (seed m : List Byte) : List Byte :=
  let s := edSecret seed
  let a := edPublic seed
  let r := ofLe (sha512 (s.2 ++ m)) % edL
  let rr := edEncode (edMul r edBase 255)
  let k := ofLe (sha512 (rr ++ a ++ m)) % edL
  rr ++ leBytes 32 ((r + k * s.1) % edL)

/-- Verification of a pure Ed25519 signature of 64 bytes. -/
def edVerify (key m sig : List Byte) : Bool :=
  let s := ofLe (sig.drop 32)
  match edDecode key, edDecode (sig.take 32) with
  | some a, some r =>
    let k := ofLe (sha512 (sig.take 32 ++ fit 32 key ++ m)) % edL
    let e := fun p => edMul 8 p 4
    sig.length == 64 && decide (s < edL) && edEq (e (edMul s edBase 255)) (e (edAdd r (edMul k a 255)))
  | _, _ => false

end Sys2Proof.Machine
end

