-- ==== Sys2Proof/Machine/NetOps.lean ====
section
/-! DEFINITION. The Ethernet ports and the packet engine: frames, process and message data, rings, gates and 802.1CB
streams, the MVB port and the CAN ports (chapter 9). The layouts of Ethernet, IPv4, UDP and TRDP headers are those of
the named standards (log entry 36). -/

namespace Sys2Proof.Machine

open Sys2Proof

/-- A stream by number. -/
def streamOf (s : State) (n : Nat) : Option Stream := (s.pkt.streams.find? (·.1 == n)).map (·.2)

/-- The state with a stream replaced. -/
def putStream (s : State) (n : Nat) (x : Stream) : State :=
  { s with pkt := { s.pkt with streams := s.pkt.streams.map (fun e => if e.1 == n then (n, x) else e) } }

/-- The sequence number of the next frame of a stream, with the ports it goes to (R299); none without a stream. -/
def streamTake (s : State) (n : Nat) : State × Option (Nat × Nat) := match streamOf s n with
  | some x => (putStream s n { x with txSeq := x.txSeq + 1 }, some (x.txSeq.toNat, x.ports.toNat))
  | none => (s, none)

/-- The address from which a telegram goes out of a port (R302). -/
def sourceIp (x : EthPort) (unit : Bool) : U32 := if unit then x.unitIp else x.ip

/-- One publication telegram of boundary `m`, enqueued on its ports (R301, R302). -/
def publishOne (s : State) (i : Nat) (d : Publication) (m : Nat) : State :=
  let k := periodOf (BitVec.ofNat 3 d.cycle)
  let data := releasedBytes s d.srcOffset d.length
  let seq := m / k % 2 ^ 32
  let tel := pdTelegram seq d.comId.toNat s.pkt.topoEtb.toNat s.pkt.topoOptrn.toNat data
  let (s, st) := streamTake s d.stream
  let ports := match st with
    | some (_, mask) => mask
    | none => d.portMask.toNat
  (maskPorts ports).foldl (fun s p =>
    let x := s.pkt.port[p]
    let src := sourceIp x d.scopeUnit
    let f := ethFrame (macFor d.destIp) (Config.portMac p.val % 2 ^ 48) (some (d.prio.toNat * 8192 + d.vid))
      (st.map (·.1)) 0x0800 (udpPacket src d.destIp 17224 17224 tel)
    enqueue s p d.prio.toNat ⟨f, some (i, seq), none⟩) s

/-- The publications of B(m) in ascending descriptor index: those of module scope, or those of unit scope
(R301, R302). -/
def publishAll (s : State) (unit : Bool) : State :=
  let m := s.epoch.no.toNat
  (s.pkt.pubs.zipIdx).foldl (fun s x =>
    if x.1.scopeUnit == unit && m % periodOf (BitVec.ofNat 3 x.1.cycle) == x.1.phase then publishOne s x.2 x.1 m
    else s) s

/-- At a boundary, telegrams of the last one that are still queued are discarded and counted (R303). -/
def dropUnsent (s : State) : State :=
  let late := fun (x : EthPort) => (x.queue.toList.map (fun q => (q.filter (·.pub.isSome)).length)).sum
  let n := (s.pkt.port.toList.map late).sum
  let s := { s with pkt := { s.pkt with
    port := s.pkt.port.map (fun x => { x with queue := x.queue.map (fun q => q.filter (·.pub.isNone)) })
    pubMissed := satAdd s.pkt.pubMissed n } }
  if n = 0 then s else pktEvent s 11

/-- The bytes of a NETWORK area that takes a new telegram (Table 9.5). -/
def areaNew (t : Staged) (seq size : Nat) : List Byte :=
  let n := min t.payload.length (size - 16)
  [BitVec.ofNat 8 (5 + 8 * b2n t.late + 16 * b2n t.lineB), BitVec.ofNat 8 t.port] ++ leBytes 2 n ++ leBytes 4 seq
    ++ leBytes 8 t.stamp ++ fit (size - 16) (t.payload.take n)

/-- The bytes of a NETWORK area without a new telegram (R305), and whether its timeout was decided now. -/
def areaOld (old : List Byte) (now timeoutMs : Nat) (zero : Bool) : List Byte × Bool :=
  let f := (old.headD 0) &&& 0b11111011
  let due := f.getLsbD 0 && timeoutMs != 0 && decide (leAt old 8 8 + timeoutMs * 1000000 < now)
  if due then
    let body := old.drop 16
    ([(f &&& 0b11111110) ||| 0b10] ++ slice old 1 15 ++ (if zero then zeros body.length else body), true)
  else (f :: old.drop 1, false)

/-- The newer of two staged telegrams by receive stamp; of equal stamps that of the lower port (R305). -/
def stageNewer (old : Option Staged) (t : Staged) : Option Staged := match old with
  | some o => if o.stamp < t.stamp || (o.stamp == t.stamp && t.port < o.port) then some t else some o
  | none => some t

/-- The telegram that an area takes at a boundary: the newest stamped before it (R45, R305). -/
def newest (b : Nat) (xs : List Staged) : Option Staged := (xs.filter (fun t => decide (t.stamp < b))).foldl stageNewer none

/-- The telegrams that wait for a later boundary. -/
def unripe (b : Nat) (xs : List Staged) : List Staged := xs.filter (fun t => decide (b ≤ t.stamp))

/-- A NETWORK area at B(n) (R305): the state, and whether it timed out now. -/
def areaLatch (s : State) (signal : Nat) (xs : List Staged) (seq : Staged → Nat) (timeoutMs : Nat) (zero : Bool) :
    State × Bool :=
  let old := areaBytes s signal
  match newest (boundaryNs s.epoch) xs with
  | some t => (rawArea s signal (areaNew t (seq t) old.length), false)
  | none =>
    let r := areaOld old (boundaryNs s.epoch) timeoutMs zero
    if old.isEmpty then (s, false) else (rawArea s signal r.1, r.2)

/-- One subscription's area at B(n). -/
def latchSub (s : State) (i : Nat) (d : Subscription) : State :=
  let r := areaLatch s d.signal d.staged (fun t => t.seq) d.timeoutMs d.zeroOnTimeout
  let b := boundaryNs s.epoch
  let d' := { d with staged := unripe b d.staged, timedOut := r.2 || (d.timedOut && (newest b d.staged).isNone)
                     timeouts := if r.2 then satInc d.timeouts else d.timeouts }
  let s := { r.1 with pkt := { r.1.pkt with subs := r.1.pkt.subs.set i d' } }
  if r.2 then pktEvent { s with pkt := { s.pkt with pdTimeout := satInc s.pkt.pdTimeout } } 4 else s

/-- SEQ of an MVB or CAN area: the epoch number of the image that first holds the value (Table 9.5). -/
def seqEpoch (s : State) (_ : Staged) : Nat := s.epoch.no.toNat % 2 ^ 32

/-- The areas of MVB sink ports at B(n) (R312). -/
def latchMvb (s : State) : State :=
  let s := s.pkt.mvb.ports.foldl (fun s d =>
    if d.source then s else (areaLatch s d.target d.staged (seqEpoch s) d.timeoutMs d.zeroOnTimeout).1) s
  { s with pkt := { s.pkt with mvb := { s.pkt.mvb with
      ports := s.pkt.mvb.ports.map (fun d => { d with staged := unripe (boundaryNs s.epoch) d.staged }) } } }

/-- The areas of CAN filters at B(n) (R313). -/
def latchCan (s : State) : State :=
  let s := s.pkt.can.toList.foldl (fun s c => c.filters.foldl (fun s d => match d.signal with
    | some g => (areaLatch s g d.staged (seqEpoch s) d.timeoutMs d.zeroOnTimeout).1
    | none => s) s) s
  { s with pkt := { s.pkt with can := s.pkt.can.map (fun c =>
      { c with items := 0, filters := c.filters.map (fun d => { d with staged := unripe (boundaryNs s.epoch) d.staged }) }) } }

/-- What the raw image takes from the networks at B(n) (Table 2.4): the areas; the item limits start again. -/
def latchNet (s : State) : State :=
  let s := (s.pkt.subs.zipIdx).foldl (fun s x => latchSub s x.2 x.1) s
  let s := latchCan (latchMvb s)
  { s with pkt := { s.pkt with port := s.pkt.port.map (fun x => { x with mdItems := 0 }) } }

/-- The topology counters written since the last boundary take effect (R295). -/
def takeTopo (s : State) : State :=
  { s with pkt := { s.pkt with topoEtb := s.pkt.topoEtbNext.getD s.pkt.topoEtb, topoEtbNext := none
                               topoOptrn := s.pkt.topoOptrnNext.getD s.pkt.topoOptrn, topoOptrnNext := none } }

/-- The MVB source ports of one scope take their data from the released output image (R312). -/
def mvbSources (s : State) (unit : Bool) : State :=
  { s with pkt := { s.pkt with mvb := { s.pkt.mvb with ports := s.pkt.mvb.ports.map (fun d =>
      if d.source && d.scopeUnit == unit then { d with data := releasedBytes s d.target d.size } else d) } } }

/-- The transmit objects of a CAN port of one scope are queued in ascending index; one still unsent is replaced and
counted (R313). -/
def canQueue (s : State) (unit : Bool) (c : CanPort) : CanPort × Nat :=
  if c.state = 3 then (c, 0)
  else
    let hit := fun (o : CanObject) => o.scopeUnit == unit
    ({ c with objects := c.objects.map (fun o =>
        if hit o then { o with queued := some (releasedBytes s o.offset o.length) } else o) }
    , (c.objects.filter (fun o => hit o && o.queued.isSome)).length)

/-- The CAN objects of one scope at a release (R313). -/
def canObjects (s : State) (unit : Bool) : State :=
  let n := (s.pkt.can.toList.map (fun c => (canQueue s unit c).2)).sum
  { s with pkt := { s.pkt with can := s.pkt.can.map (fun c => (canQueue s unit c).1)
                               txOverwrite := satAdd s.pkt.txOverwrite n } }

/-- Entries of a ring. -/
def ringSize (r : Ring) : Nat := 2 ^ (r.size.toNat + 4)

/-- The state with a ring replaced. -/
def putRing (s : State) (i : Fin 64) (r : Ring) : State :=
  { s with pkt := { s.pkt with ring := s.pkt.ring.set i.val r } }

/-- Address of the descriptor at HEAD. -/
def ringDesc (r : Ring) : Nat := r.base.toNat * 256 + (r.head.toNat % ringSize r) * 32

/-- The next index of a ring. -/
def ringNext (r : Ring) (i : BitVec 12) : BitVec 12 := BitVec.ofNat 12 ((i.toNat + 1) % ringSize r)

/-- `n` bytes at `a` lie in the packet-buffer area, and for a lane's ring in its slices (R309). -/
def ringArea (s : State) (r : Ring) (a n : Nat) : Bool :=
  if r.owner = 2 then
    s.pkt.slices.any (fun x => x.lane.val == r.lane.toNat && decide (x.base ≤ a) && decide (a + n ≤ x.base + x.size))
  else decide (0x3B0000000 ≤ a) && decide (a + n ≤ 0x3F0000000)

/-- The ring has a descriptor that the engine owns (R310): handed over, OWN set. -/
def ringReady (s : State) (r : Ring) (upTo : BitVec 12) : Bool :=
  r.en && r.head != upTo && bitOf (memLe s.mem.dram (ringDesc r + 10) 2) 0

/-- The descriptor at HEAD completed with a status: OWN cleared, HEAD advanced (R310); `fill` writes what else the
engine stores in it. -/
def ringComplete (s : State) (i : Fin 64) (status : Nat) (fill : Mem → Nat → Mem) : State :=
  let r := s.pkt.ring[i]
  let a := ringDesc r
  let m := fill s.mem.dram a
  let m := memPutLe m (a + 10) 2 (memLe m (a + 10) 2 / 2 * 2)
  let m := memPutLe m (a + 26) 2 status
  putRing { s with mem := { s.mem with dram := m } } i { r with head := ringNext r r.head }

/-- The value of a port's PTP time base now, in nanoseconds (R280): at its last tick, and the unit intervals of 97 ps since
then, a free value below one tick; `asym` picoseconds are added (Tables 8.5 and 8.15, log entry 104). -/
def ptpStamp (s : State) (p : Fin 4) (n : Nat) (asym : Int) : Nat :=
  let tb := (s.time.tb.toList.map (fun b => tbNanos b.value))[b2n s.time.ptp[p].tb]?.getD 0
  (((tb * 1000 + (Config.freeWord n).toNat % 104 * 97 : Nat) : Int) + asym).toNat / 1000

/-- A timestamp of `ns` in a descriptor, with TS_VALID (Table 9.7). -/
def stampDesc (ns : Nat) (m : Mem) (a : Nat) : Mem :=
  let m := memPutLe m (a + 10) 2 (memLe m (a + 10) 2 ||| 4)
  memPutLe (memPutLe m (a + 16) 4 (ns % 1000000000)) (a + 20) 6 (ns / 1000000000)

/-- An event frame without a timestamp is counted (Table 8.16). -/
def tsMissed (s : State) (p : Fin 4) : State :=
  let q := s.time.ptp[p]
  { s with time := { s.time with ptp := s.time.ptp.set p.val { q with tsMiss := satInc q.tsMiss } } }

/-- The stamp of an event frame on a port (R280): none on a port that is assigned to no time base. -/
def takeStamp (s : State) (p : Fin 4) (timed : Bool) (asym : Int) : State × Option Nat :=
  if !timed then (s, none)
  else if s.time.ptp[p].en then
    let (n, t) := takeFree s
    (t, some (ptpStamp s p n asym))
  else (tsMissed s p, none)

/-- An event frame that carries a timestamp (Table 8.5). -/
def isTimed (v : EthView) : Bool :=
  v.type == 0x88F7 || ((ipView v).bind udpView).any (fun u => u.dst == 319)

/-- A received frame goes into a receive ring (R310): dropped and counted when the engine owns no descriptor. -/
def ringReceive (s : State) (p : Fin 4) (i : Fin 64) (f : List Byte) (timed : Bool) : State :=
  let r := s.pkt.ring[i]
  if !ringReady s r r.tail then rxDrop s p
  else
    let a := ringDesc r
    let buf := memLe s.mem.dram a 8 % 2 ^ 40
    if !ringArea s r a 32 || !ringArea s r buf f.length then ringComplete s i 3 (fun m _ => m)
    else
      let st := takeStamp s p timed s.time.ptp[p].asymPs.toInt
      ringComplete st.1 i 0 (fun m a =>
        let m := memPutLe (memWrite m buf f) (a + 8) 2 f.length
        match st.2 with
        | some ns => stampDesc ns m a
        | none => m)

/-- The lowest enabled receive ring of a port with an owner in `own`. -/
def ringFor (s : State) (p : Fin 4) (own : BitVec 2 → Bool) : Option (Fin 64) :=
  (List.finRange 64).find? (fun i =>
    let r := s.pkt.ring[i]
    r.en && !r.dir && own r.owner && r.port.toNat == p.val)

/-- A frame for Selvedge: through its receive ring where one is enabled, else delivered, without a timestamp (R309). -/
def toSelvedge (s : State) (p : Fin 4) (f : List Byte) (timed : Bool) : State := match ringFor s p (· == 1) with
  | some i => ringReceive s p i f timed
  | none =>
    let s := if timed then tsMissed s p else s
    { s with pkt := { s.pkt with toSelvedge := s.pkt.toSelvedge ++ [f] } }

/-- A subscription matches a telegram (R304). -/
def subMatches (s : State) (p : Fin 4) (ip : IpView) (t : PdView) (d : Subscription) : Bool :=
  let topo := fun (mine : U32) (n : Nat) => n == 0 || n == mine.toNat
  d.comId.toNat == t.comId && (ip.src &&& d.srcMask) == (d.srcIp &&& d.srcMask) && ip.dst == d.destIp
    && d.portMask.getLsbD p.val
    && (!d.topoCheck || (topo s.pkt.topoEtb t.etb && topo s.pkt.topoOptrn t.optrn))

/-- A PD telegram fills every subscription that it matches; the Bool says that one matched. -/
def takePd (s : State) (p : Fin 4) (ip : IpView) (t : PdView) : State × Bool :=
  let stg : Staged := ⟨p.val, t.seq, tb2 s, false, false, t.data⟩
  let hit := subMatches s p ip t
  ({ s with pkt := { s.pkt with subs := s.pkt.subs.map (fun d =>
      if hit d then { d with staged := d.staged ++ [stg], count := satInc d.count
                             lastSeq := BitVec.ofNat 32 t.seq, timedOut := false } else d) } }
  , s.pkt.subs.any hit)

/-- An item in the layout of Table 9.6. -/
def mdItem (port : Nat) (peer peerUdp localUdp ns : Nat) (data : List Byte) : List Byte :=
  leBytes 2 data.length ++ [BitVec.ofNat 8 port, 0] ++ leBytes 4 peer ++ leBytes 2 peerUdp ++ leBytes 2 localUdp
    ++ leBytes 4 ns ++ pad8 data

/-- A dropped item is counted in MD_DROP (R307). -/
def mdDrop (s : State) : State := pktEvent { s with pkt := { s.pkt with mdDrop := satInc s.pkt.mdDrop } } 5

/-- A message datagram becomes a queued item, within the port's limit (R307). -/
def takeMdItem (s : State) (p : Fin 4) (ip : IpView) (u : UdpView) : State :=
  let x := s.pkt.port[p]
  if s.pkt.mdLimit ≤ x.mdItems then mdDrop s
  else
    let item := mdItem p.val ip.src.toNat u.src u.dst (s.time.tb[2].value.ns.toNat) u.data
    queueItem (putPort s p { x with mdItems := x.mdItems + 1 }) (tb2 s) 5 p.val item (markLate 3)

/-- A message datagram on a port: through the engine's own receive ring where one is enabled (R309, R310). -/
def takeMd (s : State) (p : Fin 4) (f : List Byte) (ip : IpView) (u : UdpView) : State :=
  match ringFor s p (· == 0) with
  | none => takeMdItem s p ip u
  | some i =>
    if ringReady s s.pkt.ring[i] s.pkt.ring[i].tail then takeMdItem (ringReceive s p i f false) p ip u
    else ringReceive s p i f false

/-- A frame arrived on the management VLAN (R296). -/
def onMgmt (s : State) (p : Fin 4) (v : EthView) : Bool :=
  s.pkt.mgmtEn && s.pkt.port[p].mgmt && v.vid s.pkt.port[p] == s.pkt.mgmtVid.toNat

/-- A management datagram to the module's address reaches its mailbox pair (R242). -/
def takeMailbox (s : State) (p : Fin 4) (v : EthView) (ip : IpView) (u : UdpView) : Option State :=
  let i := u.dst - 50100
  if 16 ≤ i && i ≤ 19 && onMgmt s p v && ip.dst == s.pkt.mgmtIp && u.ok then
    some (if servesPair s i then mboxArrive s i ⟨ip.src, BitVec.ofNat 16 u.src⟩ (some p) u.data else s)
  else none

/-- An ARP request for an address that this module answers (R296): the port's module address, as holder its unit address, and
on the management VLAN the module's address there. -/
def arpWanted (s : State) (p : Fin 4) (v : EthView) : Bool :=
  let x := s.pkt.port[p]
  let tgt : U32 := BitVec.ofNat 32 (beAt v.body 24 4)
  beAt v.body 6 2 == 1 && ((x.ip != 0 && tgt == x.ip) || (x.unitIp != 0 && tgt == x.unitIp && isHolder s)
    || (s.pkt.mgmtIp != 0 && tgt == s.pkt.mgmtIp && onMgmt s p v))

/-- The ARP reply. -/
def arpReply (p : Fin 4) (v : EthView) : List Byte :=
  let mac := Config.portMac p.val % 2 ^ 48
  let b := v.body
  ethFrame v.src mac v.tci none 0x0806
    (slice b 0 6 ++ beBytes 2 2 ++ beBytes 6 mac ++ slice b 24 4 ++ slice b 8 6 ++ slice b 14 4)

/-- The gratuitous ARP for the unit address of a port (R296). -/
def gratuitousArp (s : State) (p : Fin 4) : State :=
  let x := s.pkt.port[p]
  if x.unitIp = 0 then s
  else
    let mac := Config.portMac p.val % 2 ^ 48
    let ip := beBytes 4 x.unitIp.toNat
    let f := ethFrame 0xFFFFFFFFFFFF mac none none 0x0806
      (beBytes 2 1 ++ beBytes 2 0x0800 ++ [6, 4] ++ beBytes 2 1 ++ beBytes 6 mac ++ ip ++ zeros 6 ++ ip)
    enqueue s p 0 ⟨f, none, none⟩

/-- An ICMP echo reply. -/
def echoReply (p : Fin 4) (v : EthView) (ip : IpView) : List Byte :=
  let b := fun (ck : Nat) => zeros 2 ++ beBytes 2 ck ++ ip.body.drop 4
  ethFrame v.src (Config.portMac p.val % 2 ^ 48) v.tci none 0x0800
    (ipPacket ip.dst ip.src 1 (b (inetCheck (b 0))))

/-- A PTP message of the port's own instance (Tables 8.5 and 8.15): its transport and its domain. Sync messages are counted. The
port state and the mean path delay follow from the protocol, which firmware runs: they become free values (log entry 80). -/
def ptpMessage (s : State) (p : Fin 4) (udp : Bool) (body : List Byte) : State :=
  let q := s.time.ptp[p]
  if q.en && q.udp == udp && leAt body 4 1 == q.domain.toNat then
    let (n, s) := takeFree s
    let q := { q with syncRx := if leAt body 0 1 % 16 = 0 then satInc q.syncRx else q.syncRx
                      portState := Config.ptpState n, meanDelay := Config.ptpDelay n }
    { s with time := { s.time with ptp := s.time.ptp.set p.val q } }
  else s

/-- A TTDP frame on a backbone port (R295): the firmware of Selvedge writes the topology counters that it learns, which take
effect at the next boundary. -/
def ttdpFrame (s : State) (f : List Byte) : State :=
  let c := Config.ttdpTopo f
  { s with pkt := { s.pkt with topoEtbNext := some c.1, topoOptrnNext := some c.2 } }

/-- The ethertype of TTDP topology frames (IEC 61375-2-5, log entry 36). -/
def ttdpType : Nat := 0x894C

/-- What Selvedge does with a frame that is for it: ARP, ICMP echo, PTP, TTDP (R295, R296, R280); none when it is not. -/
def takeSelvedge (s : State) (p : Fin 4) (f : List Byte) (v : EthView) : Option State :=
  let x := s.pkt.port[p]
  let ip := ipView v
  let own := ip.any (fun a => (x.ip != 0 && a.dst == x.ip) || (s.pkt.mgmtIp != 0 && a.dst == s.pkt.mgmtIp && onMgmt s p v))
  let udp := (ip.bind udpView).map (·.dst)
  if v.type = 0x88F7 then some (toSelvedge (ptpMessage s p false v.body) p f (isTimed v))
  else if udp == some 319 || udp == some 320 then
    some (toSelvedge (ptpMessage s p true (((ip.bind udpView).map (·.data)).getD [])) p f (isTimed v))
  else if v.type = ttdpType && x.role = 1 then some (toSelvedge (ttdpFrame s f) p f false)
  else if v.type = 0x0806 then
    some (if arpWanted s p v then enqueue s p (v.pcp x) ⟨arpReply p v, none, none⟩ else toSelvedge s p f false)
  else if own && (ip.map (·.proto)) == some 1 then
    match ip with
    | some a => some (if leAt a.body 0 1 == 8 then enqueue s p (v.pcp x) ⟨echoReply p v a, none, none⟩
        else toSelvedge s p f false)
    | none => none
  else none

/-- What the module itself takes from a frame: subscriptions, message data, mailboxes, Selvedge, rings (R304, R307,
R309). The Bool says that something took it, or that it was dropped and counted. -/
def takeLocal (s : State) (p : Fin 4) (f : List Byte) (v : EthView) : State × Bool :=
  let ring := fun (s : State) => match ringFor s p (· == 2) with
    | some i => (ringReceive s p i f false, true)
    | none => (s, false)
  match takeSelvedge s p f v with
  | some s => (s, true)
  | none => match ipView v with
    | none => ring s
    | some ip => match udpView ip with
      | none => ring s
      | some u => match pdView u with
        | some t => if t.pull then (rxDrop s p, true) else
            let r := takePd s p ip t
            if r.2 then r else ring s
        | none =>
          if u.dst = 17225 && u.ok && decide (u.data.length ≤ 1472) && s.pkt.mdListeners.contains (beAt u.data 8 4) then
            (takeMd s p f ip u, true)
          else match takeMailbox s p v ip u with
            | some s => (s, true)
            | none => ring s

/-- The stream that a received frame belongs to (R297): null or IP identification. -/
def streamFor (s : State) (p : Fin 4) (v : EthView) : Option (Nat × Stream) :=
  let udp := (ipView v).bind (fun a => (udpView a).map (fun u => (a.dst.toNat, u.dst)))
  s.pkt.streams.find? (fun x => match x.2.ident with
    | some (false, mac, vid) => v.dst == mac && v.vid s.pkt.port[p] == vid
    | some (true, ip, port) => udp == some (ip, port)
    | none => false)

/-- The signed distance of two 16-bit sequence numbers. -/
def seqDelta (a b : Nat) : Int := sxInt ((a : Int) - (b : Int)) 16

/-- The recovery function of a stream (R299): the stream after the frame, and whether it passes. The vector recovery
of the named standard discards a number out of the history's range (log entry 36). -/
def recover (x : Stream) (seq : Nat) : Stream × Bool :=
  let take := fun (last : Nat) (seen : List Nat) =>
    ({ x with last := some (BitVec.ofNat 16 last), seen := seen, passed := satInc x.passed }, true)
  let drop := ({ x with discarded := satInc x.discarded }, false)
  match x.last with
  | none => take seq [seq]
  | some l =>
    let d := seqDelta seq l.toNat
    let h : Int := x.historyLen
    if d ≥ h || d ≤ -h then drop
    else if d > 0 then
      take seq (seq :: x.seen.filter (fun y => decide (seqDelta seq y < h)))
    else if x.seen.contains seq then drop
    else take l.toNat (seq :: x.seen)

/-- The duplicate elimination of a received frame (R299); the Bool says that it passes. -/
def dedup (s : State) (p : Fin 4) (v : EthView) : State × Bool := match streamFor s p v, v.rtag with
  | some (n, x), some q =>
    let r := recover { x with lastRx := tb3 s } q
    let s := putStream s n r.1
    if r.2 then (s, true) else ({ s with pkt := { s.pkt with cbDiscard := satInc s.pkt.cbDiscard } }, false)
  | _, _ => (s, true)

/-- CB_RECOVERY_TIMEOUT (R299): a stream has received nothing for its recovery timeout, and its history is reset. A stream with
an empty history has none to reset. -/
def execCbRecoveryTimeout (stream : U16) (s : State) : Host.Outcome State Fault Refusal :=
  live s 8 (match streamOf s stream.toNat with
    | some x =>
      if x.timeoutMs = 0 || x.last.isNone then s else
      let s := passUntil s 3 (x.lastRx + x.timeoutMs * 1000000)
      let s := putStream s stream.toNat { x with last := none, seen := [], resets := satInc x.resets }
      pktEvent { s with pkt := { s.pkt with cbReset := satInc s.pkt.cbReset } } 7
    | none => s)

/-- ETH_LINK_CHANGE (R294): a port completes negotiation or loses its link, which the recorder notes (R31). A restore waits for
its ports (R448). -/
def execEthLinkChange (port : Fin 4) (link : BitVec 2) (fec : Bool) (s : State) : Host.Outcome State Fault Refusal :=
  let x := s.pkt.port[port]
  let up := decide (2 ≤ link.toNat)
  let s' := putPort s port { x with link := link, fecActive := fec && link == 3 && x.fec }
  let s' := if x.link = link then s' else pktEvent s' port.val
  let s' := if !up && decide (2 ≤ x.link.toNat) then
      recordBit s' 6 0x200 port.val s'.pkt.event.toNat 0xFF [BitVec.ofNat 8 port.val, 1] else s'
  live s 8 (if x.en && !x.shed && link != 0 && !(x.force1g && link == 3) then
      { s' with power := { s'.power with
          restorePorts := if up then clearBit s'.power.restorePorts port.val else s'.power.restorePorts } }
    else s)

/-- The time base of a port's gates in nanoseconds. -/
def gateNow (s : State) (x : EthPort) : Nat := (s.time.tb.toList.map (fun b => tbNanos b.value))[x.tasTb.toNat]?.getD 0

/-- Where a gate entry starts and ends in its cycle. -/
def gateSpan (es : List (BitVec 8 × Nat)) (i : Nat) : Nat × Nat :=
  let a := ((es.take i).map (·.2)).sum
  (a, a + ((es[i]?).map (·.2)).getD 0)

/-- Nanoseconds for which queue `q` stays open from entry `i` on, of which `left` remain: through the following
entries, at most one cycle. -/
def openFor (es : List (BitVec 8 × Nat)) (q : Nat) : Nat → Nat → Nat → Nat
  | 0, _, left => left
  | k + 1, i, left =>
    let j := (i + 1) % es.length
    match es[j]? with
    | some (g, n) => if g.getLsbD q then openFor es q k j (left + n) else left
    | none => left

/-- A frame fits before its gate closes (R298): preamble, frame with FCS, and gap. -/
def fitsGate (s : State) (x : EthPort) (q len : Nat) : Bool :=
  if !x.tasEn || x.list.entries.isEmpty then true
  else
    let es := x.list.entries
    let span := gateSpan es x.gateIx
    let pos := gateNow s x % 1000000000 % x.list.cycleNs
    let left := if span.1 ≤ pos && pos < span.2 then span.2 - pos else span.2 - span.1
    let bits := (len + 24) * 8
    let ns := if x.link = 3 then (bits + 9) / 10 else bits
    x.gates.getLsbD q && decide (ns ≤ openFor es q es.length x.gateIx left)

/-- The gate of a queue is open (R298). -/
def gateOpen (x : EthPort) (q : Nat) : Bool := !x.tasEn || x.list.entries.isEmpty || x.gates.getLsbD q

/-- The engine sends on a port (R295): an ETB port sends only while the module holds the active role. -/
def portSends (s : State) (x : EthPort) : Bool := portUp x && (x.role != 1 || isHolder s)

/-- The queue that sends next: the highest with a frame and an open gate (Table 9.2). -/
def nextQueue (x : EthPort) : Option Nat :=
  [7, 6, 5, 4, 3, 2, 1, 0].find? (fun q => !((x.queue[q]?).getD []).isEmpty && gateOpen x q)

/-- A publication descriptor whose telegram has been sent: COUNT and LAST_SEQ (Table 9.18). -/
def pubSent (seq : Nat) (d : Publication) : Publication :=
  { d with count := satInc d.count, lastSeq := BitVec.ofNat 32 seq }

/-- A frame of a transmit descriptor has left its queue: sent on the port, or lost (R310). With the last one the descriptor at HEAD
is completed; an event frame that was sent with TS_REQ takes its timestamp (R280). -/
def ringSent (s : State) (p : Fin 4) (f : EthFrame) (status : Nat) : State := match f.ring with
  | none => s
  | some (k, entry) =>
    let i : Fin 64 := ⟨k % 64, Nat.mod_lt _ (by decide)⟩
    let r := s.pkt.ring[i]
    if r.posted = 0 || r.head.toNat != entry then s
    else if 1 < r.posted then putRing s i { r with posted := r.posted - 1 }
    else
      let s := putRing s i { r with posted := 0 }
      let req := bitOf (memLe s.mem.dram (ringDesc r + 10) 2) 1 && status == 0
      let st := takeStamp s p (req && isTimed (ethView f.bytes)) 0
      ringComplete st.1 i status (fun m a => match st.2 with
        | some ns => stampDesc ns m a
        | none => m)

/-- The frames that wait on a port are lost: descriptors among them are completed as discarded (Table 9.7). -/
def portLost (s : State) (p : Fin 4) (x : EthPort) : State :=
  (x.queue.toList.flatten).foldl (fun s f => ringSent s p f 4) s

/-- A port enabled or disabled: its link state follows (Table 9.12), and a disabled port holds no frames. -/
def portEnable (x : EthPort) (en : Bool) : EthPort :=
  if en = x.en then x
  else if en then { x with en := true, link := 1 }
  else { x with en := false, link := 0, fecActive := false, queue := Vector.replicate 8 [] }

/-- A port as it changes, with the frames lost that a disabled port held (Table 9.7). -/
def portTo (s : State) (p : Fin 4) (x : EthPort) (en : Bool) : State :=
  let old := s.pkt.port[p]
  let s := putPort s p (portEnable x en)
  if old.en && !en then portLost s p old else s

/-- ETH_FRAME_TX (R298): the oldest frame of a queue is sent. -/
def execEthFrameTx (port : Fin 4) (queue : Fin 8) (s : State) : Host.Outcome State Fault Refusal :=
  let x := s.pkt.port[port]
  live s 8 (match x.queue[queue] with
    | f :: rest =>
      if portSends s x && nextQueue x == some queue.val && fitsGate s x queue.val f.bytes.length then
        let s := putPort s port { x with queue := x.queue.set queue.val rest, tx := x.tx + 1 }
        let s := match f.pub with
          | some (i, seq) => { s with pkt := { s.pkt with pubs := s.pkt.pubs.modify i (pubSent seq) } }
          | none => s
        ringSent s port f 0
      else s
    | [] => s)

/-- A pending gate list takes effect (R298). -/
def takeList (x : EthPort) : EthPort := match x.pendingList with
  | some l => { x with list := l, pendingList := none, tasTb := l.tb, gateIx := 0
                       gates := (l.entries.head?.map (·.1)).getD 0xFF }
  | none => x

/-- Nanoseconds until a pending list starts (R298): the first whole multiple of its CYCLE_NS, counted from the whole second of its
time base, at least 1 ms after the OK response. -/
def listWait (s : State) (x : EthPort) (l : GateList) : Nat :=
  let now := (s.time.tb.toList.map (fun b => tbNanos b.value))[l.tb.toNat]?.getD 0
  let first := now + (x.pendingAt + 1000000 - tb3 s)
  let cyc := max l.cycleNs 1
  first + (cyc - first % 1000000000 % cyc) % cyc - now

/-- GATE_INTERVAL (R298): the interval in force ends and the next one starts, or a pending list takes effect, whichever comes
first. -/
def execGateInterval (port : Fin 4) (s : State) : Host.Outcome State Fault Refusal :=
  let x := s.pkt.port[port]
  let es := x.list.entries
  let now := gateNow s x
  let span := gateSpan es x.gateIx
  let wait := span.2 - (now % 1000000000 % (max x.list.cycleNs 1))
  let i := if es.length ≤ x.gateIx + 1 then 0 else x.gateIx + 1
  let next := { x with gateIx := i, gates := ((es[i]?).map (·.1)).getD 0xFF }
  let go := fun (tb : BitVec 2) (ns : Nat) (y : EthPort) =>
    let k : Fin 4 := ⟨tb.toNat, tb.isLt⟩
    putPort (passUntil s k (tbNanos s.time.tb[k].value + ns)) port y
  live s 8 (match x.pendingList with
    | some l => if es.isEmpty || listWait s x l ≤ wait then go l.tb (listWait s x l) (takeList x) else go x.tasTb wait next
    | none => if es.isEmpty then s else go x.tasTb wait next)

/-- A write of RING_r_TAIL (R310, R320): the owner hands over descriptors. -/
def tailWrite (s : State) (i : Fin 64) (data : U32) : State :=
  putRing s i { s.pkt.ring[i] with tail := data.extractLsb' 0 12 }

/-- A lane owns a ring (R309). -/
def laneOwns (r : Ring) (l : LaneId) : Bool := r.owner = 2 && r.lane.toNat == l.val

/-- RING_TAIL_WRITE (R310, R320): by Selvedge, or by the lane that owns the ring; a store to any other ring is an
access violation and writes nothing. -/
def execRingTailWrite (m : Master) (ring : Fin 64) (data : U32) (s : State) : Host.Outcome State Fault Refusal :=
  live s 8 (match m with
    | .selvedge => tailWrite s ring data
    | .lane l => if laneOwns s.pkt.ring[ring] l then tailWrite s ring data else s)

/-- The frame of a transmit descriptor, with its VLAN tag and R-TAG inserted (Table 9.7, R299). -/
def ringFrame (bytes : List Byte) (tci rtag : Option Nat) : List Byte :=
  let f := match tci with
    | some t => bytes.take 12 ++ beBytes 2 0x8100 ++ beBytes 2 t ++ bytes.drop 12
    | none => bytes
  let o := if beAt f 12 2 == 0x8100 then 16 else 12
  match rtag with
  | some q => f.take o ++ beBytes 2 0xF1C1 ++ zeros 2 ++ beBytes 2 q ++ f.drop o
  | none => f

/-- The frame of a descriptor enqueued on its ports (R299, R310); with no port that takes it, it is discarded. -/
def ringEnqueue (s : State) (i : Fin 64) (ports : List (Fin 4)) (q : Nat) (f : List Byte) : State :=
  let r := s.pkt.ring[i]
  let dest := ports.filter (fun p => portTakes s.pkt.port[p])
  if dest.isEmpty then ringComplete s i 4 (fun m _ => m)
  else
    let s := putRing s i { r with posted := dest.length }
    dest.foldl (fun s p => enqueue s p q ⟨f, none, some (i.val, r.head.toNat)⟩) s

/-- A transmit descriptor is taken (R310): its frame is enqueued on its port, or as a frame of a stream on each port of the
stream's mask with the next sequence number (R299). It is completed when the frame has been sent. -/
def ringSend (s : State) (i : Fin 64) : State :=
  let r := s.pkt.ring[i]
  let a := ringDesc r
  let m := s.mem.dram
  let buf := memLe m a 8 % 2 ^ 40
  let len := memLe m (a + 8) 2
  let port := memLe m (a + 12) 1
  let tci := if bitOf (memLe m (a + 10) 2) 3 then some (memLe m (a + 14) 2) else none
  if !ringArea s r a 32 || !ringArea s r buf len then ringComplete s i 3 (fun m _ => m)
  else
    let st := streamTake s (memLe m (a + 28) 2)
    let f := ringFrame (memBytes m buf len) tci (st.2.map (·.1))
    let ports := match st.2 with
      | some (_, mask) => maskPorts mask
      | none => if h : port < 4 then [⟨port, h⟩] else []
    if len < 14 || (if st.2.isSome then 1524 else 1518) < f.length then ringComplete s i 1 (fun m _ => m)
    else ringEnqueue st.1 i ports (memLe m (a + 13) 1) f

/-- An uncorrectable error in a descriptor or its buffer (R310). -/
def ringError (s : State) (i : Fin 64) : State :=
  pktEvent (ringComplete { s with pkt := { s.pkt with bufUe := satInc s.pkt.bufUe } } i 2 (fun m _ => m)) 6

/-- The boundaries decide which descriptors of a ring are sent: those of a lane's transmit ring with GATE_EN (R311). -/
def ringGated (r : Ring) : Bool := r.dir && r.gateEn && r.owner = 2

/-- What a gated ring does with the descriptor at HEAD: sends it, discards it, or none while no boundary has decided. Segments
that end at HEAD are used up (R311). -/
def gateVerdict (r : Ring) : Option Bool := ((r.gates.dropWhile (fun g => g.1 == r.head)).head?).map (·.2)

/-- RING_DESC_DONE (R310, R311): the engine deals with the descriptor at HEAD; `ok` is false when a memory error discards it. A
receive descriptor is completed by the frame that it takes, and a transmit descriptor whose frame is queued by its sending. -/
def execRingDescDone (ring : Fin 64) (ok : Bool) (s : State) : Host.Outcome State Fault Refusal :=
  let r := s.pkt.ring[ring]
  live s 8 (if !ringReady s r r.tail || r.posted != 0 then s
    else if ringGated r && gateVerdict r != some true then
      (if gateVerdict r == some false then ringComplete s ring 4 (fun m _ => m) else s)
    else if !ok then ringError s ring
    else if r.dir then ringSend s ring else s)

/-- Completes the descriptors from HEAD on that a boundary has discarded (R311). -/
def ringDiscard : Nat → State → Fin 64 → State
  | 0, s, _ => s
  | k + 1, s, i =>
    let r := s.pkt.ring[i]
    if r.head = r.tail || r.posted != 0 || gateVerdict r != some false then s
    else ringDiscard k (ringComplete s i 4 (fun m _ => m)) i

/-- A gated ring at a boundary (R311): the descriptors posted in the epoch are sent if the own committed values of GATE_GROUP were
released, and otherwise discarded. -/
def ringGate (s : State) (i : Fin 64) : State :=
  let r := s.pkt.ring[i]
  if !(r.en && ringGated r) then s
  else
    let left := r.gates.dropWhile (fun g => g.1 == r.head)
    let go := s.weft.released.getLsbD r.gateGroup.toNat
    ringDiscard (ringSize r) (putRing s i { r with gates := left ++ [(r.tail, go)] }) i

/-- Every gated ring at a boundary. -/
def ringGates (s : State) : State := (List.finRange 64).foldl ringGate s

/-- One outbox record as a UDP datagram (R308), if its scope is one of those to send: through the engine's own transmit ring on
the port where one is enabled and has room, else at once (R309, log entry 105). -/
def outboxRecord (s : State) (r : List Byte) (scope : Bool → Bool) : State :=
  let n := leAt r 0 2
  let port := leAt r 2 1
  let unit := bitOf (leAt r 3 1) 0
  if h : port < 4 then
    let p : Fin 4 := ⟨port, h⟩
    if !scope unit then s
    else
      let src := sourceIp s.pkt.port[p] unit
      let dst : U32 := BitVec.ofNat 32 (leAt r 4 4)
      let f := ethFrame (macFor dst) (Config.portMac port % 2 ^ 48) none none 0x0800
        (udpPacket src dst (leAt r 10 2) (leAt r 8 2) (slice r 16 n))
      match engineRing s p with
      | some i => ringPost s p i f
      | none => enqueue s p 0 ⟨f, none, none⟩
  else s
where
  /-- The engine's transmit ring of a port that can take one more descriptor. -/
  engineRing (s : State) (p : Fin 4) : Option (Fin 64) := (List.finRange 64).find? (fun i =>
    let r := s.pkt.ring[i]
    r.en && r.dir && r.owner = 0 && r.port.toNat == p.val && ringNext r r.tail != r.head)
  /-- A frame in the descriptor at TAIL, at the buffer that the descriptor names; TAIL advances. -/
  ringPost (s : State) (p : Fin 4) (i : Fin 64) (f : List Byte) : State :=
    let r := s.pkt.ring[i]
    let a := r.base.toNat * 256 + r.tail.toNat % ringSize r * 32
    let m := s.mem.dram
    let m := memWrite m (memLe m a 8 % 2 ^ 40) f
    let m := memPutLe (memPutLe m (a + 8) 2 f.length) (a + 10) 2 1
    let m := memPutLe (memPutLe (memPutLe m (a + 12) 1 p.val) (a + 13) 1 0) (a + 28) 2 0xFFFF
    putRing { s with mem := { s.mem with dram := m } } i { r with tail := ringNext r r.tail }

/-- The records of an outbox, up to one with LENGTH 0 or the end of the region (R308). A LENGTH above 1472 ends it too: Table 9.6
gives it no meaning (log entry 105). -/
def outboxRun : Nat → State → List Byte → (Bool → Bool) → State
  | 0, s, _, _ => s
  | k + 1, s, bs, scope =>
    let n := leAt bs 0 2
    if n = 0 || 1472 < n || bs.length < 16 + n then s
    else outboxRun k (outboxRecord s bs scope) (bs.drop (16 + align8 n)) scope

/-- The MD outbox at a boundary: sent only when the module released the group's own committed values (R308). -/
def outboxSend (s : State) (scope : Bool → Bool) : State := match s.pkt.outbox with
  | some o =>
    if s.weft.released.getLsbD o.group.val then
      outboxRun (o.length / 16 + 1) s (releasedBytes s o.offset o.length) scope
    else s
  | none => s

/-- A frame on line B supplied the data, or line A; the active line changes with it (R312). -/
def mvbLine (s : State) (lineB : Bool) : State :=
  let m := s.pkt.mvb
  let m' := { m with lineActive := lineB, lineAOk := m.lineAOk || !lineB, lineBOk := m.lineBOk || lineB
                     framesA := if lineB then m.framesA else satInc m.framesA
                     framesB := if lineB then satInc m.framesB else m.framesB }
  let s := { s with pkt := { s.pkt with mvb := m' } }
  if m.lineActive != lineB then pktEvent s 8 else s

/-- What a master frame draws from this device (R312): the data of a source port, device status, or nothing. -/
def mvbAnswer (s : State) (code addr : Nat) : Option (Nat × List Byte) :=
  let m := s.pkt.mvb
  if code ≤ 4 then
    (m.ports.find? (fun d => d.source && d.address == addr && d.size == 2 ^ (code + 1)
      && (!d.scopeUnit || isHolder s))).map (fun d => (addr, fit d.size d.data))
  else if code = 15 && addr == m.deviceAddr.toNat then some (addr, beBytes 2 Config.mvbDeviceStatus.toNat)
  else none

/-- MVB transmission is stopped: calving stage 3, a missing reference (Table 15.2). -/
def mvbSilent (s : State) : Bool := s.weft.stopped

/-- The answer of this device to a master frame: none in a state without output release (R116). -/
def mvbMaster (s : State) (code addr : Nat) : State :=
  let a := if mvbSilent s || !releasing s then none else mvbAnswer s code addr
  { s with pkt := { s.pkt with mvb := { s.pkt.mvb with answered := a } } }

/-- A frame whose data has no port size is an error of its line: it is counted, and the line's OK bit falls (Table 9.13, R312). -/
def mvbError (s : State) (lineB : Bool) : State :=
  let m := s.pkt.mvb
  { s with pkt := { s.pkt with mvb := { m with errors := satInc m.errors, lineAOk := m.lineAOk && lineB
                                               lineBOk := m.lineBOk && !lineB } } }

/-- A slave frame fills the sink ports of its address (R312). -/
def mvbSink (s : State) (addr : Nat) (data : List Byte) (lineB : Bool) : State :=
  let stg : Staged := ⟨4, 0, tb2 s, lineB, false, data⟩
  let hit := fun (d : MvbPort) => !d.source && d.address == addr && d.size == data.length
  { s with pkt := { s.pkt with mvb := { s.pkt.mvb with ports := s.pkt.mvb.ports.map (fun d =>
      if hit d then { d with staged := d.staged ++ [stg] } else d) } } }

/-- The function code of a port size: sizes 2 to 32 bytes are codes 0 to 4. -/
def mvbCode (size : Nat) : Nat := match size with
  | 2 => 0 | 4 => 1 | 8 => 2 | 16 => 3 | _ => 4

/-- MVB_BA_PERIOD (R312): the holder, as administrator, polls the next basic period of its list. -/
def execMvbBaPeriod (s : State) : Host.Outcome State Fault Refusal :=
  let m := s.pkt.mvb
  let addrs := (m.poll[m.pollPos]?).getD []
  let master := fun (a : Nat) => (((m.ports.find? (·.address == a)).map (fun d => mvbCode d.size)).getD 0, a)
  live s 9 (if m.enabled && m.admin && isHolder s && !mvbSilent s then
      let s := { s with pkt := { s.pkt with mvb := { m with
        sentMasters := addrs.map master, pollPos := if m.poll.length ≤ m.pollPos + 1 then 0 else m.pollPos + 1 } } }
      match addrs.map master with
      | [] => s
      | fs => fs.foldl (fun s f => match mvbAnswer s f.1 f.2 with
        | some a => { s with pkt := { s.pkt with mvb := { s.pkt.mvb with answered := some a } } }
        | none => s) s
    else s)

/-- The state with a CAN port replaced. -/
def putCan (s : State) (p : Fin 4) (c : CanPort) : State :=
  { s with pkt := { s.pkt with can := s.pkt.can.set p.val c } }

/-- A filter passes an identifier: same length flag, and equal under the mask (R313). -/
def canPasses (ident : U32) (d : CanFilter) : Bool :=
  d.ident.getLsbD 31 == ident.getLsbD 31 && (ident &&& d.mask &&& 0x1FFFFFFF) == (d.ident &&& d.mask &&& 0x1FFFFFFF)

/-- The fault confinement state of a CAN port by its counters (ISO 11898-1, log entry 103): error passive above 127. -/
def canState (tec rec : BitVec 8) : BitVec 2 := if 127 < tec.toNat || 127 < rec.toNat then 1 else 0

/-- A frame has been received, or sent: the counter of that side changes as ISO 11898-1 has it, a free value, and the state
follows (R313, log entry 103). -/
def canCounted (n : Nat) (sent : Bool) (c : CanPort) : CanPort :=
  let c := if sent then { c with tec := Config.canCount n c.tec } else { c with recCnt := Config.canCount n c.recCnt }
  { c with state := canState c.tec c.recCnt }

/-- One filter sends a frame to queued items, within the port's limit (R313); the item takes the layout of Table 9.6 with the
identifier as PEER_IP (log entry 37). -/
def canItem (s : State) (p : Fin 4) (ident : U32) (data : List Byte) : State :=
  let c := s.pkt.can[p]
  if c.limit ≤ c.items then mdDrop s
  else
    let item := mdItem (5 + p.val) ident.toNat 0 0 (s.time.tb[2].value.ns.toNat) data
    queueItem (putCan s p { c with items := c.items + 1 }) (tb2 s) 5 (5 + p.val) item (markLate 3)

/-- A received CAN frame goes where each filter that it passes sends it (R313): an area, or queued items. -/
def canTake (s : State) (p : Fin 4) (ident : U32) (data : List Byte) : State :=
  let (n, s) := takeFree s
  let c := canCounted n false { s.pkt.can[p] with rx := s.pkt.can[p].rx + 1 }
  let stg : Staged := ⟨5 + p.val, 0, tb2 s, false, false, data⟩
  let area := fun (d : CanFilter) => canPasses ident d && d.signal.isSome
  let queued := c.filters.filter (fun d => canPasses ident d && d.signal.isNone)
  let s := putCan s p { c with filters := c.filters.map (fun d => if area d then { d with staged := d.staged ++ [stg] } else d) }
  queued.foldl (fun s _ => canItem s p ident data) s

/-- CAN_TX_DONE (R313): the object queued with the lowest index is sent, then frames of the gateway. -/
def execCanTxDone (port : Fin 4) (s : State) : Host.Outcome State Fault Refusal :=
  let c := s.pkt.can[port]
  let go := decide (c.state.toNat ≤ 1) && !s.weft.stopped
  let (n, t) := takeFree s
  let sent := { canCounted n true c with tx := c.tx + 1 }
  live s 9 (if !go then s else match c.objects.findIdx? (·.queued.isSome) with
    | some i => putCan t port { sent with objects := c.objects.modify i (fun o => { o with queued := none }) }
    | none => match c.fwd with
      | _ :: r => putCan t port { sent with fwd := r }
      | [] => s)

/-- CAN_BUS_OFF (R313): the transmit error counter has passed 255; recovery starts unless AUTO_RECOVER is clear. -/
def execCanBusOff (port : Fin 4) (s : State) : Host.Outcome State Fault Refusal :=
  let c := s.pkt.can[port]
  live s 9 (if c.state = 3 || c.state = 2 then s
    else pktEvent (putCan s port { c with state := 2, tec := 255, busOffCnt := satInc c.busOffCnt, recovering := c.autoRecover }) 9)

/-- CAN_BUSOFF_RECOVERY (R313): a recovery under way is complete. -/
def execCanBusoffRecovery (port : Fin 4) (s : State) : Host.Outcome State Fault Refusal :=
  let c := s.pkt.can[port]
  live s 9 (if c.state = 2 && c.recovering then
      putCan s port { c with state := 0, recovering := false, tec := 0, recCnt := 0 }
    else s)

end Sys2Proof.Machine
end

