-- ==== Sys2Proof/Machine/GatewayOps.lean ====
section
/-! DEFINITION. The gateway: the route lookup and its transforms, received Ethernet, MVB and CAN frames, and the
rebuild of the route table (chapter 9, R314 to R319). -/

namespace Sys2Proof.Machine

open Sys2Proof

/-- The bucket of a lookup key (R315). -/
def routeBucket (port kind ident : Nat) : Nat :=
  (crc32c ([BitVec.ofNat 8 port, BitVec.ofNat 8 kind, 0, 0] ++ leBytes 4 ident)).toNat % 16384

/-- An entry is VALID and has a key (R315). -/
def routeIs (e : RouteEntry) (port kind ident : Nat) : Bool :=
  e.flags.getLsbD 0 && e.srcPort.toNat == port && e.kind.toNat == kind && e.ident.toNat == ident

/-- The lowest-indexed entry of the key's bucket that decides (R315). -/
def routeLookup (t : RouteTable) (port kind ident : Nat) : Option (Nat × RouteEntry) :=
  let b := routeBucket port kind ident
  t.find? (fun x => x.1 / 4 == b && routeIs x.2 port kind ident)

/-- What the gateway carries: a frame of an Ethernet port, the data of an MVB port, or a CAN frame. -/
inductive Carried where
  | eth (frame : List Byte)
  | mvb (data : List Byte)
  | can (ident : Nat) (data : List Byte)

/-- The lookup key of an Ethernet frame: KIND and IDENT (R315). -/
def ethKey (f : List Byte) : Option (Nat × Nat) :=
  match ipView (ethView f) with
  | none => none
  | some ip => match udpView ip with
    | none => some (2, ip.dst.toNat)
    | some u => match pdView u with
      | some t => some (0, t.comId)
      | none => if u.dst = 17225 && u.ok then some (1, beAt u.data 8 4) else some (2, ip.dst.toNat)

/-- A UDP datagram with its checksum recomputed; one without a checksum keeps none. -/
def udpFixed (src dst : U32) (u : List Byte) : List Byte :=
  if beAt u 6 2 = 0 then u
  else
    let ck := 0xFFFF - inetFold (udpSum src dst (u.take 6 ++ zeros 2 ++ u.drop 8))
    u.take 6 ++ beBytes 2 (if ck = 0 then 0xFFFF else ck) ++ u.drop 8

/-- An IPv4 packet with its addresses replaced and its UDP datagram changed in place; the rest of the header is kept, and the
checksums are recomputed (Table 9.9). -/
def ipFixed (b : List Byte) (src dst : U32) (patch : List Byte → List Byte) : List Byte :=
  let hl := 4 * (leAt b 0 1 % 16)
  let head := fun (ck : Nat) =>
    b.take 10 ++ beBytes 2 ck ++ beBytes 4 src.toNat ++ beBytes 4 dst.toNat ++ (b.take hl).drop 20
  let l4 := (b.take (beAt b 2 2)).drop hl
  let n := beAt l4 4 2
  head (inetCheck (head 0)) ++ (if leAt b 9 1 = 17 then udpFixed src dst (patch (l4.take n)) ++ l4.drop n else l4)
    ++ b.drop (beAt b 2 2)

/-- The same Ethernet frame with another IPv4 packet. -/
def withBody (f body : List Byte) : List Byte :=
  let v := ethView f
  f.take (f.length - v.body.length) ++ body

/-- A frame with its VLAN tag set, inserted when there is none (Table 9.9, RETAG). -/
def retag (f : List Byte) (tci : Nat) : List Byte :=
  let rest := if beAt f 12 2 == 0x8100 then f.drop 16 else f.drop 12
  f.take 12 ++ beBytes 2 0x8100 ++ beBytes 2 tci ++ rest

/-- A TRDP datagram with another comId and its header FCS recomputed. An MD header carries its FCS after 112 bytes, a PD header
after 36 (log entry 36). -/
def recomidUdp (comId : Nat) (u : List Byte) : List Byte :=
  let d := u.drop 8
  let n := if beAt u 2 2 = 17224 then 36 else 112
  let h := d.take 8 ++ beBytes 4 comId ++ (d.take n).drop 12
  u.take 8 ++ h ++ leBytes 4 (crc32 h) ++ d.drop (n + 4)

/-- A TRDP frame with another comId (Table 9.9, COMID). -/
def recomid (f : List Byte) (comId : Nat) : List Byte := match ipView (ethView f) with
  | none => f
  | some ip => withBody f (ipFixed (ethView f).body ip.src ip.dst (recomidUdp comId))

/-- A frame with its destination and source IPv4 address replaced (Table 9.9, NAT). -/
def natFrame (f : List Byte) (src dst : U32) : List Byte := match ipView (ethView f) with
  | none => f
  | some _ => withBody f (ipFixed (ethView f).body src dst id)

/-- The dataset of a PD frame. -/
def pdData (f : List Byte) : List Byte :=
  ((((ipView (ethView f)).bind udpView).bind pdView).map (·.data)).getD []

/-- The queue of a forwarded frame: PRIO, or with KEEP_PCP the received PCP (Table 9.8). -/
def routeQueue (s : State) (e : RouteEntry) (f : List Byte) : Nat :=
  if e.prio.getLsbD 3 then (ethView f).pcp ((s.pkt.port[e.srcPort.toNat]?).getD (EthPort.reset 0)) else e.prio.toNat % 8

/-- The largest valid CAN FD length not above `n` (Table 9.9). -/
def canLength (n : Nat) : Nat :=
  ([64, 48, 32, 24, 20, 16, 12].find? (fun l => decide (l ≤ n))).getD (min n 8)

/-- A CAN frame queued on every CAN port of a mask. -/
def queueCans (s : State) (mask ident : Nat) (data : List Byte) : State :=
  { s with pkt := { s.pkt with can := Vector.ofFn (fun (p : Fin 4) =>
      let c := s.pkt.can[p]
      if bitOf mask (5 + p.val) && c.state != 3 then { c with fwd := c.fwd ++ [(BitVec.ofNat 32 ident, data)] } else c) } }

/-- The bytes in which a frame of any kind is delivered to Selvedge (port 9). -/
def carriedBytes : Carried → List Byte
  | .eth f => f
  | .mvb d => d
  | .can i d => leBytes 4 i ++ d

/-- Delivery to Selvedge. -/
def sendSelvedge (s : State) (c : Carried) : State :=
  { s with pkt := { s.pkt with toSelvedge := s.pkt.toSelvedge ++ [carriedBytes c] } }

/-- What the entry delivers to Selvedge where its mask holds port 9 (Table 9.8). -/
def sendLocal (s : State) (e : RouteEntry) (c : Carried) : State := if e.dstMask.getLsbD 9 then sendSelvedge s c else s

/-- A frame sent on every Ethernet port of an entry's mask, and to Selvedge with port 9; `f` gives it by outgoing port. Selvedge's
copy has the source port's addresses (log entry 106). -/
def sendPorts (s : State) (e : RouteEntry) (q : Nat) (f : EthPort → List Byte) : State :=
  let s := (maskPorts e.dstMask.toNat).foldl (fun s p => enqueue s p q ⟨f s.pkt.port[p], none, none⟩) s
  sendLocal s e (.eth (f ((s.pkt.port[e.srcPort.toNat]?).getD (EthPort.reset 0))))

/-- A CAN frame to every CAN port of an entry's mask, and to Selvedge with port 9. -/
def sendCans (s : State) (e : RouteEntry) (ident : Nat) (data : List Byte) : State :=
  sendLocal (queueCans s e.dstMask.toNat ident data) e (.can ident data)

/-- The PD telegram of a gateway entry, with the sequence counter kept per entry (Table 9.9). -/
def gatewayPd (s : State) (i : Nat) (e : RouteEntry) (data : List Byte) : State :=
  let seq := ((s.route.seqs.find? (·.1 == i)).map (·.2)).getD 0
  let s := { s with route := { s.route with seqs := (i, (seq + 1) % 2 ^ 32) :: s.route.seqs.filter (·.1 != i) } }
  let tel := pdTelegram seq e.newIdent.toNat s.pkt.topoEtb.toNat s.pkt.topoOptrn.toNat data
  let frame := fun (mac : Nat) (x : EthPort) =>
    ethFrame (macFor e.param) mac none none 0x0800 (udpPacket x.ip e.param 17224 17224 tel)
  let s := (maskPorts e.dstMask.toNat).foldl (fun s p =>
    enqueue s p (e.prio.toNat % 8) ⟨frame (Config.portMac p.val % 2 ^ 48) s.pkt.port[p], none, none⟩) s
  sendLocal s e (.mvb tel)

/-- The dataset of a PD telegram into the MVB source port of an entry, cut or zero-filled to its size (Table 9.9). -/
def gatewayMvb (s : State) (e : RouteEntry) (data : List Byte) : State :=
  let s := if e.dstMask.getLsbD 4 then
      { s with pkt := { s.pkt with mvb := { s.pkt.mvb with ports := s.pkt.mvb.ports.map (fun d =>
        if d.source && d.address == e.newIdent.toNat then { d with data := fit d.size data } else d) } } }
    else s
  sendLocal s e (.mvb data)

/-- One matched frame through its transform (R316, Table 9.9). -/
def transform (s : State) (i : Nat) (e : RouteEntry) (c : Carried) : State :=
  match e.transform.toNat, c with
  | 0, .eth f => sendPorts s e (routeQueue s e f) (fun _ => f)
  | 0, .can id d => sendCans s e id d
  | 0, .mvb d => sendLocal s e (.mvb d)
  | 1, .eth f => sendPorts s e (routeQueue s e f) (fun _ => recomid f e.newIdent.toNat)
  | 2, .eth f =>
    let tci := e.prio.toNat % 8 * 8192 + e.param.toNat % 4096
    sendPorts s e (e.prio.toNat % 8) (fun _ => retag f tci)
  | 3, .eth f => sendPorts s e (routeQueue s e f) (fun x => natFrame f x.ip e.param)
  | 4, .eth f => gatewayMvb s e (pdData f)
  | 5, .mvb d => gatewayPd s i e d
  | 6, .can id d => gatewayPd s i e (leBytes 4 id ++ d)
  | 7, .eth f =>
    let d := pdData f
    sendCans s e e.newIdent.toNat (d.take (canLength d.length))
  | 8, _ => { s with route := { s.route with drop := satInc s.route.drop } }
  | 9, c => sendSelvedge s c
  | _, _ => s

/-- The entry delivers locally to Selvedge on every module (R314). -/
def localOnly (e : RouteEntry) : Bool := e.dstMask == 0x200

/-- The module is the elected holder but has not started (R314). -/
def holderWaits (s : State) : Bool :=
  s.weft.roleSlot != 0 && s.weft.roleSlot == s.slot && !s.weft.roleStarted && s.route.fwdEn

/-- A frame that reaches the gateway before the holder has started is dropped and counted (R314). -/
def gapDrop (s : State) : State := pktEvent { s with pkt := { s.pkt with gapDrop := satInc s.pkt.gapDrop } } 10

/-- The gateway takes a frame with a lookup key (R314 to R316); the Bool says that it was forwarded, delivered or
dropped by an entry. Only a module that forwards counts lookups. -/
def gateway (s : State) (port kind ident : Nat) (c : Carried) : State × Bool :=
  let hit := routeLookup s.route.active port kind ident
  if forwarding s && !s.weft.stopped then
    let s := { s with route := { s.route with lookups := s.route.lookups + 1 } }
    match hit with
    | some (i, e) => (transform s i e c, true)
    | none =>
      let s := { s with route := { s.route with miss := satInc s.route.miss } }
      if s.route.missToSelvedge then (sendSelvedge s c, true) else (s, false)
  else
    let here := hit.filter (fun x => localOnly x.2)
    match here with
    | some (i, e) => (transform s i e c, true)
    | none => if holderWaits s then (gapDrop s, true) else (s, false)

/-- TCP and IP fragments are not carried (R307, log entry 105). -/
def noCarrier (f : List Byte) : Bool := (ipView (ethView f)).any (fun ip => ip.fragment || ip.proto == 6)

/-- The ingress filter of a port passes a frame's VID (Table 9.2). -/
def vidPasses (x : EthPort) (v : EthView) : Bool :=
  decide (1 ≤ v.vid x) && decide (v.vid x ≤ 4094) && (x.vids.isEmpty || x.vids.contains (v.vid x))

/-- An intact frame that has passed the duplicate elimination: the module takes what is for it, and the gateway looks
it up; a frame that neither takes is dropped and counted (R304). -/
def dispatchFrame (s : State) (p : Fin 4) (f : List Byte) : State :=
  if noCarrier f then rxDrop s p else
  let r := takeLocal s p f (ethView f)
  let g := match ethKey f with
    | some (k, i) => gateway r.1 p.val k i (.eth f)
    | none => (r.1, false)
  if r.2 || g.2 then g.1 else rxDrop g.1 p

/-- ETH_FRAME_RX (R294, R299, R304): a frame with its FCS arrives on a port. -/
def execEthFrameRx (port : Fin 4) (bytes : List Byte) (s : State) : Host.Outcome State Fault Refusal :=
  let x := s.pkt.port[port]
  let f := bytes.take (bytes.length - 4)
  let v := ethView f
  let max := if v.rtag.isSome then 1528 else 1522
  let bad := bytes.length < 64 || max < bytes.length || leAt bytes (bytes.length - 4) 4 != crc32 f
  live s 8 (if !portUp x then s
    else if bad then putPort s port { x with rxErr := satInc x.rxErr }
    else
      let s := putPort s port { x with rx := x.rx + 1 }
      if v.type = 0x8808 || !vidPasses x v then rxDrop s port
      else
        let r := dedup s port v
        if r.2 then dispatchFrame r.1 port f else r.1)

/-- MVB_FRAME (R312): a master frame is answered by this device, a slave frame fills its sink ports and is looked up
by the gateway. Slave data that has no port size is an error of its line. -/
def execMvbFrame (lineB : Bool) (master : Bool) (code : BitVec 4) (addr : BitVec 12) (data : List Byte) (s : State) :
    Host.Outcome State Fault Refusal :=
  let s' := mvbLine s lineB
  live s 9 (if !s.pkt.mvb.enabled then s
    else if !master && !([2, 4, 8, 16, 32].contains data.length) then mvbError s lineB
    else if master then mvbMaster s' code.toNat addr.toNat
    else (gateway (mvbSink s' addr.toNat data lineB) 4 3 addr.toNat (.mvb data)).1)

/-- CAN_FRAME_RX (R313): a frame is received on a CAN port. -/
def execCanFrameRx (port : Fin 4) (ident : U32) (data : List Byte) (s : State) : Host.Outcome State Fault Refusal :=
  live s 9 (if decide (2 ≤ s.pkt.can[port].state.toNat) then s
    else (gateway (canTake s port ident data) (5 + port.val) 4 ident.toNat (.can ident.toNat data)).1)

/-- A route entry as its 32 bytes (Table 9.8). -/
def routeBytes (e : RouteEntry) : List Byte :=
  [e.flags, e.srcPort, e.kind, e.transform] ++ leBytes 4 e.ident.toNat ++ leBytes 2 e.dstMask.toNat
    ++ [e.prio] ++ slice e.reserved 0 1 ++ leBytes 4 e.newIdent.toNat ++ leBytes 4 e.param.toNat ++ slice e.reserved 1 12

/-- A route entry from its 32 bytes (Table 9.8). -/
def routeFrom (b : List Byte) : RouteEntry :=
  let at8 := fun (o : Nat) => BitVec.ofNat 8 (leAt b o 1)
  { flags := at8 0, srcPort := at8 1, kind := at8 2, transform := at8 3, ident := BitVec.ofNat 32 (leAt b 4 4)
    dstMask := BitVec.ofNat 16 (leAt b 8 2), prio := at8 10, newIdent := BitVec.ofNat 32 (leAt b 12 4)
    param := BitVec.ofNat 32 (leAt b 16 4), reserved := slice b 11 1 ++ slice b 20 12 }

/-- The 32 bytes of an entry of a table: zeros where it lists none. -/
def routeAt (t : RouteTable) (i : Nat) : List Byte := match t.find? (·.1 == i) with
  | some x => routeBytes x.2
  | none => zeros 32

/-- A table with one entry written: an entry of zeros is not listed. -/
def routePut (t : RouteTable) (i : Nat) (b : List Byte) : RouteTable :=
  t.filter (·.1 < i) ++ (if b.all (· == 0) then [] else [(i, routeFrom b)]) ++ t.filter (fun x => decide (i < x.1))

/-- The bytes of a table from index `i` on, `n` entries. -/
def routeRun : Nat → Nat → RouteTable → List Byte
  | 0, _, _ => []
  | n + 1, i, [] => zeros 32 ++ routeRun n (i + 1) []
  | n + 1, i, x :: r => if x.1 = i then routeBytes x.2 ++ routeRun n (i + 1) r else zeros 32 ++ routeRun n (i + 1) (x :: r)

/-- CRC-32C over the 2 MiB of a copy (Table 9.17). -/
def routeCrc (t : RouteTable) : U32 := crc32c (routeRun 65536 0 t)

/-- The fields of an entry are within Table 9.8. -/
def routeFields (e : RouteEntry) : Bool :=
  decide (e.flags.toNat ≤ 1) && decide (e.srcPort.toNat ≤ 8) && decide (e.kind.toNat ≤ 4)
    && decide (e.transform.toNat ≤ 9)
    && decide (e.dstMask.toNat < 1024) && !e.dstMask.getLsbD e.srcPort.toNat && decide (e.prio.toNat < 16)
    && e.reserved.all (· == 0)

/-- Destination ports of a mask all lie in a set of ports; Selvedge always may. -/
def onlyPorts (e : RouteEntry) (mask : Nat) : Bool := e.dstMask.toNat &&& (1023 - mask - 512) == 0

/-- The transform suits the KIND of its source and the kinds of its destination ports (R318, Table 9.9). -/
def routeSuits (e : RouteEntry) : Bool :=
  let k := e.kind.toNat
  let eth := k ≤ 2 && e.srcPort.toNat ≤ 3
  match e.transform.toNat with
  | 0 => (eth && onlyPorts e 0x00F) || (k = 4 && decide (5 ≤ e.srcPort.toNat) && onlyPorts e 0x1E0)
    || (k = 3 && e.srcPort == 4 && onlyPorts e 0)
  | 1 => eth && k ≤ 1 && onlyPorts e 0x00F
  | 2 => eth && onlyPorts e 0x00F
  | 3 => eth && onlyPorts e 0x00F
  | 4 => eth && k = 0 && onlyPorts e 0x010
  | 5 => k = 3 && e.srcPort == 4 && onlyPorts e 0x00F
  | 6 => k = 4 && decide (5 ≤ e.srcPort.toNat) && onlyPorts e 0x00F
  | 7 => eth && k = 0 && onlyPorts e 0x1E0
  | 8 => true
  | 9 => true
  | _ => false

/-- The reason why one VALID entry of the shadow fails, 0 for none (R318). -/
def routeFault (t : RouteTable) (i : Nat) (e : RouteEntry) : Nat :=
  let same := fun (x : Nat × RouteEntry) =>
    x.1 != i && routeIs x.2 e.srcPort.toNat e.kind.toNat e.ident.toNat
  if i / 4 != routeBucket e.srcPort.toNat e.kind.toNat e.ident.toNat then 1
  else if t.any same then 2
  else if !routeFields e then 3
  else if !routeSuits e then 4
  else 0

/-- The first failing entry of the shadow with its reason (R318). -/
def routeCheck (t : RouteTable) : Option (Nat × Nat) :=
  t.findSome? (fun x =>
    if x.2.flags.getLsbD 0 then
      let r := routeFault t x.1 x.2
      if r = 0 then none else some (x.1, r)
    else none)

/-- A table of free contents: the shadow after a ROUTE_ABORT (Table 9.10, log entry 7). -/
def freeTable (n : Nat) : RouteTable :=
  (List.range 65536).map (fun i => (i, routeFrom ((List.range 32).map (fun j => Config.freeByte n (32 * i + j)))))

/-- Sets a bit of ROUTE_EVENT. -/
def routeEvent (s : State) (bit : Nat) : State :=
  { s with route := { s.route with event := setBit s.route.event bit } }

/-- At B(s) a READY shadow is swapped in (R317): the first boundary at least 1 µs after REBUILD_DONE whose number is at
least ACTIVATE_EPOCH. -/
def routeSwap (s : State) : State :=
  let r := s.route
  if r.shadowState = .ready && decide (r.readyAt + 1000 ≤ boundaryNs s.epoch) && !s.epoch.no.ult r.activateEpoch then
    let late := r.activateEpoch != 0 && r.activateEpoch != s.epoch.no
    let s := { s with route := { r with
      active := r.shadow, shadow := r.active, copy := !r.copy, shadowState := .idle, owner := none
      tableId := r.shadowId, tableCrc := r.shadowCrc, shadowId := r.tableId, shadowCrc := r.tableCrc
      swapEpoch := s.epoch.no } }
    let s := routeEvent s 1
    if late then routeEvent s 2 else s
  else s

end Sys2Proof.Machine
end

