-- ==== Sys2Proof/Machine/MbNet.lean ====
section
/-! DEFINITION. The network and gateway group of mailbox commands, and the ends of the route copy and of the route
check (chapter 9, Table 9.18, R317 to R319, R322, R323). -/

namespace Sys2Proof.Machine

open Sys2Proof

/-- NET_GET_PORT response. -/
def portBytes (p : Nat) (x : EthPort) : List Byte :=
  b8 p ++ b8 x.link.toNat ++ b8 x.role.toNat ++ b8 (portCfg x) ++ leBytes 4 x.rx.toNat ++ leBytes 4 x.tx.toNat
    ++ leBytes 4 x.rxErr.toNat ++ leBytes 4 x.rxDrop.toNat

/-- NET_GET_PORT (Table 9.18). -/
def execNetGetPort (pair : PairId) (s : State) : Host.Outcome State Fault Refusal :=
  serve s pair (readCmd 0x0500 2 4) (reads (fun s p =>
    if h : u8 p 0 < 4 then
      if allZero p 1 3 then okWith (portBytes (u8 p 0) s.pkt.port[u8 p 0]) else failWith stParam
    else failWith stParam))

/-- NET_SET_PORT (R323): not for the port that carried the request, when it would cut it off. -/
def setPortBody (i : Nat) : Body := fun s p =>
  if h : u8 p 0 < 4 then
    let k : Fin 4 := ⟨u8 p 0, h⟩
    let f := u8 p 2
    let own := (pairAt s i).rxPort == some k
    if 1 < u8 p 1 || 7 < f || u8 p 3 != 0 then (s, some (failWith stParam))
    else if own && (u8 p 1 = 0 || (s.pkt.port[k].mgmt && !bitOf f 2)) then (s, some (failWith stPermit))
    else
      let x := { s.pkt.port[k] with fec := bitOf f 0, force1g := bitOf f 1, mgmt := bitOf f 2 }
      (portTo s k x (u8 p 1 == 1), some okEmpty)
  else (s, some (failWith stParam))

/-- NET_SET_PORT. -/
def execNetSetPort (pair : PairId) (s : State) : Host.Outcome State Fault Refusal :=
  serve s pair (changeCmd 0x0501 2 4) (setPortBody pair.val)

/-- The packet counters with those of a mask cleared: bit `i` is the counter at 0x0300 + 4i (Table 9.15). -/
def clearPkt (b : Pkt) (m : Nat) : Pkt :=
  let z := fun (i : Nat) (c : U32) => if bitOf m i then 0 else c
  { b with port := Vector.ofFn (fun (p : Fin 4) =>
             let x := b.port[p]
             { x with rxErr := z (2 * p.val) x.rxErr, rxDrop := z (2 * p.val + 1) x.rxDrop })
           pdTimeout := z 8 b.pdTimeout, mdDrop := z 9 b.mdDrop, bufUe := z 10 b.bufUe
           cbDiscard := z 11 b.cbDiscard, cbReset := z 12 b.cbReset, pubMissed := z 13 b.pubMissed
           gapDrop := z 14 b.gapDrop, txOverwrite := z 15 b.txOverwrite }

/-- NET_CLEAR_COUNTERS. -/
def execNetClearCounters (pair : PairId) (s : State) : Host.Outcome State Fault Refusal :=
  serve s pair (changeCmd 0x0502 2 4) (fun s p =>
    if !allZero p 2 2 then (s, some (failWith stParam))
    else ({ s with pkt := clearPkt s.pkt (u16 p 0) }, some okEmpty))

/-- The entries of a NET_GCL_SET payload. -/
def gclEntries (p : List Byte) : List (BitVec 8 × Nat) :=
  (List.range (u16 p 2)).map (fun i => (BitVec.ofNat 8 (u8 p (8 + 4 * i)), u32 p (8 + 4 * i) / 256))

/-- A gate list satisfies R298 and R323. -/
def gclOk (s : State) (cycle : Nat) (es : List (BitVec 8 × Nat)) : Bool :=
  !es.isEmpty && decide (es.length ≤ 256) && es.all (fun e => decide (100 ≤ e.2)) && (es.map (·.2)).sum == cycle
    && decide (0 < cycle) && epochNs s.epoch % cycle == 0

/-- NET_GCL_SET (R298, R322): segmented; the list waits for a cycle start at least 1 ms after the response. -/
def gclSetBody : Body := fun s p =>
  if p.length != 8 + 4 * u16 p 2 then (s, some (failWith stLength))
  else if h : u8 p 0 < 4 then
    let k : Fin 4 := ⟨u8 p 0, h⟩
    let es := gclEntries p
    if 2 < u8 p 1 || !gclOk s (u32 p 4) es then (s, some (failWith stParam))
    else (putPort s k { s.pkt.port[k] with pendingList := some ⟨BitVec.ofNat 2 (u8 p 1), u32 p 4, es⟩
                                           pendingAt := tb3 s }, some okEmpty)
  else (s, some (failWith stParam))

/-- NET_GCL_SET. -/
def execNetGclSet (pair : PairId) (s : State) : Host.Outcome State Fault Refusal :=
  serve s pair ⟨0x0503, 3, onChanges, true, fun n => decide (8 ≤ n)⟩ gclSetBody

/-- NET_GCL_GET response: the active list, up to 120 entries from `start`. -/
def gclBytes (l : GateList) (start : Nat) : List Byte :=
  b8 l.tb.toNat ++ b8 0 ++ leBytes 2 l.entries.length ++ leBytes 4 l.cycleNs
    ++ ((l.entries.drop start).take 120).flatMap (fun e => leBytes 4 (e.1.toNat + 256 * e.2))

/-- NET_GCL_GET. -/
def execNetGclGet (pair : PairId) (s : State) : Host.Outcome State Fault Refusal :=
  serve s pair (readCmd 0x0504 2 4) (reads (fun s p =>
    if h : u8 p 0 < 4 then
      if u8 p 1 != 0 || 255 < u16 p 2 then failWith stParam else okWith (gclBytes s.pkt.port[u8 p 0].list (u16 p 2))
    else failWith stParam))

/-- NET_CB_GET response. STATE is 1 while the history holds an accepted number, which the spec does not list
(log entry 38); a stream that the container does not use answers zeros. -/
def streamBytes (x : Option Stream) : List Byte := match x with
  | some x =>
    b8 (b2n x.last.isSome) ++ b8 x.historyLen ++ zeros 2 ++ leBytes 4 x.passed.toNat ++ leBytes 4 x.discarded.toNat
      ++ leBytes 4 x.resets.toNat
  | none => zeros 16

/-- NET_CB_GET. -/
def execNetCbGet (pair : PairId) (s : State) : Host.Outcome State Fault Refusal :=
  serve s pair (readCmd 0x0505 2 4) (reads (fun s p =>
    if 511 < u16 p 0 || !allZero p 2 2 then failWith stParam else okWith (streamBytes (streamOf s (u16 p 0)))))

/-- A publication descriptor as its 32 bytes (Table 9.3). -/
def pubBytes (d : Publication) : List Byte :=
  leBytes 4 d.comId.toNat ++ leBytes 4 d.destIp.toNat ++ leBytes 4 d.srcOffset ++ leBytes 2 d.length
    ++ b8 d.portMask.toNat ++ b8 (d.prio.toNat + 8 * b2n d.scopeUnit) ++ leBytes 2 d.vid ++ b8 d.cycle ++ b8 d.phase
    ++ leBytes 2 d.stream ++ zeros 10

/-- A subscription descriptor as its 32 bytes (Table 9.4). -/
def subBytes (d : Subscription) : List Byte :=
  leBytes 4 d.comId.toNat ++ leBytes 4 d.srcIp.toNat ++ leBytes 4 d.srcMask.toNat ++ leBytes 4 d.destIp.toNat
    ++ leBytes 4 d.signal ++ leBytes 2 d.timeoutMs ++ b8 d.portMask.toNat
    ++ b8 (b2n d.topoCheck + 2 * b2n d.zeroOnTimeout) ++ zeros 8

/-- NET_PD_GET response; a publication has no timeouts. -/
def pdBytes (s : State) (kind i : Nat) : Option (List Byte) :=
  if kind = 0 then
    (s.pkt.pubs[i]?).map (fun d => pubBytes d ++ leBytes 4 d.count.toNat ++ zeros 4 ++ leBytes 4 d.lastSeq.toNat)
  else
    (s.pkt.subs[i]?).map (fun d =>
      subBytes d ++ leBytes 4 d.count.toNat ++ leBytes 4 d.timeouts.toNat ++ leBytes 4 d.lastSeq.toNat)

/-- NET_PD_GET. -/
def execNetPdGet (pair : PairId) (s : State) : Host.Outcome State Fault Refusal :=
  serve s pair (readCmd 0x0506 2 4) (reads (fun s p =>
    if 1 < u8 p 0 || u8 p 1 != 0 then failWith stParam
    else match pdBytes s (u8 p 0) (u16 p 2) with
      | some b => okWith b
      | none => failWith stParam))

/-- NET_MVB_GET. -/
def execNetMvbGet (pair : PairId) (s : State) : Host.Outcome State Fault Refusal :=
  serve s pair (readCmd 0x0507 2 0) (reads (fun s _ =>
    okWith (leBytes 4 (mvbStatus s) ++ leBytes 4 s.pkt.mvb.framesA.toNat ++ leBytes 4 s.pkt.mvb.framesB.toNat
      ++ leBytes 4 s.pkt.mvb.errors.toNat)))

/-- NET_CAN_GET. PORT is 5 to 8 (R293). -/
def execNetCanGet (pair : PairId) (s : State) : Host.Outcome State Fault Refusal :=
  serve s pair (readCmd 0x0508 2 4) (reads (fun s p =>
    if h : 5 ≤ u8 p 0 ∧ u8 p 0 ≤ 8 then
      let c := s.pkt.can[u8 p 0 - 5]
      if allZero p 1 3 then
        okWith (leBytes 4 (canStatus c) ++ leBytes 4 c.rx.toNat ++ leBytes 4 c.tx.toNat ++ leBytes 4 c.busOffCnt.toNat)
      else failWith stParam
    else failWith stParam))

/-- NET_CAN_RECOVER (R313, R323): recovery starts. PORT is 5 to 8 (R293). -/
def canRecoverBody : Body := fun s p =>
  if h : 5 ≤ u8 p 0 ∧ u8 p 0 ≤ 8 then
    let k : Fin 4 := ⟨u8 p 0 - 5, by omega⟩
    let c := s.pkt.can[k]
    if !allZero p 1 3 then (s, some (failWith stParam))
    else if c.state != 2 || c.autoRecover then (s, some (failWith stPermit))
    else (putCan s k { c with recovering := true }, some okEmpty)
  else (s, some (failWith stParam))

/-- NET_CAN_RECOVER. -/
def execNetCanRecover (pair : PairId) (s : State) : Host.Outcome State Fault Refusal :=
  serve s pair (changeCmd 0x0509 2 4) canRecoverBody

/-- ROUTE_BEGIN (R319, Table 9.10): with COPY it is long. -/
def routeBeginBody (pair : PairId) : Body := fun s p =>
  if 1 < u8 p 0 || !allZero p 1 3 then (s, some (failWith stParam))
  else if s.route.shadowState != .idle then (s, some (failWith stBusy))
  else if u8 p 0 = 1 then
    ({ s with route := { s.route with shadowState := .copying, owner := some pair } }, none)
  else ({ s with route := { s.route with shadowState := .building, owner := some pair } }, some okEmpty)

/-- ROUTE_BEGIN. -/
def execRouteBegin (pair : PairId) (s : State) : Host.Outcome State Fault Refusal :=
  serve s pair (changeCmd 0x0510 2 4) (routeBeginBody pair)

/-- The owner of the rebuild is answered. -/
def answerOwner (s : State) (a : Answer) : State := match s.route.owner with
  | some i => finishLong s i.val a
  | none => s

/-- ROUTE_COPY_DONE (Table 9.10): the active copy is in the shadow; ROUTE_BEGIN is answered OK. -/
def execRouteCopyDone (s : State) : Host.Outcome State Fault Refusal :=
  live s 8 (if s.route.shadowState = .copying then
      let r := s.route
      answerOwner { s with route := { r with shadow := r.active, shadowState := .building, shadowId := r.tableId
                                             shadowCrc := r.tableCrc } } okEmpty
    else s)

/-- The rebuild belongs to another mailbox (R319). -/
def notOwner (s : State) (pair : PairId) : Bool := s.route.owner.isSome && s.route.owner != some pair

/-- Every record of a ROUTE_WRITE has 0 in its reserved bytes. -/
def routeRecordsOk (p : List Byte) : Bool := (List.range (u16 p 0)).all (fun i => allZero p (6 + 36 * i) 2)

/-- ROUTE_WRITE (R319, R322): segmented. -/
def routeWriteBody (pair : PairId) : Body := fun s p =>
  if p.length != 4 + 36 * u16 p 0 then (s, some (failWith stLength))
  else if !allZero p 2 2 || !routeRecordsOk p then (s, some (failWith stParam))
  else if s.route.shadowState != .building then (s, some (failWith stPermit))
  else if notOwner s pair then (s, some (failWith stBusy))
  else
    let put := fun (t : RouteTable) (i : Nat) => routePut t (u16 p (4 + 36 * i)) (slice p (8 + 36 * i) 32)
    ({ s with route := { s.route with shadow := (List.range (u16 p 0)).foldl put s.route.shadow } }, some okEmpty)

/-- ROUTE_WRITE. -/
def execRouteWrite (pair : PairId) (s : State) : Host.Outcome State Fault Refusal :=
  serve s pair ⟨0x0511, 3, onChanges, true, fun n => decide (4 ≤ n)⟩ (routeWriteBody pair)

/-- ROUTE_COMMIT (R318, R319, R323): long. -/
def routeCommitBody (pair : PairId) : Body := fun s p =>
  let at' := u64 p 8
  if !allZero p 4 4 then (s, some (failWith stParam))
  else if s.route.shadowState != .building || (at' != 0 && decide (at' ≤ s.epoch.no.toNat)) then
    (s, some (failWith stPermit))
  else if notOwner s pair then (s, some (failWith stBusy))
  else ({ s with route := { s.route with shadowState := .checking } }, none)

/-- ROUTE_COMMIT. -/
def execRouteCommit (pair : PairId) (s : State) : Host.Outcome State Fault Refusal :=
  serve s pair (changeCmd 0x0512 2 16) (routeCommitBody pair)

/-- The payload of the ROUTE_COMMIT in service. -/
def commitPayload (s : State) : List Byte := match s.route.owner with
  | some i => ((pairAt s i.val).job.map (·.payload)).getD []
  | none => []

/-- ROUTE_CHECK_DONE (R318, Table 9.10): the checks end, with READY or with BAD_INDEX and REASON. -/
def execRouteCheckDone (s : State) : Host.Outcome State Fault Refusal :=
  let p := commitPayload s
  live s 8 (if s.route.shadowState = .checking then
      match routeCheck s.route.shadow with
      | some (i, why) =>
        let s := routeEvent { s with route := { s.route with shadowState := .building } } 3
        answerOwner s ⟨stParam, 0, leBytes 2 i ++ b8 why⟩
      | none =>
        let r := s.route
        let r : Route := { r with shadowState := .ready, shadowId := BitVec.ofNat 32 (u32 p 0)
                                  shadowCrc := routeCrc r.shadow, activateEpoch := BitVec.ofNat 64 (u64 p 8)
                                  readyAt := tb2 s }
        answerOwner (routeEvent { s with route := r } 0) okEmpty
    else s)

/-- ROUTE_ABORT (Table 9.10, R319, R323). The contents of the shadow are undefined until the next ROUTE_BEGIN
(log entry 7). -/
def routeAbortBody (pair : PairId) : Body := fun s _ =>
  if s.route.shadowState = .idle then (s, some (failWith stPermit))
  else if notOwner s pair then (s, some (failWith stBusy))
  else
    let (n, s) := takeFree s
    ({ s with route := { s.route with shadowState := .idle, owner := none, shadow := freeTable n } }, some okEmpty)

/-- ROUTE_ABORT. -/
def execRouteAbort (pair : PairId) (s : State) : Host.Outcome State Fault Refusal :=
  serve s pair (changeCmd 0x0513 2 0) (routeAbortBody pair)

/-- ROUTE_GET_STATUS. -/
def execRouteGetStatus (pair : PairId) (s : State) : Host.Outcome State Fault Refusal :=
  serve s pair (readCmd 0x0514 2 0) (reads (fun s _ =>
    let r := s.route
    okWith (leBytes 4 (routeStatus s) ++ leBytes 4 r.tableId.toNat ++ leBytes 4 r.tableCrc.toNat ++ zeros 4
      ++ leBytes 8 r.swapEpoch.toNat ++ leBytes 8 r.lookups.toNat ++ leBytes 4 r.miss.toNat
      ++ leBytes 4 r.drop.toNat)))

/-- ROUTE_READ records. -/
def routeRecords (t : RouteTable) (start n : Nat) : List Byte :=
  (List.range n).flatMap (fun i => leBytes 2 (start + i) ++ zeros 2 ++ routeAt t (start + i))

/-- ROUTE_READ (R323). -/
def execRouteRead (pair : PairId) (s : State) : Host.Outcome State Fault Refusal :=
  serve s pair (readCmd 0x0515 2 4) (reads (fun s p =>
    let n := u8 p 1
    if 1 < u8 p 0 || n = 0 || 13 < n || 65536 < u16 p 2 + n then failWith stParam
    else if u8 p 0 = 1 && s.route.shadowState = .copying then failWith stPermit
    else okWith (routeRecords (if u8 p 0 = 0 then s.route.active else s.route.shadow) (u16 p 2) n)))

end Sys2Proof.Machine
end

