-- ==== Sys2Proof/Machine/MbTime.lean ====
section
/-! DEFINITION. The time group of mailbox commands (chapter 8, Table 8.14). -/

namespace Sys2Proof.Machine

open Sys2Proof

/-- One entry of TIME_GET_ALL. -/
def timeEntry (b : TimeBase) : List Byte :=
  leBytes 8 b.value.sec.toNat ++ leBytes 4 b.value.ns.toNat ++ b8 (servoCode b.state) ++ b8 (b2n (tbValid b)) ++ zeros 2

/-- TIME_GET_ALL (Table 8.14). -/
def execTimeGetAll (pair : PairId) (s : State) : Host.Outcome State Fault Refusal :=
  serve s pair (readCmd 0x0400 1 0) (reads (fun s _ => okWith (s.time.tb.toList.flatMap timeEntry)))

/-- TIME_GET_SERVO response (Table 8.14). -/
def servoBytes (b : TimeBase) : List Byte :=
  b8 (servoCode b.state) ++ b8 (b2n (tbValid b)) ++ b8 b.kp.toNat ++ b8 b.ki.toNat ++ leBytes 2 b.lockNs.toNat
    ++ leBytes 2 b.holdS.toNat ++ b8 (b.incr / 2 ^ 32) ++ zeros 3 ++ leBytes 4 b.incr
    ++ leBytes 4 (BitVec.ofInt 32 b.adj).toNat ++ leBytes 4 b.lastOfs.toNat ++ leBytes 4 b.stepCnt.toNat

/-- TIME_GET_SERVO. -/
def execTimeGetServo (pair : PairId) (s : State) : Host.Outcome State Fault Refusal :=
  serve s pair (readCmd 0x0401 2 4) (reads (fun s p =>
    if h : u8 p 0 < 4 then if allZero p 1 3 then okWith (servoBytes s.time.tb[u8 p 0]) else failWith stParam
    else failWith stParam))

/-- TIME_SET_SERVO (R291). -/
def setServoBody : Body := fun s p =>
  if h : u8 p 0 < 3 then
    let k : Fin 4 := ⟨u8 p 0, by omega⟩
    if 63 < u8 p 1 || 63 < u8 p 2 || u8 p 3 != 0 || u16 p 4 = 0 || u16 p 6 = 0 then (s, some (failWith stParam))
    else
      (putTb s k { s.time.tb[k] with kp := BitVec.ofNat 6 (u8 p 1), ki := BitVec.ofNat 6 (u8 p 2)
                                     lockNs := BitVec.ofNat 16 (u16 p 4), holdS := BitVec.ofNat 16 (u16 p 6) }
      , some okEmpty)
  else (s, some (failWith stParam))

/-- TIME_SET_SERVO (R291). -/
def execTimeSetServo (pair : PairId) (s : State) : Host.Outcome State Fault Refusal :=
  serve s pair (changeCmd 0x0402 2 8) setServoBody

/-- TIME_SET_INCR (R291). -/
def setIncrBody : Body := fun s p =>
  if h : u8 p 0 < 3 then
    let k : Fin 4 := ⟨u8 p 0, by omega⟩
    let n := u8 p 1 * 2 ^ 32 + u32 p 4
    if !allZero p 2 2 || !incrOk n then (s, some (failWith stParam))
    else (putTb s k { s.time.tb[k] with incr := n, incrNs := BitVec.ofNat 8 (u8 p 1) }, some okEmpty)
  else (s, some (failWith stParam))

/-- TIME_SET_INCR (R291). -/
def execTimeSetIncr (pair : PairId) (s : State) : Host.Outcome State Fault Refusal :=
  serve s pair (changeCmd 0x0403 2 8) setIncrBody

/-- The PTP instance of a time base is enabled on some port (R291). -/
def ptpActive (s : State) (k : Nat) : Bool := s.time.ptp.toList.any (fun x => x.en && b2n x.tb == k)

/-- TIME_SET (R291): the value is written at one tick and counts as a step. -/
def timeSetBody : Body := fun s p =>
  if h : u8 p 0 < 2 then
    let k : Fin 4 := ⟨u8 p 0, by omega⟩
    if !allZero p 1 3 || 1000000000 ≤ u32 p 4 || 2 ^ 48 ≤ u64 p 8 then (s, some (failWith stParam))
    else if ptpActive s k.val then (s, some (failWith stPermit))
    else
      (stepBase s k ((u64 p 8 * 1000000000 + u32 p 4) * 2 ^ 32), some okEmpty)
  else (s, some (failWith stParam))

/-- TIME_SET (R291). -/
def execTimeSet (pair : PairId) (s : State) : Host.Outcome State Fault Refusal :=
  serve s pair (changeCmd 0x0404 2 16) timeSetBody

/-- TIME_CAP_SET (R291). -/
def capSetBody : Body := fun s p =>
  if h : u8 p 0 < 16 then
    if !capSourceOk (u8 p 1) || 3 < u8 p 2 || 3 < u8 p 3 || 1 < u8 p 4 || u8 p 5 = 0 || !allZero p 6 2 then
      (s, some (failWith stParam))
    else
      let c : CapUnit := { s.time.cap[u8 p 0] with source := BitVec.ofNat 8 (u8 p 1), edge := BitVec.ofNat 2 (u8 p 2)
                                                   tb := BitVec.ofNat 2 (u8 p 3), en := u8 p 4 == 1
                                                   limit := BitVec.ofNat 8 (u8 p 5) }
      ({ s with time := { s.time with cap := s.time.cap.set (u8 p 0) c } }, some okEmpty)
  else (s, some (failWith stParam))

/-- TIME_CAP_SET (R291). -/
def execTimeCapSet (pair : PairId) (s : State) : Host.Outcome State Fault Refusal :=
  serve s pair (changeCmd 0x0405 2 8) capSetBody

/-- The pulse output that a TIME_TPO_SET describes. -/
def tpoFrom (t : Tpo) (p : List Byte) : Tpo :=
  let c : BitVec 8 := BitVec.ofNat 8 (u8 p 1)
  { t with periodic := c.getLsbD 1, pol := c.getLsbD 2, tb := c.extractLsb' 3 2, startNs := BitVec.ofNat 30 (u32 p 4)
           startSec := BitVec.ofNat 48 (u64 p 8), period := BitVec.ofNat 32 (u32 p 16)
           width := BitVec.ofNat 32 (u32 p 20) }

/-- TIME_TPO_SET (R285, R291): the other fields are taken only while the output is stopped, and EN is applied last.
The limits of R285 are checked unless the request stops a running output (log entry 29). -/
def tpoSetBody : Body := fun s p =>
  if h : u8 p 0 < 8 then
    let o : Fin 8 := ⟨u8 p 0, h⟩
    let t := s.time.tpo[o]
    let en := u8 p 1 % 2 == 1
    let t' := tpoFrom t p
    if 31 < u8 p 1 || !allZero p 2 2 || 1000000000 ≤ u32 p 4 || 2 ^ 48 ≤ u64 p 8 || (!(t.en && !en) && !tpoOk t') then
      (s, some (failWith stParam))
    else (tpoSetEn s o (if t.en then t else t') en, some okEmpty)
  else (s, some (failWith stParam))

/-- TIME_TPO_SET (R291). -/
def execTimeTpoSet (pair : PairId) (s : State) : Host.Outcome State Fault Refusal :=
  serve s pair (changeCmd 0x0406 2 24) tpoSetBody

/-- Another enabled port of the time base names another domain (R292). -/
def ptpClash (s : State) (port : Nat) (tb : Bool) (domain : Nat) : Bool :=
  (s.time.ptp.toList.zipIdx).any (fun x => x.2 != port && x.1.en && x.1.tb == tb && x.1.domain.toNat != domain)

/-- TIME_PTP_SET (Table 8.15, R292). PORT_STATE of a port that is enabled is INITIALIZING, the value of the named
standard (log entry 33). -/
def ptpSetBody : Body := fun s p =>
  if h : u8 p 0 < 4 then
    let asym := (BitVec.ofNat 32 (u32 p 4)).toInt
    let tb := u8 p 2 == 1
    if 7 < u8 p 1 || 1 < u8 p 2 || 127 < u8 p 3 || 1000000 < asym.natAbs || !allZero p 8 4
        || ptpClash s (u8 p 0) tb (u8 p 3) then (s, some (failWith stParam))
    else
      let en := u8 p 1 % 2 == 1
      let q : PtpPort := { s.time.ptp[u8 p 0] with
        en := en, p2p := bitOf (u8 p 1) 1, udp := bitOf (u8 p 1) 2, tb := tb, domain := BitVec.ofNat 8 (u8 p 3)
        asymPs := BitVec.ofNat 32 (u32 p 4), portState := if en then 1 else 0 }
      ({ s with time := { s.time with ptp := s.time.ptp.set (u8 p 0) q } }, some okEmpty)
  else (s, some (failWith stParam))

/-- TIME_PTP_SET (R292). -/
def execTimePtpSet (pair : PairId) (s : State) : Host.Outcome State Fault Refusal :=
  serve s pair (changeCmd 0x0407 2 12) ptpSetBody

/-- TIME_PTP_GET response (Table 8.16). -/
def ptpBytes (port : Nat) (x : PtpPort) : List Byte :=
  b8 port ++ b8 (if x.en then x.portState.toNat else 0) ++ b8 (if x.en then b2n x.tb else 0xFF) ++ b8 x.domain.toNat
    ++ leBytes 8 x.meanDelay.toNat ++ leBytes 4 x.syncRx.toNat ++ leBytes 4 x.tsMiss.toNat ++ zeros 4

/-- TIME_PTP_GET (Table 8.16). -/
def execTimePtpGet (pair : PairId) (s : State) : Host.Outcome State Fault Refusal :=
  serve s pair (readCmd 0x0408 2 4) (reads (fun s p =>
    if h : u8 p 0 < 4 then if allZero p 1 3 then okWith (ptpBytes (u8 p 0) s.time.ptp[u8 p 0]) else failWith stParam
    else failWith stParam))

end Sys2Proof.Machine
end

