-- ==== Sys2Proof/Machine/Container.lean ====
section
/-! DEFINITION. The configuration container: its layout, its checks in the order of Table 17.5, and what a start loads
from it (chapter 17, R477 to R480, and the map rules of each functional chapter). -/

namespace Sys2Proof.Machine

open Sys2Proof

/-- A section directory entry (Table 17.2). -/
structure Section where
  type : Nat
  flags : Nat
  offset : Nat
  length : Nat
  reserved : Nat
deriving DecidableEq, Repr

/-- SIZE of a container. -/
def ctSize (c : List Byte) : Nat := u32 c 8

/-- The directory at offset 256 (R477). -/
def ctDirectory (c : List Byte) : List Section :=
  (List.range (u16 c 6)).map (fun i =>
    let o := 256 + 16 * i
    ⟨u16 c o, u16 c (o + 2), u32 c (o + 4), u32 c (o + 8), u32 c (o + 12)⟩)

/-- The bytes of a section. -/
def ctBytes (c : List Byte) (x : Section) : List Byte := slice c x.offset x.length

/-- The section of a type, if the container has it. -/
def ctSection (c : List Byte) (type : Nat) : Option (List Byte) :=
  ((ctDirectory c).find? (·.type == type)).map (ctBytes c)

/-- SHA-256 over the protected sections in directory order (Table 17.1). -/
def ctProtDigest (c : List Byte) : List Byte :=
  sha256 (((ctDirectory c).filter (fun x => bitOf x.flags 0)).flatMap (ctBytes c))

/-- The Protected column of Table 17.3. -/
def ctProtected (type : Nat) : Bool := type == 3 || type == 10

/-- A record of a record section (R478). -/
structure CtRecord where
  tag : Nat
  data : List Byte
deriving DecidableEq, Repr

/-- The records of a section, none where one does not lie within it or its padding is not zeros (R478). -/
def ctRecords : Nat → List Byte → Option (List CtRecord)
  | 0, _ => some []
  | k + 1, b =>
    if b.isEmpty then some []
    else
      let n := u16 b 2
      let whole := align8 (4 + n)
      if b.length < whole || !allZero b (4 + n) (whole - 4 - n) then none
      else (ctRecords k (b.drop whole)).map (fun r => ⟨u16 b 0, slice b 4 n⟩ :: r)

/-- The records of a section; none where the section is absent. -/
def ctRecordsOf (c : List Byte) (type : Nat) : List CtRecord := match ctSection c type with
  | some b => (ctRecords b.length b).getD []
  | none => []

/-- The data of a record has the length of its tag (R478, Table 17.4). -/
def recordLengthOk (type : Nat) (r : CtRecord) : Bool :=
  let n := r.data.length
  match type, r.tag with
  | 0x05, 0x0402 => n == 8
  | 0x05, 0x0403 => n == 8
  | 0x05, 0x0405 => n == 8
  | 0x05, 0x0406 => n == 24
  | 0x05, 0x0407 => n == 12
  | 0x06, 0x0501 => n == 4
  | 0x06, 0x0503 => decide (8 ≤ n) && n == 8 + 4 * u16 r.data 2
  | 0x06, 0x05A0 => n == 12
  | 0x06, 0x05A1 => n == 12
  | 0x06, 0x05A2 => n == 32
  | 0x06, 0x05A3 => n == 32
  | 0x06, 0x05A4 => n == 8
  | 0x06, 0x05A5 => n == 12
  | 0x06, 0x05A6 => n == 16
  | 0x06, 0x05A7 => decide (8 ≤ n) && n % 4 == 0
  | 0x06, 0x05A8 => n == 8
  | 0x06, 0x05A9 => n == 8
  | 0x06, 0x05AA => n == 16
  | 0x06, 0x05AB => n == 12
  | 0x07, 0x0511 => n == 40 && u16 r.data 0 == 1
  | 0x0D, 0x0D03 => n == 4
  | _, _ => false

/-- Two half-open ranges do not meet. -/
def apart (a b : Nat × Nat) : Bool := decide (a.1 + a.2 ≤ b.1) || decide (b.1 + b.2 ≤ a.1)

/-- No two ranges of a list meet. -/
def allApart : List (Nat × Nat) → Bool
  | [] => true
  | x :: r => r.all (apart x) && allApart r

/-- No type occurs twice. -/
def noRepeat : List Nat → Bool
  | [] => true
  | x :: r => !r.contains x && noRepeat r

/-- The signal that a descriptor of the image map spells (Table 3.6). -/
def signalOf (b : List Byte) : Option Signal :=
  let t : Option SigType := match u8 b 4 with
    | 0 => some .binary
    | 1 => some .signed
    | 2 => some .unsigned
    | 3 => some .counter
    | 4 => some .network
    | _ => none
  t.map (fun t => ⟨u32 b 0, t, u8 b 5, u16 b 6, BitVec.ofNat 64 (u64 b 8)⟩)

/-- The descriptors of the image map, none where a TYPE is not listed. -/
def signalsOf (b : List Byte) : Option (List Signal) :=
  (List.range (u32 b 4)).mapM (fun i => signalOf (slice b (8 + 16 * i) 16))

/-- The vote group that a descriptor spells (Table 3.9), with its safe values; an all-zero descriptor is unused. -/
def groupOf (table d : List Byte) : Option (GroupId × Group) :=
  if d.all (· == 0) then none
  else
    let a := u8 d 1
    let n := u32 d 8
    some (⟨u8 d 0 % 16, Nat.mod_lt _ (by decide)⟩
      , { enabled := bitOf a 4, lane := ⟨a % 8, Nat.mod_lt _ (by decide)⟩, trailing := bitOf a 3
          safetyRelevant := bitOf a 5, safeLatch := bitOf a 6, holdLimit := BitVec.ofNat 4 (u8 d 2)
          offset := u32 d 4, length := n, safeRef := u32 d 12, safe := slice table (u32 d 12) n })

/-- The sixteen descriptors of section 0x0003, which its safe-value table follows (Table 17.3, log entry 42). -/
def groupDescs (b : List Byte) : List (List Byte) := (List.range 16).map (fun i => slice b (16 * i) 16)

/-- The maps of a container that the epoch and the vote use. -/
def ctMaps (c : List Byte) : Maps :=
  let img := (ctSection c 2).getD []
  let grp := (ctSection c 3).getD []
  let table := grp.drop 256
  let gs := (groupDescs grp).filterMap (groupOf table)
  { configured := true, rawDecl := u32 img 0, signals := (signalsOf img).getD []
    group := Vector.ofFn (fun (g : Fin 16) => (gs.find? (·.1 == g)).map (·.2)), safeTable := table }

/-- The epoch settings of a container: section 0x0001 (Table 17.3). -/
def ctEpoch (c : List Byte) (e : Epoch) : Epoch :=
  let b := (ctSection c 1).getD []
  let code := fun (o : Nat) => BitVec.ofNat 3 (u8 b o)
  { e with period := code 0, k0 := code 1, k1 := code 2, k2 := code 3, k3 := code 4
           warnLead := BitVec.ofNat 16 (u16 b 6) }

/-- The bytes at an offset of the output image lie inside one vote group that satisfies `p`. -/
def insideGroup (m : Maps) (off len : Nat) (p : Group → Bool) : Bool :=
  m.group.toList.any (fun g => match g with
    | some g => p g && decide (g.offset ≤ off) && decide (off + len ≤ g.offset + g.length)
    | none => false)

/-- The image map holds at an index a signal of a type and size. -/
def hasSignal (m : Maps) (t : SigType) (size i : Nat) : Bool := match m.signals[i]? with
  | some g => g.type = t && g.size == size
  | none => false

/-- As `hasSignal`, for `n` consecutive indices. -/
def hasSignals (m : Maps) (t : SigType) (size i n : Nat) : Bool :=
  (List.range n).all (fun k => hasSignal m t size (i + k))

/-- The epoch section is in range: the codes, WARN_LEAD_US (R35) and the multipliers (R49). -/
def epochRules (b : List Byte) (e : Epoch) : Bool :=
  [0, 1, 2, 3, 4].all (fun o => decide (u8 b o < 8)) && u8 b 5 == 0 && warnOk e (u16 b 6)
    && periodOf e.k1 % periodOf e.k0 == 0 && periodOf e.k2 % periodOf e.k1 == 0
    && periodOf e.k3 % periodOf e.k2 == 0

/-- Width in bytes of the safety code of a NETWORK signal (Table 11.1). -/
def codeWidth (alg : Nat) : Nat := match alg with
  | 1 => 4 | 2 => 4 | 3 => 8 | 4 => 2 | 5 => 1 | _ => 0

/-- A signal descriptor is within Table 3.6 and R91. -/
def signalRules (decl : Nat) (g : Signal) : Bool :=
  decide (512 ≤ g.bitOffset) && decide (g.bitOffset + sigBits g ≤ 8 * decl) && match g.type with
  | .binary => decide (g.rule2 ≤ 1) && g.size == 1 && decide (g.subst.toNat < 2)
  | .network =>
    let p := leBytes 8 g.subst.toNat
    let alg := u8 p 2
    g.bitOffset % 8 == 0 && g.rule2 == 0 && decide (16 ≤ g.size) && decide (g.size ≤ 1516) && decide (alg ≤ 5)
      && u8 p 3 == 0 && (alg == 0 || decide (u16 p 0 + codeWidth alg ≤ g.size - 16))
  | _ =>
    g.bitOffset % 8 == 0 && decide (g.rule2 ≤ 2) && [8, 16, 32, 64].contains g.size
      && decide (g.subst.toNat < 2 ^ g.size)

/-- The image map satisfies R44 and R91. -/
def imageRules (m : Maps) (e : Epoch) : Bool :=
  decide (m.rawDecl ≤ imageMax e) && m.signals.all (signalRules m.rawDecl)
    && allApart (m.signals.map (fun g => (g.bitOffset, sigBits g)))

/-- A vote-group descriptor is within Table 3.9, R44 and R98. -/
def groupRules (e : Epoch) (table : Nat) (d : List Byte) : Bool :=
  let a := u8 d 1
  let n := u32 d 8
  d.all (· == 0) ||
    (decide (u8 d 0 < 16) && !bitOf a 7 && decide (u8 d 2 ≤ 15) && u8 d 3 == 0 && u32 d 4 % 8 == 0 && n % 8 == 0
      && decide (8 ≤ n) && decide (u32 d 4 + n ≤ imageMax e) && decide (u32 d 12 + n ≤ table)
      && !(bitOf a 3 && bitOf a 5))

/-- Every lane that runs tasks produces at least one group (R98): a lane for which the image set holds an image. -/
def lanesProduce (s : State) (m : Maps) : Bool :=
  (List.finRange 8).all (fun l => (laneOf s l).image.isNone || m.group.toList.any (fun g => match g with
    | some g => g.lane == l
    | none => false))

/-- The vote-group map satisfies R98. -/
def voteRules (s : State) (m : Maps) (e : Epoch) (b : List Byte) : Bool :=
  let ds := (groupDescs b).filter (fun d => !d.all (· == 0))
  ds.all (groupRules e (b.length - 256)) && noRepeat (ds.map (fun d => u8 d 0))
    && allApart (ds.map (fun d => (u32 d 4, u32 d 8))) && lanesProduce s m

/-- LANE_PERF of a container is permitted (R165). -/
def perfRules (b : List Byte) : Bool :=
  [0, 1, 2, 3].all (fun i => field (u8 b 0) (2 * i + 1) (2 * i) != 3) && allZero b 1 7

/-- A publication descriptor is within Table 9.3 and R300. -/
def pubRules (m : Maps) (b : List Byte) : Bool :=
  decide (u16 b 12 ≤ 1432) && decide (u8 b 14 < 16) && decide (u8 b 15 < 16) && decide (1 ≤ u16 b 16)
    && decide (u16 b 16 ≤ 4094) && decide (u8 b 18 < 8)
    && decide (u8 b 19 < periodOf (BitVec.ofNat 3 (u8 b 18)))
    && (decide (u16 b 20 ≤ 511) || u16 b 20 == 0xFFFF) && allZero b 22 10
    && insideGroup m (u32 b 8) (u16 b 12) (fun _ => true)

/-- A subscription descriptor is within Table 9.4 and fills a NETWORK signal (R304). -/
def subRules (m : Maps) (b : List Byte) : Bool :=
  decide (u8 b 22 < 16) && decide (u8 b 23 < 4) && allZero b 24 8 && match m.signals[u32 b 16]? with
    | some g => g.type = .network
    | none => false

/-- An 802.1CB stream record is within Tables 9.2 and 17.4. -/
def streamRules (b : List Byte) : Bool :=
  let ports := u8 b 2
  decide (u16 b 0 ≤ 511) && decide (ports < 16) && decide ((maskPorts ports).length ≤ 2) && decide (2 ≤ u8 b 3)
    && decide (u8 b 3 ≤ 32) && decide (u8 b 6 ≤ 1) && u8 b 7 == 0
    && (if u8 b 6 = 0 then decide (1 ≤ u16 b 14) && decide (u16 b 14 ≤ 4094) else allZero b 14 2)

/-- The MVB device record is within R312: address, role, basic period, macro period and the addresses that it polls. -/
def mvbRules (b : List Byte) : Bool :=
  decide (u16 b 0 ≤ 4095) && (u8 b 2 == 1 || u8 b 2 == 2) && (u8 b 2 == 1 || u8 b 3 == 1 || u8 b 3 == 2)
    && decide (u16 b 4 ≤ 1024) && allZero b 6 2
    && (List.range ((b.length - 8) / 4)).all (fun i => decide (u16 b (8 + 4 * i) ≤ 4095) && decide (u16 b (10 + 4 * i) ≤ 1024))

/-- An MVB port record is within R312; a sink fills a NETWORK signal. -/
def mvbPortRules (m : Maps) (b : List Byte) : Bool :=
  decide (u16 b 0 ≤ 4095) && [2, 4, 8, 16, 32].contains (u8 b 2) && decide (u8 b 3 < 4)
    && (bitOf (u8 b 3) 0 || (m.signals[u32 b 4]?).any (fun g => g.type = .network))

/-- The index of a CAN port (Table 9.1). -/
def canPortOk (b : List Byte) : Bool := decide (5 ≤ u8 b 0) && decide (u8 b 0 ≤ 8)

/-- A CAN port record is within R313: its bit rates. -/
def canRules (b : List Byte) : Bool :=
  canPortOk b && decide (125 ≤ u16 b 1) && decide (u16 b 1 ≤ 1000) && decide (u16 b 3 ≤ 5000) && decide (u8 b 5 < 4)
    && allZero b 6 2

/-- A CAN filter record is within R313: 128 filters, an area that is a NETWORK signal. -/
def canFilterRules (m : Maps) (b : List Byte) : Bool :=
  canPortOk b && decide (u8 b 1 < 128) && decide (u8 b 2 < 4) && u8 b 3 == 0
    && (bitOf (u8 b 2) 1 || (m.signals[u32 b 12]?).any (fun g => g.type = .network))

/-- A CAN transmit object record is within R313: 64 objects, a length of at most 64. -/
def canObjectRules (b : List Byte) : Bool :=
  canPortOk b && decide (u8 b 1 < 64) && decide (u8 b 2 < 4) && decide (u8 b 3 ≤ 64)

/-- The network records satisfy the rules of chapter 9 (log entry 43). -/
def netRules (m : Maps) (rs : List CtRecord) : Bool :=
  let of := fun (t : Nat) => (rs.filter (·.tag == t)).map (·.data)
  let key := fun (b : List Byte) => 256 * u8 b 0 + u8 b 1
  decide ((of 0x05A6).length ≤ 512) && (of 0x05A6).all streamRules && noRepeat ((of 0x05A6).map (fun b => u16 b 0))
    && (of 0x05A7).all mvbRules && (of 0x05A8).all (mvbPortRules m) && (of 0x05A9).all canRules
    && (of 0x05AA).all (canFilterRules m) && noRepeat ((of 0x05AA).map key) && (of 0x05AB).all canObjectRules
    && noRepeat ((of 0x05AB).map key) &&
  decide ((of 0x05A2).length ≤ 4096) && (of 0x05A2).all (pubRules m) && decide ((of 0x05A3).length ≤ 4096)
    && (of 0x05A3).all (subRules m) && decide ((of 0x05A4).length ≤ 256)
    && (of 0x05A5).all (fun b => match m.group[u8 b 0]? with
        | some (some g) => decide (g.offset ≤ u32 b 4) && decide (u32 b 4 + u32 b 8 ≤ g.offset + g.length)
        | _ => false)

/-- The initial route table of a container (Table 17.3). -/
def ctRoutes (c : List Byte) : RouteTable :=
  (ctRecordsOf c 7).foldl (fun t r => routePut t (u16 r.data 4) (slice r.data 8 32)) []

/-- The scan entries of a rack bus map. -/
def ctScan (b : List Byte) : List ScanEntry :=
  (List.range (u16 b 8)).map (fun i => let o := 32 + 8 * i; ⟨BitVec.ofNat 32 (u32 b o), u8 b (o + 4), u16 b (o + 6)⟩)

/-- Where the inbound ranges of a rack bus map start. -/
def ctRangeBase (b : List Byte) : Nat := 32 + 8 * u16 b 8

/-- The inbound ranges of a rack bus map. -/
def ctRanges (b : List Byte) : List RackRange :=
  (List.range (u8 b 11)).map (fun i => let o := ctRangeBase b + 12 * i; ⟨u32 b o, u32 b (o + 4), u16 b (o + 8)⟩)

/-- The rack bus map that a section spells (Table 10.4). -/
def ctRack (b : List Byte) : RackMap :=
  { eventLimit := u8 b 1, scanLeadUs := u32 b 4, scan := ctScan b, wlGroup := u8 b 10, wlOffset := u32 b 12
    wlLength := u32 b 16, inBase := u32 b 20, irqSignal := u16 b 24, statusSignal := u16 b 26, ranges := ctRanges b }

/-- The write list lies inside its group, or there is none (Table 10.4). -/
def writeListRules (m : Maps) (r : RackMap) : Bool :=
  r.wlLength % 16 == 0 && decide (r.wlLength ≤ 8192) && (r.wlGroup == 0xFF || match m.group[r.wlGroup]? with
    | some (some g) => decide (g.offset ≤ r.wlOffset) && decide (r.wlOffset + r.wlLength ≤ g.offset + g.length)
    | _ => false)

/-- The image map holds a 32-bit signal at an index, of any numeric type. -/
def hasWord (m : Maps) (i : Nat) : Bool :=
  [SigType.signed, SigType.unsigned, SigType.counter].any (fun t => hasSignal m t 32 i)

/-- A scan entry is within Table 10.5. -/
def scanRules (m : Maps) (x : ScanEntry) : Bool :=
  (x.words == 1 || (x.words == 4 && x.address.toNat % 16 == 0))
    && (List.range x.words).all (fun k => hasWord m (x.signal + k)) && hasSignal m .binary 1 (x.signal + x.words)

/-- The rack bus map satisfies R332. -/
def rackRules (m : Maps) (e : Epoch) (b : List Byte) : Bool :=
  let r := ctRack b
  decide (u8 b 0 ≤ 1) && decide (1 ≤ r.eventLimit) && decide (2 ≤ u16 b 2) && decide (u16 b 2 ≤ 1000)
    && decide (10 ≤ r.scanLeadUs) && decide (2 * r.scanLeadUs ≤ epochUs e) && decide (u16 b 8 ≤ 256)
    && decide (u8 b 11 ≤ 16) && writeListRules m r && r.inBase % 0x1000000 == 0 && u32 b 28 == 0
    && hasSignals m .binary 1 r.irqSignal 8 && hasSignals m .binary 1 r.statusSignal 3 && r.scan.all (scanRules m)
    && (List.range r.scan.length).all (fun i => u8 b (32 + 8 * i + 5) == 0)
    && r.ranges.all (fun x => x.length % 4 == 0 && decide (x.offset + x.length ≤ 0x100000)
        && (List.range (x.length / 4)).all (fun k => hasWord m (x.signal + k)))

/-- An output word is aligned and lies inside one vote group that satisfies `p` (R367, R394, R431). -/
def wordRules (m : Maps) (off : Nat) (p : Group → Bool) : Bool := off % 8 == 0 && insideGroup m off 8 p

/-- A field I/O map satisfies R367, R376, R381 and Table 12.9. -/
def fioRules (m : Maps) (e : Epoch) (b : List Byte) : Bool :=
  let f := u16 b 4
  decide (u8 b 0 ≤ 5) && decide (u8 b 1 ≤ 5) && decide (2 ≤ u16 b 2) && decide (u16 b 2 ≤ 1000)
    && decide (21 * periodOf e.period ≤ 10 * u16 b 2) && decide (1 ≤ u8 b 6) && u8 b 7 == 0
    && wordRules m (u32 b 8) (fun _ => true) && wordRules m (u32 b 12) (fun _ => true)
    && hasSignals m .binary 1 f 168 && hasSignals m .unsigned 16 (f + 168) 2
    && (List.range 32).all (fun c =>
        let v := u32 b (16 + 4 * c)
        field v 7 4 == 0 && v / 65536 == 0 && decide (1 ≤ field v 15 8) && decide (field v 15 8 ≤ 250))

/-- The signals of Table 13.10 stand at their indices (R411). -/
def safeSignals (m : Maps) (f : Nat) : Bool :=
  hasSignals m .binary 1 f 40 && hasSignals m .unsigned 32 (f + 40) 4 && hasSignals m .signed 64 (f + 44) 4
    && hasSignals m .unsigned 32 (f + 48) 2 && hasSignals m .binary 1 (f + 50) 2

/-- FUNC_f_CFG0 of a safety map. -/
def ctFunc (b : List Byte) (f : Nat) : Nat := u32 b (96 + 12 * f)

/-- The four functions of a safety map satisfy R405, R406 and Table 13.16. -/
def funcRules (b : List Byte) : Bool :=
  (List.range 4).all (fun f =>
    let v := ctFunc b f
    !bitOf v 7 && (!bitOf v 2 || field v 1 0 != field v 4 3) && (bitOf v 5 || field v 15 8 == 0))
  && (!bitOf (ctFunc b 2) 5 || bitOf (ctFunc b 3) 5)

/-- A value of SAFE_IN_n_CFG is permitted (Table 13.16). -/
def safeInRules (v : Nat) : Bool :=
  field v 3 2 != 3 && field v 5 4 != 3 && field v 15 6 == 0 && v / 2 ^ 30 == 0
    && decide (10 ≤ field v 29 16) && decide (field v 29 16 ≤ 10000)

/-- A safety map satisfies R394, R405, R406, R411 and Tables 13.12 and 13.16. -/
def safeRules (m : Maps) (b : List Byte) : Bool :=
  decide (1 ≤ u8 b 2) && decide (u8 b 3 ≤ 5) && wordRules m (u32 b 4) (·.safetyRelevant) && decide (10 ≤ u16 b 8)
    && decide (u16 b 8 ≤ 1000) && decide (100 ≤ u16 b 10) && decide (u16 b 10 ≤ 10000) && u32 b 12 == 0
    && safeSignals m (u16 b 0) && (List.range 8).all (fun n => safeInRules (u32 b (16 + 4 * n)))
    && (List.range 8).all (fun n => decide (u32 b (48 + 4 * n) < 4))
    && (List.range 4).all (fun n =>
        let v := u32 b (80 + 4 * n)
        v / 2 ^ 30 == 0 && decide (10 ≤ field v 29 16) && decide (field v 29 16 ≤ 10000))
    && funcRules b

/-- The configuration of an analog channel that an entry of the analog map spells (Tables 14.7, 14.9). -/
def ctMuCfg (b : List Byte) : MuCfg :=
  let c := u32 b 0
  let d := u32 b 8
  { range := BitVec.ofNat 3 c, hbCount := BitVec.ofNat 3 (c / 8), proto := BitVec.ofNat 3 (c / 64)
    mMinus1 := BitVec.ofNat 12 (c / 65536), hb := BitVec.ofNat 18 (u32 b 4), ne := BitVec.ofNat 7 d
    attack := BitVec.ofNat 4 (d / 256), release := BitVec.ofNat 4 (d / 4096), evtEn := bitOf d 16
    high := BitVec.ofNat 32 (u32 b 12), low := BitVec.ofNat 32 (u32 b 16), hyst := BitVec.ofNat 23 (u32 b 20) }

/-- A limit code lies within ±(2^23 − 1) (Table 14.9). -/
def muCodeOk (v : U32) : Bool := decide (v.toInt.natAbs ≤ 8388607)

/-- An entry of the analog map satisfies R421, R426, R430 and Table 14.9. -/
def muRules (m : Maps) (e : Epoch) (b : List Byte) : Bool :=
  let x := ctMuCfg b
  let sig := u16 b 24
  let samples := x.mMinus1.toNat + 1
  x.range == 0 ||
    (decide (x.range.toNat ≤ 4) && x.hbCount != 7 && decide (x.proto.toNat ≤ 5) && field (u32 b 0) 15 9 == 0
      && field (u32 b 0) 31 28 == 0 && decide (u32 b 4 < 2 ^ 18) && decide (1 ≤ x.ne.toNat) && decide (x.ne.toNat ≤ 64)
      && !bitOf (u32 b 8) 7 && decide (u32 b 8 < 2 ^ 17) && muCodeOk x.high && muCodeOk x.low
      && decide (u32 b 20 < 2 ^ 23) && allZero b 26 6
      && decide (samples * 2 ^ x.hbCount.toNat ≤ 512 * periodOf e.period)
      && decide (x.low.toInt + x.hyst.toNat ≤ x.high.toInt - x.hyst.toNat)
      && hasSignals m .binary 1 sig 5 && hasSignal m .unsigned 16 (sig + 5) && hasSignals m .signed 32 (sig + 6) 2
      && hasSignals m .unsigned 32 (sig + 8) 2 && hasSignals m .signed 32 (sig + 10) samples)

/-- An analog map satisfies R421, R426, R430, R431 and Table 14.7. -/
def analogRules (m : Maps) (e : Epoch) (b : List Byte) : Bool :=
  decide (1 ≤ u8 b 0) && allZero b 1 3 && (u32 b 4 == 0xFFFFFFFF || wordRules m (u32 b 4) (fun _ => true))
    && (List.range 16).all (fun c => muRules m e (slice b (8 + 32 * c) 32))

/-- A rule holds of a section, or the section is absent. -/
def ifPresent (c : List Byte) (type : Nat) (f : List Byte → Bool) : Bool := match ctSection c type with
  | some b => f b
  | none => true

/-- Check 0x0A: the map rules of the chapters named in Table 17.3. -/
def mapRules (s : State) (c : List Byte) : Bool :=
  let m := ctMaps c
  let e := ctEpoch c Epoch.reset
  ifPresent c 1 (fun b => epochRules b e) && ifPresent c 2 (fun b => (signalsOf b).isSome) && imageRules m e
    && ifPresent c 3 (voteRules s m e) && ifPresent c 4 perfRules && netRules m (ctRecordsOf c 6)
    && (routeCheck (ctRoutes c)).isNone && ifPresent c 8 (rackRules m e) && ifPresent c 9 (fioRules m e)
    && ifPresent c 10 (safeRules m) && ifPresent c 11 (analogRules m e) && ifPresent c 12 (fun b => allZero b 3 5)

/-- Check 0x09: fixed-size sections have their length, and records are well formed (R478). -/
def layoutOk (c : List Byte) : Bool :=
  (ctDirectory c).all (fun x =>
    let b := ctBytes c x
    let n := x.length
    match x.type with
    | 1 => n == 8
    | 2 => decide (8 ≤ n) && n == 8 + 16 * u32 b 4
    | 3 => decide (256 ≤ n)
    | 4 => n == 8
    | 8 => decide (32 ≤ n) && n == ctRangeBase b + 12 * u8 b 11
    | 9 => n == 144
    | 10 => n == 144
    | 11 => n == 520
    | 12 => n == 8
    | _ => match ctRecords n b with
      | some rs => rs.all (recordLengthOk x.type)
      | none => false)

/-- Check 0x04: the directory and the reserved fields (R477). -/
def directoryOk (c : List Byte) : Bool :=
  let d := ctDirectory c
  let first := 256 + 16 * d.length
  decide (3 ≤ d.length) && decide (d.length ≤ 32) && allZero c 80 176 && decide (first ≤ ctSize c)
    && d.all (fun x => x.reserved == 0 && x.flags / 2 == 0 && x.offset % 8 == 0 && decide (first ≤ x.offset)
        && decide (x.offset + x.length ≤ ctSize c))
    && allApart (d.map (fun x => (x.offset, x.length)))

/-- The first check of Table 17.5 that a container fails, 0 for none (R479). -/
def containerCheck (s : State) (c : List Byte) : Nat :=
  let types := (ctDirectory c).map (·.type)
  if u32 c 0 != 0x43434147 || 16773120 < ctSize c || ctSize c < 256 || ctSize c % 8 != 0 then 0x01
  else if !(s.boot.formats.any (fun f => f.toNat == u16 c 4)) then 0x02
  else if sha256 (slice c 256 (ctSize c - 256)) != slice c 48 32 then 0x03
  else if !directoryOk c then 0x04
  else if !(types.all (fun t => decide (1 ≤ t) && decide (t ≤ 13)) && noRepeat types) then 0x05
  else if !((ctDirectory c).all (fun x => bitOf x.flags 0 == ctProtected x.type)) then 0x06
  else if !([1, 2, 3].all types.contains) then 0x07
  else if ctProtDigest c != slice c 16 32 then 0x08
  else if !layoutOk c then 0x09
  else if !mapRules s c then 0x0A
  else 0

/-- A record whose TAG is a command code has the effect of that command (R478); a command that would be refused has
none. -/
def runRecord (body : Body) (s : State) (p : List Byte) : State := (body s p).1

/-- A record of the time section. -/
def timeRecord (s : State) (r : CtRecord) : State := match r.tag with
  | 0x0402 => runRecord setServoBody s r.data
  | 0x0403 => runRecord setIncrBody s r.data
  | 0x0405 => runRecord capSetBody s r.data
  | 0x0406 => runRecord tpoSetBody s r.data
  | _ => runRecord ptpSetBody s r.data

/-- An 802.1CB stream as its record spells it (Table 17.4). -/
def streamRecord (b : List Byte) : Nat × Stream :=
  let ident := if u8 b 6 = 0 then (false, ofBe (slice b 8 6), u16 b 14) else (true, ofBe (slice b 8 4), u16 b 12)
  (u16 b 0, { ports := BitVec.ofNat 4 (u8 b 2), ident := some ident, historyLen := u8 b 3, txSeq := 0, last := none
              seen := [], passed := 0, discarded := 0, resets := 0, timeoutMs := u16 b 4, lastRx := 0 })

/-- A publication as its descriptor spells it (Table 9.3). -/
def pubRecord (b : List Byte) : Publication :=
  { comId := BitVec.ofNat 32 (u32 b 0), destIp := BitVec.ofNat 32 (u32 b 4), srcOffset := u32 b 8, length := u16 b 12
    portMask := BitVec.ofNat 4 (u8 b 14), prio := BitVec.ofNat 3 (u8 b 15), scopeUnit := bitOf (u8 b 15) 3
    vid := u16 b 16, cycle := u8 b 18, phase := u8 b 19, stream := u16 b 20, count := 0, lastSeq := 0 }

/-- A subscription as its descriptor spells it (Table 9.4). -/
def subRecord (b : List Byte) : Subscription :=
  { comId := BitVec.ofNat 32 (u32 b 0), srcIp := BitVec.ofNat 32 (u32 b 4), srcMask := BitVec.ofNat 32 (u32 b 8)
    destIp := BitVec.ofNat 32 (u32 b 12), signal := u32 b 16, timeoutMs := u16 b 20
    portMask := BitVec.ofNat 4 (u8 b 22), topoCheck := bitOf (u8 b 23) 0, zeroOnTimeout := bitOf (u8 b 23) 1
    count := 0, timeouts := 0, lastSeq := 0, staged := [], timedOut := false }

/-- The port addresses that a poll list names in each basic period of its macro period (R312). -/
def mvbPoll (b : List Byte) : List (List Nat) :=
  let basic := u8 b 3
  let entries := (List.range ((b.length - 8) / 4)).map (fun i => (u16 b (8 + 4 * i), u16 b (10 + 4 * i)))
  if basic = 0 then []
  else (List.range (u16 b 4 / basic)).map (fun k =>
    (entries.filter (fun x => x.2 != 0 && k * basic % x.2 == 0)).map (·.1))

/-- An MVB port as its record spells it (Table 17.4). -/
def mvbRecord (b : List Byte) : MvbPort :=
  { address := u16 b 0, size := u8 b 2, source := bitOf (u8 b 3) 0, target := u32 b 4, timeoutMs := 0
    zeroOnTimeout := false, scopeUnit := bitOf (u8 b 3) 1, data := zeros (u8 b 2), staged := [] }

/-- A CAN identifier with its length flag in bit 31 (R315). -/
def canIdent (flags n : Nat) : U32 := BitVec.ofNat 32 (n % 2 ^ 29 + if bitOf flags 0 then 2 ^ 31 else 0)

/-- A CAN receive filter as its record spells it. -/
def canFilterRecord (b : List Byte) : CanFilter :=
  { ident := canIdent (u8 b 2) (u32 b 4), mask := BitVec.ofNat 32 (u32 b 8)
    signal := if bitOf (u8 b 2) 1 then none else some (u32 b 12), timeoutMs := 0, zeroOnTimeout := false, staged := [] }

/-- A CAN transmit object as its record spells it, on a port with or without FD. -/
def canObjectRecord (fd : Bool) (b : List Byte) : CanObject :=
  { ident := canIdent (u8 b 2) (u32 b 4), fd := fd, offset := u32 b 8, length := u8 b 3
    scopeUnit := bitOf (u8 b 2) 1, queued := none }

/-- The records of a CAN port with a tag, in ascending INDEX; `p` counts the CAN ports, whose port indices are 5 to 8 (R293). -/
def canRecords (rs : List CtRecord) (tag p : Nat) : List (List Byte) :=
  (List.range 256).filterMap (fun i =>
    (rs.find? (fun r => r.tag == tag && u8 r.data 0 == 5 + p && u8 r.data 1 == i)).map (·.data))

/-- A CAN port as the records give it: disabled without a record of its own. -/
def canLoad (rs : List CtRecord) (p : Nat) : CanPort :=
  match rs.find? (fun r => r.tag == 0x05A9 && u8 r.data 0 == 5 + p) with
  | none => CanPort.reset
  | some r =>
    { CanPort.reset with
      state := 0, nominalKbps := u16 r.data 1, dataKbps := u16 r.data 3, fd := bitOf (u8 r.data 5) 0
      autoRecover := bitOf (u8 r.data 5) 1, filters := (canRecords rs 0x05AA p).map canFilterRecord
      objects := (canRecords rs 0x05AB p).map (canObjectRecord (bitOf (u8 r.data 5) 0)) }

/-- The MVB port as the records give it. -/
def mvbLoad (rs : List CtRecord) (m : Mvb) : Mvb := match rs.find? (·.tag == 0x05A7) with
  | none => m
  | some r =>
    { m with enabled := true, admin := u8 r.data 2 == 2, deviceAddr := BitVec.ofNat 12 (u16 r.data 0)
             ports := (rs.filter (·.tag == 0x05A8)).map (fun x => mvbRecord x.data), poll := mvbPoll r.data }

/-- A record of the network section that acts on one port or on the management VLAN. -/
def netRecord (s : State) (r : CtRecord) : State := match r.tag with
  | 0x0501 => runRecord (setPortBody 0) s r.data
  | 0x0503 => runRecord gclSetBody s r.data
  | 0x05A0 =>
    if h : u8 r.data 0 < 4 then
      let k : Fin 4 := ⟨u8 r.data 0, h⟩
      putPort s k { s.pkt.port[k] with ip := BitVec.ofNat 32 (u32 r.data 4), unitIp := BitVec.ofNat 32 (u32 r.data 8)
                                       prefixLen := BitVec.ofNat 8 (u8 r.data 1) }
    else s
  | 0x05A1 =>
    let ports := u8 r.data 2
    { s with pkt := { s.pkt with
        mgmtEn := ports != 0, mgmtVid := BitVec.ofNat 12 (u16 r.data 0)
        mgmtIp := BitVec.ofNat 32 (u32 r.data 4), svcIp := BitVec.ofNat 32 (u32 r.data 8)
        mgmtPrefix := BitVec.ofNat 8 (u8 r.data 3)
        port := Vector.ofFn (fun (p : Fin 4) => { s.pkt.port[p] with mgmt := bitOf ports p.val }) } }
  | _ => s

/-- Every Ethernet port disabled. -/
def disablePorts (s : State) : State :=
  (List.finRange 4).foldl (fun s p => portTo s p s.pkt.port[p] false) s

/-- The network settings of a container: with the section absent every port is disabled (Table 17.16). -/
def loadNet (s : State) (c : List Byte) : State := match ctSection c 6 with
  | none => disablePorts s
  | some _ =>
    let rs := ctRecordsOf c 6
    let of := fun (t : Nat) => (rs.filter (·.tag == t)).map (·.data)
    let pkt : Pkt := { s.pkt with
      pubs := (of 0x05A2).map pubRecord, subs := (of 0x05A3).map subRecord
      mdListeners := (of 0x05A4).map (fun b => u32 b 0), streams := (of 0x05A6).map streamRecord
      outbox := (of 0x05A5).head?.map (fun b => ⟨⟨u8 b 0 % 16, Nat.mod_lt _ (by decide)⟩, u32 b 4, u32 b 8⟩)
      mvb := mvbLoad rs s.pkt.mvb, can := Vector.ofFn (fun (p : Fin 4) => canLoad rs p.val) }
    rs.foldl netRecord { s with pkt := pkt }

/-- The rack bus map of a container: EN set, PF_EN clear (log entry 44). -/
def loadRack (s : State) (c : List Byte) : State := match ctSection c 8 with
  | none => s
  | some b =>
    let m := ctRack b
    { s with rack := { s.rack with map := some m, en := true, shared := u8 b 0 == 1
                                   pollUs := BitVec.ofNat 10 (u16 b 2)
                                   scanValues := m.scan.map (fun x => ⟨List.replicate x.words 0, false, none, []⟩) } }

/-- FIO_CH_c_CFG as its value spells it (Table 12.11). -/
def fioCfgOf (v : Nat) : FioCfg :=
  ⟨bitOf v 0, bitOf v 1, bitOf v 2, bitOf v 3, BitVec.ofNat 8 (v / 256)⟩

/-- T_SS of a container without a field I/O map: 20 ms, or the least that covers 2.1 T_E (Table 17.16). -/
def defaultTss (e : Epoch) : Nat := max 20 ((21 * periodOf e.period + 9) / 10)

/-- The field I/O map of a container: every output is SILENT until its first release frame (R375). -/
def loadFio (s : State) (c : List Byte) : State := match ctSection c 9 with
  | none => { s with fio := { s.fio with tssMs := BitVec.ofNat 10 (defaultTss s.epoch) } }
  | some b =>
    let chan := Vector.ofFn (fun (i : Fin 32) =>
      let v := fioCfgOf (u32 b (16 + 4 * i.val))
      { s.fio.chan[i] with cfg := v, state := if v.output then .silent else .off })
    { s with fio := { s.fio with mapped := true, nom := #v[BitVec.ofNat 3 (u8 b 0), BitVec.ofNat 3 (u8 b 1)]
                                 tssMs := BitVec.ofNat 10 (u16 b 2), signal := u16 b 4, eventLimit := u8 b 6
                                 word := #v[u32 b 8, u32 b 12], chan := chan } }

/-- A safe input as SAFE_IN_n_CFG spells it: MODE 3 reads as 0 (Table 13.16). -/
def safeInOf (x : SafeIn) (v : Nat) : SafeIn :=
  { x with mode := if v % 4 = 3 then 0 else BitVec.ofNat 2 v, srcA := BitVec.ofNat 2 (v / 4)
           srcB := BitVec.ofNat 2 (v / 16), limit := BitVec.ofNat 14 (v / 65536) }

/-- A speed function as its map entry spells it (Table 13.16). -/
def funcOf (x : SafeFunc) (v limit hyst : Nat) : SafeFunc :=
  { x with sensor := BitVec.ofNat 2 v, chkEn := bitOf v 2, check := BitVec.ofNat 2 (v / 8), en := bitOf v 5
           fwdForbidden := bitOf v 6, outMask := BitVec.ofNat 8 (v / 256), chkTol := BitVec.ofNat 16 (v / 65536)
           limit := BitVec.ofNat 32 limit, hyst := BitVec.ofNat 32 hyst
           state := if bitOf v 5 then .noPermit else .off }

/-- The safety map of a container. -/
def loadSafe (s : State) (c : List Byte) : State := match ctSection c 10 with
  | none => s
  | some b =>
    let x := s.safe
    let input := Vector.ofFn (fun (i : Fin 8) => safeInOf x.input[i] (u32 b (16 + 4 * i.val)))
    let output := Vector.ofFn (fun (i : Fin 8) =>
      let v := u32 b (48 + 4 * i.val)
      { x.output[i] with en := bitOf v 0, pulseEn := bitOf v 1 })
    let speed := Vector.ofFn (fun (i : Fin 4) =>
      let v := u32 b (80 + 4 * i.val)
      { x.speed[i] with dEdge := BitVec.ofNat 16 v, win := BitVec.ofNat 14 (v / 65536) })
    let func := Vector.ofFn (fun (i : Fin 4) =>
      funcOf x.func[i] (ctFunc b i.val) (u32 b (100 + 12 * i.val)) (u32 b (104 + 12 * i.val)))
    { s with safe := { x with mapped := true, signal := u16 b 0, eventLimit := u8 b 2, nom := BitVec.ofNat 3 (u8 b 3)
                              word := u32 b 4, tpIn := BitVec.ofNat 10 (u16 b 8), tpOut := BitVec.ofNat 14 (u16 b 10)
                              input := input, output := output, speed := speed, func := func } }

/-- The analog map of a container. An enabled channel becomes valid by the reset of R428 cause 1, at the first boundary
at least 1 ms later. -/
def loadMuslin (s : State) (c : List Byte) : State := match ctSection c 11 with
  | none => s
  | some b =>
    let due := tbNanos s.time.tb[2].value + 1000000
    let chan := Vector.ofFn (fun (i : Fin 16) =>
      let x := slice b (8 + 32 * i.val) 32
      let cfg := ctMuCfg x
      { s.muslin.chan[i] with cfg := cfg, signal := u16 x 24, resetDue := if cfg.range == 0 then none else some due })
    { s with muslin := { s.muslin with mapped := true, eventLimit := u8 b 0
                                       syncWord := if u32 b 4 = 0xFFFFFFFF then none else some (u32 b 4)
                                       chan := chan } }

/-- The mailbox and link levels of a container (section 0x000C): a LEVEL_MAX out of range reads as the highest, and a
BIND_IDLE of 0 is ignored. -/
def loadLevels (s : State) (c : List Byte) : State := match ctSection c 12 with
  | none => s
  | some b =>
    let mb := if 1 ≤ u8 b 0 ∧ u8 b 0 ≤ 4 then u8 b 0 else 4
    { s with mbox := { s.mbox with levelMax := BitVec.ofNat 3 mb
                                   bindIdle := if u8 b 1 = 0 then s.mbox.bindIdle else BitVec.ofNat 8 (u8 b 1) }
             weft := { s.weft with levelMax := if u8 b 2 = 2 then 2 else 3 } }

/-- REC_SET_CFG on its payload: FLUSH_MS 10 to 1000 and RATE 16 to 4096 (R507, Table 18.6). -/
def recSetBody : Body := fun s p =>
  if u16 p 0 < 10 || 1000 < u16 p 0 || u16 p 2 < 16 || 4096 < u16 p 2 then (s, some (failWith stParam))
  else ({ s with mor := { s.mor with flushMs := BitVec.ofNat 16 (u16 p 0), rate := BitVec.ofNat 16 (u16 p 2) } }
    , some okEmpty)

/-- The initial route table of a container: FWD_EN is set where the section is present (Table 17.16, log entry 44). -/
def loadRoutes (s : State) (c : List Byte) : State := match ctSection c 7 with
  | none => s
  | some _ =>
    let t := ctRoutes c
    { s with route := { s.route with fwdEn := true, active := t, tableCrc := routeCrc t } }

/-- Everything that a start loads from a container that has passed its checks (R472, R480). -/
def loadContainer (s : State) (c : List Byte) : State :=
  let s := { s with maps := ctMaps c, epoch := ctEpoch c s.epoch, boot := { s.boot with activeFormat := BitVec.ofNat 16 (u16 c 4) } }
  let s := match ctSection c 4 with
    | some b => { s with lanes := { s.lanes with perf := BitVec.ofNat 8 (u8 b 0) } }
    | none => s
  let s := (ctRecordsOf c 5).foldl timeRecord s
  let s := loadMuslin (loadSafe (loadFio (loadRack (loadRoutes (loadNet s c) c) c) c) c) c
  (ctRecordsOf c 13).foldl (fun s r => runRecord recSetBody s r.data) (loadLevels s c)

end Sys2Proof.Machine
end

