-- ==== Sys2Proof/Machine/Float.lean ====
section
/-! DEFINITION. Floating point by exact integer arithmetic (R183 to R187, Tables 5.3 and 5.11). A finite value is
`(-1)^sign * man * 2^exp` with a natural `man`; an operation computes its exact result and rounds it once. -/

namespace Sys2Proof.Machine

/-- What a binary64 register holds (R168). -/
inductive FVal where
  | nan (signalling : Bool)
  | inf (neg : Bool)
  | fin (neg : Bool) (man : Nat) (exp : Int)
deriving DecidableEq, Repr

/-- A format: precision in bits, least and greatest exponent of a normal value. -/
structure FFormat where
  prec : Nat
  emin : Int
  emax : Int
deriving DecidableEq, Repr

/-- binary64. -/
def fmt64 : FFormat := ⟨53, -1022, 1023⟩

/-- binary32. -/
def fmt32 : FFormat := ⟨24, -126, 127⟩

/-- The format that bit S selects (R183). -/
def fmtOf (s : Bool) : FFormat := if s then fmt32 else fmt64

/-- The sign bit of a binary64 encoding. -/
def fSign (x : Word) : Bool := x.getLsbD 63

/-- The value that a binary64 encoding stands for (IEEE 754). -/
def fDecode (x : Word) : FVal :=
  let n := x.toNat
  let frac : Nat := n % 2 ^ 52
  let e : Nat := (n / 2 ^ 52) % 2 ^ 11
  if e = 0x7FF then
    if frac = 0 then .inf (fSign x) else .nan (!(x.getLsbD 51))
  else if e = 0 then .fin (fSign x) frac (-1074)
  else .fin (fSign x) (frac + 2 ^ 52) ((e : Int) - 1075)

/-- The default NaN (R185); the binary32 default NaN widened is the same word. -/
def fDefaultNan : Word := 0x7FF8000000000000

/-- The binary64 encoding of an infinity. -/
def fInf (neg : Bool) : Word := if neg then 0xFFF0000000000000 else 0x7FF0000000000000

/-- Number of bits of `n`: the position of its highest one plus 1; 0 for 0. -/
def bitLen (n : Nat) : Nat := if n = 0 then 0 else Nat.log2 n + 1

/-- The binary64 encoding of a finite value that binary64 represents exactly. -/
def fEncode (neg : Bool) (man : Nat) (exp : Int) : Word :=
  let sgn := if neg then 2 ^ 63 else 0
  if man = 0 then BitVec.ofNat 64 sgn
  else
    let top : Int := exp + bitLen man - 1
    if top < -1022 then
      BitVec.ofNat 64 (sgn + man * 2 ^ (exp + 1074).toNat / 2 ^ (-(exp + 1074)).toNat)
    else
      let sh : Int := 52 - (bitLen man - 1 : Int)
      let m := man * 2 ^ sh.toNat / 2 ^ (-sh).toNat
      BitVec.ofNat 64 (sgn + (top + 1023).toNat * 2 ^ 52 + (m - 2 ^ 52))

/-- Flags of FFLAGS (Table 5.3): NV, DZ, OF, UF, NX from bit 0. -/
def fNV : BitVec 5 := 1
/-- Division by zero. -/
def fDZ : BitVec 5 := 2
/-- Overflow. -/
def fOF : BitVec 5 := 4
/-- Underflow. -/
def fUF : BitVec 5 := 8
/-- Inexact. -/
def fNX : BitVec 5 := 16

/-- Whether the discarded part rounds the magnitude up (Table 5.3): `hi` the kept magnitude, `rem` the discarded
bits out of `2 ^ s`, `sticky` a further non-zero part below them. -/
def roundsUp (rm : Nat) (neg : Bool) (hi rem s : Nat) (sticky : Bool) : Bool :=
  let half := 2 ^ s / 2
  let inexact := rem != 0 || sticky
  match rm with
  | 0 => decide (half < rem) || (rem == half && s != 0 && (sticky || hi % 2 == 1))
  | 1 => decide (half ≤ rem) && s != 0
  | 2 => inexact && !neg
  | 3 => inexact && neg
  | _ => false

/-- `man * 2^exp` rounded to a multiple of `2^q` under `rm`: the multiple and whether it is inexact. -/
def roundAt (rm : Nat) (neg : Bool) (man : Nat) (exp q : Int) (sticky : Bool) : Nat × Bool :=
  if q ≤ exp then (man * 2 ^ (exp - q).toNat, sticky)
  else
    let s := (q - exp).toNat
    let hi := man / 2 ^ s
    let rem := man % 2 ^ s
    (if roundsUp rm neg hi rem s sticky then hi + 1 else hi, rem != 0 || sticky)

/-- An exact non-zero result rounded once to a format under a rounding mode, held as binary64 (R183, R187), with
the flags of IEEE 754-2019: overflow, inexact, and underflow with tininess after rounding (R185). `sticky` says
that a non-zero part lies below `man`, which then has more bits than the format keeps. -/
def fRound (fm : FFormat) (rm : Nat) (neg : Bool) (man : Nat) (exp : Int) (sticky : Bool) : Word × BitVec 5 :=
  let q0 : Int := exp + bitLen man - fm.prec
  let qmin : Int := fm.emin - fm.prec + 1
  let q := max q0 qmin
  let (m, inexact) := roundAt rm neg man exp q sticky
  if fm.emax + 1 < (bitLen m : Int) + q then
    let toInf := match rm with
      | 0 => true
      | 1 => true
      | 2 => !neg
      | 3 => neg
      | _ => false
    (if toInf then fInf neg else fEncode neg (2 ^ fm.prec - 1) (fm.emax - fm.prec + 1), fOF ||| fNX)
  else
    let u := roundAt rm neg man exp q0 sticky
    let tiny := decide ((bitLen u.1 : Int) + q0 - 1 < fm.emin)
    (fEncode neg m q, (if inexact then fNX else 0) ||| (if tiny && inexact then fUF else 0))

/-- A signed exact result `num * 2^exp`; an exact zero takes the sign given. -/
def fRoundInt (fm : FFormat) (rm : Nat) (num : Int) (exp : Int) (zeroNeg : Bool) : Word × BitVec 5 :=
  if num = 0 then (fEncode zeroNeg 0 0, 0)
  else fRound fm rm (decide (num < 0)) num.natAbs exp false

/-- Is the encoding a NaN? -/
def fIsNan (x : Word) : Bool := match fDecode x with | .nan _ => true | _ => false

/-- Is the encoding a signalling NaN? -/
def fIsSnan (x : Word) : Bool := match fDecode x with | .nan s => s | _ => false

/-- The NaN result for operands of which one is a NaN: the first NaN operand made quiet for binary64, the default
NaN for S = 1; NV when any operand is signalling (R185). -/
def fNanOf (s : Bool) (ops : List Word) : Word × BitVec 5 :=
  let first := (ops.filter fIsNan).headD fDefaultNan
  (if s then fDefaultNan else first ||| 0x0008000000000000, if ops.any fIsSnan then fNV else 0)

/-- The signed integer of a finite value at exponent `e`, which is at most its own. -/
def fAt (neg : Bool) (man : Nat) (exp e : Int) : Int :=
  let m : Int := (man * 2 ^ (exp - e).toNat : Nat)
  if neg then -m else m

/-- The exact sum of two finite values, rounded once. An exact zero sum of unlike signs is +0, or -0 under RDN. -/
def fSumFin (s : Bool) (rm : Nat) (n1 : Bool) (m1 : Nat) (e1 : Int) (n2 : Bool) (m2 : Nat) (e2 : Int) :
    Word × BitVec 5 :=
  let e := min e1 e2
  fRoundInt (fmtOf s) rm (fAt n1 m1 e1 e + fAt n2 m2 e2 e) e (if n1 = n2 then n1 else rm == 3)

/-- FADD (Table 5.11). -/
def fAdd (s : Bool) (rm : Nat) (a b : Word) : Word × BitVec 5 :=
  match fDecode a, fDecode b with
  | .nan _, _ => fNanOf s [a, b]
  | _, .nan _ => fNanOf s [a, b]
  | .inf x, .inf y => if x = y then (fInf x, 0) else (fDefaultNan, fNV)
  | .inf x, .fin _ _ _ => (fInf x, 0)
  | .fin _ _ _, .inf y => (fInf y, 0)
  | .fin n1 m1 e1, .fin n2 m2 e2 => fSumFin s rm n1 m1 e1 n2 m2 e2

/-- The encoding with its sign bit inverted. -/
def fNeg (x : Word) : Word := x ^^^ 0x8000000000000000

/-- FSUB: the sum with the second operand's sign inverted, NaNs keeping their own sign (R185). -/
def fSub (s : Bool) (rm : Nat) (a b : Word) : Word × BitVec 5 :=
  if fIsNan a || fIsNan b then fNanOf s [a, b] else fAdd s rm a (fNeg b)

/-- FMUL. -/
def fMul (s : Bool) (rm : Nat) (a b : Word) : Word × BitVec 5 :=
  match fDecode a, fDecode b with
  | .nan _, _ => fNanOf s [a, b]
  | _, .nan _ => fNanOf s [a, b]
  | .inf x, .inf y => (fInf (xor x y), 0)
  | .inf x, .fin y m _ => if m = 0 then (fDefaultNan, fNV) else (fInf (xor x y), 0)
  | .fin x m _, .inf y => if m = 0 then (fDefaultNan, fNV) else (fInf (xor x y), 0)
  | .fin n1 m1 e1, .fin n2 m2 e2 =>
    if m1 * m2 = 0 then (fEncode (xor n1 n2) 0 0, 0)
    else fRound (fmtOf s) rm (xor n1 n2) (m1 * m2) (e1 + e2) false

/-- FDIV: the quotient to at least two bits more than the format keeps, with the remainder as sticky. -/
def fDiv (s : Bool) (rm : Nat) (a b : Word) : Word × BitVec 5 :=
  match fDecode a, fDecode b with
  | .nan _, _ => fNanOf s [a, b]
  | _, .nan _ => fNanOf s [a, b]
  | .inf _, .inf _ => (fDefaultNan, fNV)
  | .inf x, .fin y _ _ => (fInf (xor x y), 0)
  | .fin x _ _, .inf y => (fEncode (xor x y) 0 0, 0)
  | .fin n1 m1 e1, .fin n2 m2 e2 =>
    if m2 = 0 then
      if m1 = 0 then (fDefaultNan, fNV) else (fInf (xor n1 n2), fDZ)
    else if m1 = 0 then (fEncode (xor n1 n2) 0 0, 0)
    else
      let num := m1 * 2 ^ 120
      fRound (fmtOf s) rm (xor n1 n2) (num / m2) (e1 - e2 - 120) (num % m2 != 0)

/-- The integer square root of `n`, by bisection over `k` bits. -/
def isqrtBits : Nat → Nat → Nat → Nat
  | 0, _, r => r
  | k + 1, n, r =>
    let c := r + 2 ^ k
    if c * c ≤ n then isqrtBits k n c else isqrtBits k n r

/-- The integer square root of a number below 2^256. -/
def isqrt (n : Nat) : Nat := isqrtBits 128 n 0

/-- FSQRT. -/
def fSqrt (s : Bool) (rm : Nat) (a : Word) : Word × BitVec 5 :=
  match fDecode a with
  | .nan _ => fNanOf s [a]
  | .inf neg => if neg then (fDefaultNan, fNV) else (fInf false, 0)
  | .fin neg m e =>
    if m = 0 then (fEncode neg 0 0, 0)
    else if neg then (fDefaultNan, fNV)
    else
      let odd := e % 2 != 0
      let n := (if odd then 2 * m else m) * 2 ^ 180
      let e' : Int := ((if odd then e - 1 else e) - 180) / 2
      let r := isqrt n
      fRound (fmtOf s) rm false r e' (r * r != n)

/-- Order of two values that are not NaN: an integer comparison at a common exponent; infinities outermost. -/
def fLt (a b : Word) : Bool :=
  match fDecode a, fDecode b with
  | .inf x, .inf y => x && !y
  | .inf x, .fin _ _ _ => x
  | .fin _ _ _, .inf y => !y
  | .fin n1 m1 e1, .fin n2 m2 e2 =>
    let e := min e1 e2
    decide (fAt n1 m1 e1 e < fAt n2 m2 e2 e)
  | _, _ => false

/-- Equality of two values that are not NaN; the zeros are equal. -/
def fEq (a b : Word) : Bool := !fIsNan a && !fIsNan b && !fLt a b && !fLt b a

/-- A value that is not a NaN rounded to a format. -/
def fToFormat (s : Bool) (rm : Nat) (x : Word) : Word × BitVec 5 :=
  match fDecode x with
  | .fin neg m e => if m = 0 then (x, 0) else fRound (fmtOf s) rm neg m e false
  | _ => (x, 0)

/-- FMIN and FMAX (`wantMax`): -0 is below +0; a NaN operand gives the NaN result (R185). -/
def fMinMax (wantMax s : Bool) (rm : Nat) (a b : Word) : Word × BitVec 5 :=
  if fIsNan a || fIsNan b then fNanOf s [a, b]
  else
    let aBelow := fLt a b || (fEq a b && fSign a && !fSign b)
    fToFormat s rm (if xor aBelow wantMax then a else b)

/-- FMADD and its kin: `round(±(a × b) ± c)`, rounded once (R186). -/
def fMadd (negProd negC s : Bool) (rm : Nat) (a b c : Word) : Word × BitVec 5 :=
  let zeroInf := match fDecode a, fDecode b with
    | .inf _, .fin _ m _ => m == 0
    | .fin _ m _, .inf _ => m == 0
    | _, _ => false
  if fIsNan a || fIsNan b || fIsNan c then
    let r := fNanOf s [a, b, c]
    (r.1, r.2 ||| (if zeroInf && Config.fmaZeroInfNan then fNV else 0))
  else if zeroInf then (fDefaultNan, fNV)
  else
    let c' := if negC then fNeg c else c
    match fDecode a, fDecode b with
    | .fin n1 m1 e1, .fin n2 m2 e2 =>
      match fDecode c' with
      | .fin n3 m3 e3 => fSumFin s rm (xor (xor n1 n2) negProd) (m1 * m2) (e1 + e2) n3 m3 e3
      | _ => (c', 0)
    | _, _ =>
      let pn := xor (xor (fSign a) (fSign b)) negProd
      match fDecode c' with
      | .inf y => if pn = y then (fInf y, 0) else (fDefaultNan, fNV)
      | _ => (fInf pn, 0)

/-- Flags of a comparison: NV for a signalling NaN, or for any NaN when `quietToo`. -/
def fCmpFlags (quietToo : Bool) (a b : Word) : BitVec 5 :=
  if fIsSnan a || fIsSnan b || (quietToo && (fIsNan a || fIsNan b)) then fNV else 0

/-- FKIND (Table 5.11). -/
def fKind (x : Word) : Word :=
  let k := match fDecode x with
    | .nan s => if s then 5 else 4
    | .inf _ => 3
    | .fin _ m _ => if m = 0 then 0 else if m < 2 ^ 52 then 1 else 2
  BitVec.ofNat 64 (k + (if fSign x then 8 else 0))

/-- `cvt(a, lo, hi)` (R184). -/
def fCvt (rm : Nat) (x : Word) (lo hi : Int) : Int × BitVec 5 :=
  match fDecode x with
  | .nan _ => (0, fNV)
  | .inf neg => (if neg then lo else hi, fNV)
  | .fin neg m e =>
    let r := roundAt rm neg m e 0 false
    let v : Int := if neg then -(r.1 : Int) else r.1
    if v < lo then (lo, fNV) else if hi < v then (hi, fNV) else (v, if r.2 then fNX else 0)

/-- FRND32 (R185, R187). -/
def fRnd32 (rm : Nat) (x : Word) : Word × BitVec 5 :=
  if fIsNan x then (fDefaultNan, if fIsSnan x then fNV else 0) else fToFormat true rm x

/-- FIS32: a NaN, or a value that binary32 represents exactly. -/
def fIs32 (x : Word) : Bool := fIsNan x || (fToFormat true 0 x).1 == x

/-- FLW's widening of a binary32 encoding, exact; a NaN keeps its sign, quiet bit and payload (R187). -/
def fWiden (x : U32) : Word :=
  let n := x.toNat
  let frac : Nat := n % 2 ^ 23
  let e : Nat := (n / 2 ^ 23) % 256
  let neg := x.getLsbD 31
  if e = 255 then fInf neg ||| BitVec.ofNat 64 (frac * 2 ^ 29)
  else if e = 0 then fEncode neg frac (-149)
  else fEncode neg (frac + 2 ^ 23) ((e : Int) - 150)

/-- The binary32 encoding of a value that binary32 represents exactly, not a NaN. -/
def fEncode32 (x : Word) : U32 :=
  let sgn := if fSign x then 2 ^ 31 else 0
  match fDecode x with
  | .fin _ m e =>
    if m = 0 then BitVec.ofNat 32 sgn
    else
      let top : Int := e + bitLen m - 1
      if top < -126 then BitVec.ofNat 32 (sgn + m * 2 ^ (e + 149).toNat / 2 ^ (-(e + 149)).toNat)
      else
        let sh : Int := 23 - (bitLen m - 1 : Int)
        let m' := m * 2 ^ sh.toNat / 2 ^ (-sh).toNat
        BitVec.ofNat 32 (sgn + (top + 127).toNat * 2 ^ 23 + (m' - 2 ^ 23))
  | _ => BitVec.ofNat 32 (sgn + 0x7F800000)

/-- FSW's narrowing to binary32 under RM (R187). -/
def fNarrow (rm : Nat) (x : Word) : U32 × BitVec 5 :=
  if fIsNan x then (if fSign x then 0xFFC00000 else 0x7FC00000, if fIsSnan x then fNV else 0)
  else
    let r := fToFormat true rm x
    (fEncode32 r.1, r.2)

end Sys2Proof.Machine
end

