-- ==== Sys2Proof/Machine/Flags.lean ====
section
/-! DEFINITION. The sticky flags FFLAGS and IFLAGS (Table 5.3, R172): hardware only ever sets them. -/

namespace Sys2Proof.Machine

/-- IFLAGS.DZ: integer division by zero. -/
def iDZ : BitVec 3 := 1
/-- IFLAGS.OV: signed division overflow. -/
def iOV : BitVec 3 := 2
/-- IFLAGS.SAT: a saturating operation clamped its result. -/
def iSAT : BitVec 3 := 4

/-- Control registers with integer flags set (R172). -/
def orIflags (c : CtrlRegs) (f : BitVec 3) : CtrlRegs := { c with iflags := c.iflags ||| f }

/-- Control registers with floating-point flags set (R172). -/
def orFflags (c : CtrlRegs) (f : BitVec 5) : CtrlRegs := { c with fflags := c.fflags ||| f }

/-- `sat(v, lo, hi)` of chapter 5: the clamped value, and SAT when it is not `v`. -/
def satClamp (v lo hi : Int) : Int × BitVec 3 :=
  let r := min (max v lo) hi
  (r, if r = v then 0 else iSAT)

/-- `tdiv(a, b)`: the quotient rounded toward zero. -/
def tdiv (a b : Int) : Int := Int.tdiv a b

/-- `rnd(v, s)`: rounding shift, ties toward plus infinity (R190). -/
def rndShift (v : Int) (s : Nat) : Int := if s = 0 then v else (v + 2 ^ (s - 1)) / 2 ^ s

/-- Signed division of `w`-bit values with the defined results of Table 5.9 and its flags. -/
def divSigned (w : Nat) (a b : Int) : Int × BitVec 3 :=
  if b = 0 then (0, iDZ)
  else if a = -(2 ^ (w - 1) : Int) ∧ b = -1 then (a, iOV)
  else (tdiv a b, 0)

/-- Signed remainder of `w`-bit values with the defined results of Table 5.9 and its flags. -/
def remSigned (w : Nat) (a b : Int) : Int × BitVec 3 :=
  if b = 0 then (a, iDZ)
  else if a = -(2 ^ (w - 1) : Int) ∧ b = -1 then (0, iOV)
  else (a - b * tdiv a b, 0)

/-- Unsigned division (Table 5.9). -/
def divUnsigned (a b : Nat) : Nat × BitVec 3 := if b = 0 then (0, iDZ) else (a / b, 0)

/-- Unsigned remainder (Table 5.9). -/
def remUnsigned (a b : Nat) : Nat × BitVec 3 := if b = 0 then (a, iDZ) else (a - b * (a / b), 0)

end Sys2Proof.Machine
end

