-- ==== Sys2Proof/Machine/LaneExec.lean ====
section
/-! DEFINITION. How a core runs one instruction: the gating of the two cores, asynchronous exceptions, fetch, the
exceptions that an instruction raises, its accesses, and its retirement into the Firn stream (chapters 4 and 5). -/

namespace Sys2Proof.Machine

open Sys2Proof

/-- A synchronous exception: CODE, FETCH, WRITE and EVAL (Tables 5.4, 5.14). -/
structure Exc where
  code : Nat
  fetch : Bool
  write : Bool
  eval : Word
deriving DecidableEq, Repr

/-- What a retired instruction leaves: the core with its registers, PC and TCM, the register writes in REG order
with their values, the store, L's Drift entry, and whether it yields. -/
structure Ret where
  k : Core
  regs : List (Nat × Word)
  store : Option (Nat × Nat × Word)
  entry : Option (DriftKind × Word)
  yields : Bool

/-- What the execution of an instruction comes to. -/
inductive Act where
  /-- An exception, with the state that its reads left. -/
  | exc (s : State) (e : Exc)
  /-- It retires. -/
  | done (s : State) (r : Ret)
  /-- It is not performed yet. -/
  | wait (s : State)
  /-- T raises a lane-fault cause (R140). -/
  | fault (s : State) (cause : Nat)

/-- The Drift queue has room for `n` entries more (R131, R138, R139). -/
def driftFits (ln : Lane) (n : Nat) : Bool := decide (ln.drift.length + n ≤ 4096)

/-- The Drift queue has room whatever the next instruction writes: its value entry and a MARK. -/
def driftRoom (ln : Lane) : Bool := driftFits ln 2

/-- L may close a window: at most four closed windows wait (R145). -/
def windowRoom (k : Core) : Bool := decide (k.closed.length < 4)

/-- L may retire its next instruction as far as lead and windows go (R131, R145). -/
def gateL (ln : Lane) : Bool :=
  ln.drain.isNone && decide (lead ln < delayLen ln)
    && (windowRoom ln.l || decide (ln.l.wcount.toNat + 1 < windowLen ln))

/-- An ASYNC entry for T's present retired count is at the front of the queue (R135). -/
def asyncHead (ln : Lane) : Bool := match ln.drift with
  | e :: _ => e.kind.toNat == 5 && e.seq == seqOf ln.t
  | [] => false

/-- T may go on (R131, R135): it retires its next instruction as the lead says, and an asynchronous exception that L has taken
at this point it takes at once, also where L waits at a drain point. -/
def gateT (ln : Lane) : Bool :=
  decide (delayLen ln ≤ lead ln) || (ln.drain.isSome && decide (0 < lead ln)) || asyncHead ln

/-- The lane runs: its domain is on and not frozen, and it is in COMPUTE or LATE (Table 2.7). -/
def laneRuns (s : State) (l : LaneId) : Bool :=
  running s (laneDomain l) && match (laneOf s l).epochState with
    | .compute => true
    | .late => true
    | _ => false

/-- The core may retire its next instruction, room in the Drift queue aside (R131, R191, Table 4.8). -/
def coreReady (s : State) (c : CoreRef) : Bool :=
  let ln := laneOf s c.lane
  laneRuns s c.lane && !(coreOf ln c.core).suspended && match ln.mode with
    | .paired => match c.core with
      | .leading => gateL ln
      | .trailing => gateT ln
    | .rejoining => false
    | _ => true

/-- L may find the Drift queue too full for its next instruction (R131, R139). -/
def stalled (s : State) (c : CoreRef) : Bool :=
  let ln := laneOf s c.lane
  ln.mode = .paired && c.core == .leading && !driftRoom ln

/-- The requester number of a core's outbound reads. -/
def requester (c : CoreRef) : Nat := 2 * c.lane.val + (match c.core with | .leading => 0 | .trailing => 1)

/-- The asynchronous exception due before the next instruction (R196, R198): COMMIT_LATE before BUDGET_EXHAUSTED;
T takes it at the same retired count through the ASYNC entry (R135). None while an outbound read of the core is
on its way, since its load has been started (R202). -/
def asyncDue (s : State) (c : CoreRef) : Option Nat :=
  let ln := laneOf s c.lane
  let k := coreOf ln c.core
  if ln.mode = .paired && c.core == .trailing then
    if asyncHead ln then (ln.drift.head?).map (fun e => e.data.toNat % 64) else none
  else if rackReading s (requester c) || (rackTaken s (requester c)).isSome then none
  else if k.cr.status.getLsbD 4 && !excSet k then some 0x11
  else if k.cr.status.getLsbD 3 && !isSup k && !excSet k then some 0x10
  else none

/-- The control registers after an exception entry (R195). -/
def entryRegs (k : Core) (e : Exc) (async : Bool) : CtrlRegs :=
  let st := k.cr.status
  { k.cr with
      epc := k.pc
      cause := BitVec.ofNat 9 (e.code % 64 + 64 * b2n e.fetch + 128 * b2n e.write + 256 * b2n async)
      eval := e.eval
      status := (((st &&& 0b11000) ||| 0b00101) ||| (if st.getLsbD 0 then 0b00010 else 0)) }

/-- The vector of an exception (Table 5.15). -/
def vectorOf (k : Core) (async : Bool) : Word :=
  k.cr.vbase + (if async then 0xC0 else if isSup k then 0x80 else 0x40)

/-- A core after an exception entry (R195). -/
def enterExc (k : Core) (e : Exc) (async : Bool) : Core :=
  { k with cr := entryRegs k e async, pc := vectorOf k async }

/-- The control-register changes of an exception entry enter the Firn stream of a PAIRED lane with the next instruction that
retires (R141): an entry retires nothing, so no window closes between it and that instruction. -/
def feedEntry (ln : Lane) (old new : Core) : Core :=
  if isSplit ln then new else { new with entry := new.entry ++ (ctrlRecords old.cr new.cr).flatMap regRecord }

/-- The pending bits after an asynchronous exception has been taken (R196): COMMIT_LATE discards a pending
BUDGET_EXHAUSTED, and neither is taken twice in one epoch. -/
def asyncMark (k : Core) (code : Nat) : Core :=
  if code = 0x11 then { k with cr := { k.cr with status := k.cr.status &&& 0b00111 }, cadTaken := true }
  else { k with cr := { k.cr with status := k.cr.status &&& 0b10111 }, bexTaken := true }

/-- T closes its window after the instruction that carries the MARK, and compares COUNT and WSEQ (R143). -/
def markT (s : State) (l : LaneId) (seq : BitVec 10) : State :=
  let ln := laneOf s l
  match ln.drift with
  | [] => s
  | e :: rest =>
    if e.kind.toNat = 6 && e.seq == seq then match markCause e ln.t with
      | some cause => laneFault s l cause none
      | none => putLane s l { ln with drift := rest, t := firnClose ln.t }
    else s

/-- A core as it takes an asynchronous exception of a lane (R195, R196). -/
def asyncCore (ln : Lane) (c : CoreSel) (code : Nat) : Lane :=
  let k := coreOf ln c
  putCore ln c (asyncMark (feedEntry ln k (enterExc k ⟨code, false, false, 0⟩ true)) code)

/-- T takes the asynchronous exception of the ASYNC entry at the front (R135, R140), and closes its window where the MARK of
the instruction before stands behind it. -/
def takeAsyncT (s : State) (l : LaneId) (code : Nat) : State :=
  let ln := laneOf s l
  match ln.drift with
  | [] => s
  | e :: rest =>
    if e.parity != driftParity e.data e.kind e.seq then laneFault s l 5 none
    else markT (putLane s l (asyncCore { ln with drift := rest } .trailing code)) l ((ln.t.retired - 1).extractLsb' 0 10)

/-- A core takes an asynchronous exception (R135, R195, R196). -/
def takeAsync (s : State) (c : CoreRef) (code : Nat) : State :=
  let ln := laneOf s c.lane
  if ln.mode = .paired then match c.core with
    | .leading =>
      putLane s c.lane (asyncCore (driftPut ln .async (BitVec.ofNat 64 code) (seqOf ln.l)) .leading code)
    | .trailing => takeAsyncT s c.lane code
  else putLane s c.lane (asyncCore ln c.core code)

/-- A core with one more retired instruction (R131, R143, R166). -/
def countRetired (k : Core) (checked : Bool) : Core :=
  { k with retired := k.retired + 1, interval := k.interval + 1
           sinceDrain := if checked then k.sinceDrain + 1 else k.sinceDrain
           wcount := if checked then k.wcount + 1 else k.wcount }

/-- The records of a retired instruction (R141): register writes in REG order, then the store. -/
def retRecords (old : Core) (r : Ret) : List Byte :=
  (r.regs ++ ctrlRecords old.cr r.k.cr).flatMap regRecord
    ++ (match r.store with
        | some (a, n, v) => storeRecord a n v
        | none => [])

/-- L retires: its Drift entries and its window (R139, R143, Table 4.1). -/
def retireL (ln : Lane) (old k : Core) (r : Ret) : Lane :=
  let ln := match r.entry with
    | some (d, v) => driftPut ln d v (seqOf old)
    | none => ln
  let ln := { ln with l := k }
  if r.yields then beginDrain ln .yield
  else if k.wcount.toNat = windowLen ln then closeL ln
  else ln

/-- Drift entries that an instruction of L writes: its value, and the MARK of a window that it closes (R139). -/
def entriesOf (ln : Lane) (r : Ret) : Nat :=
  b2n r.entry.isSome + b2n (r.yields || decide (ln.l.wcount.toNat + 1 = windowLen ln))

/-- An instruction retires. A read of LANE_SPEED that it made has reset MIN of its core already (R166), and a memory error that it
met may have had the core's commit rejected (R225, R226). -/
def retire (s : State) (c : CoreRef) (old : Core) (r : Ret) : State :=
  let ln := laneOf s c.lane
  let now := coreOf ln c.core
  let r := { r with k := { r.k with speedMin := now.speedMin, committed := now.committed, rejected := now.rejected } }
  if isSplit ln then putLane s c.lane (putCore ln c.core (countRetired r.k false))
  else
    let k := countRetired { firnFeed r.k (r.k.entry ++ retRecords old r) with entry := [] } true
    match c.core with
    | .leading => putLane s c.lane (retireL ln old k r)
    | .trailing => markT (putLane s c.lane { ln with t := k }) c.lane (seqOf old)

/-- A core as YIELD leaves it (R191, R196): suspended behind the yield, a pending BUDGET_EXHAUSTED discarded. -/
def yieldCore (k : Core) (commit : Bool) : Core :=
  { k with pc := k.pc + 4, suspended := true, yieldCommit := commit
           cr := { k.cr with status := k.cr.status &&& 0b10111 } }

/-- What a yield notes elsewhere: LANE_RETIRED takes L's count since the seal (Table 4.16), and a rack lock of the
lane is broken (R331). -/
def yieldNote (s : State) (c : CoreRef) (k : Core) : State :=
  let ln := laneOf s c.lane
  let n := (k.retired + 1 - ln.retiredAtSeal).toNat
  if c.core == .leading then
    rackBreakLane (putLane s c.lane { ln with retiredLast := BitVec.ofNat 32 (min n 0xFFFFFFFF) }) c.lane
  else if isSplit ln then rackBreakLane s c.lane
  else s

/-- A core acts as if it had executed YIELD (R132, R191). -/
def doYield (s : State) (c : CoreRef) (k : Core) (commit : Bool) : State :=
  retire (yieldNote s c k) c k
    { k := yieldCore k commit, regs := [], store := none, entry := none, yields := true }

/-- A double exception (R197): CAUSE, EPC and EVAL stay, the core acts as if it had executed YIELD without COMMIT,
and the module writes a record, once for both cores of a PAIRED lane (log entry 25). -/
def doubleExc (s : State) (c : CoreRef) (k : Core) (e : Exc) : State :=
  let s := if c.core == .leading || isSplit (laneOf s c.lane) then
      record s 0 0xFF03 c.lane.val (BitVec.ofNat 8 e.code :: zeros 3 ++ leBytes 8 k.cr.epc.toNat)
    else s
  doYield s c k false

/-- A core takes a synchronous exception (R195, R197). -/
def syncExc (s : State) (c : CoreRef) (k : Core) (e : Exc) : State :=
  if excSet k then doubleExc s c k e
  else
    let ln := laneOf s c.lane
    putLane s c.lane (putCore ln c.core (feedEntry ln k (enterExc k e false)))

/-- The state that an execution comes to. -/
def finish (c : CoreRef) (k : Core) (a : Act) : State := match a with
  | .exc s' e => syncExc s' c k e
  | .done s' r => retire s' c k r
  | .wait s' => s'
  | .fault s' cause => laneFault s' c.lane cause none

/-- A stall of L on a full Drift queue is counted and recorded (R139). -/
def driftStall (s : State) (c : CoreRef) : State :=
  let ln := laneOf s c.lane
  let n := satInc ln.driftStalls
  record (putLane s c.lane { ln with driftStalls := n }) 1 (0x24 / 4) c.lane.val
    ((0xFF : Byte) :: zeros 3 ++ leBytes 4 n.toNat)

/-- L of a PAIRED lane has no room in the Drift queue for `n` entries (R131, R139). -/
def driftFull (s : State) (c : CoreRef) (n : Nat) : Bool :=
  let ln := laneOf s c.lane
  ln.mode = .paired && c.core == .leading && !driftFits ln n

/-- A core acts on what the execution of its instruction comes to, if the Drift queue has room for the entries (R131, R139)
and, where a double exception closes a window as a yield does, four windows do not wait already (R145, R197). -/
def complete (s : State) (c : CoreRef) (k : Core) (a : Act) : State := match a with
  | .done _ r => if driftFull s c (entriesOf (laneOf s c.lane) r) then driftStall s c else finish c k a
  | .exc _ _ =>
    if !excSet k || isSplit (laneOf s c.lane) || c.core == .trailing then finish c k a
    else if !windowRoom k then s
    else if driftFull s c 1 then driftStall s c
    else finish c k a
  | _ => finish c k a

/-- The fetch of a core's next instruction as far as memory errors go (R222, R224): the state that it leaves, and whether it has
stopped the lane. -/
def fetchMeets (s : State) (c : CoreRef) (k : Core) : State × Bool :=
  let r := access s c (regionOf k.pc.toNat) 4 true
  (r.1, r.2 = .stopped)

/-- A core runs one instruction: nothing happens while the core may not retire one (R131); an asynchronous
exception that is due is taken in its place (R198); a fetch that is refused raises ACCESS_VIOLATION with FETCH. -/
def runLane (s : State) (c : CoreRef) (body : State → Core → Act) : Host.Outcome State Fault Refusal :=
  let k := coreOf (laneOf s c.lane) c.core
  if !coreReady s c then .next s
  else match asyncDue s c with
    | some code => .next (if driftFull s c 1 then driftStall s c else takeAsync s c code)
    | none =>
      if !fetchOk s c k then .next (complete s c k (.exc s ⟨3, true, false, k.pc⟩))
      else
        let r := fetchMeets s c k
        .next (if r.2 then r.1 else complete r.1 c k (body r.1 k))

/-- An illegal instruction: EVAL is the word (R178, Table 5.14). -/
def illegal (s : State) (word : U32) : Act := .exc s ⟨1, false, false, word.zeroExtend 64⟩

/-- `a` where a condition on the word or the mode holds, an illegal instruction otherwise (R178). -/
def legal (ok : Bool) (s : State) (word : U32) (a : Act) : Act := if ok then a else illegal s word

/-- REG of a general register write: none for g0 (R141). -/
def gRecord (rd : BitVec 5) (v : Word) : List (Nat × Word) := if rd = 0 then [] else [(rd.toNat, v)]

/-- The core with `v` in g[rd] and the PC moved past the instruction. -/
def putG (k : Core) (rd : BitVec 5) (v : Word) : Core := { gset k rd v with pc := k.pc + 4 }

/-- The core with `v` in f[rd] and the PC moved past the instruction. -/
def putF (k : Core) (rd : BitVec 5) (v : Word) : Core := { fset k rd v with pc := k.pc + 4 }

/-- An instruction that writes g[rd] and nothing else. -/
def retG (s : State) (k : Core) (rd : BitVec 5) (v : Word) : Act :=
  .done s { k := putG k rd v, regs := gRecord rd v, store := none, entry := none, yields := false }

/-- An instruction that writes g[rd] and sets integer flags (R172). -/
def retGI (s : State) (k : Core) (rd : BitVec 5) (v : Word) (fl : BitVec 3) : Act :=
  .done s { k := { putG k rd v with cr := orIflags k.cr fl }, regs := gRecord rd v, store := none, entry := none
            yields := false }

/-- An instruction that writes g[rd] and sets floating-point flags (R172). -/
def retGF (s : State) (k : Core) (rd : BitVec 5) (v : Word) (fl : BitVec 5) : Act :=
  .done s { k := { putG k rd v with cr := orFflags k.cr fl }, regs := gRecord rd v, store := none, entry := none
            yields := false }

/-- An instruction that writes f[rd] and sets floating-point flags (R172). -/
def retF (s : State) (k : Core) (rd : BitVec 5) (v : Word) (fl : BitVec 5) : Act :=
  .done s { k := { putF k rd v with cr := orFflags k.cr fl }, regs := [(32 + rd.toNat, v)], store := none
            entry := none, yields := false }

/-- An instruction that only moves the PC. -/
def retPc (s : State) (k : Core) (pc : Word) : Act :=
  .done s { k := { k with pc := pc }, regs := [], store := none, entry := none, yields := false }

/-- The Drift entry kind of a load, by region (Table 4.2). -/
def entryKind (r : Region) : DriftKind := match r with
  | .block 5 _ => .check
  | .block _ _ => .device
  | .rack _ => .device
  | _ => .load

/-- A region whose loads and stores pass the rules of the store gate: the register blocks and the outbound window
(R136). -/
def deviceRegion (r : Region) : Bool := match r with
  | .block _ _ => true
  | .rack _ => true
  | _ => false

/-- The lane checks its two cores against each other. -/
def checkedLane (s : State) (l : LaneId) : Bool := !isSplit (laneOf s l)

/-- The core is the T of a PAIRED lane: it takes its values from the Drift queue (Table 4.2). -/
def follows (s : State) (c : CoreRef) : Bool := checkedLane s c.lane && c.core == .trailing

/-- T takes the value of an access from the Drift queue (R135, R140). -/
def fromDrift (s : State) (c : CoreRef) (kind : DriftKind) (cont : State → Word → Act) : Act :=
  match driftTake (laneOf s c.lane) kind with
  | .ok v ln => cont (putLane s c.lane ln) v
  | .empty => .wait s
  | .fault cause => .fault s cause

/-- The exception that the fixed rules and the protection unit raise for an access (Table 5.16, ranks 6 to 9). -/
def accessExc (s : State) (c : CoreRef) (k : Core) (store : Bool) (a : Word) (size : Nat) : Option Exc :=
  if a.toNat % size ≠ 0 then some ⟨2, false, store, a⟩
  else if !protGrants k a.toNat (if store then .store else .load) then some ⟨3, false, store, a⟩
  else match accessRule s c k store a.toNat size with
    | .deny => some ⟨3, false, store, a⟩
    | .timing => if isSup k then none else some ⟨4, false, store, a⟩
    | .misuse ctx => some ⟨5, false, store, BitVec.ofNat 64 ctx⟩
    | .allow => none

/-- A lane store of `size` bytes at offset `o` of the FIRN block reaches FIRN_INJECT. -/
def hitsInject (o size : Nat) : Bool :=
  decide (o < 0x900) && decide (o % 0x100 < 0x30) && decide (0x2C < o % 0x100 + size)

/-- What raising an exception notes elsewhere, once for both cores of a PAIRED lane: a CHECK_MISUSE is counted
(Table 11.5), and a lane store to FIRN_INJECT of whatever width writes a 0xFF02 record (R155, R533). -/
def noteExc (s : State) (c : CoreRef) (store : Bool) (a : Word) (size : Nat) (v : Word) (e : Exc) : State :=
  if follows s c then s
  else if e.code = 5 then chkMisuse s
  else if store && e.code = 3 then match regionOf a.toNat with
    | .block 1 o =>
      if hitsInject o size then
        recordIgnored s 1 (a.toNat - o % 0x100 + 0x2C) (v.toNat / 2 ^ (8 * (0x2C - o % 0x100)) % 2 ^ 32) c.lane.val 1
      else s
    | _ => s
  else s

/-- L waits at a drain point before this access, once a window can close (R132, R136) and its MARK has room (R139). -/
def drainFirst (s : State) (c : CoreRef) (d : DrainKind) : Act :=
  let ln := laneOf s c.lane
  if ln.l.wcount != 0 && driftFull s c 1 then .wait (driftStall s c)
  else if windowRoom ln.l || ln.l.wcount = 0 then .wait (putLane s c.lane (beginDrain ln d)) else .wait s

/-- The data of a memory access go on to `cont`: as stored, a free value where the spec delivers none, or not at all where the
error has stopped the lane (R224, log entry 98). -/
def deliver (r : State × Delivered) (v : Word) (size : Nat) (cont : State → Word → Act) : Act := match r.2 with
  | .good => cont r.1 v
  | .open =>
    let (n, s) := takeFree r.1
    cont s (BitVec.ofNat 64 ((Config.freeWord n).toNat % 2 ^ (8 * size)))
  | .stopped => .wait r.1

/-- A load of `size` bytes at `a` by L or by a core on its own: its value, zero-extended (R199, R224, Table 4.2). -/
def loadValue (s : State) (c : CoreRef) (k : Core) (a size : Nat) (cont : State → Word → Act) : Act :=
  match regionOf a with
  | .block b o =>
    if checkedLane s c.lane && !(laneOf s c.lane).gate.isEmpty then drainFirst s c .load
    else
      let r := blockLoad s c.lane b o size
      cont r.2 (BitVec.ofNat 64 r.1)
  | .rack ra =>
    if checkedLane s c.lane && !(laneOf s c.lane).gate.isEmpty then drainFirst s c .load
    else match rackLoad s (requester c) c.lane.val (BitVec.ofNat 32 ra) (rackEnables ra size) with
      | (some v, s') => cont s' (BitVec.ofNat 64 (v.toNat / 2 ^ (8 * (ra % 4)) % 2 ^ (8 * size)))
      | (none, s') => .wait s'
  | r =>
    deliver (access s c r size false) (BitVec.ofNat 64 (memLoad s c k r size)) size
      (fun s v => cont (noteStale s c r) v)

/-- A load (R182, R199, Table 4.2). The continuation gets the zero-extended value and the Drift entry. -/
def doLoad (s : State) (c : CoreRef) (k : Core) (a : Word) (size : Nat)
    (cont : State → Word → Option (DriftKind × Word) → Act) : Act :=
  match accessExc s c k false a size with
  | some e => .exc (noteExc s c false a size 0 e) e
  | none =>
    let r := regionOf a.toNat
    match r with
    | .itcm _ =>
      deliver (access s c r size false) (BitVec.ofNat 64 (memLoad s c k r size)) size (fun s v => cont s v none)
    | .dtcm _ =>
      deliver (access s c r size false) (BitVec.ofNat 64 (memLoad s c k r size)) size (fun s v => cont s v none)
    | r =>
      if follows s c then fromDrift s c (entryKind r) (fun s v => cont s v none)
      else loadValue s c k a.toNat size (fun s v => cont s v (some (entryKind r, v)))

/-- A store of L, or of a core on its own, to a register block or the outbound window: held in the store gate of a
PAIRED lane, performed at once otherwise (R136, R158). -/
def storeDevice (s : State) (c : CoreRef) (k : Core) (a size : Nat) (v : Word) (cont : State → Act) : Act :=
  let ln := laneOf s c.lane
  if checkedLane s c.lane then
    if ln.gate.length ≥ 64 then drainFirst s c .gateFull
    else cont (putLane s c.lane { ln with gate := ln.gate ++ [⟨a, size, v, k.wseq⟩] })
  else match performStore s c a size v with
    | some s' => cont s'
    | none => .wait s

/-- A store of L, or of a core on its own, to a memory of the module, or of a core to its own TCM, as far as memory errors go
(R224, R227): the first store to a retained block reads the whole current copy (R57). -/
def storeInto (s : State) (c : CoreRef) (r : Region) (size : Nat) (cont : State → Act) : Act :=
  let s := match r with
    | .retained o =>
      if s.mem.written.contains (o / 0x1000) then s else touch s 0x0D (o / 0x1000 * 0x1000) 0x1000
    | _ => s
  let m := storeMeets s c r size
  if m.2 = .stopped then .wait m.1 else cont m.1

/-- A store (R182, R201, Table 4.2). The continuation gets the state and the core, whose data TCM may change. -/
def doStore (s : State) (c : CoreRef) (k : Core) (a : Word) (size : Nat) (v : Word)
    (cont : State → Core → Act) : Act :=
  match accessExc s c k true a size with
  | some e => .exc (noteExc s c true a size v e) e
  | none =>
    match regionOf a.toNat with
    | .dtcm o => storeInto s c (.dtcm o) size (fun s => cont s { k with dtcm := memPutLe k.dtcm o size v.toNat })
    | .block 5 o => cont (if follows s c then s else checkStore s o size v) k
    | r =>
      if follows s c then cont s k
      else if deviceRegion r then storeDevice s c k a.toNat size v (fun s => cont s k)
      else storeInto s c r size (fun s => cont (memStore s r size v) k)

/-- An atomic's address lies in the core's part of the DRAM partition, outside the code pages (R188). -/
def atomicRule (s : State) (c : CoreRef) (a : Nat) : Bool := match regionOf a with
  | .dram a => inPart s c a && !inCode s c.lane a
  | _ => false

/-- The exception of an atomic. WRITE is set unless its load part is refused already (log entry 26). -/
def atomicExc (s : State) (c : CoreRef) (k : Core) (a : Word) (size : Nat) : Option Exc :=
  if a.toNat % size ≠ 0 then some ⟨2, false, true, a⟩
  else if !protGrants k a.toNat .load || accessRule s c k false a.toNat size == .deny then some ⟨3, false, false, a⟩
  else if !protGrants k a.toNat .atomic || !atomicRule s c a.toNat then some ⟨3, false, true, a⟩
  else none

/-- An atomic (R188, Table 4.2): `op` gives the new value, or none where nothing is stored. The continuation gets
the old value, zero-extended, the value stored, and the Drift entry. -/
def doAtomic (s : State) (c : CoreRef) (k : Core) (a : Word) (size : Nat) (op : Word → Option Word)
    (cont : State → Word → Option Word → Option (DriftKind × Word) → Act) : Act :=
  match atomicExc s c k a size with
  | some e => .exc s e
  | none =>
    if follows s c then fromDrift s c .atomic (fun s old => cont s old (op old) none)
    else
      let was : Word := BitVec.ofNat 64 (memLe s.mem.dram a.toNat size)
      deliver (access s c (.dram a.toNat) size false) was size (fun s old =>
        let s' := match op old with
          | some v => memStore s (.dram a.toNat) size v
          | none => s
        cont s' old (op old) (some (.atomic, old)))

end Sys2Proof.Machine
end

