-- ==== Sys2Proof/Machine/LaneEvents.lean ====
section
/-! DEFINITION. The steps of a lane that are no instruction: exceptions taken, commits, window compares, drain
points, lane faults, injection tests, reload, rejoin, mode requests and the speed monitor (chapters 2 and 4). -/

namespace Sys2Proof.Machine

open Sys2Proof

/-- A core takes the asynchronous exception `code` if it is the one that is due (R196, R198). -/
def takeIfDue (s : State) (c : CoreRef) (code : Nat) : Host.Outcome State Fault Refusal :=
  .next (if coreReady s c && asyncDue s c == some code then
      (if driftFull s c 1 then driftStall s c else takeAsync s c code)
    else s)

/-- BUDGET_EXHAUSTED_TAKEN (R196): a pending BUDGET_EXHAUSTED is taken at an instruction boundary with PRIV = 0 and
EXC = 0. -/
def execBudgetExhaustedTaken (c : CoreRef) (s : State) : Host.Outcome State Fault Refusal := takeIfDue s c 0x10

/-- COMMIT_LATE_TAKEN (R196): a pending COMMIT_LATE is taken at an instruction boundary with EXC = 0. -/
def execCommitLateTaken (c : CoreRef) (s : State) : Host.Outcome State Fault Refusal := takeIfDue s c 0x11

/-- The stores of a lane at a drain point: T has reached it, every window has compared equal, and the gate is
empty (R132, R136, R205). -/
def drained (ln : Lane) : Bool :=
  lead ln == 0 && ln.l.closed.isEmpty && ln.t.closed.isEmpty && ln.l.wcount == 0 && ln.t.wcount == 0
    && ln.gate.isEmpty

/-- The commit of a core, or of a PAIRED lane, is complete (R55). -/
def commitDone (ln : Lane) (c : CoreSel) : Bool :=
  if isSplit ln then (coreOf ln c).suspended && (coreOf ln c).yieldCommit
  else ln.mode = .paired && ln.l.suspended && ln.t.suspended && ln.l.yieldCommit && drained ln

/-- Both commit flags of a lane as one commit leaves them. -/
def markCommit (ln : Lane) (c : CoreSel) (ok : Bool) : Lane :=
  let put := fun (k : Core) => { k with committed := ok, yieldCommit := false }
  if isSplit ln then putCore ln c (put (coreOf ln c)) else { ln with l := put ln.l, t := put ln.t, drain := none }

/-- The margin of an accepted commit and its time after B(n) (R74, Tables 2.21, 2.25). DESIGN CHOICE: LAST_COMMIT_NS and
MARGIN_NS take accepted commits only, and of a SPLIT lane those of either core, each as one of the last 1024 (log
entry 93). -/
def noteMargin (s : State) (ln : Lane) : Lane :=
  { ln with margins := ((deadlineNs s.epoch - tb2 s) :: ln.margins).take 1024
            lastCommit := BitVec.ofNat 32 (tb2 s - boundaryNs s.epoch) }

/-- A memory error in a retained block has the commit rejected (R226). -/
def commitRejected (ln : Lane) (c : CoreSel) : Bool :=
  if isSplit ln then (coreOf ln c).rejected else ln.l.rejected || ln.t.rejected

/-- A commit that is complete now: accepted when its timestamp is before D_c and the lane has read nothing stale
(R55, R61, R63, R159); the lane is COMMITTED once every core that commits has been accepted. A stale read rejects the commit
of this core alone: what the other core of a SPLIT lane has committed stands. -/
def commitNow (s : State) (l : LaneId) (c : CoreSel) : State :=
  let ln := laneOf s l
  if ln.epochState = .compute && ln.readStale then
    let ln := { markCommit ln c false with epochState := .late, staleRejected := true }
    abstainIn (epochEvent (putLane s l ln) (8 + l.val)) (coreGroups s l c)
  else if ln.readStale || commitRejected ln c || !decide (tb2 s < deadlineNs s.epoch) then putLane s l (markCommit ln c false)
  else
    let ln := noteMargin s (markCommit ln c true)
    let all := laneCommitted ln
    putLane s l { ln with epochState := if all && ln.epochState = .compute then .committed else ln.epochState
                          modeTaken := if all then ln.modeReq else ln.modeTaken }

/-- COMMIT (R55): a lane's commit completes. -/
def execCommit (c : CoreRef) (s : State) : Host.Outcome State Fault Refusal :=
  let s' := gateRun s c.lane
  .next (if laneRuns s c.lane && commitDone (laneOf s' c.lane) c.core then commitNow s' c.lane c.core else s)

/-- A window is accepted (R132, R142, R145): FIRN_WSEQ and the signatures show it, and its gated stores are
performed (R136). -/
def acceptWindow (s : State) (l : LaneId) (a b : FirnWindow) : State :=
  let ln := laneOf s l
  let ln := { ln with l := { ln.l with closed := ln.l.closed.tail }, t := { ln.t with closed := ln.t.closed.tail } }
  let ln := if ln.firnFrozen then ln else { ln with firnWseq := a.wseq, firnSigL := a.sig, firnSigT := b.sig }
  gateRun (putLane s l ln) l

/-- The lane-fault causes of two comparator answers (Table 4.5). -/
def railCauses (a b : Rail) : List Nat := match a, b with
  | .eq, .eq => []
  | .ne, .ne => [7]
  | .eq, .ne => [2]
  | .ne, .eq => [2]
  | _, _ => [1]

/-- A comparator's answer: what a healthy one gives, unless it is stated. -/
def answerOf (equal : Bool) : Option Rail → Rail
  | some r => r
  | none => if equal then .eq else .ne

/-- A cause raised in a lane, or in Selvedge, which then fails (R146, R233). -/
def raiseCause (s : State) (p : PairRef) (causes : List Nat) : State := match p with
  | .lane l => laneFaults s l causes none
  | .selvedge => if causes.isEmpty then s else selvedgeFail s

/-- WINDOW_COMPARE (R144, R145): the comparators answer for the oldest closed window of both cores. `parity` says
that a window counter's parity is wrong (R143). -/
def execWindowCompare (p : PairRef) (ansA ansB : Option Rail) (parity : Bool) (s : State) :
    Host.Outcome State Fault Refusal :=
  let par := if parity then [3] else []
  match p with
  | .selvedge =>
    live s 0 (raiseCause s .selvedge (railCauses (answerOf true ansA) (answerOf true ansB) ++ par))
  | .lane l =>
    let ln := laneOf s l
    match ln.l.closed, ln.t.closed with
    | a :: _, b :: _ =>
      let eq := a.sig == b.sig
      let causes := railCauses (answerOf eq ansA) (answerOf eq ansB) ++ par
      live s (laneDomain l) (if causes.isEmpty then acceptWindow s l a b else laneFaults s l causes (some (a, b)))
    | _, _ => live s (laneDomain l) (laneFaults s l par none)

/-- DRAIN_COMPLETE (R131, R132): T has reached the drain point and the windows are equal, so the lead is 0 and L
continues. -/
def execDrainComplete (lane : LaneId) (s : State) : Host.Outcome State Fault Refusal :=
  let s' := gateRun s lane
  let ln := laneOf s' lane
  let ln' := { ln with drain := none, l := { ln.l with sinceDrain := 0 }, t := { ln.t with sinceDrain := 0 } }
  live s (laneDomain lane) (if ln.mode = .paired && ln.drain.isSome && drained ln then putLane s' lane ln' else s')

/-- CMP_RAIL_TIMEOUT (R144): a comparator does not return to the spacer state, or leaves it without a request. -/
def execCmpRailTimeout (p : PairRef) (s : State) : Host.Outcome State Fault Refusal := match p with
  | .lane l => live s (laneDomain l) (raiseCause s p [1])
  | .selvedge => live s 0 (raiseCause s p [1])

/-- TRAIL_STALL (Table 4.6): T retires nothing for 20 µs while the lead is D. -/
def execTrailStall (p : PairRef) (s : State) : Host.Outcome State Fault Refusal := match p with
  | .lane l =>
    let ln := laneOf s l
    live s (laneDomain l) (if ln.mode = .paired && decide (delayLen ln ≤ lead ln) then raiseCause s p [8] else s)
  | .selvedge => live s 0 (raiseCause s p [8])

/-- A miss of an injection test (R154): BIST_FAIL, a record, and the lane is DISABLED. -/
def bistMiss (s : State) (l : LaneId) : State :=
  let s := laneEvent s (16 + l.val)
  let s := recordBit s 0 0x90C (16 + l.val) s.lanes.event.toNat l.val [(laneOf s l).bistDetected.zeroExtend 8]
  disableLane s l

/-- The lane that the self-test routine runs on in window 3 (R153): PAIRED, D = 128 and W = 256 whatever LANE_CFG holds, both
windows alike, and a Drift entry that T takes next. What the routine computes is not given, and no test depends on it. -/
def testLane : Lane :=
  let k : Core := { Core.loaded [] [] with wseq := 3, wcount := 256 }
  driftPut { Lane.reset with delay := 0, window := 0, l := k, t := k } .load 0 0

/-- A window with one bit of its signature register inverted. -/
def flipSig (w : FirnWindow) : FirnWindow := { w with sig := w.sig ^^^ 1 }

/-- The causes that an injection of Table 4.7 raises: it acts on a signature, a Drift entry, a comparator or a counter, and the
lane's own checks answer (R140, R143, R144). -/
def injectCauses (test : Nat) : List Nat :=
  let a := coreWindow testLane.l
  let b := coreWindow testLane.t
  let eq := fun (x y : FirnWindow) => answerOf (x.sig == y.sig) none
  match test with
  | 1 => railCauses (eq (flipSig a) b) (eq (flipSig a) b)
  | 2 => railCauses (eq a (flipSig b)) (eq a (flipSig b))
  | 3 =>
    let bad := { testLane with drift := testLane.drift.map (fun e => { e with parity := !e.parity }) }
    match driftTake bad .load with
    | .fault c => [c]
    | _ => []
  | 4 => railCauses .eq (eq (flipSig a) b)
  | 5 => railCauses (eq (flipSig a) b) .eq
  | 6 =>
    let data : Word := testLane.l.wseq ++ testLane.l.wcount
    (markCause ⟨data, 6, 0, driftParity data 6 0⟩ { testLane.t with wcount := testLane.t.wcount + 1 }).toList
  | _ => []

/-- The cause that a test expects (Table 4.7). -/
def injectExpected (test : Nat) : Nat := match test with
  | 1 => 7 | 2 => 7 | 3 => 5 | 4 => 2 | 5 => 2 | _ => 4

/-- The expected cause of a test, and no other, is raised (R154). -/
def injectionFound (test : Nat) : Bool := injectCauses test == [injectExpected test]

/-- The tests that pass: the lane's checks find the injection, and the silicon under test did so, as the command's finding
says (log entry 90). -/
def selfTest (found : BitVec 6) : BitVec 6 :=
  found &&& BitVec.ofNat 6 (bitsNum (([1, 2, 3, 4, 5, 6] : List Nat).map injectionFound))

/-- The results of the six injection tests of a lane (R154). -/
def bistResult (s : State) (l : LaneId) (detected : BitVec 6) : State :=
  let detected := selfTest detected
  let pass := detected == 0x3F
  let s := putLane s l { laneOf s l with bistDetected := detected, bistDone := true, bistAllPass := pass
                                         bistPass := pass, bistLast := 6, testsDue := false }
  if pass then s else bistMiss s l

/-- INJECTION_TESTS_DONE (R150, R154): the tests that a checker-class fault leads to have finished. -/
def execInjectionTestsDone (lane : LaneId) (detected : BitVec 6) (s : State) : Host.Outcome State Fault Refusal :=
  let ln := laneOf s lane
  live s (laneDomain lane) (if ln.epochState = .faulted && ln.testsDue then bistResult s lane detected else s)

/-- The sections of a lane image for one target (R462). -/
def sectionBytes (im : LaneImage) (target : Nat) (m : Mem) (base : Nat) : Mem :=
  (im.sections.filter (·.target == target)).foldl (fun m x => memWrite m (base + x.dest) x.data) m

/-- A lane's partition zeroed and written from its image (R218). -/
def loadPartition (s : State) (l : LaneId) (im : LaneImage) : Mem :=
  let base := partBase s l
  sectionBytes im 2 (memZero s.mem.dram base (unitSize * (partOf s l).units)) base

/-- The check contexts that a lane's image binds, bound and initialised again (R355, R358). -/
def bindContexts (s : State) (l : LaneId) : State :=
  { s with check := { s.check with ctx := Vector.ofFn (fun (i : Fin 16) =>
      let b := s.lanes.bindings[i]
      if b.toNat / 16 = l.val then
        ctxInit { s.check.ctx[i] with alg := b.extractLsb' 0 3, core := b.getLsbD 3, owner := b.extractLsb' 4 4
                                      cmpHi := 0, valHiStage := 0 }
      else s.check.ctx[i]) } }

/-- A lane's two mailbox pairs after a reload (Table 7.4, R248, R256). A SYS_DELIVER whose delivery is discarded waits for its
limit (R252, R264). -/
def resetLanePairs (s : State) (l : LaneId) : State :=
  { s with mbox := { s.mbox with pair := Vector.ofFn (fun (i : Fin 24) =>
      let p := s.mbox.pair[i]
      if i.val / 2 = l.val && decide (i.val < 16) then
        { MailPair.reset with served := p.served, crcErr := p.crcErr, dbIgnored := p.dbIgnored, busyCnt := p.busyCnt
                              repeats := p.repeats }
      else if p.deliverTo = some l then { p with deliverTo := none }
      else p) } }

/-- The output image with a lane's vote groups zeroed (R137). -/
def zeroGroups (s : State) (l : LaneId) : Mem :=
  (groupsOf s l).foldl (fun m g => match s.maps.group[g] with
    | some d => memZero m d.offset d.length
    | none => m) s.mem.out

/-- A core loaded anew: its commit of this epoch and the speed monitor stay as they are. -/
def reloadedCore (k : Core) (it dt : Mem) : Core :=
  { Core.loaded it dt with speedCur := k.speedCur, speedMin := k.speedMin, committed := k.committed }

/-- Loads a lane from its image (R137, R156, R169, R218): registers 0, TCM and partition from the image, its vote groups in
the output image zeroed, PAIRED or INDEPENDENT mode, DIVERGED. Deliveries not yet latched are dropped (R248). -/
def loadLane (s : State) (l : LaneId) (im : LaneImage) : State :=
  let ln := laneOf s l
  let it := sectionBytes im 0 [] 0
  let dt := sectionBytes im 1 [] 0
  let m := rewritten s.mem (fun u => locLane s u.loc == some l && decide (u.loc.area.toNat < 0x0A))
  let s := { s with mem := { m with dram := loadPartition s l im, out := zeroGroups s l } }
  let s := if ln.mode = .split || ln.mode = .rejoining then laneEvent s (24 + l.val) else s
  let ln := { ln with
    l := reloadedCore ln.l it dt, t := reloadedCore ln.t it dt
    mode := if s.lanes.independentActive then .independent else .paired, modeReq := 0, modeTaken := 0
    epochState := .diverged, drift := [], gate := [], drain := none, rejoinDone := false, sealSeen := false
    faultPending := false, firnFrozen := false, caughtUp := false, admits := 0, admitted := false, resend := false
    readStale := false, staleRejected := false, retiredAtSeal := 0, reloading := false }
  let kept := fun (q : QueuedItem) => !(q.source == 6 && q.sub / 2 == l.val)
  let s := { s with epoch := { s.epoch with items := s.epoch.items.filter kept, closing := s.epoch.closing.filter kept } }
  rackForget (rackBreakLane (resetLanePairs (bindContexts (putLane s l ln) l) l) l) l

/-- A module leaves EXCLUDED once every lane that is not DISABLED has been reloaded (R535, Table 3.15): it becomes
CATCHUP. -/
def leaveExcluded (s : State) : State :=
  if s.weft.own = .excluded && !s.weft.exclFinal && !s.lanes.lane.toList.any (·.reloading) then
    { s with weft := { s.weft with own := .catchup, excludedNow := false } }
  else s

/-- LANE_RELOAD_DONE (R150, R535): Selvedge completes the reload of a FAULTED lane, or of a lane that it reloads
after a self-exclusion. -/
def execLaneReloadDone (lane : LaneId) (s : State) : Host.Outcome State Fault Refusal :=
  let ln := laneOf s lane
  let go := !ln.disabled && !ln.testsDue && (ln.epochState = .faulted || ln.reloading)
  live s (laneDomain lane) (match ln.image with
    | some im => if go then leaveExcluded (loadLane s lane im) else s
    | none => s)

/-- The registers of a core as the epoch entry leaves them (R195): supervisor, EXC clear, at vector 0x00. -/
def entryCore (k : Core) : Core :=
  { k with suspended := false, pc := k.cr.vbase
           cr := { k.cr with epc := k.pc, cause := 0, eval := 0
                             status := (k.cr.status &&& 0b11000) ||| 0b00011 } }

/-- A lane takes the epoch entry at the seal (R191, R195, R358, Table 2.8). -/
def epochEntry (s : State) (l : LaneId) : State :=
  let ln := laneOf s l
  let l' := feedEntry ln ln.l (entryCore ln.l)
  let t' := feedEntry ln ln.t (entryCore ln.t)
  resetLaneCtxs (putLane s l { ln with l := l', t := t', epochState := .compute, retiredAtSeal := ln.l.retired
                                       drain := none, computed := true }) l

/-- T of a lane as the rejoin copies it from L (R160): registers, control registers and TCM; the Firn counters start
again. -/
def rejoined (ln : Lane) : Lane :=
  let clear := fun (k : Core) => { k with wseq := 0, wcount := 0, wstart := k.retired, sig := 0, entry := [], closed := []
                                          sinceDrain := 0 }
  let t := { ln.l with speedCur := ln.t.speedCur, speedMin := ln.t.speedMin, interval := ln.t.interval }
  { ln with l := clear ln.l, t := clear t, mode := .paired, drift := [], gate := [], drain := none
            rejoinDone := true }

/-- REJOIN_COPY_DONE (R160, R161, Table 4.11): the lane becomes PAIRED, and enters COMPUTE if the seal has passed;
an unequal check is a lane fault with cause REJOIN_COPY. -/
def execRejoinCopyDone (lane : LaneId) (equal : Bool) (s : State) : Host.Outcome State Fault Refusal :=
  let ln := laneOf s lane
  live s (laneDomain lane) (
    if ln.mode != .rejoining || ln.epochState != .waitSeal then s
    else if equal then
      let s' := laneEvent (putLane s lane (rejoined ln)) (24 + lane.val)
      if ln.sealSeen then epochEntry s' lane else s'
    else laneFault s lane 9 none)

/-- MODE_REQ_WRITE (R157): the gated store to LANE_CTRL is performed. -/
def execModeReqWrite (lane : LaneId) (data : U32) (s : State) : Host.Outcome State Fault Refusal :=
  live s (laneDomain lane) (modeRequest s lane data)

/-- The performance level of one domain after a write (Table 4.17): a write of 0b11 is ignored, and a new level
starts a ramp. -/
def perfField (b : LaneBlock) (d : Nat) (v : Nat) : LaneBlock :=
  let old := b.perf.toNat / 4 ^ d % 4
  if v = 3 || v = old then b
  else { b with perf := BitVec.ofNat 8 (b.perf.toNat + v * 4 ^ d - old * 4 ^ d), ramping := setBit b.ramping d }

/-- A write of LANE_PERF (R165). -/
def perfWrite (s : State) (data : U32) : State :=
  { s with lanes := [0, 1, 2, 3].foldl (fun b d => perfField b d (data.toNat / 4 ^ d % 4)) s.lanes }

/-- LANE_PERF_WRITE (R165). -/
def execLanePerfWrite (data : U32) (s : State) : Host.Outcome State Fault Refusal := live s 0 (perfWrite s data)

/-- PERF_RAMP_DONE (R165): the domain has reached its level. -/
def execPerfRampDone (domain : Fin 4) (s : State) : Host.Outcome State Fault Refusal :=
  always s (3 + domain.val)
    { s with lanes := { s.lanes with ramping := clearBit s.lanes.ramping domain.val } }

/-- One core at the end of a 10 µs interval (R166). -/
def speedCore (k : Core) (compute : Bool) : Core :=
  let cur : U16 := BitVec.ofNat 16 (min k.interval 0xFFFF)
  { k with interval := 0, speedCur := cur
           speedMin := if compute && cur.ult k.speedMin then cur else k.speedMin }

/-- The lane was in COMPUTE in the interval that ends (R166): now, or at some time since it began. -/
def inCompute (ln : Lane) : Bool := ln.computed || ln.epochState = .compute

/-- SPEED_LOW is due for a lane (R166). DESIGN CHOICE: the count of either core below THRESHOLD sets it, not that of L alone
(log entry 94). -/
def speedLow (s : State) (ln : Lane) : Bool :=
  inCompute ln && (decide (min ln.l.interval 0xFFFF < s.lanes.speedWarn.toNat)
    || decide (min ln.t.interval 0xFFFF < s.lanes.speedWarn.toNat))

/-- SPEED_INTERVAL (R166): a 10 µs interval of TB3 ends for every lane that is powered and not frozen. -/
def execSpeedInterval (s : State) : Host.Outcome State Fault Refusal :=
  let on := fun (l : LaneId) => running s (laneDomain l)
  let s' := mapLanes s (fun l ln =>
    if on l then
      let c := inCompute ln
      { ln with l := speedCore ln.l c, t := speedCore ln.t c, computed := ln.epochState = .compute }
    else ln)
  .next ((List.finRange 8).foldl (fun t l => if on l && speedLow s (laneOf s l) then laneEvent t l.val else t) s')

/-- LANE_SPEED_READ (R166, Table 4.16): the read answers CUR and MIN, and sets MIN to 0xFFFF. -/
def execLaneSpeedRead (lane : LaneId) (s : State) : Host.Outcome State Fault Refusal :=
  let ln := laneOf s lane
  let v := laneSetRead s lane 0x0C
  .next (if running s 0 then
      { putLane s lane { ln with l := { ln.l with speedMin := 0xFFFF } } with readData := v }
    else s)

/-- One injection test by FIRN_INJECT on a STOPPED lane (R154, Table 4.25). -/
def injectTest (s : State) (l : LaneId) (test : Nat) (detected : Bool) : State :=
  let ln := laneOf s l
  let d := putBit ln.bistDetected (test - 1) (detected && injectionFound test)
  let s := putLane s l { ln with bistDetected := d, bistDone := true, bistAllPass := d == 0x3F
                                 bistPass := d == 0x3F, bistLast := BitVec.ofNat 3 test }
  if d.getLsbD (test - 1) then s else bistMiss s l

/-- A write of FIRN_INJECT where it acts (R155): GO with a test of 1 to 6 runs it; `detected` says that the expected
cause, and no other, was raised in time. -/
def injectWrite (s : State) (l : LaneId) (data : U32) (detected : Bool) : State :=
  let test := data.toNat % 8
  if data.getLsbD 3 && 1 ≤ test && test ≤ 6 then injectTest s l test detected else s

/-- FIRN_INJECT (R155): a write by Selvedge; outside STOPPED it is ignored and recorded. -/
def execFirnInject (lane : LaneId) (data : U32) (detected : Bool) (s : State) : Host.Outcome State Fault Refusal :=
  live s 0 (if (laneOf s lane).epochState = .stopped then injectWrite s lane data detected
    else recordIgnored s 1 (0x500001002C + lane.val * 0x100) data.toNat lane.val 1)

end Sys2Proof.Machine
end

