-- ==== Sys2Proof/Machine/ImageSet.lean ====
section
/-! DEFINITION. The image set in the image bank: its layout, the integrity and consistency checks of the loader, and
what a start loads from it (chapter 16, R461 to R464; R216). -/

namespace Sys2Proof.Machine

open Sys2Proof

/-- A component entry (Table 16.6). -/
structure Component where
  kind : Nat
  index : Nat
  offset : Nat
  length : Nat
  digest : List Byte
deriving DecidableEq, Repr

/-- The image set header as it stands in the bank (Table 16.5). -/
def setHeader (s : State) : List Byte := memBytes s.boot.bank 0 1024

/-- The header is readable: MAGIC and FORMAT are those of Table 16.5. -/
def headerOk (h : List Byte) : Bool := u32 h 0 == 0x53494147 && u16 h 4 == 1

/-- The entry at an index of COMPONENTS. -/
def componentAt (h : List Byte) (i : Nat) : Component :=
  let o := 64 + 48 * i
  ⟨u8 h o, u8 h (o + 1), u32 h (o + 4), u32 h (o + 8), slice h (o + 16) 32⟩

/-- The components of the set. -/
def components (h : List Byte) : List Component := (List.range (u16 h 6)).map (componentAt h)

/-- The bytes of a component. -/
def componentBytes (s : State) (c : Component) : List Byte := memBytes s.boot.bank c.offset c.length

/-- The component of a kind and index. -/
def componentOf (s : State) (kind index : Nat) : Option (List Byte) :=
  ((components (setHeader s)).find? (fun c => c.kind == kind && c.index == index)).map (componentBytes s)

/-- A component entry is within Table 16.6 and R461. -/
def componentOk (h : List Byte) (i : Nat) : Bool :=
  let c := componentAt h i
  let o := 64 + 48 * i
  decide (1 ≤ c.kind) && decide (c.kind ≤ 5) && (if c.kind = 2 then decide (c.index < 8) else c.index == 0)
    && allZero h (o + 2) 2 && allZero h (o + 12) 4 && c.offset % 4096 == 0 && decide (c.offset + c.length ≤ u64 h 8)

/-- Exactly one component of a kind. -/
def exactlyOne (cs : List Component) (kind : Nat) : Bool := (cs.filter (·.kind == kind)).length == 1

/-- Check 1 of R463: MAGIC, FORMAT, COUNT, SET_SIZE and the component entries meet R461 and R462. -/
def setLayout (h : List Byte) : Bool :=
  let n := u16 h 6
  let cs := components h
  headerOk h && decide (5 ≤ n) && decide (n ≤ 12) && decide (1024 ≤ u64 h 8) && decide (u64 h 8 ≤ 536870912)
    && decide (u8 h 24 < 4) && decide (1 ≤ u8 h 25) && decide (u8 h 25 ≤ 8) && allZero h 26 2
    && allZero h (28 + 2 * u8 h 25) (16 - 2 * u8 h 25) && allZero h 44 20 && allZero h (64 + 48 * n) (576 - 48 * n)
    && allZero h 768 256 && (List.range n).all (componentOk h) && [1, 3, 4, 5].all (exactlyOne cs)
    && (List.range 8).all (fun l => decide ((cs.filter (fun c => c.kind == 2 && c.index == l)).length ≤ 1))

/-- The MAINTAINER key of a slot; none where the slot is empty or the store's CRC fails (R482). -/
def maintKey (s : State) (slot : Nat) : Option (List Byte) :=
  if !s.sec.storeOk then none else (s.sec.maint[slot]?).bind (fun k => if k.all (· == 0) then none else some k)

/-- The SAFETY_AUTHORITY key of a slot. -/
def saKey (s : State) (slot : Nat) : Option (List Byte) :=
  if !s.sec.storeOk then none else (s.sec.sa[slot]?).bind (fun k => if k.all (· == 0) then none else some k)

/-- A signature verifies with a key, which must be there. -/
def signedBy (key : Option (List Byte)) (m sig : List Byte) : Bool := match key with
  | some k => edVerify k m sig
  | none => false

/-- The integrity checks of the loader, in order (R463). -/
def setIntegrity (s : State) : Bool :=
  let h := setHeader s
  let cs := components h
  setLayout h && cs.all (fun c => sha256 (componentBytes s c) == c.digest)
    && edVerify s.otp.vendorKey (((cs.find? (·.kind == 1)).map (·.digest)).getD []) (slice h 640 64)
    && signedBy (maintKey s (u8 h 24)) (sha256 (slice h 0 704)) (slice h 704 64)

/-- The sections of a lane image, none where one runs beyond it (R462). -/
def imageSections : Nat → List Byte → Option (List ImageSection)
  | 0, _ => some []
  | k + 1, b =>
    let n := u32 b 4
    let whole := 16 + align8 n
    if b.length < whole then none
    else (imageSections k (b.drop whole)).map (fun r => ⟨u8 b 0, u64 b 8, slice b 16 n⟩ :: r)

/-- The retained blocks that a bitmap of 256 bits declares. -/
def ownedBlocks (b : List Byte) : List Nat :=
  (List.range 256).filter (fun i => (b.getD (i / 8) 0).getLsbD (i % 8))

/-- A lane image as its component spells it (R462). -/
def laneImageOf (b : List Byte) : Option LaneImage :=
  (imageSections (u16 b 6) (b.drop 16)).map (fun xs =>
    let own := ((xs.find? (·.target == 3)).map (·.data)).getD []
    { sections := xs.filter (·.target != 3), ownL := ownedBlocks (slice own 0 32), ownT := ownedBlocks (slice own 32 32) })

/-- The lane image of a lane in the set. -/
def setImage (s : State) (l : Nat) : Option LaneImage := (componentOf s 2 l).bind laneImageOf

/-- The partition map of the set (Table 6.4). -/
def setParts (s : State) : Vector PartEntry 8 :=
  let b := (componentOf s 3 0).getD []
  Vector.ofFn (fun (l : Fin 8) => ⟨u16 b (8 * l.val), u16 b (8 * l.val + 2), u32 b (8 * l.val + 4)⟩)

/-- A LANE_CFG value of the set. -/
def setLaneCfg (s : State) (l : Nat) : Nat := u32 ((componentOf s 4 0).getD []) (4 * l)

/-- A CHK_c_CFG value of the set. -/
def setBinding (s : State) (c : Nat) : Nat := u32 ((componentOf s 5 0).getD []) (4 * c)

/-- A section lies inside its target (R464). -/
def sectionOk (p : PartEntry) (x : ImageSection) : Bool := match x.target with
  | 0 => decide (x.dest + x.data.length ≤ 262144)
  | 1 => decide (x.dest + x.data.length ≤ 262144)
  | 2 => decide (x.dest + x.data.length ≤ unitSize * p.units)
  | 3 => x.data.length == 64
  | _ => false

/-- A lane image of the set is consistent (R464). -/
def imageOk (s : State) (l : Nat) : Bool := match componentOf s 2 l with
  | none => true
  | some b =>
    let p := (setParts s)[l % 8]
    u32 b 0 == u32 (setHeader s) 16 && u8 b 4 == l && p.units != 0
      && (match imageSections (u16 b 6) (b.drop 16) with
        | some xs => xs.all (sectionOk p)
        | none => false)

/-- A partition map entry satisfies R216 for its lane. -/
def partOk (s : State) (l : Nat) : Bool :=
  let p := (setParts s)[l % 8]
  if p.units = 0 then p.splitUnits == 0 && p.codePages == 0
  else decide (p.splitUnits < p.units) && (p.splitUnits != 0 || !(bitOf (setLaneCfg s l) 4 || s.sec.independent))
    && decide (p.codePages * 4096 ≤ (p.units - p.splitUnits) * unitSize)

/-- No number occurs twice. -/
def distinctNats : List Nat → Bool
  | [] => true
  | x :: r => !r.contains x && distinctNats r

/-- The set is consistent (R464, R216); a component of a fixed size has that size. -/
def setConsistent (s : State) : Bool :=
  let lanes := List.range 8
  let len := fun (k : Nat) => ((componentOf s k 0).map (·.length)).getD 0
  len 3 == 64 && len 4 == 32 && len 5 == 64 && lanes.all (imageOk s) && lanes.all (partOk s)
    && decide (((setParts s).toList.map (·.units)).sum ≤ 228)
    && lanes.all (fun l => field (setLaneCfg s l) 31 5 == 0)
    && (List.range 16).all (fun c =>
        let v := setBinding s c
        v / 256 == 0 && !(decide (9 ≤ v / 16) && decide (v / 16 ≤ 14)))
    && distinctNats (lanes.flatMap (fun l => match setImage s l with
        | some im => im.ownL ++ im.ownT
        | none => []))

/-- What the running firmware takes from the header of its set: the versions, the generation and the formats. -/
def loadHeader (s : State) : State :=
  let h := setHeader s
  { s with
    lanes := { s.lanes with imageGen := BitVec.ofNat 32 (u32 h 16) }
    boot := { s.boot with fwRunning := BitVec.ofNat 32 (u32 h 20), imageGen := BitVec.ofNat 32 (u32 h 16)
                          keySlot := BitVec.ofNat 2 (u8 h 24)
                          formats := (List.range (u8 h 25)).map (fun i => BitVec.ofNat 16 (u16 h (28 + 2 * i))) } }

/-- What a start takes from a consistent set: the lane images and settings, the partition map and the check bindings. -/
def loadSet (s : State) : State :=
  let lane := Vector.ofFn (fun (l : Fin 8) =>
    let c := setLaneCfg s l.val
    { laneOf s l with delay := BitVec.ofNat 2 c, window := BitVec.ofNat 2 (c / 4), splitAllowed := bitOf c 4
                      image := setImage s l.val })
  { s with
    lanes := { s.lanes with lane := lane, parts := setParts s
                            bindings := Vector.ofFn (fun (c : Fin 16) => BitVec.ofNat 8 (setBinding s c.val)) } }

end Sys2Proof.Machine
end

