-- ==== Sys2Proof/Machine/StartOps.lean ====
section
/-! DEFINITION. The slot directory, the start sequence and the resets (chapter 16, R451 to R473; R234, R235, R288). -/

namespace Sys2Proof.Machine

open Sys2Proof

/-- A new directory record goes into the other copy, with SEQ incremented (R470). -/
def dirWrite (s : State) (r : DirRecord) : State :=
  let other : Fin 2 := match dirIndex s with
    | some 0 => 1
    | _ => 0
  { s with boot := { s.boot with dir := s.boot.dir.set other { r with seq := (dirNow s).seq + 1, crcOk := true } } }

/-- BANK_STATE changes (R465, Table 16.7). -/
def dirBank (s : State) (b : BankState) : State := dirWrite s { dirNow s with bank := b }

/-- The container that a slot holds: its header gives its size. -/
def slotContainer (s : State) (i : Fin 2) : List Byte :=
  let m := s.boot.slot[i]
  memBytes m 0 (memLe m 8 4)

/-- The slot that is CURRENT, none before the first commit. -/
def currentSlot (s : State) : Option (Fin 2) := match (dirNow s).current.toNat with
  | 0 => some 0
  | 1 => some 1
  | _ => none

/-- The other slot. -/
def otherSlot (i : Fin 2) : Fin 2 := if i = 0 then 1 else 0

/-- The management values that a commit copies from a container (R469, tag 0x05A1). -/
def dirManagement (r : DirRecord) (c : List Byte) : DirRecord :=
  match (ctRecordsOf c 6).find? (·.tag == 0x05A1) with
  | none => r
  | some x =>
    { r with mgmtVid := BitVec.ofNat 16 (u16 x.data 0), mgmtPorts := BitVec.ofNat 4 (u8 x.data 2)
             prefixLen := BitVec.ofNat 8 (u8 x.data 3), mgmtIp := BitVec.ofNat 32 (u32 x.data 4)
             svcIp := BitVec.ofNat 32 (u32 x.data 8) }

/-- A commit makes a slot CURRENT in one directory record (R471, R487 step 3). `fw` is the FW_VERSION that commits. -/
def dirCommit (s : State) (i : Fin 2) (fw : U32) : State :=
  let c := slotContainer s i
  let r := dirNow s
  dirWrite s (dirManagement { r with current := BitVec.ofNat 8 i.val, format := r.format.set i (BitVec.ofNat 16 (u16 c 4))
                                     commitFw := r.commitFw.set i fw } c)

/-- FW_VERSION of the set in the bank. -/
def bankFw (s : State) : U32 := BitVec.ofNat 32 (u32 (setHeader s) 20)

/-- Steps 3 and 4 of R487, which the loader completes when PENDING is not 0. -/
def completePending (s : State) (fw : U32) : State :=
  let s' := match s.sec.pendingSlot.toNat with
    | 1 => dirCommit s 0 fw
    | 2 => dirCommit s 1 fw
    | _ => s
  { s' with sec := { s'.sec with pendingSlot := 0 } }

/-- A reset log entry for a reset of a cause (R456, Table 7.25). -/
def resetEntry (s : State) (cause : BitVec 8) : ResetEntry :=
  let b := s.time.tb[0]
  if cause == 1 then ⟨0, cause, 0⟩ else ⟨if tbValid b then b.value.sec.toNat else 0, cause, voteCode s.weft.own⟩

/-- A time base through a reset that keeps PD0 (R17, R272): its value alone runs on. One that a freeze held steps at its
next measurement (R497). -/
def keptBase (s : State) (k : Fin 4) : TimeBase :=
  let b := s.time.tb[k]
  { TimeBase.reset k.val with value := b.value, stepNext := b.stepNext || (s.time.tbHeld && k.val != 3) }

/-- The time block at a reset (R272, R456). -/
def keptTime (s : State) (cause : BitVec 8) : TimeBlock :=
  if cause == 1 then TimeBlock.reset
  else
    { TimeBlock.reset with tb := Vector.ofFn (keptBase s), refMissing := s.time.refMissing && cause != 6
                           refFreq := s.time.refFreq }

/-- A safe output at a reset at TB3 = `now`: it is in SAFE_OFF from then on (R398); a locked one keeps its latch while PD0
stays powered (R401). -/
def keptOutput (cause : BitVec 8) (now : Nat) (o : SafeOut) : SafeOut :=
  if cause == 1 then SafeOut.reset
  else if o.state = .locked then { SafeOut.reset with state := .locked, fault := o.fault }
  else { SafeOut.reset with offSince := now }

/-- The recorder at a reset (R504): the ring stays, records still staged are lost. -/
def keptMor (m : Moraine) (cause : BitVec 8) : Moraine :=
  let newest := match m.ring.getLast? with
    | some r => r.seq + 1
    | none => 0
  { Moraine.reset with ring := m.ring, badUnits := m.badUnits, nextSeq := if cause == 1 then newest else m.nextSeq
                       backup := if cause == 1 then [] else m.backup }

/-- The power sequencer at a reset: what it measures at every instant, and its log (R17, R456, Table 15.9). -/
def keptPower (p : Power) (cause : BitVec 8) : Power :=
  { Power.reset with
    aVolt := p.aVolt, aValid := p.aValid, bVolt := p.bVolt, bValid := p.bValid, energy := p.energy, full := p.full
    charging := !p.full, vbak := p.vbak, vbakOk := p.vbakOk, power := p.power
    lastCause := cause, stageMax := if cause == 1 then 0 else p.stageMax, log := if cause == 1 then [] else p.log
    domains := 0xFFF, eth := 0xF, pf := true, backupRam := if cause == 1 then [] else p.backupRam }

/-- The debug block at a reset (Table 18.7): the counts of PD0. A FRZ_L that is still low freezes the module again by a
FREEZE_PIN of its own (log entry 61). -/
def keptDebug (d : Debug) (cause : BitVec 8) : Debug :=
  { Debug.reset with tapReset := d.tapReset, lastCause := if cause == 1 then 0 else d.lastCause
                     freezes := if cause == 1 then 0 else d.freezes }

/-- Start-up state at a reset: flash, the reset log, and the reset request line. -/
def keptBoot (s : State) (cause : BitVec 8) : Boot :=
  let b := s.boot
  let log := if cause == 1 then [] else b.resetLog
  { Boot.reset with
    dir := b.dir, slot := b.slot, bank := b.bank, failedEarly := b.failedEarly
    resetLog := (resetEntry s cause :: log).take 8, restarts := satInc b.restarts
    resetAt := if cause == 1 then 0 else tb3 s
    rst := if cause == 1 || b.rst == .pressed then .idle else b.rst
    rstStuckPowerOn := cause != 1 && b.rstStuckPowerOn, rstStuckService := cause != 1 && b.rstStuckService }

/-- The security store outlasts every reset (R482); the stage is emptied (R493) and the siblings are judged afresh. -/
def keptSec (x : Sec) : Sec :=
  { x with stage := .empty, stageOwner := none, stageBytes := [], stageSize := 0, lastCheck := 0, peerKeyA := zeros 32
           peerKeyB := zeros 32, peerSerialA := 0, peerSerialB := 0 }

/-- The module as a reset leaves it: PD1 to PD11 afresh, and what R456 keeps. Levels that other parties drive on pins
stand as they are. -/
def cleared (s : State) (cause : BitVec 8) (env : StartEnv) : State :=
  let output := Vector.ofFn (fun (i : Fin 8) => keptOutput cause (tb3 s) s.safe.output[i])
  { State.reset with
    time := keptTime s cause, mor := keptMor s.mor cause, dbg := keptDebug s.dbg cause
    power := keptPower s.power cause, boot := keptBoot s cause, sec := keptSec s.sec, otp := s.otp
    safe := { Safe.reset with output := output }
    weft := { Weft.reset with a := { Link.reset with cdnIn := s.weft.a.cdnIn }, b := { Link.reset with cdnIn := s.weft.b.cdnIn }
                              tb2Synced := s.weft.tb2Synced && cause != 1 }
    rack := { Rack.reset with clkOk := s.rack.clkOk, busLocked := s.rack.busLocked }
    slot := env.slot, slotPins := env.slot, freeCtr := s.freeCtr, pending := s.pending }

/-- Debug unlock ends by a reset, with a record (R489). -/
def relockAtReset (s : State) (old : State) (cause : BitVec 8) : State :=
  if cause != 1 && unlocked old then recordCommand s 0xFF 0 0 0x0C07 0 else s

/-- Step 1 of the start: the reset line's first sample after PD0 is powered (R458). -/
def firstSample (s : State) (cause : BitVec 8) (env : StartEnv) : State :=
  if cause == 1 && env.rstLow then
    record { s with boot := { s.boot with rst := .stuck, rstStuckPowerOn := true } } 0x12 0xFF0A 0xFF [2]
  else s

/-- Recovery mode (R468, R469): the loader serves, and every domain but PD0, PD1, PD7 and PD8 is off. `step` is the
last step of Table 16.1 that was completed. -/
def enterRecovery (s : State) (reason step : Nat) : State :=
  let r := dirNow s
  let on := r.mgmtPorts != 0
  let port := Vector.ofFn (fun (p : Fin 4) =>
    { portEnable s.pkt.port[p] (on && r.mgmtPorts.getLsbD p.val) with mgmt := r.mgmtPorts.getLsbD p.val })
  { s with
    boot := { s.boot with recovery := true, reason := BitVec.ofNat 8 reason, bootLock := true, step := BitVec.ofNat 8 step }
    power := { s.power with domains := if on then 0x183 else 0x083, eth := if on then r.mgmtPorts else 0, pf := false }
    pkt := { s.pkt with mgmtEn := on, mgmtVid := BitVec.ofNat 12 r.mgmtVid.toNat, mgmtIp := r.mgmtIp, port := port
                        svcIp := if r.svcIp = 0 then BitVec.ofNat 32 (0xC0A8FA0A + s.slot.toNat) else r.svcIp
                        mgmtPrefix := if r.svcIp = 0 then 24 else r.prefixLen }
    mbox := { s.mbox with heartbeat := tb3 s } }

/-- The recorder runs from the end of step 7: held records are written first, and records that were issued and not
found in the ring are counted (R458, R498, R504). `lost` is their number and the first lost SEQ. -/
def startRecorder (s : State) (lost : Nat × Word) : State :=
  let held := s.mor.backup
  let m := held.foldl morStage { s.mor with running := true, backup := [] }
  let s := { s with mor := m }
  if lost.1 = 0 then s
  else
    let r := morMake s 14 0xFF08 0xFF (leBytes 4 lost.1 ++ leBytes 8 lost.2.toNat)
    { s with mor := { morStage s.mor r with lost := satAdd s.mor.lost lost.1, event := setBit s.mor.event 0 } }

/-- A format version is in the FORMATS list of the running set (R472). -/
def readable (s : State) (f : U16) : Bool := f != 0 && s.boot.formats.contains f

/-- The major and minor numbers of two firmware versions agree (Table 16.9). -/
def sameMinor (a b : U32) : Bool := a.extractLsb' 0 16 == b.extractLsb' 0 16

/-- The container that a start uses (Table 16.9): the slot and the state with what the selection changes. -/
def selectContainer (s : State) : State × Option (Fin 2) := match currentSlot s with
  | none => (s, none)
  | some c =>
    let r := dirNow s
    let o := otherSlot c
    if readable s r.format[c] then (s, some c)
    else if readable s r.format[o] && sameMinor r.commitFw[o] s.boot.fwRunning then
      let s := dirWrite s { r with current := BitVec.ofNat 8 o.val }
      (record { s with boot := { s.boot with containerRestored := true } } 0x11 0xFF0B 0xFF
          ([1] ++ leBytes 2 r.format[o].toNat), some o)
    else
      (record { s with boot := { s.boot with containerUnreadable := true } } 0x11 0xFF0B 0xFF
          ([2] ++ leBytes 2 r.format[c].toNat), none)

/-- The lanes are loaded and stay STOPPED until their catch-up is complete (R218, Table 2.8). -/
def loadLanes (s : State) : State :=
  (List.finRange 8).foldl (fun s l => match (laneOf s l).image with
    | some im =>
      if (laneOf s l).disabled then s
      else
        let s := loadLane s l im
        putLane s l { laneOf s l with epochState := .stopped }
    | none => s) s

/-- Step 6: the injection tests of every lane, except where INDEPENDENT is selected (R153, R154). -/
def laneTests (s : State) (env : StartEnv) : State :=
  if s.lanes.independent then s
  else (List.finRange 8).foldl (fun s l => bistResult s l env.bist[l]) s

/-- The end of step 7: BOOT_LOCK is set, mailbox service and the sequencer start (R454, R455). -/
def finishStart (s : State) (env : StartEnv) (lost : Nat × Word) : State :=
  let s := { s with boot := { s.boot with bootLock := true, step := 7, startMs := env.ms, failedEarly := false }
                    epoch := { s.epoch with running := true, next := tb2 s / epochNs s.epoch + 1 }
                    mbox := { s.mbox with heartbeat := tb3 s } }
  startRecorder s lost

/-- An unconfigured start (R473): no lane is loaded and no port is enabled. In bench mode the vote state is BENCH, the
earlier row of Table 3.15. -/
def unconfigured (s : State) (check : Nat) : State :=
  let s := disablePorts { s with boot := { s.boot with unconfigured := true }
                                 sec := { s.sec with lastCheck := BitVec.ofNat 8 check } }
  { s with weft := { s.weft with own := if bench s then .bench else .unconfigured } }

/-- A configured start (R472, R480). -/
def configured (s : State) (c : List Byte) : State :=
  let s := loadLanes (loadContainer s c)
  { s with weft := { s.weft with own := if bench s then .bench else .starting } }

/-- Step 7 (R464, R472, R479): the set's consistency, then the container. -/
def stepSeven (s : State) : State :=
  let s := loadHeader s
  if !setConsistent s then unconfigured s 0
  else
    let s := loadSet s
    match selectContainer s with
    | (s, none) => unconfigured s 0
    | (s, some i) =>
      let c := slotContainer s i
      let code := containerCheck s c
      if code = 0 then configured s c else unconfigured s code

/-- Steps 5 to 7 of a start whose set is intact (Table 16.2). -/
def laterSteps (s : State) (env : StartEnv) (lost : Nat × Word) : State :=
  if !env.dramOk then enterRecovery s 4 4
  else if !env.step7Ok then
    if s.boot.failedEarly then enterRecovery s 5 6
    else { s with boot := { s.boot with failedEarly := true, step := 6 }, mbox := { s.mbox with failed := true } }
  else
    let s := { s with lanes := { s.lanes with independent := s.sec.independent, independentActive := s.sec.independent } }
    finishStart (stepSeven (laneTests s env)) env lost

/-- Steps 3 and 4 of a start (Table 16.2). -/
def earlySteps (s : State) (env : StartEnv) (lost : Nat × Word) : State :=
  let s := completePending s (bankFw s)
  let r := dirNow s
  let calm := { s with boot := { s.boot with failedEarly := false } }
  if r.recoveryReq then enterRecovery (dirWrite calm { r with recoveryReq := false }) 3 2
  else match r.bank with
    | .writing => enterRecovery calm 2 2
    | .invalid => enterRecovery calm 2 2
    | b =>
      if !setIntegrity s then enterRecovery (dirBank calm .invalid) 1 3
      else laterSteps (if b = .complete then dirBank s .valid else s) env lost

/-- A boot that stops before the loader starts (R236, R492): no mailbox is served. -/
def refuseStart (s : State) : State :=
  { s with boot := { s.boot with noStart := true, failedEarly := false, step := 1 }
           power := { s.power with domains := 3, eth := 0, pf := false } }

/-- The records that were staged and not yet in the ring: their number and the first SEQ (R504). -/
def lostRecords (m : Moraine) (cause : BitVec 8) : Nat × Word :=
  if cause == 1 then (0, 0) else (m.staged.length, (m.staged.head?.map (·.seq)).getD 0)

/-- Causes of an operator's restart (R111, Table 7.13): power cycling, RST_REQ_L and SYS_RESTART. A restart after calving
stage 3 follows a cycle of the feeds (log entry 99). -/
def operatorCause (cause : BitVec 8) : Bool := cause != 5 && cause != 6 && cause != 8

/-- UNIT_SAFE outlasts every restart that is no operator's (R111, log entry 99): the module goes on releasing nothing. -/
def stayUnitSafe (old : State) (cause : BitVec 8) (s : State) : State :=
  if old.weft.own = .unitSafe && !operatorCause cause then
    { s with weft := { s.weft with own := .unitSafe, unitSafeDone := true } }
  else s

/-- A reset of a cause, and the start sequence that follows it (R451, R456, Table 16.1). The time bases run through the
start. -/
def startModule (s : State) (cause : BitVec 8) (env : StartEnv) : State :=
  let wanted := cause == 4 && s.boot.restartDue == some true
  let t := if wanted then dirWrite s { dirNow s with recoveryReq := true } else s
  let t := firstSample (relockAtReset (cleared t cause env) s cause) cause env
  let t := passTicks t (env.ms.toNat * 100000)
  stayUnitSafe s cause (if !env.loaderOk || !env.selvedgeOk then refuseStart t else earlySteps t env (lostRecords s.mor cause))

/-- The cause of a power-on: PD0 has kept its state on VBAK, or it has not (Table 7.13). -/
def powerOnCause (s : State) : BitVec 8 := if powered s 0 && s.power.stage == 5 then 2 else 1

/-- The module waits for a feed: it is unpowered, or in calving stage 5. -/
def awaitsPower (s : State) : Bool := s.power.domains == 0 || s.power.stage == 5

/-- A feed has become valid on a module that waits for power. -/
def powerOn (s : State) (feed : Feed) (env : StartEnv) : State :=
  let p := s.power
  let p := match feed with
    | .a => { p with aValid := true }
    | .b => { p with bValid := true }
  startModule { s with power := p } (powerOnCause s) env

/-- POWER_ON (R451): one feed becomes valid on an unpowered module. -/
def execPowerOn (feed : Feed) (env : StartEnv) (s : State) : Host.Outcome State Fault Refusal :=
  .next (if awaitsPower s then powerOn s feed env else s)

/-- MODULE_RESET (R456): a reset of a cause of Table 7.13 on a powered module. -/
def execModuleReset (cause : BitVec 8) (env : StartEnv) (s : State) : Host.Outcome State Fault Refusal :=
  .next (if !awaitsPower s && 1 ≤ cause.toNat && cause.toNat ≤ 8 then startModule s cause env else s)

/-- RESET_REQUEST (R457, Table 16.3): the line goes high after `lows` consecutive low samples. -/
def execResetRequest (lows : Nat) (env : StartEnv) (s : State) : Host.Outcome State Fault Refusal :=
  .next (if !awaitsPower s && s.boot.rst != .stuck && 50 ≤ lows && lows ≤ 8000 then startModule s 3 env else s)

/-- RST_STUCK (Table 16.3): 8001 low samples. -/
def execRstStuck (s : State) : Host.Outcome State Fault Refusal :=
  always s 0 (if s.boot.rst = .stuck then s
    else record { s with boot := { s.boot with rst := .stuck, rstStuckService := true } } 0x12 0xFF0A 0xFF [1])

/-- RST_UNSTUCK (Table 16.3): 1000 consecutive high samples. -/
def execRstUnstuck (s : State) : Host.Outcome State Fault Refusal :=
  always s 0 (if s.boot.rst = .stuck then { s with boot := { s.boot with rst := .idle } } else s)

/-- Selvedge, or the loader, runs and reaches its registers. -/
def selvedgeActs (s : State) : Bool := running s 1 && !s.mbox.failed && !s.boot.noStart

/-- HEARTBEAT_WRITE (R234): any write restarts the watch. -/
def execHeartbeatWrite (_data : U32) (s : State) : Host.Outcome State Fault Refusal :=
  .next (if selvedgeActs s then { s with mbox := { s.mbox with heartbeat := tb3 s } } else s)

/-- HEARTBEAT_TIMEOUT (R234): no write for more than 20 ms of TB3. A freeze suspends the watch (Table 18.1). -/
def execHeartbeatTimeout (s : State) : Host.Outcome State Fault Refusal :=
  .next (if selvedgeActs s then selvedgeFail s else s)

/-- REF_LOSS (R288, Table 1.5): digests and release stop at once, and the failure is recorded (R31). -/
def execRefLoss (s : State) : Host.Outcome State Fault Refusal :=
  always s 0 (if s.time.refMissing then s
    else recordOpen { s with time := { s.time with refMissing := true }, weft := { s.weft with stopped := true } } 0x12 0xFF)

/-- SUPERVISOR_RESTART (R235): after a loss of the reference, or else after a Selvedge failure. -/
def execSupervisorRestart (env : StartEnv) (s : State) : Host.Outcome State Fault Refusal :=
  .next (if awaitsPower s then s
    else if s.time.refMissing then startModule s 6 env
    else if s.mbox.failed then startModule s 5 env else s)

/-- PD0_SUPERVISOR_FAULT (Table 7.13): the module restarts with cause 0x08. -/
def execPd0SupervisorFault (env : StartEnv) (s : State) : Host.Outcome State Fault Refusal :=
  .next (if awaitsPower s then s else startModule s 8 env)

end Sys2Proof.Machine
end

