-- ==== Sys2Proof/Machine/PowerOps.lean ====
section
/-! DEFINITION. The power sequencer: feeds, hold-up bank, Calving order, feed return and restore, and the power group
of mailbox commands (chapter 15). -/

namespace Sys2Proof.Machine

open Sys2Proof

/-- Sets a bit of PWR_EVENT. -/
def pwrEvent (s : State) (bit : Nat) : State :=
  { s with power := { s.power with event := setBit s.power.event bit } }

/-- Sets a bit of PWR_EVENT and writes its record (R438, R441). -/
def pwrNoted (s : State) (bit : Nat) : State :=
  let s := pwrEvent s bit
  recordBit s 13 0x18 bit s.power.event.toNat 0xFF []

/-- Time since t0 in units of 100 µs. -/
def elapsed100 (s : State) : Nat := match s.power.t0 with
  | some t => (tb3 s - t) / 100000
  | none => 0

/-- Enters a stage: STAGE, its events, and BACKSTOP when its energy threshold was met before its time (R445). -/
def enterStage (s : State) (stage : Nat) (backstop : Bool) : State :=
  let p := s.power
  let s := { s with power := { p with stage := BitVec.ofNat 3 stage, backstop := backstop
                                      stageMax := BitVec.ofNat 3 (max p.stageMax.toNat stage) } }
  let s := pwrEvent s 3
  if backstop then pwrEvent s 5 else s

/-- Frames of a port that loses its power are lost. -/
def shedPort (x : EthPort) : EthPort :=
  { x with shed := true, link := if x.en then 1 else 0, fecActive := false, queue := Vector.replicate 8 [] }

/-- Stage 1 (Table 15.2): PD11, ETH2 and ETH3 and the prefetch windows are shed, and the continuous flush starts. -/
def stageOne (s : State) : State :=
  let s := enterStage { s with power := { s.power with stageMax := 0 } } 1 false
  let p := s.power
  let q := s.pkt
  let lost := fun (s : State) => portLost (portLost s 2 q.port[2]) 3 q.port[3]
  lost { s with
    power := { p with domains := clearBit p.domains 11, eth := p.eth &&& 0x3, pf := false, restoring := false }
    pkt := { s.pkt with port := Vector.ofFn (fun (i : Fin 4) =>
      if 2 ≤ i.val then shedPort s.pkt.port[i] else s.pkt.port[i]) }
    rack := { s.rack with pfShed := true, pf := s.rack.pf.map (fun w => { w with buffer := none, refill := none }) }
    muslin := { s.muslin with chan := s.muslin.chan.map (fun c => { c with valid := false, resetDue := none, resetNow := false }) }
    mor := { s.mor with flushing := s.mor.running } }

/-- A lane of PD5 or PD6 at stage 2 (Table 2.8): SHED unless it is STOPPED; a lane that was DISABLED after D_c stays out of
service as STOPPED (R151). A commit already accepted stands (R57), and nothing more is offered. -/
def shedLane (s : State) (l : LaneId) : State :=
  let ln := laneOf s l
  if ln.epochState = .stopped || ln.epochState = .shed then s
  else
    abstainLane (putLane s l { ln with epochState := if ln.disabled then .stopped else .shed, drift := [], gate := [], drain := none, faultPending := false
                                       caughtUp := false, admits := 0, admitted := false }) l

/-- Stage 2 (Table 15.2). -/
def stageTwo (s : State) (backstop : Bool) : State :=
  let s := enterStage s 2 backstop
  let s := ([4, 5, 6, 7] : List LaneId).foldl shedLane s
  { s with power := { s.power with domains := s.power.domains &&& ~~~0x060 } }

/-- What halted logic does not do in a freeze (Table 18.1). -/
def unlessFrozen (s : State) (f : State → State) : State := if s.dbg.frozen then s else f s

/-- The output actions of R109: safe outputs open, field outputs take their safe states, and publication, MVB, CAN and
rack bus driving end. -/
def outputsOff (s : State) : State :=
  let s := dropUnsent (rackAbort (fioSafe (safeDemand s)))
  { s with pkt := { s.pkt with
      mvb := { s.pkt.mvb with answered := none, sentMasters := [] }
      can := s.pkt.can.map (fun c => { c with fwd := [], objects := c.objects.map (fun o => { o with queued := none }) }) } }

/-- The output actions of R109 as stage 3 takes them (Table 15.2). -/
def stageThreeActs (s : State) : State :=
  outputsOff { s with weft := { s.weft with stopped := true, excludedNow := true }, safe := { s.safe with calved := true } }

/-- Stage 3, and stage 4 with its power-loss record (Table 15.2). -/
def stageThree (s : State) (backstop : Bool) : State :=
  let s := enterStage s 3 backstop
  let s := { s with power := { s.power with deep := satInc s.power.deep } }
  let s := unlessFrozen s stageThreeActs
  let s := { s with power := { s.power with stage := 4, stageMax := 4, event := setBit s.power.event 3 } }
  unlessFrozen s (fun s => powerLossRecord s (elapsed100 s))

/-- A feed-loss log entry (Table 15.9), newest first. -/
def logLoss (s : State) (restored : Bool) : State :=
  let p := s.power
  let e : FeedLoss := { tb0Sec := p.tb0Loss, stageMax := p.stageMax.toNat
                        flags := BitVec.ofNat 2 (b2n p.backstop + 2 * b2n restored)
                        duration := BitVec.ofNat 32 (elapsed100 s), energyLeft := BitVec.ofNat 16 p.energy.toNat }
  { s with power := { p with log := (e :: p.log).take 8 } }

/-- Stage 5 (Table 15.2): every domain except PD0 is off. Every output opens, pulse outputs and captures stop. Without
VBAK, PD0 is off as well (R442). -/
def stageFive (s : State) (backstop : Bool) : State :=
  let s := enterStage s 5 backstop
  let p := s.power
  let open' := fun (c : FioChan) => if c.cfg.output then { c with state := .off, onBit := false } else c
  { s with
    power := { p with domains := if p.vbakOk then 1 else 0, eth := 0, pf := false, charging := false, full := false }
    fio := { s.fio with chan := s.fio.chan.map open', out := 0, fieldOk := false, release := none }
    safe := { s.safe with output := s.safe.output.map (fun o => if o.state = .locked then { o with swH := false, swL := false }
                                                             else { o with state := .safeOff, swH := false, swL := false })
                          fieldSilent := true, fieldOk := false, release := none, sent := none }
    time := { s.time with cap := s.time.cap.map (fun c => { c with en := false })
                          tpo := s.time.tpo.map (fun t => { t with en := false, armed := false, active := false, hiZ := true }) }
    mor := { s.mor with running := false, flushing := false }
    weft := { s.weft with a := { Link.reset with cdnIn := s.weft.a.cdnIn }, b := { Link.reset with cdnIn := s.weft.b.cdnIn } } }

/-- A stage's time or its energy threshold is met (Table 15.2): microseconds after t0, and millijoules. -/
def stageDue (s : State) (us mj : Nat) : Bool := match s.power.t0 with
  | some t => decide (t + us * 1000 ≤ tb3 s) || decide (s.power.energy.toNat ≤ mj)
  | none => false

/-- The threshold alone is met (R445). -/
def byThreshold (s : State) (us : Nat) : Bool := match s.power.t0 with
  | some t => decide (tb3 s < t + us * 1000)
  | none => false

/-- One evaluation of the stages, in ascending order (R445). -/
def evaluateStages (s : State) : State :=
  let s := if s.power.stage = 1 && stageDue s 12000 224 then stageTwo s (byThreshold s 12000) else s
  let s := if s.power.stage = 2 && stageDue s 16000 112 then stageThree s (byThreshold s 16000) else s
  if s.power.stage = 4 && stageDue s 20000 14 then stageFive s (byThreshold s 20000) else s

/-- A calving stage's event: ENERGY is as measured, and the stage's time has come unless its threshold is met. -/
def calvingEvent (s : State) (us mj : Nat) (energy : BitVec 12) : State :=
  let s := match s.power.t0 with
    | some t => if mj < energy.toNat then passUntil s 3 (t + us * 1000) else s
    | none => s
  evaluateStages { s with power := { s.power with energy := energy } }

/-- CALVING_STAGE_2 (Table 15.3). -/
def execCalvingStage2 (energy : BitVec 12) (s : State) : Host.Outcome State Fault Refusal :=
  always s 0 (if s.power.stage = 1 then calvingEvent s 12000 224 energy else s)

/-- CALVING_STAGE_3 (Table 15.3). -/
def execCalvingStage3 (energy : BitVec 12) (s : State) : Host.Outcome State Fault Refusal :=
  always s 0 (if s.power.stage = 2 then calvingEvent s 16000 112 energy else s)

/-- CALVING_STAGE_5 (Table 15.3). -/
def execCalvingStage5 (energy : BitVec 12) (s : State) : Host.Outcome State Fault Refusal :=
  always s 0 (if s.power.stage = 4 then calvingEvent s 20000 14 energy else s)

/-- A feed loss ends a capacity measurement, and its command gets TIMEOUT (R441, R450). -/
def endMeasure (s : State) : State :=
  let i := s.power.testPair
  let s := { s with power := { s.power with measuring := false, testPair := none } }
  match i with
  | some i => finishLong s i (failWith stTimeout)
  | none => s

/-- A feed loss (R444): both feeds are invalid, and t0 is now. -/
def feedLoss (s : State) : State :=
  let b := s.time.tb[0]
  let s := { s with power := { s.power with t0 := some (tb3 s), tb0Loss := if tbValid b then b.value.sec.toNat else 0
                                            losses := satInc s.power.losses, charging := false, returned := false } }
  evaluateStages (stageOne (pwrEvent (endMeasure s) 2))

/-- A feed's measured voltage and validity. -/
def putFeed (p : Power) (feed : Feed) (cv : BitVec 12) (valid : Bool) : Power := match feed with
  | .a => { p with aVolt := cv, aValid := valid }
  | .b => { p with bVolt := cv, bValid := valid }

/-- A feed was valid. -/
def feedValid (p : Power) : Feed → Bool
  | .a => p.aValid
  | .b => p.bValid

/-- FEED_INVALID (R437, R438): the second feed's loss is a feed loss. -/
def execFeedInvalid (feed : Feed) (centivolts : BitVec 12) (s : State) : Host.Outcome State Fault Refusal :=
  let was := feedValid s.power feed
  let t := { s with power := putFeed s.power feed centivolts false }
  let t := if was then pwrNoted t (match feed with | .a => 0 | .b => 1) else t
  always s 0 (if was && !t.power.aValid && !t.power.bValid && t.power.stage == 0 then feedLoss t else t)

/-- SHED lanes are powered and reloaded (R448). -/
def unshedLane (s : State) (l : LaneId) : State := match (laneOf s l).epochState, (laneOf s l).image with
  | .shed, some im =>
    let s := loadLane s l im
    { s with power := { s.power with restoreLanes := setBit s.power.restoreLanes l.val } }
  | _, _ => s

/-- A restore (R448), from stage 1 or 2. -/
def restore (s : State) : State :=
  let s := logLoss s true
  let p := s.power
  let back := (List.range 4).foldl (fun (m : BitVec 4) i => if 2 ≤ i && s.pkt.port.toList[i]?.any (·.en) then setBit m i else m) 0
  let due := tbNanos s.time.tb[2].value + 1000000
  let t := { s with
    power := { p with stage := 0, backstop := false, t0 := none, restoring := true, domains := p.domains ||| 0x860, eth := 0xF
                      pf := true, charging := !p.full, restorePorts := p.restorePorts ||| back }
    pkt := { s.pkt with port := s.pkt.port.map (fun x => { x with shed := false }) }
    rack := { s.rack with pfShed := false }
    mor := { s.mor with flushing := false }
    muslin := { s.muslin with chan := s.muslin.chan.map (fun c =>
      if c.cfg.range == 0 || c.dead then c else { c with resetDue := some due }) } }
  ([4, 5, 6, 7] : List LaneId).foldl unshedLane t

/-- The restart that follows a flush in stage 4 once a feed has returned (Table 15.3). -/
def calvedRestart (s : State) (env : StartEnv) : State := startModule s 7 env

/-- A feed returns in a stage (Table 15.3). The stage conditions of the same evaluation come first (R447). -/
def feedReturn (s : State) (env : StartEnv) : State :=
  let s := evaluateStages s
  match s.power.stage.toNat with
  | 1 => restore s
  | 2 => restore s
  | 4 =>
    if s.power.returned then s
    else
      let s := logLoss s false
      let s := { s with power := { s.power with returned := true, charging := !s.power.full } }
      if s.mor.flushing then s else calvedRestart s env
  | 5 => startModule (if powered s 0 then logLoss s false else s) (powerOnCause s) env
  | _ => { s with power := { s.power with charging := !s.power.full } }

/-- FEED_VALID (R437, R447): a feed becomes valid. -/
def execFeedValid (feed : Feed) (centivolts : BitVec 12) (env : StartEnv) (s : State) : Host.Outcome State Fault Refusal :=
  let t := { s with power := putFeed s.power feed centivolts true }
  .next (if s.power.domains == 0 then startModule t 1 env else feedReturn t env)

/-- FEED_OVER (Table 15.7). -/
def execFeedOver (_feed : Feed) (s : State) : Host.Outcome State Fault Refusal := always s 0 (pwrEvent s 8)

/-- A lane that a restore waited for takes part again, or stays out of service (R448, R151). -/
def laneRestored (s : State) (l : LaneId) : Bool :=
  let ln := laneOf s l
  !s.power.restoreLanes.getLsbD l.val || ln.admitted || ln.epochState = .stopped

/-- The restore is over: ports trained, lanes admitted (R448). -/
def restoreDone (s : State) : Bool :=
  s.power.restoring && s.power.restorePorts == 0 && (List.finRange 8).all (laneRestored s)

/-- RESTORE_COMPLETE (R448). -/
def execRestoreComplete (s : State) : Host.Outcome State Fault Refusal :=
  always s 0 (if restoreDone s then
      pwrEvent { s with power := { s.power with restoring := false, restoreLanes := 0 } } 4
    else s)

/-- A capacity measurement may run (R441, R450). -/
def mayMeasure (s : State) : Bool := s.power.full && (s.power.aValid || s.power.bValid) && s.power.stage == 0

/-- HOLDUP_TEST_DAILY (R441). -/
def execHoldupTestDaily (s : State) : Host.Outcome State Fault Refusal :=
  always s 0 (if mayMeasure s && !s.power.measuring then { s with power := { s.power with measuring := true } } else s)

/-- HOLDUP_MEASURE_DONE (R441): CAP is known, and the command that waits for it is answered. -/
def execHoldupMeasureDone (cap : BitVec 12) (s : State) : Host.Outcome State Fault Refusal :=
  let i := s.power.testPair
  let low := decide (cap.toNat < 560)
  let t := { s with power := { s.power with measuring := false, testPair := none, cap := cap, energy := cap, lowCap := low } }
  let t := if low then pwrNoted t 6 else t
  always s 0 (if s.power.measuring then
      match i with
      | some i => finishLong t i (okWith (leBytes 2 cap.toNat ++ zeros 2))
      | none => t
    else s)

/-- BANK_FULL (R439): the bank holds what was last measured at full charge, and before a measurement a free value of at
least 560 mJ (log entry 47). -/
def execBankFull (s : State) : Host.Outcome State Fault Refusal :=
  let (n, t) := takeFree s
  let e := if s.power.cap == 0 then BitVec.ofNat 12 (560 + (Config.freeWord n).toNat % 3536) else s.power.cap
  always s 0 (if s.power.charging then
      { t with power := { t.power with full := true, charging := false, energy := e } }
    else s)

/-- VBAK_LOW (R442): in stage 5 PD0 loses its state. -/
def execVbakLow (millivolts : BitVec 12) (s : State) : Host.Outcome State Fault Refusal :=
  let t := { s with power := { s.power with vbak := millivolts, vbakOk := false } }
  let t := if s.power.vbakOk then pwrEvent t 7 else t
  always s 0 (if s.power.stage = 5 then { t with power := { t.power with domains := 0 } } else t)

/-- VBAK_RETURN (R442). -/
def execVbakReturn (millivolts : BitVec 12) (s : State) : Host.Outcome State Fault Refusal :=
  .next { s with power := { s.power with vbak := millivolts, vbakOk := true } }

/-- PWR_DRAW_READ (R449): the feed power is a measurement, a free value (log entry 47); the read answers PEAK and sets
it to 0. -/
def execPwrDrawRead (s : State) : Host.Outcome State Fault Refusal :=
  let (n, t) := takeFree s
  let w := BitVec.ofNat 12 (Config.freeWord n).toNat
  let p := { t.power with power := w, peak := if s.power.peak.toNat < w.toNat then w else s.power.peak }
  let t := { t with power := p }
  always s 0 (if running s 1 then blockLatch { t with readData := pwrRead t 0x10 } 13 0x10 else s)

/-- SLOT_PIN_CHANGE (R515): no effect but a record. -/
def execSlotPinChange (pins : BitVec 2) (s : State) : Host.Outcome State Fault Refusal :=
  let t := { s with slotPins := pins }
  .next (if powered s 0 && pins != s.slotPins then recordOpen t 0x12 0xFF else t)

/-- CALVING_FLUSH_DONE (R447): the flush completes; after a feed return the module restarts with cause 0x07. -/
def execCalvingFlushDone (env : StartEnv) (s : State) : Host.Outcome State Fault Refusal :=
  let t := { s with mor := morFlush s.mor }
  always s 1 (if s.power.stage = 4 && !s.dbg.frozen then (if s.power.returned then calvedRestart t env else t) else s)

/-- PWR_GET_STATUS (Table 15.8). -/
def execPwrGetStatus (pair : PairId) (s : State) : Host.Outcome State Fault Refusal :=
  serve s pair (readCmd 0x0A00 1 0) (reads (fun s _ =>
    okWith ([0x00, 0x04, 0x08, 0x0C, 0x10, 0x14, 0x18, 0x20].flatMap (fun o => leBytes 4 (pwrRead s o).toNat)
      ++ leBytes 4 (s.lanes.perf.toNat + 256 * s.lanes.ramping.toNat))))

/-- PWR_SET_PERF (R450). -/
def execPwrSetPerf (pair : PairId) (s : State) : Host.Outcome State Fault Refusal :=
  serve s pair (changeCmd 0x0A01 2 4) (fun s p =>
    if !allZero p 1 3 || [0, 1, 2, 3].any (fun d => field (u8 p 0) (2 * d + 1) (2 * d) == 3) then (s, some (failWith stParam))
    else if s.lanes.ramping != 0 then (s, some (failWith stBusy))
    else (perfWrite s (BitVec.ofNat 32 (u8 p 0)), some okEmpty))

/-- PWR_HOLDUP_TEST (R450): a long command that HOLDUP_MEASURE_DONE answers. -/
def execPwrHoldupTest (pair : PairId) (s : State) : Host.Outcome State Fault Refusal :=
  serve s pair (changeCmd 0x0A02 2 0) (fun s _ =>
    if !mayMeasure s then (s, some (failWith stPermit))
    else if s.power.measuring then (s, some (failWith stBusy))
    else ({ s with power := { s.power with measuring := true, testPair := some pair.val } }, none))

/-- A feed-loss log entry as its 16 bytes (Table 15.9). -/
def lossBytes (e : FeedLoss) : List Byte :=
  leBytes 6 e.tb0Sec ++ b8 e.stageMax ++ b8 e.flags.toNat ++ leBytes 4 e.duration.toNat ++ leBytes 2 e.energyLeft.toNat
    ++ zeros 2

/-- PWR_GET_LOG (Table 15.9). -/
def execPwrGetLog (pair : PairId) (s : State) : Host.Outcome State Fault Refusal :=
  serve s pair (readCmd 0x0A03 2 0) (reads (fun s _ => okWith (fit 128 (s.power.log.flatMap lossBytes))))

end Sys2Proof.Machine
end

