-- ==== Sys2Proof/Machine/WeftOps.lean ====
section
/-! DEFINITION. The Weft links: frames sent and received, link-up, identity, TB2 exchange rounds and the ways a link
goes down (chapter 3, R76 to R87). -/

namespace Sys2Proof.Machine

open Sys2Proof

/-- The bit of a side in pairs of event bits: WEFT_A first. -/
def sideBit : Side → Nat
  | .a => 0
  | .b => 1

/-- The links of this module may come up on a side: enabled, and neither bench mode nor an unconfigured or recovering
module (R117, R473, Table 3.17). -/
def linkAllowed (s : State) (sd : Side) : Bool :=
  (match sd with
    | .a => s.weft.linkAEn
    | .b => s.weft.linkBEn)
  && !bench s && s.maps.configured && !s.boot.unconfigured && !s.boot.recovery && decide (7 ≤ s.boot.step.toNat)

/-- The start sequence has reached a step of Table 16.1. START_MS covers steps 1 to 8 (Table 16.12). -/
def reachStep (s : State) (n : Nat) : State :=
  let b := s.boot
  let ms := if b.step.toNat < 8 && decide (8 ≤ n) then BitVec.ofNat 32 ((tb3 s - b.resetAt) / 1000000) else b.startMs
  { s with boot := { b with step := BitVec.ofNat 8 (max b.step.toNat n), startMs := ms } }

/-- Sets a bit of WEFT_EVENT with a Moraine record of it (R502). -/
def weftNoted (s : State) (bit : Nat) : State :=
  let s := weftEvent s bit
  recordBit s 12 0x28 bit s.weft.event.toNat 0xFF []

/-- A link without its session: what it keeps is its condemn lines, its counters and what is known of the peer. -/
def linkCleared (k : Link) : Link :=
  { Link.reset with
    cdnIn := k.cdnIn, cdnOut := k.cdnOut, cdnStuck := k.cdnStuck, cdnLowEpochs := k.cdnLowEpochs
    sentCondemn := k.sentCondemn, condemnedBy := k.condemnedBy, crcErr := k.crcErr, retx := k.retx
    absentCnt := k.absentCnt, peerSlot := k.peerSlot, peerState := k.peerState, peerGen := k.peerGen
    peerMode := k.peerMode, theta := k.theta, unitSafe := k.unitSafe, quiet := k.quiet, lastFrame := k.lastFrame
    logged := k.logged, viaForm := k.viaForm }

/-- IDENT_RESULT 0 has arrived on every link that is not DOWN, and there is one (R84, Table 3.15). -/
def strangerEverywhere (s : State) : Bool :=
  let up := sides.filter (fun sd => (linkOf s sd).state != .down)
  !up.isEmpty && up.all (fun sd => (linkOf s sd).identResult == some false)

/-- A module in STARTING that is a stranger on every link that is not DOWN takes the vote state STRANGER (R84). -/
def strangerCheck (s : State) : State :=
  if strangerEverywhere s && s.weft.own = .starting then { s with weft := { s.weft with own := .stranger } } else s

/-- A link goes DOWN (R81): its event and the report of R31. -/
def linkDown (s : State) (sd : Side) : State :=
  let k := linkOf s sd
  if k.state = .down then s else strangerCheck (weftNoted (putLink s sd (linkCleared k)) (sideBit sd))

/-- MODE of the own HELLO (Table 3.5). -/
def helloMode (s : State) : Nat := b2n s.lanes.independentActive + 2 * b2n s.maps.configured

/-- The highest level that WEFT_CTRL permits (Table 3.17). -/
def ownLevel (s : State) : Nat := if s.weft.levelMax = 2 then 2 else 3

/-- K_C0 to K_C3 codes. -/
def kCodes (e : Epoch) : List Nat := [e.k0.toNat, e.k1.toNat, e.k2.toNat, e.k3.toNat]

/-- The own HELLO payload (Table 3.5). -/
def helloBytes (s : State) (nonce : List Byte) : List Byte :=
  b8 2 ++ b8 (ownLevel s) ++ b8 s.slot.toNat ++ b8 s.epoch.period.toNat ++ (kCodes s.epoch).flatMap b8
    ++ leBytes 4 s.boot.imageGen.toNat ++ b8 (helloMode s) ++ b8 (voteCode s.weft.own) ++ zeros 2 ++ nonce
where
  /-- One byte. -/
  b8 (n : Nat) : List Byte := [BitVec.ofNat 8 n]

/-- A HELLO payload read (Table 3.5). -/
def helloOf (p : List Byte) : Hello :=
  { levelMin := leAt p 0 1, levelMax := leAt p 1 1, slot := leAt p 2 1, period := leAt p 3 1
    kCodes := [leAt p 4 1, leAt p 5 1, leAt p 6 1, leAt p 7 1], imageGen := BitVec.ofNat 32 (leAt p 8 4)
    mode := BitVec.ofNat 8 (leAt p 12 1), voteState := leAt p 13 1, nonce := slice p 16 32 }

/-- Step 2 of link-up (Table 3.4): both sequence numbers start at 0, and HELLO is sent with a nonce, a free value. -/
def linkNegotiate (s : State) (sd : Side) : State :=
  let nonce := freeBytes s 32
  let (_, t) := takeFree s
  let k := linkCleared (linkOf t sd)
  putLink t sd { linkQueue { k with state := .negotiate, nonceSent := nonce } 0x01 (lo32 t.epoch.no) (helloBytes t nonce)
                 with helloSent := true }

/-- WEFT_BLOCK_LOCK (R82): training reaches block lock. -/
def execWeftBlockLock (sd : Side) (s : State) : Host.Outcome State Fault Refusal :=
  let st := (linkOf s sd).state
  live s 2 (if linkAllowed s sd && (st = .training || st = .down) then linkNegotiate s sd else s)

/-- WEFT_RETRAIN (R81): a DOWN link starts training. -/
def execWeftRetrain (sd : Side) (s : State) : Host.Outcome State Fault Refusal :=
  let k := linkOf s sd
  live s 2 (if linkAllowed s sd && k.state = .down then putLink s sd { k with state := .training } else s)

/-- WEFT_LOCK_LOST (R81). -/
def execWeftLockLost (sd : Side) (s : State) : Host.Outcome State Fault Refusal := live s 2 (linkDown s sd)

/-- WEFT_CRC_RUN_DOWN (R81): 16 consecutive frames have failed their CRC. -/
def execWeftCrcRunDown (sd : Side) (s : State) : Host.Outcome State Fault Refusal :=
  live s 2 (if 16 ≤ (linkOf s sd).crcRun then linkDown s sd else s)

/-- WEFT_SILENCE_DOWN (R81): two consecutive epochs without an intact frame. -/
def execWeftSilenceDown (sd : Side) (s : State) : Host.Outcome State Fault Refusal :=
  live s 2 (if 2 ≤ (linkOf s sd).silentEpochs then linkDown s sd else s)

/-- A link in steps 2 to 4 of link-up. -/
def linkRising (k : Link) : Bool := k.state = .negotiate || k.state = .identity || k.state = .time

/-- WEFT_LINKUP_TIMEOUT (R82): a frame of link-up has been missing for more than 10 ms. -/
def execWeftLinkupTimeout (sd : Side) (s : State) : Host.Outcome State Fault Refusal :=
  live s 2 (if linkRising (linkOf s sd) then linkNegotiate s sd else s)

/-- WEFT_REFUSED_RETRY (R83): link-up starts again after 1 s. -/
def execWeftRefusedRetry (sd : Side) (s : State) : Host.Outcome State Fault Refusal :=
  let k := linkOf s sd
  live s 2 (if linkAllowed s sd && k.state = .refused then
      putLink s sd { linkCleared k with state := .training }
    else s)

/-- The largest LENGTH of a Weft frame (Table 3.1). -/
def maxPayload : Nat := 2028

/-- Nanoseconds that a frame occupies the line (R76, Table 3.1): 0.8 ns a byte, rounded up. -/
def frameNs (f : TxFrame) : Nat := ((20 + f.payload.length) * 4 + 4) / 5

/-- The order of R79; the frames of link-up come first, since no other type is ready with them. -/
def frameRank (f : TxFrame) : Nat :=
  if f.resend then 6
  else match f.type with
    | 0x7E => 0 | 0x10 => 1 | 0x11 => 2 | 0x20 => 3 | 0x21 => 4 | 0x22 => 5 | 0x30 => 7 | 0x04 => 8 | 0x40 => 9
    | _ => 0

/-- Nanoseconds of TB2 since the last boundary instant. -/
def intoEpoch (s : State) : Nat := tb2 s % epochNs s.epoch

/-- The protected span (R79): from D_c to the exchange end of the next epoch. -/
def protectedSpan (s : State) : Bool :=
  let r := intoEpoch s
  decide (epochNs s.epoch ≤ r + voteUs s.epoch * 1000) || decide (r < exchangeUs s.epoch * 1000)

/-- A frame that starts now ends before its own deadline (R80): the exchange end for RAW and CATCHUP, V_c for
DIGEST. -/
def meetsDeadline (s : State) (f : TxFrame) : Bool :=
  let endsAt := intoEpoch s + frameNs f
  match f.type with
  | 0x10 => decide (endsAt ≤ exchangeUs s.epoch * 1000)
  | 0x30 => decide (endsAt ≤ exchangeUs s.epoch * 1000)
  | 0x20 => decide (endsAt + 2000 ≤ epochNs s.epoch)
  | _ => false

/-- The link may start a frame now (R79, R80). A CATCHUP frame ends at least 1 µs before the exchange end. -/
def mayStart (s : State) (f : TxFrame) : Bool :=
  if f.resend then meetsDeadline s f
  else match f.type with
    | 0x04 => !protectedSpan s
    | 0x40 => !protectedSpan s
    | 0x30 => decide (intoEpoch s + frameNs f + 1000 ≤ exchangeUs s.epoch * 1000)
    | _ => true

/-- The first frame of the lowest rank among those that may start. -/
def nextFrame (s : State) (k : Link) : Option TxFrame :=
  let ready := k.txq.filter (mayStart s)
  (List.range 10).findSome? (fun r => ready.find? (fun f => frameRank f == r))

/-- TB2 at the last tick in units of 2^-16 ns. -/
def tb2Stamp (s : State) : Nat := tbFine s.time.tb[2].value / 2 ^ 16

/-- A stamp of R85 in units of 2^-16 ns: TB2 at the last tick, and the unit intervals of 32/330 ns since then, a free value
below one tick (log entry 49). -/
def stampAt (s : State) (n : Nat) : Nat := tb2Stamp s + (Config.freeWord n).toNat % 104 * 2097152 / 330

/-- A stamp as 12 bytes, in units of 2^-16 ns (log entry 49). -/
def stampBytes (n : Nat) : List Byte := leBytes 12 n

/-- A TB2_SYNC payload with the transmit stamp put in as the frame leaves (R85): t1 of a request, t3 of an answer. -/
def stamped (f : TxFrame) (at' : Nat) : TxFrame :=
  if f.type != 0x04 then f
  else if f.payload.length = 12 then { f with payload := stampBytes at' }
  else { f with payload := f.payload.take 24 ++ stampBytes at' }

/-- A frame as its bytes (Table 3.1). ACK before any frame has been received is 0xFFFFFFFF: DESIGN CHOICE (log entry 100). -/
def frameBytes (k : Link) (f : TxFrame) : List Byte :=
  let level := if f.type = 0x01 then 0 else k.level.toNat
  let body := [BitVec.ofNat 8 f.type, BitVec.ofNat 8 level] ++ leBytes 2 f.payload.length ++ leBytes 4 f.seq.toNat
    ++ leBytes 4 (k.rxSeq - 1).toNat ++ leBytes 4 f.epochLo.toNat ++ f.payload
  body ++ leBytes 4 (crc32c body).toNat

/-- Frame types that level 3 resends (R80). -/
def resendable (type : Nat) : Bool := type == 0x10 || type == 0x20 || type == 0x30

/-- What sending a frame does to its link: SEQ, the copy kept for level 3, the t1 stamp, RETX, and a CATCHUP block
that is clean once its last chunk has been sent (R123). `at'` is the transmit stamp. -/
def linkSent (at' : Nat) (k : Link) (f : TxFrame) : Link :=
  let f := stamped (if f.resend then f else { f with seq := k.txSeq }) at'
  let k := { k with txSeq := if f.resend then k.txSeq else k.txSeq + 1, lastFrame := frameBytes k f
                    retx := if f.resend then satInc k.retx else k.retx
                    sent := if resendable f.type && !f.resend then k.sent ++ [f] else k.sent }
  if f.type = 0x04 && f.payload.length = 12 then { k with t1 := some (leAt f.payload 0 12) }
  else if f.type = 0x30 && leAt f.payload 2 1 = 3 then { k with dirty := k.dirty.erase (leAt f.payload 0 2) }
  else k

/-- The link sends frames: from NEGOTIATE on, unless refused. -/
def linkSends (k : Link) : Bool := linkRising k || linkOn k

/-- WEFT_FRAME_SEND (R77, R79): the next ready frame starts. -/
def execWeftFrameSend (sd : Side) (s : State) : Host.Outcome State Fault Refusal :=
  let k := linkOf s sd
  let (n, t) := takeFree s
  live s 2 (match nextFrame s k with
    | some f => if linkSends k then putLink t sd (linkSent (stampAt s n) { k with txq := k.txq.erase f } f) else s
    | none => s)

/-- A discarded frame is counted (R78, Table 3.26). -/
def frameDiscarded (s : State) (sd : Side) : State :=
  let k := linkOf s sd
  putLink s sd { k with crcErr := satInc k.crcErr }

/-- At level 3 a NAK names the first missing SEQ (R80). -/
def sendNak (s : State) (sd : Side) (seq : U32) : State :=
  if (linkOf s sd).level = 3 && linkOn (linkOf s sd) then sendSide s sd 0x7E (leBytes 4 seq.toNat) else s

/-- `b` follows `a` in sequence order modulo 2^32. -/
def seqAfter (a b : U32) : Bool := decide (1 ≤ (b - a).toNat) && decide ((b - a).toNat < 2 ^ 31)

/-- The SEQ of an intact frame (R77, R80): a gap at level 3 is answered with NAK, and later frames count from the newest
SEQ on (log entry 50). -/
def noteSeq (s : State) (sd : Side) (seq ack : U32) : State :=
  let k := linkOf s sd
  let k' := { k with intact := true, crcRun := 0, acked := ack }
  if seq == k.rxSeq then putLink s sd { k' with rxSeq := seq + 1 }
  else if seqAfter k.rxSeq seq then sendNak (putLink s sd { k' with rxSeq := seq + 1 }) sd k.rxSeq
  else putLink s sd k'

/-- WEFT_FRAME_DISCARD (R78, R80, R81): a received frame is discarded and counted. One that is discarded for its LENGTH or its
TYPE has a right CRC: it ends a run of CRC failures and the link's silence. -/
def execWeftFrameDiscard (sd : Side) (why : Discard) (s : State) : Host.Outcome State Fault Refusal :=
  let k := linkOf s sd
  live s 2 (if !linkSends k then s
    else match why with
      | .badCrc => sendNak (frameDiscarded (putLink s sd { k with crcRun := k.crcRun + 1 }) sd) sd k.rxSeq
      | .wrongEpoch seq => frameDiscarded (noteSeq s sd seq k.acked) sd
      | _ => frameDiscarded (putLink s sd { k with intact := true, crcRun := 0 }) sd)

/-- A received frame: `need` is the payload length of its type, `ok` the links on which it is taken. A frame of an
epoch-bound type from another epoch, or with a payload of another length, is discarded (R78, log entry 51). -/
def takeFrame (s : State) (sd : Side) (h : WeftHdr) (p : List Byte) (need : Nat → Bool) (bound : Bool) (ok : Link → Bool)
    (f : State → State) : Host.Outcome State Fault Refusal :=
  live s 2 (if !linkSends (linkOf s sd) then s
    else
      let s := noteSeq s sd h.seq h.ack
      if !need p.length || decide (maxPayload < p.length) || (bound && h.epochLo != lo32 s.epoch.no) then frameDiscarded s sd
      else if ok (linkOf s sd) then f s else s)

/-- The peer's HELLO is compatible (R83): the negotiated level, the neighbour slot, period and multipliers. -/
def helloFits (s : State) (sd : Side) (h : Hello) : Bool :=
  let level := min (ownLevel s) h.levelMax
  decide (2 ≤ level) && decide (h.levelMin ≤ level) && h.slot == sideSlot s sd && h.period == s.epoch.period.toNat
    && h.kCodes == kCodes s.epoch

/-- What HELLO tells of the peer (Table 3.29). -/
def notePeer (k : Link) (h : Hello) : Link :=
  { k with peerSlot := BitVec.ofNat 2 h.slot, peerState := BitVec.ofNat 4 h.voteState, peerGen := h.imageGen
           peerMode := h.mode }

/-- The bytes that IDENT signs (R84): the nonce, the signer's slot and generation. -/
def identMessage (nonce : List Byte) (slot : Nat) (gen : U32) : List Byte :=
  fit 32 nonce ++ [BitVec.ofNat 8 slot] ++ leBytes 4 gen.toNat

/-- The own IDENT payload. -/
def identBytes (s : State) (k : Link) : List Byte :=
  fit 32 s.otp.pubkey ++ fit 64 (edSign s.otp.seed (identMessage k.nonceGot s.slot.toNat s.boot.imageGen))

/-- HELLO in NEGOTIATE (R83): the link becomes REFUSED with a record, or goes on with IDENT. -/
def helloTaken (s : State) (sd : Side) (h : Hello) : State :=
  let k := notePeer (linkOf s sd) h
  if helloFits s sd h then
    let k := { k with state := .identity, level := BitVec.ofNat 4 (min (ownLevel s) h.levelMax), nonceGot := h.nonce
                      helloGot := true }
    putLink s sd (linkQueue k 0x02 (lo32 s.epoch.no) (identBytes s k))
  else weftNoted (putLink s sd { k with state := .refused, level := 0, txq := [] }) 16

/-- WEFT_HELLO (R83). On a link that is already up, HELLO only reports the peer's state (log entry 52). -/
def execWeftHello (sd : Side) (hdr : WeftHdr) (payload : List Byte) (s : State) : Host.Outcome State Fault Refusal :=
  takeFrame s sd hdr payload (· == 48) false (fun k => k.state = .negotiate || linkOn k) (fun s =>
    let h := helloOf payload
    let k := linkOf s sd
    if k.state = .negotiate then helloTaken s sd h
    else if h.slot == sideSlot s sd then putLink s sd (notePeer k h) else s)

/-- The registry entry of the slot at the far end of a link. -/
def peerEntry (s : State) (sd : Side) : RegEntry := (s.sec.registry[sideSlot s sd - 1]?).getD ⟨0, zeros 32⟩

/-- The verdict of R84 on a peer's key and signature. -/
def identAccepts (s : State) (sd : Side) (key sig : List Byte) : Bool :=
  let k := linkOf s sd
  let e := peerEntry s sd
  s.sec.storeOk && e.key != zeros 32 && key == e.key
    && edVerify key (identMessage k.nonceSent (sideSlot s sd) k.peerGen) sig

/-- Once both verdicts are there, link-up goes on with step 4 (Table 3.4). -/
def identReady (k : Link) : Link :=
  if k.state = .identity && k.identOk.isSome && k.identResult.isSome then { k with state := .time, syncRounds := 0 } else k

/-- The key that a peer presented (Table 17.14). -/
def notePeerKey (s : State) (sd : Side) (key : List Byte) : State := match sd with
  | .a => { s with sec := { s.sec with peerKeyA := key, peerSerialA := (peerEntry s sd).serial } }
  | .b => { s with sec := { s.sec with peerKeyB := key, peerSerialB := (peerEntry s sd).serial } }

/-- WEFT_IDENT (R84): the signature is judged, and IDENT_RESULT answers. -/
def execWeftIdent (sd : Side) (hdr : WeftHdr) (payload : List Byte) (s : State) : Host.Outcome State Fault Refusal :=
  takeFrame s sd hdr payload (· == 96) false (·.state = .identity) (fun s =>
    let key := payload.take 32
    let ok := identAccepts s sd key (payload.drop 32)
    let k := { linkOf s sd with identOk := some ok }
    putLink (notePeerKey s sd key) sd (identReady (linkQueue k 0x03 (lo32 s.epoch.no) [BitVec.ofNat 8 (b2n ok), 0, 0, 0])))

/-- WEFT_IDENT_RESULT (R84). A FOREIGN or STRANGER module runs its lanes on its own retained state (log entry 54). -/
def execWeftIdentResult (sd : Side) (hdr : WeftHdr) (payload : List Byte) (s : State) : Host.Outcome State Fault Refusal :=
  takeFrame s sd hdr payload (· == 4) false (·.state = .identity) (fun s =>
    let k := { linkOf s sd with identResult := some (leAt payload 0 1 == 1) }
    strangerCheck (putLink s sd (identReady k)))

/-- W(x) of R122 in units of 1/1250 µs. -/
def wireUnits (x : Nat) : Nat := x + 32 * ((x + 2023) / 2024)

/-- CU_BLOCKS (R122). -/
def cuBudget (s : State) : Nat := ((exchangeUs s.epoch - 4) * 1250 - wireUnits s.maps.rawDecl) / 4240

/-- The step of R87 at link-up: a module whose TB2 has never been synchronised steps to a peer that has been, and to the
larger value when neither has. No frame says whether a peer in STARTING has been synchronised: that is a free value (log
entry 55). -/
def linkStep (s : State) (k : Link) : State :=
  if s.weft.tb2Synced then s
  else
    let (n, s) := takeFree s
    let s' := { s with weft := { s.weft with tb2Synced := true } }
    if 0 < k.theta || k.peerState != 0 || (Config.freeWord n).getLsbD 0 then
      stepBase s' 2 (max ((tbFine s.time.tb[2].value : Int) + k.theta * 2 ^ 16) 0).toNat
    else s'

/-- The notice of a link that became STRANGER (Table 17.15). -/
def strangerNotice (s : State) (sd : Side) : State :=
  let key := match sd with
    | .a => s.sec.peerKeyA
    | .b => s.sec.peerKeyB
  postNotice s 0x0C 1 ([BitVec.ofNat 8 (sideBit sd)] ++ key.take 15)

/-- The end of link-up (Table 3.4, step 5): the link is UP, or STRANGER. -/
def linkUp (s : State) (sd : Side) : State :=
  let s := linkStep s (linkOf s sd)
  let k := linkOf s sd
  let ok := k.identOk == some true
  let s := putLink s sd { k with state := if ok then .up else .stranger, fresh := true, intact := true, silentEpochs := 0
                                 agree := 0, quiet := Vector.replicate 8 none }
  let s := reachStep { s with weft := { s.weft with cuBlocks := BitVec.ofNat 12 (cuBudget s) } } 8
  if ok then s else strangerNotice (weftEvent s 12) sd

/-- LINKUP_TB2_ROUND (R82): the next of the eight rounds starts. -/
def execLinkupTb2Round (sd : Side) (s : State) : Host.Outcome State Fault Refusal :=
  let k := linkOf s sd
  live s 2 (if k.state = .time && decide (k.syncRounds < 8) then sendSide s sd 0x04 (zeros 12) else s)

/-- Links whose offsets enter a TB2 target (R86): those of voters; without a voting group every link that is UP. -/
def syncLinks (s : State) : List Link :=
  (sides.filter (fun sd => (linkOf s sd).state = .up
    && (s.weft.voters == 0 || inMask s.weft.voters (sideSlot s sd)))).map (linkOf s)

/-- The TB2 target of R86 in units of 2^-16 ns, from the offsets that are new. -/
def syncTarget (s : State) : Option Int :=
  let os := ((syncLinks s).filter (·.thetaFresh)).map (·.theta)
  let voter := isVoter s || s.weft.voters == 0
  match os with
  | [a] => some (if voter then a / 2 else a)
  | [a, b] => some (if voter then median3 0 a b else (a + b) / 2)
  | _ => none

/-- The target goes to the servo of TB2 (R86, R274); step 9 of the start ends with one of at most 50 ns. -/
def syncServo (s : State) : State := match syncTarget s with
  | none => s
  | some t =>
    let used := fun (k : Link) => { k with thetaFresh := false }
    let s := { s with weft := { s.weft with a := used s.weft.a, b := used s.weft.b } }
    let s := if t.natAbs ≤ 50 * 2 ^ 16 then (if 8 ≤ s.boot.step.toNat then reachStep s 9 else s) else s
    let w := BitVec.ofInt 64 t
    servoMeasure (putTb s 2 { s.time.tb[2] with measLo := w.extractLsb' 0 32, measHi := w.extractLsb' 32 32 }) 2 t

/-- An exchange of the epoch ends (R85, R86): the target is taken once no other exchange is open. -/
def syncDone (s : State) : State :=
  if (syncLinks s).any (fun k => k.t1.isSome && !k.thetaFresh) then s else syncServo s

/-- The answer to a request (R85): t1, t2, and t3 as the frame leaves. -/
def syncAnswer (s : State) (sd : Side) (p : List Byte) : State :=
  let (n, t) := takeFree s
  sendSide t sd 0x04 (p.take 12 ++ stampBytes (stampAt s n) ++ zeros 12)

/-- An answer arrives (R85): t4 is stamped and θ follows. An offset of more than 50 ns sets TB2_OFS_HIGH (R86). -/
def syncResult (s : State) (sd : Side) (p : List Byte) : State :=
  let k := linkOf s sd
  let t := fun (i : Nat) => ((leAt p (12 * i) 12 : Nat) : Int)
  let (n, s) := takeFree s
  let theta := ((t 1 - t 0) - ((stampAt s n : Int) - t 2)) / 2
  if k.t1 != some (leAt p 0 12) then s
  else
    let k := { k with t1 := none, theta := theta, thetaValid := true }
    if k.state = .time then
      let s := putLink s sd { k with syncRounds := k.syncRounds + 1 }
      if 8 ≤ k.syncRounds + 1 then linkUp s sd else s
    else
      let s := putLink s sd { k with thetaFresh := true }
      syncDone (if 50 * 2 ^ 16 < theta.natAbs then weftEvent s 15 else s)

/-- WEFT_TB2_SYNC (R85): a request of 12 bytes is answered; an answer of 36 bytes completes the measurement. -/
def execWeftTb2Sync (sd : Side) (hdr : WeftHdr) (payload : List Byte) (s : State) : Host.Outcome State Fault Refusal :=
  takeFrame s sd hdr payload (fun n => n == 12 || n == 36) false
    (fun k => k.state = .time || k.state = .identity || linkOn k)
    (fun s => if payload.length = 12 then syncAnswer s sd payload else syncResult s sd payload)

/-- TB2_SYNC_SEND (R85): at B(n) + T_E/2 a request is made ready on each UP link. -/
def execTb2SyncSend (s : State) : Host.Outcome State Fault Refusal :=
  let at' := boundaryNs s.epoch + epochNs s.epoch / 2
  let s' := passUntil s 2 at'
  live s 2 (if s.epoch.running && !s.epoch.resync && reached s' 2 at' then
      sides.foldl (fun s sd => if (linkOf s sd).state = .up then sendSide s sd 0x04 (zeros 12) else s) s'
    else s)

/-- WEFT_NAK (R80): frames from the named SEQ on that can meet their deadline are made ready again. -/
def execWeftNak (sd : Side) (hdr : WeftHdr) (payload : List Byte) (s : State) : Host.Outcome State Fault Refusal :=
  takeFrame s sd hdr payload (· == 4) false (fun k => linkOn k && k.level = 3) (fun s =>
    let k := linkOf s sd
    let from' := BitVec.ofNat 32 (leAt payload 0 4)
    let again := (k.sent.filter (fun f => (f.seq == from' || seqAfter from' f.seq) && meetsDeadline s f
      && f.epochLo == lo32 s.epoch.no)).map (fun f => { f with resend := true })
    putLink s sd { k with txq := k.txq ++ again.filter (fun f => !k.txq.contains f) })

/-- WEFT_MAILBOX (R244): a request for MB22 or MB23, dropped and counted where the link is not UP. A response answers no request
of this module, which sends none. -/
def execWeftMailbox (sd : Side) (hdr : WeftHdr) (payload : List Byte) (s : State) : Host.Outcome State Fault Refusal :=
  takeFrame s sd hdr payload (fun _ => true) false (fun _ => true) (fun s =>
    let i := 22 + sideBit sd
    if servesPair s i && !bitOf (leAt payload 1 1) 0 then mboxArrive s i ⟨0, 0⟩ none payload else s)

end Sys2Proof.Machine
end

