-- ==== Sys2Proof/Machine/MemberOps.lean ====
section
/-! DEFINITION. Condemnation, self-exclusion, UNIT_SAFE, and the frames of an epoch as they arrive (chapter 3, R88,
R101, R106 to R111, R123, R125). -/

namespace Sys2Proof.Machine

open Sys2Proof

/-- An instant of the running epoch: time passes until TB2 reaches `ns`, and `f` acts if the instant comes and `ok`
holds (log entry 28). -/
def atInstant (s : State) (ns : Nat) (ok : Bool) (f : State → State) : Host.Outcome State Fault Refusal :=
  let t := passUntil s 2 ns
  live s 2 (if s.epoch.running && !s.epoch.resync && ok && reached t 2 ns then f t else s)

/-- The vote state set. -/
def toVote (s : State) (v : VoteState) : State := { s with weft := { s.weft with own := v } }

/-- A lane that a self-exclusion reloads (R535). -/
def markReload (ln : Lane) : Lane :=
  if ln.disabled || ln.image.isNone then ln else { ln with reloading := true }

/-- Self-exclusion (R109): outputs go safe, the own slot leaves V, and the lanes are to be reloaded; the fourth within
3600 s stays until a restart. -/
def selfExclude (s : State) : State :=
  let times := tb3 s :: liveFaults s s.weft.exclTimes
  let final := s.weft.exclFinal || decide (4 ≤ times.length)
  let t := outputsOff (weftEvent s 8)
  let t := { t with weft := { t.weft with
    own := .excluded, excludedNow := true, exclTimes := times, exclFinal := final, roleStarted := false
    voters := t.weft.voters &&& ~~~slotBit t.slot.toNat } }
  if final then t else mapLanes t (fun _ ln => markReload ln)

/-- The module counts itself condemned by the sibling of a side (R108); by both siblings, it excludes itself. -/
def condemned (s : State) (sd : Side) : State :=
  let k := linkOf s sd
  if k.condemnedBy then s
  else
    let t := putLink s sd { k with condemnedBy := true }
    let w := { t.weft with condemnedEpoch := true, byA := t.weft.a.condemnedBy, byB := t.weft.b.condemnedBy }
    let t := { t with weft := w }
    if w.byA && w.byB then selfExclude t else t

/-- The instant lies between V_c of epoch `e` and B(e+1) + 20 µs (R108). -/
def condemnWindow (s : State) (e : Nat) : Bool :=
  let b := (e + 1) * epochNs s.epoch
  decide (b ≤ tb2 s + 2000) && decide (tb2 s ≤ b + 20000)

/-- The instant lies in such a window of some epoch. -/
def inCondemnWindow (s : State) : Bool :=
  condemnWindow s ((tb2 s + 2000) / epochNs s.epoch - 1)

/-- CDN_IN_HIGH (R107, R108): the condemn line of a side goes high. A stuck line, and one from a stranger (R84), counts
for nothing. -/
def execCdnInHigh (sd : Side) (s : State) : Host.Outcome State Fault Refusal :=
  let k := linkOf s sd
  let t := putLink s sd { k with cdnIn := true }
  live s 2 (if isVoter s && !k.cdnStuck && k.state != .stranger && inCondemnWindow s then condemned t sd else t)

/-- CDN_IN_STUCK (R107): the line has been high for more than 100 µs. -/
def execCdnInStuck (sd : Side) (s : State) : Host.Outcome State Fault Refusal :=
  let k := linkOf s sd
  let t := putLink s sd { k with cdnIn := true, cdnStuck := true, cdnLowEpochs := 0 }
  let t := { t with weft := match sd with
    | .a => { t.weft with stuck0 := true }
    | .b => { t.weft with stuck1 := true } }
  let bit := 6 + sideBit sd
  live s 2 (if !k.cdnStuck then recordBit t 12 0x24 bit (2 ^ bit) 0xFF [] else s)

/-- The own line falls, and what was condemned is forgotten for the next epoch (R107). The sibling drops its line at the same
instant; one that is stuck is as high or low as it is, a free value (log entry 69). -/
def linesLow (k : Link) (n : Nat) : Link :=
  { k with cdnOut := false, cdnIn := k.cdnStuck && k.cdnIn && (Config.freeWord n).getLsbD 0, condemnedBy := false }

/-- CDN_OUT_RELEASE (R107 to R109): at B(n) + 20 µs the condemn lines fall, and a module condemned by one sibling alone
notes it. -/
def execCdnOutRelease (s : State) : Host.Outcome State Fault Refusal :=
  atInstant s (boundaryNs s.epoch + 20000) (s.epoch.phase = .exchange) (fun s =>
    let one := xor s.weft.a.condemnedBy s.weft.b.condemnedBy && isVoter s
    let (n, s) := takeFree s
    let (m, s) := takeFree s
    let t := { s with weft := { s.weft with a := linesLow s.weft.a n, b := linesLow s.weft.b m } }
    if one then weftNoted t 7 else t)

/-- The module enters UNIT_SAFE (R111): its outputs are safe. The next boundary releases the safe values. -/
def enterUnitSafe (s : State) : State :=
  if s.weft.own = .unitSafe then s
  else
    let s := weftEvent (outputsOff s) 9
    { s with weft := { s.weft with own := .unitSafe, unitSafeDone := false, roleStarted := false
                                   voters := s.weft.voters &&& ~~~slotBit s.slot.toNat } }

/-- A module that enters UNIT_SAFE tells both siblings, unless it has done so at V_c (R111). -/
def tellUnitSafe (s : State) : State :=
  if s.weft.own = .unitSafe || s.weft.disagreeRun = 3 then s else sendBoth s 0x22 (leBytes 8 s.epoch.no.toNat)

/-- WEFT_UNIT_SAFE (R111): a module that receives it enters the state as well, whatever the identity of the sender (R84 names
what a STRANGER's frames do not do, and this is not among them). -/
def execWeftUnitSafe (sd : Side) (hdr : WeftHdr) (payload : List Byte) (s : State) : Host.Outcome State Fault Refusal :=
  takeFrame s sd hdr payload (· == 8) false linkOn (fun s =>
    enterUnitSafe (tellUnitSafe (putLink s sd { linkOf s sd with unitSafe := true })))

/-- WEFT_CONDEMN (R108): the sibling condemns this module for an epoch in whose window the frame arrives. -/
def execWeftCondemn (sd : Side) (hdr : WeftHdr) (payload : List Byte) (s : State) : Host.Outcome State Fault Refusal :=
  takeFrame s sd hdr payload (· == 16) false (·.state = .up) (fun s =>
    if isVoter s && leAt payload 8 1 == s.slot.toNat && condemnWindow s (leAt payload 0 8) then condemned s sd else s)

/-- A sibling's raw image with a received part. -/
def putImage (s : State) (sd : Side) (off : Nat) (bs : List Byte) : State := match sd with
  | .a => { s with mem := { s.mem with rawA := memWrite s.mem.rawA off bs } }
  | .b => { s with mem := { s.mem with rawB := memWrite s.mem.rawB off bs } }

/-- WEFT_RAW (R78, R88): a part of the sibling's raw image, placed by its OFFSET. -/
def execWeftRaw (sd : Side) (hdr : WeftHdr) (payload : List Byte) (s : State) : Host.Outcome State Fault Refusal :=
  takeFrame s sd hdr payload (fun n => decide (4 < n)) true linkOn (fun s =>
    let off := leAt payload 0 4
    let bs := payload.drop 4
    let k := linkOf s sd
    if s.epoch.exchanged || decide (0x400000 < off + bs.length) then s
    else putImage (putLink s sd { k with rawParts := k.rawParts ++ [(off, bs.length)] }) sd off bs)

/-- WEFT_RX_REPORT (R88): a report counts until the source set is computed. -/
def execWeftRxReport (sd : Side) (hdr : WeftHdr) (payload : List Byte) (s : State) : Host.Outcome State Fault Refusal :=
  takeFrame s sd hdr payload (· == 12) true linkOn (fun s =>
    if s.epoch.sourced || leAt payload 0 8 != s.epoch.no.toNat then s
    else putLink s sd { linkOf s sd with rxReport := some (BitVec.ofNat 3 (leAt payload 8 1)) })

/-- A DIGEST frame of this epoch that arrives before V_c (R101, R123). NON_SAFE of the peer's HELLO stands (R103). -/
def digestTaken (s : State) (sd : Side) (d : DigestFrame) : State :=
  let k := linkOf s sd
  let t := putLink s sd { k with digest := some d, peerGen := d.imageGen }
  if d.flags.getLsbD 6 && s.weft.cuReceiver && s.weft.cuPeer.toNat == sideSlot s sd then
    { t with weft := { t.weft with cuComplete := true } }
  else t

/-- A digest of an observer is logged and never counted (R84, R118, Table 3.14): the frame, and the groups in which it equals
the deciding digest (log entry 100). -/
def digestLogged (s : State) (sd : Side) (d : DigestFrame) (equal : U16) : State :=
  putLink s sd { linkOf s sd with logged := some (d, equal) }

/-- A digest of this or the last epoch that comes after its V_c (R69). -/
def digestLate (s : State) (epoch : Nat) : Bool :=
  (epoch == s.epoch.no.toNat && s.epoch.phase = .release) || epoch + 1 == s.epoch.no.toNat

/-- WEFT_DIGEST (R69, R101): a digest that arrives after V_c is not counted and sets LATE_DIGEST; one of another epoch
is discarded (R78). -/
def execWeftDigest (sd : Side) (hdr : WeftHdr) (payload : List Byte) (s : State) : Host.Outcome State Fault Refusal :=
  takeFrame s sd hdr payload (· == 152) false linkOn (fun s =>
    let e := leAt payload 0 8
    let t := if digestLate s e then epochEvent s 17 else s
    if hdr.epochLo != lo32 s.epoch.no then frameDiscarded t sd
    else if digestLate s e || e != s.epoch.no.toNat then t
    else if (linkOf s sd).state = .stranger then digestLogged t sd (digestOf payload) 0
    else digestTaken t sd (digestOf payload))

/-- A received block overwrites the current copy only at the next boundary: admission counts again from a reset, and
the lane that owns the block runs (R125). -/
def stageBlock (s : State) (block : Nat) : Bool :=
  s.weft.cuAgain || s.lanes.lane.toList.any (fun ln => ln.resend && (laneBlocks ln).contains block)

/-- WEFT_CATCHUP (R123, R125): 1024 bytes of a retained block from the catch-up source. -/
def execWeftCatchup (sd : Side) (hdr : WeftHdr) (payload : List Byte) (s : State) : Host.Outcome State Fault Refusal :=
  takeFrame s sd hdr payload (· == 1032) true (·.state = .up) (fun s =>
    let block := leAt payload 0 2
    let chunk := leAt payload 2 1
    let at' := block * 4096 + chunk * 1024
    let bs := payload.drop 8
    if !s.weft.cuReceiver || s.weft.cuPeer.toNat != sideSlot s sd || s.epoch.exchanged || 256 ≤ block || 4 ≤ chunk then s
    else if stageBlock s block then { s with weft := { s.weft with cuStaged := s.weft.cuStaged ++ [(at', bs)] } }
    else { s with mem := { s.mem with retained := memWrite s.mem.retained at' bs } })

end Sys2Proof.Machine
end

