-- ==== Sys2Proof/Machine/EpochEvents.lean ====
section
/-! DEFINITION. The instants of an epoch between its boundaries: exchange end, source set, seal, warning, commit
deadline, digests, and the vote (chapters 2 and 3). -/

namespace Sys2Proof.Machine

open Sys2Proof

/-- The types of frames that the exchange window carries: RAW and CATCHUP. -/
def windowFrame (f : TxFrame) : Bool := f.type == 0x10 || f.type == 0x30

/-- The link serves no catch-up. -/
def served (k : Link) : Link := { k with isSource := false, tail := false, cuSent := false, dirty := [] }

/-- A link at the exchange end (R88, R123): the sibling's image is there or absent, and what the window did not carry stays
behind. A tail that has been sent ends the catch-up of a lane or of a module in admission; a module in CATCHUP is served
until its frames show that CU_COMPLETE has arrived. -/
def exchangeLink (s : State) (sd : Side) : Link :=
  let k := linkOf s sd
  let ok := rawComplete s sd
  let k := { k with rawOk := ok, txq := k.txq.filter (fun f => !windowFrame f)
                    absentCnt := if ok || bench s then k.absentCnt else satInc k.absentCnt }
  if k.isSource && k.tail && k.dirty.isEmpty then
    (if k.peerState == 6 || k.peerState == 7 then served k else { k with tail := false, cuSent := true })
  else k

/-- One side at the exchange end, with ABSENT_A or ABSENT_B. -/
def exchangeSide (s : State) (sd : Side) : State :=
  let k := exchangeLink s sd
  let t := putLink s sd k
  if k.rawOk || bench s then t else weftEvent t (2 + sideBit sd)

/-- The RX_REPORT payload (R88). -/
def rxReport (s : State) : List Byte :=
  leBytes 8 s.epoch.no.toNat ++ [BitVec.ofNat 8 (receivedMask s).toNat, 0, 0, 0]

/-- EXCHANGE_END (R88): at B(n) + t_X the images that are complete are known, and the report of them is sent. -/
def execExchangeEnd (s : State) : Host.Outcome State Fault Refusal :=
  atInstant s (boundaryNs s.epoch + exchangeUs s.epoch * 1000) (s.epoch.rawClosed && !s.epoch.exchanged) (fun s =>
    let t := sides.foldl exchangeSide { s with epoch := { s.epoch with exchanged := true } }
    sendBoth t 0x11 (rxReport t))

/-- The module holds every image of S. -/
def holdsAll (s : State) : Bool := maskSlots s.weft.sources |>.all (fun x => inMask (receivedMask s) x)

/-- SOURCE_SET_COMPUTE (R89, R90): S follows from the reports that are there 4 µs after the exchange end. -/
def execSourceSetCompute (s : State) : Host.Outcome State Fault Refusal :=
  atInstant s (boundaryNs s.epoch + exchangeUs s.epoch * 1000 + 4000) (s.epoch.exchanged && !s.epoch.sourced) (fun s =>
    let t := { s with weft := { s.weft with sources := sourceSet s }, epoch := { s.epoch with sourced := true } }
    let out := isVoter t && !inMask t.weft.sources t.slot.toNat
    let t := { t with weft := { t.weft with outOfSet := out } }
    let t := if out then weftEvent t 4 else t
    if out || !holdsAll t then abstainEpoch t else t)

/-- A lane at the seal (Table 2.8, R160): WAIT_SEAL enters COMPUTE, unless a rejoin copy still runs. -/
def sealLane (s : State) (l : LaneId) : State :=
  let ln := laneOf s l
  if ln.epochState != .waitSeal then s
  else if ln.mode = .rejoining then putLane s l { ln with sealSeen := true } else epochEntry s l

/-- The seal is too late (Table 2.19). -/
def sealTooLate (s : State) : Bool :=
  decide (boundaryNs s.epoch + (exchangeUs s.epoch + 10) * 1000 < tb2 s)

/-- Consolidation reads the images that it takes (R225). -/
def sourceReads (s : State) : State :=
  let own := bench s || inMask s.weft.sources s.slot.toNat
  let s := if own then touch s 0x0A 0 0x400000 else s
  sides.foldl (fun s sd =>
    if inMask s.weft.sources (sideSlot s sd) then touch s 0x0A (0x400000 + sideBit sd * 0x400000) 0x400000 else s) s

/-- The consolidated image is complete (R41, R92): phase COMPUTE. -/
def sealNow (s : State) : State :=
  let s := sourceReads s
  let mask := if bench s then 0 else s.weft.sources.toNat
  let (img, excess) := consolidate s (sourceImages s) mask
  let late := sealTooLate s
  let e := { s.epoch with sealed := true, phase := .compute, sealNs := BitVec.ofNat 32 (tb2 s - boundaryNs s.epoch)
                          abstainAll := s.epoch.abstainAll || late }
  let s := { s with mem := { s.mem with cons := img }, epoch := e }
  let s := if excess then epochEvent s 21 else s
  let s := if late then epochEvent s 16 else s
  (List.finRange 8).foldl sealLane s

/-- SEAL (R41): the consolidation of S is complete, at a time that the silicon decides. -/
def execSeal (s : State) : Host.Outcome State Fault Refusal :=
  live s 2 (if s.epoch.running && !s.epoch.resync && s.epoch.sourced && !s.epoch.sealed && s.epoch.phase = .exchange then
    sealNow s else s)

/-- BUDGET_EXHAUSTED becomes pending in a core of a lane in COMPUTE (R196): it has not yielded, and takes it once. -/
def warnCore (k : Core) : Core :=
  if k.suspended || k.bexTaken then k else { k with cr := { k.cr with status := k.cr.status ||| 0b01000 } }

/-- BUDGET_WARNING (R196): W(n). -/
def execBudgetWarning (s : State) : Host.Outcome State Fault Refusal :=
  atInstant s (warningNs s.epoch) (s.epoch.phase = .compute) (fun s => mapLanes s (fun _ ln =>
    if ln.epochState = .compute then { ln with l := warnCore ln.l, t := warnCore ln.t } else ln))

/-- COMMIT_LATE becomes pending in a core that has not yielded (R196). -/
def lateCore (k : Core) : Core :=
  if k.suspended then k else { k with cr := { k.cr with status := k.cr.status ||| 0b10000 } }

/-- A lane at D_c (R62, R63, R159): COMPUTE has overrun and is LATE, with a record (R31); of a SPLIT lane, a core's
accepted commit stands. -/
def deadlineLane (s : State) (l : LaneId) : State :=
  let ln := laneOf s l
  let pend := fun (ln : Lane) => { ln with l := lateCore ln.l, t := lateCore ln.t }
  match ln.epochState with
  | .compute =>
    let ovr := if ln.staleRejected then ln.ovrCnt else satInc ln.ovrCnt
    let t := putLane s l (pend { ln with epochState := .late, ovrCnt := ovr })
    let t := if ln.staleRejected then t else
      let t := epochEvent t l.val
      recordBit t 2 0x24 l.val t.epoch.event.toNat l.val []
    if isSplit ln then t else abstainLane t l
  | .late => putLane s l (pend ln)
  | _ => s

/-- COMMIT_DEADLINE (R62): D_c. -/
def execCommitDeadline (s : State) : Host.Outcome State Fault Refusal :=
  atInstant s (deadlineNs s.epoch) (s.epoch.phase = .exchange || s.epoch.phase = .compute) (fun s =>
    (List.finRange 8).foldl deadlineLane { s with epoch := { s.epoch with phase := .digest } })

/-- A group whose digest is computed in this epoch: enabled, its lane or core committed, and not abstained. -/
def digestDue (s : State) (g : GroupId) : Bool := match groupOn s g with
  | some d => groupCommitted s d && !s.epoch.abstainGroups.getLsbD g.val && !splitSafety s d
  | none => false

/-- Groups of committed lanes whose digests are not ready yet. -/
def digestMissing (s : State) : List GroupId :=
  allGroups.filter (fun g => digestDue s g && (s.weft.ownDigest[g]).isNone)

/-- The own audit digest, computed once in an epoch (R100); none where the slice holds an uncorrectable error (R226). -/
def withAudit (s : State) : State := match s.weft.ownAudit with
  | some _ => s
  | none =>
    let o := auditSlice s * 0x10000
    let bad := s.mem.upsets.any (fun u => u.double && upsetIn 0x0D o 0x10000 u)
    let s := touch s 0x0D o 0x10000
    if bad then s else { s with weft := { s.weft with ownAudit := some (auditDigest s) } }

/-- The digests of a lane's committed groups (R68, R99). -/
def laneDigests (s : State) (l : LaneId) : State :=
  let s := (groupsOf s l).foldl (fun s g => match groupOn s g with
    | some d => if digestDue s g then touch s 0x0C d.offset d.length else s
    | none => s) s
  let one := fun (g : GroupId) => match groupOn s g with
    | some d => if d.lane = l && digestDue s g then some (groupDigest s g d) else s.weft.ownDigest[g]
    | none => s.weft.ownDigest[g]
  { s with weft := { s.weft with ownDigest := Vector.ofFn one } }

/-- No lane can commit any more in this epoch, or none still computes. -/
def commitsDecided (s : State) : Bool :=
  s.lanes.lane.toList.all (fun ln => ln.epochState != .waitSeal && ln.epochState != .compute)

/-- DIGEST_READY (R68, R101): the digest engine has the digests of a committed lane. The frame goes out once those of
every committed lane are ready. -/
def execDigestReady (lane : LaneId) (s : State) : Host.Outcome State Fault Refusal :=
  let due := (groupsOf s lane).any (digestDue s)
  let before := s.epoch.phase = .compute || s.epoch.phase = .digest
  let t := laneDigests s lane
  live s 2 (if s.epoch.running && !s.epoch.resync && before && due && s.weft.ownFrame.isNone then
      (if commitsDecided t && (digestMissing t).isEmpty then sendDigest (withAudit t) else t)
    else s)

/-- OWN_DIGEST_DEADLINE (R69): at B(n+1) − 6 µs the module abstains in the groups whose digests are not ready, and the
frame goes out. -/
def execOwnDigestDeadline (s : State) : Host.Outcome State Fault Refusal :=
  atInstant s (boundaryNs s.epoch + epochNs s.epoch - 6000) (s.epoch.phase = .digest) (fun s =>
    let miss := digestMissing s
    let e := { s.epoch with abstainGroups := miss.foldl (fun m g => setBit m g.val) s.epoch.abstainGroups }
    let t := { s with epoch := e }
    let t := if miss.isEmpty then t else epochEvent t 18
    if t.weft.ownFrame.isSome then t else sendDigest (withAudit t))

/-- The outcomes of the groups and of the audit (R100, R102). -/
def decideAll (s : State) : State :=
  let nd := (allGroups.filter (fun g => (groupOn s g).isSome && (outcomeOf s g).1 = .noDecision)).length
  let audit := voteAudit s
  let w := { s.weft with
    outcome := Vector.ofFn (fun g => (outcomeOf s g).1)
    ownEqual := BitVec.ofNat 16 (bitsNum (allGroups.map (ownAgrees s)))
    auditOutcome := audit.1, auditEqual := audit.2.isSome && audit.2 == s.weft.ownAudit
    ndCnt := satAdd s.weft.ndCnt nd }
  let t := { s with weft := w }
  if nd = 0 then t else weftEvent t 5

/-- The CONDEMN payload (Table 3.11). -/
def condemnBytes (s : State) (slot : Nat) : List Byte :=
  leBytes 8 s.epoch.no.toNat ++ [BitVec.ofNat 8 slot
  , BitVec.ofNat 8 (b2n (dissentGroups s slot != 0) + 2 * b2n (dissentAudit s slot))]
    ++ leBytes 2 (dissentGroups s slot).toNat ++ zeros 4

/-- The slots that dissent in this epoch (R106): only with three voters. -/
def dissentMask (s : State) : BitVec 3 :=
  let vs := maskSlots s.weft.voters
  if vs.length = 3 then (vs.filter (dissents s)).foldl (fun m x => m ||| slotBit x) 0 else 0

/-- This module condemns a sibling: the frame on both links, and the line towards it (R107). -/
def condemnSlot (s : State) (slot : Nat) : State :=
  let t := sendBoth s 0x21 (condemnBytes s slot)
  match slotSide t slot with
  | some sd => putLink t sd { linkOf t sd with cdnOut := true, sentCondemn := true }
  | none => t

/-- What a voter condemns at V_c (R106, R107); the window of R108 opens. -/
def condemnAll (s : State) : State :=
  let clear := fun (k : Link) => { k with sentCondemn := false, condemnedBy := false }
  let m := dissentMask s
  let w := { s.weft with a := clear s.weft.a, b := clear s.weft.b, byA := false, byB := false, condemnedEpoch := false
                         dissent := m }
  let t := { s with weft := w }
  let hit := (maskSlots m).filter (· != t.slot.toNat)
  if !isVoter t || t.weft.stopped || hit.isEmpty then t
  else
    let t := hit.foldl condemnSlot t
    weftEvent { t with weft := { t.weft with dissentCnt := satInc t.weft.dissentCnt } } 6

/-- The count of R110. -/
def disagreeStep (s : State) : BitVec 2 :=
  let two := (maskSlots s.weft.voters).length = 2
  if isVoter s && two && safetyDiffer s then (if s.weft.disagreeRun = 3 then 3 else s.weft.disagreeRun + 1) else 0

/-- Catch-up has completed as receiver (R123): the frame of the source arrived by V_c. -/
def receiverDone (s : State) : State :=
  let waits := fun (ln : Lane) =>
    !ln.caughtUp && (ln.epochState = .diverged || (ln.epochState = .stopped && ln.image.isSome && !ln.disabled))
  let open' := s.weft.own = .catchup || s.weft.cuAgain || s.lanes.lane.toList.any (fun ln => waits ln || ln.resend)
  if !s.weft.cuComplete || !open' then s
  else
    let mark := fun (ln : Lane) =>
      { ln with caughtUp := ln.caughtUp || waits ln, resend := false }
    weftEvent (mapLanes { s with weft := { s.weft with cuAgain := false } } (fun _ ln => mark ln)) 13

/-- Whether the own digests of the epoch agree for the admission of the module: with the source's frame in a formation
(R119), with the deciding digests otherwise (R124). -/
def ownAdmission (s : State) : Option Bool :=
  if s.weft.formSource != 0 then
    if s.weft.formSource == s.slot then none
    else match s.weft.ownFrame, frameOf s s.weft.formSource.toNat with
      | some a, some b => some (framesAgree s a b)
      | _, _ => some false
  else admissionEpoch s (liveGroups s) true

/-- One epoch of an admission count held at 10. -/
def countTo10 (n : Nat) : Nat := min (n + 1) 10

/-- The own admission count after an epoch (R119, R124, R125): a count that is reset waits for catch-up again. -/
def admitOwn (s : State) : State :=
  if s.weft.own != .admitting || s.weft.cuAgain then s
  else
    let put := fun (n : Nat) (again : Bool) =>
      let t := { s with weft := { s.weft with admitCount := n, cuAgain := again } }
      mapLanes t (fun _ ln => if ln.disabled then ln else { ln with admits := n })
    match ownAdmission s with
    | some true => put (countTo10 s.weft.admitCount) false
    | some false => put 0 true
    | none => s

/-- A lane of a VOTER in admission (R124). -/
def laneAdmitting (ln : Lane) : Bool :=
  !ln.admitted && !ln.resend && (ln.epochState = .committed || ln.epochState = .late)

/-- The admission counts of the lanes of a VOTER after an epoch (R124, R125). -/
def admitLanes (s : State) : State :=
  if !isVoter s then s
  else mapLanes s (fun l ln =>
    if laneAdmitting ln then match admissionEpoch s (laneGroups s l) false with
      | some true => { ln with admits := countTo10 ln.admits }
      | some false => { ln with admits := 0, resend := true }
      | none => ln
    else ln)

/-- Whether a sibling's digests of the epoch agree (R119, R124). -/
def peerAdmission (s : State) (slot : Nat) : Option Bool :=
  if s.weft.formSource != 0 then
    if s.weft.formSource.toNat = slot then none
    else match frameOf s slot, frameOf s s.weft.formSource.toNat with
      | some a, some b => some (framesAgree s a b)
      | _, _ => some false
  else if s.weft.voters = 0 then none else peerAgrees s slot

/-- Every lane. -/
def allLanes : BitVec 8 := 0xFF

/-- This module serves a receiver from the start: every block of the lanes is dirty (R123). -/
def startServe (s : State) (k : Link) (lanes : BitVec 8) : Link :=
  { k with isSource := true, tail := false, cuSent := false, cuLanes := lanes, dirty := blocksOf s lanes }

/-- A sibling in CATCHUP or EXCLUDED that offers digests is ADMITTING in this epoch (Table 3.14): its catch-up is complete. -/
def peerOffers (k : Link) : Link :=
  if (k.peerState == 5 || k.peerState == 8) && offersSome k then
    { served k with peerState := 6, agree := 0, offeredLanes := 0 }
  else k

/-- A sibling's admission count after an epoch. Its source marks every block dirty when it is reset, and counts again from
when catch-up is complete (R125). -/
def admitPeer (s : State) (source : Bool) (sd : Side) : State :=
  let k := peerOffers (linkOf s sd)
  if k.state != .up || k.peerState != 6 then s
  else
    let seen := (k.digest.map (lanesOffered s)).getD 0
    let k := { k with offeredLanes := k.offeredLanes ||| seen }
    let t := putLink s sd k
    if k.isSource then t
    else match peerAdmission t (sideSlot s sd) with
      | some true => putLink t sd { k with agree := countTo10 k.agree }
      | some false =>
        let k := { k with agree := 0 }
        putLink t sd (if source then startServe s k allLanes else k)
      | none => t

/-- The digests of a FOREIGN sibling are compared and logged at V_c (R118). -/
def logForeign (s : State) (sd : Side) : State :=
  let k := linkOf s sd
  match k.digest with
  | some d =>
    if k.peerState == 4 then
      digestLogged s sd d (BitVec.ofNat 16 (bitsNum (allGroups.map (fun g =>
        d.offered.getLsbD g.val && (outcomeOf s g).2 == some d.digest[g]))))
    else s
  | none => s

/-- Lanes of a voting sibling that offer none of their groups (R124, log entry 53). -/
def quietAfter (s : State) (k : Link) (l : LaneId) : Option Nat :=
  let gs := laneGroups s l
  match k.digest with
  | none => k.quiet[l.val]
  | some d =>
    if gs.isEmpty || gs.any (fun g => d.offered.getLsbD g.val) then none
    else match k.quiet[l.val] with
      | none => some 0
      | some n => some (if k.isSource && k.cuLanes.getLsbD l.val then 0 else n + 1)

/-- The quiet lanes of a voting sibling after an epoch. -/
def notePeerQuiet (s : State) (sd : Side) : State :=
  let k := linkOf s sd
  if k.state = .up && inMask s.weft.voters (sideSlot s sd) then
    putLink s sd { k with quiet := Vector.ofFn (quietAfter s k) }
  else s

/-- A voter that is linked to a receiver, as this module knows it: directly, or from the voter's RX_REPORT of this epoch
or, before that has arrived, of the last. -/
def linkedTo (s : State) (v p : Nat) : Bool :=
  if v = s.slot.toNat then true
  else match linkTo s v with
    | some k => k.state = .up && inMask ((k.rxReport.orElse (fun _ => k.lastReport)).getD 0) p
    | none => false

/-- This module is the catch-up source for a slot (R121). -/
def sourceFor (s : State) (p : Nat) : Bool :=
  let w := s.weft
  !w.stopped && (if w.voters = 0 then w.own = .admitting && w.formSource != 0 && w.formSource == s.slot
    else isVoter s && ((maskSlots w.voters).find? (fun v => v != p && linkedTo s v p)) == some s.slot.toNat)

/-- The holder of the role, a sibling, still qualifies at V_c (R112, R114). -/
def roleHandsOver (s : State) : Bool :=
  let x := s.weft.roleSlot.toNat
  x != s.slot.toNat && inMask s.weft.voters x && !dissents s x && roleReady s x

/-- The count of R110; the third such epoch in a row sends UNIT_SAFE at V_c (R111, Table 3.2). -/
def noteDisagree (s : State) : State :=
  let n := disagreeStep s
  let t := { s with weft := { s.weft with disagreeRun := n } }
  if n = 3 && s.weft.disagreeRun != 3 then sendBoth t 0x22 (leBytes 8 s.epoch.no.toNat) else t

/-- VOTE_CLOSE (R102 to R112, R123 to R125): V_c. -/
def voteClose (s : State) : State :=
  let s := condemnAll (decideAll s)
  let next := roleChoice s
  let s := { s with weft := { s.weft with roleNext := next, handover := next == s.slot && roleHandsOver s } }
  let s := noteDisagree s
  let s := receiverDone (admitLanes (admitOwn s))
  let s := sides.foldl (fun s sd => logForeign (notePeerQuiet (admitPeer s (sourceFor s (sideSlot s sd)) sd) sd) sd) s
  { s with epoch := { s.epoch with phase := .release } }

/-- VOTE_CLOSE. -/
def execVoteClose (s : State) : Host.Outcome State Fault Refusal :=
  atInstant s (boundaryNs s.epoch + epochNs s.epoch - 2000) (s.epoch.phase = .digest) voteClose

end Sys2Proof.Machine
end

