-- ==== Sys2Proof/Machine/BoundaryOps.lean ====
section
/-! DEFINITION. What a boundary does to V and to the vote states (chapter 3, Table 3.15), to the lanes (Table 2.8) and
to the retained and exchange area (Table 2.6). -/

namespace Sys2Proof.Machine

open Sys2Proof

/-- A slot stays in V over the boundary (R90, R106): in S, not condemned by both others, and still a VOTER by what it
reports. The own slot leaves by its own transitions. -/
def staysVoter (s : State) (x : Nat) : Bool :=
  if x = s.slot.toNat then !s.weft.outOfSet && !s.weft.withdrawReq && s.weft.bothDown < 2
  else inMask s.weft.sources x && !inMask s.weft.dissent x && match linkTo s x with
    | some k => k.peerState == 7
    | none => false

/-- A sibling that joins V: a voter admits it (R124); a module outside V sees a sibling that reports VOTER. -/
def joinsVoters (s : State) (x : Nat) : Bool := match linkTo s x with
  | some k =>
    x != s.slot.toNat && k.state = .up && !inMask s.weft.voters x
      && ((s.weft.voters != 0 && k.peerState == 6 && decide (10 ≤ k.agree) && k.peerGen == s.weft.voteGen
            && !heldAsStranger s x && s.weft.formSource == 0)
          || (!isVoter s && k.peerState == 7))
  | none => false

/-- The own slot joins V (R124). -/
def ownJoins (s : State) : Bool :=
  s.weft.own = .admitting && s.weft.voters != 0 && s.weft.formSource == 0 && s.boot.imageGen == s.weft.voteGen
    && decide (10 ≤ s.weft.admitCount) && !heldAsStranger s s.slot.toNat

/-- V as it stands after those that leave and those that join, before a dissolution. -/
def votersNext (s : State) : BitVec 3 :=
  [1, 2, 3].foldl (fun m x =>
    if (inMask s.weft.voters x && staysVoter s x) || joinsVoters s x || (x == s.slot.toNat && ownJoins s) then
      m ||| slotBit x
    else m) 0

/-- V is dissolved with fewer than two members (R119). A module outside V that sees one sibling alone cannot tell. -/
def dissolves (s : State) (v : BitVec 3) : Bool :=
  let n := (maskSlots v).length
  n = 0 || (n = 1 && (isVoter s || sides.all (fun sd => (linkOf s sd).state = .up)))

/-- Whether a slot takes part in a formation, and its generation (R119): in STARTING or FOREIGN, or in the CATCHUP or
ADMITTING that it entered through a formation. A FOREIGN module with a rewritten bank takes none (R467). -/
def eligible (s : State) (x : Nat) : Option U32 :=
  if x = s.slot.toNat then
    let on := match s.weft.own with
      | .starting => true
      | .foreign => bankValid s
      | .catchup => s.weft.viaForm
      | .admitting => s.weft.viaForm
      | _ => false
    if on then some s.boot.imageGen else none
  else match linkTo s x with
    | some k =>
      if k.state = .up && (k.peerState == 0 || k.peerState == 4 || ((k.peerState == 5 || k.peerState == 6) && k.viaForm)) then
        some k.peerGen
      else none
    | none => none

/-- The formation source still is one (R119): it is ADMITTING, and linked. -/
def sourceHolds (s : State) : Bool :=
  let x := s.weft.formSource.toNat
  x != 0 && (if x = s.slot.toNat then s.weft.own = .admitting else match linkTo s x with
    | some k => k.state = .up && k.peerState == 6
    | none => false)

/-- The formation source from this boundary on: it stays, or the lowest eligible slot that shares its generation with
another (R119). -/
def sourceNext (s : State) : BitVec 2 :=
  if sourceHolds s then s.weft.formSource
  else BitVec.ofNat 2 (([1, 2, 3].find? (fun x => match eligible s x with
    | some g => [1, 2, 3].any (fun y => y != x && eligible s y == some g)
    | none => false)).getD 0)

/-- The agreeing epochs of a slot in the formation. -/
def formAgree (s : State) (x : Nat) : Nat :=
  if x = s.slot.toNat then (if s.weft.own = .admitting then s.weft.admitCount else 0)
  else match linkTo s x with
    | some k => if k.state = .up && k.peerState == 6 then k.agree else 0
    | none => 0

/-- The forming set: the source, and those that agreed with it for ten epochs (R119). -/
def formingSet (s : State) : BitVec 3 :=
  let src := s.weft.formSource.toNat
  if !sourceHolds s then 0
  else [1, 2, 3].foldl (fun m x => if x = src || 10 ≤ formAgree s x then m ||| slotBit x else m) 0

/-- A sibling's vote state as this module infers it at a boundary: `v` is the new V, `src` the formation source. -/
def peerNext (s : State) (v : BitVec 3) (gen : U32) (src : Nat) (sd : Side) : BitVec 4 :=
  let k := linkOf s sd
  let x := sideSlot s sd
  let st := k.peerState
  let left : BitVec 4 := if st != 7 then st else if v = 0 then 0 else if inMask s.weft.dissent x then 8 else 5
  if k.state != .up then st
  else if inMask v x then 7
  else if v = 0 then
    if src = 0 then left
    else if src = x then 6
    else if (left == 0 || left == 4) && some k.peerGen == eligible s src then 5 else left
  else if left == 0 || left == 4 then (if k.peerGen == gen then 5 else 4)
  else left

/-- The lanes go on with the module's own retained state; those of an unconfigured module stay STOPPED (R473). -/
def allCaughtUp (s : State) : State :=
  if s.boot.unconfigured then s
  else mapLanes s (fun _ ln => if ln.image.isSome && !ln.disabled then { ln with caughtUp := true } else ln)

/-- The module enters CATCHUP: its lanes wait for their blocks. -/
def enterCatchup (s : State) : State :=
  let s := mapLanes s (fun _ ln => { ln with caughtUp := false, admits := 0, admitted := false, resend := false })
  { s with weft := { s.weft with own := .catchup, admitCount := 0, cuAgain := false, excludedNow := false } }

/-- The module enters ADMITTING. -/
def enterAdmitting (s : State) : State :=
  reachStep { s with weft := { s.weft with own := .admitting, admitCount := 0, cuAgain := false } } 10

/-- A lane that runs at a boundary. -/
def laneRunsOn (ln : Lane) : Bool := ln.epochState = .committed || ln.epochState = .waitSeal

/-- The module enters VOTER (R105, R124): it has released nothing yet, and the groups of its running lanes are offered. -/
def enterVoter (s : State) : State :=
  let s := mapLanes s (fun _ ln => { ln with admitted := laneRunsOn ln, admits := if laneRunsOn ln then 10 else 0 })
  weftEvent (reachStep { s with weft := { s.weft with
    own := .voter, everReleased := 0, disagreeRun := 0, roleStarted := false } } 11) 14

/-- What a boundary knows for the rows of Table 3.15. -/
structure MemberView where
  /-- V from this boundary on. -/
  v : BitVec 3
  /-- Its generation, 0 for none. -/
  gen : U32
  /-- The formation source. -/
  src : Nat
  /-- V is dissolved whether or not this module withdraws. -/
  gone : Bool
deriving DecidableEq, Repr

/-- A VOTER at a boundary, by the rows of Table 3.15 in their order (R116). A dissolution that its own withdrawal causes comes
after the withdrawal (log entry 56). -/
def voterNext (s : State) (m : MemberView) : State :=
  let w := s.weft
  if w.disagreeRun = 3 then enterUnitSafe s
  else if m.v = 0 && (m.gone || !w.withdrawReq) then toVote s .starting
  else if w.outOfSet || 2 ≤ w.bothDown then enterCatchup s
  else if w.withdrawReq then toVote s .withdrawn
  else if inMask m.v s.slot.toNat then s else enterCatchup s

/-- The own vote state at a boundary, by the rows of Table 3.15 (R116). While the image bank is not VALID, WITHDRAWN and FOREIGN
are left by a restart alone (R467). -/
def ownNext (s : State) (m : MemberView) : State :=
  let w := s.weft
  let mine := m.gen == s.boot.imageGen
  let led := m.src != 0 && m.src != s.slot.toNat && eligible s m.src == some s.boot.imageGen
  let lead := m.src != 0 && m.src == s.slot.toNat
  match w.own with
  | .voter => voterNext s m
  | .starting =>
    if strangerEverywhere s then toVote s .stranger
    else if m.v != 0 then (if mine then enterCatchup s else allCaughtUp (toVote s .foreign))
    else if led then enterCatchup s
    else if lead then allCaughtUp (enterAdmitting s) else s
  | .foreign =>
    if !bankValid s then allCaughtUp s
    else if m.v != 0 then (if mine then enterCatchup s else allCaughtUp s)
    else if lead then allCaughtUp (enterAdmitting s)
    else if led then enterCatchup s else allCaughtUp s
  | .catchup =>
    if w.cuComplete then enterAdmitting s
    else if m.v = 0 && lead then allCaughtUp (enterAdmitting s) else s
  | .admitting =>
    if inMask m.v s.slot.toNat then enterVoter s else if lead then allCaughtUp s else s
  | .withdrawn =>
    if !bankValid s then s
    else if m.v != 0 && !mine then allCaughtUp (toVote s .foreign)
    else if w.rejoinReq then (if m.v != 0 then enterCatchup s else toVote s .starting)
    else s
  | .excluded => leaveExcluded s
  | .bench => allCaughtUp s
  | .stranger => allCaughtUp s
  | .unconfigured => s
  | .unitSafe => s

/-- Counts whole epochs with both links DOWN (Table 3.15). -/
def noteLinksDown (s : State) : State :=
  let both := s.weft.a.state = .down && s.weft.b.state = .down
  { s with weft := { s.weft with bothDown := if both then s.weft.bothDown + 1 else 0 } }

/-- The generation of V (R118): the own one for a member, else that of its lowest member. -/
def genOf (s : State) (v : BitVec 3) : U32 :=
  if inMask v s.slot.toNat then s.boot.imageGen
  else match (maskSlots v).findSome? (fun x => (linkTo s x).map (·.peerGen)) with
    | some g => g
    | none => 0

/-- V, the formation and the vote states at a boundary (R116, R118, R119, R124). -/
def members (s : State) : State :=
  let formed := formingSet s
  let join := votersNext s
  let v := if dissolves s join then (if (maskSlots formed).length ≥ 2 then formed else 0) else join
  let gen := genOf s v
  let src := if v = 0 then (sourceNext s).toNat else 0
  let admitted := (maskSlots v).any (fun x => x != s.slot.toNat && !inMask s.weft.voters x && isVoter s)
  let pa := peerNext s v gen src .a
  let pb := peerNext s v gen src .b
  let gone := dissolves s (votersNext { s with weft := { s.weft with withdrawReq := false } })
  let t := ownNext s ⟨v, gen, src, gone⟩
  let v := if isVoter t then v else v &&& ~~~slotBit t.slot.toNat
  let other := BitVec.ofNat 2 src != s.weft.formSource
  let forming := fun (st : BitVec 4) => st == 5 || st == 6
  let peer := fun (k : Link) (st : BitVec 4) =>
    { k with peerState := st, agree := if other || st != 6 || k.peerState != 6 then 0 else k.agree
             viaForm := v = 0 && forming st && (k.viaForm || !forming k.peerState) }
  let joins := fun (o : VoteState) => o = .catchup || o = .admitting
  let via := v = 0 && joins t.weft.own && (s.weft.viaForm || s.weft.own = .starting || s.weft.own = .foreign)
  let w := { t.weft with voters := v, viaForm := via, voteGen := if v = 0 then 0 else gen, formSource := BitVec.ofNat 2 src
                         admitCount := if other then 0 else t.weft.admitCount
                         a := peer t.weft.a pa, b := peer t.weft.b pb }
  let t := { t with weft := w }
  let t := if w.voteGen = s.weft.voteGen then t else weftEvent t 11
  let t := if isVoter s && !isVoter t then outputsOff t else t
  if admitted then weftEvent t 14 else t

/-- A lane's exchange shadow was accepted (R60, R159): the commit of L, which both cores of a PAIRED lane share, whatever
state the lane has entered since. -/
def exchangeAccepted (ln : Lane) : Bool := ln.l.committed

/-- A lane whose published block becomes STALE without an accepted commit (R60): it holds a lane image. A lane that is STOPPED
and not DISABLED has none loaded (Table 2.7). -/
def goesStale (ln : Lane) : Bool := ln.image.isSome && (ln.epochState != .stopped || ln.disabled)

/-- The exchange area of one lane at a boundary (R57, R60): published, or the shadow falls back. -/
def exchangeLane (s : State) (l : LaneId) : State :=
  let ln := laneOf s l
  let at' := l.val * 0x10000
  if exchangeAccepted ln then
    let right := fun (u : Upset) => u.loc.area == 0x0D && decide (0x200000 + at' ≤ u.loc.offset)
      && decide (u.loc.offset < 0x210000 + at')
    putLane { s with mem := { rewritten s.mem right with published := memCopy s.mem.published at' s.mem.shadow at' 0x10000 } } l
      { ln with publishedStale := false }
  else
    putLane { s with mem := { s.mem with shadow := memCopy s.mem.shadow at' s.mem.published at' 0x10000 } } l
      { ln with publishedStale := ln.publishedStale || goesStale ln }

/-- The retained blocks at a boundary (R57, R123, R125): the copies of committed cores become current, and dirty for a
receiver that has the lane's blocks; blocks received in a reset admission follow. -/
def commitRetained (s : State) : State :=
  let now := comingCurrent s
  let cur := now.foldl (fun m b => memCopy m (b * 4096) s.mem.working (b * 4096) 4096) s.mem.retained
  let cur := s.weft.cuStaged.foldl (fun m p => memWrite m p.1 p.2) cur
  let staged := s.weft.cuStaged.map (fun p => p.1 / 4096)
  let right := fun (u : Upset) => u.loc.area == 0x0D && (let o := u.loc.offset
    if o < 0x100000 then now.contains (o / 4096) || staged.contains (o / 4096)
    else decide (o < 0x200000) || decide (0x280000 ≤ o))
  let dirt := fun (k : Link) =>
    if k.isSource then
      { k with dirty := (List.range 256).filter (fun b => k.dirty.contains b
                 || (now.contains b && (blocksOf s k.cuLanes).contains b)) }
    else k
  { s with mem := { rewritten s.mem right with retained := cur, working := [], written := []
                                               lostBlocks := s.mem.lostBlocks.filter (fun b => !staged.contains b) }
           weft := { s.weft with cuStaged := [], a := dirt s.weft.a, b := dirt s.weft.b } }

/-- A core at a boundary: its flags of the epoch fall. -/
def coreBoundary (k : Core) : Core :=
  { k with committed := false, rejected := false, yieldCommit := false, bexTaken := false, cadTaken := false
           cr := { k.cr with status := k.cr.status &&& 0b00111 } }

/-- A core whose Firn windows start again (Table 4.9). -/
def freshWindows (k : Core) : Core :=
  { k with sig := 0, entry := [], wseq := 0, wcount := 0, wstart := k.retired, closed := [], sinceDrain := 0 }

/-- A committed lane takes the mode that stood at its commit (R157, R160, Table 4.11). -/
def laneMode (ln : Lane) : Lane :=
  if ln.mode = .paired && ln.modeTaken == 1 then
    { ln with mode := .split, drift := [], drain := none, l := freshWindows ln.l, t := freshWindows ln.t }
  else if ln.mode = .split && ln.modeTaken == 0 then
    { ln with mode := .rejoining, rejoinDone := false, sealSeen := false }
  else ln

/-- A lane that waits for catch-up again. -/
def laneDiverged (ln : Lane) : Lane :=
  { haltLane ln with epochState := .diverged, admits := 0, admitted := false, resend := false, faultPending := false }

/-- A lane's own state is loaded from its image, and it enters WAIT_SEAL (R64, Table 2.8). -/
def laneRestart (s : State) (l : LaneId) : State := match (laneOf s l).image with
  | some im =>
    let s := loadLane s l im
    putLane s l { laneOf s l with epochState := .waitSeal }
  | none => s

/-- One lane at a boundary (Table 2.8): `wait` says that the module waits for catch-up of its whole retained state. -/
def laneBoundary (wait : Bool) (s : State) (l : LaneId) : State :=
  let ln := laneOf s l
  let ran := ln.epochState = .committed || ln.epochState = .late
  let ln := { ln with
    l := coreBoundary ln.l, t := coreBoundary ln.t, readStale := false, staleRejected := false
    retiredLast := if ran then BitVec.ofNat 32 (min (ln.l.retired - ln.retiredAtSeal).toNat 0xFFFFFFFF) else ln.retiredLast }
  let s := putLane s l ln
  let rest := fun (ln : Lane) => rackForget (rackBreakLane (putLane s l (laneDiverged ln)) l) l
  match ln.epochState with
  | .committed =>
    if ln.faultPending then
      putLane s l { haltLane ln with epochState := if ln.disabled then .stopped else .faulted, faultPending := false
                                     admits := 0, admitted := false, resend := false }
    else if wait then rest ln
    else
      let next := laneMode ln
      let t := putLane s l { next with epochState := .waitSeal }
      if next.mode = ln.mode then t else laneEvent t (24 + l.val)
  | .late => rest ln
  | .waitSeal => if wait then rest ln else s
  | .compute => if wait then rest ln else s
  | .diverged => if ln.caughtUp then laneRestart s l else s
  | .stopped => if ln.caughtUp && !ln.disabled then laneRestart s l else s
  | .faulted => s
  | .shed => s

/-- A lane whose tenth agreeing epoch has ended is admitted (R124). -/
def laneAdmitted (s : State) (l : LaneId) : State :=
  let ln := laneOf s l
  if isVoter s && !ln.admitted && 10 ≤ ln.admits && ln.epochState = .waitSeal then
    weftEvent (putLane s l { ln with admitted := true }) 14
  else s

/-- What the boundary reads of the retained and exchange area meets the errors that are there (R226, R227): the working copies and
the exchange shadows that become current. -/
def areaReads (s : State) : State :=
  let s := (comingCurrent s).foldl (fun s b => touch s 0x0D (0x100000 + b * 4096) 4096) s
  (List.finRange 8).foldl (fun s (l : LaneId) =>
    if exchangeAccepted (laneOf s l) then touch s 0x0D (0x280000 + l.val * 0x10000) 0x10000 else s) s

/-- The lanes of a boundary, after the retained and exchange area. -/
def lanesBoundary (s : State) : State :=
  let s := areaReads s
  let s := (List.finRange 8).foldl exchangeLane (commitRetained s)
  let s := (List.finRange 8).foldl (laneBoundary (s.weft.own = .catchup)) s
  (List.finRange 8).foldl laneAdmitted s

/-- A request of a lane that rang, and the deliveries that a raw image holds (R245, R248, Table 7.4): `ok` says that the
lane's commit was accepted. -/
def mboxLane (ok : Bool) (s : State) (i : Nat) : State :=
  let p := pairAt s i
  let p' := if p.latched then { p with latched := false, undelivered := false
                                       state := if i % 2 = 0 && p.state = .done then .idle else p.state } else p
  let s := putPair s i p'
  if i % 2 = 0 && p'.state = .armed then
    if ok then putPair s i { p' with state := .pending } else mboxEvent (mboxWithdraw s i) 2
  else s

/-- The lane pairs at a boundary; `ok` are the lanes with an accepted commit. -/
def mboxBoundary (s : State) (ok : List Bool) : State :=
  (List.range 16).foldl (fun s i => mboxLane (ok[i / 2]?.getD false) s i) s

/-- EPOCH_CLEAR_COUNTERS takes effect (R75). -/
def clearEpoch (s : State) : State := match s.epoch.clearReq with
  | none => s
  | some r =>
    let s := mapLanes s (fun l ln => if r.mask.getLsbD l.val then { ln with ovrCnt := 0, margins := [] } else ln)
    { s with epoch := { s.epoch with clearReq := none, lateItems := if r.lateItems then 0 else s.epoch.lateItems } }

/-- The accepted requests of Table 3.27 that are not vote state changes (R127, R128). -/
def weftRequests (s : State) : State :=
  let w := s.weft
  let clear := fun (b : Nat) (k : Link) =>
    if w.clearMask.getLsbD b then { k with crcErr := 0, retx := 0, absentCnt := 0 } else k
  let resume := BitVec.ofNat 16 (bitsNum (allGroups.map (fun g => w.resumeMask.getLsbD g.val && w.safe.getLsbD g.val
    && match s.maps.group[g] with
      | some d => d.safeLatch
      | none => false)))
  let c := w.clearMask.getLsbD 2
  { s with weft := { w with a := clear 0 w.a, b := clear 1 w.b, dissentCnt := if c then 0 else w.dissentCnt
                            ndCnt := if c then 0 else w.ndCnt, latched := w.latched &&& ~~~resume, resumeMask := 0
                            clearMask := 0 } }

/-- One link as the next epoch begins: what belonged to the old one goes (R78, R80, R81, R107). -/
def linkBoundary (k : Link) : Link :=
  let old := fun (f : TxFrame) => f.type == 0x10 || f.type == 0x11 || f.type == 0x20 || f.type == 0x30
  { k with rawParts := [], rawOk := false, rxReport := none, lastReport := k.rxReport, digest := none, fresh := false, sent := [], t1 := none
           txq := k.txq.filter (fun f => !old f), intact := false
           silentEpochs := if linkOn k && !k.intact then k.silentEpochs + 1 else 0
           cdnLowEpochs := if k.cdnStuck && !k.cdnIn then k.cdnLowEpochs + 1 else 0
           cdnStuck := k.cdnStuck && (k.cdnIn || k.cdnLowEpochs == 0) }

/-- Lanes of a voting sibling that its catch-up source serves now (log entry 53). -/
def quietLanes (k : Link) : BitVec 8 :=
  BitVec.ofNat 8 (bitsNum (k.quiet.toList.map (fun q => match q with
    | some n => n == 0 || decide (11 ≤ n)
    | none => false)))

/-- What a link serves from this boundary on (R121, R123, R124). -/
def serveLink (s : State) (sd : Side) : State :=
  let k := linkOf s sd
  let x := sideSlot s sd
  let idle := served { k with cuLanes := 0 }
  if k.state != .up || !sourceFor s x || k.peerGen != s.boot.imageGen then putLink s sd idle
  else if inMask s.weft.voters x then
    let q := quietLanes k
    let more := q &&& ~~~(if k.isSource && !k.tail then k.cuLanes else 0)
    if more = 0 then s
    else
      let base : BitVec 8 := if k.isSource && !k.tail then k.cuLanes else 0
      let new := (List.range 256).filter (fun b => k.dirty.contains b || (blocksOf s more).contains b)
      putLink s sd { k with isSource := true, tail := false, cuSent := false, cuLanes := base ||| more, dirty := new
                            quiet := k.quiet.map (fun q => q.map (fun n => if 11 ≤ n then 0 else n)) }
  else if (k.peerState == 5 || k.peerState == 8) && !k.isSource then putLink s sd (startServe s k allLanes)
  else if k.peerState == 5 || k.peerState == 6 || k.peerState == 8 then s
  else putLink s sd idle

/-- The CATCHUP payloads of a block (Table 3.2). -/
def catchupFrames (m : Mem) (b : Nat) : List (List Byte) :=
  [0, 1, 2, 3].map (fun (c : Nat) =>
    leBytes 2 b ++ [BitVec.ofNat 8 c, 0] ++ zeros 4 ++ memBytes m (b * 4096 + c * 1024) 1024)

/-- The blocks that this window carries: at most CU_BLOCKS, in ascending order (R122, R123). -/
def catchupSend (s : State) (sd : Side) : State :=
  let k := linkOf s sd
  if !k.isSource then s
  else
    let bs := k.dirty.take s.weft.cuBlocks.toNat
    let s := bs.foldl (fun s b => touch s 0x0D (b * 4096) 4096) s
    (bs.flatMap (catchupFrames s.mem.retained)).foldl (fun s p => sendSide s sd 0x30 p) s

/-- The module is a receiver, and from whom (R121). -/
def receiverView (s : State) : Bool × BitVec 2 :=
  let w := s.weft
  let lane := s.lanes.lane.toList.any (fun ln => (ln.epochState = .diverged && !ln.caughtUp) || ln.resend)
  let needs := w.own = .catchup || w.own = .admitting || (isVoter s && lane)
  let up := fun (x : Nat) => match linkTo s x with
    | some k => k.state = .up
    | none => false
  let src := if w.voters = 0 then w.formSource.toNat
    else ((maskSlots w.voters).find? (fun x => x != s.slot.toNat && up x)).getD 0
  if needs && src != 0 && src != s.slot.toNat && up src then (true, BitVec.ofNat 2 src) else (false, 0)

/-- Catch-up at a boundary, as source and as receiver. -/
def catchupBoundary (s : State) : State :=
  let s := sides.foldl serveLink s
  let r := receiverView s
  let s := { s with weft := { s.weft with cuReceiver := r.1, cuPeer := r.2, cuComplete := false } }
  sides.foldl catchupSend s

end Sys2Proof.Machine
end

