-- ==== Sys2Proof/Machine/Boundary.lean ====
section
/-! DEFINITION. The boundary B(n), raw close, and the start of the active role (chapters 2 and 3). -/

namespace Sys2Proof.Machine

open Sys2Proof

/-- The released sync word of R431: only when its group released the own committed values. -/
def syncWord (s : State) : Nat := match s.muslin.syncWord with
  | none => 0
  | some o =>
    let own := allGroups.any (fun g => match s.maps.group[g] with
      | some d => d.offset ≤ o && o < d.offset + d.length && s.weft.released.getLsbD g.val
      | none => false)
    if own then ofLe (releasedBytes s o 2) else 0

/-- The module starts no function of the active role in this epoch (R108), or does not hold it. -/
def roleLost (s : State) (holder : BitVec 2) : Bool := holder != s.slot || s.weft.condemnedEpoch || !isVoter s

/-- The holder chosen at V_c takes the role (R112, R113). A role that an earlier holder hands over starts at the boundary
(R114); otherwise ROLE_START follows. A SHARED rack bus is given up with the role. -/
def roleBoundary (s : State) : State :=
  let w := s.weft
  let on := !roleLost s w.roleNext && (w.roleStarted || (w.handover && !w.stopped && !s.mbox.failed))
  let t := { s with weft := { w with roleSlot := w.roleNext, roleStarted := on, handover := false } }
  let t := if rackDrives s && !rackDrives t then rackYield t else t
  if w.roleNext = w.roleSlot then t else weftEvent t 10

/-- The rack write list of a boundary at which WL_GROUP is released (R334). -/
def rackBoundary (s : State) (epoch : Word) : State := match s.rack.map with
  | some m =>
    if m.wlLength = 0 || (s.maps.group[m.wlGroup]?).join.isNone then s
    else rackRelease s epoch (releasedBytes s m.wlOffset m.wlLength)
  | none => s

/-- The module sends what it released at this boundary: Selvedge runs (Tables 1.5, 3.14). -/
def publishes (s : State) (live : Bool) : Bool := live && !s.mbox.failed

/-- Publications, which a VOTER alone builds, and MVB and CAN data of one scope (R301, R312, R313). -/
def publishScope (s : State) (unit : Bool) : State :=
  canObjects (mvbSources (if isVoter s then publishAll s unit else s) unit) unit

/-- What the networks take at a boundary. `live` says that values were released, `epoch` is the epoch that ended, and
`started` says that the module starts the active role at this boundary (R114, R296). -/
def netBoundary (s : State) (live started : Bool) (epoch : Word) : State :=
  let s := ringGates (takeTopo (dropUnsent s))
  let s := if publishes s live then publishScope s false else s
  let s := if publishes s live && isHolder s then publishScope s true else s
  let s := if started then ([0, 1, 2, 3] : List (Fin 4)).foldl gratuitousArp s else s
  let s := if publishes s live then outboxSend s (fun unit => !unit || isHolder s) else s
  let s := rackTake (routeSwap s)
  if live then rackBoundary s epoch else s

/-- The safe values of UNIT_SAFE are released at this boundary (R111). -/
def releasesOnce (s : State) : Bool := s.weft.own = .unitSafe && !s.weft.unitSafeDone

/-- The boundary of the outputs (R104, R111, R368, R395): values, then the frames to the field sides. `live` says that values
are released. -/
def releaseBoundary (s : State) (live : Bool) : State :=
  let s := roleBoundary (releaseValues (weftRequests s))
  safeRelease (fioRelease (fioBoundary s) live) live

/-- Module status for the application at a boundary (Table 2.4): feeds, calving stage, and the lanes as the epoch left
them. -/
def statusOf (prev : State) : ModuleStatus :=
  { feedA := prev.power.aValid, feedB := prev.power.bValid, stage := prev.power.stage
    lanes := prev.lanes.lane.toList.map (fun ln => epCode ln.epochState) }

/-- The raw input image at B(n) (R45, Table 2.4): its configured signals, from each block. `prev` is the state of the
epoch that ends. -/
def latchBoundary (prev s : State) : State :=
  let s := { s with mem := { s.mem with rawOwn := memWrite s.mem.rawOwn 24 (timeBytes s) }
                    epoch := { s.epoch with status := statusOf prev } }
  let s := latchNet (latchRack (latchSafe (latchFio s)))
  blankMuslin (latchMuslin prev s (syncWord s))

/-- The sequencer's own fields as epoch `n` begins (Table 2.15, R45). -/
def epochFields (e : Epoch) (n now : Nat) (abstain : Bool) : Epoch :=
  let early := fun (q : QueuedItem) => decide (q.stamp < now)
  { e with
    no := BitVec.ofNat 64 n, next := n + 1, resync := false, phase := .exchange, sealNs := 0, sealed := false
    rawClosed := false, exchanged := false, sourced := false, abstainAll := abstain, abstainGroups := 0, noRaw := false
    warnLead := e.warnNext.getD e.warnLead, warnNext := none, closing := e.items.filter early
    items := e.items.filter (fun q => !early q) }

/-- The sequencer and the voter as epoch `n` begins. -/
def beginEpoch (s : State) : State :=
  let n := s.epoch.next
  let w := { s.weft with
    ownDigest := Vector.replicate 16 none, ownAudit := none, ownFrame := none, outOfSet := false, dissent := 0
    withdrawReq := false, rejoinReq := false, a := linkBoundary s.weft.a, b := linkBoundary s.weft.b }
  let m := rewritten s.mem (fun u => u.loc.area == 0x0A || u.loc.area == 0x0B)
  { s with epoch := epochFields s.epoch n (n * epochNs s.epoch) s.weft.abstainNext, weft := w, mem := m }

/-- A part of the own raw image is read and sent (R42, R225). -/
def sendRawPart (s : State) (off n : Nat) : State := sendRaw (touch s 0x0A off n) off n

/-- The boundary itself: time has reached it, and the servo of TB2 has what was measured. The inputs of B(n) are latched
before anything that is released at B(n) can reach them (R336). -/
def boundaryNow (s : State) : State :=
  let s := rackScanEnd s
  let prev := s
  let ok := s.lanes.lane.toList.map laneCommitted
  let s := members (noteLinksDown (clearEpoch s))
  let live := releasing s || releasesOnce s
  let s := beginEpoch (lanesBoundary (releaseBoundary s live))
  let s := latchBoundary prev s
  let s := netBoundary s live (isHolder s && !isHolder prev) prev.epoch.no
  let s := mboxAuto (mboxBoundary s ok)
  let s := catchupBoundary s
  sendRawPart s 64 (rawQueue s.maps - 64)

/-- A boundary may come: the last epoch has ended, or none has begun since a start or a step of TB2 (R39). -/
def boundaryDue (s : State) : Bool := s.epoch.running && (s.epoch.resync || s.epoch.phase = .release)

/-- BOUNDARY (R37, R40, R86): the sequencer raises the next boundary once TB2 reaches it. Offsets that have not reached
the servo do so first; where that steps TB2 away from the boundary, it comes later (R39). -/
def execBoundary (s : State) : Host.Outcome State Fault Refusal :=
  let at' := s.epoch.next * epochNs s.epoch
  let t := passUntil s 2 at'
  let u := syncServo t
  live s 2 (if boundaryDue s && reached t 2 at' then
      (if reached u 2 (u.epoch.next * epochNs u.epoch) then boundaryNow u else u)
    else s)

/-- The deliveries to lanes that the raw image takes at raw close (R246, R248). -/
def latchDeliveries (s : State) : State :=
  let mine := (s.epoch.closing.filter (·.source == 6)).map (·.sub)
  { s with mbox := { s.mbox with pair := Vector.ofFn (fun (i : Fin 24) =>
      let p := s.mbox.pair[i]
      if p.undelivered && mine.contains i.val then { p with latched := true } else p) } }

/-- Raw close: the image is complete, and its queued part and then its header are sent (R42). -/
def rawCloseNow (s : State) : State :=
  let s := deliverClose (closeRaw (latchDeliveries s))
  let q := rawQueue s.maps
  sendRawPart (sendRawPart s q (s.epoch.rawBytes.toNat - q)) 0 64

/-- RAW_CLOSE (R42): B(n) + 2 µs. -/
def execRawClose (s : State) : Host.Outcome State Fault Refusal :=
  atInstant s (boundaryNs s.epoch + 2000) (s.epoch.phase = .exchange && !s.epoch.rawClosed) rawCloseNow

/-- The new holder may start: it is a VOTER, nobody has condemned it, and its release runs (R108, R113). -/
def mayStartRole (s : State) : Bool :=
  isVoter s && s.weft.roleSlot != 0 && s.weft.roleSlot == s.slot && !s.weft.roleStarted && !s.weft.condemnedEpoch
    && !s.weft.stopped && !s.mbox.failed

/-- ROLE_START (R113, R296): the holder starts the single-driver functions with the values of the last boundary. -/
def execRoleStart (s : State) : Host.Outcome State Fault Refusal :=
  let t := { s with weft := { s.weft with roleStarted := true } }
  let t := outboxSend (publishScope t true) id
  let t := ([0, 1, 2, 3] : List (Fin 4)).foldl gratuitousArp t
  let t := if t.rack.shared then rackBoundary t (t.epoch.no - 1) else t
  live s 2 (if mayStartRole s then t else s)

end Sys2Proof.Machine
end

