-- ==== Sys2Proof/Machine/CheckWrites.lean ====
section
/-! DEFINITION. Writes to the context registers of the check engine (chapter 11, Table 11.4). -/

namespace Sys2Proof.Machine

open Sys2Proof

/-- The core that a lane's write comes from. -/
def writerCore (l : LaneId) (trailing : Bool) : CoreRef := ⟨l, if trailing then .trailing else .leading⟩

/-- A write to a context that the writer may use (R355, R356): Selvedge its own, a core of a lane under Table 11.2. An
unusable one has no effect; for a lane it counts as CHECK_MISUSE. -/
def chkWrite (s : State) (m : Master) (trailing : Bool) (ctx : Fin 16) (effect : State) : State := match m with
  | .selvedge => if ctxHasAlg (ctxOf s ctx.val) && (ctxOf s ctx.val).owner == 8 then effect else s
  | .lane l => if ctxUsable s (writerCore l trailing) ctx.val then effect else chkMisuse s

/-- The store to register `r` of a context. -/
def chkStore (s : State) (ctx : Fin 16) (r size : Nat) (data : U32) : State :=
  checkStore s (ctx.val * 0x40 + r) size (data.zeroExtend 64)

/-- CHK_DATA_WRITE (R352): a store of 1, 2 or 4 bytes feeds its bytes. -/
def execChkDataWrite (m : Master) (trailing : Bool) (ctx : Fin 16) (size : Nat) (data : U32) (s : State) :
    Host.Outcome State Fault Refusal :=
  live s 7 (if size = 1 || size = 2 || size = 4 then chkWrite s m trailing ctx (chkStore s ctx 0x00 size data) else s)

/-- CHK_FOLD_WRITE (R352, R354). -/
def execChkFoldWrite (m : Master) (trailing : Bool) (ctx : Fin 16) (data : U32) (s : State) :
    Host.Outcome State Fault Refusal :=
  live s 7 (chkWrite s m trailing ctx (chkStore s ctx 0x04 4 data))

/-- CHK_VAL_WRITE (Table 11.4): CHK_c_VAL_LO. -/
def execChkValWrite (m : Master) (trailing : Bool) (ctx : Fin 16) (data : U32) (s : State) :
    Host.Outcome State Fault Refusal :=
  live s 7 (chkWrite s m trailing ctx (chkStore s ctx 0x08 4 data))

/-- CHK_CMP_WRITE (R359): CHK_c_CMP_LO. -/
def execChkCmpWrite (m : Master) (trailing : Bool) (ctx : Fin 16) (data : U32) (s : State) :
    Host.Outcome State Fault Refusal :=
  live s 7 (chkWrite s m trailing ctx (chkStore s ctx 0x18 4 data))

/-- CHK_INIT_WRITE (Table 11.4): CHK_c_CTRL. -/
def execChkInitWrite (m : Master) (trailing : Bool) (ctx : Fin 16) (data : U32) (s : State) :
    Host.Outcome State Fault Refusal :=
  live s 7 (chkWrite s m trailing ctx (chkStore s ctx 0x20 4 data))

/-- A lane is STOPPED, FAULTED or DIVERGED (R237, R355). -/
def laneQuiet (ln : Lane) : Bool :=
  ln.epochState = .stopped || ln.epochState = .faulted || ln.epochState = .diverged

/-- A Selvedge write of CHK_c_CFG (R355, Table 11.4). -/
def chkCfgWrite (s : State) (ctx : Fin 16) (data : U32) : State :=
  let x := ctxOf s ctx.val
  let o := data.toNat / 16 % 16
  let ignored := recordIgnored s 5 (0x5000050028 + ctx.val * 0x40) data.toNat
  if 9 ≤ o && o ≤ 14 then ignored 0xFF 6
  else
    let open' := if h : x.owner.toNat < 8 then laneQuiet (laneOf s ⟨x.owner.toNat, h⟩) else true
    if !open' then ignored x.owner.toNat 4
    else
      let x := { x with alg := data.extractLsb' 0 3, core := data.getLsbD 3, owner := data.extractLsb' 4 4 }
      putCtx s ctx.val { x with running := BitVec.ofNat 64 (x.running.toNat % 2 ^ algWidth x.alg.toNat) }

/-- CHK_CFG_WRITE (R355). -/
def execChkCfgWrite (ctx : Fin 16) (data : U32) (s : State) : Host.Outcome State Fault Refusal :=
  live s 7 (chkCfgWrite s ctx data)

end Sys2Proof.Machine
end

