-- ==== Sys2Proof/Machine/IsaCheck.lean ====
section
/-! DEFINITION. The check-assist instructions (class 13; Table 5.13, R192, chapter 11). -/

namespace Sys2Proof.Machine

open Sys2Proof

/-- A class-13 instruction that changes context `ctx`, MOD[3:0] (R192, R356): CHECK_MISUSE where the core may not
use it. L performs the change and T is compared on it, as a store of `size` bytes of `v` to the context's register at
offset `o` (Table 4.2, log entry 27). -/
def checkPut (s : State) (c : CoreRef) (k : Core) (f : Fields) (o size : Nat) (v : Word)
    (op : CheckCtx → CheckCtx) : Act :=
  let ctx := f.mod.toNat % 16
  if !ctxUsable s c ctx then .exc (if follows s c then s else chkMisuse s) ⟨5, false, false, BitVec.ofNat 64 ctx⟩
  else .done (if follows s c then s else putCtx s ctx (op (ctxOf s ctx)))
    { k := { k with pc := k.pc + 4 }, regs := [], store := some (0x5000050000 + ctx * 0x40 + o, size, v)
      entry := none, yields := false }

/-- A class-13 read into g[rd], which reaches T as a CHECK entry (R192, Table 4.2). -/
def checkGet (s : State) (c : CoreRef) (k : Core) (f : Fields) (val : CheckCtx → Word) : Act :=
  let ctx := f.mod.toNat % 16
  let done := fun (s : State) (v : Word) (e : Option (DriftKind × Word)) =>
    Act.done s { k := putG k f.rd v, regs := gRecord f.rd v, store := none, entry := e, yields := false }
  if !ctxUsable s c ctx then .exc (if follows s c then s else chkMisuse s) ⟨5, false, false, BitVec.ofNat 64 ctx⟩
  else if follows s c then fromDrift s c .check (fun s v => done s v none)
  else done s (val (ctxOf s ctx)) (some (.check, val (ctxOf s ctx)))

/-- MOD[6:4] must be 0 (R192). -/
def ctxMod (f : Fields) : Bool := decide (f.mod.toNat < 16)

/-- CKINIT (Table 5.13, R192): the initial value. -/
def execCkinit (c : CoreRef) (f : Fields) (s : State) : Host.Outcome State Fault Refusal :=
  runLane s c (fun s k => legal (ctxMod f && f.rd == 0 && f.ra == 0) s (wordOf 13 0x00 f) (
    checkPut s c k f 0x20 4 (1) (ctxInit)))

/-- CKF8 (Table 5.13, R192): feeds a byte. -/
def execCkf8 (c : CoreRef) (f : Fields) (s : State) : Host.Outcome State Fault Refusal :=
  runLane s c (fun s k => legal (ctxMod f && f.rd == 0) s (wordOf 13 0x01 f) (
    checkPut s c k f 0x00 1 (gget k f.ra) (fun x => ctxFeed x (leBytes 1 (gget k f.ra).toNat))))

/-- CKF16 (Table 5.13, R192): feeds a half-word, least significant byte first (R352). -/
def execCkf16 (c : CoreRef) (f : Fields) (s : State) : Host.Outcome State Fault Refusal :=
  runLane s c (fun s k => legal (ctxMod f && f.rd == 0) s (wordOf 13 0x02 f) (
    checkPut s c k f 0x00 2 (gget k f.ra) (fun x => ctxFeed x (leBytes 2 (gget k f.ra).toNat))))

/-- CKF32 (Table 5.13, R192): feeds a word. -/
def execCkf32 (c : CoreRef) (f : Fields) (s : State) : Host.Outcome State Fault Refusal :=
  runLane s c (fun s k => legal (ctxMod f && f.rd == 0) s (wordOf 13 0x03 f) (
    checkPut s c k f 0x00 4 (gget k f.ra) (fun x => ctxFeed x (leBytes 4 (gget k f.ra).toNat))))

/-- CKFOLD (Table 5.13, R192): folds a word, most significant byte first (R354). -/
def execCkfold (c : CoreRef) (f : Fields) (s : State) : Host.Outcome State Fault Refusal :=
  runLane s c (fun s k => legal (ctxMod f && f.rd == 0) s (wordOf 13 0x04 f) (
    checkPut s c k f 0x04 4 (gget k f.ra) (fun x => ctxFold x ((gget k f.ra).extractLsb' 0 32))))

/-- CKWR (Table 5.13, R192): writes the running value. -/
def execCkwr (c : CoreRef) (f : Fields) (s : State) : Host.Outcome State Fault Refusal :=
  runLane s c (fun s k => legal (ctxMod f && f.rd == 0) s (wordOf 13 0x09 f) (
    checkPut s c k f 0x08 8 (gget k f.ra) (fun x => ctxSet x (gget k f.ra).toNat)))

/-- CKRD (Table 5.13, R192): the running value. -/
def execCkrd (c : CoreRef) (f : Fields) (s : State) : Host.Outcome State Fault Refusal :=
  runLane s c (fun s k => legal (ctxMod f && f.ra == 0) s (wordOf 13 0x08 f) (
    checkGet s c k f (fun x => x.running)))

/-- CKFIN (Table 5.13, R192): the final value. -/
def execCkfin (c : CoreRef) (f : Fields) (s : State) : Host.Outcome State Fault Refusal :=
  runLane s c (fun s k => legal (ctxMod f && f.ra == 0) s (wordOf 13 0x0A f) (
    checkGet s c k f (fun x => BitVec.ofNat 64 (ctxFinal x))))

end Sys2Proof.Machine
end

