-- ==== Sys2Proof/Machine/IsaInt.lean ====
section
/-! DEFINITION. The integer ALU, immediate, shift, bit-field, multiply, divide, saturating and wide-immediate instructions
(classes 0 to 3, 12 and 15; Tables 5.8, 5.9, 5.12 and 5.13). -/

namespace Sys2Proof.Machine

open Sys2Proof

/-- 1 or 0. -/
def word01 (b : Bool) : Word := if b then 1 else 0

/-- The low 32 bits as a signed number, 64 bits wide: `wrap(sx(v, 32))`. -/
def sext32 (v : Word) : Word := (v.extractLsb' 0 32).signExtend 64

/-- The low 32 bits, zero-extended: `zx(v, 32)`. -/
def low32 (v : Word) : Word := (v.extractLsb' 0 32).zeroExtend 64

/-- Shift amount of a 64-bit register shift: `Bu mod 64`. -/
def sh64 (v : Word) : Nat := v.toNat % 64

/-- Shift amount of a 32-bit register shift: `Bu mod 32`. -/
def sh32 (v : Word) : Nat := v.toNat % 32

/-- Shift amount of an immediate shift: MOD[5:0] (R180). -/
def shImm (f : Fields) : Nat := f.mod.toNat % 64

/-- Immediate shift forms: RB and MOD[6] are 0 (R180). -/
def shImmOk (f : Fields) : Bool := f.rb == 0 && !f.mod.getLsbD 6

/-- Bit-field position: imm12[11:6] (R180). -/
def fieldPos (f : Fields) : Nat := (imm12 f).toNat / 64

/-- Bit-field length: imm12[5:0] + 1 (R180). -/
def fieldLen (f : Fields) : Nat := (imm12 f).toNat % 64 + 1

/-- Bit-field forms: pos + len is at most 64 (R180). -/
def fieldOk (f : Fields) : Bool := decide (fieldPos f + fieldLen f ≤ 64)

/-- Count forms: RB and MOD are 0 (R180). -/
def countOk (f : Fields) : Bool := f.rb == 0 && f.mod == 0

/-- Zero bits above the highest one bit of the low `w` bits of `n`; `w` when there is none. -/
def leadingZeros : Nat → Nat → Nat
  | 0, _ => 0
  | w + 1, n => if n.testBit w then 0 else leadingZeros w n + 1

/-- Zero bits below the lowest one bit of the low `w` bits of `n`; `w` when there is none. -/
def trailingZeros : Nat → Nat → Nat
  | 0, _ => 0
  | w + 1, n => if n % 2 = 1 then 0 else trailingZeros w (n / 2) + 1

/-- One bits among the low `w` bits of `n`. -/
def popCount : Nat → Nat → Nat
  | 0, _ => 0
  | w + 1, n => n % 2 + popCount w (n / 2)

/-- An integer result with its flags, as a word. -/
def intRes (r : Int × BitVec 3) : Word × BitVec 3 := (wrap r.1, r.2)

/-- An unsigned result with its flags, as a word. -/
def natRes (r : Nat × BitVec 3) : Word × BitVec 3 := (BitVec.ofNat 64 r.1, r.2)

/-- `S64(v)`. -/
def satS64 (v : Int) : Int × BitVec 3 := satClamp v (-(2 ^ 63)) (2 ^ 63 - 1)

/-- `S32(v)`. -/
def satS32 (v : Int) : Int × BitVec 3 := satClamp v (-(2 ^ 31)) (2 ^ 31 - 1)

/-- `sx(v, 32)` of a register. -/
def int32 (v : Word) : Int := (v.extractLsb' 0 32).toInt

/-- `zx(v, 32)` of a register. -/
def nat32 (v : Word) : Nat := (v.extractLsb' 0 32).toNat

/-- An instruction that writes a result with integer flags. -/
def retRes (s : State) (k : Core) (rd : BitVec 5) (r : Word × BitVec 3) : Act := retGI s k rd r.1 r.2

/-- ADD (Table 5.8, class 0): the sum, wrapped. -/
def execAdd (c : CoreRef) (f : Fields) (s : State) : Host.Outcome State Fault Refusal :=
  runLane s c (fun s k => legal (f.mod == 0) s (wordOf 0 0x00 f) (
    retG s k f.rd (gget k f.ra + gget k f.rb)))

/-- SUB (Table 5.8, class 0): the difference, wrapped. -/
def execSub (c : CoreRef) (f : Fields) (s : State) : Host.Outcome State Fault Refusal :=
  runLane s c (fun s k => legal (f.mod == 0) s (wordOf 0 0x01 f) (
    retG s k f.rd (gget k f.ra - gget k f.rb)))

/-- AND (Table 5.8, class 0): bitwise and. -/
def execAnd (c : CoreRef) (f : Fields) (s : State) : Host.Outcome State Fault Refusal :=
  runLane s c (fun s k => legal (f.mod == 0) s (wordOf 0 0x02 f) (
    retG s k f.rd (gget k f.ra &&& gget k f.rb)))

/-- OR (Table 5.8, class 0): bitwise or. -/
def execOr (c : CoreRef) (f : Fields) (s : State) : Host.Outcome State Fault Refusal :=
  runLane s c (fun s k => legal (f.mod == 0) s (wordOf 0 0x03 f) (
    retG s k f.rd (gget k f.ra ||| gget k f.rb)))

/-- XOR (Table 5.8, class 0): bitwise exclusive or. -/
def execXor (c : CoreRef) (f : Fields) (s : State) : Host.Outcome State Fault Refusal :=
  runLane s c (fun s k => legal (f.mod == 0) s (wordOf 0 0x04 f) (
    retG s k f.rd (gget k f.ra ^^^ gget k f.rb)))

/-- ANDN (Table 5.8, class 0): and with the inverse of the second operand. -/
def execAndn (c : CoreRef) (f : Fields) (s : State) : Host.Outcome State Fault Refusal :=
  runLane s c (fun s k => legal (f.mod == 0) s (wordOf 0 0x05 f) (
    retG s k f.rd (gget k f.ra &&& ~~~(gget k f.rb))))

/-- ORN (Table 5.8, class 0): or with the inverse of the second operand. -/
def execOrn (c : CoreRef) (f : Fields) (s : State) : Host.Outcome State Fault Refusal :=
  runLane s c (fun s k => legal (f.mod == 0) s (wordOf 0 0x06 f) (
    retG s k f.rd (gget k f.ra ||| ~~~(gget k f.rb))))

/-- XNOR (Table 5.8, class 0): inverse of exclusive or. -/
def execXnor (c : CoreRef) (f : Fields) (s : State) : Host.Outcome State Fault Refusal :=
  runLane s c (fun s k => legal (f.mod == 0) s (wordOf 0 0x07 f) (
    retG s k f.rd (~~~(gget k f.ra ^^^ gget k f.rb))))

/-- SLT (Table 5.8, class 0): 1 when A is below B, signed. -/
def execSlt (c : CoreRef) (f : Fields) (s : State) : Host.Outcome State Fault Refusal :=
  runLane s c (fun s k => legal (f.mod == 0) s (wordOf 0 0x08 f) (
    retG s k f.rd (word01 ((gget k f.ra).slt (gget k f.rb)))))

/-- SLTU (Table 5.8, class 0): 1 when A is below B, unsigned. -/
def execSltu (c : CoreRef) (f : Fields) (s : State) : Host.Outcome State Fault Refusal :=
  runLane s c (fun s k => legal (f.mod == 0) s (wordOf 0 0x09 f) (
    retG s k f.rd (word01 ((gget k f.ra).ult (gget k f.rb)))))

/-- MIN (Table 5.8, class 0): signed minimum. -/
def execMin (c : CoreRef) (f : Fields) (s : State) : Host.Outcome State Fault Refusal :=
  runLane s c (fun s k => legal (f.mod == 0) s (wordOf 0 0x0A f) (
    retG s k f.rd (if (gget k f.ra).sle (gget k f.rb) then gget k f.ra else gget k f.rb)))

/-- MAX (Table 5.8, class 0): signed maximum. -/
def execMax (c : CoreRef) (f : Fields) (s : State) : Host.Outcome State Fault Refusal :=
  runLane s c (fun s k => legal (f.mod == 0) s (wordOf 0 0x0B f) (
    retG s k f.rd (if (gget k f.ra).sle (gget k f.rb) then gget k f.rb else gget k f.ra)))

/-- MINU (Table 5.8, class 0): unsigned minimum. -/
def execMinu (c : CoreRef) (f : Fields) (s : State) : Host.Outcome State Fault Refusal :=
  runLane s c (fun s k => legal (f.mod == 0) s (wordOf 0 0x0C f) (
    retG s k f.rd (if (gget k f.ra).ule (gget k f.rb) then gget k f.ra else gget k f.rb)))

/-- MAXU (Table 5.8, class 0): unsigned maximum. -/
def execMaxu (c : CoreRef) (f : Fields) (s : State) : Host.Outcome State Fault Refusal :=
  runLane s c (fun s k => legal (f.mod == 0) s (wordOf 0 0x0D f) (
    retG s k f.rd (if (gget k f.ra).ule (gget k f.rb) then gget k f.rb else gget k f.ra)))

/-- ADDW (Table 5.8, class 0): 32-bit sum, sign-extended. -/
def execAddw (c : CoreRef) (f : Fields) (s : State) : Host.Outcome State Fault Refusal :=
  runLane s c (fun s k => legal (f.mod == 0) s (wordOf 0 0x0E f) (
    retG s k f.rd (sext32 (gget k f.ra + gget k f.rb))))

/-- SUBW (Table 5.8, class 0): 32-bit difference, sign-extended. -/
def execSubw (c : CoreRef) (f : Fields) (s : State) : Host.Outcome State Fault Refusal :=
  runLane s c (fun s k => legal (f.mod == 0) s (wordOf 0 0x0F f) (
    retG s k f.rd (sext32 (gget k f.ra - gget k f.rb))))

/-- SEQ (Table 5.8, class 0): 1 when the operands are equal. -/
def execSeq (c : CoreRef) (f : Fields) (s : State) : Host.Outcome State Fault Refusal :=
  runLane s c (fun s k => legal (f.mod == 0) s (wordOf 0 0x10 f) (
    retG s k f.rd (word01 (gget k f.ra == gget k f.rb))))

/-- ADDI (Table 5.8, class 1): the sum with the immediate. -/
def execAddi (c : CoreRef) (f : Fields) (s : State) : Host.Outcome State Fault Refusal :=
  runLane s c (fun s k => retG s k f.rd (gget k f.ra + immI f))

/-- ANDI (Table 5.8, class 1): and with the immediate, sign bit included. -/
def execAndi (c : CoreRef) (f : Fields) (s : State) : Host.Outcome State Fault Refusal :=
  runLane s c (fun s k => retG s k f.rd (gget k f.ra &&& immI f))

/-- ORI (Table 5.8, class 1): or with the immediate. -/
def execOri (c : CoreRef) (f : Fields) (s : State) : Host.Outcome State Fault Refusal :=
  runLane s c (fun s k => retG s k f.rd (gget k f.ra ||| immI f))

/-- XORI (Table 5.8, class 1): exclusive or with the immediate. -/
def execXori (c : CoreRef) (f : Fields) (s : State) : Host.Outcome State Fault Refusal :=
  runLane s c (fun s k => retG s k f.rd (gget k f.ra ^^^ immI f))

/-- SLTI (Table 5.8, class 1): 1 when A is below the immediate, signed. -/
def execSlti (c : CoreRef) (f : Fields) (s : State) : Host.Outcome State Fault Refusal :=
  runLane s c (fun s k => retG s k f.rd (word01 ((gget k f.ra).slt (immI f))))

/-- SLTIU (Table 5.8, class 1): 1 when A is below the immediate, unsigned. -/
def execSltiu (c : CoreRef) (f : Fields) (s : State) : Host.Outcome State Fault Refusal :=
  runLane s c (fun s k => retG s k f.rd (word01 ((gget k f.ra).ult (immI f))))

/-- ADDIW (Table 5.8, class 1): 32-bit sum with the immediate, sign-extended. -/
def execAddiw (c : CoreRef) (f : Fields) (s : State) : Host.Outcome State Fault Refusal :=
  runLane s c (fun s k => retG s k f.rd (sext32 (gget k f.ra + immI f)))

/-- SLL (Table 5.8, class 2): shift left. -/
def execSll (c : CoreRef) (f : Fields) (s : State) : Host.Outcome State Fault Refusal :=
  runLane s c (fun s k => legal (f.mod == 0) s (wordOf 2 0x00 f) (
    retG s k f.rd ((gget k f.ra) <<< sh64 (gget k f.rb))))

/-- SRL (Table 5.8, class 2): logical shift right. -/
def execSrl (c : CoreRef) (f : Fields) (s : State) : Host.Outcome State Fault Refusal :=
  runLane s c (fun s k => legal (f.mod == 0) s (wordOf 2 0x01 f) (
    retG s k f.rd ((gget k f.ra) >>> sh64 (gget k f.rb))))

/-- SRA (Table 5.8, class 2): arithmetic shift right. -/
def execSra (c : CoreRef) (f : Fields) (s : State) : Host.Outcome State Fault Refusal :=
  runLane s c (fun s k => legal (f.mod == 0) s (wordOf 2 0x02 f) (
    retG s k f.rd ((gget k f.ra).sshiftRight (sh64 (gget k f.rb)))))

/-- ROL (Table 5.8, class 2): rotate left. -/
def execRol (c : CoreRef) (f : Fields) (s : State) : Host.Outcome State Fault Refusal :=
  runLane s c (fun s k => legal (f.mod == 0) s (wordOf 2 0x03 f) (
    retG s k f.rd ((gget k f.ra).rotateLeft (sh64 (gget k f.rb)))))

/-- ROR (Table 5.8, class 2): rotate right. -/
def execRor (c : CoreRef) (f : Fields) (s : State) : Host.Outcome State Fault Refusal :=
  runLane s c (fun s k => legal (f.mod == 0) s (wordOf 2 0x04 f) (
    retG s k f.rd ((gget k f.ra).rotateRight (sh64 (gget k f.rb)))))

/-- SLLW (Table 5.8, class 2): 32-bit shift left, sign-extended. -/
def execSllw (c : CoreRef) (f : Fields) (s : State) : Host.Outcome State Fault Refusal :=
  runLane s c (fun s k => legal (f.mod == 0) s (wordOf 2 0x05 f) (
    retG s k f.rd (sext32 ((gget k f.ra) <<< sh32 (gget k f.rb)))))

/-- SRLW (Table 5.8, class 2): 32-bit logical shift right, sign-extended. -/
def execSrlw (c : CoreRef) (f : Fields) (s : State) : Host.Outcome State Fault Refusal :=
  runLane s c (fun s k => legal (f.mod == 0) s (wordOf 2 0x06 f) (
    retG s k f.rd (sext32 (low32 (gget k f.ra) >>> sh32 (gget k f.rb)))))

/-- SRAW (Table 5.8, class 2): 32-bit arithmetic shift right. -/
def execSraw (c : CoreRef) (f : Fields) (s : State) : Host.Outcome State Fault Refusal :=
  runLane s c (fun s k => legal (f.mod == 0) s (wordOf 2 0x07 f) (
    retG s k f.rd ((sext32 (gget k f.ra)).sshiftRight (sh32 (gget k f.rb)))))

/-- SLLI (Table 5.8, class 2): shift left by sh. -/
def execSlli (c : CoreRef) (f : Fields) (s : State) : Host.Outcome State Fault Refusal :=
  runLane s c (fun s k => legal (shImmOk f) s (wordOf 2 0x10 f) (
    retG s k f.rd ((gget k f.ra) <<< shImm f)))

/-- SRLI (Table 5.8, class 2): logical shift right by sh. -/
def execSrli (c : CoreRef) (f : Fields) (s : State) : Host.Outcome State Fault Refusal :=
  runLane s c (fun s k => legal (shImmOk f) s (wordOf 2 0x11 f) (
    retG s k f.rd ((gget k f.ra) >>> shImm f)))

/-- SRAI (Table 5.8, class 2): arithmetic shift right by sh. -/
def execSrai (c : CoreRef) (f : Fields) (s : State) : Host.Outcome State Fault Refusal :=
  runLane s c (fun s k => legal (shImmOk f) s (wordOf 2 0x12 f) (
    retG s k f.rd ((gget k f.ra).sshiftRight (shImm f))))

/-- RORI (Table 5.8, class 2): rotate right by sh. -/
def execRori (c : CoreRef) (f : Fields) (s : State) : Host.Outcome State Fault Refusal :=
  runLane s c (fun s k => legal (shImmOk f) s (wordOf 2 0x14 f) (
    retG s k f.rd ((gget k f.ra).rotateRight (shImm f))))

/-- EXTU (Table 5.8, class 2): an unsigned bit field. -/
def execExtu (c : CoreRef) (f : Fields) (s : State) : Host.Outcome State Fault Refusal :=
  runLane s c (fun s k => legal (fieldOk f) s (wordOf 2 0x18 f) (
    retG s k f.rd (BitVec.ofNat 64 ((gget k f.ra).toNat / 2 ^ fieldPos f % 2 ^ fieldLen f))))

/-- EXTS (Table 5.8, class 2): a signed bit field. -/
def execExts (c : CoreRef) (f : Fields) (s : State) : Host.Outcome State Fault Refusal :=
  runLane s c (fun s k => legal (fieldOk f) s (wordOf 2 0x19 f) (
    retG s k f.rd (wrap (sxInt ((gget k f.ra).toNat / 2 ^ fieldPos f) (fieldLen f)))))

/-- INS (Table 5.8, class 2): g[rd] with bits [pos+len-1:pos] replaced by g[ra][len-1:0]. -/
def execIns (c : CoreRef) (f : Fields) (s : State) : Host.Outcome State Fault Refusal :=
  runLane s c (fun s k => legal (fieldOk f) s (wordOf 2 0x1A f) (
    retG s k f.rd (let m : Word := BitVec.ofNat 64 ((2 ^ fieldLen f - 1) * 2 ^ fieldPos f)
      (gget k f.rd &&& ~~~m) ||| (((gget k f.ra) <<< fieldPos f) &&& m))))

/-- CLZ (Table 5.8, class 2): leading zero bits. -/
def execClz (c : CoreRef) (f : Fields) (s : State) : Host.Outcome State Fault Refusal :=
  runLane s c (fun s k => legal (countOk f) s (wordOf 2 0x20 f) (
    retG s k f.rd (BitVec.ofNat 64 (leadingZeros 64 (gget k f.ra).toNat))))

/-- CTZ (Table 5.8, class 2): trailing zero bits. -/
def execCtz (c : CoreRef) (f : Fields) (s : State) : Host.Outcome State Fault Refusal :=
  runLane s c (fun s k => legal (countOk f) s (wordOf 2 0x21 f) (
    retG s k f.rd (BitVec.ofNat 64 (trailingZeros 64 (gget k f.ra).toNat))))

/-- POPC (Table 5.8, class 2): one bits. -/
def execPopc (c : CoreRef) (f : Fields) (s : State) : Host.Outcome State Fault Refusal :=
  runLane s c (fun s k => legal (countOk f) s (wordOf 2 0x22 f) (
    retG s k f.rd (BitVec.ofNat 64 (popCount 64 (gget k f.ra).toNat))))

/-- REV8 (Table 5.8, class 2): the eight bytes in reverse order. -/
def execRev8 (c : CoreRef) (f : Fields) (s : State) : Host.Outcome State Fault Refusal :=
  runLane s c (fun s k => legal (countOk f) s (wordOf 2 0x23 f) (
    retG s k f.rd (BitVec.ofNat 64 (ofBe (leBytes 8 (gget k f.ra).toNat)))))

/-- MUL (Table 5.9): the low half of the product. -/
def execMul (c : CoreRef) (f : Fields) (s : State) : Host.Outcome State Fault Refusal :=
  runLane s c (fun s k => legal (f.mod == 0) s (wordOf 3 0x00 f) (
    retG s k f.rd (gget k f.ra * gget k f.rb)))

/-- MULH (Table 5.9): the high half of the signed product. -/
def execMulh (c : CoreRef) (f : Fields) (s : State) : Host.Outcome State Fault Refusal :=
  runLane s c (fun s k => legal (f.mod == 0) s (wordOf 3 0x01 f) (
    retG s k f.rd (wrap ((gget k f.ra).toInt * (gget k f.rb).toInt / 2 ^ 64))))

/-- MULHU (Table 5.9): the high half of the unsigned product. -/
def execMulhu (c : CoreRef) (f : Fields) (s : State) : Host.Outcome State Fault Refusal :=
  runLane s c (fun s k => legal (f.mod == 0) s (wordOf 3 0x02 f) (
    retG s k f.rd (BitVec.ofNat 64 ((gget k f.ra).toNat * (gget k f.rb).toNat / 2 ^ 64))))

/-- MULHSU (Table 5.9): the high half of signed by unsigned. -/
def execMulhsu (c : CoreRef) (f : Fields) (s : State) : Host.Outcome State Fault Refusal :=
  runLane s c (fun s k => legal (f.mod == 0) s (wordOf 3 0x03 f) (
    retG s k f.rd (wrap ((gget k f.ra).toInt * (gget k f.rb).toNat / 2 ^ 64))))

/-- MULW (Table 5.9): the 32-bit product, sign-extended. -/
def execMulw (c : CoreRef) (f : Fields) (s : State) : Host.Outcome State Fault Refusal :=
  runLane s c (fun s k => legal (f.mod == 0) s (wordOf 3 0x08 f) (
    retG s k f.rd (sext32 (gget k f.ra * gget k f.rb))))

/-- DIV (Table 5.9, R181): signed quotient; division by zero gives 0 and DZ, overflow gives -2^63 and OV. -/
def execDiv (c : CoreRef) (f : Fields) (s : State) : Host.Outcome State Fault Refusal :=
  runLane s c (fun s k => legal (f.mod == 0) s (wordOf 3 0x04 f) (
    retRes s k f.rd (intRes (divSigned 64 (gget k f.ra).toInt (gget k f.rb).toInt))))

/-- DIVU (Table 5.9, R181): unsigned quotient. -/
def execDivu (c : CoreRef) (f : Fields) (s : State) : Host.Outcome State Fault Refusal :=
  runLane s c (fun s k => legal (f.mod == 0) s (wordOf 3 0x05 f) (
    retRes s k f.rd (natRes (divUnsigned (gget k f.ra).toNat (gget k f.rb).toNat))))

/-- REM (Table 5.9, R181): signed remainder. -/
def execRem (c : CoreRef) (f : Fields) (s : State) : Host.Outcome State Fault Refusal :=
  runLane s c (fun s k => legal (f.mod == 0) s (wordOf 3 0x06 f) (
    retRes s k f.rd (intRes (remSigned 64 (gget k f.ra).toInt (gget k f.rb).toInt))))

/-- REMU (Table 5.9, R181): unsigned remainder. -/
def execRemu (c : CoreRef) (f : Fields) (s : State) : Host.Outcome State Fault Refusal :=
  runLane s c (fun s k => legal (f.mod == 0) s (wordOf 3 0x07 f) (
    retRes s k f.rd (natRes (remUnsigned (gget k f.ra).toNat (gget k f.rb).toNat))))

/-- DIVW (Table 5.9, R181): 32-bit signed quotient. -/
def execDivw (c : CoreRef) (f : Fields) (s : State) : Host.Outcome State Fault Refusal :=
  runLane s c (fun s k => legal (f.mod == 0) s (wordOf 3 0x0C f) (
    retRes s k f.rd (intRes (divSigned 32 (int32 (gget k f.ra)) (int32 (gget k f.rb))))))

/-- DIVUW (Table 5.9, R181): 32-bit unsigned quotient, sign-extended. -/
def execDivuw (c : CoreRef) (f : Fields) (s : State) : Host.Outcome State Fault Refusal :=
  runLane s c (fun s k => legal (f.mod == 0) s (wordOf 3 0x0D f) (
    retRes s k f.rd (let r := divUnsigned (nat32 (gget k f.ra)) (nat32 (gget k f.rb))
      (sext32 (BitVec.ofNat 64 r.1), r.2))))

/-- REMW (Table 5.9, R181): 32-bit signed remainder. -/
def execRemw (c : CoreRef) (f : Fields) (s : State) : Host.Outcome State Fault Refusal :=
  runLane s c (fun s k => legal (f.mod == 0) s (wordOf 3 0x0E f) (
    retRes s k f.rd (intRes (remSigned 32 (int32 (gget k f.ra)) (int32 (gget k f.rb))))))

/-- REMUW (Table 5.9, R181): 32-bit unsigned remainder, sign-extended. -/
def execRemuw (c : CoreRef) (f : Fields) (s : State) : Host.Outcome State Fault Refusal :=
  runLane s c (fun s k => legal (f.mod == 0) s (wordOf 3 0x0F f) (
    retRes s k f.rd (let r := remUnsigned (nat32 (gget k f.ra)) (nat32 (gget k f.rb))
      (sext32 (BitVec.ofNat 64 r.1), r.2))))

/-- ADDS (Table 5.12, R190): saturating sum; MOD[0] selects 32 bits. -/
def execAdds (c : CoreRef) (f : Fields) (s : State) : Host.Outcome State Fault Refusal :=
  runLane s c (fun s k => legal (f.mod.toNat < 2) s (wordOf 12 0x00 f) (
    retRes s k f.rd (intRes (if f.mod.getLsbD 0 then satS32 (int32 (gget k f.ra) + int32 (gget k f.rb)) else satS64 ((gget k f.ra).toInt + (gget k f.rb).toInt)))))

/-- SUBS (Table 5.12, R190): saturating difference; MOD[0] selects 32 bits. -/
def execSubs (c : CoreRef) (f : Fields) (s : State) : Host.Outcome State Fault Refusal :=
  runLane s c (fun s k => legal (f.mod.toNat < 2) s (wordOf 12 0x01 f) (
    retRes s k f.rd (intRes (if f.mod.getLsbD 0 then satS32 (int32 (gget k f.ra) - int32 (gget k f.rb)) else satS64 ((gget k f.ra).toInt - (gget k f.rb).toInt)))))

/-- ADDUS (Table 5.12, R190): unsigned saturating sum. -/
def execAddus (c : CoreRef) (f : Fields) (s : State) : Host.Outcome State Fault Refusal :=
  runLane s c (fun s k => legal (f.mod == 0) s (wordOf 12 0x02 f) (
    retRes s k f.rd (intRes (satClamp ((gget k f.ra).toNat + (gget k f.rb).toNat) 0 (2 ^ 64 - 1)))))

/-- SUBUS (Table 5.12, R190): unsigned saturating difference. -/
def execSubus (c : CoreRef) (f : Fields) (s : State) : Host.Outcome State Fault Refusal :=
  runLane s c (fun s k => legal (f.mod == 0) s (wordOf 12 0x03 f) (
    retRes s k f.rd (intRes (satClamp (((gget k f.ra).toNat : Int) - (gget k f.rb).toNat) 0 (2 ^ 64 - 1)))))

/-- NEGS (Table 5.12, R190): saturating negation. -/
def execNegs (c : CoreRef) (f : Fields) (s : State) : Host.Outcome State Fault Refusal :=
  runLane s c (fun s k => legal (f.mod == 0) s (wordOf 12 0x04 f) (
    retRes s k f.rd (intRes (satS64 (-(gget k f.ra).toInt)))))

/-- ABSS (Table 5.12, R190): saturating absolute value. -/
def execAbss (c : CoreRef) (f : Fields) (s : State) : Host.Outcome State Fault Refusal :=
  runLane s c (fun s k => legal (f.mod == 0) s (wordOf 12 0x05 f) (
    retRes s k f.rd (intRes (satS64 (((gget k f.ra).toInt).natAbs : Int)))))

/-- SATS (Table 5.12, R190): clamp to n = MOD[5:0] + 1 signed bits. -/
def execSats (c : CoreRef) (f : Fields) (s : State) : Host.Outcome State Fault Refusal :=
  runLane s c (fun s k => legal (shImmOk f) s (wordOf 12 0x08 f) (
    retRes s k f.rd (intRes (satClamp (gget k f.ra).toInt (-(2 ^ shImm f)) (2 ^ shImm f - 1)))))

/-- SATU (Table 5.12, R190): clamp to n = MOD[5:0] + 1 unsigned bits. -/
def execSatu (c : CoreRef) (f : Fields) (s : State) : Host.Outcome State Fault Refusal :=
  runLane s c (fun s k => legal (shImmOk f) s (wordOf 12 0x09 f) (
    retRes s k f.rd (intRes (satClamp (gget k f.ra).toInt 0 (2 ^ (shImm f + 1) - 1)))))

/-- MULQ (Table 5.12, R190): rounded, shifted, saturated product. -/
def execMulq (c : CoreRef) (f : Fields) (s : State) : Host.Outcome State Fault Refusal :=
  runLane s c (fun s k => legal (!f.mod.getLsbD 6) s (wordOf 12 0x10 f) (
    retRes s k f.rd (intRes (satS64 (rndShift ((gget k f.ra).toInt * (gget k f.rb).toInt) (shImm f))))))

/-- MACQ (Table 5.12, R190): g[rd] plus the rounded, shifted product, saturated. -/
def execMacq (c : CoreRef) (f : Fields) (s : State) : Host.Outcome State Fault Refusal :=
  runLane s c (fun s k => legal (!f.mod.getLsbD 6) s (wordOf 12 0x11 f) (
    retRes s k f.rd (intRes (satS64 ((gget k f.rd).toInt + rndShift ((gget k f.ra).toInt * (gget k f.rb).toInt) (shImm f))))))

/-- CLAMP (Table 5.12, R190): g[rd] clamped to A and B; B when A is above B. -/
def execClamp (c : CoreRef) (f : Fields) (s : State) : Host.Outcome State Fault Refusal :=
  runLane s c (fun s k => legal (f.mod == 0) s (wordOf 12 0x18 f) (
    retRes s k f.rd (intRes (satClamp (gget k f.rd).toInt (gget k f.ra).toInt (gget k f.rb).toInt))))

/-- RATE (Table 5.12, R190): g[rd] moved toward A by at most m. -/
def execRate (c : CoreRef) (f : Fields) (s : State) : Host.Outcome State Fault Refusal :=
  runLane s c (fun s k => legal (f.mod == 0) s (wordOf 12 0x19 f) (
    retRes s k f.rd (let m : Int := min ((gget k f.rb).toNat : Int) (2 ^ 63 - 1)
      let r := satClamp ((gget k f.ra).toInt - (gget k f.rd).toInt) (-m) m
      (wrap ((gget k f.rd).toInt + r.1), r.2))))

/-- LIS (Table 5.13): the sign-extended immediate. -/
def execLis (c : CoreRef) (w : Wide) (s : State) : Host.Outcome State Fault Refusal :=
  runLane s c (fun s k => retG s k w.rd (w.imm21.signExtend 64))

/-- LIK (Table 5.13): 16 bits of g[rd], at k = imm21[20:19], replaced; imm21[18:16] must be 0. -/
def execLik (c : CoreRef) (w : Wide) (s : State) : Host.Outcome State Fault Refusal :=
  runLane s c (fun s k => legal (w.imm21.toNat / 2 ^ 16 % 8 == 0) s (wordWide 1 w) (
    let sh := 16 * (w.imm21.toNat / 2 ^ 19)
    let m : Word := BitVec.ofNat 64 (0xFFFF * 2 ^ sh)
    retG s k w.rd ((gget k w.rd &&& ~~~m) ||| BitVec.ofNat 64 (w.imm21.toNat % 2 ^ 16 * 2 ^ sh))))

/-- PCREL (Table 5.13): PC plus four times the sign-extended immediate. -/
def execPcrel (c : CoreRef) (w : Wide) (s : State) : Host.Outcome State Fault Refusal :=
  runLane s c (fun s k => retG s k w.rd (k.pc + (w.imm21.signExtend 64) * 4))

end Sys2Proof.Machine
end

