-- ==== Sys2Proof/Machine/IsaFloat.lean ====
section
/-! DEFINITION. Floating-point arithmetic, comparison and conversion (classes 8 and 9; Table 5.11). -/

namespace Sys2Proof.Machine

open Sys2Proof

/-- The rounding mode in force (Table 5.3). -/
def rmOf (k : Core) : Nat := k.cr.rm.toNat

/-- S: binary32 format (R183). -/
def sBit (f : Fields) : Bool := f.mod.getLsbD 0

/-- MOD of a two-operand operation of class 8: only S may be 1 (R183). -/
def fmtMod (f : Fields) : Bool := decide (f.mod.toNat < 2)

/-- Third source rc: MOD[6:2] (R183). -/
def rcOf (f : Fields) : BitVec 5 := f.mod.extractLsb' 2 5

/-- An operation that writes f[rd] with flags. -/
def retFR (s : State) (k : Core) (rd : BitVec 5) (r : Word × BitVec 5) : Act := retF s k rd r.1 r.2

/-- An operation that writes g[rd] with floating-point flags. -/
def retGR (s : State) (k : Core) (rd : BitVec 5) (r : Word × BitVec 5) : Act := retGF s k rd r.1 r.2

/-- A conversion to an integer, as a word with its flags (R184). -/
def cvtRes (k : Core) (a : Word) (lo hi : Int) : Word × BitVec 5 :=
  let r := fCvt (rmOf k) a lo hi
  (wrap r.1, r.2)

/-- FADD (Table 5.11, R183): rounded sum. -/
def execFadd (c : CoreRef) (f : Fields) (s : State) : Host.Outcome State Fault Refusal :=
  runLane s c (fun s k => legal (fmtMod f) s (wordOf 8 0x00 f) (
    retFR s k f.rd (fAdd (sBit f) (rmOf k) (fget k f.ra) (fget k f.rb))))

/-- FSUB (Table 5.11, R183): rounded difference. -/
def execFsub (c : CoreRef) (f : Fields) (s : State) : Host.Outcome State Fault Refusal :=
  runLane s c (fun s k => legal (fmtMod f) s (wordOf 8 0x01 f) (
    retFR s k f.rd (fSub (sBit f) (rmOf k) (fget k f.ra) (fget k f.rb))))

/-- FMUL (Table 5.11, R183): rounded product. -/
def execFmul (c : CoreRef) (f : Fields) (s : State) : Host.Outcome State Fault Refusal :=
  runLane s c (fun s k => legal (fmtMod f) s (wordOf 8 0x02 f) (
    retFR s k f.rd (fMul (sBit f) (rmOf k) (fget k f.ra) (fget k f.rb))))

/-- FDIV (Table 5.11, R183): rounded quotient. -/
def execFdiv (c : CoreRef) (f : Fields) (s : State) : Host.Outcome State Fault Refusal :=
  runLane s c (fun s k => legal (fmtMod f) s (wordOf 8 0x03 f) (
    retFR s k f.rd (fDiv (sBit f) (rmOf k) (fget k f.ra) (fget k f.rb))))

/-- FSQRT (Table 5.11, R183): rounded square root; RB must be 0. -/
def execFsqrt (c : CoreRef) (f : Fields) (s : State) : Host.Outcome State Fault Refusal :=
  runLane s c (fun s k => legal (fmtMod f && f.rb == 0) s (wordOf 8 0x04 f) (
    retFR s k f.rd (fSqrt (sBit f) (rmOf k) (fget k f.ra))))

/-- FMIN (Table 5.11, R185): the smaller operand, rounded. -/
def execFmin (c : CoreRef) (f : Fields) (s : State) : Host.Outcome State Fault Refusal :=
  runLane s c (fun s k => legal (fmtMod f) s (wordOf 8 0x05 f) (
    retFR s k f.rd (fMinMax false (sBit f) (rmOf k) (fget k f.ra) (fget k f.rb))))

/-- FMAX (Table 5.11, R185): the larger operand, rounded. -/
def execFmax (c : CoreRef) (f : Fields) (s : State) : Host.Outcome State Fault Refusal :=
  runLane s c (fun s k => legal (fmtMod f) s (wordOf 8 0x06 f) (
    retFR s k f.rd (fMinMax true (sBit f) (rmOf k) (fget k f.ra) (fget k f.rb))))

/-- FCPYS (Table 5.11, R183): the sign of b on a. S must be 0; no flag. -/
def execFcpys (c : CoreRef) (f : Fields) (s : State) : Host.Outcome State Fault Refusal :=
  runLane s c (fun s k => legal (f.mod == 0) s (wordOf 8 0x08 f) (
    retF s k f.rd (((fget k f.ra) &&& 0x7FFFFFFFFFFFFFFF) ||| ((fget k f.rb) &&& 0x8000000000000000)) 0))

/-- FCPYN (Table 5.11, R183): the inverse sign of b on a. S must be 0; no flag. -/
def execFcpyn (c : CoreRef) (f : Fields) (s : State) : Host.Outcome State Fault Refusal :=
  runLane s c (fun s k => legal (f.mod == 0) s (wordOf 8 0x09 f) (
    retF s k f.rd (((fget k f.ra) &&& 0x7FFFFFFFFFFFFFFF) ||| (~~~(fget k f.rb) &&& 0x8000000000000000)) 0))

/-- FCPYX (Table 5.11, R183): the product of the signs on a. S must be 0; no flag. -/
def execFcpyx (c : CoreRef) (f : Fields) (s : State) : Host.Outcome State Fault Refusal :=
  runLane s c (fun s k => legal (f.mod == 0) s (wordOf 8 0x0A f) (
    retF s k f.rd ((fget k f.ra) ^^^ ((fget k f.rb) &&& 0x8000000000000000)) 0))

/-- FMADD (Table 5.11, R186): a × b + c, rounded once. -/
def execFmadd (c : CoreRef) (f : Fields) (s : State) : Host.Outcome State Fault Refusal :=
  runLane s c (fun s k => legal (!f.mod.getLsbD 1) s (wordOf 8 0x10 f) (
    retFR s k f.rd (fMadd false false (sBit f) (rmOf k) (fget k f.ra) (fget k f.rb) (fget k (rcOf f)))))

/-- FMSUB (Table 5.11, R186): a × b - c, rounded once. -/
def execFmsub (c : CoreRef) (f : Fields) (s : State) : Host.Outcome State Fault Refusal :=
  runLane s c (fun s k => legal (!f.mod.getLsbD 1) s (wordOf 8 0x11 f) (
    retFR s k f.rd (fMadd false true (sBit f) (rmOf k) (fget k f.ra) (fget k f.rb) (fget k (rcOf f)))))

/-- FNMADD (Table 5.11, R186): -(a × b) - c, rounded once. -/
def execFnmadd (c : CoreRef) (f : Fields) (s : State) : Host.Outcome State Fault Refusal :=
  runLane s c (fun s k => legal (!f.mod.getLsbD 1) s (wordOf 8 0x12 f) (
    retFR s k f.rd (fMadd true true (sBit f) (rmOf k) (fget k f.ra) (fget k f.rb) (fget k (rcOf f)))))

/-- FNMSUB (Table 5.11, R186): -(a × b) + c, rounded once. -/
def execFnmsub (c : CoreRef) (f : Fields) (s : State) : Host.Outcome State Fault Refusal :=
  runLane s c (fun s k => legal (!f.mod.getLsbD 1) s (wordOf 8 0x13 f) (
    retFR s k f.rd (fMadd true false (sBit f) (rmOf k) (fget k f.ra) (fget k f.rb) (fget k (rcOf f)))))

/-- FCMPEQ (Table 5.11): equal; NV only for a signalling NaN. -/
def execFcmpeq (c : CoreRef) (f : Fields) (s : State) : Host.Outcome State Fault Refusal :=
  runLane s c (fun s k => legal (f.mod == 0) s (wordOf 9 0x00 f) (
    retGF s k f.rd (word01 (fEq (fget k f.ra) (fget k f.rb))) (fCmpFlags false (fget k f.ra) (fget k f.rb))))

/-- FCMPLT (Table 5.11): less; NV for any NaN. -/
def execFcmplt (c : CoreRef) (f : Fields) (s : State) : Host.Outcome State Fault Refusal :=
  runLane s c (fun s k => legal (f.mod == 0) s (wordOf 9 0x01 f) (
    retGF s k f.rd (word01 (fLt (fget k f.ra) (fget k f.rb))) (fCmpFlags true (fget k f.ra) (fget k f.rb))))

/-- FCMPLE (Table 5.11): less or equal; NV for any NaN. -/
def execFcmple (c : CoreRef) (f : Fields) (s : State) : Host.Outcome State Fault Refusal :=
  runLane s c (fun s k => legal (f.mod == 0) s (wordOf 9 0x02 f) (
    retGF s k f.rd (word01 (fLt (fget k f.ra) (fget k f.rb) || fEq (fget k f.ra) (fget k f.rb))) (fCmpFlags true (fget k f.ra) (fget k f.rb))))

/-- FKIND (Table 5.11): the kind code; no flag. -/
def execFkind (c : CoreRef) (f : Fields) (s : State) : Host.Outcome State Fault Refusal :=
  runLane s c (fun s k => legal (f.mod == 0) s (wordOf 9 0x03 f) (
    retG s k f.rd (fKind (fget k f.ra))))

/-- FTOL (Table 5.11, R184): to a signed 64-bit integer. -/
def execFtol (c : CoreRef) (f : Fields) (s : State) : Host.Outcome State Fault Refusal :=
  runLane s c (fun s k => legal (f.mod == 0) s (wordOf 9 0x08 f) (
    retGR s k f.rd (cvtRes k (fget k f.ra) (-(2 ^ 63)) (2 ^ 63 - 1))))

/-- FTOLU (Table 5.11, R184): to an unsigned 64-bit integer. -/
def execFtolu (c : CoreRef) (f : Fields) (s : State) : Host.Outcome State Fault Refusal :=
  runLane s c (fun s k => legal (f.mod == 0) s (wordOf 9 0x09 f) (
    retGR s k f.rd (cvtRes k (fget k f.ra) 0 (2 ^ 64 - 1))))

/-- FTOW (Table 5.11, R184): to a signed 32-bit integer. -/
def execFtow (c : CoreRef) (f : Fields) (s : State) : Host.Outcome State Fault Refusal :=
  runLane s c (fun s k => legal (f.mod == 0) s (wordOf 9 0x0A f) (
    retGR s k f.rd (cvtRes k (fget k f.ra) (-(2 ^ 31)) (2 ^ 31 - 1))))

/-- FTOWU (Table 5.11, R184): to an unsigned 32-bit integer. -/
def execFtowu (c : CoreRef) (f : Fields) (s : State) : Host.Outcome State Fault Refusal :=
  runLane s c (fun s k => legal (f.mod == 0) s (wordOf 9 0x0B f) (
    retGR s k f.rd (cvtRes k (fget k f.ra) 0 (2 ^ 32 - 1))))

/-- FFROML (Table 5.11, R183): a signed integer, rounded. -/
def execFfroml (c : CoreRef) (f : Fields) (s : State) : Host.Outcome State Fault Refusal :=
  runLane s c (fun s k => legal (fmtMod f) s (wordOf 9 0x10 f) (
    retFR s k f.rd (fRoundInt (fmtOf (sBit f)) (rmOf k) (gget k f.ra).toInt 0 false)))

/-- FFROMLU (Table 5.11, R183): an unsigned integer, rounded. -/
def execFfromlu (c : CoreRef) (f : Fields) (s : State) : Host.Outcome State Fault Refusal :=
  runLane s c (fun s k => legal (fmtMod f) s (wordOf 9 0x11 f) (
    retFR s k f.rd (fRoundInt (fmtOf (sBit f)) (rmOf k) ((gget k f.ra).toNat : Int) 0 false)))

/-- FRND32 (Table 5.11, R185): rounded once to binary32. -/
def execFrnd32 (c : CoreRef) (f : Fields) (s : State) : Host.Outcome State Fault Refusal :=
  runLane s c (fun s k => legal (f.mod == 0) s (wordOf 9 0x18 f) (
    retFR s k f.rd (fRnd32 (rmOf k) (fget k f.ra))))

/-- FIS32 (Table 5.11): 1 for a NaN or a value that binary32 represents exactly; no flag. -/
def execFis32 (c : CoreRef) (f : Fields) (s : State) : Host.Outcome State Fault Refusal :=
  runLane s c (fun s k => legal (f.mod == 0) s (wordOf 9 0x19 f) (
    retG s k f.rd (word01 (fIs32 (fget k f.ra)))))

/-- FTOG (Table 5.11): the 64 bits of f[ra]. -/
def execFtog (c : CoreRef) (f : Fields) (s : State) : Host.Outcome State Fault Refusal :=
  runLane s c (fun s k => legal (f.mod == 0) s (wordOf 9 0x20 f) (
    retG s k f.rd (fget k f.ra)))

/-- FFROMG (Table 5.11): the 64 bits of g[ra]. -/
def execFfromg (c : CoreRef) (f : Fields) (s : State) : Host.Outcome State Fault Refusal :=
  runLane s c (fun s k => legal (f.mod == 0) s (wordOf 9 0x21 f) (
    retF s k f.rd (gget k f.ra) 0))

end Sys2Proof.Machine
end

