-- ==== Sys2Proof/Machine/IsaFlow.lean ====
section
/-! DEFINITION. Branches, jumps, system and control-register instructions (classes 6, 7 and 11; Tables 5.10, 5.12). -/

namespace Sys2Proof.Machine

open Sys2Proof

/-- A branch target: PC + sx(imm12b, 12) × 4 (R182). -/
def branchTarget (k : Core) (f : Fields) : Word := k.pc + ((imm12b f).signExtend 64) * 4

/-- A branch (R182). -/
def branchIf (s : State) (k : Core) (f : Fields) (b : Bool) : Act :=
  retPc s k (if b then branchTarget k f else k.pc + 4)

/-- The control-register index: MOD[5:0] (R189). -/
def crIndex (f : Fields) : Nat := f.mod.toNat % 64

/-- A control register exists for the supervisor (Table 5.1). -/
def crExists (i : Nat) : Bool := decide (i < 20) || decide (32 ≤ i)

/-- What a read of a control register gives (Table 5.1). -/
def crRead (s : State) (c : CoreRef) (k : Core) (i : Nat) : Word :=
  let ln := laneOf s c.lane
  let r := k.cr
  if h : 32 ≤ i ∧ i < 48 then r.protBase[i - 32]
  else if h : 48 ≤ i ∧ i < 64 then r.protAttr[i - 48]
  else match i with
  | 0 => s.epoch.no
  | 1 => BitVec.ofNat 64 (boundaryNs s.epoch)
  | 2 => BitVec.ofNat 64 (c.lane.val + (if isSplit ln && c.core == .trailing then 8 else 0))
  | 3 => s.slot.zeroExtend 64
  | 4 => s.lanes.imageGen.zeroExtend 64
  | 5 => r.taskClass
  | 6 => r.rm.zeroExtend 64
  | 7 => r.fflags.zeroExtend 64
  | 8 => r.iflags.zeroExtend 64
  | 9 => r.status.zeroExtend 64
  | 10 => r.cause.zeroExtend 64
  | 11 => r.epc
  | 12 => r.eval
  | 13 => r.vbase
  | 14 => r.scratch0
  | 15 => r.scratch1
  | 16 => r.taskTab
  | 17 => r.taskSel
  | 18 => if ln.epochState = .compute then BitVec.ofNat 64 (warningNs s.epoch - tb2 s) else 0
  | 19 => k.retired
  | _ => 0

/-- EN of PROT_ATTR_k. -/
def protEn (v : Word) : Bool := v.getLsbD 0

/-- A value of PROT_ATTR_k that R220 refuses: store with execute rights, or LIMIT below BASE, while enabled. -/
def protBad (base v : Word) : Bool :=
  protEn v && ((v.getLsbD 2 || v.getLsbD 5) && (v.getLsbD 3 || v.getLsbD 6)
    || decide (field v.toNat 39 12 < field base.toNat 39 12))

/-- The control registers after a supervisor write of `v` to index `i`, TASK_SEL aside; none where the write is an
illegal instruction (R171, R174, R220). DESIGN CHOICE: a write leaves STATUS.PRIV at 1, since user mode is entered only
through RETURN (R173), although Table 5.4 marks the field RW (log entry 96). -/
def crWrite (k : Core) (i : Nat) (v : Word) : Option CtrlRegs :=
  let r := k.cr
  if h : 32 ≤ i ∧ i < 48 then
    if protEn r.protAttr[i - 32] then none
    else some { r with protBase := r.protBase.set (i - 32) (v &&& 0x000000FFFFFFF000) }
  else if h : 48 ≤ i ∧ i < 64 then
    let v := v &&& 0x000000FFFFFFF07F
    if protBad r.protBase[i - 48] v then none else some { r with protAttr := r.protAttr.set (i - 48) v }
  else match i with
  | 6 => some (if v.toNat % 8 ≤ 4 then { r with rm := v.extractLsb' 0 3 } else r)
  | 7 => some { r with fflags := v.extractLsb' 0 5 }
  | 8 => some { r with iflags := v.extractLsb' 0 3 }
  | 9 => some { r with status := (r.status &&& 0b11001) ||| (v.extractLsb' 0 5 &&& 0b00110) }
  | 10 => some { r with cause := v.extractLsb' 0 9 }
  | 11 => some { r with epc := v &&& ~~~(3 : Word) }
  | 12 => some { r with eval := v }
  | 13 => some { r with vbase := v &&& ~~~(0xFF : Word) }
  | 14 => some { r with scratch0 := v }
  | 15 => some { r with scratch1 := v }
  | 16 => if k.taskTabLocked || v.toNat % 32 ≠ 0 then none else some { r with taskTab := v }
  | _ => none

/-- An access to a control register that is an illegal instruction whatever is written (R170, R171). -/
def crIllegal (k : Core) (i : Nat) (write : Bool) : Bool :=
  if !crExists i then true
  else if isSup k then write && (decide (i ≤ 5) || i == 18 || i == 19)
  else if write then !(i == 7 || i == 8)
  else !(decide (i ≤ 8) || i == 18 || i == 19)

/-- Control registers whose value differs between the cores of a PAIRED lane unless L's is passed on: STATUS with
its pending bits, and BUDGET_LEFT (R134, log entry 23). -/
def crPassed (i : Nat) : Bool := i == 9 || i == 18

/-- The value of a control register as an instruction reads it; T takes a timing-dependent one from L (R134). -/
def readCr (s : State) (c : CoreRef) (k : Core) (i : Nat) (cont : State → Word → Option (DriftKind × Word) → Act) :
    Act :=
  if crPassed i && checkedLane s c.lane then
    match c.core with
    | .leading => cont s (crRead s c k i) (some (.device, crRead s c k i))
    | .trailing => fromDrift s c .device (fun s v => cont s v none)
  else cont s (crRead s c k i) none

/-- The address of task descriptor `i` (R174). -/
def descAddr (k : Core) (i : Nat) : Word := k.cr.taskTab + BitVec.ofNat 64 (32 * i)

/-- The first 8 bytes of a descriptor are valid for task `i` (R175, Table 5.5). -/
def descOk (i : Nat) (v : Word) : Bool :=
  v.toNat % 256 == i && decide (v.toNat / 2 ^ 8 % 256 < 4) && decide (v.toNat / 2 ^ 16 % 256 ≤ 4)
    && v.getLsbD 24 && decide (v.toNat / 2 ^ 24 % 256 < 4)

/-- The descriptor can be read by this core (R175): in its data TCM or its DRAM, and not refused. -/
def descReach (s : State) (c : CoreRef) (k : Core) (a : Word) : Bool :=
  let there := match regionOf a.toNat with
    | .dtcm _ => true
    | .dram _ => true
    | _ => false
  there && (accessExc s c k false a 8).isNone

/-- A core with task `i` selected (R175, R176). -/
def selectTask (k : Core) (i : Nat) (v : Word) : Core :=
  { k with latchedRm := v.extractLsb' 16 3
           cr := { k.cr with taskSel := BitVec.ofNat 64 i
                             taskClass := BitVec.ofNat 64 (v.toNat / 2 ^ 8 % 4 + 256 * i) } }

/-- A supervisor write of `v` to TASK_SEL (R175). -/
def writeTaskSel (s : State) (c : CoreRef) (k : Core) (v : Word)
    (cont : State → Core → Option (DriftKind × Word) → Act) : Act :=
  let a := descAddr k v.toNat
  let bad := fun (s : State) => Act.exc s ⟨1, false, false, a⟩
  if 255 < v.toNat then .exc s ⟨1, false, false, v⟩
  else if !descReach s c k a then bad s
  else doLoad s c k a 8 (fun s d e =>
    if descOk v.toNat d then cont s (selectTask k v.toNat d) e
    else match e with
      | some (kind, x) => bad (putLane s c.lane (driftPut (laneOf s c.lane) kind x (seqOf k)))
      | none => bad s)

/-- A write of a control register by CRW, CRS or CRC, with the old value to g[rd] (R171, R189). -/
def crModify (s : State) (c : CoreRef) (k : Core) (f : Fields) (word : U32) (new : Word → Word) : Act :=
  let i := crIndex f
  legal (!f.mod.getLsbD 6 && f.rb == 0 && !crIllegal k i true) s word (
    if i = 17 then
      let old := k.cr.taskSel
      writeTaskSel s c k (new old) (fun s k' e =>
        .done s { k := putG k' f.rd old, regs := gRecord f.rd old, store := none, entry := e, yields := false })
    else match crWrite k i (new (crRead s c k i)) with
      | none => illegal s word
      | some r => readCr s c k i (fun s old e =>
          .done s { k := { putG k f.rd old with cr := r }, regs := gRecord f.rd old, store := none, entry := e
                    yields := false }))

/-- BEQ (Table 5.10, R182): branches when the condition holds. -/
def execBeq (c : CoreRef) (f : Fields) (s : State) : Host.Outcome State Fault Refusal :=
  runLane s c (fun s k => branchIf s k f (gget k f.ra == gget k f.rb))

/-- BNE (Table 5.10, R182): branches when the condition holds. -/
def execBne (c : CoreRef) (f : Fields) (s : State) : Host.Outcome State Fault Refusal :=
  runLane s c (fun s k => branchIf s k f (gget k f.ra != gget k f.rb))

/-- BLT (Table 5.10, R182): branches when the condition holds. -/
def execBlt (c : CoreRef) (f : Fields) (s : State) : Host.Outcome State Fault Refusal :=
  runLane s c (fun s k => branchIf s k f ((gget k f.ra).slt (gget k f.rb)))

/-- BGE (Table 5.10, R182): branches when the condition holds. -/
def execBge (c : CoreRef) (f : Fields) (s : State) : Host.Outcome State Fault Refusal :=
  runLane s c (fun s k => branchIf s k f ((gget k f.rb).sle (gget k f.ra)))

/-- BLTU (Table 5.10, R182): branches when the condition holds. -/
def execBltu (c : CoreRef) (f : Fields) (s : State) : Host.Outcome State Fault Refusal :=
  runLane s c (fun s k => branchIf s k f ((gget k f.ra).ult (gget k f.rb)))

/-- BGEU (Table 5.10, R182): branches when the condition holds. -/
def execBgeu (c : CoreRef) (f : Fields) (s : State) : Host.Outcome State Fault Refusal :=
  runLane s c (fun s k => branchIf s k f ((gget k f.rb).ule (gget k f.ra)))

/-- JAL (Table 5.10, R182): link and jump relative. -/
def execJal (c : CoreRef) (f : Fields) (s : State) : Host.Outcome State Fault Refusal :=
  runLane s c (fun s k => 
    .done s { k := { gset k f.rd (k.pc + 4) with pc := k.pc + ((imm17 f).signExtend 64) * 4 }
              regs := gRecord f.rd (k.pc + 4), store := none, entry := none, yields := false })

/-- JALR (Table 5.10, R182): link and jump to a register; MISALIGNED when the target is no multiple of 4. -/
def execJalr (c : CoreRef) (f : Fields) (s : State) : Host.Outcome State Fault Refusal :=
  runLane s c (fun s k => 
    let t := gget k f.ra + immI f
    if t.toNat % 4 ≠ 0 then .exc s ⟨2, false, false, t⟩
    else .done s { k := { gset k f.rd (k.pc + 4) with pc := t }, regs := gRecord f.rd (k.pc + 4)
                  , store := none, entry := none, yields := false })

/-- A core yields at this instruction (R132, R191), once its window can close (R145). -/
def yieldAct (s : State) (c : CoreRef) (k : Core) (commit : Bool) : Act :=
  if checkedLane s c.lane && !windowRoom k then .wait s
  else .done (yieldNote s c k) { k := yieldCore k commit, regs := [], store := none, entry := none, yields := true }

/-- YIELD (Table 5.12, R189, R191): a drain point; commits if MOD[0] is 1; suspends until the next seal. -/
def execYield (c : CoreRef) (f : Fields) (s : State) : Host.Outcome State Fault Refusal :=
  runLane s c (fun s k =>
    legal (isSup k && decide (f.mod.toNat < 2) && f.rd == 0 && f.ra == 0 && f.rb == 0) s (wordOf 11 0x00 f)
      (yieldAct s c k (f.mod.getLsbD 0)))

/-- A RETURN to user mode finds the lane no longer in COMPUTE (R173): L by the lane's state, and T where L has stopped at this
very instruction. -/
def returnLate (s : State) (c : CoreRef) : Bool :=
  let ln := laneOf s c.lane
  if follows s c then ln.drain = some .yield && lead ln == 1 else ln.epochState != .compute

/-- TRAP (Table 5.12): exception TRAP with EVAL = zx(imm12, 12). -/
def execTrap (c : CoreRef) (f : Fields) (s : State) : Host.Outcome State Fault Refusal :=
  runLane s c (fun s _ => .exc s ⟨6, false, false, (imm12 f).zeroExtend 64⟩)

/-- RETURN (Table 5.12, R173, R174, R176): PC = EPC, PRIV = PREV_PRIV, EXC = 0; into user mode RM takes the latched mode and
TASK_TAB becomes read-only. User mode exists only in COMPUTE; DESIGN CHOICE: a RETURN to it in a LATE lane acts as YIELD without
COMMIT (log entry 96). -/
def execRet (c : CoreRef) (f : Fields) (s : State) : Host.Outcome State Fault Refusal :=
  runLane s c (fun s k => legal (isSup k) s (wordOf 11 0x02 f) (
    let st := k.cr.status
    let sup := st.getLsbD 1
    let cr : CtrlRegs := { k.cr with
      status := (st &&& 0b11010) ||| (if sup then 1 else 0), rm := if sup then k.cr.rm else k.latchedRm }
    let k' : Core := { k with pc := k.cr.epc, cr := cr, taskTabLocked := k.taskTabLocked || !sup }
    if !sup && returnLate s c then yieldAct s c k false
    else .done s { k := k', regs := [], store := none, entry := none, yields := false }))

/-- CRR (Table 5.12, R189, R194): g[rd] = cr[idx]. RA and RB must be 0. -/
def execCrr (c : CoreRef) (f : Fields) (s : State) : Host.Outcome State Fault Refusal :=
  runLane s c (fun s k =>
    let i := crIndex f
    legal (!f.mod.getLsbD 6 && f.ra == 0 && f.rb == 0 && !crIllegal k i false) s (wordOf 11 0x08 f) (
    if !isSup k && (i == 18 || i == 19) then .exc s ⟨4, false, false, BitVec.ofNat 64 i⟩
    else readCr s c k i (fun s v e =>
      .done s { k := putG k f.rd v, regs := gRecord f.rd v, store := none, entry := e, yields := false })))

/-- CRW (Table 5.12, R171, R189): cr[idx] = g[ra], the old value to g[rd]. -/
def execCrw (c : CoreRef) (f : Fields) (s : State) : Host.Outcome State Fault Refusal :=
  runLane s c (fun s k => crModify s c k f (wordOf 11 0x09 f) (fun _ => gget k f.ra))

/-- CRS (Table 5.12, R171, R189): sets the bits of g[ra], the old value to g[rd]. -/
def execCrs (c : CoreRef) (f : Fields) (s : State) : Host.Outcome State Fault Refusal :=
  runLane s c (fun s k => crModify s c k f (wordOf 11 0x0A f) (fun old => old ||| gget k f.ra))

/-- CRC (Table 5.12, R171, R189): clears the bits of g[ra], the old value to g[rd]. -/
def execCrc (c : CoreRef) (f : Fields) (s : State) : Host.Outcome State Fault Refusal :=
  runLane s c (fun s k => crModify s c k f (wordOf 11 0x0B f) (fun old => old &&& ~~~(gget k f.ra)))

end Sys2Proof.Machine
end

