-- ==== Sys2Proof/Machine/IsaMem.lean ====
section
/-! DEFINITION. Loads, stores, atomics and the fence (classes 4, 5 and 10; Tables 5.10 and 5.12). -/

namespace Sys2Proof.Machine

open Sys2Proof

/-- The effective address of a load or store: `wrap(Au + I)` (R182). -/
def effAddr (k : Core) (f : Fields) : Word := gget k f.ra + immI f

/-- A load into g[rd] (R182): `ext` extends the value. -/
def loadG (s : State) (c : CoreRef) (k : Core) (f : Fields) (size : Nat) (ext : Word → Word) : Act :=
  doLoad s c k (effAddr k f) size (fun s v e =>
    .done s { k := putG k f.rd (ext v), regs := gRecord f.rd (ext v), store := none, entry := e, yields := false })

/-- A load into f[rd] (R182, R187). -/
def loadF (s : State) (c : CoreRef) (k : Core) (f : Fields) (size : Nat) (ext : Word → Word) : Act :=
  doLoad s c k (effAddr k f) size (fun s v e =>
    .done s { k := putF k f.rd (ext v), regs := [(32 + f.rd.toNat, ext v)], store := none, entry := e
              yields := false })

/-- A store of the low `size` bytes of a value; `fl` are the flags of a narrowing (R182, R187). -/
def storeV (s : State) (c : CoreRef) (k : Core) (f : Fields) (size : Nat) (v : Word) (fl : BitVec 5) : Act :=
  let a := effAddr k f
  doStore s c k a size v (fun s k' =>
    .done s { k := { k' with pc := k'.pc + 4, cr := orFflags k'.cr fl }, regs := []
              store := some (a.toNat, size, v), entry := none, yields := false })

/-- An atomic (R188): `op` gives the new value from the old one and g[rb], or none where nothing is stored. -/
def atomicV (s : State) (c : CoreRef) (k : Core) (f : Fields) (minor : BitVec 6)
    (op : (n : Nat) → BitVec n → BitVec n → Option (BitVec n)) : Act :=
  let b := gget k f.rb
  let a := gget k f.ra
  if f.mod = 0 then
    doAtomic s c k a 8 (fun old => op 64 old b) (fun s old new e =>
      .done s { k := putG k f.rd old, regs := gRecord f.rd old, store := new.map (fun v => (a.toNat, 8, v))
                entry := e, yields := false })
  else if f.mod = 1 then
    doAtomic s c k a 4 (fun old => (op 32 (old.extractLsb' 0 32) (b.extractLsb' 0 32)).map (·.zeroExtend 64))
      (fun s old new e =>
        let r := (old.extractLsb' 0 32).signExtend 64
        .done s { k := putG k f.rd r, regs := gRecord f.rd r, store := new.map (fun v => (a.toNat, 4, v))
                  entry := e, yields := false })
  else illegal s (wordOf 10 minor f)

/-- LB (Table 5.10, R182): a byte, sign-extended. -/
def execLb (c : CoreRef) (f : Fields) (s : State) : Host.Outcome State Fault Refusal :=
  runLane s c (fun s k => loadG s c k f 1 (fun v => (v.extractLsb' 0 8).signExtend 64))

/-- LBU (Table 5.10, R182): a byte. -/
def execLbu (c : CoreRef) (f : Fields) (s : State) : Host.Outcome State Fault Refusal :=
  runLane s c (fun s k => loadG s c k f 1 (id))

/-- LH (Table 5.10, R182): a half-word, sign-extended. -/
def execLh (c : CoreRef) (f : Fields) (s : State) : Host.Outcome State Fault Refusal :=
  runLane s c (fun s k => loadG s c k f 2 (fun v => (v.extractLsb' 0 16).signExtend 64))

/-- LHU (Table 5.10, R182): a half-word. -/
def execLhu (c : CoreRef) (f : Fields) (s : State) : Host.Outcome State Fault Refusal :=
  runLane s c (fun s k => loadG s c k f 2 (id))

/-- LW (Table 5.10, R182): a word, sign-extended. -/
def execLw (c : CoreRef) (f : Fields) (s : State) : Host.Outcome State Fault Refusal :=
  runLane s c (fun s k => loadG s c k f 4 (fun v => (v.extractLsb' 0 32).signExtend 64))

/-- LWU (Table 5.10, R182): a word. -/
def execLwu (c : CoreRef) (f : Fields) (s : State) : Host.Outcome State Fault Refusal :=
  runLane s c (fun s k => loadG s c k f 4 (id))

/-- LD (Table 5.10, R182): a double word. -/
def execLd (c : CoreRef) (f : Fields) (s : State) : Host.Outcome State Fault Refusal :=
  runLane s c (fun s k => loadG s c k f 8 (id))

/-- FLW (Table 5.10, R182): a binary32 value, widened exactly (R187). -/
def execFlw (c : CoreRef) (f : Fields) (s : State) : Host.Outcome State Fault Refusal :=
  runLane s c (fun s k => loadF s c k f 4 (fun v => fWiden (v.extractLsb' 0 32)))

/-- FLD (Table 5.10, R182): a binary64 value. -/
def execFld (c : CoreRef) (f : Fields) (s : State) : Host.Outcome State Fault Refusal :=
  runLane s c (fun s k => loadF s c k f 8 (id))

/-- SB (Table 5.10, R182): a byte. -/
def execSb (c : CoreRef) (f : Fields) (s : State) : Host.Outcome State Fault Refusal :=
  runLane s c (fun s k => storeV s c k f 1 (gget k f.rd) 0)

/-- SH (Table 5.10, R182): a half-word. -/
def execSh (c : CoreRef) (f : Fields) (s : State) : Host.Outcome State Fault Refusal :=
  runLane s c (fun s k => storeV s c k f 2 (gget k f.rd) 0)

/-- SW (Table 5.10, R182): a word. -/
def execSw (c : CoreRef) (f : Fields) (s : State) : Host.Outcome State Fault Refusal :=
  runLane s c (fun s k => storeV s c k f 4 (gget k f.rd) 0)

/-- SD (Table 5.10, R182): a double word. -/
def execSd (c : CoreRef) (f : Fields) (s : State) : Host.Outcome State Fault Refusal :=
  runLane s c (fun s k => storeV s c k f 8 (gget k f.rd) 0)

/-- FSD (Table 5.10, R182): a binary64 value. -/
def execFsd (c : CoreRef) (f : Fields) (s : State) : Host.Outcome State Fault Refusal :=
  runLane s c (fun s k => storeV s c k f 8 (fget k f.rd) 0)

/-- FSW (Table 5.10, R187): a value narrowed to binary32 under RM. -/
def execFsw (c : CoreRef) (f : Fields) (s : State) : Host.Outcome State Fault Refusal :=
  runLane s c (fun s k => 
    let r := fNarrow k.cr.rm.toNat (fget k f.rd)
    storeV s c k f 4 (r.1.zeroExtend 64) r.2)

/-- ATSWAP (Table 5.12, R188): atomic swap. -/
def execAtswap (c : CoreRef) (f : Fields) (s : State) : Host.Outcome State Fault Refusal :=
  runLane s c (fun s k => atomicV s c k f 0x00 (fun _ _ b => some b))

/-- ATADD (Table 5.12, R188): atomic add. -/
def execAtadd (c : CoreRef) (f : Fields) (s : State) : Host.Outcome State Fault Refusal :=
  runLane s c (fun s k => atomicV s c k f 0x01 (fun _ old b => some (old + b)))

/-- ATAND (Table 5.12, R188): atomic and. -/
def execAtand (c : CoreRef) (f : Fields) (s : State) : Host.Outcome State Fault Refusal :=
  runLane s c (fun s k => atomicV s c k f 0x02 (fun _ old b => some (old &&& b)))

/-- ATORR (Table 5.12, R188): atomic or. -/
def execAtorr (c : CoreRef) (f : Fields) (s : State) : Host.Outcome State Fault Refusal :=
  runLane s c (fun s k => atomicV s c k f 0x03 (fun _ old b => some (old ||| b)))

/-- ATXOR (Table 5.12, R188): atomic exclusive or. -/
def execAtxor (c : CoreRef) (f : Fields) (s : State) : Host.Outcome State Fault Refusal :=
  runLane s c (fun s k => atomicV s c k f 0x04 (fun _ old b => some (old ^^^ b)))

/-- ATMIN (Table 5.12, R188): atomic signed minimum. -/
def execAtmin (c : CoreRef) (f : Fields) (s : State) : Host.Outcome State Fault Refusal :=
  runLane s c (fun s k => atomicV s c k f 0x05 (fun _ old b => some (if old.sle b then old else b)))

/-- ATMAX (Table 5.12, R188): atomic signed maximum. -/
def execAtmax (c : CoreRef) (f : Fields) (s : State) : Host.Outcome State Fault Refusal :=
  runLane s c (fun s k => atomicV s c k f 0x06 (fun _ old b => some (if old.sle b then b else old)))

/-- ATMINU (Table 5.12, R188): atomic unsigned minimum. -/
def execAtminu (c : CoreRef) (f : Fields) (s : State) : Host.Outcome State Fault Refusal :=
  runLane s c (fun s k => atomicV s c k f 0x07 (fun _ old b => some (if old.ule b then old else b)))

/-- ATMAXU (Table 5.12, R188): atomic unsigned maximum. -/
def execAtmaxu (c : CoreRef) (f : Fields) (s : State) : Host.Outcome State Fault Refusal :=
  runLane s c (fun s k => atomicV s c k f 0x08 (fun _ old b => some (if old.ule b then b else old)))

/-- ATCAS (Table 5.12, R188): atomic compare with g[rd] and swap. -/
def execAtcas (c : CoreRef) (f : Fields) (s : State) : Host.Outcome State Fault Refusal :=
  runLane s c (fun s k => atomicV s c k f 0x09 (fun n old b => if old = (gget k f.rd).setWidth n then some b else none))

/-- FENCE (Table 5.12, R203): orders accesses; in a core that performs its accesses in order it only advances the PC. MOD[6:2], RD,
RA and RB must be 0. -/
def execFence (c : CoreRef) (f : Fields) (s : State) : Host.Outcome State Fault Refusal :=
  runLane s c (fun s k => legal (f.mod.toNat < 4 && f.rd == 0 && f.ra == 0 && f.rb == 0) s (wordOf 10 0x20 f) (
    retPc s k (k.pc + 4)))

end Sys2Proof.Machine
end

