-- ==== Sys2Proof/Machine/MbUpdate.lean ====
section
/-! DEFINITION. The update and the configuration group of mailbox commands, and the ends of their long commands
(chapters 16 and 17, R466, R475, R476, R493). -/

namespace Sys2Proof.Machine

open Sys2Proof

/-- BANK_STATE in force. -/
def bankNow (s : State) : BankState := (dirNow s).bank

/-- Bank state codes (Table 16.7). -/
def bankCode : BankState → Nat
  | .valid => 0 | .writing => 1 | .complete => 2 | .invalid => 3

/-- The format and COMMIT_FW of a slot, 0 for none. -/
def slotInfo (s : State) (i : Option (Fin 2)) : Nat × Nat := match i with
  | some i => ((dirNow s).format[i].toNat, (dirNow s).commitFw[i].toNat)
  | none => (0, 0)

/-- UPD_GET_STATUS response (Table 16.12). -/
def updStatus (s : State) : List Byte :=
  let b := s.boot
  let h := setHeader s
  let ok := headerOk h
  let flags := bitsNum [b.rstStuckPowerOn, b.rstStuckService, b.containerRestored, b.containerUnreadable, b.bootLock]
  let cur := slotInfo s (currentSlot s)
  let ret := slotInfo s ((currentSlot s).map otherSlot)
  let size := if bankNow s = .writing && b.updOwner.isSome then b.setSize else if ok then u64 h 8 else 0
  b8 (bankCode (bankNow s)) ++ b8 b.reason.toNat ++ b8 b.step.toNat ++ b8 flags
    ++ b8 ((b.updOwner.map (·.val)).getD 0xFF) ++ zeros 3 ++ leBytes 8 b.written ++ leBytes 8 size
    ++ leBytes 4 s.otp.loader.toNat ++ leBytes 4 b.fwRunning.toNat ++ leBytes 4 (if ok then u32 h 20 else 0)
    ++ leBytes 4 (if ok then u32 h 16 else 0) ++ leBytes 2 cur.1 ++ leBytes 2 ret.1 ++ leBytes 4 cur.2 ++ leBytes 4 ret.2
    ++ fit 16 (b.formats.flatMap (fun f => leBytes 2 f.toNat)) ++ leBytes 4 b.startMs.toNat ++ zeros 4

/-- UPD_GET_STATUS. -/
def execUpdGetStatus (pair : PairId) (s : State) : Host.Outcome State Fault Refusal :=
  serve s pair (readCmd 0x0B00 2 0) (reads (fun s _ => okWith (updStatus s)))

/-- The states in which an update may begin (R466). -/
def updStates (s : State) : Bool :=
  s.boot.recovery || s.weft.own = .withdrawn || s.weft.own = .foreign || s.weft.own = .unconfigured || s.weft.own = .bench

/-- A write is in progress that another mailbox owns (R466). -/
def updOther (s : State) (pair : PairId) : Bool := s.boot.updOwner.isSome && s.boot.updOwner != some pair

/-- A write is in progress: the bank is WRITING and a mailbox owns it. A reset leaves WRITING without an owner (R465). -/
def updOpen (s : State) : Bool := bankNow s = .writing && s.boot.updOwner.isSome

/-- UPD_BEGIN (R466, R476): WRITING goes to the directory first, and the command runs on. -/
def updBeginBody (pair : PairId) : Body := fun s p =>
  let n := u64 p 0
  if n < 1024 || 536870912 < n || n % 8 != 0 || !allZero p 12 4 then (s, some (failWith stParam))
  else if !updStates s then (s, some (failWith stPermit))
  else if bankNow s = .writing && updOther s pair then (s, some (failWith stBusy))
  else
    let s := dirBank s .writing
    ({ s with boot := { s.boot with updOwner := some pair, written := 0, setSize := n, setGen := BitVec.ofNat 32 (u32 p 8) } }
      , none)

/-- UPD_BEGIN. -/
def execUpdBegin (pair : PairId) (s : State) : Host.Outcome State Fault Refusal :=
  serve s pair (changeCmd 0x0B01 2 16) (updBeginBody pair)

/-- The checks of a write at OFFSET with `n` data bytes (R476): DETAIL, 0 for none. -/
def writeDetail (off n written size : Nat) : Nat :=
  if off != written then 1 else if size < off + n then 2 else if n % 8 != 0 && off + n != size then 3 else 0

/-- UPD_WRITE (R476): the checks, then the flash write, which LONG_COMMAND_DONE ends. -/
def updWriteBody (pair : PairId) : Body := fun s p =>
  let d := writeDetail (u64 p 0) (p.length - 8) s.boot.written s.boot.setSize
  if d != 0 then (s, some ⟨stParam, d, leBytes 8 s.boot.written⟩)
  else if !updOpen s then (s, some (failWith stPermit))
  else if updOther s pair then (s, some (failWith stBusy))
  else (s, none)

/-- UPD_WRITE: segmented. -/
def execUpdWrite (pair : PairId) (s : State) : Host.Outcome State Fault Refusal :=
  serve s pair ⟨0x0B02, 3, onChanges, true, fun n => decide (16 ≤ n)⟩ (updWriteBody pair)

/-- UPD_FINISH (R476). -/
def updFinishBody (pair : PairId) : Body := fun s _ =>
  if !updOpen s || s.boot.written != s.boot.setSize then (s, some (failWith stPermit))
  else if updOther s pair then (s, some (failWith stBusy))
  else (s, none)

/-- UPD_FINISH. -/
def execUpdFinish (pair : PairId) (s : State) : Host.Outcome State Fault Refusal :=
  serve s pair (changeCmd 0x0B03 2 32) (updFinishBody pair)

/-- The write in progress ends with a bank state. -/
def updEnd (s : State) (b : BankState) : State :=
  let s := dirBank s b
  { s with boot := { s.boot with updOwner := none } }

/-- UPD_ABORT (R476). -/
def updAbortBody (pair : PairId) : Body := fun s _ =>
  if !updOpen s then (s, some (failWith stPermit))
  else if updOther s pair then (s, some (failWith stBusy))
  else (updEnd s .invalid, some okEmpty)

/-- UPD_ABORT. -/
def execUpdAbort (pair : PairId) (s : State) : Host.Outcome State Fault Refusal :=
  serve s pair (changeCmd 0x0B04 2 0) (updAbortBody pair)

/-- An update command finishes its work: `ok` says that the flash took it (R476). -/
def updDone (s : State) (i : Nat) (job : LongJob) (ok : Bool) : State :=
  if !ok then finishLong (updEnd s .invalid) i (failWith stHwFault)
  else match job.command with
    | 0x0B01 => finishLong s i okEmpty
    | 0x0B02 =>
      let off := u64 job.payload 0
      let data := job.payload.drop 8
      let n := off + data.length
      finishLong { s with boot := { s.boot with bank := memWrite s.boot.bank off data, written := n } } i (okWith (leBytes 8 n))
    | _ =>
      if sha256 (memBytes s.boot.bank 0 s.boot.setSize) == job.payload then finishLong (updEnd s .complete) i okEmpty
      else finishLong (updEnd s .invalid) i (failWith stParam)

/-- Stage codes (Table 17.13). -/
def stageCode : StageState → Nat
  | .empty => 0 | .writing => 1 | .ready => 2 | .failed => 3

/-- The container of an optional slot. -/
def optContainer (s : State) (i : Option (Fin 2)) : List Byte := match i with
  | some i => slotContainer s i
  | none => []

/-- CFG_GET_STATUS response (Table 17.13). -/
def cfgStatus (s : State) : List Byte :=
  let x := s.sec
  let cur := currentSlot s
  let c := optContainer s cur
  let r := optContainer s (cur.map otherSlot)
  b8 (dirNow s).current.toNat ++ b8 (stageCode x.stage) ++ b8 ((x.stageOwner.map (·.val)).getD 0xFF) ++ b8 x.lastCheck.toNat
    ++ leBytes 2 (slotInfo s cur).1 ++ leBytes 2 (slotInfo s (cur.map otherSlot)).1 ++ leBytes 4 (u32 c 12)
    ++ leBytes 4 (u32 r 12) ++ leBytes 4 x.stageBytes.length ++ leBytes 4 x.stageSize ++ slice c 16 32

/-- CFG_GET_STATUS. -/
def execCfgGetStatus (pair : PairId) (s : State) : Host.Outcome State Fault Refusal :=
  serve s pair (readCmd 0x0200 2 0) (reads (fun s _ => okWith (cfgStatus s)))

/-- CFG_STAGE_BEGIN (R493): the stage belongs to the mailbox from now on. -/
def stageBeginBody (pair : PairId) : Body := fun s p =>
  let n := u32 p 0
  if n < 256 || 16773120 < n || n % 8 != 0 || !allZero p 4 4 then (s, some (failWith stParam))
  else
    ({ s with sec := { s.sec with stage := .writing, stageOwner := some pair, stageBytes := [], stageSize := n } }
      , some okEmpty)

/-- CFG_STAGE_BEGIN. -/
def execCfgStageBegin (pair : PairId) (s : State) : Host.Outcome State Fault Refusal :=
  serve s pair (changeCmd 0x0201 2 8) (stageBeginBody pair)

/-- The stage belongs to another mailbox (R493). -/
def stageOther (s : State) (pair : PairId) : Bool := s.sec.stageOwner.isSome && s.sec.stageOwner != some pair

/-- CFG_STAGE_WRITE (R493): OFFSET and length are checked as UPD_WRITE does. -/
def stageWriteBody (pair : PairId) : Body := fun s p =>
  let x := s.sec
  let data := p.drop 8
  let d := writeDetail (u32 p 0) data.length x.stageBytes.length x.stageSize
  if !allZero p 4 4 then (s, some (failWith stParam))
  else if d != 0 then (s, some ⟨stParam, d, leBytes 4 x.stageBytes.length⟩)
  else if x.stage != .writing then (s, some (failWith stPermit))
  else if stageOther s pair then (s, some (failWith stBusy))
  else
    let b := x.stageBytes ++ data
    ({ s with sec := { x with stageBytes := b } }, some (okWith (leBytes 4 b.length)))

/-- CFG_STAGE_WRITE: segmented. -/
def execCfgStageWrite (pair : PairId) (s : State) : Host.Outcome State Fault Refusal :=
  serve s pair ⟨0x0202, 3, onChanges, true, fun n => decide (16 ≤ n)⟩ (stageWriteBody pair)

/-- CFG_STAGE_FINISH (R493): a long command; the stage must be written to its SIZE (log entry 48). -/
def stageFinishBody (pair : PairId) : Body := fun s _ =>
  let x := s.sec
  if x.stage != .writing || x.stageBytes.length != x.stageSize then (s, some (failWith stPermit))
  else if stageOther s pair then (s, some (failWith stBusy))
  else (s, none)

/-- CFG_STAGE_FINISH. -/
def execCfgStageFinish (pair : PairId) (s : State) : Host.Outcome State Fault Refusal :=
  serve s pair (changeCmd 0x0203 2 0) (stageFinishBody pair)

/-- The end of CFG_STAGE_FINISH: Table 17.5 decides between READY and FAILED. -/
def stageDone (s : State) (i : Nat) : State :=
  let c := s.sec.stageBytes
  let code := containerCheck s c
  let changed := slice c 16 32 != slice (optContainer s (currentSlot s)) 16 32
  let s := { s with sec := { s.sec with stage := if code = 0 then .ready else .failed, lastCheck := BitVec.ofNat 8 code } }
  finishLong s i (okWith (sha256 c ++ b8 (b2n changed) ++ b8 code ++ zeros 2))

/-- The bytes that CFG_READ reads: SOURCE 0 CURRENT, 1 retained, 2 staged. -/
def cfgSource (s : State) (source : Nat) : List Byte := match source with
  | 0 => optContainer s (currentSlot s)
  | 1 => optContainer s ((currentSlot s).map otherSlot)
  | _ => s.sec.stageBytes

/-- CFG_READ: bytes beyond the container are out of range (log entry 48). -/
def execCfgRead (pair : PairId) (s : State) : Host.Outcome State Fault Refusal :=
  serve s pair (readCmd 0x0204 2 12) (reads (fun s p =>
    let n := u16 p 8
    if 2 < u8 p 0 || !allZero p 1 3 || n = 0 || 480 < n || !allZero p 10 2 then failWith stParam
    else if (cfgSource s (u8 p 0)).length < u32 p 4 + n then failWith stParam
    else okWith (slice (cfgSource s (u8 p 0)) (u32 p 4) n)))

/-- CFG_DISCARD: the stage is emptied. -/
def stageDiscardBody (pair : PairId) : Body := fun s _ =>
  if stageOther s pair then (s, some (failWith stBusy))
  else ({ s with sec := { s.sec with stage := .empty, stageOwner := none, stageBytes := [], stageSize := 0 } }, some okEmpty)

/-- CFG_DISCARD. -/
def execCfgDiscard (pair : PairId) (s : State) : Host.Outcome State Fault Refusal :=
  serve s pair (changeCmd 0x0205 2 0) (stageDiscardBody pair)

end Sys2Proof.Machine
end

