-- ==== Sys2Proof/Machine/MbSecurity.lean ====
section
/-! DEFINITION. The security and identity group of mailbox commands, change sets, and debug unlock (chapter 17, R481 to
R494). -/

namespace Sys2Proof.Machine

open Sys2Proof

/-- The keys of a role as they are read: a store whose CRC fails holds none (R482). -/
def roleKeys (s : State) (sa : Bool) : List (List Byte) :=
  if s.sec.storeOk then (if sa then s.sec.sa else s.sec.maint).toList else List.replicate 4 (zeros 32)

/-- A key slot is occupied. -/
def keyHeld (k : List Byte) : Bool := !k.all (· == 0)

/-- Seconds of debug unlock that are left, a part of one counting as a whole (R489, log entry 62). -/
def debugLeft (s : State) : Nat := match s.dbg.unlockEnd with
  | some t => (t - tb3 s + 999999999) / 1000000000
  | none => 0

/-- SEC_GET_STATUS response (Table 17.14). -/
def secStatus (s : State) : List Byte :=
  let mask := fun (sa : Bool) => bitsNum ((roleKeys s sa).map keyHeld)
  b8 (b2n s.sec.factory + 2 * b2n s.sec.independent) ++ b8 s.sec.pendingSlot.toNat ++ b8 (mask false) ++ b8 (mask true)
    ++ b8 (b2n (unlocked s)) ++ zeros 3 ++ leBytes 8 s.sec.changeSeq.toNat ++ leBytes 4 (debugLeft s) ++ zeros 4

/-- SEC_GET_STATUS. -/
def execSecGetStatus (pair : PairId) (s : State) : Host.Outcome State Fault Refusal :=
  serve s pair (readCmd 0x0C00 2 0) (reads (fun s _ => okWith (secStatus s)))

/-- SEC_GET_KEYS. -/
def execSecGetKeys (pair : PairId) (s : State) : Host.Outcome State Fault Refusal :=
  serve s pair (readCmd 0x0C01 2 4) (reads (fun s p =>
    if 1 < u8 p 0 || !allZero p 1 3 then failWith stParam
    else okWith ((roleKeys s (u8 p 0 == 1)).flatMap (fit 32))))

/-- A registry as its 120 bytes (Table 17.7). -/
def registryBytes (r : List RegEntry) : List Byte := r.flatMap (fun e => leBytes 8 e.serial.toNat ++ fit 32 e.key)

/-- SEC_GET_REGISTRY. -/
def execSecGetRegistry (pair : PairId) (s : State) : Host.Outcome State Fault Refusal :=
  serve s pair (readCmd 0x0C02 2 0) (reads (fun s _ => okWith (registryBytes s.sec.registry.toList)))

/-- The entry of the module's own slot is this module (Table 17.14, R486). -/
def ownEntry (s : State) (r : List RegEntry) : Bool :=
  bench s || match r[s.slot.toNat - 1]? with
    | some e => e.serial == s.otp.serial && e.key == s.otp.pubkey
    | none => false

/-- SEC_GET_IDENTITY response (Table 17.14). -/
def secIdentity (s : State) : List Byte :=
  leBytes 8 s.otp.serial.toNat ++ fit 32 s.otp.pubkey ++ b8 (b2n (!bench s && ownEntry s s.sec.registry.toList))
    ++ b8 (linkCode s.weft.a.state) ++ b8 (linkCode s.weft.b.state) ++ [0] ++ fit 32 s.sec.peerKeyA ++ fit 32 s.sec.peerKeyB

/-- SEC_GET_IDENTITY. -/
def execSecGetIdentity (pair : PairId) (s : State) : Host.Outcome State Fault Refusal :=
  serve s pair (readCmd 0x0C03 2 0) (reads (fun s _ => okWith (secIdentity s)))

/-- SEC_GET_CERT: bytes beyond the certificate are out of range. -/
def execSecGetCert (pair : PairId) (s : State) : Host.Outcome State Fault Refusal :=
  serve s pair (readCmd 0x0C04 2 4) (reads (fun s p =>
    let n := u16 p 2
    if n = 0 || 480 < n || s.otp.cert.length < u16 p 0 + n then failWith stParam
    else okWith (leBytes 2 s.otp.cert.length ++ zeros 2 ++ slice s.otp.cert (u16 p 0) n)))

/-- What SEC_ATTEST signs: 49 bytes (R494). -/
def attestBytes (s : State) (nonce : List Byte) : List Byte :=
  nonce ++ leBytes 8 s.otp.serial.toNat ++ leBytes 8 s.epoch.no.toNat ++ b8 (voteCode s.weft.own)

/-- SEC_ATTEST. -/
def execSecAttest (pair : PairId) (s : State) : Host.Outcome State Fault Refusal :=
  serve s pair (readCmd 0x0C05 2 32) (reads (fun s p =>
    okWith (leBytes 8 s.epoch.no.toNat ++ b8 (voteCode s.weft.own) ++ zeros 7 ++ edSign s.otp.seed (attestBytes s p))))

/-- An item of a change set (Table 17.9). -/
structure ChangeItem where
  kind : Nat
  data : List Byte
deriving DecidableEq, Repr

/-- The items of a change set, none where one runs past its end or a reserved byte is not 0 (R483). -/
def changeItems : Nat → List Byte → Option (List ChangeItem)
  | 0, b => if b.isEmpty then some [] else none
  | k + 1, b =>
    let n := u16 b 2
    if b.length < 4 + n || u8 b 1 != 0 then none
    else (changeItems k (b.drop (4 + n))).map (fun r => ⟨u8 b 0, slice b 4 n⟩ :: r)

/-- An item's length, fields and reserved bytes (Table 17.9). -/
def itemOk (x : ChangeItem) : Bool :=
  let d := x.data
  match x.kind with
  | 1 => d.length == 40 && allZero d 36 4
  | 2 => d.length == 40 && decide (u8 d 0 ≤ 1) && decide (u8 d 1 ≤ 3) && allZero d 2 6
  | 3 => d.length == 120
  | 4 => d.length == 8 && decide (u8 d 0 ≤ 1) && allZero d 1 7
  | 5 => d.length == 8 && decide (1 ≤ u32 d 0) && decide (u32 d 0 ≤ 86400) && allZero d 4 4
  | _ => false

/-- A signature block names slots 0 to 3 or none, and an absent signature is zeros (Table 17.10). -/
def signatureBlockOk (b : List Byte) : Bool :=
  let one := fun (slot : Nat) (sig : List Byte) => decide (slot ≤ 3) || (slot == 0xFF && sig.all (· == 0))
  b.length == 136 && allZero b 2 6 && one (u8 b 0) (slice b 8 64) && one (u8 b 1) (slice b 72 64)

/-- A change set as submitted (Tables 17.8 to 17.10). -/
structure ChangeSet where
  target : Nat
  seq : Nat
  items : List ChangeItem
  /-- Header and items. -/
  body : List Byte
  sig : List Byte
deriving DecidableEq, Repr

/-- A payload read as a change set: none where it is not well formed (R485 check 1). -/
def changeSetOf (p : List Byte) : Option ChangeSet :=
  let n := u32 p 24
  let head := u32 p 0 == 0x53434147 && u16 p 4 == 1 && decide (1 ≤ u8 p 6) && decide (u8 p 6 ≤ 8) && u8 p 7 == 0
    && u64 p 8 != 0 && decide (64 ≤ n) && decide (n ≤ 3960) && allZero p 28 36
  if p.length == n + 136 && head then
    let sig := p.drop n
    match changeItems (u8 p 6) (slice p 64 (n - 64)) with
    | some xs => if xs.all itemOk && signatureBlockOk sig then some ⟨u64 p 8, u64 p 16, xs, p.take n, sig⟩ else none
    | none => none
  else none

/-- The greatest CHANGE_SEQ of the store and of the sets that are being applied (R485). -/
def seqNow (s : State) : Nat :=
  s.mbox.pair.toList.foldl (fun m p => match p.job with
    | some j => if j.command = 0x0C06 then max m (u64 j.payload 16) else m
    | none => m) s.sec.changeSeq.toNat

/-- Bench mode or standstill (R484). -/
def stillOrBench (s : State) : Bool := bench s || standstill s

/-- The first row of Table 17.11: FACTORY, KEYS items only, both slot-0 keys replaced. -/
def factorySet (s : State) (c : ChangeSet) : Bool :=
  s.sec.factory && c.items.all (·.kind == 2)
    && [0, 1].all (fun r => c.items.any (fun x => u8 x.data 0 == r && u8 x.data 1 == 0))

/-- The CONTAINER item names the staged container (R486). -/
def itemStaged (s : State) (x : ChangeItem) : Bool :=
  s.sec.stage = .ready && sha256 s.sec.stageBytes == slice x.data 0 32 && u32 x.data 32 == s.sec.stageSize

/-- The second row of Table 17.11: one CONTAINER item, with the PROT_DIGEST of the CURRENT container. -/
def unprotectedSet (s : State) (c : ChangeSet) : Bool := match c.items, currentSlot s with
  | [x], some i => x.kind == 1 && itemStaged s x && slice s.sec.stageBytes 16 32 == slice (slotContainer s i) 16 32
  | _, _ => false

/-- The condition of the row of Table 17.11 that applies. -/
def changeCondition (s : State) (c : ChangeSet) : Bool :=
  if factorySet s c then bench s else unprotectedSet s c || stillOrBench s

/-- The signatures that the row of Table 17.11 requires (R484, R485 check 5). A store whose CRC fails refuses every
set (R482). -/
def changeSigned (s : State) (c : ChangeSet) : Bool :=
  let d := sha256 c.body
  let maint := signedBy (maintKey s (u8 c.sig 0)) d (slice c.sig 8 64)
  let sa := signedBy (saKey s (u8 c.sig 1)) d (slice c.sig 72 64)
  s.sec.storeOk && (factorySet s c || (maint && (sa || unprotectedSet s c)))

/-- A registry of its 120 bytes. -/
def registryOf (b : List Byte) : Vector RegEntry 3 :=
  Vector.ofFn (fun (i : Fin 3) => ⟨BitVec.ofNat 64 (u64 b (40 * i.val)), slice b (40 * i.val + 8) 32⟩)

/-- One item applied to the security store (R486). -/
def storeItem (x : Sec) (i : ChangeItem) : Sec :=
  let d := i.data
  let slot := u8 d 1
  let key := slice d 8 32
  match i.kind with
  | 2 => if u8 d 0 = 0 then { x with maint := x.maint.setIfInBounds slot key }
         else { x with sa := x.sa.setIfInBounds slot key }
  | 3 => { x with registry := registryOf d }
  | 4 => { x with independent := u8 d 0 == 1 }
  | _ => x

/-- The security store after all items (R486, R487 steps 2 to 4). -/
def storeAfter (s : State) (c : ChangeSet) : Sec :=
  { c.items.foldl storeItem s.sec with factory := false, changeSeq := BitVec.ofNat 64 c.seq, pendingSlot := 0 }

/-- No element occurs twice. -/
def distinctKeys : List (List Byte) → Bool
  | [] => true
  | k :: r => !r.contains k && distinctKeys r

/-- What must hold after all items are applied (R486). -/
def changeItemsOk (s : State) (c : ChangeSet) : Bool :=
  let x := storeAfter s c
  let boxes := c.items.filter (·.kind == 1)
  let maint := x.maint.toList.filter keyHeld
  let sa := x.sa.toList.filter keyHeld
  let serials := (x.registry.toList.map (·.serial.toNat)).filter (· != 0)
  decide (boxes.length ≤ 1) && boxes.all (itemStaged s) && !maint.isEmpty && !sa.isEmpty && distinctKeys (maint ++ sa)
    && distinctNats serials && ownEntry s x.registry.toList

/-- The checks of R485 in order: STATUS and DETAIL of the first failure. -/
def changeRefusal (s : State) (p : List Byte) : Option (Nat × Nat) := match changeSetOf p with
  | none => some (stParam, 1)
  | some c =>
    if c.target != s.otp.serial.toNat then some (stParam, 2)
    else if c.seq ≤ seqNow s then some (stParam, 3)
    else if !changeCondition s c then some (stPermit, 4)
    else if !changeSigned s c then some (stLocked, 5)
    else if !changeItemsOk s c then some (stParam, 6)
    else none

/-- A change set is refused: a command record and a notice (Table 17.15). -/
def changeRefuse (s : State) (i tag st detail : Nat) : State :=
  postNotice (recordCommand s i st detail 0x0C06 tag) 0x0C 3 (b8 st ++ b8 detail)

/-- SEC_SUBMIT_CHANGE (R485): the checks; an accepted set is applied as a long command (R487). -/
def submitBody (i tag : Nat) : Body := fun s p => match changeRefusal s p with
  | some (st, d) => (changeRefuse s i tag st d, some (failDetail st d))
  | none => (s, none)

/-- SEC_SUBMIT_CHANGE: segmented. -/
def execSecSubmitChange (pair : PairId) (s : State) : Host.Outcome State Fault Refusal :=
  serve s pair ⟨0x0C06, 3, onChanges, true, fun _ => true⟩ (submitBody pair.val (requestOf s pair.val).tag)

/-- Step 1 and 3 of R487: the staged container into the slot that is not CURRENT, with the set and its signatures in the
last 4 KiB, and the directory record. -/
def commitContainer (s : State) (p : List Byte) : State :=
  let i : Fin 2 := match currentSlot s with
    | some c => otherSlot c
    | none => 0
  let m := memWrite (memWrite s.boot.slot[i] 0 s.sec.stageBytes) 0xFFF000 p
  dirCommit { s with boot := { s.boot with slot := s.boot.slot.set i m } } i s.boot.fwRunning

/-- Links whose peer entry has changed go DOWN and train again (R488). -/
def registryLinks (s : State) (old : Vector RegEntry 3) : State :=
  [Side.a, Side.b].foldl (fun s sd =>
    let x := sideSlot s sd - 1
    if bench s || old[x]? == s.sec.registry[x]? || (linkOf s sd).state = .down then s else linkDown s sd) s

/-- Debug unlock begins (R489). -/
def unlockFor (s : State) (seconds : Nat) : State :=
  let s := { s with dbg := { s.dbg with unlockEnd := some (tb3 s + seconds * 1000000000) } }
  postNotice s 0x0C 4 (b8 1 ++ leBytes 4 seconds)

/-- An accepted change set is applied (R487 to R489), with its record and notices. -/
def changeApply (s : State) (i tag : Nat) (p : List Byte) (c : ChangeSet) : State :=
  let old := s.sec.registry
  let s := if c.items.any (·.kind == 1) then commitContainer s p else s
  let s := { s with sec := storeAfter s c, lanes := { s.lanes with independent := (storeAfter s c).independent } }
  let s := recordCommand s i 0 0 0x0C06 tag
  let kinds := c.items.foldl (fun m x => m ||| 2 ^ (x.kind - 1)) 0
  let s := postNotice s 0x0C 2 (leBytes 8 c.seq ++ b8 kinds)
  let s := registryLinks s old
  match c.items.filter (·.kind == 5) with
  | [] => s
  | xs => unlockFor s (u32 ((xs.getLast?.map (·.data)).getD []) 0)

/-- The end of SEC_SUBMIT_CHANGE: `ok` says that flash took the set. A stage that has changed since the checks fails its
read back. -/
def changeDone (s : State) (i : Nat) (job : LongJob) (ok : Bool) : State :=
  let tag := (requestOf s i).tag
  match changeSetOf job.payload with
  | none => finishLong s i (failWith stHwFault)
  | some c =>
    if ok && (c.items.filter (·.kind == 1)).all (itemStaged s) then
      finishLong (changeApply s i tag job.payload c) i (okWith (leBytes 8 c.seq))
    else finishLong (changeRefuse s i tag stHwFault 0) i (failWith stHwFault)

/-- Debug unlock ends (R489): UNLOCK_END, a record and a notice. -/
def debugLock (s : State) (i tag : Nat) : State :=
  let s := { s with dbg := { s.dbg with unlockEnd := none, event := setBit s.dbg.event 2 } }
  postNotice (recordCommand s i 0 0 0x0C07 tag) 0x0C 4 (b8 0)

/-- SEC_DEBUG_LOCK (R489): while debug is locked it changes nothing. -/
def execSecDebugLock (pair : PairId) (s : State) : Host.Outcome State Fault Refusal :=
  serve s pair (changeCmd 0x0C07 2 0) (fun s _ =>
    (if unlocked s then debugLock s pair.val (requestOf s pair.val).tag else s, some okEmpty))

/-- DEBUG_UNLOCK_EXPIRE (R489): DURATION_S seconds of TB3 have passed. -/
def execDebugUnlockExpire (s : State) : Host.Outcome State Fault Refusal := match s.dbg.unlockEnd with
  | none => .next s
  | some t =>
    let s' := passUntil s 3 t
    always s 0 (if reached s' 3 t then debugLock s' 0xFF 0 else s)

end Sys2Proof.Machine
end

