-- ==== Sys2Proof/Machine/LongOps.lean ====
section
/-! DEFINITION. The ends of long commands: completion, and TIMEOUT where another party does not answer (R252). -/

namespace Sys2Proof.Machine

open Sys2Proof

/-- LONG_COMMAND_DONE (R252): `ok` says that flash took what the command wrote. The other long commands end with the
event that they wait for. -/
def execLongCommandDone (pair : PairId) (ok : Bool) (s : State) : Host.Outcome State Fault Refusal :=
  let i := pair.val
  .next (if selvedgeRuns s then
      match (pairAt s i).job with
      | some j => match j.command with
        | 0x0203 => stageDone s i
        | 0x0B01 => updDone s i j ok
        | 0x0B02 => updDone s i j ok
        | 0x0B03 => updDone s i j ok
        | 0x0C06 => changeDone s i j ok
        | _ => s
      | none => s
    else s)

/-- A service access of a pair. -/
def ofPair (i : Nat) (a : OutAccess) : Bool := a.kind == .service i || a.kind == .serviceWrite i

/-- The rack access of a request that times out: a queued one is dropped, and an open one goes on for nobody. -/
def dropService (s : State) (i : Nat) : State :=
  let b := s.rack
  { s with rack := { b with
      outQueue := b.outQueue.filter (fun a => !ofPair i a)
      openAccess := b.openAccess.map (fun a => if ofPair i a then { a with kind := .read 31 } else a) } }

/-- LONG_COMMAND_TIMEOUT (R252): a command that waits on another party exceeds its limit. -/
def execLongCommandTimeout (pair : PairId) (s : State) : Host.Outcome State Fault Refusal :=
  let i := pair.val
  let out := fun (s : State) => finishLong s i (failWith stTimeout)
  .next (if selvedgeRuns s then
      match (pairAt s i).job with
      | some j => match j.command with
        | 0x0107 => out (putPair s i { pairAt s i with deliverTo := none })
        | 0x0601 => out (dropService s i)
        | 0x0602 => out (dropService s i)
        | 0x0704 => out s
        | 0x0804 => out s
        | 0x0805 => out s
        | 0x0A02 => out { s with power := { s.power with testPair := none } }
        | _ => s
      | none => s
    else s)

end Sys2Proof.Machine
end

