-- ==== Sys2Proof/Machine/MbRack.lean ====
section
/-! DEFINITION. The rack bus group of mailbox commands (chapter 10, Table 10.15, R348, R349). -/

namespace Sys2Proof.Machine

open Sys2Proof

/-- RACK_LOG_STATUS (Table 10.12). -/
def rackLogStatus (s : State) : Nat := [s.rack.logNext.toNat, at' 4 s.rack.log.length].sum

/-- RACK_GET_STATUS. -/
def execRackGetStatus (pair : PairId) (s : State) : Host.Outcome State Fault Refusal :=
  serve s pair (readCmd 0x0600 1 0) (reads (fun s _ =>
    okWith (leBytes 4 (rackCtrl s) ++ leBytes 4 (rackStatus s) ++ leBytes 4 (rackPoll s) ++ leBytes 4 (rackLogStatus s)
      ++ (rackCounters s.rack).flatMap (fun c => leBytes 4 c.toNat))))

/-- ADDRESS and WIDTH of a service access are in range (R349). -/
def serviceOk (p : List Byte) : Bool :=
  let w := u8 p 4
  (w == 1 || w == 2 || w == 4) && u32 p 0 % w == 0 && allZero p 5 3

/-- A service access is permitted in this mode and vote state (R344, R349). -/
def servicePermitted (s : State) (write : Bool) : Bool :=
  if s.rack.shared then !write && rackDrives s
  else !write || (s.weft.own = .bench && unlocked s) || s.weft.own = .unconfigured || s.weft.own = .withdrawn

/-- RACK_READ and RACK_WRITE (R348, R349): long; the access joins the outbound queue. -/
def rackServiceBody (write : Bool) : Body := fun s p =>
  if !serviceOk p then (s, some (failWith stParam))
  else if !servicePermitted s write then (s, some (failWith stPermit))
  else if s.rack.failed then (s, some (failWith stHwFault))
  else (s, none)

/-- The service of a rack access: once the pair is SERVING, its access is queued. -/
def serveRack (s : State) (pair : PairId) (c : CmdSpec) (write : Bool) : Host.Outcome State Fault Refusal :=
  match serve s pair c (rackServiceBody write) with
  | .next s => .next (if selvedgeRuns s && running s 9 then rackGo s else s)
  | o => o

/-- RACK_READ (R348, R349). -/
def execRackRead (pair : PairId) (s : State) : Host.Outcome State Fault Refusal :=
  serveRack s pair (readCmd 0x0601 1 8) false

/-- RACK_WRITE (R348, R349). -/
def execRackWrite (pair : PairId) (s : State) : Host.Outcome State Fault Refusal :=
  serveRack s pair (changeCmd 0x0602 1 12) true

/-- RACK_GET_LOG: entries in ring order. -/
def execRackGetLog (pair : PairId) (s : State) : Host.Outcome State Fault Refusal :=
  serve s pair (readCmd 0x0603 2 4) (reads (fun s p =>
    let n := u8 p 1
    if 15 < u8 p 0 || n = 0 || 15 < n || !allZero p 2 2 then failWith stParam
    else okWith ((List.range n).flatMap (fun i => rackLogAt s.rack ((u8 p 0 + i) % 16)))))

/-- RACK_CLEAR: taken at the next boundary. -/
def execRackClear (pair : PairId) (s : State) : Host.Outcome State Fault Refusal :=
  serve s pair (changeCmd 0x0604 2 4) (fun s p =>
    if 3 < u8 p 0 || !allZero p 1 3 then (s, some (failWith stParam))
    else
      ({ s with rack := { s.rack with clearNext := s.rack.clearNext ||| BitVec.ofNat 2 (u8 p 0) } }, some okEmpty))

/-- RACK_SET_POLL (R349): taken at the next boundary. -/
def execRackSetPoll (pair : PairId) (s : State) : Host.Outcome State Fault Refusal :=
  serve s pair (changeCmd 0x0605 2 4) (fun s p =>
    if u16 p 0 < 2 || 1000 < u16 p 0 || !allZero p 2 2 then (s, some (failWith stParam))
    else ({ s with rack := { s.rack with pollNext := some (BitVec.ofNat 10 (u16 p 0)) } }, some okEmpty))

/-- RACK_SET_PF (R349): taken at the next boundary. -/
def execRackSetPf (pair : PairId) (s : State) : Host.Outcome State Fault Refusal :=
  serve s pair (changeCmd 0x0606 2 12) (fun s p =>
    let base := u32 p 4
    let limit := u32 p 8
    if 7 < u8 p 0 || 1 < u8 p 1 || !allZero p 2 2 || base % 256 != 0 || limit % 256 != 0 || 0x100000 ≤ base
        || 0x100000 ≤ limit then (s, some (failWith stParam))
    else
      ({ s with rack := { s.rack with pfNext := s.rack.pfNext ++ [(u8 p 0, u8 p 1 == 1, base / 256, limit / 256)] } }
      , some okEmpty))

end Sys2Proof.Machine
end

