-- ==== Sys2Proof/Machine/MbRecorder.lean ====
section
/-! DEFINITION. The recorder and debug group of mailbox commands, and Rime freeze (chapter 18, R495 to R498, R506,
R507). -/

namespace Sys2Proof.Machine

open Sys2Proof

/-- MOR_CFG (Table 18.6). -/
def morCfg (m : Moraine) : Nat := [m.flushMs.toNat, at' 16 m.rate.toNat].sum

/-- REC_GET_STATUS (Table 18.8). -/
def execRecGetStatus (pair : PairId) (s : State) : Host.Outcome State Fault Refusal :=
  serve s pair (readCmd 0x0D00 2 0) (reads (fun s _ =>
    let m := s.mor
    okWith (leBytes 4 (morStatus m) ++ leBytes 4 m.lost.toNat ++ leBytes 4 m.badUnits.toNat ++ leBytes 4 (morCfg m)
      ++ leBytes 8 m.nextSeq.toNat ++ leBytes 8 (morOldest m).toNat)))

/-- The record with the lowest SEQ from `n` on. -/
def recordFrom (rs : List MorRecord) (n : Nat) : Option MorRecord :=
  rs.foldl (fun best r =>
    if r.seq.toNat < n then best
    else match best with
      | some b => if r.seq.toNat < b.seq.toNat then some r else best
      | none => some r) none

/-- At most `k` records from SEQ `n` on, in SEQ order. -/
def recordsFrom (rs : List MorRecord) : Nat → Nat → List MorRecord
  | 0, _ => []
  | k + 1, n => match recordFrom rs n with
    | some r => r :: recordsFrom rs k (r.seq.toNat + 1)
    | none => []

/-- REC_READ (R507). -/
def recReadAnswer (s : State) (p : List Byte) : Answer :=
  let m := s.mor
  let from' := u64 p 0
  let old := (morOldest m).toNat
  if u8 p 8 = 0 || 7 < u8 p 8 || !allZero p 9 3 || m.nextSeq.toNat ≤ from' then failWith stParam
  else
    let start := max from' old
    let rs := recordsFrom (m.ring ++ m.staged) (u8 p 8) start
    let first := (rs.head?.map (·.seq.toNat)).getD start
    ⟨0, b2n (decide (from' < old)), leBytes 8 first ++ rs.flatMap morBytes⟩

/-- REC_READ. -/
def execRecRead (pair : PairId) (s : State) : Host.Outcome State Fault Refusal :=
  serve s pair (readCmd 0x0D01 2 12) (reads recReadAnswer)

/-- REC_MARK: the response carries the SEQ that the mark takes. -/
def execRecMark (pair : PairId) (s : State) : Host.Outcome State Fault Refusal :=
  serve s pair (changeCmd 0x0D02 2 16) (fun s p =>
    (record s 0x10 0xFF05 0xFF (b8 pair.val ++ zeros 3 ++ p), some (okWith (leBytes 8 s.mor.nextSeq.toNat))))

/-- REC_SET_CFG (R507). -/
def execRecSetCfg (pair : PairId) (s : State) : Host.Outcome State Fault Refusal :=
  serve s pair (changeCmd 0x0D03 2 4) recSetBody

/-- DBG_GET_STATUS. -/
def execDbgGetStatus (pair : PairId) (s : State) : Host.Outcome State Fault Refusal :=
  serve s pair (readCmd 0x0D04 2 0) (reads (fun s _ =>
    okWith (leBytes 4 (dbgStatus s) ++ leBytes 4 (b2n s.dbg.frzTb) ++ leBytes 4 (debugLeft s))))

/-- The rack bus interface in a freeze (Table 18.1): it withdraws a request that has no grant, and releases RB_LOCK_L. -/
def freezeRack (b : Rack) : Rack :=
  if b.granted then { b with lockHeld := false }
  else { b with lockHeld := false, openAccess := none, outQueue := b.openAccess.toList ++ b.outQueue }

/-- The module freezes (R495, R498): cause 1 pin, 2 command. The freeze record waits in backup RAM. -/
def freeze (s : State) (cause : Nat) : State :=
  if s.dbg.frozen then s
  else
    let r := { morMake s 0x12 0xFF07 0xFF (b8 cause ++ b8 (b2n s.dbg.frzTb)) with held := true }
    { s with
      dbg := { s.dbg with frozen := true, lastCause := BitVec.ofNat 8 cause, freezes := satInc s.dbg.freezes }
      time := { s.time with tbHeld := s.dbg.frzTb }
      rack := freezeRack s.rack
      mor := { s.mor with backup := s.mor.backup ++ [r] } }

/-- FREEZE_PIN (R495): FRZ_L has been low for 1 µs. -/
def execFreezePin (s : State) : Host.Outcome State Fault Refusal :=
  always s 0 (let s := freeze s 1; { s with dbg := { s.dbg with frzPin := true } })

/-- DBG_FREEZE (R507, R263): the answer is sent, FRZ_TB is written, and the module freezes. -/
def freezeBody : Body := fun s p =>
  if 3 < u8 p 0 || !allZero p 1 3 || u32 p 4 != 0x5A5A then (s, some (failWith stParam))
  else if leavesTooFew s && !(bitOf (u8 p 0) 0 && standstill s) then
    ({ s with dbg := { s.dbg with event := setBit s.dbg.event 0 } }, some (failWith stPermit))
  else if !unlocked s then ({ s with dbg := { s.dbg with event := setBit s.dbg.event 0 } }, some (failWith stLocked))
  else (freeze { s with dbg := { s.dbg with frzTb := bitOf (u8 p 0) 1 } } 2, some okEmpty)

/-- DBG_FREEZE. -/
def execDbgFreeze (pair : PairId) (s : State) : Host.Outcome State Fault Refusal :=
  serve s pair (changeCmd 0x0D05 2 8) freezeBody

end Sys2Proof.Machine
end

