-- ==== Sys2Proof/Machine/MbVote.lean ====
section
/-! DEFINITION. The epoch and voting commands (Tables 2.22 and 3.27). -/

namespace Sys2Proof.Machine

open Sys2Proof

/-- The registers of a block, four bytes each. -/
def regBytes (read : Nat → U32) (os : List Nat) : List Byte := os.flatMap (fun o => leBytes 4 (read o).toNat)

/-- EPOCH_GET_CONFIG response (Table 2.23). -/
def epochConfigBytes (e : Epoch) : List Byte :=
  leBytes 4 (epochUs e) ++ leBytes 4 (exchangeUs e) ++ leBytes 4 (voteUs e)
    ++ [e.k0, e.k1, e.k2, e.k3].flatMap (fun k => b8 (periodOf k)) ++ leBytes 2 e.warnLead.toNat ++ zeros 2
    ++ leBytes 4 (imageMax e)

/-- EPOCH_GET_CONFIG (R74). -/
def execEpochGetConfig (pair : PairId) (s : State) : Host.Outcome State Fault Refusal :=
  serve s pair (readCmd 0x0300 2 0) (reads (fun s _ => okWith (epochConfigBytes s.epoch)))

/-- EPOCH_GET_STATUS response (Table 2.24). -/
def epochStatusBytes (s : State) : List Byte :=
  leBytes 8 s.epoch.no.toNat ++ regBytes (epochRead s) [0x18] ++ b8 (epochRead s 0x1C).toNat
    ++ b8 (epochRead s 0x20).toNat ++ zeros 2
    ++ regBytes (epochRead s) [0x24, 0x40, 0x44, 0x48, 0x4C, 0x50, 0x54, 0x58, 0x5C, 0x80, 0x84]

/-- EPOCH_GET_STATUS (R74). -/
def execEpochGetStatus (pair : PairId) (s : State) : Host.Outcome State Fault Refusal :=
  serve s pair (readCmd 0x0301 2 0) (reads (fun s _ => okWith (epochStatusBytes s)))

/-- EPOCH_GET_MARGIN response (Table 2.25). -/
def epochMarginBytes (s : State) : List Byte :=
  s.lanes.lane.toList.flatMap (fun ln => leBytes 4 (marginOf ln).toNat)
    ++ s.lanes.lane.toList.flatMap (fun ln => leBytes 4 ln.lastCommit.toNat)

/-- EPOCH_GET_MARGIN (R74). -/
def execEpochGetMargin (pair : PairId) (s : State) : Host.Outcome State Fault Refusal :=
  serve s pair (readCmd 0x0302 2 0) (reads (fun s _ => okWith (epochMarginBytes s)))

/-- A clear request joins one that waits for the same boundary. -/
def joinClear (old : Option ClearReq) (new : ClearReq) : ClearReq := match old with
  | some r => ⟨r.mask ||| new.mask, r.lateItems || new.lateItems⟩
  | none => new

/-- EPOCH_CLEAR_COUNTERS (Table 2.26, R75): it takes effect at the next boundary. -/
def clearCountersBody : Body := fun s p =>
  if 1 < u8 p 1 || !allZero p 2 2 then (s, some (failWith stParam))
  else
    let r : ClearReq := ⟨BitVec.ofNat 8 (u8 p 0), u8 p 1 == 1⟩
    ({ s with epoch := { s.epoch with clearReq := some (joinClear s.epoch.clearReq r) } }, some okEmpty)

/-- EPOCH_CLEAR_COUNTERS, accepted on every mailbox pair (R74). -/
def execEpochClearCounters (pair : PairId) (s : State) : Host.Outcome State Fault Refusal :=
  serve s pair (readCmd 0x0303 2 4) clearCountersBody

/-- EPOCH_SET_WARN (Table 2.27, R75): it takes effect at the next boundary. -/
def setWarnBody : Body := fun s p =>
  if !warnOk s.epoch (u16 p 0) || !allZero p 2 2 then (s, some (failWith stParam))
  else ({ s with epoch := { s.epoch with warnNext := some (BitVec.ofNat 16 (u16 p 0)) } }, some okEmpty)

/-- EPOCH_SET_WARN, accepted on every mailbox pair (R74). -/
def execEpochSetWarn (pair : PairId) (s : State) : Host.Outcome State Fault Refusal :=
  serve s pair (readCmd 0x0304 2 4) setWarnBody

/-- VOTE_GET_STATUS response (Table 3.28). -/
def voteStatusBytes (s : State) : List Byte :=
  let w := s.weft
  leBytes 8 s.epoch.no.toNat ++ b8 (voteCode w.own) ++ b8 w.voters.toNat ++ b8 w.roleSlot.toNat ++ b8 w.sources.toNat
    ++ regBytes (weftRead s) [0x0C, 0x10, 0x14, 0x18, 0x1C, 0x20, 0x24] ++ b8 w.disagreeRun.toNat ++ zeros 3

/-- VOTE_GET_STATUS (R127). -/
def execVoteGetStatus (pair : PairId) (s : State) : Host.Outcome State Fault Refusal :=
  serve s pair (readCmd 0x0320 2 0) (reads (fun s _ => okWith (voteStatusBytes s)))

/-- One link of VOTE_GET_LINKS (Table 3.29). -/
def linkBytes (k : Link) : List Byte :=
  b8 (linkCode k.state) ++ b8 k.level.toNat ++ b8 k.peerSlot.toNat ++ b8 k.peerState.toNat ++ leBytes 4 k.peerGen.toNat
    ++ leBytes 4 (satI32 (k.theta / 2 ^ 16)).toNat ++ leBytes 4 k.crcErr.toNat ++ leBytes 4 k.retx.toNat
    ++ leBytes 4 k.absentCnt.toNat ++ zeros 8

/-- VOTE_GET_LINKS (R127). -/
def execVoteGetLinks (pair : PairId) (s : State) : Host.Outcome State Fault Refusal :=
  serve s pair (readCmd 0x0321 2 0) (reads (fun s _ => okWith (linkBytes s.weft.a ++ linkBytes s.weft.b)))

/-- A vote-group descriptor (Table 3.9); zeros for a group that the map does not list. -/
def groupBytes (s : State) (g : GroupId) : List Byte := match s.maps.group[g] with
  | some d =>
    let attr := d.lane.val + 8 * b2n d.trailing + 16 * b2n d.enabled + 32 * b2n d.safetyRelevant + 64 * b2n d.safeLatch
    b8 g.val ++ b8 attr ++ b8 d.holdLimit.toNat ++ zeros 1 ++ leBytes 4 d.offset ++ leBytes 4 d.length
      ++ leBytes 4 d.safeRef
  | none => zeros 16

/-- One entry of VOTE_GET_GROUPS (Table 3.27). -/
def groupEntry (s : State) (g : GroupId) : List Byte :=
  let w := s.weft
  groupBytes s g ++ b8 (outcomeCode w.outcome[g]) ++ b8 w.hold[g].toNat ++ b8 (b2n (w.released.getLsbD g.val))
    ++ b8 (b2n (w.safe.getLsbD g.val))

/-- VOTE_GET_GROUPS (R127). -/
def execVoteGetGroups (pair : PairId) (s : State) : Host.Outcome State Fault Refusal :=
  serve s pair (readCmd 0x0322 2 0) (reads (fun s _ => okWith (allGroups.flatMap (groupEntry s))))

/-- VOTE_WITHDRAW (R128). -/
def withdrawBody : Body := fun s p =>
  if 1 < u8 p 0 || !allZero p 1 3 then (s, some (failWith stParam))
  else if !isVoter s || (leavesTooFew s && !(u8 p 0 == 1 && standstill s)) then (s, some (failWith stPermit))
  else ({ s with weft := { s.weft with withdrawReq := true } }, some okEmpty)

/-- VOTE_WITHDRAW (R127). -/
def execVoteWithdraw (pair : PairId) (s : State) : Host.Outcome State Fault Refusal :=
  serve s pair (changeCmd 0x0323 2 4) withdrawBody

/-- VOTE_REJOIN (R128): in EXCLUDED it is answered OK and changes nothing. In WITHDRAWN it is not permitted while the image bank
is not VALID (R467). -/
def rejoinBody : Body := fun s _ =>
  if s.weft.own = .withdrawn && bankValid s then ({ s with weft := { s.weft with rejoinReq := true } }, some okEmpty)
  else if s.weft.own = .excluded && !s.weft.exclFinal then (s, some okEmpty)
  else (s, some (failWith stPermit))

/-- VOTE_REJOIN (R127). -/
def execVoteRejoin (pair : PairId) (s : State) : Host.Outcome State Fault Refusal :=
  serve s pair (changeCmd 0x0324 2 0) rejoinBody

/-- VOTE_RESUME_GROUP (R128). -/
def resumeBody : Body := fun s p =>
  if !allZero p 2 2 then (s, some (failWith stParam))
  else
    let m := BitVec.ofNat 16 (u16 p 0)
    ({ s with weft := { s.weft with resumeMask := s.weft.resumeMask ||| m } }, some okEmpty)

/-- VOTE_RESUME_GROUP (R127). -/
def execVoteResumeGroup (pair : PairId) (s : State) : Host.Outcome State Fault Refusal :=
  serve s pair (changeCmd 0x0325 2 4) resumeBody

/-- VOTE_CLEAR_COUNTERS (Table 3.27). -/
def voteClearBody : Body := fun s p =>
  if 7 < u8 p 0 || !allZero p 1 3 then (s, some (failWith stParam))
  else ({ s with weft := { s.weft with clearMask := s.weft.clearMask ||| BitVec.ofNat 3 (u8 p 0) } }, some okEmpty)

/-- VOTE_CLEAR_COUNTERS (R127). -/
def execVoteClearCounters (pair : PairId) (s : State) : Host.Outcome State Fault Refusal :=
  serve s pair (changeCmd 0x0326 2 4) voteClearBody

/-- VOTE_GET_ADMIT (Table 3.27). -/
def execVoteGetAdmit (pair : PairId) (s : State) : Host.Outcome State Fault Refusal :=
  serve s pair (readCmd 0x0327 2 0) (reads (fun s _ =>
    okWith (regBytes (weftRead s) [0x30, 0x34] ++ leBytes 2 s.weft.cuBlocks.toNat ++ zeros 2)))

end Sys2Proof.Machine
end

