-- ==== Sys2Proof/Machine/RegWrite.lean ====
section
/-! DEFINITION. Writes to the registers of the sixteen register blocks by their access codes (R14 to R16, Table 0.5),
and the reads that latch. -/

namespace Sys2Proof.Machine

open Sys2Proof

/-- A W1C register after a write: a 1 clears its bit (Table 0.5). -/
def w1c {n : Nat} (v : BitVec n) (data : U32) : BitVec n := v &&& ~~~(data.setWidth n)

/-- An RWB field may still be written (Table 0.5). -/
def bootOpen (s : State) : Bool := !s.boot.bootLock

/-- A direct write of an RWP field is ignored and recorded (R14, Table 18.5). -/
def rwpWrite (s : State) (block addr : Nat) (data : U32) : State :=
  record s block 0xFF01 0xFF (leBytes 8 addr ++ leBytes 4 data.toNat)

/-- Address of a register (Table 6.1). -/
def blockAddr (b o : Nat) : Nat := 0x5000000000 + b * 0x10000 + o

/-- LANE_L registers (Tables 4.13, 4.14). -/
def laneSetWrite (s : State) (l : LaneId) (o : Nat) (data : U32) : State :=
  match o with
  | 0x00 => if bootOpen s then
      putLane s l { laneOf s l with delay := data.extractLsb' 0 2, window := data.extractLsb' 2 2
                                    splitAllowed := data.getLsbD 4 } else s
  | 0x04 => modeRequest s l data
  | _ => s

/-- LANE block (Table 4.12). -/
def laneWrite (s : State) (o : Nat) (data : U32) : State :=
  let b := s.lanes
  if h : o < 0x800 then laneSetWrite s ⟨o / 0x100, by omega⟩ (o % 0x100) data
  else match o with
  | 0x900 => perfWrite s data
  | 0x904 => { s with lanes := { b with speedWarn := data.extractLsb' 0 16 } }
  | 0x908 => rwpWrite s 0 (blockAddr 0 o) data
  | 0x90C => { s with lanes := { b with event := w1c b.event data } }
  | 0x910 => { s with lanes := { b with intEn := data } }
  | _ => s

/-- FIRN block: FIRN_INJECT alone is written (R155); the test of a healthy checker detects (log entry 58). -/
def firnWrite (s : State) (o : Nat) (data : U32) : State :=
  if h : o < 0x800 then
    let l : LaneId := ⟨o / 0x100, by omega⟩
    if o % 0x100 = 0x2C then
      if (laneOf s l).epochState = .stopped then injectWrite s l data true
      else recordIgnored s 1 (blockAddr 1 o) data.toNat l.val 1
    else s
  else s

/-- A write of EPOCH_WARN (Table 2.13, R536): a bad value is replaced by 20 and sets WARN_BAD. -/
def warnWrite (s : State) (data : U32) : State :=
  let v := data.toNat % 65536
  if warnOk s.epoch v then { s with epoch := { s.epoch with warnNext := some (BitVec.ofNat 16 v) } }
  else epochEvent { s with epoch := { s.epoch with warnNext := some 20 } } 22

/-- EPOCH block (Table 2.11). -/
def epochWrite (s : State) (o : Nat) (data : U32) : State :=
  let e := s.epoch
  match o with
  | 0x00 => if bootOpen s then
      { s with epoch := { e with period := data.extractLsb' 0 3, k0 := data.extractLsb' 8 3, k1 := data.extractLsb' 12 3
                                 k2 := data.extractLsb' 16 3, k3 := data.extractLsb' 20 3 } } else s
  | 0x04 => warnWrite s data
  | 0x24 => { s with epoch := { e with event := w1c e.event data } }
  | 0x28 => { s with epoch := { e with intEn := data.extractLsb' 0 23 } }
  | _ => s

/-- MBOX block (Tables 7.11, 7.12): Selvedge reaches every slot and register. -/
def mboxWrite (s : State) (o : Nat) (data : U32) : State :=
  let b := s.mbox
  if o < 0x6000 then
    let p := pairAt s (o / 0x400)
    let k := o % 0x400
    putPair s (o / 0x400) (if k < 0x200 then { p with req := memPutLe p.req k 4 data.toNat }
      else { p with rsp := memPutLe p.rsp (k - 0x200) 4 data.toNat })
  else if 0x8000 ≤ o && o < 0x8180 && o % 0x10 == 0 then mboxDoorbell s ((o - 0x8000) / 0x10) data
  else match o with
  | 0x9000 =>
    let lv : BitVec 3 := data.extractLsb' 0 3
    let idle : BitVec 8 := data.extractLsb' 8 8
    { s with mbox := { b with
        levelMax := if bootOpen s then (if lv = 0 || 5 ≤ lv.toNat then 4 else lv) else b.levelMax
        bindIdle := if idle = 0 then b.bindIdle else idle } }
  | 0x9008 => { s with mbox := { b with event := w1c b.event data } }
  | 0x900C => { s with mbox := { b with intEn := data.extractLsb' 0 6 } }
  | _ => s

/-- Time base k's registers (Tables 8.9, 8.10). -/
def tbWrite (s : State) (k : Fin 4) (o : Nat) (data : U32) : State :=
  let t := s.time.tb[k]
  match o with
  | 0x10 => if k.val = 3 then s else putTb s k { t with incrNs := data.extractLsb' 0 8 }
  | 0x14 => if k.val = 3 then s else incrWrite s k data
  | 0x18 =>
    let lock : U16 := data.extractLsb' 16 16
    if k.val = 3 then s
    else putTb s k { t with kp := data.extractLsb' 0 6, ki := data.extractLsb' 8 6
                            lockNs := if lock = 0 then t.lockNs else lock }
  | 0x1C => if k.val = 2 then s else putTb s k { t with measLo := data }
  | 0x20 => if k.val < 2 then measHiWrite s k data else s
  | 0x28 =>
    let hold : U16 := data.extractLsb' 16 16
    if hold = 0 then s else putTb s k { t with holdS := hold }
  | _ => s

/-- A capture unit's CFG (Table 8.11): a reserved SOURCE and a LIMIT of 0 leave their fields. -/
def capWrite (c : CapUnit) (data : U32) : CapUnit :=
  { c with source := if capSourceOk (data.toNat % 256) then data.extractLsb' 0 8 else c.source
           edge := data.extractLsb' 8 2, tb := data.extractLsb' 10 2, en := data.getLsbD 12
           limit := if data.toNat / 65536 % 256 = 0 then c.limit else data.extractLsb' 16 8 }

/-- TIME block (Table 8.8). -/
def timeWrite (s : State) (o : Nat) (data : U32) : State :=
  let b := s.time
  if h : o < 0x100 then tbWrite s ⟨o / 0x40, by omega⟩ (o % 0x40) data
  else if h : o < 0x200 then
    if o % 0x10 = 0 then
      { s with time := { b with cap := b.cap.set ((o - 0x100) / 0x10) (capWrite b.cap[(o - 0x100) / 0x10] data) } }
    else s
  else if h : o < 0x300 then
    if o % 4 = 0 then tpoWrite s ⟨(o - 0x200) / 0x20, by omega⟩ (o % 0x20 / 4) data else s
  else match o with
  | 0x300 => { s with time := { b with event := w1c b.event data } }
  | 0x304 => { s with time := { b with intEn := data.extractLsb' 0 14 } }
  | _ => s

/-- A context register that Selvedge writes (Table 11.4): CFG, or a context of its own. -/
def ctxWrite (s : State) (m : Master) (c : Fin 16) (r : Nat) (data : U32) : State :=
  if r = 0x28 then chkCfgWrite s c data else chkWrite s m false c (chkStore s c r 4 data)

/-- CHECK block (Tables 11.3 to 11.5). -/
def checkWrite (s : State) (o : Nat) (data : U32) : State :=
  let b := s.check
  if h : o < 0x400 then ctxWrite s .selvedge ⟨o / 0x40, by omega⟩ (o % 0x40) data
  else match o with
  | 0x800 => { s with check := { b with event := w1c b.event data } }
  | 0x804 => { s with check := { b with intEn := data.extractLsb' 0 17 } }
  | _ => s

/-- ROLE as a write leaves it (Table 9.12): 3 reads as 0, and ETB, which ETH0 and ETH1 do not have, leaves it (log entry 105). -/
def roleWrite (p : Fin 4) (old new : BitVec 2) : BitVec 2 :=
  if new = 3 then 0 else if new = 1 && decide (p.val < 2) then old else new

/-- PKT_PORT_p_CFG (Table 9.12). -/
def portWrite (s : State) (p : Fin 4) (data : U32) : State :=
  let x := s.pkt.port[p]
  portTo s p { x with
    fec := data.getLsbD 1, force1g := data.getLsbD 2, mgmt := data.getLsbD 5
    role := if bootOpen s then roleWrite p x.role (data.extractLsb' 3 2) else x.role
    tasTb := if data.toNat / 64 % 4 = 3 then x.tasTb else data.extractLsb' 6 2, tasEn := data.getLsbD 8 } (data.getLsbD 0)

/-- RING_r_CFG (Table 9.16). A ring whose EN or GATE_EN was clear has had no boundary decide on its descriptors (R311). SIZE, DIR, OWNER and LANE change only while EN is 0. -/
def ringCfgWrite (r : Ring) (data : U32) : Ring :=
  let size : BitVec 4 := data.extractLsb' 0 4
  let owner : BitVec 2 := data.extractLsb' 5 2
  let r1 : Ring := if r.en then r else
    { r with size := if 9 ≤ size.toNat then r.size else size, dir := data.getLsbD 4
             owner := if owner = 3 then r.owner else owner, lane := data.extractLsb' 7 3 }
  { r1 with gates := if r.en && r.gateEn then r.gates else [], posted := if data.getLsbD 10 then r.posted else 0
            en := data.getLsbD 10, gateEn := data.getLsbD 11, port := data.extractLsb' 12 4
            prio := data.extractLsb' 16 3, gateGroup := data.extractLsb' 20 4 }

/-- A ring's size in units of 256 bytes: BASE is aligned to it (R309), and the low bits of a write are dropped (log entry 105). -/
def ringAlign (r : Ring) : Nat := max 1 (ringSize r * 32 / 256)

/-- A ring's registers (Table 9.16). -/
def ringWrite (s : State) (i : Fin 64) (o : Nat) (data : U32) : State :=
  let r := s.pkt.ring[i]
  match o with
  | 0x0 => if r.en then s else putRing s i { r with base := BitVec.ofNat 32 (data.toNat / ringAlign r * ringAlign r) }
  | 0x4 => putRing s i (ringCfgWrite r data)
  | 0xC => tailWrite s i data
  | _ => s

/-- PKT block (Tables 9.11 to 9.16). -/
def pktWrite (s : State) (o : Nat) (data : U32) : State :=
  let b := s.pkt
  if h : 0x10 ≤ o ∧ o < 0x50 then
    if o % 0x10 = 0 then
      portWrite s ⟨(o - 0x10) / 0x10, by omega⟩ data
    else s
  else if h : 0x110 ≤ o ∧ o < 0x120 then
    let c : CanPort := { b.can[(o - 0x110) / 4] with autoRecover := data.getLsbD 2 }
    { s with pkt := { b with can := b.can.set ((o - 0x110) / 4) c } }
  else if h : 0x1000 ≤ o ∧ o < 0x1400 then ringWrite s ⟨(o - 0x1000) / 0x10, by omega⟩ (o % 0x10) data
  else match o with
  | 0x000 =>
    let vid : BitVec 12 := data.extractLsb' 16 12
    { s with pkt := { b with mgmtEn := data.getLsbD 2
                             mgmtVid := if vid = 0 || vid = 0xFFF then b.mgmtVid else vid } }
  | 0x004 => { s with pkt := { b with topoEtbNext := some data } }
  | 0x008 => { s with pkt := { b with topoOptrnNext := some data } }
  | 0x200 => { s with pkt := { b with event := w1c b.event data } }
  | 0x204 => { s with pkt := { b with intEn := data.extractLsb' 0 12 } }
  | _ => s

/-- ROUTE block (Table 9.17). -/
def routeWrite (s : State) (o : Nat) (data : U32) : State :=
  let b := s.route
  match o with
  | 0x00 => { s with route := { b with fwdEn := data.getLsbD 0, missToSelvedge := data.getLsbD 1 } }
  | 0x28 => { s with route := { b with event := w1c b.event data } }
  | 0x2C => { s with route := { b with intEn := data.extractLsb' 0 4 } }
  | _ => s

/-- RACK_CTRL (Table 10.11). -/
def rackCtrlWrite (s : State) (data : U32) : State :=
  let b := s.rack
  let lim : BitVec 8 := data.extractLsb' 3 8
  { s with rack := { b with
      en := if bootOpen s then data.getLsbD 0 else b.en, shared := if bootOpen s then data.getLsbD 1 else b.shared
      pfEn := data.getLsbD 2, retryLimit := if lim = 0 then b.retryLimit else lim } }

/-- A prefetch window's registers (Table 10.13): a changed window holds nothing. -/
def pfWrite (s : State) (k : Fin 8) (limit : Bool) (data : U32) : State :=
  let w := s.rack.pf[k]
  let w' : PfWindow := if limit then { w with limit := data.extractLsb' 8 12, buffer := none, refill := none }
    else { w with en := data.getLsbD 0, base := data.extractLsb' 8 12, buffer := none, refill := none }
  { s with rack := { s.rack with pf := s.rack.pf.set k.val w' } }

/-- RACK block (Tables 10.10 to 10.13). -/
def rackWrite (s : State) (o : Nat) (data : U32) : State :=
  let b := s.rack
  if h : 0x40 ≤ o ∧ o < 0x80 then pfWrite s ⟨(o - 0x40) / 8, by omega⟩ (decide (4 ≤ o % 8)) data
  else match o with
  | 0x00 => rackCtrlWrite s data
  | 0x08 =>
    let us := data.toNat % 1024
    if 2 ≤ us && us ≤ 1000 then { s with rack := { b with pollUs := BitVec.ofNat 10 us } } else s
  | 0x0C => rackLockWrite s 8 data
  | 0x10 => { s with rack := { b with event := w1c b.event data } }
  | 0x14 => { s with rack := { b with intEn := data.extractLsb' 0 8 } }
  | _ => s

/-- FIO_CFG (Table 12.11), until BOOT_LOCK. -/
def fioCfgWrite (s : State) (data : U32) : State :=
  let f := s.fio
  let nom := fun (sh : Nat) (old : BitVec 3) => if 6 ≤ data.toNat / 2 ^ sh % 8 then old else data.extractLsb' sh 3
  let t := data.toNat / 256 % 1024
  if bootOpen s then
    { s with fio := { f with nom := #v[nom 0 f.nom[0], nom 4 f.nom[1]]
                             tssMs := if 2 ≤ t && t ≤ 1000 then BitVec.ofNat 10 t else f.tssMs } }
  else s

/-- FIO_CH_c_CFG (Table 12.11): FILTER, OFF_TEST and EVENT reach the field side at the next boundary. -/
def fioChWrite (s : State) (c : Fin 32) (data : U32) : State :=
  let x := s.fio.chan[c]
  let g := x.cfgNext.getD x.cfg
  let ft := data.toNat / 256 % 256
  let g' : FioCfg := { g with
    offTest := data.getLsbD 2, event := data.getLsbD 3
    filter := if 1 ≤ ft && ft ≤ 250 then BitVec.ofNat 8 ft else g.filter }
  let g' : FioCfg := if bootOpen s then { g' with output := data.getLsbD 0, safeOn := data.getLsbD 1 } else g'
  { s with fio := { s.fio with chan := s.fio.chan.set c.val { x with cfgNext := some g' } } }

/-- FIO block (Tables 12.10, 12.11). -/
def fioWrite (s : State) (o : Nat) (data : U32) : State :=
  let f := s.fio
  if h : 0x40 ≤ o ∧ o < 0xC0 then fioChWrite s ⟨(o - 0x40) / 4, by omega⟩ data
  else match o with
  | 0x00 => fioCfgWrite s data
  | 0x2C => { s with fio := { f with event := w1c f.event data } }
  | 0x30 => { s with fio := { f with intEn := data.extractLsb' 0 11 } }
  | _ => s

/-- A SAFE register with RWP fields (Table 13.16). -/
def safeRwp (o : Nat) : Bool :=
  o == 0x20 || (decide (0x40 ≤ o) && decide (o < 0x80))
    || (decide (0x80 ≤ o) && decide (o < 0xC0) && o % 0x10 == 0)
    || (decide (0xC0 ≤ o) && decide (o < 0x100) && o % 0x10 != 0xC)

/-- SAFE block (Tables 13.13 to 13.16). -/
def safeWrite (s : State) (o : Nat) (data : U32) : State :=
  let f := s.safe
  if safeRwp o then rwpWrite s 10 (blockAddr 10 o) data
  else match o with
  | 0x18 => { s with safe := { f with event := w1c f.event data } }
  | 0x1C => { s with safe := { f with intEn := data.extractLsb' 0 10 } }
  | _ => s

/-- MU_CH_c_CFG and MU_CH_c_HB (Table 14.9), until BOOT_LOCK; codes that the table names leave their field. -/
def muBootWrite (g : MuCfg) (o : Nat) (data : U32) : MuCfg :=
  let range := data.toNat % 8
  let hb := data.toNat / 8 % 8
  let proto := data.toNat / 64 % 8
  if o = 0x00 then
    { g with range := if 5 ≤ range then g.range else data.extractLsb' 0 3
             hbCount := if hb = 7 then g.hbCount else data.extractLsb' 3 3
             proto := if 6 ≤ proto then g.proto else data.extractLsb' 6 3, mMinus1 := data.extractLsb' 16 12 }
  else { g with hb := data.extractLsb' 0 18 }

/-- A threshold code is within its range (Table 14.9). -/
def muThreshold (data : U32) : Bool := decide (data.toInt.natAbs ≤ 8388607)

/-- An analog channel's configuration registers (Table 14.9). -/
def muCfgWrite (boot : Bool) (g : MuCfg) (o : Nat) (data : U32) : MuCfg :=
  let ne := data.toNat % 128
  match o with
  | 0x00 => if boot then muBootWrite g o data else g
  | 0x04 => if boot then muBootWrite g o data else g
  | 0x08 => { g with ne := if 1 ≤ ne && ne ≤ 64 then BitVec.ofNat 7 ne else g.ne, attack := data.extractLsb' 8 4
                     release := data.extractLsb' 12 4, evtEn := data.getLsbD 16 }
  | 0x0C => if muThreshold data then { g with high := data } else g
  | 0x10 => if muThreshold data then { g with low := data } else g
  | 0x14 => { g with hyst := data.extractLsb' 0 23 }
  | _ => g

/-- MUSLIN block (Tables 14.8, 14.9): a write to an RW field takes effect at the next boundary (R433). -/
def muslinWrite (s : State) (o : Nat) (data : U32) : State :=
  let m := s.muslin
  if h : o < 0x400 then
    let c : Fin 16 := ⟨o / 0x40, by omega⟩
    let x := m.chan[c]
    let g := muCfgWrite (bootOpen s) (x.cfgNext.getD x.cfg) (o % 0x40) data
    if o % 0x40 < 0x18 then
      { s with muslin := { m with chan := m.chan.set c.val { x with cfgNext := some g } } }
    else s
  else match o with
  | 0x400 => muRequest s (data.toNat % 65536)
  | 0x404 => { s with muslin := { m with event := w1c m.event data } }
  | 0x408 => { s with muslin := { m with intEn := data.extractLsb' 0 7 } }
  | _ => s

/-- WEFT_CTRL (Table 3.17): an enable of 0 holds its link DOWN. -/
def weftCtrlWrite (s : State) (data : U32) : State :=
  let lv : BitVec 2 := data.extractLsb' 2 2
  let w := { s.weft with linkAEn := data.getLsbD 0, linkBEn := data.getLsbD 1
                         levelMax := if bootOpen s then (if lv = 2 then 2 else 3) else s.weft.levelMax }
  let s := { s with weft := w }
  let s := if data.getLsbD 0 || s.weft.a.state = .down then s else linkDown s .a
  if data.getLsbD 1 || s.weft.b.state = .down then s else linkDown s .b

/-- WEFT block (Tables 3.16 to 3.23). -/
def weftWrite (s : State) (o : Nat) (data : U32) : State :=
  let w := s.weft
  match o with
  | 0x00 => weftCtrlWrite s data
  | 0x24 => { s with weft := { w with stuck0 := w.stuck0 && !data.getLsbD 6, stuck1 := w.stuck1 && !data.getLsbD 7 } }
  | 0x28 => { s with weft := { w with event := w1c w.event data } }
  | 0x2C => { s with weft := { w with intEn := data.extractLsb' 0 17 } }
  | _ => s

/-- PWR block (Table 15.7). -/
def pwrWrite (s : State) (o : Nat) (data : U32) : State :=
  let p := s.power
  match o with
  | 0x18 => { s with power := { p with event := w1c p.event data } }
  | 0x1C => { s with power := { p with intEn := data.extractLsb' 0 9 } }
  | _ => s

/-- MOR_CFG (Table 18.6): values out of range leave their field. -/
def morCfgWrite (m : Moraine) (data : U32) : Moraine :=
  let f := data.toNat % 65536
  let r := data.toNat / 65536
  { m with flushMs := if 10 ≤ f && f ≤ 1000 then BitVec.ofNat 16 f else m.flushMs
           rate := if 16 ≤ r && r ≤ 4096 then BitVec.ofNat 16 r else m.rate }

/-- MORAINE block (Table 18.6). -/
def morBlockWrite (s : State) (o : Nat) (data : U32) : State :=
  let m := s.mor
  match o with
  | 0x1C => { s with mor := morCfgWrite m data }
  | 0x20 => { s with mor := { m with event := w1c m.event data } }
  | 0x24 => { s with mor := { m with intEn := data.extractLsb' 0 4 } }
  | _ => s

/-- A Selvedge write of DBG_CTRL (R505): ignored and recorded while debug is locked. -/
def dbgCtrl (s : State) (data : U32) : State :=
  if unlocked s then { s with dbg := { s.dbg with frzTb := data.getLsbD 0 } }
  else recordIgnored s 15 (blockAddr 15 4) data.toNat 0xFF 5

/-- DBG block (Table 18.7). -/
def dbgWrite (s : State) (o : Nat) (data : U32) : State :=
  let d := s.dbg
  match o with
  | 0x4 => dbgCtrl s data
  | 0x8 => { s with dbg := { d with event := w1c d.event data } }
  | 0xC => { s with dbg := { d with intEn := data.extractLsb' 0 4 } }
  | _ => s

/-- A write of Selvedge to offset `o` of block `b`, by the register's access codes. Reserved registers and RO fields
ignore it (R14, R16). -/
def blockWrite (s : State) (b o : Nat) (data : U32) : State := match b with
  | 0 => laneWrite s o data
  | 1 => firnWrite s o data
  | 2 => epochWrite s o data
  | 3 => mboxWrite s o data
  | 4 => timeWrite s o data
  | 5 => checkWrite s o data
  | 6 => pktWrite s o data
  | 7 => routeWrite s o data
  | 8 => rackWrite s o data
  | 9 => fioWrite s o data
  | 10 => safeWrite s o data
  | 11 => muslinWrite s o data
  | 12 => weftWrite s o data
  | 13 => pwrWrite s o data
  | 14 => morBlockWrite s o data
  | 15 => dbgWrite s o data
  | _ => s

/-- The domain of the logic that holds a register block (Table 1.2). -/
def blockDomain (b : Nat) : Nat := match b with
  | 2 => 2 | 3 => 1 | 5 => 7 | 6 => 8 | 7 => 8 | 8 => 9 | 9 => 10 | 10 => 10 | 11 => 11 | 12 => 2 | 14 => 1 | _ => 0

/-- The core of a master that is a lane: its leading core. -/
def leadCore (l : LaneId) : CoreRef := ⟨l, .leading⟩

/-- A store of a lane's supervisor to a register that Table 6.2 and the block's chapter let it write; any other has no
effect on the register, since the instruction takes ACCESS_VIOLATION (R532), and one to FIRN_INJECT is recorded (R155). -/
def laneRegStore (s : State) (l : LaneId) (b o : Nat) (data : U32) : State :=
  let c := leadCore l
  match blockStoreRule s c true b o 4 with
  | .allow =>
    if b = 5 then checkStore s o 4 (data.zeroExtend 64)
    else (performStore s c (blockAddr b o) 4 (data.zeroExtend 64)).getD s
  | .timing => (performStore s c (blockAddr b o) 4 (data.zeroExtend 64)).getD s
  | .misuse _ => chkMisuse s
  | .deny => if b = 1 && hitsInject o 4 then recordIgnored s 1 (blockAddr b (o / 4 * 4)) data.toNat l.val 1 else s

/-- What a register write by Selvedge does: nothing once Selvedge has failed (R31, R233). -/
def bySelvedge (s : State) (d : Nat) (t : State) : Host.Outcome State Fault Refusal :=
  live s d (if running s 1 && !s.mbox.failed then t else s)

/-- An access by Selvedge faults (R237): at an own-lane alias of the lane blocks, or outside every region of Table 7.1. -/
def selvedgeFaults (a : Nat) : Bool :=
  let o := a % 0x10000
  if 0x5000000000 ≤ a && a < 0x5000100000 then a < 0x5000020000 && decide (0x0800 ≤ o) && decide (o < 0x0900)
  else !(decide (a < 0x400000000) || (decide (0x4000000000 ≤ a) && decide (a < 0x4000080000))
    || (decide (0x4100000000 ≤ a) && decide (a < 0x4101800000))
    || (decide (0x4800000000 ≤ a) && decide (a < 0x4808000000) && decide (a % 0x1000000 < 0x80000))
    || (decide (0x5800000000 ≤ a) && decide (a < 0x5800010000)) || (decide (0x5800100000 ≤ a) && decide (a < 0x5800104000))
    || (decide (0x5800200000 ≤ a) && decide (a < 0x5800200100)) || (decide (0x6000000000 ≤ a) && decide (a < 0x6100000000))
    || decide (0x7000000000 ≤ a))

/-- REGISTER_WRITE (R14): a 4-byte write to a register. -/
def execRegisterWrite (m : Master) (addr : BitVec 40) (data : U32) (s : State) : Host.Outcome State Fault Refusal :=
  if m = .selvedge && selvedgeFaults addr.toNat then bySelvedge s 1 (selvedgeFail s)
  else match regionOf addr.toNat with
  | .block b o =>
    live s (blockDomain b) (match m with
      | .selvedge => if running s 1 && !s.mbox.failed then blockWrite s b o data else s
      | .lane l => if running s (laneDomain l) then laneRegStore s l b o data else s)
  | _ => .next s

/-- EPOCH_WARN_WRITE (R536, Table 2.13): a write by Selvedge. -/
def execEpochWarnWrite (data : U32) (s : State) : Host.Outcome State Fault Refusal :=
  bySelvedge s 2 (warnWrite s data)

/-- A lane's supervisor may load a register (R532). -/
def laneMayLoad (s : State) (l : LaneId) (b o : Nat) : Bool :=
  match blockLoadRule s (leadCore l) true b o 4 with
  | .allow => true
  | .timing => true
  | _ => false

/-- LATCHING_LO_READ (R289): the read answers its register, and latches the companions of a _LO or NS register. -/
def execLatchingLoRead (m : Master) (addr : BitVec 40) (s : State) : Host.Outcome State Fault Refusal :=
  if m = .selvedge && selvedgeFaults addr.toNat then bySelvedge s 1 (selvedgeFail s)
  else match regionOf addr.toNat with
  | .block b o =>
    let read := fun (o : Nat) => { blockLatch s b o with readData := blockValue s b o }
    live s (blockDomain b) (match m with
      | .selvedge => if running s 1 && !s.mbox.failed then read o else s
      | .lane l => if running s (laneDomain l) && laneMayLoad s l b o then read (unalias l b o) else s)
  | _ => .next s

/-- DBG_CTRL_WRITE (R505). -/
def execDbgCtrlWrite (data : U32) (s : State) : Host.Outcome State Fault Refusal := live s 0 (dbgCtrl s data)

end Sys2Proof.Machine
end

