-- ==== Sys2Proof/Machine/TapOps.lean ====
section
/-! DEFINITION. The test access port (chapter 18, R499, R500, Table 18.2), and Selvedge's address map as it reads and
writes it (Table 7.1). -/

namespace Sys2Proof.Machine

open Sys2Proof

/-- An instruction of Table 18.2 is selected: its data register and that register's length. -/
def tapData (s : State) (code data length : Nat) : State :=
  { s with dbg := { s.dbg with tap := { s.dbg.tap with instr := BitVec.ofNat 8 code, granted := true, data := data
                                                       length := length } } }

/-- An instruction whose condition is not met: a 1-bit register that reads 0, and TAP_DENIED (R499). -/
def tapDenied (s : State) (code : Nat) : State :=
  { s with dbg := { s.dbg with event := setBit s.dbg.event 3
                               tap := { s.dbg.tap with instr := BitVec.ofNat 8 code, granted := false, data := 0
                                                       length := 1 } } }

/-- An instruction with a condition. TRST_L low holds the controller in reset. -/
def tap (s : State) (code : Nat) (ok : Bool) (t : State) : Host.Outcome State Fault Refusal :=
  always s 0 (if s.dbg.tapReset then s else if ok then t else tapDenied s code)

/-- Frozen, with debug unlocked. -/
def tapOpen (s : State) : Bool := s.dbg.frozen && unlocked s

/-- TAP_IDCODE. -/
def execTapIdcode (s : State) : Host.Outcome State Fault Refusal := tap s 0x01 true (tapData s 0x01 0x0484A3B7 32)

/-- TAP_DBG_STATUS. -/
def execTapDbgStatus (s : State) : Host.Outcome State Fault Refusal :=
  tap s 0x02 true (tapData s 0x02 (dbgStatus s) 32)

/-- TAP_SCAN_SELECT. -/
def execTapScanSelect (chain : U16) (s : State) : Host.Outcome State Fault Refusal :=
  let t := tapData s 0x10 chain.toNat 16
  tap s 0x10 (tapOpen s) { t with dbg := { t.dbg with tap := { t.dbg.tap with chain := chain } } }

/-- An entry of the chain directory as its 64 bits (R500). -/
def chainEntry (e : U16 × U32 × Byte) : Nat := e.1.toNat + at' 16 e.2.1.toNat + at' 48 e.2.2.toNat

/-- The chains that the directory lists; an entry of all zeros ends it (R500). -/
def chainList : List (U16 × U32 × Byte) := Config.chainDir.takeWhile (fun e => chainEntry e != 0)

/-- The length of a chain in bits (R500): chain 0 is the directory with the entry that ends it. -/
def chainLen (chain : U16) : Nat :=
  if chain = 0 then 64 * (chainList.length + 1)
  else match chainList.find? (·.1 == chain) with
    | some e => e.2.1.toNat
    | none => Config.chainLength chain

/-- What a chain reads as (R500): the directory, or held state that the spec does not lay out (log entry 60). -/
def chainData (chain : U16) (n : Nat) : Nat :=
  if chain = 0 then chainList.foldr (fun e r => chainEntry e + 2 ^ 64 * r) 0
  else Config.chainBits chain n % 2 ^ chainLen chain

/-- TAP_SCAN_READ (R500): reading changes no held state. -/
def execTapScanRead (s : State) : Host.Outcome State Fault Refusal :=
  let (n, t) := takeFree s
  tap s 0x11 (tapOpen s) (tapData t 0x11 (chainData s.dbg.tap.chain n) (chainLen s.dbg.tap.chain))

/-- MEM_ADDR holds an address. -/
def tapAddr (s : State) (a : BitVec 40) : State :=
  { s with dbg := { s.dbg with tap := { s.dbg.tap with memAddr := a } } }

/-- TAP_MEM_ADDR: an address is a multiple of 8 (Table 18.2); the three low bits are taken as 0 (log entry 63). -/
def execTapMemAddr (addr : BitVec 40) (s : State) : Host.Outcome State Fault Refusal :=
  let a : BitVec 40 := BitVec.ofNat 40 (addr.toNat / 8 * 8)
  tap s 0x20 (tapOpen s) (tapAddr (tapData s 0x20 a.toNat 40) a)

/-- A slot directory record as its 64 bytes (Table 16.8). -/
def dirBytes (r : DirRecord) : List Byte :=
  let body : List Byte := leBytes 4 r.seq.toNat ++ [r.current] ++ b8 (bankCode r.bank) ++ b8 (b2n r.recoveryReq) ++ zeros 1
    ++ leBytes 2 r.format[0].toNat ++ leBytes 2 r.format[1].toNat ++ leBytes 4 r.commitFw[0].toNat
    ++ leBytes 4 r.commitFw[1].toNat ++ leBytes 4 r.svcIp.toNat ++ leBytes 4 r.mgmtIp.toNat ++ leBytes 2 r.mgmtVid.toNat
    ++ b8 r.mgmtPorts.toNat ++ [r.prefixLen] ++ zeros 28
  let crc := (crc32c body).toNat
  body ++ leBytes 4 (if r.crcOk then crc else crc + 1)

/-- Eight bytes of managed flash at an offset (Table 16.4); none at an offset that it does not name. -/
def flashBytes (s : State) (o : Nat) : Option (List Byte) :=
  let b := s.boot
  if o < 0x1000000 then some ((List.range 8).map (fun i => Config.loaderByte (o + i)))
  else if o < 0x1020000 then
    let k := (o - 0x1000000) / 0x10000
    some (slice (fit 65536 (dirBytes (if k = 0 then b.dir[0] else b.dir[1]))) (o % 0x10000) 8)
  else if 0x2000000 ≤ o && o < 0x3000000 then some (memBytes b.slot[0] (o - 0x2000000) 8)
  else if 0x3000000 ≤ o && o < 0x4000000 then some (memBytes b.slot[1] (o - 0x3000000) 8)
  else if 0x10000000 ≤ o && o < 0x30000000 then some (memBytes b.bank (o - 0x10000000) 8)
  else if 0x800000000 ≤ o && o < 0x1000000000 then
    let i := (o - 0x800000000) / 64
    some (match s.mor.ring[i]? with
      | some r => slice (morBytes r) (o % 64) 8
      | none => zeros 8)
  else none

/-- A register block as the port reads it, without what a read latches (R500). -/
def tapRegister (s : State) (b o : Nat) : Option (List Byte) :=
  if (b = 0 || b = 1) && 0x800 ≤ o && o < 0x900 then none
  else some (leBytes 4 (blockValue s b o).toNat ++ leBytes 4 (blockValue s b (o + 4)).toNat)

/-- Eight bytes of the process-image SRAM (Tables 2.6, 6.1). -/
def imageBytes (s : State) (a : Nat) : List Byte :=
  let m := s.mem
  if a < 0x4100400000 then memBytes m.rawOwn (a - 0x4100000000) 8
  else if a < 0x4100800000 then memBytes m.rawA (a - 0x4100400000) 8
  else if a < 0x4100C00000 then memBytes m.rawB (a - 0x4100800000) 8
  else if a < 0x4101000000 then memBytes m.cons (a - 0x4100C00000) 8
  else if a < 0x4101400000 then memBytes m.out (a - 0x4101000000) 8
  else if a < 0x4101500000 then memBytes m.retained (a - 0x4101400000) 8
  else if a < 0x4101600000 then memBytes m.working (a - 0x4101500000) 8
  else if a < 0x4101680000 then memBytes m.published (a - 0x4101600000) 8
  else if a < 0x4101700000 then memBytes m.shadow (a - 0x4101680000) 8
  else freeBytes s 8

/-- The lane and the offset in its TCM of an address in Selvedge's map (Table 7.1). -/
def laneTcm (a : Nat) : Option (LaneId × Nat) :=
  let l := (a - 0x4800000000) / 0x1000000
  let o := (a - 0x4800000000) % 0x1000000
  if h : 0x4800000000 ≤ a ∧ l < 8 ∧ o < 0x80000 then some (⟨l, h.2.1⟩, o) else none

/-- Eight bytes at an address of Selvedge's map (Table 7.1), none where it is unmapped. The outbound window answers
nothing during a freeze (Table 18.1). -/
def selvedgeBytes (s : State) (a : Nat) : Option (List Byte) :=
  if a < 0x400000000 then some (memBytes s.mem.dram a 8)
  else if 0x4000000000 ≤ a && a < 0x4000080000 then some (memBytes s.mbox.tcm (a - 0x4000000000) 8)
  else if 0x4100000000 ≤ a && a < 0x4101800000 then some (imageBytes s a)
  else if 0x5000000000 ≤ a && a < 0x5000100000 then tapRegister s ((a - 0x5000000000) / 0x10000) (a % 0x10000)
  else if 0x5800000000 ≤ a && a < 0x5800010000 then
    some ((List.range 8).map (fun i => Config.romByte (a - 0x5800000000 + i)))
  else if 0x5800100000 ≤ a && a < 0x5800104000 then some (memBytes s.power.backupRam (a - 0x5800100000) 8)
  else if 0x5800200000 ≤ a && a < 0x5800200100 then
    some (if a = 0x5800200000 then zeros 4 ++ leBytes 4 (s.power.lastCause.toNat + 256 * s.power.stageMax.toNat) else zeros 8)
  else if 0x7000000000 ≤ a then flashBytes s (a - 0x7000000000)
  else match laneTcm a with
    | some (l, o) =>
      let k := (laneOf s l).l
      some (if o < 0x40000 then memBytes k.itcm o 8 else memBytes k.dtcm (o - 0x40000) 8)
    | none => none

/-- The address advances by 8. -/
def tapAdvance (s : State) : State := tapAddr s (s.dbg.tap.memAddr + 8)

/-- TAP_MEM_READ (R500): 64 data bits, then ERR. -/
def execTapMemRead (s : State) : Host.Outcome State Fault Refusal :=
  let v := match selvedgeBytes s s.dbg.tap.memAddr.toNat with
    | some bs => ofLe bs
    | none => 2 ^ 64
  tap s 0x21 (tapOpen s) (tapAdvance (tapData s 0x21 v 65))

/-- The lane whose partition holds a DRAM address permits a store by Selvedge (R237, Table 7.1). -/
def partitionOpen (s : State) (a : Nat) : Bool :=
  (List.finRange 8).all (fun l =>
    decide (a < partBase s l) || decide (partBase s l + unitSize * (partOf s l).units ≤ a) || laneQuiet (laneOf s l))

/-- A store of eight bytes to lane TCM writes both cores' copies (Table 7.1). -/
def tcmWrite (ln : Lane) (o : Nat) (bs : List Byte) : Lane :=
  let put := fun (k : Core) =>
    if o < 0x40000 then { k with itcm := memWrite k.itcm o bs } else { k with dtcm := memWrite k.dtcm (o - 0x40000) bs }
  { ln with l := put ln.l, t := put ln.t }

/-- A write of eight bytes at an address of Selvedge's map (Table 7.1): what Selvedge may not store is not written, and a store to
the memory of a lane that runs is recorded (R237, R533). -/
def selvedgeStore (s : State) (a : Nat) (v : Word) : State :=
  let bs := leBytes 8 v.toNat
  if a < 0x400000000 then
    if partitionOpen s a then { s with mem := { s.mem with dram := memWrite s.mem.dram a bs } }
    else recordIgnored s 0x10 a (v.toNat % 2 ^ 32) (laneNumber (partOwner s a)) 2
  else if 0x4000040000 ≤ a && a < 0x4000080000 then
    { s with mbox := { s.mbox with tcm := memWrite s.mbox.tcm (a - 0x4000000000) bs } }
  else if 0x5000000000 ≤ a && a < 0x5000100000 then
    let b := (a - 0x5000000000) / 0x10000
    let o := a % 0x10000
    blockWrite (blockWrite s b o (v.extractLsb' 0 32)) b (o + 4) (v.extractLsb' 32 32)
  else if 0x5800100000 ≤ a && a < 0x5800104000 then
    { s with power := { s.power with backupRam := memWrite s.power.backupRam (a - 0x5800100000) bs } }
  else match laneTcm a with
    | some (l, o) =>
      if laneQuiet (laneOf s l) then putLane s l (tcmWrite (laneOf s l) o bs)
      else recordIgnored s 0x10 a (v.toNat % 2 ^ 32) l.val 3
    | none => s

/-- TAP_MEM_WRITE. -/
def execTapMemWrite (data : Word) (s : State) : Host.Outcome State Fault Refusal :=
  let t := selvedgeStore s s.dbg.tap.memAddr.toNat data
  tap s 0x22 (tapOpen s && s.weft.own = .bench) (tapAdvance (tapData t 0x22 data.toNat 64))

/-- TAP_FIRN_INJECT (R155): the lane of MEM_ADDR bits 34 to 32. Outside bench mode with debug unlocked, and for a lane that is
not STOPPED, the write is ignored and recorded. -/
def execTapFirnInject (data : U32) (detected : Bool) (s : State) : Host.Outcome State Fault Refusal :=
  let l : LaneId := ⟨s.dbg.tap.memAddr.toNat / 2 ^ 32 % 8, by omega⟩
  let ok := bench s && unlocked s
  let t := if ok then tapData s 0x30 data.toNat 32 else tapDenied s 0x30
  always s 0 (if s.dbg.tapReset then s
    else if ok && (laneOf s l).epochState = .stopped then injectWrite t l data detected
    else recordIgnored t 1 (0x500001002C + l.val * 0x100) data.toNat l.val 1)

/-- The freeze ends (R497): lanes become DIVERGED, and held time bases step at their next measurement. -/
def resume (s : State) : State :=
  let step := fun (k : Fin 4) =>
    let b := s.time.tb[k]
    if s.time.tbHeld && k.val != 3 then { b with stepNext := true } else b
  divergeAll { s with
    dbg := { s.dbg with frozen := false, frzPin := false, event := setBit s.dbg.event 1 }
    time := { s.time with tb := Vector.ofFn step, tbHeld := false } }

/-- TAP_RESUME (R497): Update-DR with 1 resumes, in BENCH with debug unlocked and FRZ_L high. -/
def execTapResume (bit frzHigh : Bool) (s : State) : Host.Outcome State Fault Refusal :=
  let t := { s with dbg := { s.dbg with frzPin := s.dbg.frzPin && !frzHigh } }
  let ok := tapOpen t && t.weft.own = .bench && !t.dbg.frzPin
  let u := tapData t 0x31 (b2n bit) 1
  always s 0 (if s.dbg.tapReset then s else if ok then (if bit then resume u else u) else tapDenied t 0x31)

/-- TAP_BYPASS: BYPASS, and every code that Table 18.2 does not list. -/
def execTapBypass (s : State) : Host.Outcome State Fault Refusal := tap s 0xFF true (tapData s 0xFF 0 1)

end Sys2Proof.Machine
end

