-- ==== Sys2Proof/Machine/Dispatch.lean ====
section
/-! DEFINITION. What each command does: one arm per constructor, each a direct call of its meaning. -/

namespace Sys2Proof.Machine

open Sys2Proof

/-- The effect of a command on everything but the queue. -/
def exec (i : Instr) (s : State) : Host.Outcome State Fault Refusal :=
  match i with
  | .powerOn feed env => Sys2Proof.Machine.execPowerOn feed env s
  | .moduleReset cause env => Sys2Proof.Machine.execModuleReset cause env s
  | .resetRequest lows env => Sys2Proof.Machine.execResetRequest lows env s
  | .rstStuck => Sys2Proof.Machine.execRstStuck s
  | .rstUnstuck => Sys2Proof.Machine.execRstUnstuck s
  | .heartbeatWrite data => Sys2Proof.Machine.execHeartbeatWrite data s
  | .heartbeatTimeout => Sys2Proof.Machine.execHeartbeatTimeout s
  | .supervisorRestart env => Sys2Proof.Machine.execSupervisorRestart env s
  | .refLoss => Sys2Proof.Machine.execRefLoss s
  | .refFreqDev => Sys2Proof.Machine.execRefFreqDev s
  | .boundary => Sys2Proof.Machine.execBoundary s
  | .rawClose => Sys2Proof.Machine.execRawClose s
  | .exchangeEnd => Sys2Proof.Machine.execExchangeEnd s
  | .sourceSetCompute => Sys2Proof.Machine.execSourceSetCompute s
  | .seal => Sys2Proof.Machine.execSeal s
  | .budgetWarning => Sys2Proof.Machine.execBudgetWarning s
  | .budgetExhaustedTaken c => Sys2Proof.Machine.execBudgetExhaustedTaken c s
  | .commit c => Sys2Proof.Machine.execCommit c s
  | .commitDeadline => Sys2Proof.Machine.execCommitDeadline s
  | .commitLateTaken c => Sys2Proof.Machine.execCommitLateTaken c s
  | .digestReady lane => Sys2Proof.Machine.execDigestReady lane s
  | .ownDigestDeadline => Sys2Proof.Machine.execOwnDigestDeadline s
  | .voteClose => Sys2Proof.Machine.execVoteClose s
  | .cdnOutRelease => Sys2Proof.Machine.execCdnOutRelease s
  | .cdnInHigh sd => Sys2Proof.Machine.execCdnInHigh sd s
  | .cdnInStuck sd => Sys2Proof.Machine.execCdnInStuck sd s
  | .roleStart => Sys2Proof.Machine.execRoleStart s
  | .tb2SyncSend => Sys2Proof.Machine.execTb2SyncSend s
  | .weftFrameSend sd => Sys2Proof.Machine.execWeftFrameSend sd s
  | .weftFrameDiscard sd why => Sys2Proof.Machine.execWeftFrameDiscard sd why s
  | .weftHello sd hdr payload => Sys2Proof.Machine.execWeftHello sd hdr payload s
  | .weftIdent sd hdr payload => Sys2Proof.Machine.execWeftIdent sd hdr payload s
  | .weftIdentResult sd hdr payload => Sys2Proof.Machine.execWeftIdentResult sd hdr payload s
  | .weftTb2Sync sd hdr payload => Sys2Proof.Machine.execWeftTb2Sync sd hdr payload s
  | .weftRaw sd hdr payload => Sys2Proof.Machine.execWeftRaw sd hdr payload s
  | .weftRxReport sd hdr payload => Sys2Proof.Machine.execWeftRxReport sd hdr payload s
  | .weftDigest sd hdr payload => Sys2Proof.Machine.execWeftDigest sd hdr payload s
  | .weftCondemn sd hdr payload => Sys2Proof.Machine.execWeftCondemn sd hdr payload s
  | .weftUnitSafe sd hdr payload => Sys2Proof.Machine.execWeftUnitSafe sd hdr payload s
  | .weftCatchup sd hdr payload => Sys2Proof.Machine.execWeftCatchup sd hdr payload s
  | .weftMailbox sd hdr payload => Sys2Proof.Machine.execWeftMailbox sd hdr payload s
  | .weftNak sd hdr payload => Sys2Proof.Machine.execWeftNak sd hdr payload s
  | .weftBlockLock sd => Sys2Proof.Machine.execWeftBlockLock sd s
  | .weftLockLost sd => Sys2Proof.Machine.execWeftLockLost sd s
  | .weftCrcRunDown sd => Sys2Proof.Machine.execWeftCrcRunDown sd s
  | .weftSilenceDown sd => Sys2Proof.Machine.execWeftSilenceDown sd s
  | .weftRetrain sd => Sys2Proof.Machine.execWeftRetrain sd s
  | .weftLinkupTimeout sd => Sys2Proof.Machine.execWeftLinkupTimeout sd s
  | .weftRefusedRetry sd => Sys2Proof.Machine.execWeftRefusedRetry sd s
  | .windowCompare p ansA ansB parity => Sys2Proof.Machine.execWindowCompare p ansA ansB parity s
  | .drainComplete lane => Sys2Proof.Machine.execDrainComplete lane s
  | .cmpRailTimeout p => Sys2Proof.Machine.execCmpRailTimeout p s
  | .trailStall p => Sys2Proof.Machine.execTrailStall p s
  | .injectionTestsDone lane detected => Sys2Proof.Machine.execInjectionTestsDone lane detected s
  | .laneReloadDone lane => Sys2Proof.Machine.execLaneReloadDone lane s
  | .rejoinCopyDone lane equal => Sys2Proof.Machine.execRejoinCopyDone lane equal s
  | .modeReqWrite lane data => Sys2Proof.Machine.execModeReqWrite lane data s
  | .lanePerfWrite data => Sys2Proof.Machine.execLanePerfWrite data s
  | .perfRampDone domain => Sys2Proof.Machine.execPerfRampDone domain s
  | .speedInterval => Sys2Proof.Machine.execSpeedInterval s
  | .laneSpeedRead lane => Sys2Proof.Machine.execLaneSpeedRead lane s
  | .firnInject lane data detected => Sys2Proof.Machine.execFirnInject lane data detected s
  | .epochWarnWrite data => Sys2Proof.Machine.execEpochWarnWrite data s
  | .latchingLoRead m addr => Sys2Proof.Machine.execLatchingLoRead m addr s
  | .registerWrite m addr data => Sys2Proof.Machine.execRegisterWrite m addr data s
  | .add c f => Sys2Proof.Machine.execAdd c f s
  | .sub c f => Sys2Proof.Machine.execSub c f s
  | .and c f => Sys2Proof.Machine.execAnd c f s
  | .or c f => Sys2Proof.Machine.execOr c f s
  | .xor c f => Sys2Proof.Machine.execXor c f s
  | .andn c f => Sys2Proof.Machine.execAndn c f s
  | .orn c f => Sys2Proof.Machine.execOrn c f s
  | .xnor c f => Sys2Proof.Machine.execXnor c f s
  | .slt c f => Sys2Proof.Machine.execSlt c f s
  | .sltu c f => Sys2Proof.Machine.execSltu c f s
  | .min c f => Sys2Proof.Machine.execMin c f s
  | .max c f => Sys2Proof.Machine.execMax c f s
  | .minu c f => Sys2Proof.Machine.execMinu c f s
  | .maxu c f => Sys2Proof.Machine.execMaxu c f s
  | .addw c f => Sys2Proof.Machine.execAddw c f s
  | .subw c f => Sys2Proof.Machine.execSubw c f s
  | .seq c f => Sys2Proof.Machine.execSeq c f s
  | .addi c f => Sys2Proof.Machine.execAddi c f s
  | .andi c f => Sys2Proof.Machine.execAndi c f s
  | .ori c f => Sys2Proof.Machine.execOri c f s
  | .xori c f => Sys2Proof.Machine.execXori c f s
  | .slti c f => Sys2Proof.Machine.execSlti c f s
  | .sltiu c f => Sys2Proof.Machine.execSltiu c f s
  | .addiw c f => Sys2Proof.Machine.execAddiw c f s
  | .sll c f => Sys2Proof.Machine.execSll c f s
  | .srl c f => Sys2Proof.Machine.execSrl c f s
  | .sra c f => Sys2Proof.Machine.execSra c f s
  | .rol c f => Sys2Proof.Machine.execRol c f s
  | .ror c f => Sys2Proof.Machine.execRor c f s
  | .sllw c f => Sys2Proof.Machine.execSllw c f s
  | .srlw c f => Sys2Proof.Machine.execSrlw c f s
  | .sraw c f => Sys2Proof.Machine.execSraw c f s
  | .slli c f => Sys2Proof.Machine.execSlli c f s
  | .srli c f => Sys2Proof.Machine.execSrli c f s
  | .srai c f => Sys2Proof.Machine.execSrai c f s
  | .rori c f => Sys2Proof.Machine.execRori c f s
  | .extu c f => Sys2Proof.Machine.execExtu c f s
  | .exts c f => Sys2Proof.Machine.execExts c f s
  | .ins c f => Sys2Proof.Machine.execIns c f s
  | .clz c f => Sys2Proof.Machine.execClz c f s
  | .ctz c f => Sys2Proof.Machine.execCtz c f s
  | .popc c f => Sys2Proof.Machine.execPopc c f s
  | .rev8 c f => Sys2Proof.Machine.execRev8 c f s
  | .mul c f => Sys2Proof.Machine.execMul c f s
  | .mulh c f => Sys2Proof.Machine.execMulh c f s
  | .mulhu c f => Sys2Proof.Machine.execMulhu c f s
  | .mulhsu c f => Sys2Proof.Machine.execMulhsu c f s
  | .div c f => Sys2Proof.Machine.execDiv c f s
  | .divu c f => Sys2Proof.Machine.execDivu c f s
  | .rem c f => Sys2Proof.Machine.execRem c f s
  | .remu c f => Sys2Proof.Machine.execRemu c f s
  | .mulw c f => Sys2Proof.Machine.execMulw c f s
  | .divw c f => Sys2Proof.Machine.execDivw c f s
  | .divuw c f => Sys2Proof.Machine.execDivuw c f s
  | .remw c f => Sys2Proof.Machine.execRemw c f s
  | .remuw c f => Sys2Proof.Machine.execRemuw c f s
  | .lb c f => Sys2Proof.Machine.execLb c f s
  | .lbu c f => Sys2Proof.Machine.execLbu c f s
  | .lh c f => Sys2Proof.Machine.execLh c f s
  | .lhu c f => Sys2Proof.Machine.execLhu c f s
  | .lw c f => Sys2Proof.Machine.execLw c f s
  | .lwu c f => Sys2Proof.Machine.execLwu c f s
  | .ld c f => Sys2Proof.Machine.execLd c f s
  | .flw c f => Sys2Proof.Machine.execFlw c f s
  | .fld c f => Sys2Proof.Machine.execFld c f s
  | .sb c f => Sys2Proof.Machine.execSb c f s
  | .sh c f => Sys2Proof.Machine.execSh c f s
  | .sw c f => Sys2Proof.Machine.execSw c f s
  | .sd c f => Sys2Proof.Machine.execSd c f s
  | .fsw c f => Sys2Proof.Machine.execFsw c f s
  | .fsd c f => Sys2Proof.Machine.execFsd c f s
  | .beq c f => Sys2Proof.Machine.execBeq c f s
  | .bne c f => Sys2Proof.Machine.execBne c f s
  | .blt c f => Sys2Proof.Machine.execBlt c f s
  | .bge c f => Sys2Proof.Machine.execBge c f s
  | .bltu c f => Sys2Proof.Machine.execBltu c f s
  | .bgeu c f => Sys2Proof.Machine.execBgeu c f s
  | .jal c f => Sys2Proof.Machine.execJal c f s
  | .jalr c f => Sys2Proof.Machine.execJalr c f s
  | .fadd c f => Sys2Proof.Machine.execFadd c f s
  | .fsub c f => Sys2Proof.Machine.execFsub c f s
  | .fmul c f => Sys2Proof.Machine.execFmul c f s
  | .fdiv c f => Sys2Proof.Machine.execFdiv c f s
  | .fsqrt c f => Sys2Proof.Machine.execFsqrt c f s
  | .fmin c f => Sys2Proof.Machine.execFmin c f s
  | .fmax c f => Sys2Proof.Machine.execFmax c f s
  | .fcpys c f => Sys2Proof.Machine.execFcpys c f s
  | .fcpyn c f => Sys2Proof.Machine.execFcpyn c f s
  | .fcpyx c f => Sys2Proof.Machine.execFcpyx c f s
  | .fmadd c f => Sys2Proof.Machine.execFmadd c f s
  | .fmsub c f => Sys2Proof.Machine.execFmsub c f s
  | .fnmadd c f => Sys2Proof.Machine.execFnmadd c f s
  | .fnmsub c f => Sys2Proof.Machine.execFnmsub c f s
  | .fcmpeq c f => Sys2Proof.Machine.execFcmpeq c f s
  | .fcmplt c f => Sys2Proof.Machine.execFcmplt c f s
  | .fcmple c f => Sys2Proof.Machine.execFcmple c f s
  | .fkind c f => Sys2Proof.Machine.execFkind c f s
  | .ftol c f => Sys2Proof.Machine.execFtol c f s
  | .ftolu c f => Sys2Proof.Machine.execFtolu c f s
  | .ftow c f => Sys2Proof.Machine.execFtow c f s
  | .ftowu c f => Sys2Proof.Machine.execFtowu c f s
  | .ffroml c f => Sys2Proof.Machine.execFfroml c f s
  | .ffromlu c f => Sys2Proof.Machine.execFfromlu c f s
  | .frnd32 c f => Sys2Proof.Machine.execFrnd32 c f s
  | .fis32 c f => Sys2Proof.Machine.execFis32 c f s
  | .ftog c f => Sys2Proof.Machine.execFtog c f s
  | .ffromg c f => Sys2Proof.Machine.execFfromg c f s
  | .atswap c f => Sys2Proof.Machine.execAtswap c f s
  | .atadd c f => Sys2Proof.Machine.execAtadd c f s
  | .atand c f => Sys2Proof.Machine.execAtand c f s
  | .atorr c f => Sys2Proof.Machine.execAtorr c f s
  | .atxor c f => Sys2Proof.Machine.execAtxor c f s
  | .atmin c f => Sys2Proof.Machine.execAtmin c f s
  | .atmax c f => Sys2Proof.Machine.execAtmax c f s
  | .atminu c f => Sys2Proof.Machine.execAtminu c f s
  | .atmaxu c f => Sys2Proof.Machine.execAtmaxu c f s
  | .atcas c f => Sys2Proof.Machine.execAtcas c f s
  | .fence c f => Sys2Proof.Machine.execFence c f s
  | .yield c f => Sys2Proof.Machine.execYield c f s
  | .trap c f => Sys2Proof.Machine.execTrap c f s
  | .ret c f => Sys2Proof.Machine.execRet c f s
  | .crr c f => Sys2Proof.Machine.execCrr c f s
  | .crw c f => Sys2Proof.Machine.execCrw c f s
  | .crs c f => Sys2Proof.Machine.execCrs c f s
  | .crc c f => Sys2Proof.Machine.execCrc c f s
  | .adds c f => Sys2Proof.Machine.execAdds c f s
  | .subs c f => Sys2Proof.Machine.execSubs c f s
  | .addus c f => Sys2Proof.Machine.execAddus c f s
  | .subus c f => Sys2Proof.Machine.execSubus c f s
  | .negs c f => Sys2Proof.Machine.execNegs c f s
  | .abss c f => Sys2Proof.Machine.execAbss c f s
  | .sats c f => Sys2Proof.Machine.execSats c f s
  | .satu c f => Sys2Proof.Machine.execSatu c f s
  | .mulq c f => Sys2Proof.Machine.execMulq c f s
  | .macq c f => Sys2Proof.Machine.execMacq c f s
  | .clamp c f => Sys2Proof.Machine.execClamp c f s
  | .rate c f => Sys2Proof.Machine.execRate c f s
  | .ckinit c f => Sys2Proof.Machine.execCkinit c f s
  | .ckf8 c f => Sys2Proof.Machine.execCkf8 c f s
  | .ckf16 c f => Sys2Proof.Machine.execCkf16 c f s
  | .ckf32 c f => Sys2Proof.Machine.execCkf32 c f s
  | .ckfold c f => Sys2Proof.Machine.execCkfold c f s
  | .ckrd c f => Sys2Proof.Machine.execCkrd c f s
  | .ckwr c f => Sys2Proof.Machine.execCkwr c f s
  | .ckfin c f => Sys2Proof.Machine.execCkfin c f s
  | .lis c w => Sys2Proof.Machine.execLis c w s
  | .lik c w => Sys2Proof.Machine.execLik c w s
  | .pcrel c w => Sys2Proof.Machine.execPcrel c w s
  | .patrolScrub err => Sys2Proof.Machine.execPatrolScrub err s
  | .sramScrub errs => Sys2Proof.Machine.execSramScrub errs s
  | .doorbellRing lane data => Sys2Proof.Machine.execDoorbellRing lane data s
  | .mbAbort pair data => Sys2Proof.Machine.execMbAbort pair data s
  | .mbRequestArrive pair src port bytes => Sys2Proof.Machine.execMbRequestArrive pair src port bytes s
  | .eventNotice pair => Sys2Proof.Machine.execEventNotice pair s
  | .hello pair => Sys2Proof.Machine.execHello pair s
  | .sysGetIdentity pair => Sys2Proof.Machine.execSysGetIdentity pair s
  | .sysGetStatus pair => Sys2Proof.Machine.execSysGetStatus pair s
  | .sysGetMemory pair => Sys2Proof.Machine.execSysGetMemory pair s
  | .sysRestart pair => Sys2Proof.Machine.execSysRestart pair s
  | .sysEcho pair => Sys2Proof.Machine.execSysEcho pair s
  | .sysGetMboxStats pair => Sys2Proof.Machine.execSysGetMboxStats pair s
  | .sysDeliver pair => Sys2Proof.Machine.execSysDeliver pair s
  | .sysSubscribe pair => Sys2Proof.Machine.execSysSubscribe pair s
  | .sysGetResetLog pair => Sys2Proof.Machine.execSysGetResetLog pair s
  | .cfgGetStatus pair => Sys2Proof.Machine.execCfgGetStatus pair s
  | .cfgStageBegin pair => Sys2Proof.Machine.execCfgStageBegin pair s
  | .cfgStageWrite pair => Sys2Proof.Machine.execCfgStageWrite pair s
  | .cfgStageFinish pair => Sys2Proof.Machine.execCfgStageFinish pair s
  | .cfgRead pair => Sys2Proof.Machine.execCfgRead pair s
  | .cfgDiscard pair => Sys2Proof.Machine.execCfgDiscard pair s
  | .epochGetConfig pair => Sys2Proof.Machine.execEpochGetConfig pair s
  | .epochGetStatus pair => Sys2Proof.Machine.execEpochGetStatus pair s
  | .epochGetMargin pair => Sys2Proof.Machine.execEpochGetMargin pair s
  | .epochClearCounters pair => Sys2Proof.Machine.execEpochClearCounters pair s
  | .epochSetWarn pair => Sys2Proof.Machine.execEpochSetWarn pair s
  | .voteGetStatus pair => Sys2Proof.Machine.execVoteGetStatus pair s
  | .voteGetLinks pair => Sys2Proof.Machine.execVoteGetLinks pair s
  | .voteGetGroups pair => Sys2Proof.Machine.execVoteGetGroups pair s
  | .voteWithdraw pair => Sys2Proof.Machine.execVoteWithdraw pair s
  | .voteRejoin pair => Sys2Proof.Machine.execVoteRejoin pair s
  | .voteResumeGroup pair => Sys2Proof.Machine.execVoteResumeGroup pair s
  | .voteClearCounters pair => Sys2Proof.Machine.execVoteClearCounters pair s
  | .voteGetAdmit pair => Sys2Proof.Machine.execVoteGetAdmit pair s
  | .timeGetAll pair => Sys2Proof.Machine.execTimeGetAll pair s
  | .timeGetServo pair => Sys2Proof.Machine.execTimeGetServo pair s
  | .timeSetServo pair => Sys2Proof.Machine.execTimeSetServo pair s
  | .timeSetIncr pair => Sys2Proof.Machine.execTimeSetIncr pair s
  | .timeSet pair => Sys2Proof.Machine.execTimeSet pair s
  | .timeCapSet pair => Sys2Proof.Machine.execTimeCapSet pair s
  | .timeTpoSet pair => Sys2Proof.Machine.execTimeTpoSet pair s
  | .timePtpSet pair => Sys2Proof.Machine.execTimePtpSet pair s
  | .timePtpGet pair => Sys2Proof.Machine.execTimePtpGet pair s
  | .netGetPort pair => Sys2Proof.Machine.execNetGetPort pair s
  | .netSetPort pair => Sys2Proof.Machine.execNetSetPort pair s
  | .netClearCounters pair => Sys2Proof.Machine.execNetClearCounters pair s
  | .netGclSet pair => Sys2Proof.Machine.execNetGclSet pair s
  | .netGclGet pair => Sys2Proof.Machine.execNetGclGet pair s
  | .netCbGet pair => Sys2Proof.Machine.execNetCbGet pair s
  | .netPdGet pair => Sys2Proof.Machine.execNetPdGet pair s
  | .netMvbGet pair => Sys2Proof.Machine.execNetMvbGet pair s
  | .netCanGet pair => Sys2Proof.Machine.execNetCanGet pair s
  | .netCanRecover pair => Sys2Proof.Machine.execNetCanRecover pair s
  | .routeBegin pair => Sys2Proof.Machine.execRouteBegin pair s
  | .routeCopyDone => Sys2Proof.Machine.execRouteCopyDone s
  | .routeWrite pair => Sys2Proof.Machine.execRouteWrite pair s
  | .routeCommit pair => Sys2Proof.Machine.execRouteCommit pair s
  | .routeCheckDone => Sys2Proof.Machine.execRouteCheckDone s
  | .routeAbort pair => Sys2Proof.Machine.execRouteAbort pair s
  | .routeGetStatus pair => Sys2Proof.Machine.execRouteGetStatus pair s
  | .routeRead pair => Sys2Proof.Machine.execRouteRead pair s
  | .rackGetStatus pair => Sys2Proof.Machine.execRackGetStatus pair s
  | .rackRead pair => Sys2Proof.Machine.execRackRead pair s
  | .rackWrite pair => Sys2Proof.Machine.execRackWrite pair s
  | .rackGetLog pair => Sys2Proof.Machine.execRackGetLog pair s
  | .rackClear pair => Sys2Proof.Machine.execRackClear pair s
  | .rackSetPoll pair => Sys2Proof.Machine.execRackSetPoll pair s
  | .rackSetPf pair => Sys2Proof.Machine.execRackSetPf pair s
  | .fioGetStatus pair => Sys2Proof.Machine.execFioGetStatus pair s
  | .fioGetCompat pair => Sys2Proof.Machine.execFioGetCompat pair s
  | .fioGetChannel pair => Sys2Proof.Machine.execFioGetChannel pair s
  | .fioSetChannel pair => Sys2Proof.Machine.execFioSetChannel pair s
  | .fioClear pair hot => Sys2Proof.Machine.execFioClear pair hot s
  | .safeGetStatus pair => Sys2Proof.Machine.execSafeGetStatus pair s
  | .safeGetSpeed pair => Sys2Proof.Machine.execSafeGetSpeed pair s
  | .safeGetFunc pair => Sys2Proof.Machine.execSafeGetFunc pair s
  | .safeGetConfig pair => Sys2Proof.Machine.execSafeGetConfig pair s
  | .safeClear pair => Sys2Proof.Machine.execSafeClear pair s
  | .safeOutRequest pair => Sys2Proof.Machine.execSafeOutRequest pair s
  | .anaGetStatus pair => Sys2Proof.Machine.execAnaGetStatus pair s
  | .anaGetChannel pair => Sys2Proof.Machine.execAnaGetChannel pair s
  | .anaSetDet pair => Sys2Proof.Machine.execAnaSetDet pair s
  | .anaSync pair => Sys2Proof.Machine.execAnaSync pair s
  | .anaGetRom pair => Sys2Proof.Machine.execAnaGetRom pair s
  | .pwrGetStatus pair => Sys2Proof.Machine.execPwrGetStatus pair s
  | .pwrSetPerf pair => Sys2Proof.Machine.execPwrSetPerf pair s
  | .pwrHoldupTest pair => Sys2Proof.Machine.execPwrHoldupTest pair s
  | .pwrGetLog pair => Sys2Proof.Machine.execPwrGetLog pair s
  | .updGetStatus pair => Sys2Proof.Machine.execUpdGetStatus pair s
  | .updBegin pair => Sys2Proof.Machine.execUpdBegin pair s
  | .updWrite pair => Sys2Proof.Machine.execUpdWrite pair s
  | .updFinish pair => Sys2Proof.Machine.execUpdFinish pair s
  | .updAbort pair => Sys2Proof.Machine.execUpdAbort pair s
  | .secGetStatus pair => Sys2Proof.Machine.execSecGetStatus pair s
  | .secGetKeys pair => Sys2Proof.Machine.execSecGetKeys pair s
  | .secGetRegistry pair => Sys2Proof.Machine.execSecGetRegistry pair s
  | .secGetIdentity pair => Sys2Proof.Machine.execSecGetIdentity pair s
  | .secGetCert pair => Sys2Proof.Machine.execSecGetCert pair s
  | .secAttest pair => Sys2Proof.Machine.execSecAttest pair s
  | .secSubmitChange pair => Sys2Proof.Machine.execSecSubmitChange pair s
  | .secDebugLock pair => Sys2Proof.Machine.execSecDebugLock pair s
  | .recGetStatus pair => Sys2Proof.Machine.execRecGetStatus pair s
  | .recRead pair => Sys2Proof.Machine.execRecRead pair s
  | .recMark pair => Sys2Proof.Machine.execRecMark pair s
  | .recSetCfg pair => Sys2Proof.Machine.execRecSetCfg pair s
  | .dbgGetStatus pair => Sys2Proof.Machine.execDbgGetStatus pair s
  | .dbgFreeze pair => Sys2Proof.Machine.execDbgFreeze pair s
  | .debugUnlockExpire => Sys2Proof.Machine.execDebugUnlockExpire s
  | .freezePin => Sys2Proof.Machine.execFreezePin s
  | .tapIdcode => Sys2Proof.Machine.execTapIdcode s
  | .tapDbgStatus => Sys2Proof.Machine.execTapDbgStatus s
  | .tapScanSelect chain => Sys2Proof.Machine.execTapScanSelect chain s
  | .tapScanRead => Sys2Proof.Machine.execTapScanRead s
  | .tapMemAddr addr => Sys2Proof.Machine.execTapMemAddr addr s
  | .tapMemRead => Sys2Proof.Machine.execTapMemRead s
  | .tapMemWrite data => Sys2Proof.Machine.execTapMemWrite data s
  | .tapFirnInject data detected => Sys2Proof.Machine.execTapFirnInject data detected s
  | .tapResume bit frzHigh => Sys2Proof.Machine.execTapResume bit frzHigh s
  | .tapBypass => Sys2Proof.Machine.execTapBypass s
  | .dbgCtrlWrite data => Sys2Proof.Machine.execDbgCtrlWrite data s
  | .moraineFlush => Sys2Proof.Machine.execMoraineFlush s
  | .rateWindowEnd => Sys2Proof.Machine.execRateWindowEnd s
  | .servoMeasWrite k data => Sys2Proof.Machine.execServoMeasWrite k data s
  | .servoHeldUpdate k => Sys2Proof.Machine.execServoHeldUpdate k s
  | .incrWrite k data => Sys2Proof.Machine.execIncrWrite k data s
  | .servoHoldover k => Sys2Proof.Machine.execServoHoldover k s
  | .servoLost k => Sys2Proof.Machine.execServoLost k s
  | .capture unit falling glitch => Sys2Proof.Machine.execCapture unit falling glitch s
  | .tpoEdge out => Sys2Proof.Machine.execTpoEdge out s
  | .tpoCtrlWrite out reg data => Sys2Proof.Machine.execTpoCtrlWrite out reg data s
  | .ethFrameRx port bytes => Sys2Proof.Machine.execEthFrameRx port bytes s
  | .ethLinkChange port link fec => Sys2Proof.Machine.execEthLinkChange port link fec s
  | .gateInterval port => Sys2Proof.Machine.execGateInterval port s
  | .ethFrameTx port queue => Sys2Proof.Machine.execEthFrameTx port queue s
  | .cbRecoveryTimeout stream => Sys2Proof.Machine.execCbRecoveryTimeout stream s
  | .ringTailWrite m ring data => Sys2Proof.Machine.execRingTailWrite m ring data s
  | .ringDescDone ring ok => Sys2Proof.Machine.execRingDescDone ring ok s
  | .mvbFrame lineB master code addr data => Sys2Proof.Machine.execMvbFrame lineB master code addr data s
  | .mvbBaPeriod => Sys2Proof.Machine.execMvbBaPeriod s
  | .canFrameRx port ident data => Sys2Proof.Machine.execCanFrameRx port ident data s
  | .canTxDone port => Sys2Proof.Machine.execCanTxDone port s
  | .canBusOff port => Sys2Proof.Machine.execCanBusOff port s
  | .canBusoffRecovery port => Sys2Proof.Machine.execCanBusoffRecovery port s
  | .rackLockWrite m data => Sys2Proof.Machine.execRackLockWrite m data s
  | .rackLockTimeout => Sys2Proof.Machine.execRackLockTimeout s
  | .rackGrant => Sys2Proof.Machine.execRackGrant s
  | .rackBusAccessDone answers => Sys2Proof.Machine.execRackBusAccessDone answers s
  | .rackScanStart => Sys2Proof.Machine.execRackScanStart s
  | .inboundWrite addr byteEn data locked => Sys2Proof.Machine.execInboundWrite addr byteEn data locked s
  | .inboundDrain => Sys2Proof.Machine.execInboundDrain s
  | .inboundRead addr width locked => Sys2Proof.Machine.execInboundRead addr width locked s
  | .pfRefillDone window => Sys2Proof.Machine.execPfRefillDone window s
  | .delayedReadDone buffer => Sys2Proof.Machine.execDelayedReadDone buffer s
  | .drExpire buffer => Sys2Proof.Machine.execDrExpire buffer s
  | .rbIrqPoll lines => Sys2Proof.Machine.execRbIrqPoll lines s
  | .rackMonitorCycle cmd addr byteEn data rsp wl => Sys2Proof.Machine.execRackMonitorCycle cmd addr byteEn data rsp wl s
  | .rbClkLoss => Sys2Proof.Machine.execRbClkLoss s
  | .rackBridgeFail => Sys2Proof.Machine.execRackBridgeFail s
  | .chkDataWrite m trailing ctx size data => Sys2Proof.Machine.execChkDataWrite m trailing ctx size data s
  | .chkFoldWrite m trailing ctx data => Sys2Proof.Machine.execChkFoldWrite m trailing ctx data s
  | .chkValWrite m trailing ctx data => Sys2Proof.Machine.execChkValWrite m trailing ctx data s
  | .chkCmpWrite m trailing ctx data => Sys2Proof.Machine.execChkCmpWrite m trailing ctx data s
  | .chkInitWrite m trailing ctx data => Sys2Proof.Machine.execChkInitWrite m trailing ctx data s
  | .chkCfgWrite ctx data => Sys2Proof.Machine.execChkCfgWrite ctx data s
  | .fieldFrame volt0 volt1 => Sys2Proof.Machine.execFieldFrame volt0 volt1 s
  | .fieldReleaseFrame hot => Sys2Proof.Machine.execFieldReleaseFrame hot s
  | .inputFilterEdge ch => Sys2Proof.Machine.execInputFilterEdge ch s
  | .fioCurrentLimit ch engaged => Sys2Proof.Machine.execFioCurrentLimit ch engaged s
  | .fioOverload ch => Sys2Proof.Machine.execFioOverload ch s
  | .fioOvertemp ch => Sys2Proof.Machine.execFioOvertemp ch s
  | .openWireOn ch low => Sys2Proof.Machine.execOpenWireOn ch low s
  | .openWireOff ch high => Sys2Proof.Machine.execOpenWireOff ch high s
  | .extDrive ch driven => Sys2Proof.Machine.execExtDrive ch driven s
  | .fieldHbLost => Sys2Proof.Machine.execFieldHbLost s
  | .fieldHbReturn => Sys2Proof.Machine.execFieldHbReturn s
  | .tssTimeout => Sys2Proof.Machine.execTssTimeout s
  | .supplyWarn group low => Sys2Proof.Machine.execSupplyWarn group low s
  | .supplyTrip group => Sys2Proof.Machine.execSupplyTrip group s
  | .rearmPermit group dip => Sys2Proof.Machine.execRearmPermit group dip s
  | .safetyTick => Sys2Proof.Machine.execSafetyTick s
  | .discrepancyLatch input => Sys2Proof.Machine.execDiscrepancyLatch input s
  | .tpsDark tps => Sys2Proof.Machine.execTpsDark tps s
  | .tpsLight tps => Sys2Proof.Machine.execTpsLight tps s
  | .safetyFieldFrame frame => Sys2Proof.Machine.execSafetyFieldFrame frame s
  | .safetyReleaseFrame => Sys2Proof.Machine.execSafetyReleaseFrame s
  | .safetyHbLost => Sys2Proof.Machine.execSafetyHbLost s
  | .safetyFieldSilence => Sys2Proof.Machine.execSafetyFieldSilence s
  | .safetyTss => Sys2Proof.Machine.execSafetyTss s
  | .shutdownConfirm out => Sys2Proof.Machine.execShutdownConfirm out s
  | .shutdownStuck out => Sys2Proof.Machine.execShutdownStuck out s
  | .precheckTimeout out => Sys2Proof.Machine.execPrecheckTimeout out s
  | .outputTestPulse out low failed cross => Sys2Proof.Machine.execOutputTestPulse out low failed cross s
  | .safeOverload out => Sys2Proof.Machine.execSafeOverload out s
  | .safeOvertemp out hotLow => Sys2Proof.Machine.execSafeOvertemp out hotLow s
  | .openLoad out isOpen => Sys2Proof.Machine.execOpenLoad out isOpen s
  | .safeSupplyLow => Sys2Proof.Machine.execSafeSupplyLow s
  | .safeSupplyReturn => Sys2Proof.Machine.execSafeSupplyReturn s
  | .speedInputFault input fault => Sys2Proof.Machine.execSpeedInputFault input fault s
  | .checkDiffFault func => Sys2Proof.Machine.execCheckDiffFault func s
  | .standstillReached => Sys2Proof.Machine.execStandstillReached s
  | .analogSample ch at16 code => Sys2Proof.Machine.execAnalogSample ch at16 code s
  | .analogOpen ch low => Sys2Proof.Machine.execAnalogOpen ch low s
  | .analogOvercur ch high => Sys2Proof.Machine.execAnalogOvercur ch high s
  | .burdenDisconnect ch => Sys2Proof.Machine.execBurdenDisconnect ch s
  | .burdenReconnect ch => Sys2Proof.Machine.execBurdenReconnect ch s
  | .chainFault ch => Sys2Proof.Machine.execChainFault ch s
  | .muSyncWrite data => Sys2Proof.Machine.execMuSyncWrite data s
  | .feedInvalid feed centivolts => Sys2Proof.Machine.execFeedInvalid feed centivolts s
  | .feedValid feed centivolts env => Sys2Proof.Machine.execFeedValid feed centivolts env s
  | .feedOver feed => Sys2Proof.Machine.execFeedOver feed s
  | .calvingStage2 energy => Sys2Proof.Machine.execCalvingStage2 energy s
  | .calvingStage3 energy => Sys2Proof.Machine.execCalvingStage3 energy s
  | .calvingStage5 energy => Sys2Proof.Machine.execCalvingStage5 energy s
  | .restoreComplete => Sys2Proof.Machine.execRestoreComplete s
  | .holdupTestDaily => Sys2Proof.Machine.execHoldupTestDaily s
  | .holdupMeasureDone cap => Sys2Proof.Machine.execHoldupMeasureDone cap s
  | .bankFull => Sys2Proof.Machine.execBankFull s
  | .vbakLow millivolts => Sys2Proof.Machine.execVbakLow millivolts s
  | .pwrDrawRead => Sys2Proof.Machine.execPwrDrawRead s
  | .slotPinChange pins => Sys2Proof.Machine.execSlotPinChange pins s
  | .rbClkReturn => Sys2Proof.Machine.execRbClkReturn s
  | .vbakReturn millivolts => Sys2Proof.Machine.execVbakReturn millivolts s
  | .calvingFlushDone env => Sys2Proof.Machine.execCalvingFlushDone env s
  | .linkupTb2Round sd => Sys2Proof.Machine.execLinkupTb2Round sd s
  | .longCommandDone pair ok => Sys2Proof.Machine.execLongCommandDone pair ok s
  | .longCommandTimeout pair => Sys2Proof.Machine.execLongCommandTimeout pair s
  | .pd0SupervisorFault env => Sys2Proof.Machine.execPd0SupervisorFault env s

end Sys2Proof.Machine
end

