-- ==== Sys2Proof/Machine/Tick.lean ====
section
/-! DEFINITION. One tick of the 100 MHz clock: what step does when no command waits. -/

namespace Sys2Proof.Machine

/-- A stored word goes wrong, or none does: a free value says which (R224, log entry 98). -/
def upsetArises (s : State) : State :=
  let (n, s) := takeFree s
  match Config.upset n with
  | some (area, offset, double, dirty) =>
    { s with mem := { s.mem with upsets := ⟨⟨area, offset⟩, double, dirty⟩ :: s.mem.upsets } }
  | none => s

/-- One 10 ns tick: the time bases count, a running servo update completes (R271, R275), and an upset may arise. -/
def clockTick (s : State) : State := upsetArises (passTicks s 1)

end Sys2Proof.Machine
end

