-- ==== Sys2Proof/Ieee.lean ====
section
/-! DEFINITION. What claims about floating point are stated in (R183 to R187): the number that an encoding stands for, one
rounding of an exact real result, and the result of each operation as a relation, none of which runs the model's own
arithmetic. -/

namespace Sys2Proof.Machine

open Sys2Proof

/-- The biased exponent of a binary64 encoding (IEEE 754-2019). -/
def fExp (x : Word) : Nat := (x.extractLsb' 52 11).toNat

/-- The fraction of a binary64 encoding. -/
def fFrac (x : Word) : Nat := (x.extractLsb' 0 52).toNat

/-- A zero, a subnormal or a normal value. -/
abbrev fFinite (x : Word) : Prop := fExp x ≠ 2047

/-- An infinity. -/
abbrev fInfinite (x : Word) : Prop := fExp x = 2047 ∧ fFrac x = 0

/-- A NaN. -/
abbrev fNaN (x : Word) : Prop := fExp x = 2047 ∧ fFrac x ≠ 0

/-- A signalling NaN: its quiet bit is 0. -/
abbrev fSignals (x : Word) : Prop := fNaN x ∧ x.getLsbD 51 = false

/-- The number that a finite encoding stands for. -/
def fNum (x : Word) : ℚ :=
  (if x.getLsbD 63 then -1 else 1) *
    (if fExp x = 0 then (fFrac x : ℚ) * 2 ^ (-1074 : ℤ) else ((2 ^ 52 + fFrac x : ℕ) : ℚ) * 2 ^ ((fExp x : ℤ) - 1075))

/-- A zero of a sign. -/
def fZero (neg : Bool) : Word := if neg then 0x8000000000000000 else 0

/-- The integer that a rounding mode gives for a number (Table 5.3): nearest with ties to even, nearest with ties away
from zero, toward plus infinity, toward minus infinity, toward zero. -/
def Nearest (rm : Nat) (x : ℝ) (m : ℤ) : Prop := match rm with
  | 0 => |x - m| ≤ 1 / 2 ∧ (|x - m| = 1 / 2 → Even m)
  | 1 => |x - m| ≤ 1 / 2 ∧ (|x - m| = 1 / 2 → |x| < |(m : ℝ)|)
  | 2 => x ≤ m ∧ m < x + 1
  | 3 => m ≤ x ∧ x < m + 1
  | _ => |(m : ℝ)| ≤ |x| ∧ |x| < |(m : ℝ)| + 1 ∧ 0 ≤ x * m

/-- Whether an overflow of a sign gives an infinity under a rounding mode (IEEE 754-2019). -/
def overflowsToInf (rm : Nat) (neg : Bool) : Bool := match rm with
  | 0 => true
  | 1 => true
  | 2 => !neg
  | 3 => neg
  | _ => false

/-- A result is tiny after rounding (R185): rounded to the precision of the format with no least exponent, it lies below
the least normal value. -/
def TinyAfter (fm : FFormat) (rm : Nat) (x : ℝ) : Prop :=
  ∃ q m : ℤ, (2 : ℝ) ^ (q + fm.prec - 1) ≤ |x| ∧ |x| < 2 ^ (q + fm.prec) ∧ Nearest rm (x / 2 ^ q) m ∧
    |(m : ℝ)| * 2 ^ q < 2 ^ fm.emin

/-- The exact non-zero number `x` rounded once to a format, held as binary64, with its flags (R183, R185, R187): `q` is
the weight of the last place that the format keeps of `x`, subnormals included, and `m` the rounded significand. -/
def RoundsTo (fm : FFormat) (rm : Nat) (x : ℝ) (r : Word × BitVec 5) : Prop :=
  ∃ q m : ℤ, fm.emin - fm.prec + 1 ≤ q ∧ |x| < 2 ^ (q + fm.prec) ∧
    (q = fm.emin - fm.prec + 1 ∨ (2 : ℝ) ^ (q + fm.prec - 1) ≤ |x|) ∧ Nearest rm (x / 2 ^ q) m ∧
    (r.1.getLsbD 63 = true ↔ x < 0) ∧
    ((2 : ℝ) ^ (fm.emax + 1) ≤ |(m : ℝ)| * 2 ^ q →
      (if overflowsToInf rm (r.1.getLsbD 63) then fInfinite r.1
        else fFinite r.1 ∧ |fNum r.1| = (2 ^ fm.prec - 1) * 2 ^ (fm.emax - fm.prec + 1)) ∧ r.2 = 0b10100) ∧
    (|(m : ℝ)| * 2 ^ q < 2 ^ (fm.emax + 1) →
      fFinite r.1 ∧ (fNum r.1 : ℝ) = m * 2 ^ q ∧ (x = m * 2 ^ q → r.2 = 0) ∧
      (x ≠ m * 2 ^ q → TinyAfter fm rm x → r.2 = 0b11000) ∧ (x ≠ m * 2 ^ q → ¬ TinyAfter fm rm x → r.2 = 0b10000))

/-- round() of an exact result (R183): an exact zero takes the sign given, and sets no flag. -/
def Rounded (s : Bool) (rm : Nat) (x : ℝ) (zeroNeg : Bool) (r : Word × BitVec 5) : Prop :=
  (x = 0 → r = (fZero zeroNeg, 0)) ∧ (x ≠ 0 → RoundsTo (fmtOf s) rm x r)

/-- The NaN result of operands of which one is a NaN (R185): the first of them made quiet, the default NaN for S = 1, and
NV where one is signalling. -/
def NanResult (s : Bool) (ops : List Word) (r : Word × BitVec 5) : Prop :=
  (∃ before x after, ops = before ++ x :: after ∧ (∀ y ∈ before, ¬ fNaN y) ∧ fNaN x ∧
    r.1 = if s then 0x7FF8000000000000 else x ||| 0x0008000000000000) ∧
  ((∃ y ∈ ops, fSignals y) → r.2 = 1) ∧ ((∀ y ∈ ops, ¬ fSignals y) → r.2 = 0)

/-- The default NaN with NV (R185). -/
abbrev fInvalid : Word × BitVec 5 := (0x7FF8000000000000, 1)

/-- A sum of two values that are no NaN. -/
def SumResult (s : Bool) (rm : Nat) (a b : Word) (r : Word × BitVec 5) : Prop :=
  (fInfinite a → fInfinite b → a.getLsbD 63 ≠ b.getLsbD 63 → r = fInvalid) ∧
  (fInfinite a → (fInfinite b → a.getLsbD 63 = b.getLsbD 63) → r = (a, 0)) ∧
  (fFinite a → fInfinite b → r = (b, 0)) ∧
  (fFinite a → fFinite b →
    Rounded s rm (fNum a + fNum b : ℚ) (if a.getLsbD 63 = b.getLsbD 63 then a.getLsbD 63 else rm == 3) r)

/-- An encoding with its sign inverted. -/
def fMinus (x : Word) : Word := x ^^^ 0x8000000000000000

/-- FADD and FSUB (Table 5.11). -/
def AddResult (sub s : Bool) (rm : Nat) (a b : Word) (r : Word × BitVec 5) : Prop :=
  (fNaN a ∨ fNaN b → NanResult s [a, b] r) ∧
  (¬ fNaN a → ¬ fNaN b → SumResult s rm a (if sub then fMinus b else b) r)

/-- FMUL (Table 5.11): zero times infinity is invalid. -/
def MulResult (s : Bool) (rm : Nat) (a b : Word) (r : Word × BitVec 5) : Prop :=
  let neg := a.getLsbD 63 ^^ b.getLsbD 63
  (fNaN a ∨ fNaN b → NanResult s [a, b] r) ∧
  (fInfinite a → fFinite b → fNum b = 0 → r = fInvalid) ∧
  (fFinite a → fInfinite b → fNum a = 0 → r = fInvalid) ∧
  (fInfinite a → fInfinite b ∨ fFinite b ∧ fNum b ≠ 0 → r = (fInf neg, 0)) ∧
  (fFinite a → fNum a ≠ 0 → fInfinite b → r = (fInf neg, 0)) ∧
  (fFinite a → fFinite b → Rounded s rm (fNum a * fNum b : ℚ) neg r)

/-- FDIV (Table 5.11): 0 / 0 and infinity / infinity are invalid, and another finite value / 0 sets DZ. -/
def DivResult (s : Bool) (rm : Nat) (a b : Word) (r : Word × BitVec 5) : Prop :=
  let neg := a.getLsbD 63 ^^ b.getLsbD 63
  (fNaN a ∨ fNaN b → NanResult s [a, b] r) ∧
  (fInfinite a → fInfinite b → r = fInvalid) ∧
  (fInfinite a → fFinite b → r = (fInf neg, 0)) ∧
  (fFinite a → fInfinite b → r = (fZero neg, 0)) ∧
  (fFinite a → fFinite b → fNum b = 0 → r = if fNum a = 0 then fInvalid else (fInf neg, 2)) ∧
  (fFinite a → fFinite b → fNum b ≠ 0 → Rounded s rm (fNum a / fNum b : ℚ) neg r)

/-- FSQRT (Table 5.11): the root of a negative number is invalid, and a zero keeps its sign. -/
def SqrtResult (s : Bool) (rm : Nat) (a : Word) (r : Word × BitVec 5) : Prop :=
  (fNaN a → NanResult s [a] r) ∧
  (fInfinite a → r = if a.getLsbD 63 then fInvalid else (a, 0)) ∧
  (fFinite a → fNum a < 0 → r = fInvalid) ∧
  (fFinite a → 0 ≤ fNum a → Rounded s rm (Real.sqrt (fNum a)) (a.getLsbD 63) r)

/-- A value that is no NaN in the selected format. -/
def FormatResult (s : Bool) (rm : Nat) (x : Word) (r : Word × BitVec 5) : Prop :=
  (fInfinite x → r = (x, 0)) ∧ (fFinite x → Rounded s rm (fNum x) (x.getLsbD 63) r)

/-- a < b, neither being a NaN. -/
def FLess (a b : Word) : Prop :=
  fInfinite a ∧ a.getLsbD 63 = true ∧ (fFinite b ∨ fInfinite b ∧ b.getLsbD 63 = false) ∨
  fFinite a ∧ fInfinite b ∧ b.getLsbD 63 = false ∨ fFinite a ∧ fFinite b ∧ fNum a < fNum b

/-- a = b, neither being a NaN; the zeros are equal. -/
def FSame (a b : Word) : Prop :=
  fInfinite a ∧ fInfinite b ∧ a.getLsbD 63 = b.getLsbD 63 ∨ fFinite a ∧ fFinite b ∧ fNum a = fNum b

/-- FMIN and FMAX (Table 5.11, R185): the operand of the wanted side in the selected format, -0 being below +0. -/
def ExtremeResult (max s : Bool) (rm : Nat) (a b : Word) (r : Word × BitVec 5) : Prop :=
  let below := fun x y => FLess x y ∨ FSame x y ∧ x.getLsbD 63 = true ∧ y.getLsbD 63 = false
  (fNaN a ∨ fNaN b → NanResult s [a, b] r) ∧
  (below a b → FormatResult s rm (if max then b else a) r) ∧
  (below b a → FormatResult s rm (if max then a else b) r) ∧
  (FSame a b → a.getLsbD 63 = b.getLsbD 63 → a = b ∧ FormatResult s rm a r)

/-- FMADD and its kin (Table 5.11, R186): round(±(a × b) ± c), rounded once. With zero times infinity and a quiet NaN as c
the hardware fixes whether NV is set (log entry 8). -/
def FusedResult (negProd negC s : Bool) (rm : Nat) (a b c : Word) (r : Word × BitVec 5) : Prop :=
  let pn := (a.getLsbD 63 ^^ b.getLsbD 63) ^^ negProd
  let c' := if negC then fMinus c else c
  let zeroInf := fInfinite a ∧ fFinite b ∧ fNum b = 0 ∨ fFinite a ∧ fNum a = 0 ∧ fInfinite b
  (fNaN a ∨ fNaN b ∨ fNaN c → ¬ zeroInf → NanResult s [a, b, c] r) ∧
  (fNaN c → zeroInf → ∃ fl, NanResult s [a, b, c] (r.1, fl) ∧ r.2 = if Config.fmaZeroInfNan then 1 else fl) ∧
  (¬ fNaN c → zeroInf → r = fInvalid) ∧
  (¬ fNaN a → ¬ fNaN b → ¬ fNaN c → ¬ zeroInf →
    (fInfinite a ∨ fInfinite b →
      (fInfinite c → c'.getLsbD 63 ≠ pn → r = fInvalid) ∧ ((fInfinite c → c'.getLsbD 63 = pn) → r = (fInf pn, 0))) ∧
    (fFinite a → fFinite b → fInfinite c → r = (c', 0)) ∧
    (fFinite a → fFinite b → fFinite c →
      Rounded s rm ((if negProd then -(fNum a * fNum b) else fNum a * fNum b) + fNum c' : ℚ)
        (if pn = c'.getLsbD 63 then pn else rm == 3) r))

/-- A comparison (Table 5.11): 1 where the relation holds; NV for a signalling NaN, or for any NaN. -/
def CompareResult (rel : Word → Word → Prop) (anyNan : Bool) (a b : Word) (r : Word × BitVec 5) : Prop :=
  (rel a b → r.1 = 1) ∧ (¬ rel a b → r.1 = 0) ∧
  (fSignals a ∨ fSignals b ∨ anyNan = true ∧ (fNaN a ∨ fNaN b) → r.2 = 1) ∧
  (¬ fSignals a → ¬ fSignals b → (anyNan = true → ¬ fNaN a ∧ ¬ fNaN b) → r.2 = 0)

/-- FKIND (Table 5.11). -/
def KindResult (x g : Word) : Prop :=
  let sign := if x.getLsbD 63 then 8 else 0
  (fExp x = 0 → fFrac x = 0 → g.toNat = 0 + sign) ∧ (fExp x = 0 → fFrac x ≠ 0 → g.toNat = 1 + sign) ∧
  (fExp x ≠ 0 → fFinite x → g.toNat = 2 + sign) ∧ (fInfinite x → g.toNat = 3 + sign) ∧
  (fNaN x → ¬ fSignals x → g.toNat = 4 + sign) ∧ (fSignals x → g.toNat = 5 + sign)

/-- cvt(a, lo, hi) as a word (R184). -/
def ConvertResult (rm : Nat) (x : Word) (lo hi : ℤ) (r : Word × BitVec 5) : Prop :=
  (fNaN x → r = (0, 1)) ∧
  (fInfinite x → r = (BitVec.ofInt 64 (if x.getLsbD 63 then lo else hi), 1)) ∧
  (fFinite x → ∃ m : ℤ, Nearest rm (fNum x) m ∧ (m < lo → r = (BitVec.ofInt 64 lo, 1)) ∧
    (hi < m → r = (BitVec.ofInt 64 hi, 1)) ∧
    (lo ≤ m → m ≤ hi → r = (BitVec.ofInt 64 m, if fNum x = m then 0 else 0b10000)))

/-- FRND32 (R185, R187). -/
def Round32Result (rm : Nat) (x : Word) (r : Word × BitVec 5) : Prop :=
  (fNaN x → r.1 = 0x7FF8000000000000 ∧ (fSignals x → r.2 = 1) ∧ (¬ fSignals x → r.2 = 0)) ∧
  (¬ fNaN x → FormatResult true rm x r)

/-- binary32 represents a number exactly: at most 24 bits, none below 2^-149 and none above 2^127. -/
def Fits32 (v : ℚ) : Prop := ∃ m q : ℤ, v = m * 2 ^ q ∧ |m| < 2 ^ 24 ∧ -149 ≤ q ∧ q ≤ 104

/-- The number that a finite binary32 encoding stands for. -/
def fNum32 (x : U32) : ℚ :=
  let e := (x.extractLsb' 23 8).toNat
  let f := (x.extractLsb' 0 23).toNat
  (if x.getLsbD 31 then -1 else 1) *
    (if e = 0 then (f : ℚ) * 2 ^ (-149 : ℤ) else ((2 ^ 23 + f : ℕ) : ℚ) * 2 ^ ((e : ℤ) - 150))

/-- The widening of FLW (R187): exact, a NaN keeping its sign, its quiet bit and its payload. -/
def WidensTo (x : U32) (w : Word) : Prop :=
  let e := (x.extractLsb' 23 8).toNat
  let f := (x.extractLsb' 0 23).toNat
  w.getLsbD 63 = x.getLsbD 31 ∧ (e ≠ 255 → fFinite w ∧ fNum w = fNum32 x) ∧
  (e = 255 → fExp w = 2047 ∧ fFrac w = f * 2 ^ 29)

/-- The narrowing of FSW (R187): the value in binary32 under RM, widened again, and the flags of that; a NaN becomes the
default NaN with its sign. -/
def NarrowsTo (rm : Nat) (x : Word) (r : U32 × BitVec 5) : Prop :=
  (fNaN x → r.1 = (if x.getLsbD 63 then 0xFFC00000 else 0x7FC00000) ∧
    (fSignals x → r.2 = 1) ∧ (¬ fSignals x → r.2 = 0)) ∧
  (¬ fNaN x → ∃ w, FormatResult true rm x (w, r.2) ∧ WidensTo r.1 w)

end Sys2Proof.Machine
end

