-- ==== Sys2Proof/Machine/LaneWords.lean ====
section
/-! DEFINITION. The words of lane instructions (chapter 5, R177, R178, Tables 5.7 to 5.13): which instruction a word spells,
the word of an instruction, and what a core does with a word, those that no table lists included. No row of the opcode table
is such a word (log entry 1), so no step takes this way; the meanings of the rows are those that `exec` gives. -/

namespace Sys2Proof.Machine

open Sys2Proof

/-- Class 0, register arithmetic, by minor code (Tables 5.8 to 5.13). -/
def classInstr0 (minor : Nat) : Option (CoreRef → Fields → Instr) := match minor with
  | 0x00 => some .add
  | 0x01 => some .sub
  | 0x02 => some .and
  | 0x03 => some .or
  | 0x04 => some .xor
  | 0x05 => some .andn
  | 0x06 => some .orn
  | 0x07 => some .xnor
  | 0x08 => some .slt
  | 0x09 => some .sltu
  | 0x0A => some .min
  | 0x0B => some .max
  | 0x0C => some .minu
  | 0x0D => some .maxu
  | 0x0E => some .addw
  | 0x0F => some .subw
  | 0x10 => some .seq
  | _ => none

/-- Class 1, immediate arithmetic, by minor code (Tables 5.8 to 5.13). -/
def classInstr1 (minor : Nat) : Option (CoreRef → Fields → Instr) := match minor with
  | 0x00 => some .addi
  | 0x02 => some .andi
  | 0x03 => some .ori
  | 0x04 => some .xori
  | 0x08 => some .slti
  | 0x09 => some .sltiu
  | 0x0E => some .addiw
  | _ => none

/-- Class 2, shifts and bit fields, by minor code (Tables 5.8 to 5.13). -/
def classInstr2 (minor : Nat) : Option (CoreRef → Fields → Instr) := match minor with
  | 0x00 => some .sll
  | 0x01 => some .srl
  | 0x02 => some .sra
  | 0x03 => some .rol
  | 0x04 => some .ror
  | 0x05 => some .sllw
  | 0x06 => some .srlw
  | 0x07 => some .sraw
  | 0x10 => some .slli
  | 0x11 => some .srli
  | 0x12 => some .srai
  | 0x14 => some .rori
  | 0x18 => some .extu
  | 0x19 => some .exts
  | 0x1A => some .ins
  | 0x20 => some .clz
  | 0x21 => some .ctz
  | 0x22 => some .popc
  | 0x23 => some .rev8
  | _ => none

/-- Class 3, multiplication and division, by minor code (Tables 5.8 to 5.13). -/
def classInstr3 (minor : Nat) : Option (CoreRef → Fields → Instr) := match minor with
  | 0x00 => some .mul
  | 0x01 => some .mulh
  | 0x02 => some .mulhu
  | 0x03 => some .mulhsu
  | 0x04 => some .div
  | 0x05 => some .divu
  | 0x06 => some .rem
  | 0x07 => some .remu
  | 0x08 => some .mulw
  | 0x0C => some .divw
  | 0x0D => some .divuw
  | 0x0E => some .remw
  | 0x0F => some .remuw
  | _ => none

/-- Class 4, loads, by minor code (Tables 5.8 to 5.13). -/
def classInstr4 (minor : Nat) : Option (CoreRef → Fields → Instr) := match minor with
  | 0x00 => some .lb
  | 0x01 => some .lbu
  | 0x02 => some .lh
  | 0x03 => some .lhu
  | 0x04 => some .lw
  | 0x05 => some .lwu
  | 0x06 => some .ld
  | 0x08 => some .flw
  | 0x09 => some .fld
  | _ => none

/-- Class 5, stores, by minor code (Tables 5.8 to 5.13). -/
def classInstr5 (minor : Nat) : Option (CoreRef → Fields → Instr) := match minor with
  | 0x00 => some .sb
  | 0x02 => some .sh
  | 0x04 => some .sw
  | 0x06 => some .sd
  | 0x08 => some .fsw
  | 0x09 => some .fsd
  | _ => none

/-- Class 6, branches, by minor code (Tables 5.8 to 5.13). -/
def classInstr6 (minor : Nat) : Option (CoreRef → Fields → Instr) := match minor with
  | 0x00 => some .beq
  | 0x01 => some .bne
  | 0x02 => some .blt
  | 0x03 => some .bge
  | 0x04 => some .bltu
  | 0x05 => some .bgeu
  | _ => none

/-- Class 7, jumps, by minor code (Tables 5.8 to 5.13). -/
def classInstr7 (minor : Nat) : Option (CoreRef → Fields → Instr) := match minor with
  | 0x00 => some .jal
  | 0x01 => some .jalr
  | _ => none

/-- Class 8, floating-point arithmetic, by minor code (Tables 5.8 to 5.13). -/
def classInstr8 (minor : Nat) : Option (CoreRef → Fields → Instr) := match minor with
  | 0x00 => some .fadd
  | 0x01 => some .fsub
  | 0x02 => some .fmul
  | 0x03 => some .fdiv
  | 0x04 => some .fsqrt
  | 0x05 => some .fmin
  | 0x06 => some .fmax
  | 0x08 => some .fcpys
  | 0x09 => some .fcpyn
  | 0x0A => some .fcpyx
  | 0x10 => some .fmadd
  | 0x11 => some .fmsub
  | 0x12 => some .fnmadd
  | 0x13 => some .fnmsub
  | _ => none

/-- Class 9, floating-point compares and conversions, by minor code (Tables 5.8 to 5.13). -/
def classInstr9 (minor : Nat) : Option (CoreRef → Fields → Instr) := match minor with
  | 0x00 => some .fcmpeq
  | 0x01 => some .fcmplt
  | 0x02 => some .fcmple
  | 0x03 => some .fkind
  | 0x08 => some .ftol
  | 0x09 => some .ftolu
  | 0x0A => some .ftow
  | 0x0B => some .ftowu
  | 0x10 => some .ffroml
  | 0x11 => some .ffromlu
  | 0x18 => some .frnd32
  | 0x19 => some .fis32
  | 0x20 => some .ftog
  | 0x21 => some .ffromg
  | _ => none

/-- Class 10, atomics and FENCE, by minor code (Tables 5.8 to 5.13). -/
def classInstr10 (minor : Nat) : Option (CoreRef → Fields → Instr) := match minor with
  | 0x00 => some .atswap
  | 0x01 => some .atadd
  | 0x02 => some .atand
  | 0x03 => some .atorr
  | 0x04 => some .atxor
  | 0x05 => some .atmin
  | 0x06 => some .atmax
  | 0x07 => some .atminu
  | 0x08 => some .atmaxu
  | 0x09 => some .atcas
  | 0x20 => some .fence
  | _ => none

/-- Class 11, system, by minor code (Tables 5.8 to 5.13). -/
def classInstr11 (minor : Nat) : Option (CoreRef → Fields → Instr) := match minor with
  | 0x00 => some .yield
  | 0x01 => some .trap
  | 0x02 => some .ret
  | 0x08 => some .crr
  | 0x09 => some .crw
  | 0x0A => some .crs
  | 0x0B => some .crc
  | _ => none

/-- Class 12, saturating arithmetic, by minor code (Tables 5.8 to 5.13). -/
def classInstr12 (minor : Nat) : Option (CoreRef → Fields → Instr) := match minor with
  | 0x00 => some .adds
  | 0x01 => some .subs
  | 0x02 => some .addus
  | 0x03 => some .subus
  | 0x04 => some .negs
  | 0x05 => some .abss
  | 0x08 => some .sats
  | 0x09 => some .satu
  | 0x10 => some .mulq
  | 0x11 => some .macq
  | 0x18 => some .clamp
  | 0x19 => some .rate
  | _ => none

/-- Class 13, check assist, by minor code (Tables 5.8 to 5.13). -/
def classInstr13 (minor : Nat) : Option (CoreRef → Fields → Instr) := match minor with
  | 0x00 => some .ckinit
  | 0x01 => some .ckf8
  | 0x02 => some .ckf16
  | 0x03 => some .ckf32
  | 0x04 => some .ckfold
  | 0x08 => some .ckrd
  | 0x09 => some .ckwr
  | 0x0A => some .ckfin
  | _ => none

/-- An instruction of classes 0 to 13 by class and minor code; class 14 has none (R178). -/
def classInstr (major minor : Nat) : Option (CoreRef → Fields → Instr) := match major with
  | 0 => classInstr0 minor
  | 1 => classInstr1 minor
  | 2 => classInstr2 minor
  | 3 => classInstr3 minor
  | 4 => classInstr4 minor
  | 5 => classInstr5 minor
  | 6 => classInstr6 minor
  | 7 => classInstr7 minor
  | 8 => classInstr8 minor
  | 9 => classInstr9 minor
  | 10 => classInstr10 minor
  | 11 => classInstr11 minor
  | 12 => classInstr12 minor
  | 13 => classInstr13 minor
  | _ => none

/-- Class 15 by OP; 0b11 has no instruction (Table 5.13). -/
def wideInstr (op : Nat) : Option (CoreRef → Wide → Instr) := match op with
  | 0 => some .lis
  | 1 => some .lik
  | 2 => some .pcrel
  | _ => none

/-- The fields of a word of classes 0 to 13 (Table 5.7). -/
def fieldsOf (w : U32) : Fields :=
  { rd := w.extractLsb' 17 5, ra := w.extractLsb' 12 5, rb := w.extractLsb' 7 5, mod := w.extractLsb' 0 7 }

/-- The fields of a word of class 15 (Table 5.7). -/
def wideOf (w : U32) : Wide :=
  { rd := w.extractLsb' 17 5, imm21 := w.extractLsb' 22 4 ++ w.extractLsb' 0 17 }

/-- The instruction that a word spells for a core; none where R178 knows no instruction by that class and code. -/
def laneDecode (c : CoreRef) (w : U32) : Option Instr :=
  if w.extractLsb' 28 4 = 15 then (wideInstr (w.extractLsb' 26 2).toNat).map (fun k => k c (wideOf w))
  else (classInstr (w.extractLsb' 28 4).toNat (w.extractLsb' 22 6).toNat).map (fun k => k c (fieldsOf w))

/-- The core and the word of a lane instruction (R177, Tables 5.7 to 5.13); none for a command that is no instruction. -/
def laneCode : Instr → Option (CoreRef × U32)
  | .add c f => some (c, wordOf 0 0x00 f)
  | .sub c f => some (c, wordOf 0 0x01 f)
  | .and c f => some (c, wordOf 0 0x02 f)
  | .or c f => some (c, wordOf 0 0x03 f)
  | .xor c f => some (c, wordOf 0 0x04 f)
  | .andn c f => some (c, wordOf 0 0x05 f)
  | .orn c f => some (c, wordOf 0 0x06 f)
  | .xnor c f => some (c, wordOf 0 0x07 f)
  | .slt c f => some (c, wordOf 0 0x08 f)
  | .sltu c f => some (c, wordOf 0 0x09 f)
  | .min c f => some (c, wordOf 0 0x0A f)
  | .max c f => some (c, wordOf 0 0x0B f)
  | .minu c f => some (c, wordOf 0 0x0C f)
  | .maxu c f => some (c, wordOf 0 0x0D f)
  | .addw c f => some (c, wordOf 0 0x0E f)
  | .subw c f => some (c, wordOf 0 0x0F f)
  | .seq c f => some (c, wordOf 0 0x10 f)
  | .addi c f => some (c, wordOf 1 0x00 f)
  | .andi c f => some (c, wordOf 1 0x02 f)
  | .ori c f => some (c, wordOf 1 0x03 f)
  | .xori c f => some (c, wordOf 1 0x04 f)
  | .slti c f => some (c, wordOf 1 0x08 f)
  | .sltiu c f => some (c, wordOf 1 0x09 f)
  | .addiw c f => some (c, wordOf 1 0x0E f)
  | .sll c f => some (c, wordOf 2 0x00 f)
  | .srl c f => some (c, wordOf 2 0x01 f)
  | .sra c f => some (c, wordOf 2 0x02 f)
  | .rol c f => some (c, wordOf 2 0x03 f)
  | .ror c f => some (c, wordOf 2 0x04 f)
  | .sllw c f => some (c, wordOf 2 0x05 f)
  | .srlw c f => some (c, wordOf 2 0x06 f)
  | .sraw c f => some (c, wordOf 2 0x07 f)
  | .slli c f => some (c, wordOf 2 0x10 f)
  | .srli c f => some (c, wordOf 2 0x11 f)
  | .srai c f => some (c, wordOf 2 0x12 f)
  | .rori c f => some (c, wordOf 2 0x14 f)
  | .extu c f => some (c, wordOf 2 0x18 f)
  | .exts c f => some (c, wordOf 2 0x19 f)
  | .ins c f => some (c, wordOf 2 0x1A f)
  | .clz c f => some (c, wordOf 2 0x20 f)
  | .ctz c f => some (c, wordOf 2 0x21 f)
  | .popc c f => some (c, wordOf 2 0x22 f)
  | .rev8 c f => some (c, wordOf 2 0x23 f)
  | .lb c f => some (c, wordOf 4 0x00 f)
  | .lbu c f => some (c, wordOf 4 0x01 f)
  | .lh c f => some (c, wordOf 4 0x02 f)
  | .lhu c f => some (c, wordOf 4 0x03 f)
  | .lw c f => some (c, wordOf 4 0x04 f)
  | .lwu c f => some (c, wordOf 4 0x05 f)
  | .ld c f => some (c, wordOf 4 0x06 f)
  | .flw c f => some (c, wordOf 4 0x08 f)
  | .fld c f => some (c, wordOf 4 0x09 f)
  | .sb c f => some (c, wordOf 5 0x00 f)
  | .sh c f => some (c, wordOf 5 0x02 f)
  | .sw c f => some (c, wordOf 5 0x04 f)
  | .sd c f => some (c, wordOf 5 0x06 f)
  | .fsw c f => some (c, wordOf 5 0x08 f)
  | .fsd c f => some (c, wordOf 5 0x09 f)
  | .beq c f => some (c, wordOf 6 0x00 f)
  | .bne c f => some (c, wordOf 6 0x01 f)
  | .blt c f => some (c, wordOf 6 0x02 f)
  | .bge c f => some (c, wordOf 6 0x03 f)
  | .bltu c f => some (c, wordOf 6 0x04 f)
  | .bgeu c f => some (c, wordOf 6 0x05 f)
  | .jal c f => some (c, wordOf 7 0x00 f)
  | .jalr c f => some (c, wordOf 7 0x01 f)
  | .fadd c f => some (c, wordOf 8 0x00 f)
  | .fsub c f => some (c, wordOf 8 0x01 f)
  | .fmul c f => some (c, wordOf 8 0x02 f)
  | .fdiv c f => some (c, wordOf 8 0x03 f)
  | .fsqrt c f => some (c, wordOf 8 0x04 f)
  | .fmin c f => some (c, wordOf 8 0x05 f)
  | .fmax c f => some (c, wordOf 8 0x06 f)
  | .fcpys c f => some (c, wordOf 8 0x08 f)
  | .fcpyn c f => some (c, wordOf 8 0x09 f)
  | .fcpyx c f => some (c, wordOf 8 0x0A f)
  | .fmadd c f => some (c, wordOf 8 0x10 f)
  | .fmsub c f => some (c, wordOf 8 0x11 f)
  | .fnmadd c f => some (c, wordOf 8 0x12 f)
  | .fnmsub c f => some (c, wordOf 8 0x13 f)
  | .fcmpeq c f => some (c, wordOf 9 0x00 f)
  | .fcmplt c f => some (c, wordOf 9 0x01 f)
  | .fcmple c f => some (c, wordOf 9 0x02 f)
  | .fkind c f => some (c, wordOf 9 0x03 f)
  | .ftol c f => some (c, wordOf 9 0x08 f)
  | .ftolu c f => some (c, wordOf 9 0x09 f)
  | .ftow c f => some (c, wordOf 9 0x0A f)
  | .ftowu c f => some (c, wordOf 9 0x0B f)
  | .ffroml c f => some (c, wordOf 9 0x10 f)
  | .ffromlu c f => some (c, wordOf 9 0x11 f)
  | .frnd32 c f => some (c, wordOf 9 0x18 f)
  | .fis32 c f => some (c, wordOf 9 0x19 f)
  | .ftog c f => some (c, wordOf 9 0x20 f)
  | .ffromg c f => some (c, wordOf 9 0x21 f)
  | .atswap c f => some (c, wordOf 10 0x00 f)
  | .atadd c f => some (c, wordOf 10 0x01 f)
  | .atand c f => some (c, wordOf 10 0x02 f)
  | .atorr c f => some (c, wordOf 10 0x03 f)
  | .atxor c f => some (c, wordOf 10 0x04 f)
  | .atmin c f => some (c, wordOf 10 0x05 f)
  | .atmax c f => some (c, wordOf 10 0x06 f)
  | .atminu c f => some (c, wordOf 10 0x07 f)
  | .atmaxu c f => some (c, wordOf 10 0x08 f)
  | .atcas c f => some (c, wordOf 10 0x09 f)
  | .fence c f => some (c, wordOf 10 0x20 f)
  | .yield c f => some (c, wordOf 11 0x00 f)
  | .trap c f => some (c, wordOf 11 0x01 f)
  | .ret c f => some (c, wordOf 11 0x02 f)
  | .crr c f => some (c, wordOf 11 0x08 f)
  | .crw c f => some (c, wordOf 11 0x09 f)
  | .crs c f => some (c, wordOf 11 0x0A f)
  | .crc c f => some (c, wordOf 11 0x0B f)
  | .adds c f => some (c, wordOf 12 0x00 f)
  | .subs c f => some (c, wordOf 12 0x01 f)
  | .addus c f => some (c, wordOf 12 0x02 f)
  | .subus c f => some (c, wordOf 12 0x03 f)
  | .negs c f => some (c, wordOf 12 0x04 f)
  | .abss c f => some (c, wordOf 12 0x05 f)
  | .sats c f => some (c, wordOf 12 0x08 f)
  | .satu c f => some (c, wordOf 12 0x09 f)
  | .mulq c f => some (c, wordOf 12 0x10 f)
  | .macq c f => some (c, wordOf 12 0x11 f)
  | .clamp c f => some (c, wordOf 12 0x18 f)
  | .rate c f => some (c, wordOf 12 0x19 f)
  | .ckinit c f => some (c, wordOf 13 0x00 f)
  | .ckf8 c f => some (c, wordOf 13 0x01 f)
  | .ckf16 c f => some (c, wordOf 13 0x02 f)
  | .ckf32 c f => some (c, wordOf 13 0x03 f)
  | .ckfold c f => some (c, wordOf 13 0x04 f)
  | .ckrd c f => some (c, wordOf 13 0x08 f)
  | .ckwr c f => some (c, wordOf 13 0x09 f)
  | .ckfin c f => some (c, wordOf 13 0x0A f)
  | .lis c w => some (c, wordWide 0 w)
  | .lik c w => some (c, wordWide 1 w)
  | .pcrel c w => some (c, wordWide 2 w)
  | .mul c f => some (c, wordOf 3 0x00 f)
  | .mulh c f => some (c, wordOf 3 0x01 f)
  | .mulhu c f => some (c, wordOf 3 0x02 f)
  | .mulhsu c f => some (c, wordOf 3 0x03 f)
  | .div c f => some (c, wordOf 3 0x04 f)
  | .divu c f => some (c, wordOf 3 0x05 f)
  | .rem c f => some (c, wordOf 3 0x06 f)
  | .remu c f => some (c, wordOf 3 0x07 f)
  | .mulw c f => some (c, wordOf 3 0x08 f)
  | .divw c f => some (c, wordOf 3 0x0C f)
  | .divuw c f => some (c, wordOf 3 0x0D f)
  | .remw c f => some (c, wordOf 3 0x0E f)
  | .remuw c f => some (c, wordOf 3 0x0F f)
  | _ => none

/-- A core runs a word: the instruction that it spells, or, where it spells none, the exception of an illegal instruction
(R178, Table 5.14), in the place that R198 gives it. -/
def execWord (c : CoreRef) (w : U32) (s : State) : Host.Outcome State Fault Refusal := match laneDecode c w with
  | some i => exec i s
  | none => runLane s c (fun s _ => illegal s w)

end Sys2Proof.Machine
end

