-- ==== Sys2Proof/Safety.lean ====
section
/-! DEFINITION. What claims about whole runs are stated in: what no command of the module changes. -/

namespace Sys2Proof.Machine

open Sys2Proof

/-- What a step never changes beyond taking the front command: what manufacture fixes (R459, R463, R490, R491) and the
commands that wait. -/
structure Kept where
  otp : Otp
  pending : List Instr
deriving DecidableEq, Repr

/-- The part of a state that no command changes. -/
def kept (s : State) : Kept := { otp := s.otp, pending := s.pending }

/-- The kept part of a next state; none for a fault or a refusal. -/
def keptO : Host.Outcome State Fault Refusal → Option Kept
  | .next t => some (kept t)
  | _ => none

/-- One core of the state. -/
def coreAt (s : State) (c : CoreRef) : Core := coreOf (laneOf s c.lane) c.core

/-- The other core of the lane. -/
def otherCore (c : CoreRef) : CoreRef := match c.core with
  | .leading => { c with core := .trailing }
  | .trailing => { c with core := .leading }

/-- What software sees of a core: the running signature, the records that wait for it, the window counters and the delay's
counters left out. -/
def archOf (k : Core) : Core :=
  { k with sig := 0, entry := [], wseq := 0, wcount := 0, wstart := 0, closed := [], sinceDrain := 0, interval := 0 }

/-- The core retires its next instruction when its command comes: it may (R131), its Drift entries have room (R139), no
asynchronous exception is due (R198), its fetch is granted (R204), and no memory holds a wrong word (R224). -/
structure Retires (s : State) (c : CoreRef) : Prop where
  ready : coreReady s c = true
  room : stalled s c = false
  calm : asyncDue s c = none
  fetch : fetchOk s c (coreAt s c) = true
  sound : s.mem.upsets = []

/-- Where T's next instruction carries the MARK of a window, the MARK agrees with T's own window (R143). -/
def MarkAgrees (s : State) (c : CoreRef) : Prop :=
  ∀ e rest, follows s c = true → (laneOf s c.lane).drift = e :: rest → e.kind.toNat = 6 → e.seq = seqOf (coreAt s c) →
    e.parity = driftParity e.data e.kind e.seq ∧ e.data = (coreAt s c).wseq ++ ((coreAt s c).wcount + 1)

/-- `t` is `s` after core `c` has retired an instruction that leaves `k` of it: nothing else changes but the Firn stream
of the core and, in a PAIRED lane, the Drift queue. -/
structure Ran (s t : State) (c : CoreRef) (k : Core) : Prop where
  core : archOf (coreAt t c) = archOf { k with retired := k.retired + 1 }
  other : coreAt t (otherCore c) = coreAt s (otherCore c)
  lane : laneOf t c.lane = { laneOf s c.lane with
    l := (laneOf t c.lane).l, t := (laneOf t c.lane).t, drift := (laneOf t c.lane).drift
    driftPeak := (laneOf t c.lane).driftPeak }
  lanes : ∀ l, l ≠ c.lane → laneOf t l = laneOf s l
  rest : t = { s with lanes := { s.lanes with lane := t.lanes.lane } }

/-- `t` is `s` after core `c` has taken a synchronous exception (R195, Tables 5.4, 5.14 and 5.15): EPC holds the PC, CAUSE
and EVAL tell the exception, PREV_PRIV takes PRIV, PRIV and EXC are set, and the PC is at the vector of the mode. Nothing
retires, and no other register, core, lane or block changes. -/
structure Excepted (s t : State) (c : CoreRef) (e : Exc) : Prop where
  core : archOf (coreAt t c) =
    let k := coreAt s c
    archOf { k with
      pc := k.cr.vbase + (if isSup k then 0x80 else 0x40)
      cr := { k.cr with
        epc := k.pc
        cause := BitVec.ofNat 9 (e.code % 64 + (if e.fetch then 64 else 0) + (if e.write then 128 else 0))
        eval := e.eval
        status := (k.cr.status &&& 0b11000) ||| 0b00101 ||| (if isSup k then 0b00010 else 0) } }
  other : coreAt t (otherCore c) = coreAt s (otherCore c)
  lane : laneOf t c.lane = { laneOf s c.lane with l := (laneOf t c.lane).l, t := (laneOf t c.lane).t }
  lanes : ∀ l, l ≠ c.lane → laneOf t l = laneOf s l
  rest : t = { s with lanes := { s.lanes with lane := t.lanes.lane } }

/-- The instants of TB2 run, and `u` is `s` once TB2 has reached `ns` nanoseconds (R37, R38, Table 2.2). -/
structure Instant (s u : State) (ns : Nat) : Prop where
  on : running s 2 = true
  epochs : s.epoch.running = true
  synced : s.epoch.resync = false
  time : u = passUntil s 2 ns
  reached : reached u 2 ns = true

/-- A frame with header `h` and payload `p` arrives on a link that sends frames, and its SEQ and ACK have been noted (R77,
R78, R80); `u` is the state then. -/
structure Arrived (s u : State) (sd : Side) (h : WeftHdr) (p : List Byte) : Prop where
  on : running s 2 = true
  sends : linkSends (linkOf s sd) = true
  fits : p.length ≤ maxPayload
  seen : u = noteSeq s sd h.seq h.ack

/-- `t` is `s` after the servo of time base `k`, which stood as `b`, has taken a measurement `m` in units of 2^-16 ns without a
step (R275, R278, Table 8.4). -/
structure Servoed (s t : State) (k : Fin 4) (b : TimeBase) (m : Int) : Prop where
  base : t.time.tb[k] =
    let acc := clampAdj (b.acc + m * 2 ^ 16 / 2 ^ b.ki.toNat)
    let within := decide (m.natAbs ≤ b.lockNs.toNat * 2 ^ 16)
    let count := if within then min (b.lockCount + 1) 4 else 0
    { b with acc := acc, adj := clampAdj (m * 2 ^ 16 / 2 ^ b.kp.toNat + acc), busy := true, lastOfs := satI32 (m / 2 ^ 16)
             lockCount := count, relock := false, state := servoNext b within count }
  others : ∀ j, j ≠ k → t.time.tb[j] = s.time.tb[j]
  event : t.time.event = if t.time.tb[k].state = b.state then s.time.event else setBit s.time.event (4 + k.val)
  rest : t = { s with time := { s.time with tb := t.time.tb, event := t.time.event } }

/-- `t` is `s` after a measurement `m` has made the servo of time base `k`, which stood as `b`, step (R275, R278, R286, R39):
its value moves by the whole offset and it locks anew; the pulse outputs on it skip what a step forward passes, and a step
of TB2 is shown in EPOCH_EVENT and makes the lanes DIVERGED. -/
structure Stepped (s t : State) (k : Fin 4) (b : TimeBase) (m : Int) : Prop where
  base : t.time.tb[k] = { b with
    value := tbOfFine (max ((tbFine b.value : Int) + m * 2 ^ 16) 0).toNat, adj := clampAdj b.acc, busy := true
    lastOfs := satI32 (m / 2 ^ 16), stepCnt := satInc b.stepCnt, lockCount := 0, stepNext := false, relock := false
    state := .locking }
  others : ∀ j, j ≠ k → t.time.tb[j] = s.time.tb[j]
  event : t.time.event.getLsbD k.val = true ∧ (b.state ≠ .locking → t.time.event.getLsbD (4 + k.val) = true) ∧
    ∀ i, i ≠ k.val → i ≠ 4 + k.val → i ≠ 12 → t.time.event.getLsbD i = s.time.event.getLsbD i
  outputs : ∀ p : Fin 8, t.time.tpo[p] =
    if 0 < m ∧ s.time.tpo[p].tb.toNat = k.val then (tpoStep s.time.tpo[p] (tbNanos t.time.tb[k].value)).1
    else s.time.tpo[p]
  ports : ∀ p : Fin 4, t.pkt.port[p] =
    if s.pkt.port[p].tasTb.toNat = k.val then gateStep s.pkt.port[p] (tbNanos t.time.tb[k].value) else s.pkt.port[p]
  epochs : k.val = 2 → t.epoch.event = setBit s.epoch.event 20 ∧
    (0 < m → s.epoch.running = true → s.epoch.next * epochNs s.epoch ≤ tb2 t → t.epoch.resync = true ∧
      t.epoch.next = tb2 t / epochNs s.epoch + 1) ∧
    ∀ l, (laneOf s l).epochState ≠ .stopped → (laneOf s l).epochState ≠ .faulted → (laneOf s l).epochState ≠ .shed →
      (laneOf t l).epochState = .diverged
  rest : t = { s with
    time := { s.time with tb := t.time.tb, event := t.time.event, tpo := t.time.tpo }
    pkt := { s.pkt with port := t.pkt.port }
    epoch := if k.val = 2 then { s.epoch with event := t.epoch.event, next := t.epoch.next, resync := t.epoch.resync }
      else s.epoch
    lanes := if k.val = 2 then { s.lanes with lane := t.lanes.lane } else s.lanes
    weft := if k.val = 2 then { s.weft with ownDigest := t.weft.ownDigest } else s.weft
    rack := if k.val = 2 then t.rack else s.rack
    muslin := if k.val = 2 then { s.muslin with chan := t.muslin.chan } else s.muslin }

/-- Bridge `b` after it has gone on with its own work as `t` has (R329, R330, R333, R334): queue, open access, write list, the
shared memory that LOCAL records write, and the prefetch buffers that they invalidate. -/
def moved (b t : Rack) : Rack :=
  { b with outQueue := t.outQueue, openAccess := t.openAccess, granted := t.granted, writeList := t.writeList, shm := t.shm
           pf := t.pf }

/-- `t` is `s` after safe output `n` has entered state `st` with latched fault `fault` (Table 13.5, R412): its switches stand as
the state says, `first` of them having opened first (Table 13.7), and no other output changes. -/
structure OutputTo (s t : State) (n : Fin 8) (st : SafeOutState) (fault : BitVec 4) (first : BitVec 2) : Prop where
  output : t.safe.output = s.safe.output.set n { s.safe.output[n] with
    state := st, fault := fault, swH := decide (st = .precheck ∨ st = .on), swL := decide (st = .on), entered := tb3 s
    highTicks := 0, first := first, offSince := if st = .safeOff then tb3 s else s.safe.output[n].offSince }
  rest : t = { s with safe := { s.safe with
    output := t.safe.output, event := t.safe.event, items := t.safe.items, lostMark := t.safe.lostMark }, epoch := t.epoch }

/-- Every safe output of `s` that is in PRECHECK or ON is in SHUTDOWN in `t` with both switches open, and the others stand as they
did (Table 13.6). -/
def shutDown (s t : State) : Prop :=
  ∀ n : Fin 8, let x := s.safe.output[n]
    t.safe.output[n] = if x.state = .precheck ∨ x.state = .on
      then { x with state := .shutdown, swH := false, swL := false, entered := tb3 s, highTicks := 0, first := 0 } else x

/-- `t` is `s` after a reset of `cause` and the start that follows it (R401, R451, R456, R459, R482, R504, Table 7.25): the reset is
logged and counted, the slot is sampled, debug is locked, PD0 and PD1 are on, a locked safe output keeps its latch while PD0 was
powered and every other stands open, the servos are as after reset, UNIT_SAFE outlasts a restart that is no operator's (R111, log entry
99), and flash, fuses, keys and the recorder's ring are as they were. -/
structure Started (s t : State) (cause : BitVec 8) (env : StartEnv) : Prop where
  lastCause : t.power.lastCause = cause
  log : t.boot.resetLog = (resetEntry s cause :: (if cause = 1 then [] else s.boot.resetLog)).take 8
  restarts : t.boot.restarts = satInc s.boot.restarts
  slot : t.slot = env.slot
  power : t.power.stage = 0 ∧ t.power.t0 = none ∧ t.power.domains.getLsbD 0 = true ∧ t.power.domains.getLsbD 1 = true
  debug : t.dbg.unlockEnd = none ∧ t.dbg.frozen = false
  outputs : ∀ n : Fin 8, let o := s.safe.output[n]
    t.safe.output[n].swH = false ∧ t.safe.output[n].swL = false ∧
      t.safe.output[n].state = (if cause ≠ 1 ∧ o.state = .locked then .locked else .safeOff) ∧
      t.safe.output[n].fault = (if cause ≠ 1 ∧ o.state = .locked then o.fault else 0)
  servos : ∀ k : Fin 4, t.time.tb[k].state = .free ∧ t.time.tb[k].stepCnt = 0 ∧ t.time.tb[k].lockCount = 0
  unitSafe : s.weft.own = .unitSafe → cause = 5 ∨ cause = 6 ∨ cause = 8 → t.weft.own = .unitSafe
  links : (linkOf t .a).state = .down ∧ (linkOf t .b).state = .down
  flash : t.boot.slot = s.boot.slot ∧ t.boot.bank = s.boot.bank ∧ t.mor.ring = s.mor.ring
  store : t.sec.maint = s.sec.maint ∧ t.sec.sa = s.sec.sa ∧ t.sec.registry = s.sec.registry ∧
    t.sec.changeSeq = s.sec.changeSeq ∧ t.otp = s.otp

/-- `t` is `s` but for the link of one side. -/
structure LinkOnly (s t : State) (sd : Side) : Prop where
  other : ∀ o, o ≠ sd → linkOf t o = linkOf s o
  rest : t = { s with weft := { s.weft with a := t.weft.a, b := t.weft.b } }

/-- `t` is `s` after a lane fault with one cause in a lane that is neither SHED nor FAULTED (R148, R149, R151): the store gate
and the Drift queue are empty, a first fault fills FIRN_STATUS, the fault is counted and shown in LANE_EVENT, the fourth
within 3600 s disables the lane, and no other lane changes. -/
structure LaneFaulted (s t : State) (l : LaneId) (cause : Nat) : Prop where
  gate : (laneOf t l).gate = [] ∧ (laneOf t l).drift = []
  stopped : afterDeadline s = false → (laneOf t l).l.suspended = true ∧ (laneOf t l).t.suspended = true
  state : (laneOf t l).epochState =
    let st := faultState s (laneOf s l)
    if 3 ≤ (liveFaults s (laneOf s l).faultTimes).length ∧ st = .faulted then .stopped else st
  disabled : (laneOf t l).disabled =
    ((laneOf s l).disabled || decide (3 ≤ (liveFaults s (laneOf s l).faultTimes).length))
  times : (laneOf t l).faultTimes = tb3 s :: liveFaults s (laneOf s l).faultTimes
  counts : (laneOf t l).faultsCore =
      (if checkerCause cause then (laneOf s l).faultsCore else satInc (laneOf s l).faultsCore) ∧
    (laneOf t l).faultsChecker =
      (if checkerCause cause then satInc (laneOf s l).faultsChecker else (laneOf s l).faultsChecker)
  status : (laneOf s l).firnFrozen = false → (laneOf t l).firnFrozen = true ∧
    (laneOf t l).firnCause = BitVec.ofNat 4 cause ∧ (laneOf t l).firnMask = causeBit cause ∧
    (laneOf t l).firnChecker = checkerCause cause
  event : t.lanes.event = setBit s.lanes.event (8 + l.val)
  others : ∀ l', l' ≠ l → laneOf t l' = laneOf s l'
  rest : t = { s with lanes := t.lanes, weft := t.weft, rack := t.rack, epoch := t.epoch, mor := t.mor }

/-- The pair's turn has come (R250), and its request asks for this command, unsegmented, and passes checks 1 to 7 of
Table 7.8 (R249, R259). -/
structure Asked (s : State) (pair : PairId) (c : CmdSpec) : Prop where
  turn : mboxTurn s = some pair.val
  code : (requestOf s pair.val).command = c.code
  crc : (requestOf s pair.val).crcOk = true
  length : (requestOf s pair.val).lengthOk = true
  level : (requestOf s pair.val).level = (pairAt s pair.val).level.toNat
  flags : (requestOf s pair.val).flags = 0
  status : (requestOf s pair.val).status = 0
  reserved : (requestOf s pair.val).reserved = 0
  reach : c.level ≤ (pairAt s pair.val).level.toNat
  recovery : s.boot.recovery = true → c.code / 256 = 1 ∨ c.code / 256 = 0x0B
  accept : c.accept pair.val = true
  alone : c.segmented = true → sameXfer s pair.val (requestOf s pair.val) = none

/-- The payload of the request of a pair. -/
def payloadOf (s : State) (pair : PairId) : List Byte := (requestOf s pair.val).payload

/-- Nothing changes from `s` to `t` but the mailboxes, the frames that wait on the links and the ports, the datagrams of the
service port, and the items of the raw images with what tells of a late one: what a message of a pair may change. -/
structure Messaged (s t : State) : Prop where
  rest : t = { s with mbox := t.mbox, weft := { s.weft with a := t.weft.a, b := t.weft.b }
                      epoch := { s.epoch with items := t.epoch.items, closing := t.epoch.closing
                                              lateItems := t.epoch.lateItems, event := t.epoch.event }
                      pkt := { s.pkt with port := t.pkt.port, svcSent := t.pkt.svcSent } }
  links : ∀ sd, linkOf t sd = { linkOf s sd with txq := (linkOf t sd).txq }
  ports : ∀ k : Fin 4, t.pkt.port[k] = { s.pkt.port[k] with queue := t.pkt.port[k].queue }

/-- `t` is `s` after the request of `pair` has been answered with `a` (R239, R241, Tables 7.4 and 7.5): the pair is DONE,
its response slot holds the response message, and nothing changes outside the mailboxes, the frames that wait on the links
and the ports, the datagrams of the service port, and the items of the raw image. -/
structure Answered (s t : State) (pair : PairId) (a : Answer) : Prop where
  done : (pairAt t pair.val).state = .done
  message : (pairAt t pair.val).rsp = slotOf (messageBytes (pairAt s pair.val).level.toNat 1
    (requestOf s pair.val).command (requestOf s pair.val).tag a.status
    (if (pairAt s pair.val).level.toNat ≤ 1 then 0 else a.detail) a.payload)
  count : (pairAt t pair.val).served = satInc (pairAt s pair.val).served
  rest : Messaged s t

/-- `t` is `s` after the request of `pair` has begun a long command (R252): the pair is SERVING with the command as its job,
and nothing changes outside the mailboxes, the frames on the links and the ports, the datagrams of the service port, and the items
of the raw image. -/
structure Begun (s t : State) (pair : PairId) (code : Nat) : Prop where
  serving : (pairAt t pair.val).state = .serving
  job : (pairAt t pair.val).job = some ⟨code, (requestOf s pair.val).payload⟩
  rest : Messaged s t

/-- Every memory of the module: DRAM and the process-image SRAM, the TCMs, mailbox slots, shared memory, flash and backup
RAM (Tables 6.1, 6.3, 7.3). -/
def memories (s : State) : List Mem :=
  [s.mem.dram, s.mem.rawOwn, s.mem.rawA, s.mem.rawB, s.mem.cons, s.mem.out, s.mem.retained, s.mem.working, s.mem.published,
    s.mem.shadow, s.mbox.tcm, s.rack.shm, s.boot.bank, s.power.backupRam]
    ++ s.boot.slot.toList
    ++ s.lanes.lane.toList.flatMap (fun x => [x.l.itcm, x.l.dtcm, x.t.itcm, x.t.dtcm])
    ++ s.mbox.pair.toList.flatMap (fun p => [p.req, p.rsp])

/-- Every memory of the module has its canonical form. -/
def memoriesWf (s : State) : Bool := (memories s).all Mem.wf

end Sys2Proof.Machine
end

