-- ==== Sys2Proof/Certificates/Slice0/Obligations.lean ====
section
/-! DEFINITION. The statements about the module that are to be proved. -/

open Sys2Proof Sys2Proof.Machine

/-- ALU register instructions (R179, Table 5.8 class 0): g[rd] takes the result of the two source registers, g0 reads as 0
and takes nothing, no flag changes, and the PC moves to the next instruction. ALU immediate and wide-immediate
instructions (Table 5.8 class 1, Table 5.13 class 15). -/
def Obligations.RegisterOperationResult : Prop :=
  (
  ∀ row ∈ ([(.add, fun a b => a + b), (.sub, fun a b => a - b), (.and, fun a b => a &&& b), (.or, fun a b => a ||| b),
      (.xor, fun a b => a ^^^ b), (.andn, fun a b => a &&& ~~~b), (.orn, fun a b => a ||| ~~~b),
      (.xnor, fun a b => ~~~(a ^^^ b)), (.slt, fun a b => if a.toInt < b.toInt then 1 else 0),
      (.sltu, fun a b => if a.toNat < b.toNat then 1 else 0), (.min, fun a b => if a.toInt ≤ b.toInt then a else b),
      (.max, fun a b => if a.toInt ≤ b.toInt then b else a), (.minu, fun a b => if a.toNat ≤ b.toNat then a else b),
      (.maxu, fun a b => if a.toNat ≤ b.toNat then b else a), (.addw, fun a b => ((a + b).setWidth 32).signExtend 64),
      (.subw, fun a b => ((a - b).setWidth 32).signExtend 64), (.seq, fun a b => if a = b then 1 else 0)] :
      List ((CoreRef → Fields → Instr) × (Word → Word → Word))),
  ∀ c f s, Retires s c → MarkAgrees s c → f.mod = 0 →
    ∃ t, exec (row.1 c f) s = .next t ∧
      Ran s t c (putG (coreAt s c) f.rd (row.2 (gget (coreAt s c) f.ra) (gget (coreAt s c) f.rb)))
  )
  ∧
  (
  (∀ row ∈ ([(.addi, fun a i => a + i), (.andi, fun a i => a &&& i), (.ori, fun a i => a ||| i),
      (.xori, fun a i => a ^^^ i), (.slti, fun a i => if a.toInt < i.toInt then 1 else 0),
      (.sltiu, fun a i => if a.toNat < i.toNat then 1 else 0),
      (.addiw, fun a i => ((a + i).setWidth 32).signExtend 64)] :
      List ((CoreRef → Fields → Instr) × (Word → Word → Word))),
    ∀ c f s, Retires s c → MarkAgrees s c →
      ∃ t, exec (row.1 c f) s = .next t ∧
        Ran s t c (putG (coreAt s c) f.rd (row.2 (gget (coreAt s c) f.ra) ((f.rb ++ f.mod).signExtend 64)))) ∧
  (∀ c w s, Retires s c → MarkAgrees s c →
    (∃ t, exec (.lis c w) s = .next t ∧ Ran s t c (putG (coreAt s c) w.rd (w.imm21.signExtend 64))) ∧
    (∃ t, exec (.pcrel c w) s = .next t ∧
      Ran s t c (putG (coreAt s c) w.rd ((coreAt s c).pc + w.imm21.signExtend 64 * 4))) ∧
    (w.imm21.extractLsb' 16 3 = 0 → ∃ t v, exec (.lik c w) s = .next t ∧ Ran s t c (putG (coreAt s c) w.rd v) ∧
      ∀ i < 64, v.getLsbD i = if i / 16 = (w.imm21.extractLsb' 19 2).toNat then w.imm21.getLsbD (i % 16)
        else (gget (coreAt s c) w.rd).getLsbD i))
  )

/-- Shift and rotate instructions (Table 5.8 class 2, R180): a register amount counts modulo the width, an immediate
amount stands in MOD[5:0]. Bit-field, count and byte-reverse instructions (Table 5.8 class 2, R180), bit by bit. -/
def Obligations.ShiftBitResult : Prop :=
  (
  (∀ row ∈ ([(.sll, fun a n => a <<< (n % 64)), (.srl, fun a n => a >>> (n % 64)),
      (.sra, fun a n => a.sshiftRight (n % 64)), (.rol, fun a n => a.rotateLeft (n % 64)),
      (.ror, fun a n => a.rotateRight (n % 64)), (.sllw, fun a n => ((a.setWidth 32) <<< (n % 32)).signExtend 64),
      (.srlw, fun a n => ((a.setWidth 32) >>> (n % 32)).signExtend 64),
      (.sraw, fun a n => ((a.setWidth 32).sshiftRight (n % 32)).signExtend 64)] :
      List ((CoreRef → Fields → Instr) × (Word → Nat → Word))),
    ∀ c f s, Retires s c → MarkAgrees s c → f.mod = 0 →
      ∃ t, exec (row.1 c f) s = .next t ∧
        Ran s t c (putG (coreAt s c) f.rd (row.2 (gget (coreAt s c) f.ra) (gget (coreAt s c) f.rb).toNat))) ∧
  (∀ row ∈ ([(.slli, fun a n => a <<< n), (.srli, fun a n => a >>> n), (.srai, fun a n => a.sshiftRight n),
      (.rori, fun a n => a.rotateRight n)] : List ((CoreRef → Fields → Instr) × (Word → Nat → Word))),
    ∀ c f s, Retires s c → MarkAgrees s c → f.rb = 0 → f.mod.toNat < 64 →
      ∃ t, exec (row.1 c f) s = .next t ∧
        Ran s t c (putG (coreAt s c) f.rd (row.2 (gget (coreAt s c) f.ra) f.mod.toNat)))
  )
  ∧
  (
  ∀ c f s, Retires s c → MarkAgrees s c →
    let k := coreAt s c
    let a := gget k f.ra
    let pos := (f.rb ++ f.mod).toNat / 64
    let len := (f.rb ++ f.mod).toNat % 64 + 1
    (pos + len ≤ 64 →
      (∃ t v, exec (.extu c f) s = .next t ∧ Ran s t c (putG k f.rd v) ∧
        ∀ i < 64, v.getLsbD i = (decide (i < len) && a.getLsbD (pos + i))) ∧
      (∃ t v, exec (.exts c f) s = .next t ∧ Ran s t c (putG k f.rd v) ∧
        ∀ i < 64, v.getLsbD i = a.getLsbD (pos + min i (len - 1))) ∧
      (∃ t v, exec (.ins c f) s = .next t ∧ Ran s t c (putG k f.rd v) ∧
        ∀ i < 64, v.getLsbD i = if pos ≤ i ∧ i < pos + len then a.getLsbD (i - pos) else (gget k f.rd).getLsbD i)) ∧
    (f.rb = 0 → f.mod = 0 →
      (∃ t n, exec (.clz c f) s = .next t ∧ Ran s t c (putG k f.rd (BitVec.ofNat 64 n)) ∧ n ≤ 64 ∧
        a.toNat < 2 ^ (64 - n) ∧ (n < 64 → a.getLsbD (63 - n) = true)) ∧
      (∃ t n, exec (.ctz c f) s = .next t ∧ Ran s t c (putG k f.rd (BitVec.ofNat 64 n)) ∧ n ≤ 64 ∧
        (∀ i < n, a.getLsbD i = false) ∧ (n < 64 → a.getLsbD n = true)) ∧
      (∃ t, exec (.popc c f) s = .next t ∧
        Ran s t c (putG k f.rd (BitVec.ofNat 64 ((List.range 64).filter (fun i => a.getLsbD i)).length))) ∧
      (∃ t v, exec (.rev8 c f) s = .next t ∧ Ran s t c (putG k f.rd v) ∧
        ∀ i < 8, v.extractLsb' (8 * i) 8 = a.extractLsb' (8 * (7 - i)) 8))
  )

/-- Multiply and divide instructions (Table 5.9, R181): the low or high half of the exact product; the quotient rounded
toward 0 and its remainder; division by 0 and the signed overflow have the defined results and set DZ and OV; a MOD
other than 0 is illegal. -/
def Obligations.MultiplyDivideResult : Prop :=
  (∀ row ∈ ([(.mul, fun a b => a * b), (.mulh, fun a b => BitVec.ofInt 64 (a.toInt * b.toInt / 2 ^ 64)),
      (.mulhu, fun a b => BitVec.ofNat 64 (a.toNat * b.toNat / 2 ^ 64)),
      (.mulhsu, fun a b => BitVec.ofInt 64 (a.toInt * b.toNat / 2 ^ 64)),
      (.mulw, fun a b => ((a * b).setWidth 32).signExtend 64)] :
      List ((CoreRef → Fields → Instr) × (Word → Word → Word))),
    ∀ c f s, Retires s c → MarkAgrees s c → f.mod = 0 →
      ∃ t, exec (row.1 c f) s = .next t ∧
        Ran s t c (putG (coreAt s c) f.rd (row.2 (gget (coreAt s c) f.ra) (gget (coreAt s c) f.rb)))) ∧
  (∀ row ∈ ([
      (.div, fun a b => if b = 0 then (0, 1) else if a = BitVec.intMin 64 ∧ b = -1 then (a, 2)
        else (BitVec.ofInt 64 (a.toInt.tdiv b.toInt), 0)),
      (.divu, fun a b => if b = 0 then (0, 1) else (BitVec.ofNat 64 (a.toNat / b.toNat), 0)),
      (.rem, fun a b => if b = 0 then (a, 1) else if a = BitVec.intMin 64 ∧ b = -1 then (0, 2)
        else (BitVec.ofInt 64 (a.toInt.tmod b.toInt), 0)),
      (.remu, fun a b => if b = 0 then (a, 1) else (BitVec.ofNat 64 (a.toNat % b.toNat), 0)),
      (.divw, fun a b =>
        let x := a.setWidth 32
        let y := b.setWidth 32
        if y = 0 then (0, 1) else if x = BitVec.intMin 32 ∧ y = -1 then (x.signExtend 64, 2)
        else (BitVec.ofInt 64 (x.toInt.tdiv y.toInt), 0)),
      (.divuw, fun a b =>
        let x := a.setWidth 32
        let y := b.setWidth 32
        if y = 0 then (0, 1) else ((BitVec.ofNat 32 (x.toNat / y.toNat)).signExtend 64, 0)),
      (.remw, fun a b =>
        let x := a.setWidth 32
        let y := b.setWidth 32
        if y = 0 then (x.signExtend 64, 1) else if x = BitVec.intMin 32 ∧ y = -1 then (0, 2)
        else (BitVec.ofInt 64 (x.toInt.tmod y.toInt), 0)),
      (.remuw, fun a b =>
        let x := a.setWidth 32
        let y := b.setWidth 32
        if y = 0 then (x.signExtend 64, 1) else ((BitVec.ofNat 32 (x.toNat % y.toNat)).signExtend 64, 0))] :
      List ((CoreRef → Fields → Instr) × (Word → Word → Word × BitVec 3))),
    ∀ c f s, Retires s c → MarkAgrees s c → f.mod = 0 →
      let k := coreAt s c
      let r := row.2 (gget k f.ra) (gget k f.rb)
      ∃ t, exec (row.1 c f) s = .next t ∧ Ran s t c { putG k f.rd r.1 with cr := orIflags k.cr r.2 }) ∧
  (∀ row ∈ ([(.mul, 0x00), (.mulh, 0x01), (.mulhu, 0x02), (.mulhsu, 0x03), (.div, 0x04), (.divu, 0x05), (.rem, 0x06),
      (.remu, 0x07), (.mulw, 0x08), (.divw, 0x0C), (.divuw, 0x0D), (.remw, 0x0E), (.remuw, 0x0F)] :
      List ((CoreRef → Fields → Instr) × BitVec 6)),
    ∀ c f s, Retires s c → excSet (coreAt s c) = false → f.mod ≠ 0 → ∃ t, exec (row.1 c f) s = .next t ∧
      Excepted s t c ⟨1, false, false,
        ((((((3 : BitVec 4) ++ row.2 : BitVec 10) ++ f.rd : BitVec 15) ++ f.ra : BitVec 20) ++ f.rb : BitVec 25) ++ f.mod).setWidth 64⟩)

/-- Saturating instructions (Table 5.12 class 12, R190): the exact value clamped to its bounds, with SAT where it was
clamped; RATE moves g[rd] toward g[ra] by at most g[rb]; reserved bits other than 0 are illegal. -/
def Obligations.SaturatingResult : Prop :=
  (∀ row ∈ ([
      (.adds, fun f => f.mod.toNat < 2, fun m _ a b => if m = 0 then (a.toInt + b.toInt, -2 ^ 63, 2 ^ 63 - 1)
        else ((a.setWidth 32).toInt + (b.setWidth 32).toInt, -2 ^ 31, 2 ^ 31 - 1)),
      (.subs, fun f => f.mod.toNat < 2, fun m _ a b => if m = 0 then (a.toInt - b.toInt, -2 ^ 63, 2 ^ 63 - 1)
        else ((a.setWidth 32).toInt - (b.setWidth 32).toInt, -2 ^ 31, 2 ^ 31 - 1)),
      (.addus, fun f => f.mod = 0, fun _ _ a b => ((a.toNat + b.toNat : Nat), 0, 2 ^ 64 - 1)),
      (.subus, fun f => f.mod = 0, fun _ _ a b => ((a.toNat : Int) - b.toNat, 0, 2 ^ 64 - 1)),
      (.negs, fun f => f.mod = 0, fun _ _ a _ => (-a.toInt, -2 ^ 63, 2 ^ 63 - 1)),
      (.abss, fun f => f.mod = 0, fun _ _ a _ => (a.toInt.natAbs, -2 ^ 63, 2 ^ 63 - 1)),
      (.sats, fun f => f.rb = 0 ∧ f.mod.toNat < 64, fun m _ a _ => (a.toInt, -2 ^ m, 2 ^ m - 1)),
      (.satu, fun f => f.rb = 0 ∧ f.mod.toNat < 64, fun m _ a _ => (a.toInt, 0, 2 ^ (m + 1) - 1)),
      (.mulq, fun f => f.mod.toNat < 64, fun m _ a b => (if m = 0 then a.toInt * b.toInt
        else (a.toInt * b.toInt + 2 ^ (m - 1)) / 2 ^ m, -2 ^ 63, 2 ^ 63 - 1)),
      (.macq, fun f => f.mod.toNat < 64, fun m d a b => (d.toInt + (if m = 0 then a.toInt * b.toInt
        else (a.toInt * b.toInt + 2 ^ (m - 1)) / 2 ^ m), -2 ^ 63, 2 ^ 63 - 1)),
      (.clamp, fun f => f.mod = 0, fun _ d a b => (d.toInt, a.toInt, b.toInt))] :
      List ((CoreRef → Fields → Instr) × (Fields → Prop) × (Nat → Word → Word → Word → Int × Int × Int))),
    ∀ c f s, Retires s c → MarkAgrees s c → row.2.1 f →
      let k := coreAt s c
      let v := row.2.2 f.mod.toNat (gget k f.rd) (gget k f.ra) (gget k f.rb)
      let r := min (max v.1 v.2.1) v.2.2
      ∃ t, exec (row.1 c f) s = .next t ∧
        Ran s t c { putG k f.rd (BitVec.ofInt 64 r) with cr := orIflags k.cr (if r = v.1 then 0 else 4) }) ∧
  (∀ c f s, Retires s c → MarkAgrees s c → f.mod = 0 →
    let k := coreAt s c
    let d := (gget k f.rd).toInt
    let v := (gget k f.ra).toInt - d
    let m : Int := min (gget k f.rb).toNat (2 ^ 63 - 1)
    let r := min (max v (-m)) m
    ∃ t, exec (.rate c f) s = .next t ∧
      Ran s t c { putG k f.rd (BitVec.ofInt 64 (d + r)) with cr := orIflags k.cr (if r = v then 0 else 4) }) ∧
  (∀ group ∈ ([
      (fun f => f.mod.toNat < 2, [(.adds, 0x00), (.subs, 0x01)]),
      (fun f => f.mod = 0, [(.addus, 0x02), (.subus, 0x03), (.negs, 0x04), (.abss, 0x05), (.clamp, 0x18), (.rate, 0x19)]),
      (fun f => f.rb = 0 ∧ f.mod.toNat < 64, [(.sats, 0x08), (.satu, 0x09)]),
      (fun f => f.mod.toNat < 64, [(.mulq, 0x10), (.macq, 0x11)])] :
      List ((Fields → Prop) × List ((CoreRef → Fields → Instr) × BitVec 6))),
    ∀ row ∈ group.2, ∀ c f s, Retires s c → excSet (coreAt s c) = false → ¬ group.1 f → ∃ t, exec (row.1 c f) s = .next t ∧
      Excepted s t c ⟨1, false, false,
        ((((((12 : BitVec 4) ++ row.2 : BitVec 10) ++ f.rd : BitVec 15) ++ f.ra : BitVec 20) ++ f.rb : BitVec 25) ++ f.mod).setWidth 64⟩)

/-- Loads (R182, Table 5.10 class 4, Table 4.2): the value at ea = g[ra] + imm12 goes to g[rd] or f[rd], extended as the
instruction says. A memory gives the bytes it holds (R199); a register block gives its register and latches what a
read latches; the outbound window gives the answer of the rack access once it has come; and T of a PAIRED lane takes
every value but those of its own TCM from the Drift queue. -/
def Obligations.LoadResult : Prop :=
  ∀ row ∈ ([(.lb, 1, false, fun v => (v.setWidth 8).signExtend 64), (.lbu, 1, false, fun v => v),
      (.lh, 2, false, fun v => (v.setWidth 16).signExtend 64), (.lhu, 2, false, fun v => v),
      (.lw, 4, false, fun v => (v.setWidth 32).signExtend 64), (.lwu, 4, false, fun v => v), (.ld, 8, false, fun v => v),
      (.flw, 4, true, fun v => fWiden (v.setWidth 32)), (.fld, 8, true, fun v => v)] :
      List ((CoreRef → Fields → Instr) × Nat × Bool × (Word → Word))),
  ∀ c f s, Retires s c →
    let size := row.2.1
    let a := gget (coreAt s c) f.ra + (f.rb ++ f.mod).signExtend 64
    let r := regionOf a.toNat
    let put := fun (k : Core) (v : Word) =>
      if row.2.2.1 then putF k f.rd (row.2.2.2 v) else putG k f.rd (row.2.2.2 v)
    let own := match r with | .itcm _ => true | .dtcm _ => true | _ => false
    accessExc s c (coreAt s c) false a size = none →
    (deviceRegion r = false → (follows s c = false ∨ own = true) → MarkAgrees s c →
      ∃ t, exec (row.1 c f) s = .next t ∧
        Ran (noteStale s c r) t c (put (coreAt s c) (BitVec.ofNat 64 (memLoad s c (coreAt s c) r size)))) ∧
    (follows s c = true → own = false → ∀ v ln, driftTake (laneOf s c.lane) (entryKind r) = .ok v ln →
      MarkAgrees (putLane s c.lane ln) c →
      ∃ t, exec (row.1 c f) s = .next t ∧ Ran (putLane s c.lane ln) t c (put (coreAt s c) v)) ∧
    (follows s c = false → (checkedLane s c.lane = true → (laneOf s c.lane).gate = []) →
      (∀ b o, r = .block b o →
        let got := blockLoad s c.lane b o size
        ∃ t, exec (row.1 c f) s = .next t ∧ Ran got.2 t c (put (coreAt got.2 c) (BitVec.ofNat 64 got.1))) ∧
      (∀ ra v, r = .rack ra → rackTaken s (requester c) = some v →
        ∃ t, exec (row.1 c f) s = .next t ∧
          Ran { s with rack := { s.rack with reads := s.rack.reads.filter (·.1 != requester c) } } t c
            (put (coreAt s c) (BitVec.ofNat 64 (v.toNat / 2 ^ (8 * (ra % 4)) % 2 ^ (8 * size))))))

/-- Stores (R182, R187, R136, Table 5.10 class 5): the low bytes of the source go to ea, in the core's own data TCM, in
the memory of the module, to the check context or the device, or into the store gate of a PAIRED lane; T stores to
nothing outside its TCM. FSW narrows under RM and sets the flags of the narrowing. No other register changes. -/
def Obligations.StoreResult : Prop :=
  ∀ row ∈ ([(.sb, 1, fun k f => (gget k f.rd, 0)), (.sh, 2, fun k f => (gget k f.rd, 0)),
      (.sw, 4, fun k f => (gget k f.rd, 0)), (.sd, 8, fun k f => (gget k f.rd, 0)),
      (.fsw, 4, fun k f => ((fNarrow k.cr.rm.toNat (fget k f.rd)).1.setWidth 64, (fNarrow k.cr.rm.toNat (fget k f.rd)).2)),
      (.fsd, 8, fun k f => (fget k f.rd, 0))] :
      List ((CoreRef → Fields → Instr) × Nat × (Core → Fields → Word × BitVec 5))),
  ∀ c f s, Retires s c →
    let size := row.2.1
    let k := coreAt s c
    let v := (row.2.2 k f).1
    let a := gget k f.ra + (f.rb ++ f.mod).signExtend 64
    let r := regionOf a.toNat
    let k' := { k with pc := k.pc + 4, cr := orFflags k.cr (row.2.2 k f).2 }
    let ln := laneOf s c.lane
    accessExc s c k true a size = none →
    (∀ o, r = .dtcm o → MarkAgrees s c →
      ∃ t, exec (row.1 c f) s = .next t ∧ Ran s t c { k' with dtcm := memPutLe k.dtcm o size v.toNat }) ∧
    ((∀ o, r ≠ .dtcm o) → follows s c = true → MarkAgrees s c → ∃ t, exec (row.1 c f) s = .next t ∧ Ran s t c k') ∧
    (follows s c = false →
      ((∀ o, r ≠ .dtcm o) → deviceRegion r = false →
        ∃ t, exec (row.1 c f) s = .next t ∧ Ran (memStore s r size v) t c k') ∧
      (∀ o, r = .block 5 o → ∃ t, exec (row.1 c f) s = .next t ∧ Ran (checkStore s o size v) t c k') ∧
      (deviceRegion r = true → (∀ o, r ≠ .block 5 o) →
        (checkedLane s c.lane = true → ln.gate.length < 64 →
          ∃ t, exec (row.1 c f) s = .next t ∧
            Ran (putLane s c.lane { ln with gate := ln.gate ++ [⟨a.toNat, size, v, k.wseq⟩] }) t c k') ∧
        (checkedLane s c.lane = false → ∀ s', performStore s c a.toNat size v = some s' →
          ∃ t, exec (row.1 c f) s = .next t ∧ Ran s' t c k')))

/-- Atomics and the fence (R188, R203, Table 5.12 class 10): the old value goes to g[rd], sign-extended for a 32-bit
access, and the new value to memory, where ATCAS stores only on equality; T takes the old value from the Drift queue. -/
def Obligations.AtomicResult : Prop :=
  (∀ row ∈ ([(.atswap, fun _ _ _ b => some b), (.atadd, fun _ _ old b => some (old + b)),
      (.atand, fun _ _ old b => some (old &&& b)), (.atorr, fun _ _ old b => some (old ||| b)),
      (.atxor, fun _ _ old b => some (old ^^^ b)),
      (.atmin, fun _ _ old b => some (if old.toInt ≤ b.toInt then old else b)),
      (.atmax, fun _ _ old b => some (if old.toInt ≤ b.toInt then b else old)),
      (.atminu, fun _ _ old b => some (if old.toNat ≤ b.toNat then old else b)),
      (.atmaxu, fun _ _ old b => some (if old.toNat ≤ b.toNat then b else old)),
      (.atcas, fun _ d old b => if old = d then some b else none)] :
      List ((CoreRef → Fields → Instr) × ((n : Nat) → BitVec n → BitVec n → BitVec n → Option (BitVec n)))),
    ∀ c f s, Retires s c → f.mod.toNat < 2 →
      let k := coreAt s c
      let a := gget k f.ra
      let size := if f.mod = 0 then 8 else 4
      let new := fun (old : Word) => if f.mod = 0 then row.2 64 (gget k f.rd) old (gget k f.rb)
        else (row.2 32 ((gget k f.rd).setWidth 32) (old.setWidth 32) ((gget k f.rb).setWidth 32)).map (·.setWidth 64)
      let ext := fun (old : Word) => if f.mod = 0 then old else (old.setWidth 32).signExtend 64
      atomicExc s c k a size = none →
      (follows s c = false →
        let old : Word := BitVec.ofNat 64 (memLe s.mem.dram a.toNat size)
        let s' := match new old with
          | some v => { s with mem := { s.mem with dram := memPutLe s.mem.dram a.toNat size v.toNat } }
          | none => s
        ∃ t, exec (row.1 c f) s = .next t ∧ Ran s' t c (putG k f.rd (ext old))) ∧
      (follows s c = true → ∀ old ln, driftTake (laneOf s c.lane) .atomic = .ok old ln →
        MarkAgrees (putLane s c.lane ln) c →
        ∃ t, exec (row.1 c f) s = .next t ∧ Ran (putLane s c.lane ln) t c (putG k f.rd (ext old)))) ∧
  (∀ c f s, Retires s c → MarkAgrees s c → f.mod.toNat < 4 → f.rd = 0 → f.ra = 0 → f.rb = 0 →
    ∃ t, exec (.fence c f) s = .next t ∧ Ran s t c { coreAt s c with pc := (coreAt s c).pc + 4 })

/-- Branches and jumps (R182, Table 5.10 classes 6 and 7): the PC takes the target where the condition holds and moves on
otherwise; JAL and JALR put the address of the next instruction into g[rd]. -/
def Obligations.ControlFlowResult : Prop :=
  (∀ row ∈ ([(.beq, fun a b => a = b), (.bne, fun a b => a ≠ b), (.blt, fun a b => a.toInt < b.toInt),
      (.bge, fun a b => b.toInt ≤ a.toInt), (.bltu, fun a b => a.toNat < b.toNat),
      (.bgeu, fun a b => b.toNat ≤ a.toNat)] : List ((CoreRef → Fields → Instr) × (Word → Word → Prop))),
    ∀ c f s, Retires s c → MarkAgrees s c →
      let k := coreAt s c
      (row.2 (gget k f.ra) (gget k f.rb) →
        ∃ t, exec (row.1 c f) s = .next t ∧ Ran s t c { k with pc := k.pc + (f.rd ++ f.mod).signExtend 64 * 4 }) ∧
      (¬ row.2 (gget k f.ra) (gget k f.rb) →
        ∃ t, exec (row.1 c f) s = .next t ∧ Ran s t c { k with pc := k.pc + 4 })) ∧
  (∀ c f s, Retires s c → MarkAgrees s c →
    let k := coreAt s c
    let link := gset k f.rd (k.pc + 4)
    (∃ t, exec (.jal c f) s = .next t ∧
      Ran s t c { link with pc := k.pc + ((f.ra ++ f.rb) ++ f.mod).signExtend 64 * 4 }) ∧
    (let target := gget k f.ra + (f.rb ++ f.mod).signExtend 64
     target.toNat % 4 = 0 → ∃ t, exec (.jalr c f) s = .next t ∧ Ran s t c { link with pc := target }))

/-- Floating-point arithmetic (R183, R185, R186, R187, Table 5.11 class 8): f[rd] takes the exact result rounded once
under RM to the format that MOD[0] selects, with the zeros, infinities and NaNs that the rules give, and its
exceptions are ORed into FFLAGS; the sign operations act on bits and set no flag. -/
def Obligations.FloatArithmeticResult : Prop :=
  ∀ row ∈ ([
      (.fadd, fun f => f.mod.toNat < 2, fun s rm a b _ => AddResult false s rm a b),
      (.fsub, fun f => f.mod.toNat < 2, fun s rm a b _ => AddResult true s rm a b),
      (.fmul, fun f => f.mod.toNat < 2, fun s rm a b _ => MulResult s rm a b),
      (.fdiv, fun f => f.mod.toNat < 2, fun s rm a b _ => DivResult s rm a b),
      (.fsqrt, fun f => f.mod.toNat < 2 ∧ f.rb = 0, fun s rm a _ _ => SqrtResult s rm a),
      (.fmin, fun f => f.mod.toNat < 2, fun s rm a b _ => ExtremeResult false s rm a b),
      (.fmax, fun f => f.mod.toNat < 2, fun s rm a b _ => ExtremeResult true s rm a b),
      (.fcpys, fun f => f.mod = 0, fun _ _ a b _ r => r = (b.extractLsb' 63 1 ++ a.extractLsb' 0 63, 0)),
      (.fcpyn, fun f => f.mod = 0, fun _ _ a b _ r => r = (~~~(b.extractLsb' 63 1) ++ a.extractLsb' 0 63, 0)),
      (.fcpyx, fun f => f.mod = 0, fun _ _ a b _ r =>
        r = ((a.extractLsb' 63 1 ^^^ b.extractLsb' 63 1) ++ a.extractLsb' 0 63, 0)),
      (.fmadd, fun f => f.mod.getLsbD 1 = false, fun s rm a b c => FusedResult false false s rm a b c),
      (.fmsub, fun f => f.mod.getLsbD 1 = false, fun s rm a b c => FusedResult false true s rm a b c),
      (.fnmadd, fun f => f.mod.getLsbD 1 = false, fun s rm a b c => FusedResult true true s rm a b c),
      (.fnmsub, fun f => f.mod.getLsbD 1 = false, fun s rm a b c => FusedResult true false s rm a b c)] :
      List ((CoreRef → Fields → Instr) × (Fields → Prop) ×
        (Bool → Nat → Word → Word → Word → Word × BitVec 5 → Prop))),
  ∀ c f s, Retires s c → MarkAgrees s c → row.2.1 f →
    let k := coreAt s c
    ∃ t r, exec (row.1 c f) s = .next t ∧
      row.2.2 (f.mod.getLsbD 0) k.cr.rm.toNat (fget k f.ra) (fget k f.rb) (fget k (f.mod.extractLsb' 2 5)) r ∧
      Ran s t c { putF k f.rd r.1 with cr := orFflags k.cr r.2 }

/-- Floating-point comparison, classification and conversion (R184, R185, R187, Table 5.11 class 9), by relations on the
numbers the encodings stand for; results in g[rd] or f[rd], with the flags of the operation. A binary32 load widens
exactly, and a binary32 store rounds to binary32 under RM. -/
def Obligations.FloatCompareConvertResult : Prop :=
  (∀ row ∈ ([
      (.fcmpeq, fun _ a b => CompareResult FSame false a b), (.fcmplt, fun _ a b => CompareResult FLess true a b),
      (.fcmple, fun _ a b => CompareResult (fun x y => FLess x y ∨ FSame x y) true a b),
      (.fkind, fun _ a _ r => KindResult a r.1 ∧ r.2 = 0),
      (.ftol, fun rm a _ => ConvertResult rm a (-2 ^ 63) (2 ^ 63 - 1)),
      (.ftolu, fun rm a _ => ConvertResult rm a 0 (2 ^ 64 - 1)),
      (.ftow, fun rm a _ => ConvertResult rm a (-2 ^ 31) (2 ^ 31 - 1)),
      (.ftowu, fun rm a _ => ConvertResult rm a 0 (2 ^ 32 - 1)),
      (.fis32, fun _ a _ r => (fNaN a ∨ fInfinite a ∨ Fits32 (fNum a) → r = (1, 0)) ∧
        (fFinite a → ¬ Fits32 (fNum a) → r = (0, 0))),
      (.ftog, fun _ a _ r => r = (a, 0))] :
      List ((CoreRef → Fields → Instr) × (Nat → Word → Word → Word × BitVec 5 → Prop))),
    ∀ c f s, Retires s c → MarkAgrees s c → f.mod = 0 →
      let k := coreAt s c
      ∃ t r, exec (row.1 c f) s = .next t ∧ row.2 k.cr.rm.toNat (fget k f.ra) (fget k f.rb) r ∧
        Ran s t c { putG k f.rd r.1 with cr := orFflags k.cr r.2 }) ∧
  (∀ row ∈ ([
      (.ffroml, fun f => f.mod.toNat < 2, fun s rm g _ => Rounded s rm g.toInt false),
      (.ffromlu, fun f => f.mod.toNat < 2, fun s rm g _ => Rounded s rm g.toNat false),
      (.frnd32, fun f => f.mod = 0, fun _ rm _ a => Round32Result rm a),
      (.ffromg, fun f => f.mod = 0, fun _ _ g _ r => r = (g, 0))] :
      List ((CoreRef → Fields → Instr) × (Fields → Prop) × (Bool → Nat → Word → Word → Word × BitVec 5 → Prop))),
    ∀ c f s, Retires s c → MarkAgrees s c → row.2.1 f →
      let k := coreAt s c
      ∃ t r, exec (row.1 c f) s = .next t ∧
        row.2.2 (f.mod.getLsbD 0) k.cr.rm.toNat (gget k f.ra) (fget k f.ra) r ∧
        Ran s t c { putF k f.rd r.1 with cr := orFflags k.cr r.2 }) ∧
  (∀ x, WidensTo x (fWiden x)) ∧ ∀ rm x, NarrowsTo rm x (fNarrow rm x)

/-- Check-assist instructions (R192, R352, R354, Table 5.13 class 13): the check context of MOD[3:0] is initialised, fed,
folded or written by L or a core on its own, T of a PAIRED lane leaving it alone; a read gives the running or the
final value, which T takes from the Drift queue. -/
def Obligations.CheckAssistResult : Prop :=
  (∀ row ∈ ([(.ckinit, fun f => f.rd = 0 ∧ f.ra = 0, fun _ x => ctxInit x),
      (.ckf8, fun f => f.rd = 0, fun v x => ctxFeed x (leBytes 1 v.toNat)),
      (.ckf16, fun f => f.rd = 0, fun v x => ctxFeed x (leBytes 2 v.toNat)),
      (.ckf32, fun f => f.rd = 0, fun v x => ctxFeed x (leBytes 4 v.toNat)),
      (.ckfold, fun f => f.rd = 0, fun v x => ctxFold x (v.setWidth 32)),
      (.ckwr, fun f => f.rd = 0, fun v x => ctxSet x v.toNat)] :
      List ((CoreRef → Fields → Instr) × (Fields → Prop) × (Word → CheckCtx → CheckCtx))),
    ∀ c f s, Retires s c → MarkAgrees s c → f.mod.toNat < 16 → row.2.1 f → ctxUsable s c f.mod.toNat = true →
      let k := coreAt s c
      let ctx := f.mod.toNat
      let s' := if follows s c then s else putCtx s ctx (row.2.2 (gget k f.ra) (ctxOf s ctx))
      ∃ t, exec (row.1 c f) s = .next t ∧ Ran s' t c { k with pc := k.pc + 4 }) ∧
  (∀ row ∈ ([(.ckrd, fun x => x.running), (.ckfin, fun x => BitVec.ofNat 64 (ctxFinal x))] :
      List ((CoreRef → Fields → Instr) × (CheckCtx → Word))),
    ∀ c f s, Retires s c → f.mod.toNat < 16 → f.ra = 0 → ctxUsable s c f.mod.toNat = true →
      (follows s c = false →
        ∃ t, exec (row.1 c f) s = .next t ∧ Ran s t c (putG (coreAt s c) f.rd (row.2 (ctxOf s f.mod.toNat)))) ∧
      (follows s c = true → ∀ v ln, driftTake (laneOf s c.lane) .check = .ok v ln → MarkAgrees (putLane s c.lane ln) c →
        ∃ t, exec (row.1 c f) s = .next t ∧ Ran (putLane s c.lane ln) t c (putG (coreAt s c) f.rd v)))

/-- Control-register instructions (R170, R171, R175, R189, Table 5.12 class 11): CRR reads, and CRW, CRS and CRC write the
whole register, set bits or clear bits and give the old value; a write of TASK_SEL selects the task whose valid
descriptor it reads. T of a PAIRED lane takes a value that may differ between the cores from the Drift queue (R134). -/
def Obligations.ControlRegisterResult : Prop :=
  (∀ c f s, Retires s c → f.mod.toNat < 64 → f.ra = 0 → f.rb = 0 → crIllegal (coreAt s c) f.mod.toNat false = false →
    (isSup (coreAt s c) = true ∨ (f.mod.toNat ≠ 18 ∧ f.mod.toNat ≠ 19)) →
    ((follows s c = false ∨ crPassed f.mod.toNat = false) → MarkAgrees s c →
      ∃ t, exec (.crr c f) s = .next t ∧ Ran s t c (putG (coreAt s c) f.rd (crRead s c (coreAt s c) f.mod.toNat))) ∧
    (follows s c = true → crPassed f.mod.toNat = true → ∀ v ln, driftTake (laneOf s c.lane) .device = .ok v ln →
      MarkAgrees (putLane s c.lane ln) c →
      ∃ t, exec (.crr c f) s = .next t ∧ Ran (putLane s c.lane ln) t c (putG (coreAt s c) f.rd v))) ∧
  (∀ row ∈ ([(.crw, fun _ g => g), (.crs, fun old g => old ||| g), (.crc, fun old g => old &&& ~~~g)] :
      List ((CoreRef → Fields → Instr) × (Word → Word → Word))),
    ∀ c f s, Retires s c → f.mod.toNat < 64 → f.rb = 0 → crIllegal (coreAt s c) f.mod.toNat true = false →
      let k := coreAt s c
      let i := f.mod.toNat
      let old := crRead s c k i
      let new := row.2 old (gget k f.ra)
      (i ≠ 17 → ∀ cr, crWrite k i new = some cr →
        ((follows s c = false ∨ crPassed i = false) → MarkAgrees s c →
          ∃ t, exec (row.1 c f) s = .next t ∧ Ran s t c { putG k f.rd old with cr := cr }) ∧
        (follows s c = true → crPassed i = true → ∀ v ln, driftTake (laneOf s c.lane) .device = .ok v ln →
          MarkAgrees (putLane s c.lane ln) c →
          ∃ t, exec (row.1 c f) s = .next t ∧ Ran (putLane s c.lane ln) t c { putG k f.rd v with cr := cr })) ∧
      (i = 17 → new.toNat < 256 → ∀ o, regionOf (descAddr k new.toNat).toNat = .dtcm o →
        accessExc s c k false (descAddr k new.toNat) 8 = none → MarkAgrees s c →
        let d : Word := BitVec.ofNat 64 (memLe k.dtcm o 8)
        descOk new.toNat d = true →
        ∃ t, exec (row.1 c f) s = .next t ∧ Ran s t c (putG (selectTask k new.toNat d) f.rd old)))

/-- RETURN (R173, R174, R176): the PC takes EPC, PRIV takes PREV_PRIV and EXC clears; into user mode RM takes the mode
latched by the last TASK_SEL and TASK_TAB becomes read-only. User mode is entered only while the lane computes:
elsewhere a RETURN into it acts as YIELD with COMMIT 0, the model's choice of log entry 96. -/
def Obligations.ReturnResult : Prop :=
  ∀ c f s, Retires s c → MarkAgrees s c → isSup (coreAt s c) = true →
    let k := coreAt s c
    let st := k.cr.status
    let sup := st.getLsbD 1
    (sup = true ∨ returnLate s c = false → ∃ t, exec (.ret c f) s = .next t ∧
      Ran s t c { k with
        pc := k.cr.epc
        cr := { k.cr with status := (st &&& 0b11010) ||| (if sup then 1 else 0)
                          rm := if sup then k.cr.rm else k.latchedRm }
        taskTabLocked := k.taskTabLocked || !sup }) ∧
    (sup = false → returnLate s c = true → (checkedLane s c.lane = true → windowRoom k = true) →
      ∃ t, exec (.ret c f) s = .next t ∧
        archOf (coreAt t c) = archOf { k with
          pc := k.pc + 4, suspended := true, yieldCommit := false, retired := k.retired + 1
          cr := { k.cr with status := st &&& 0b10111 } } ∧
        coreAt t (otherCore c) = coreAt s (otherCore c) ∧
        (checkedLane s c.lane = true → c.core = .leading → (laneOf t c.lane).drain = some .yield) ∧
        (∀ l, l ≠ c.lane → laneOf t l = laneOf s l) ∧
        t = { s with lanes := { s.lanes with lane := t.lanes.lane }, rack := t.rack, epoch := t.epoch })

/-- YIELD (R189, R191, R196, R132): the PC moves on, the core is suspended with the COMMIT flag of the yield, a pending
BUDGET_EXHAUSTED is discarded, and L of a PAIRED lane stops at a drain point. Only a rack lock of the lane and its log
are touched outside the lanes (R331). -/
def Obligations.YieldResult : Prop :=
  ∀ c f s, Retires s c → MarkAgrees s c → isSup (coreAt s c) = true → f.mod.toNat < 2 → f.rd = 0 → f.ra = 0 → f.rb = 0 →
    (checkedLane s c.lane = true → windowRoom (coreAt s c) = true) →
    let k := coreAt s c
    ∃ t, exec (.yield c f) s = .next t ∧
      archOf (coreAt t c) = archOf { k with
        pc := k.pc + 4, suspended := true, yieldCommit := f.mod.getLsbD 0, retired := k.retired + 1
        cr := { k.cr with status := k.cr.status &&& 0b10111 } } ∧
      coreAt t (otherCore c) = coreAt s (otherCore c) ∧
      (checkedLane s c.lane = true → c.core = .leading → (laneOf t c.lane).drain = some .yield) ∧
      (∀ l, l ≠ c.lane → laneOf t l = laneOf s l) ∧
      t = { s with lanes := { s.lanes with lane := t.lanes.lane }, rack := t.rack, epoch := t.epoch }

/-- Synchronous exceptions (R193, R194, R195, Tables 5.14 and 5.15), with STATUS.EXC clear: TRAP with its immediate; a
JALR target that is no multiple of 4; a refused access of a load or a store, before which a check misuse or an ignored
register write is noted; a user-mode read of BUDGET_LEFT or RETIRED; and a fetch that the rules refuse. -/
def Obligations.SynchronousExceptionEntry : Prop :=
  ∀ c f s, excSet (coreAt s c) = false →
    (Retires s c →
      (∃ t, exec (.trap c f) s = .next t ∧ Excepted s t c ⟨6, false, false, (f.rb ++ f.mod).setWidth 64⟩) ∧
      (let target := gget (coreAt s c) f.ra + (f.rb ++ f.mod).signExtend 64
       target.toNat % 4 ≠ 0 → ∃ t, exec (.jalr c f) s = .next t ∧ Excepted s t c ⟨2, false, false, target⟩) ∧
      (∀ row ∈ ([(.lb, 1), (.lbu, 1), (.lh, 2), (.lhu, 2), (.lw, 4), (.lwu, 4), (.ld, 8), (.flw, 4), (.fld, 8)] :
          List ((CoreRef → Fields → Instr) × Nat)),
        let a := gget (coreAt s c) f.ra + (f.rb ++ f.mod).signExtend 64
        (a.toNat % row.2 ≠ 0 → ∃ t, exec (row.1 c f) s = .next t ∧ Excepted s t c ⟨2, false, false, a⟩) ∧
        (a.toNat % row.2 = 0 → protGrants (coreAt s c) a.toNat .load = false →
          ∃ t, exec (row.1 c f) s = .next t ∧ Excepted s t c ⟨3, false, false, a⟩)) ∧
      (∀ row ∈ ([(.sb, 1), (.sh, 2), (.sw, 4), (.sd, 8), (.fsw, 4), (.fsd, 8)] :
          List ((CoreRef → Fields → Instr) × Nat)),
        let a := gget (coreAt s c) f.ra + (f.rb ++ f.mod).signExtend 64
        a.toNat % row.2 ≠ 0 → ∃ t, exec (row.1 c f) s = .next t ∧ Excepted s t c ⟨2, false, true, a⟩) ∧
      (isSup (coreAt s c) = false → f.mod.toNat = 18 ∨ f.mod.toNat = 19 → f.ra = 0 → f.rb = 0 →
        ∃ t, exec (.crr c f) s = .next t ∧ Excepted s t c ⟨4, false, false, f.mod.setWidth 64⟩)) ∧
    (coreReady s c = true → stalled s c = false → asyncDue s c = none → fetchOk s c (coreAt s c) = false →
      ∃ t, exec (.add c f) s = .next t ∧ Excepted s t c ⟨3, true, false, (coreAt s c).pc⟩)

/-- Illegal instructions (R178, R179, R180, R181, R183, R188, R189, R190, R192): a word whose reserved fields are not 0,
or a supervisor instruction in user mode, raises ILLEGAL with the instruction word in EVAL. Each instruction is the
one its own word decodes to (R177, Tables 5.7 to 5.13), and a word of major 14, of an unlisted minor or of class 15
with OP 3, and only such a word, decodes to none and raises ILLEGAL with itself in EVAL. -/
def Obligations.IllegalInstruction : Prop :=
  (∀ i c w, laneCode i = some (c, w) → laneDecode c w = some i) ∧
  (∀ c w i, laneDecode c w = some i → laneCode i = some (c, w)) ∧
  (∀ c w s, Retires s c → excSet (coreAt s c) = false → laneDecode c w = none →
    ∃ t, execWord c w s = .next t ∧ Excepted s t c ⟨1, false, false, w.setWidth 64⟩) ∧
  (∀ c (w : U32),
    let major := (w.extractLsb' 28 4).toNat
    let minor := (w.extractLsb' 22 6).toNat
    laneDecode c w = none ↔ major = 14 ∨ major = 15 ∧ (w.extractLsb' 26 2).toNat = 3 ∨
      ∃ listed ∈ ([(0, List.range 0x11), (1, [0, 2, 3, 4, 8, 9, 14]),
        (2, List.range 8 ++ [0x10, 0x11, 0x12, 0x14, 0x18, 0x19, 0x1A, 0x20, 0x21, 0x22, 0x23]),
        (3, [0, 1, 2, 3, 4, 5, 6, 7, 8, 12, 13, 14, 15]), (4, [0, 1, 2, 3, 4, 5, 6, 8, 9]), (5, [0, 2, 4, 6, 8, 9]),
        (6, List.range 6), (7, [0, 1]), (8, List.range 7 ++ [8, 9, 10, 0x10, 0x11, 0x12, 0x13]),
        (9, [0, 1, 2, 3, 8, 9, 10, 11, 0x10, 0x11, 0x18, 0x19, 0x20, 0x21]), (10, List.range 10 ++ [0x20]),
        (11, [0, 1, 2, 8, 9, 10, 11]), (12, List.range 6 ++ [8, 9, 0x10, 0x11, 0x18, 0x19]),
        (13, List.range 5 ++ [8, 9, 10])] : List (Nat × List Nat)), major = listed.1 ∧ minor ∉ listed.2) ∧
  ∀ group ∈ ([
      (0, fun _ f => f.mod = 0, [(.add, 0x00), (.sub, 0x01), (.and, 0x02), (.or, 0x03), (.xor, 0x04), (.andn, 0x05),
        (.orn, 0x06), (.xnor, 0x07), (.slt, 0x08), (.sltu, 0x09), (.min, 0x0A), (.max, 0x0B), (.minu, 0x0C), (.maxu, 0x0D),
        (.addw, 0x0E), (.subw, 0x0F), (.seq, 0x10)]),
      (2, fun _ f => f.mod = 0, [(.sll, 0x00), (.srl, 0x01), (.sra, 0x02), (.rol, 0x03), (.ror, 0x04), (.sllw, 0x05),
        (.srlw, 0x06), (.sraw, 0x07)]),
      (2, fun _ f => f.rb = 0 ∧ f.mod.toNat < 64, [(.slli, 0x10), (.srli, 0x11), (.srai, 0x12), (.rori, 0x14)]),
      (2, fun _ f => (f.rb ++ f.mod).toNat / 64 + ((f.rb ++ f.mod).toNat % 64 + 1) ≤ 64,
        [(.extu, 0x18), (.exts, 0x19), (.ins, 0x1A)]),
      (2, fun _ f => f.rb = 0 ∧ f.mod = 0, [(.clz, 0x20), (.ctz, 0x21), (.popc, 0x22), (.rev8, 0x23)]),
      (3, fun _ f => f.mod = 0, [(.mul, 0x00), (.mulh, 0x01), (.mulhu, 0x02), (.mulhsu, 0x03), (.div, 0x04), (.divu, 0x05),
        (.rem, 0x06), (.remu, 0x07), (.mulw, 0x08), (.divw, 0x0C), (.divuw, 0x0D), (.remw, 0x0E), (.remuw, 0x0F)]),
      (8, fun _ f => f.mod.toNat < 2, [(.fadd, 0x00), (.fsub, 0x01), (.fmul, 0x02), (.fdiv, 0x03), (.fmin, 0x05),
        (.fmax, 0x06)]),
      (8, fun _ f => f.mod.toNat < 2 ∧ f.rb = 0, [(.fsqrt, 0x04)]),
      (8, fun _ f => f.mod = 0, [(.fcpys, 0x08), (.fcpyn, 0x09), (.fcpyx, 0x0A)]),
      (8, fun _ f => f.mod.getLsbD 1 = false, [(.fmadd, 0x10), (.fmsub, 0x11), (.fnmadd, 0x12), (.fnmsub, 0x13)]),
      (9, fun _ f => f.mod = 0, [(.fcmpeq, 0x00), (.fcmplt, 0x01), (.fcmple, 0x02), (.fkind, 0x03), (.ftol, 0x08),
        (.ftolu, 0x09), (.ftow, 0x0A), (.ftowu, 0x0B), (.frnd32, 0x18), (.fis32, 0x19), (.ftog, 0x20), (.ffromg, 0x21)]),
      (9, fun _ f => f.mod.toNat < 2, [(.ffroml, 0x10), (.ffromlu, 0x11)]),
      (10, fun _ f => f.mod.toNat < 2, [(.atswap, 0x00), (.atadd, 0x01), (.atand, 0x02), (.atorr, 0x03), (.atxor, 0x04),
        (.atmin, 0x05), (.atmax, 0x06), (.atminu, 0x07), (.atmaxu, 0x08), (.atcas, 0x09)]),
      (10, fun _ f => f.mod.toNat < 4 ∧ f.rd = 0 ∧ f.ra = 0 ∧ f.rb = 0, [(.fence, 0x20)]),
      (11, fun k f => isSup k = true ∧ f.mod.toNat < 2 ∧ f.rd = 0 ∧ f.ra = 0 ∧ f.rb = 0, [(.yield, 0x00)]),
      (11, fun k _ => isSup k = true, [(.ret, 0x02)]),
      (11, fun k f => f.mod.toNat < 64 ∧ f.ra = 0 ∧ f.rb = 0 ∧ crIllegal k f.mod.toNat false = false, [(.crr, 0x08)]),
      (11, fun k f => f.mod.toNat < 64 ∧ f.rb = 0 ∧ crIllegal k f.mod.toNat true = false,
        [(.crw, 0x09), (.crs, 0x0A), (.crc, 0x0B)]),
      (12, fun _ f => f.mod.toNat < 2, [(.adds, 0x00), (.subs, 0x01)]),
      (12, fun _ f => f.mod = 0, [(.addus, 0x02), (.subus, 0x03), (.negs, 0x04), (.abss, 0x05), (.clamp, 0x18),
        (.rate, 0x19)]),
      (12, fun _ f => f.rb = 0 ∧ f.mod.toNat < 64, [(.sats, 0x08), (.satu, 0x09)]),
      (12, fun _ f => f.mod.toNat < 64, [(.mulq, 0x10), (.macq, 0x11)]),
      (13, fun _ f => f.mod.toNat < 16 ∧ f.rd = 0 ∧ f.ra = 0, [(.ckinit, 0x00)]),
      (13, fun _ f => f.mod.toNat < 16 ∧ f.rd = 0, [(.ckf8, 0x01), (.ckf16, 0x02), (.ckf32, 0x03), (.ckfold, 0x04),
        (.ckwr, 0x09)]),
      (13, fun _ f => f.mod.toNat < 16 ∧ f.ra = 0, [(.ckrd, 0x08), (.ckfin, 0x0A)])] :
      List (BitVec 4 × (Core → Fields → Prop) × List ((CoreRef → Fields → Instr) × BitVec 6))),
  ∀ row ∈ group.2.2, ∀ c f s, Retires s c → excSet (coreAt s c) = false → ¬ group.2.1 (coreAt s c) f →
    ∃ t, exec (row.1 c f) s = .next t ∧
      Excepted s t c ⟨1, false, false,
        (((((group.1 ++ row.2 : BitVec 10) ++ f.rd : BitVec 15) ++ f.ra : BitVec 20) ++ f.rb : BitVec 25) ++ f.mod).setWidth 64⟩

/-- The general registers (R168): g0 reads as 0 and discards what is written, and any other register gives back the last
value written to it. -/
def Obligations.GeneralRegisterZero : Prop :=
  ∀ (k : Core) (i j : BitVec 5) (v : Word),
    gget k 0 = 0 ∧ gset k 0 v = k ∧ (i ≠ 0 → gget (gset k i v) i = v) ∧ (i ≠ j → gget (gset k i v) j = gget k j)

/-- Read commands without parameters (R249, R261, R262, R74, R127, R323, R348, R384, R415, R435, R450, R476, R493, R494,
R507): each such command is answered OK, with nothing else changed, with the bytes of its response table: the payload
has the table's length, and each (offset, width, value) says that the number at that byte, of that width, is that
value of the state (Tables 7.17, 7.18, 6.8, 7.25, 16.12 and the response tables of the chapters). -/
def Obligations.PlainReadAnswer : Prop :=
  ∀ row ∈ ([
      (.sysGetIdentity, 0x0101, 1, identityBytes, 48, fun s => [(16, 8, s.otp.serial.toNat), (24, 2, Config.hwIssue.toNat),
        (26, 1, s.slot.toNat), (27, 1, if Config.classT6 then 6 else 4), (28, 4, s.boot.fwRunning.toNat),
        (32, 4, s.otp.rom.toNat), (36, 4, s.otp.loader.toNat), (40, 4, s.boot.imageGen.toNat),
        (44, 2, s.boot.activeFormat.toNat), (46, 2, 0)]),
      (.sysGetStatus, 0x0102, 1, statusBytes, 32, fun s => [(0, 8, s.epoch.no.toNat),
        (8, 4, (tb3 s - s.boot.resetAt) / 1000000000), (12, 1, voteCode (if s.boot.recovery then .starting else s.weft.own)), (13, 1, s.power.stage.toNat),
        (14, 1, bitsNum (s.lanes.lane.toList.map (fun x => x.epochState == .waitSeal || x.epochState == .compute
          || x.epochState == .committed))), (15, 1, bitsNum (s.lanes.lane.toList.map (·.disabled))),
        (16, 1, bitsNum [moduleOk s, faultLow s, s.power.aValid, s.power.bValid, s.boot.bootLock, unlocked s,
          s.maps.configured, s.boot.recovery]),
        (17, 1, (s.boot.resetLog.head?.map (·.cause.toNat)).getD 0), (18, 2, s.boot.restarts.toNat),
        (20, 4, s.boot.fwRunning.toNat), (24, 8, 0)]),
      (.sysGetMemory, 0x0103, 2, memoryStatus, 64, fun s => [(0, 4, s.mem.dramCe.toNat), (4, 4, s.mem.dramUe.toNat),
        (8, 4, s.mem.cacheCe.toNat), (12, 4, s.mem.cacheUe.toNat), (16, 4, s.mem.icachePar.toNat), (20, 4, s.mem.tcmCe.toNat),
        (24, 4, s.mem.tcmUe.toNat), (28, 4, s.mem.pisCe.toNat), (32, 4, s.mem.pisUe.toNat), (36, 4, s.mem.scrubPasses.toNat),
        (40, 4, s.mem.scrubBurst / 1024), (44, 4, s.mem.lastUeAddr), (48, 4, s.mem.lastUeAddr / 2 ^ 32 % 256),
        (52, 1, s.mem.lastUeArea), (53, 1, s.mem.lastUeLane), (54, 2, 0), (56, 8, s.mem.lastUeEpoch.toNat)]),
      (.sysGetResetLog, 0x0109, 2, resetLogBytes, 64, fun s => [(0, 6, (s.boot.resetLog.head?.map (·.tb0Sec)).getD 0),
        (6, 1, (s.boot.resetLog.head?.map (·.cause.toNat)).getD 0), (7, 1, (s.boot.resetLog.head?.map (·.voteState)).getD 0)]),
      (.cfgGetStatus, 0x0200, 2, cfgStatus, 56, fun s => [(0, 1, (dirNow s).current.toNat), (1, 1, stageCode s.sec.stage),
        (2, 1, (s.sec.stageOwner.map (·.val)).getD 0xFF), (3, 1, s.sec.lastCheck.toNat),
        (16, 4, s.sec.stageBytes.length), (20, 4, s.sec.stageSize)]),
      (.epochGetConfig, 0x0300, 2, fun s => epochConfigBytes s.epoch, 24, fun s =>
        let p := periodOf s.epoch.period
        [(0, 4, p * 1000), (4, 4, p * 80), (8, 4, p * 40), (12, 1, periodOf s.epoch.k0), (13, 1, periodOf s.epoch.k1),
          (14, 1, periodOf s.epoch.k2), (15, 1, periodOf s.epoch.k3), (16, 2, s.epoch.warnLead.toNat), (18, 2, 0),
          (20, 4, min 4194304 (98304 * p))]),
      (.epochGetStatus, 0x0301, 2, epochStatusBytes, 60, fun s => [(0, 8, s.epoch.no.toNat), (8, 4, (epochRead s 0x18).toNat),
        (12, 1, (epochRead s 0x1C).toNat), (13, 1, (epochRead s 0x20).toNat), (14, 2, 0), (16, 4, (epochRead s 0x24).toNat),
        (20, 4, (epochRead s 0x40).toNat), (52, 4, (epochRead s 0x80).toNat), (56, 4, (epochRead s 0x84).toNat)]),
      (.epochGetMargin, 0x0302, 2, epochMarginBytes, 64, fun s =>
        (List.finRange 8).map (fun l => (4 * l.val, 4, (laneOf s l).margins.foldl min 0xFFFFFFFF)) ++
        (List.finRange 8).map (fun l => (32 + 4 * l.val, 4, (laneOf s l).lastCommit.toNat))),
      (.voteGetStatus, 0x0320, 2, voteStatusBytes, 44, fun s => [(0, 8, s.epoch.no.toNat), (8, 1, voteCode s.weft.own),
        (9, 1, s.weft.voters.toNat), (10, 1, s.weft.roleSlot.toNat), (11, 1, s.weft.sources.toNat),
        (12, 4, (weftRead s 0x0C).toNat), (16, 4, (weftRead s 0x10).toNat), (20, 4, (weftRead s 0x14).toNat),
        (24, 4, (weftRead s 0x18).toNat), (28, 4, (weftRead s 0x1C).toNat), (32, 4, (weftRead s 0x20).toNat),
        (36, 4, (weftRead s 0x24).toNat), (40, 1, s.weft.disagreeRun.toNat), (41, 3, 0)]),
      (.voteGetLinks, 0x0321, 2, fun s => linkBytes s.weft.a ++ linkBytes s.weft.b, 64, fun s =>
        [(0, s.weft.a), (32, s.weft.b)].flatMap (fun x => [(x.1, 1, linkCode x.2.state), (x.1 + 1, 1, x.2.level.toNat),
          (x.1 + 2, 1, x.2.peerSlot.toNat), (x.1 + 3, 1, x.2.peerState.toNat), (x.1 + 4, 4, x.2.peerGen.toNat),
          (x.1 + 12, 4, x.2.crcErr.toNat), (x.1 + 16, 4, x.2.retx.toNat), (x.1 + 20, 4, x.2.absentCnt.toNat),
          (x.1 + 24, 8, 0)])),
      (.voteGetGroups, 0x0322, 2, fun s => allGroups.flatMap (groupEntry s), 320, fun s =>
        allGroups.flatMap (fun g => [(20 * g.val + 16, 1, outcomeCode s.weft.outcome[g]),
          (20 * g.val + 17, 1, s.weft.hold[g].toNat), (20 * g.val + 18, 1, b2n (s.weft.released.getLsbD g.val)),
          (20 * g.val + 19, 1, b2n (s.weft.safe.getLsbD g.val))])),
      (.voteGetAdmit, 0x0327, 2, fun s =>
        regBytes (weftRead s) [0x30, 0x34] ++ leBytes 2 s.weft.cuBlocks.toNat ++ zeros 2, 12, fun s =>
        [(0, 4, (weftRead s 0x30).toNat), (4, 4, (weftRead s 0x34).toNat), (8, 2, s.weft.cuBlocks.toNat), (10, 2, 0)]),
      (.timeGetAll, 0x0400, 1, fun s => s.time.tb.toList.flatMap timeEntry, 64, fun s => (List.finRange 4).flatMap (fun k =>
        let b := s.time.tb[k]
        [(16 * k.val, 8, b.value.sec.toNat), (16 * k.val + 8, 4, b.value.ns.toNat), (16 * k.val + 12, 1, servoCode b.state),
          (16 * k.val + 13, 1, if b.state = .locked ∨ b.state = .holdover then 1 else 0), (16 * k.val + 14, 2, 0)])),
      (.netMvbGet, 0x0507, 2, fun s => leBytes 4 (mvbStatus s) ++ leBytes 4 s.pkt.mvb.framesA.toNat
        ++ leBytes 4 s.pkt.mvb.framesB.toNat ++ leBytes 4 s.pkt.mvb.errors.toNat, 16, fun s => [(0, 4, mvbStatus s),
        (4, 4, s.pkt.mvb.framesA.toNat), (8, 4, s.pkt.mvb.framesB.toNat), (12, 4, s.pkt.mvb.errors.toNat)]),
      (.routeGetStatus, 0x0514, 2, fun s => leBytes 4 (routeStatus s) ++ leBytes 4 s.route.tableId.toNat
        ++ leBytes 4 s.route.tableCrc.toNat ++ zeros 4 ++ leBytes 8 s.route.swapEpoch.toNat
        ++ leBytes 8 s.route.lookups.toNat ++ leBytes 4 s.route.miss.toNat ++ leBytes 4 s.route.drop.toNat, 40, fun s =>
        [(0, 4, routeStatus s), (4, 4, s.route.tableId.toNat), (8, 4, s.route.tableCrc.toNat), (12, 4, 0),
          (16, 8, s.route.swapEpoch.toNat), (24, 8, s.route.lookups.toNat), (32, 4, s.route.miss.toNat),
          (36, 4, s.route.drop.toNat)]),
      (.rackGetStatus, 0x0600, 1, fun s => leBytes 4 (rackCtrl s) ++ leBytes 4 (rackStatus s) ++ leBytes 4 (rackPoll s)
        ++ leBytes 4 (rackLogStatus s) ++ (rackCounters s.rack).flatMap (fun c => leBytes 4 c.toNat), 60, fun s =>
        [(0, 4, rackCtrl s), (4, 4, rackStatus s), (8, 4, rackPoll s), (12, 4, rackLogStatus s), (16, 4, s.rack.inWr.toNat),
          (20, 4, s.rack.inRd.toNat), (24, 4, s.rack.inRetry.toNat), (28, 4, s.rack.outWr.toNat), (32, 4, s.rack.outRd.toNat),
          (36, 4, s.rack.outRetry.toNat), (40, 4, s.rack.failures.toNat), (44, 4, s.rack.evtDropped.toNat),
          (48, 4, s.rack.wlDiscard.toNat), (52, 4, s.rack.drExpired.toNat)]),
      (.fioGetStatus, 0x0700, 1, fun s => [s.fio.frame.state.toNat, s.fio.out.toNat, s.fio.frame.overload.toNat,
        s.fio.frame.openWire.toNat, s.fio.frame.overtemp.toNat, s.fio.frame.extDrive.toNat,
        fioGroup s.fio.frame.group[0], fioGroup s.fio.frame.group[1], fioLink s.fio].flatMap (leBytes 4), 36, fun s =>
        [(0, 4, s.fio.frame.state.toNat), (4, 4, s.fio.out.toNat), (8, 4, s.fio.frame.overload.toNat),
          (12, 4, s.fio.frame.openWire.toNat), (16, 4, s.fio.frame.overtemp.toNat), (20, 4, s.fio.frame.extDrive.toNat)]),
      (.fioGetCompat, 0x0701, 1, fun s => leBytes 4 (fioCompat s.fio), 4, fun s => [(0, 4, fioCompat s.fio)]),
      (.safeGetStatus, 0x0800, 1, fun s => [safeLink s.safe, safeInState s.safe, safeInFault s.safe, safeOutStates s.safe,
        safeOutFaults s.safe, safeFuncs s.safe, s.safe.event.toNat].flatMap (leBytes 4), 28, fun s => [(0, 4, safeLink s.safe),
        (4, 4, safeInState s.safe), (8, 4, safeInFault s.safe), (12, 4, safeOutStates s.safe), (16, 4, safeOutFaults s.safe),
        (20, 4, safeFuncs s.safe), (24, 4, s.safe.event.toNat)]),
      (.safeGetConfig, 0x0803, 2, fun s => safetyMapBytes s.safe, 144, fun s => [(3, 1, s.safe.nom.toNat), (4, 4, s.safe.word),
        (8, 2, s.safe.tpIn.toNat), (10, 2, s.safe.tpOut.toNat), (12, 4, 0)]),
      (.anaGetStatus, 0x0900, 1, fun s => s.muslin.chan.toList.flatMap (fun x => leBytes 4 (muStatus x)), 64, fun s =>
        (List.finRange 16).map (fun c => (4 * c.val, 4, muStatus s.muslin.chan[c]))),
      (.pwrGetStatus, 0x0A00, 1, fun s =>
        [0x00, 0x04, 0x08, 0x0C, 0x10, 0x14, 0x18, 0x20].flatMap (fun o => leBytes 4 (pwrRead s o).toNat)
          ++ leBytes 4 (s.lanes.perf.toNat + 256 * s.lanes.ramping.toNat), 36, fun s =>
        [(0, 4, (pwrRead s 0x00).toNat), (4, 4, (pwrRead s 0x04).toNat), (8, 4, (pwrRead s 0x08).toNat),
          (12, 4, (pwrRead s 0x0C).toNat), (16, 4, (pwrRead s 0x10).toNat), (20, 4, (pwrRead s 0x14).toNat),
          (24, 4, s.power.event.toNat), (28, 4, (pwrRead s 0x20).toNat),
          (32, 4, s.lanes.perf.toNat + 256 * s.lanes.ramping.toNat)]),
      (.pwrGetLog, 0x0A03, 2, fun s => fit 128 (s.power.log.flatMap lossBytes), 128, fun s =>
        [(0, 6, (s.power.log.head?.map (·.tb0Sec)).getD 0), (6, 1, (s.power.log.head?.map (·.stageMax)).getD 0),
          (8, 4, (s.power.log.head?.map (·.duration.toNat)).getD 0)]),
      (.updGetStatus, 0x0B00, 2, updStatus, 76, fun s => [(0, 1, bankCode (bankNow s)), (1, 1, s.boot.reason.toNat),
        (2, 1, s.boot.step.toNat), (3, 1, bitsNum [s.boot.rstStuckPowerOn, s.boot.rstStuckService, s.boot.containerRestored,
          s.boot.containerUnreadable, s.boot.bootLock]), (4, 1, (s.boot.updOwner.map (·.val)).getD 0xFF), (5, 3, 0),
        (8, 8, s.boot.written), (24, 4, s.otp.loader.toNat), (28, 4, s.boot.fwRunning.toNat),
        (68, 4, s.boot.startMs.toNat), (72, 4, 0)]),
      (.secGetStatus, 0x0C00, 2, secStatus, 24, fun s => [(0, 1, b2n s.sec.factory + 2 * b2n s.sec.independent),
        (1, 1, s.sec.pendingSlot.toNat), (4, 1, b2n (unlocked s)), (5, 3, 0), (8, 8, s.sec.changeSeq.toNat),
        (16, 4, debugLeft s), (20, 4, 0)]),
      (.secGetRegistry, 0x0C02, 2, fun s => registryBytes s.sec.registry.toList, 120, fun s => (List.finRange 3).map
        (fun k => (40 * k.val, 8, s.sec.registry[k].serial.toNat))),
      (.secGetIdentity, 0x0C03, 2, secIdentity, 108, fun s => [(0, 8, s.otp.serial.toNat),
        (40, 1, b2n (!bench s && ownEntry s s.sec.registry.toList)), (41, 1, linkCode s.weft.a.state),
        (42, 1, linkCode s.weft.b.state), (43, 1, 0)]),
      (.recGetStatus, 0x0D00, 2, fun s => leBytes 4 (morStatus s.mor) ++ leBytes 4 s.mor.lost.toNat
        ++ leBytes 4 s.mor.badUnits.toNat ++ leBytes 4 (morCfg s.mor) ++ leBytes 8 s.mor.nextSeq.toNat
        ++ leBytes 8 (morOldest s.mor).toNat, 32, fun s => [(0, 4, morStatus s.mor), (4, 4, s.mor.lost.toNat),
        (8, 4, s.mor.badUnits.toNat), (12, 2, s.mor.flushMs.toNat), (14, 2, s.mor.rate.toNat), (16, 8, s.mor.nextSeq.toNat),
        (24, 8, (morOldest s.mor).toNat)]),
      (.dbgGetStatus, 0x0D04, 2, fun s => leBytes 4 (dbgStatus s) ++ leBytes 4 (b2n s.dbg.frzTb) ++ leBytes 4 (debugLeft s), 12,
        fun s => [(0, 4, dbgStatus s), (4, 4, b2n s.dbg.frzTb), (8, 4, debugLeft s)])] :
      List ((PairId → Instr) × Nat × Nat × (State → List Byte) × Nat × (State → List (Nat × Nat × Nat)))),
  ∀ pair s, Asked s pair (readCmd row.2.1 row.2.2.1 0) → payloadOf s pair = [] →
    let bytes := row.2.2.2.1 s
    (∃ t, exec (row.1 pair) s = .next t ∧ Answered s t pair (okWith bytes)) ∧
      bytes.length = row.2.2.2.2.1 ∧ ∀ x ∈ row.2.2.2.2.2 s, leAt bytes x.1 x.2.1 = x.2.2 % 256 ^ x.2.1

/-- Read commands with parameters (R260, R291, R322, R323, R348, R384, R415, R435, R476, R493, R494, R507): parameters in
range are answered OK with the named port, channel, entry or bytes, and nothing else changes. -/
def Obligations.IndexedReadAnswer : Prop :=
  ∀ pair s,
    (∀ p, payloadOf s pair = p →
      (Asked s pair ⟨0x0105, 1, onReads, false, fun n => decide (n ≤ 496)⟩ →
        ∃ t, exec (.sysEcho pair) s = .next t ∧ Answered s t pair (okWith p)) ∧
      (Asked s pair (readCmd 0x0204 2 12) → p.length = 12 → u8 p 0 ≤ 2 → allZero p 1 3 = true → 0 < u16 p 8 →
        u16 p 8 ≤ 480 → allZero p 10 2 = true → u32 p 4 + u16 p 8 ≤ (cfgSource s (u8 p 0)).length →
        ∃ t, exec (.cfgRead pair) s = .next t ∧
          Answered s t pair (okWith (slice (cfgSource s (u8 p 0)) (u32 p 4) (u16 p 8)))) ∧
      (Asked s pair (readCmd 0x0904 2 8) → p.length = 8 →
        ∃ t, exec (.anaGetRom pair) s = .next t ∧ Answered s t pair (romAnswer p)) ∧
      (Asked s pair (readCmd 0x0C05 2 32) → p.length = 32 →
        ∃ t, exec (.secAttest pair) s = .next t ∧ Answered s t pair (okWith (leBytes 8 s.epoch.no.toNat
          ++ b8 (voteCode s.weft.own) ++ zeros 7 ++ edSign s.otp.seed (attestBytes s p)))) ∧
      (Asked s pair (readCmd 0x0D01 2 12) → p.length = 12 → 0 < u8 p 8 → u8 p 8 ≤ 7 → allZero p 9 3 = true →
        u64 p 0 < s.mor.nextSeq.toNat →
        let rs := recordsFrom (s.mor.ring ++ s.mor.staged) (u8 p 8) (max (u64 p 0) (morOldest s.mor).toNat)
        ∃ t, exec (.recRead pair) s = .next t ∧ Answered s t pair
          ⟨0, if u64 p 0 < (morOldest s.mor).toNat then 1 else 0,
            leBytes 8 ((rs.head?.map (·.seq.toNat)).getD (max (u64 p 0) (morOldest s.mor).toNat)) ++ rs.flatMap morBytes⟩) ∧
      (p.length = 4 →
        (Asked s pair (readCmd 0x0106 2 4) → allZero p 1 3 = true → ∀ k, k = (if u8 p 0 = 0xFF then pair.val else u8 p 0) →
          k ≤ 23 → (pair.val < 16 → k / 2 = pair.val / 2) →
          ∃ t, exec (.sysGetMboxStats pair) s = .next t ∧ Answered s t pair
            (okWith (mboxStats (putPair s pair.val { pairAt s pair.val with state := .serving }) k))) ∧
        (Asked s pair (readCmd 0x0401 2 4) → ∀ k : Fin 4, u8 p 0 = k.val → allZero p 1 3 = true →
          ∃ t, exec (.timeGetServo pair) s = .next t ∧ Answered s t pair (okWith (servoBytes s.time.tb[k]))) ∧
        (Asked s pair (readCmd 0x0408 2 4) → ∀ k : Fin 4, u8 p 0 = k.val → allZero p 1 3 = true →
          ∃ t, exec (.timePtpGet pair) s = .next t ∧ Answered s t pair (okWith (ptpBytes k.val s.time.ptp[k]))) ∧
        (Asked s pair (readCmd 0x0500 2 4) → ∀ k : Fin 4, u8 p 0 = k.val → allZero p 1 3 = true →
          ∃ t, exec (.netGetPort pair) s = .next t ∧ Answered s t pair (okWith (portBytes k.val s.pkt.port[k]))) ∧
        (Asked s pair (readCmd 0x0504 2 4) → ∀ k : Fin 4, u8 p 0 = k.val → u8 p 1 = 0 → u16 p 2 ≤ 255 →
          ∃ t, exec (.netGclGet pair) s = .next t ∧ Answered s t pair (okWith (gclBytes s.pkt.port[k].list (u16 p 2)))) ∧
        (Asked s pair (readCmd 0x0505 2 4) → u16 p 0 ≤ 511 → allZero p 2 2 = true →
          ∃ t, exec (.netCbGet pair) s = .next t ∧ Answered s t pair (okWith (streamBytes (streamOf s (u16 p 0))))) ∧
        (Asked s pair (readCmd 0x0506 2 4) → u8 p 0 ≤ 1 → u8 p 1 = 0 → ∀ b, pdBytes s (u8 p 0) (u16 p 2) = some b →
          ∃ t, exec (.netPdGet pair) s = .next t ∧ Answered s t pair (okWith b)) ∧
        (Asked s pair (readCmd 0x0508 2 4) → ∀ k : Fin 4, u8 p 0 = 5 + k.val → allZero p 1 3 = true →
          ∃ t, exec (.netCanGet pair) s = .next t ∧ Answered s t pair (okWith (leBytes 4 (canStatus s.pkt.can[k])
            ++ leBytes 4 s.pkt.can[k].rx.toNat ++ leBytes 4 s.pkt.can[k].tx.toNat
            ++ leBytes 4 s.pkt.can[k].busOffCnt.toNat))) ∧
        (Asked s pair (readCmd 0x0515 2 4) → u8 p 0 ≤ 1 → 0 < u8 p 1 → u8 p 1 ≤ 13 → u16 p 2 + u8 p 1 ≤ 65536 →
          (u8 p 0 = 1 → s.route.shadowState ≠ .copying) →
          ∃ t, exec (.routeRead pair) s = .next t ∧ Answered s t pair
            (okWith (routeRecords (if u8 p 0 = 0 then s.route.active else s.route.shadow) (u16 p 2) (u8 p 1)))) ∧
        (Asked s pair (readCmd 0x0603 2 4) → u8 p 0 ≤ 15 → 0 < u8 p 1 → u8 p 1 ≤ 15 → allZero p 2 2 = true →
          ∃ t, exec (.rackGetLog pair) s = .next t ∧ Answered s t pair
            (okWith ((List.range (u8 p 1)).flatMap (fun i => rackLogAt s.rack ((u8 p 0 + i) % 16))))) ∧
        (Asked s pair (readCmd 0x0702 2 4) → ∀ c : Fin 32, u8 p 0 = c.val → allZero p 1 3 = true →
          ∃ t, exec (.fioGetChannel pair) s = .next t ∧ Answered s t pair (okWith (channelBytes s.fio c))) ∧
        (Asked s pair (readCmd 0x0801 2 4) → ∀ k : Fin 4, u8 p 0 = k.val → allZero p 1 3 = true →
          ∃ t, exec (.safeGetSpeed pair) s = .next t ∧ Answered s t pair (okWith (leBytes 4 (spdStatus s.safe.speed[k])
            ++ zeros 4 ++ leBytes 8 s.safe.speed[k].net.toNat ++ leBytes 8 (twos 64 (distOf s.safe.speed[k]))))) ∧
        (Asked s pair (readCmd 0x0802 2 4) → ∀ k : Fin 4, u8 p 0 = k.val → allZero p 1 3 = true →
          ∃ t, exec (.safeGetFunc pair) s = .next t ∧ Answered s t pair (okWith (b8 (funcCode s.safe.func[k].state)
            ++ b8 (b2n s.safe.func[k].latched) ++ zeros 2 ++ leBytes 4 (funcValue s.safe k)
            ++ leBytes 4 (funcCfg s.safe.func[k]) ++ leBytes 4 s.safe.func[k].limit.toNat
            ++ leBytes 4 s.safe.func[k].hyst.toNat))) ∧
        (Asked s pair (readCmd 0x0901 2 4) → ∀ k : Fin 16, u8 p 0 = k.val → allZero p 1 3 = true →
          ∃ t, exec (.anaGetChannel pair) s = .next t ∧
            Answered s t pair (okWith ((muRegs s.muslin.chan[k]).flatMap (fun r => leBytes 4 r.toNat)))) ∧
        (Asked s pair (readCmd 0x0C01 2 4) → u8 p 0 ≤ 1 → allZero p 1 3 = true →
          ∃ t, exec (.secGetKeys pair) s = .next t ∧
            Answered s t pair (okWith ((roleKeys s (u8 p 0 == 1)).flatMap (fit 32)))) ∧
        (Asked s pair (readCmd 0x0C04 2 4) → 0 < u16 p 2 → u16 p 2 ≤ 480 → u16 p 0 + u16 p 2 ≤ s.otp.cert.length →
          ∃ t, exec (.secGetCert pair) s = .next t ∧ Answered s t pair
            (okWith (leBytes 2 s.otp.cert.length ++ zeros 2 ++ slice s.otp.cert (u16 p 0) (u16 p 2))))))

/-- System commands that change state (R261, R263, R264, R265): HELLO takes the negotiated level and binds the sender;
SYS_RESTART is answered, recorded and leaves a restart due; SYS_DELIVER fills the lane's slot and waits for the raw
image; SYS_SUBSCRIBE takes the mask and starts the notice count at 0. Time commands that change state (R291, R292,
R285): the parameters go to the servo, the increment, the time base, the capture unit, the pulse output or the PTP
port that the request names. -/
def Obligations.SystemTimeCommandResult : Prop :=
  (
  ∀ pair s p, payloadOf s pair = p →
    (let r := requestOf s pair.val
     let level := min (u8 p 1) (levelCap s)
     mboxTurn s = some pair.val → r.command = 0x0100 → r.crcOk = true → r.lengthOk = true → 1 ≤ r.level → r.level ≤ 4 →
     r.flags = 0 → r.status = 0 → r.reserved = 0 → onReads pair.val = true → p.length = 8 ∨ p.length = 4 →
     1 ≤ (pairAt s pair.val).level.toNat → helloOk p = true → u8 p 0 ≤ level →
      ∃ t, exec (.hello pair) s = .next t ∧ (pairAt t pair.val).state = .done ∧
        (pairAt t pair.val).level = BitVec.ofNat 3 level ∧
        (pairAt t pair.val).rsp = slotOf (messageBytes level 1 0x0100 r.tag 0 0 (helloResponse s pair.val level)) ∧
        (onChanges pair.val = true → (pairAt t pair.val).bound = (pairAt s pair.val).src) ∧
        Messaged (recordCommand s pair.val 0 0 0x0100 r.tag) t) ∧
    (Asked s pair (changeCmd 0x0104 1 8) → p.length = 8 → u8 p 0 ≤ 1 → u8 p 1 ≤ 1 → allZero p 2 2 = true →
      u32 p 4 = 0x5A5A → (leavesTooFew s = true → u8 p 1 = 1 ∧ standstill s = true) →
      let b := recordCommand s pair.val 0 0 0x0104 (requestOf s pair.val).tag
      ∃ t, exec (.sysRestart pair) s = .next t ∧
        Answered { b with boot := { b.boot with restartDue := some (u8 p 0 == 1) } } t pair okEmpty) ∧
    (Asked s pair ⟨0x0107, 2, onChanges, false, fun n => decide (8 ≤ n) && decide (n ≤ 496)⟩ → 8 ≤ p.length →
      ∀ l : LaneId, u8 p 0 = l.val → u8 p 1 = 0 → u16 p 2 + 8 = p.length → allZero p 4 4 = true →
      refusesDelivery (laneOf s l) = false → (pairAt s (2 * l.val + 1)).undelivered = false →
      ∃ t, exec (.sysDeliver pair) s = .next t ∧ Begun s t pair 0x0107 ∧ (pairAt t pair.val).deliverTo = some l ∧
        (pairAt t (2 * l.val + 1)).undelivered = true ∧
        (pairAt t (2 * l.val + 1)).req = slotOf (messageBytes 4 0 0x0107 (requestOf s pair.val).tag 0 0 (p.drop 8))) ∧
    (Asked s pair (changeCmd 0x0108 4 4) → p.length = 4 → u16 p 0 ≤ 0x1FFF → allZero p 2 2 = true →
      ∃ t, exec (.sysSubscribe pair) s = .next t ∧ Answered s t pair okEmpty ∧
        (pairAt t pair.val).subs = BitVec.ofNat 16 (u16 p 0) ∧ (pairAt t pair.val).noticeCnt = 0 ∧
        (pairAt t pair.val).notice = none)
  )
  ∧
  (
  ∀ pair s p, payloadOf s pair = p →
    (Asked s pair (changeCmd 0x0402 2 8) → p.length = 8 → ∀ k : Fin 4, k.val < 3 → u8 p 0 = k.val → u8 p 1 ≤ 63 →
      u8 p 2 ≤ 63 → u8 p 3 = 0 → 0 < u16 p 4 → 0 < u16 p 6 →
      ∃ t, exec (.timeSetServo pair) s = .next t ∧ Answered (putTb s k { s.time.tb[k] with
        kp := BitVec.ofNat 6 (u8 p 1), ki := BitVec.ofNat 6 (u8 p 2), lockNs := BitVec.ofNat 16 (u16 p 4)
        holdS := BitVec.ofNat 16 (u16 p 6) }) t pair okEmpty) ∧
    (Asked s pair (changeCmd 0x0403 2 8) → p.length = 8 → ∀ k : Fin 4, k.val < 3 → u8 p 0 = k.val → allZero p 2 2 = true →
      incrOk (u8 p 1 * 2 ^ 32 + u32 p 4) = true →
      ∃ t, exec (.timeSetIncr pair) s = .next t ∧ Answered (putTb s k { s.time.tb[k] with
        incr := u8 p 1 * 2 ^ 32 + u32 p 4, incrNs := BitVec.ofNat 8 (u8 p 1) }) t pair okEmpty) ∧
    (Asked s pair (changeCmd 0x0404 2 16) → p.length = 16 → ∀ k : Fin 4, k.val < 2 → u8 p 0 = k.val → allZero p 1 3 = true →
      u32 p 4 < 1000000000 → u64 p 8 < 2 ^ 48 → ptpActive s k.val = false →
      ∃ t, exec (.timeSet pair) s = .next t ∧
        Answered (stepBase s k ((u64 p 8 * 1000000000 + u32 p 4) * 2 ^ 32)) t pair okEmpty ∧
        t.time.tb[k].state = .locking ∧ t.time.tb[k].value = tbOfFine ((u64 p 8 * 1000000000 + u32 p 4) * 2 ^ 32)) ∧
    (Asked s pair (changeCmd 0x0405 2 8) → p.length = 8 → ∀ u : Fin 16, u8 p 0 = u.val → capSourceOk (u8 p 1) = true →
      u8 p 2 ≤ 3 → u8 p 3 ≤ 3 → u8 p 4 ≤ 1 → 0 < u8 p 5 → allZero p 6 2 = true →
      ∃ t, exec (.timeCapSet pair) s = .next t ∧
        Answered { s with time := { s.time with cap := s.time.cap.set u.val { s.time.cap[u] with
          source := BitVec.ofNat 8 (u8 p 1), edge := BitVec.ofNat 2 (u8 p 2), tb := BitVec.ofNat 2 (u8 p 3)
          en := u8 p 4 == 1, limit := BitVec.ofNat 8 (u8 p 5) } } } t pair okEmpty) ∧
    (Asked s pair (changeCmd 0x0406 2 24) → p.length = 24 → ∀ o : Fin 8, u8 p 0 = o.val → u8 p 1 ≤ 31 →
      allZero p 2 2 = true → u32 p 4 < 1000000000 → u64 p 8 < 2 ^ 48 →
      let x := s.time.tpo[o]
      (x.en = true ∧ u8 p 1 % 2 = 0) ∨ tpoOk (tpoFrom x p) = true →
      ∃ t, exec (.timeTpoSet pair) s = .next t ∧
        Answered (tpoSetEn s o (if x.en then x else tpoFrom x p) (u8 p 1 % 2 == 1)) t pair okEmpty) ∧
    (Asked s pair (changeCmd 0x0407 2 12) → p.length = 12 → ∀ k : Fin 4, u8 p 0 = k.val → u8 p 1 ≤ 7 → u8 p 2 ≤ 1 →
      u8 p 3 ≤ 127 → (BitVec.ofNat 32 (u32 p 4)).toInt.natAbs ≤ 1000000 → allZero p 8 4 = true →
      ptpClash s k.val (u8 p 2 == 1) (u8 p 3) = false →
      ∃ t, exec (.timePtpSet pair) s = .next t ∧
        Answered { s with time := { s.time with ptp := s.time.ptp.set k.val { s.time.ptp[k] with
          en := u8 p 1 % 2 == 1, p2p := bitOf (u8 p 1) 1, udp := bitOf (u8 p 1) 2, tb := u8 p 2 == 1
          domain := BitVec.ofNat 8 (u8 p 3), asymPs := BitVec.ofNat 32 (u32 p 4)
          portState := if u8 p 1 % 2 == 1 then 1 else 0 } } } t pair okEmpty)
  )

/-- Network commands that change state (R298, R313, R323): the port's settings, the counters of the mask, the port's
pending gate list, and the recovery of a CAN channel that is bus-off. Route-table commands (R317, R318, R319, Table
9.10): BEGIN with or without COPY, the end of the copy, WRITE, COMMIT and the end of its checks, and ABORT, through
the states of the shadow table. What the shadow holds after ABORT is left open. -/
def Obligations.NetworkRouteCommandResult : Prop :=
  (
  ∀ pair s p, payloadOf s pair = p →
    (Asked s pair (changeCmd 0x0501 2 4) → p.length = 4 → ∀ k : Fin 4, u8 p 0 = k.val → u8 p 1 ≤ 1 → u8 p 2 ≤ 7 → u8 p 3 = 0 →
      ((pairAt s pair.val).rxPort = some k → u8 p 1 = 1 ∧ (s.pkt.port[k].mgmt = true → bitOf (u8 p 2) 2 = true)) →
      let x := { s.pkt.port[k] with fec := bitOf (u8 p 2) 0, force1g := bitOf (u8 p 2) 1, mgmt := bitOf (u8 p 2) 2 }
      ∃ t, exec (.netSetPort pair) s = .next t ∧
        (u8 p 1 = 1 ∨ s.pkt.port[k].en = false → Answered (putPort s k (portEnable x (u8 p 1 == 1))) t pair okEmpty) ∧
        (u8 p 1 = 0 → s.pkt.port[k].en = true →
          Answered (portLost (putPort s k (portEnable x false)) k s.pkt.port[k]) t pair okEmpty ∧
          t.pkt.port[k].en = false ∧ t.pkt.port[k].queue = Vector.replicate 8 [])) ∧
    (Asked s pair (changeCmd 0x0502 2 4) → p.length = 4 → allZero p 2 2 = true →
      ∃ t, exec (.netClearCounters pair) s = .next t ∧
        Answered { s with pkt := clearPkt s.pkt (u16 p 0) } t pair okEmpty) ∧
    (Asked s pair ⟨0x0503, 3, onChanges, true, fun n => decide (8 ≤ n)⟩ → 8 ≤ p.length → p.length = 8 + 4 * u16 p 2 →
      ∀ k : Fin 4, u8 p 0 = k.val → u8 p 1 ≤ 2 → gclOk s (u32 p 4) (gclEntries p) = true →
      ∃ t, exec (.netGclSet pair) s = .next t ∧ Answered (putPort s k { s.pkt.port[k] with
        pendingList := some ⟨BitVec.ofNat 2 (u8 p 1), u32 p 4, gclEntries p⟩, pendingAt := tb3 s }) t pair okEmpty) ∧
    (Asked s pair (changeCmd 0x0509 2 4) → p.length = 4 → ∀ k : Fin 4, u8 p 0 = 5 + k.val → allZero p 1 3 = true →
      s.pkt.can[k].state = 2 → s.pkt.can[k].autoRecover = false →
      ∃ t, exec (.netCanRecover pair) s = .next t ∧ Answered { s with pkt := { s.pkt with
        can := s.pkt.can.set k.val { s.pkt.can[k] with recovering := true } } } t pair okEmpty)
  )
  ∧
  (
  (∀ pair s p, payloadOf s pair = p →
    (Asked s pair (changeCmd 0x0510 2 4) → p.length = 4 → allZero p 1 3 = true → s.route.shadowState = .idle →
      (u8 p 0 = 0 → ∃ t, exec (.routeBegin pair) s = .next t ∧
        Answered { s with route := { s.route with shadowState := .building, owner := some pair } } t pair okEmpty) ∧
      (u8 p 0 = 1 → ∃ t, exec (.routeBegin pair) s = .next t ∧
        Begun { s with route := { s.route with shadowState := .copying, owner := some pair } } t pair 0x0510)) ∧
    (Asked s pair ⟨0x0511, 3, onChanges, true, fun n => decide (4 ≤ n)⟩ → p.length = 4 + 36 * u16 p 0 →
      allZero p 2 2 = true → routeRecordsOk p = true → notOwner s pair = false → s.route.shadowState = .building →
      ∃ t, exec (.routeWrite pair) s = .next t ∧ Answered { s with route := { s.route with
        shadow := (List.range (u16 p 0)).foldl (fun tab i =>
          routePut tab (u16 p (4 + 36 * i)) (slice p (8 + 36 * i) 32)) s.route.shadow } } t pair okEmpty) ∧
    (Asked s pair (changeCmd 0x0512 2 16) → p.length = 16 → allZero p 4 4 = true → notOwner s pair = false →
      s.route.shadowState = .building → (u64 p 8 = 0 ∨ s.epoch.no.toNat < u64 p 8) →
      ∃ t, exec (.routeCommit pair) s = .next t ∧
        Begun { s with route := { s.route with shadowState := .checking } } t pair 0x0512) ∧
    (Asked s pair (changeCmd 0x0513 2 0) → p.length = 0 → notOwner s pair = false → s.route.shadowState ≠ .idle →
      ∃ t tab, exec (.routeAbort pair) s = .next t ∧ Answered { s with
        route := { s.route with shadowState := .idle, owner := none, shadow := tab }
        freeCtr := s.freeCtr + 1 } t pair okEmpty)) ∧
  (∀ s, running s 8 = true →
    (s.route.shadowState = .copying → ∃ t, exec .routeCopyDone s = .next t ∧
      t.route = { s.route with shadow := s.route.active, shadowState := .building, shadowId := s.route.tableId
                               shadowCrc := s.route.tableCrc } ∧
      Messaged { s with route := t.route } t) ∧
    (s.route.shadowState = .checking → ∀ i why, routeCheck s.route.shadow = some (i, why) →
      ∃ t, exec .routeCheckDone s = .next t ∧ t.route.shadowState = .building ∧ t.route.shadow = s.route.shadow ∧
        Messaged { s with route := t.route } t) ∧
    (s.route.shadowState = .checking → routeCheck s.route.shadow = none →
      ∃ t, exec .routeCheckDone s = .next t ∧ t.route.shadowState = .ready ∧ t.route.shadow = s.route.shadow ∧
        t.route.shadowCrc = routeCrc s.route.shadow ∧ t.route.shadowId = BitVec.ofNat 32 (u32 (commitPayload s) 0) ∧
        t.route.activateEpoch = BitVec.ofNat 64 (u64 (commitPayload s) 8) ∧
        Messaged { s with route := t.route } t))
  )

/-- Rack bus commands (R344, R348, R349): RACK_READ and RACK_WRITE run on as long commands whose access joins the outbound
queue; RACK_CLEAR, RACK_SET_POLL and RACK_SET_PF wait for the next boundary. Field I/O and safety commands (R384,
R385, R415, R416): new channel settings wait for the next boundary; FIO_CLEAR is a service frame to the field side,
whose result is answered; SAFE_CLEAR and SAFE_OUT_REQUEST send a release frame and run on until the safety tick that
applies it. Analogue and power commands (R428, R435, R450, R165): detector settings wait for the next boundary,
ANA_SYNC asks for a synchronising reset, PWR_SET_PERF writes LANE_PERF, and PWR_HOLDUP_TEST begins a measurement as a
long command. -/
def Obligations.DeviceCommandResult : Prop :=
  (
  ∀ pair s p, payloadOf s pair = p →
    (let go := fun (u : State) => if selvedgeRuns u && running u 9 then rackGo u else u
     (u8 p 4 = 1 ∨ u8 p 4 = 2 ∨ u8 p 4 = 4) → u32 p 0 % u8 p 4 = 0 → allZero p 5 3 = true → s.rack.failed = false →
      (Asked s pair (readCmd 0x0601 1 8) → p.length = 8 → (s.rack.shared = true → rackDrives s = true) →
        ∃ u, Begun s u pair 0x0601 ∧ exec (.rackRead pair) s = .next (go u)) ∧
      (Asked s pair (changeCmd 0x0602 1 12) → p.length = 12 → s.rack.shared = false →
        (s.weft.own = .bench ∧ unlocked s = true) ∨ s.weft.own = .unconfigured ∨ s.weft.own = .withdrawn →
        ∃ u, Begun s u pair 0x0602 ∧ exec (.rackWrite pair) s = .next (go u))) ∧
    (Asked s pair (changeCmd 0x0604 2 4) → p.length = 4 → u8 p 0 ≤ 3 → allZero p 1 3 = true →
      ∃ t, exec (.rackClear pair) s = .next t ∧ Answered { s with rack := { s.rack with
        clearNext := s.rack.clearNext ||| BitVec.ofNat 2 (u8 p 0) } } t pair okEmpty) ∧
    (Asked s pair (changeCmd 0x0605 2 4) → p.length = 4 → 2 ≤ u16 p 0 → u16 p 0 ≤ 1000 → allZero p 2 2 = true →
      ∃ t, exec (.rackSetPoll pair) s = .next t ∧ Answered { s with rack := { s.rack with
        pollNext := some (BitVec.ofNat 10 (u16 p 0)) } } t pair okEmpty) ∧
    (Asked s pair (changeCmd 0x0606 2 12) → p.length = 12 → u8 p 0 ≤ 7 → u8 p 1 ≤ 1 → allZero p 2 2 = true →
      u32 p 4 % 256 = 0 → u32 p 8 % 256 = 0 → u32 p 4 < 0x100000 → u32 p 8 < 0x100000 →
      ∃ t, exec (.rackSetPf pair) s = .next t ∧ Answered { s with rack := { s.rack with
        pfNext := s.rack.pfNext ++ [(u8 p 0, u8 p 1 == 1, u32 p 4 / 256, u32 p 8 / 256)] } } t pair okEmpty)
  )
  ∧
  (
  ∀ pair s p, payloadOf s pair = p →
    (Asked s pair (changeCmd 0x0703 2 4) → p.length = 4 → ∀ c : Fin 32, u8 p 0 = c.val → 1 ≤ u8 p 1 → u8 p 1 ≤ 250 →
      u8 p 2 ≤ 3 → u8 p 3 = 0 →
      let g := s.fio.chan[c].cfgNext.getD s.fio.chan[c].cfg
      ∃ t, exec (.fioSetChannel pair) s = .next t ∧ Answered (putChan s c { s.fio.chan[c] with cfgNext := some { g with
        filter := BitVec.ofNat 8 (u8 p 1), offTest := bitOf (u8 p 2) 0, event := bitOf (u8 p 2) 1 } }) t pair okEmpty) ∧
    (Asked s pair (changeCmd 0x0704 2 8) → p.length = 8 → u8 p 4 ≤ 3 → allZero p 5 3 = true → clearsPermitted s = true →
      (∀ hot, s.fio.lost = false → let b := serviceFrame s (BitVec.ofNat 32 (u32 p 0)) (u8 p 4) hot
        ∃ t, exec (.fioClear pair hot) s = .next t ∧ Answered b t pair ⟨0, b2n ((List.finRange 32).any (fun c =>
          (BitVec.ofNat 32 (u32 p 0)).getLsbD c.val && b.fio.chan[c].state == .latched) || b.fio.leftover), []⟩) ∧
      (∀ hot, s.fio.lost = true → ∃ t, exec (.fioClear pair hot) s = .next t ∧ Begun s t pair 0x0704)) ∧
    (Asked s pair (changeCmd 0x0804 2 4) → p.length = 4 → u8 p 2 ≤ 15 → u8 p 3 = 0 → clearsPermitted s = true →
      ∃ t, exec (.safeClear pair) s = .next t ∧ Begun (safeApply s
        (BitVec.ofNat 64 (u8 p 0 * 2 ^ 8 + u8 p 1 * 2 ^ 16 + u8 p 2 * 2 ^ 24)) true) t pair 0x0804) ∧
    (Asked s pair (changeCmd 0x0805 2 4) → p.length = 4 → u8 p 0 ≤ 7 → u8 p 1 ≤ 1 → allZero p 2 2 = true →
      s.weft.own = .bench → unlocked s = true →
      ∃ t, exec (.safeOutRequest pair) s = .next t ∧ Begun (safeApply s (BitVec.ofNat 64 (bitsNum
        ((s.safe.output.toList.map (·.prevOn)).set (u8 p 0) (u8 p 1 == 1)))) false) t pair 0x0805)
  )
  ∧
  (
  ∀ pair s p, payloadOf s pair = p →
    (Asked s pair (changeCmd 0x0902 2 20) → p.length = 20 → ∀ c : Fin 16, u8 p 0 = c.val → 1 ≤ u8 p 1 → u8 p 1 ≤ 64 →
      u8 p 2 ≤ 15 → u8 p 3 ≤ 15 → u8 p 4 ≤ 1 → allZero p 5 3 = true →
      limitsOk (BitVec.ofNat 32 (u32 p 8)).toInt (BitVec.ofNat 32 (u32 p 12)).toInt (u32 p 16) = true →
      let g := s.muslin.chan[c].cfgNext.getD s.muslin.chan[c].cfg
      ∃ t, exec (.anaSetDet pair) s = .next t ∧ Answered (putMu s c { s.muslin.chan[c] with cfgNext := some { g with
        ne := BitVec.ofNat 7 (u8 p 1), attack := BitVec.ofNat 4 (u8 p 2), release := BitVec.ofNat 4 (u8 p 3)
        evtEn := u8 p 4 == 1, high := BitVec.ofNat 32 (u32 p 8), low := BitVec.ofNat 32 (u32 p 12)
        hyst := BitVec.ofNat 23 (u32 p 16) } }) t pair okEmpty) ∧
    (Asked s pair (changeCmd 0x0903 2 4) → p.length = 4 → allZero p 2 2 = true →
      s.weft.own = .bench ∨ s.weft.own = .unconfigured ∨ s.weft.own = .withdrawn →
      ∃ t, exec (.anaSync pair) s = .next t ∧ Answered (muRequest s (u16 p 0)) t pair okEmpty) ∧
    (Asked s pair (changeCmd 0x0A01 2 4) → p.length = 4 → allZero p 1 3 = true →
      (∀ d ∈ [0, 1, 2, 3], field (u8 p 0) (2 * d + 1) (2 * d) ≠ 3) → s.lanes.ramping = 0 →
      ∃ t, exec (.pwrSetPerf pair) s = .next t ∧ Answered (perfWrite s (BitVec.ofNat 32 (u8 p 0))) t pair okEmpty) ∧
    (Asked s pair (changeCmd 0x0A02 2 0) → p.length = 0 → mayMeasure s = true → s.power.measuring = false →
      ∃ t, exec (.pwrHoldupTest pair) s = .next t ∧ Begun { s with
        power := { s.power with measuring := true, testPair := some pair.val } } t pair 0x0A02)
  )

/-- Update and configuration commands (R466, R475, R476, R493): UPD_BEGIN marks the bank WRITING in the directory,
UPD_WRITE and UPD_FINISH run on as long commands, UPD_ABORT leaves the bank INVALID, and the CFG commands fill, finish
or empty the stage. -/
def Obligations.UpdateConfigCommandResult : Prop :=
  ∀ pair s p, payloadOf s pair = p →
    (Asked s pair (changeCmd 0x0B01 2 16) → p.length = 16 → 1024 ≤ u64 p 0 → u64 p 0 ≤ 536870912 → u64 p 0 % 8 = 0 →
      allZero p 12 4 = true → updStates s = true → (bankNow s = .writing → updOther s pair = false) →
      let b := dirBank s .writing
      ∃ t, exec (.updBegin pair) s = .next t ∧ Begun { b with boot := { b.boot with
        updOwner := some pair, written := 0, setSize := u64 p 0, setGen := BitVec.ofNat 32 (u32 p 8) } } t pair 0x0B01) ∧
    (updOpen s = true → updOther s pair = false →
      (Asked s pair ⟨0x0B02, 3, onChanges, true, fun n => decide (16 ≤ n)⟩ → 16 ≤ p.length →
        writeDetail (u64 p 0) (p.length - 8) s.boot.written s.boot.setSize = 0 →
        ∃ t, exec (.updWrite pair) s = .next t ∧ Begun s t pair 0x0B02) ∧
      (Asked s pair (changeCmd 0x0B03 2 32) → p.length = 32 → s.boot.written = s.boot.setSize →
        ∃ t, exec (.updFinish pair) s = .next t ∧ Begun s t pair 0x0B03) ∧
      (Asked s pair (changeCmd 0x0B04 2 0) → p.length = 0 →
        ∃ t, exec (.updAbort pair) s = .next t ∧ Answered (updEnd s .invalid) t pair okEmpty)) ∧
    (Asked s pair (changeCmd 0x0201 2 8) → p.length = 8 → 256 ≤ u32 p 0 → u32 p 0 ≤ 16773120 → u32 p 0 % 8 = 0 →
      allZero p 4 4 = true →
      ∃ t, exec (.cfgStageBegin pair) s = .next t ∧ Answered { s with sec := { s.sec with
        stage := .writing, stageOwner := some pair, stageBytes := [], stageSize := u32 p 0 } } t pair okEmpty) ∧
    (stageOther s pair = false →
      (Asked s pair ⟨0x0202, 3, onChanges, true, fun n => decide (16 ≤ n)⟩ → 16 ≤ p.length → allZero p 4 4 = true →
        s.sec.stage = .writing → writeDetail (u32 p 0) (p.length - 8) s.sec.stageBytes.length s.sec.stageSize = 0 →
        ∃ t, exec (.cfgStageWrite pair) s = .next t ∧ Answered { s with sec := { s.sec with
          stageBytes := s.sec.stageBytes ++ p.drop 8 } } t pair
          (okWith (leBytes 4 (s.sec.stageBytes.length + (p.length - 8))))) ∧
      (Asked s pair (changeCmd 0x0203 2 0) → p.length = 0 → s.sec.stage = .writing →
        s.sec.stageBytes.length = s.sec.stageSize →
        ∃ t, exec (.cfgStageFinish pair) s = .next t ∧ Begun s t pair 0x0203) ∧
      (Asked s pair (changeCmd 0x0205 2 0) → p.length = 0 →
        ∃ t, exec (.cfgDiscard pair) s = .next t ∧ Answered { s with sec := { s.sec with
          stage := .empty, stageOwner := none, stageBytes := [], stageSize := 0 } } t pair okEmpty))

/-- Security, recorder and debug commands (R485, R489, R495, R507): a change set that passes every check runs on as a long
command, one that fails a check is answered with its STATUS and DETAIL; SEC_DEBUG_LOCK ends debug unlock; REC_MARK
records its bytes and answers their SEQ; REC_SET_CFG takes effect; DBG_FREEZE freezes the module. Epoch and voting
commands (R74, R75, R127, R128): what is set waits for the next boundary. -/
def Obligations.SecurityEpochCommandResult : Prop :=
  (
  ∀ pair s p, payloadOf s pair = p →
    (Asked s pair ⟨0x0C06, 3, onChanges, true, fun _ => true⟩ →
      (changeRefusal s p = none → ∃ t, exec (.secSubmitChange pair) s = .next t ∧ Begun s t pair 0x0C06) ∧
      (∀ st d, changeRefusal s p = some (st, d) → ∃ t, exec (.secSubmitChange pair) s = .next t ∧
        (pairAt t pair.val).state = .done ∧
        (pairAt t pair.val).rsp = slotOf (messageBytes (pairAt s pair.val).level.toNat 1 0x0C06
          (requestOf s pair.val).tag st d []) ∧
        (pairAt t pair.val).served = satInc (pairAt s pair.val).served ∧
        Messaged { s with mor := t.mor } t)) ∧
    (Asked s pair (changeCmd 0x0C07 2 0) → p.length = 0 →
      (unlocked s = false → ∃ t, exec (.secDebugLock pair) s = .next t ∧ Answered s t pair okEmpty) ∧
      (unlocked s = true → ∃ t, exec (.secDebugLock pair) s = .next t ∧ (pairAt t pair.val).state = .done ∧
        Messaged { s with dbg := { s.dbg with unlockEnd := none, event := setBit s.dbg.event 2 }, mor := t.mor } t)) ∧
    (Asked s pair (changeCmd 0x0D02 2 16) → p.length = 16 →
      ∃ t, exec (.recMark pair) s = .next t ∧
        Answered (record s 0x10 0xFF05 0xFF (b8 pair.val ++ zeros 3 ++ p)) t pair (okWith (leBytes 8 s.mor.nextSeq.toNat))) ∧
    (Asked s pair (changeCmd 0x0D03 2 4) → p.length = 4 → 10 ≤ u16 p 0 → u16 p 0 ≤ 1000 → 16 ≤ u16 p 2 → u16 p 2 ≤ 4096 →
      ∃ t, exec (.recSetCfg pair) s = .next t ∧ Answered { s with mor := { s.mor with
        flushMs := BitVec.ofNat 16 (u16 p 0), rate := BitVec.ofNat 16 (u16 p 2) } } t pair okEmpty) ∧
    (Asked s pair (changeCmd 0x0D05 2 8) → p.length = 8 → u8 p 0 ≤ 3 → allZero p 1 3 = true → u32 p 4 = 0x5A5A →
      (leavesTooFew s = true → bitOf (u8 p 0) 0 = true ∧ standstill s = true) → unlocked s = true →
      let b := freeze { s with dbg := { s.dbg with frzTb := bitOf (u8 p 0) 1 } } 2
      ∃ t, exec (.dbgFreeze pair) s = .next t ∧ Answered b t pair okEmpty ∧ t.dbg.frozen = true)
  )
  ∧
  (
  ∀ pair s p, payloadOf s pair = p →
    (Asked s pair (readCmd 0x0303 2 4) → p.length = 4 → u8 p 1 ≤ 1 → allZero p 2 2 = true →
      ∃ t, exec (.epochClearCounters pair) s = .next t ∧ Answered { s with epoch := { s.epoch with
        clearReq := some (joinClear s.epoch.clearReq ⟨BitVec.ofNat 8 (u8 p 0), u8 p 1 == 1⟩) } } t pair okEmpty) ∧
    (Asked s pair (readCmd 0x0304 2 4) → p.length = 4 → warnOk s.epoch (u16 p 0) = true → allZero p 2 2 = true →
      ∃ t, exec (.epochSetWarn pair) s = .next t ∧ Answered { s with epoch := { s.epoch with
        warnNext := some (BitVec.ofNat 16 (u16 p 0)) } } t pair okEmpty) ∧
    (Asked s pair (changeCmd 0x0323 2 4) → p.length = 4 → u8 p 0 ≤ 1 → allZero p 1 3 = true → isVoter s = true →
      (leavesTooFew s = true → u8 p 0 = 1 ∧ standstill s = true) →
      ∃ t, exec (.voteWithdraw pair) s = .next t ∧
        Answered { s with weft := { s.weft with withdrawReq := true } } t pair okEmpty) ∧
    (Asked s pair (changeCmd 0x0324 2 0) → p.length = 0 →
      (s.weft.own = .withdrawn → (dirNow s).bank = .valid → ∃ t, exec (.voteRejoin pair) s = .next t ∧
        Answered { s with weft := { s.weft with rejoinReq := true } } t pair okEmpty) ∧
      (s.weft.own = .withdrawn → (dirNow s).bank ≠ .valid → ∃ t, exec (.voteRejoin pair) s = .next t ∧
        Answered s t pair ⟨5, 0, []⟩) ∧
      (s.weft.own = .excluded → s.weft.exclFinal = false →
        ∃ t, exec (.voteRejoin pair) s = .next t ∧ Answered s t pair okEmpty)) ∧
    (Asked s pair (changeCmd 0x0325 2 4) → p.length = 4 → allZero p 2 2 = true →
      ∃ t, exec (.voteResumeGroup pair) s = .next t ∧ Answered { s with weft := { s.weft with
        resumeMask := s.weft.resumeMask ||| BitVec.ofNat 16 (u16 p 0) } } t pair okEmpty) ∧
    (Asked s pair (changeCmd 0x0326 2 4) → p.length = 4 → u8 p 0 ≤ 7 → allZero p 1 3 = true →
      ∃ t, exec (.voteClearCounters pair) s = .next t ∧ Answered { s with weft := { s.weft with
        clearMask := s.weft.clearMask ||| BitVec.ofNat 3 (u8 p 0) } } t pair okEmpty)
  )

/-- The first checks of a request, in their order (R249, Table 7.8): a failed CRC, an inconsistent length, a level that is
not the pair's, and a reserved or forbidden flag are answered with CRC, BAD_LENGTH, VERSION and BAD_PARAM; the command
has no effect. -/
def Obligations.RequestCheckOrder : Prop :=
  ∀ row ∈ ([(.sysGetIdentity, 0x0101), (.sysGetStatus, 0x0102), (.sysRestart, 0x0104), (.sysEcho, 0x0105),
      (.sysSubscribe, 0x0108), (.cfgStageBegin, 0x0201), (.cfgStageWrite, 0x0202), (.epochSetWarn, 0x0304),
      (.voteWithdraw, 0x0323), (.timeSet, 0x0404), (.timeTpoSet, 0x0406), (.netSetPort, 0x0501), (.netGclSet, 0x0503),
      (.routeWrite, 0x0511), (.routeCommit, 0x0512), (.rackClear, 0x0604), (.fioSetChannel, 0x0703), (.safeClear, 0x0804),
      (.anaSetDet, 0x0902), (.pwrSetPerf, 0x0A01), (.updBegin, 0x0B01), (.updWrite, 0x0B02), (.secSubmitChange, 0x0C06),
      (.recMark, 0x0D02), (.dbgFreeze, 0x0D05)] : List ((PairId → Instr) × Nat)),
  ∀ pair s, mboxTurn s = some pair.val → (requestOf s pair.val).command = row.2 →
    let r := requestOf s pair.val
    let own := (pairAt s pair.val).level.toNat
    ∀ st, (r.crcOk = false ∧ st = 10) ∨ (r.crcOk = true ∧ r.lengthOk = false ∧ st = 3) ∨
        (r.crcOk = true ∧ r.lengthOk = true ∧ r.level ≠ own ∧ st = 7) ∨
        (r.crcOk = true ∧ r.lengthOk = true ∧ r.level = own ∧
          (bitOf r.flags 0 = true ∨ bitOf r.flags 2 = true ∨ r.flags / 8 ≠ 0 ∨ r.reserved ≠ 0) ∧ st = 4) →
      ∃ t, exec (row.1 pair) s = .next t ∧ (pairAt t pair.val).state = .done ∧
        (pairAt t pair.val).rsp =
          slotOf (messageBytes (if st = 10 then r.level else own) 1 r.command r.tag st 0 []) ∧
        Messaged s t

/-- Lane faults (R144, R145, R146, R148, R149, R151, R161, Table 4.6): signatures that differ, a comparator that does not
answer, a trailing core that stalls at the full delay, and an unequal rejoin copy each raise their cause. A Selvedge
whose comparators or cores fail stops (R31, R146, R233, R234): the module abstains from the next epoch. -/
def Obligations.LaneSelvedgeFaultResult : Prop :=
  (
  ∀ s l, running s (laneDomain l) = true → (laneOf s l).epochState ≠ .shed → (laneOf s l).epochState ≠ .faulted →
    (∀ a b ra rb, (laneOf s l).l.closed = a :: ra → (laneOf s l).t.closed = b :: rb → a.sig ≠ b.sig →
      ∃ t, exec (.windowCompare (.lane l) none none false) s = .next t ∧ LaneFaulted s t l 7 ∧
        ((laneOf s l).firnFrozen = false → (laneOf t l).firnWseq = a.wseq ∧ (laneOf t l).firnSigL = a.sig ∧
          (laneOf t l).firnSigT = b.sig ∧ (laneOf t l).firnPos = a.start)) ∧
    (∃ t, exec (.cmpRailTimeout (.lane l)) s = .next t ∧ LaneFaulted s t l 1) ∧
    ((laneOf s l).mode = .paired → delayLen (laneOf s l) ≤ lead (laneOf s l) →
      ∃ t, exec (.trailStall (.lane l)) s = .next t ∧ LaneFaulted s t l 8) ∧
    ((laneOf s l).mode = .rejoining → (laneOf s l).epochState = .waitSeal →
      ∃ t, exec (.rejoinCopyDone l false) s = .next t ∧ LaneFaulted s t l 9)
  )
  ∧
  (
  ∀ s, running s 0 = true → s.mbox.failed = false →
    ∀ c ∈ ([.windowCompare .selvedge (some .ne) (some .ne) false, .cmpRailTimeout .selvedge, .trailStall .selvedge] :
        List Instr),
      ∃ t, exec c s = .next t ∧ t.mbox.failed = true ∧ t.weft.abstainNext = true ∧ moduleOk t = false ∧
        faultLow t = true ∧ t = { s with
          mbox := t.mbox, weft := t.weft, boot := t.boot, mor := t.mor, freeCtr := s.freeCtr + 1 }
  )

/-- What a lane does besides instructions and faults (R131, R132, R136, R145, R150, R154, R155, R157, R160, R165, R166,
R169): equal windows are accepted and shown and their gated stores performed; a drain point ends; injection tests
report; a reload starts the lane from its image; a rejoin copies L to T; mode requests, performance levels and the
speed monitor. -/
def Obligations.LaneEventResult : Prop :=
  (∀ s l, running s (laneDomain l) = true →
    (∀ a b ra rb, (laneOf s l).l.closed = a :: ra → (laneOf s l).t.closed = b :: rb → a.sig = b.sig →
      ∃ u, exec (.windowCompare (.lane l) none none false) s = .next (gateRun u l) ∧
        (laneOf u l).l = { (laneOf s l).l with closed := ra } ∧ (laneOf u l).t = { (laneOf s l).t with closed := rb } ∧
        ((laneOf s l).firnFrozen = false → (laneOf u l).firnWseq = a.wseq ∧ (laneOf u l).firnSigL = a.sig ∧
          (laneOf u l).firnSigT = b.sig) ∧
        (∀ l', l' ≠ l → laneOf u l' = laneOf s l') ∧ u = { s with lanes := u.lanes }) ∧
    (let u := gateRun s l
     (laneOf u l).mode = .paired → (laneOf u l).drain.isSome = true → drained (laneOf u l) = true →
      ∃ t, exec (.drainComplete l) s = .next t ∧ (laneOf t l).drain = none ∧ lead (laneOf t l) = 0 ∧
        (∀ l', l' ≠ l → laneOf t l' = laneOf u l') ∧ t = { u with lanes := t.lanes }) ∧
    (∀ d, (laneOf s l).epochState = .faulted → (laneOf s l).testsDue = true →
      ∃ t, exec (.injectionTestsDone l d) s = .next t ∧ (laneOf t l).bistDetected = d ∧ (laneOf t l).testsDue = false ∧
        (laneOf t l).bistPass = (d == 0x3F) ∧
        (d = 0x3F → (laneOf t l).epochState = .faulted ∧ t.lanes.event = s.lanes.event) ∧
        (d ≠ 0x3F → (laneOf t l).disabled = true ∧ (laneOf t l).epochState = .stopped ∧
          t.lanes.event = setBit s.lanes.event (16 + l.val)) ∧
        (∀ l', l' ≠ l → laneOf t l' = laneOf s l') ∧ t = { s with lanes := t.lanes, mor := t.mor }) ∧
    (∀ im, (laneOf s l).image = some im → (laneOf s l).disabled = false → (laneOf s l).testsDue = false →
      (laneOf s l).epochState = .faulted ∨ (laneOf s l).reloading = true →
      ∃ t, exec (.laneReloadDone l) s = .next t ∧ (laneOf t l).epochState = .diverged ∧ (laneOf t l).reloading = false ∧
        (laneOf t l).mode = (if s.lanes.independentActive then .independent else .paired) ∧
        (∀ k ∈ [(laneOf t l).l, (laneOf t l).t], k.g = Vector.replicate 32 0 ∧ k.f = Vector.replicate 32 0 ∧ k.pc = 0 ∧
          k.retired = 0 ∧ k.cr = CtrlRegs.reset ∧ k.itcm = sectionBytes im 0 [] 0 ∧ k.dtcm = sectionBytes im 1 [] 0) ∧
        (∀ l', l' ≠ l → laneOf t l' = laneOf s l') ∧
        t = { s with lanes := t.lanes, mem := t.mem, check := t.check, mbox := t.mbox, epoch := t.epoch, rack := t.rack
                     weft := t.weft }) ∧
    ((laneOf s l).mode = .rejoining → (laneOf s l).epochState = .waitSeal →
      ∃ t, exec (.rejoinCopyDone l true) s = .next t ∧ (laneOf t l).mode = .paired ∧
        (laneOf t l).epochState = (if (laneOf s l).sealSeen then .compute else .waitSeal) ∧
        (laneOf t l).t.g = (laneOf s l).l.g ∧ (laneOf t l).t.f = (laneOf s l).l.f ∧
        (laneOf t l).t.itcm = (laneOf s l).l.itcm ∧ (laneOf t l).t.dtcm = (laneOf s l).l.dtcm ∧
        (laneOf t l).t.cr = (laneOf t l).l.cr ∧ (laneOf t l).t.pc = (laneOf t l).l.pc ∧
        t.lanes.event = setBit s.lanes.event (24 + l.val) ∧ (∀ l', l' ≠ l → laneOf t l' = laneOf s l') ∧
        t = { s with lanes := t.lanes, check := t.check }) ∧
    (∀ data : U32, s.lanes.independentActive = false →
      data.toNat % 4 = 0 ∨ (data.toNat % 4 = 1 ∧ (laneOf s l).splitAllowed = true) →
      exec (.modeReqWrite l data) s = .next (putLane s l { laneOf s l with modeReq := BitVec.ofNat 2 (data.toNat % 4) }))) ∧
  (∀ s l, running s 0 = true →
    (∀ (test : Nat) (data : U32) hit, (laneOf s l).epochState = .stopped → 1 ≤ test → test ≤ 6 → data.toNat % 8 = test →
      data.getLsbD 3 = true →
      ∃ t, exec (.firnInject l data hit) s = .next t ∧ (laneOf t l).bistDone = true ∧
        (laneOf t l).bistLast = BitVec.ofNat 3 test ∧ (laneOf t l).bistDetected.getLsbD (test - 1) = hit ∧
        (hit = false → (laneOf t l).disabled = true) ∧ (∀ l', l' ≠ l → laneOf t l' = laneOf s l') ∧
        t = { s with lanes := t.lanes, mor := t.mor }) ∧
    exec (.laneSpeedRead l) s = .next { putLane s l { laneOf s l with l := { (laneOf s l).l with speedMin := 0xFFFF } } with
      readData := BitVec.ofNat 32 ((laneOf s l).l.speedCur.toNat + 65536 * (laneOf s l).l.speedMin.toNat) } ∧
    (∀ data : U32, ∃ t, exec (.lanePerfWrite data) s = .next t ∧
      (∀ d : Fin 4, let old := s.lanes.perf.toNat / 4 ^ d.val % 4
        let new := data.toNat / 4 ^ d.val % 4
        t.lanes.perf.toNat / 4 ^ d.val % 4 = (if new = 3 then old else new) ∧
        t.lanes.ramping.getLsbD d.val = (s.lanes.ramping.getLsbD d.val || (new != 3 && new != old))) ∧
      t = { s with lanes := { s.lanes with perf := t.lanes.perf, ramping := t.lanes.ramping } })) ∧
  (∀ s, (∀ d : Fin 4, powered s (3 + d.val) = true → exec (.perfRampDone d) s = .next { s with
      lanes := { s.lanes with ramping := clearBit s.lanes.ramping d.val } }) ∧
    (∃ t, exec .speedInterval s = .next t ∧
      (∀ l, running s (laneDomain l) = true →
        let computed := (laneOf s l).computed || decide ((laneOf s l).epochState = .compute)
        (laneOf t l).l = speedCore (laneOf s l).l computed ∧ (laneOf t l).t = speedCore (laneOf s l).t computed ∧
        (laneOf t l).computed = decide ((laneOf s l).epochState = .compute)) ∧
      (∀ l, t.lanes.event.getLsbD l.val =
        (s.lanes.event.getLsbD l.val || (running s (laneDomain l) && speedLow s (laneOf s l)))) ∧
      t = { s with lanes := { s.lanes with lane := t.lanes.lane, event := t.lanes.event } }))

/-- A commit that completes before D_c (R55, R157, Table 2.8): it is accepted, and a PAIRED lane in COMPUTE is COMMITTED;
one that completes at D_c or later is refused. The asynchronous exceptions (R135, R195, R196, R198): taken where they
are due, with the PC in EPC and the vector at VBASE + 0xC0; their pending bit is cleared, and COMMIT_LATE clears a
pending BUDGET_EXHAUSTED with its own. The trailing core of a PAIRED lane takes the entry that the Drift queue holds
(R140), and an entry of wrong parity raises DRIFT_PARITY. -/
def Obligations.CommitAndAsyncEntry : Prop :=
  (
  ∀ s c, laneRuns s c.lane = true → (laneOf s c.lane).gate = [] → (laneOf s c.lane).readStale = false →
    commitDone (laneOf s c.lane) c.core = true → commitRejected (laneOf s c.lane) c.core = false →
    ∃ t, exec (.commit c) s = .next t ∧ (coreAt t c).committed = decide (tb2 s < deadlineNs s.epoch) ∧
      (coreAt t c).yieldCommit = false ∧
      ((laneOf s c.lane).mode = .paired → tb2 s < deadlineNs s.epoch → (laneOf s c.lane).epochState = .compute →
        (laneOf t c.lane).epochState = .committed ∧ (laneOf t c.lane).modeTaken = (laneOf s c.lane).modeReq) ∧
      (deadlineNs s.epoch ≤ tb2 s → (laneOf t c.lane).epochState = (laneOf s c.lane).epochState) ∧
      (∀ l, l ≠ c.lane → laneOf t l = laneOf s l) ∧ t = { s with lanes := t.lanes }
  )
  ∧
  (
  ∀ c s, coreReady s c = true → driftFull s c 1 = false →
    let k := coreAt s c
    let ln := laneOf s c.lane
    let right := ln.mode = .paired → c.core = .trailing → ∃ e rest, ln.drift = e :: rest ∧
      e.parity = driftParity e.data e.kind e.seq ∧ ∀ m ∈ rest.head?, m.kind.toNat ≠ 6
    let entry := fun (code : Nat) (keep : BitVec 5) (k' : Core) => { k' with
      pc := k.cr.vbase + 0xC0
      cr := { k.cr with
        epc := k.pc, cause := BitVec.ofNat 9 (code + 256), eval := 0
        status := ((k.cr.status &&& 0b11000) ||| 0b00101 ||| (if isSup k then 0b00010 else 0)) &&& keep } }
    (asyncDue s c = some 0x10 → right → ∃ t, exec (.budgetExhaustedTaken c) s = .next t ∧
      archOf (coreAt t c) = archOf (entry 0x10 0b10111 { k with bexTaken := true }) ∧
      coreAt t (otherCore c) = coreAt s (otherCore c) ∧ (∀ l, l ≠ c.lane → laneOf t l = laneOf s l) ∧
      laneOf t c.lane = { ln with l := (laneOf t c.lane).l, t := (laneOf t c.lane).t, drift := (laneOf t c.lane).drift
                                  driftPeak := (laneOf t c.lane).driftPeak } ∧
      t = { s with lanes := t.lanes }) ∧
    (asyncDue s c = some 0x11 → right → ∃ t, exec (.commitLateTaken c) s = .next t ∧
      archOf (coreAt t c) = archOf (entry 0x11 0b00111 { k with cadTaken := true }) ∧
      coreAt t (otherCore c) = coreAt s (otherCore c) ∧ (∀ l, l ≠ c.lane → laneOf t l = laneOf s l) ∧
      laneOf t c.lane = { ln with l := (laneOf t c.lane).l, t := (laneOf t c.lane).t, drift := (laneOf t c.lane).drift
                                  driftPeak := (laneOf t c.lane).driftPeak } ∧
      t = { s with lanes := t.lanes }) ∧
    (∀ e rest, ln.mode = .paired → c.core = .trailing → ln.drift = e :: rest → e.parity ≠ driftParity e.data e.kind e.seq →
      (asyncDue s c = some 0x10 → ∃ t, exec (.budgetExhaustedTaken c) s = .next t ∧ LaneFaulted s t c.lane 5) ∧
      (asyncDue s c = some 0x11 → ∃ t, exec (.commitLateTaken c) s = .next t ∧ LaneFaulted s t c.lane 5))
  )

/-- A boundary (R37, R38, R40, R45, Table 2.15): once TB2 has reached B(next), and no step has taken it away again, epoch
`next` begins in phase EXCHANGE, unsealed, with the warning lead that was set for it. -/
def Obligations.BoundaryResult : Prop :=
  ∀ s, running s 2 = true → s.epoch.running = true → s.epoch.resync = true ∨ s.epoch.phase = .release →
    let w := passUntil s 2 (s.epoch.next * epochNs s.epoch)
    let u := syncServo w
    reached w 2 (s.epoch.next * epochNs s.epoch) = true →
    (reached u 2 (u.epoch.next * epochNs u.epoch) = true → ∃ t, exec .boundary s = .next t ∧
      t.epoch.no = BitVec.ofNat 64 u.epoch.next ∧ t.epoch.next = u.epoch.next + 1 ∧ t.epoch.phase = .exchange ∧
      t.epoch.resync = false ∧ t.epoch.sealed = false ∧ t.epoch.rawClosed = false ∧ t.epoch.exchanged = false ∧
      t.epoch.sourced = false ∧ t.epoch.warnLead = u.epoch.warnNext.getD u.epoch.warnLead ∧ t.epoch.warnNext = none ∧
      t.epoch.clearReq = none ∧ t.weft.withdrawReq = false ∧ t.weft.rejoinReq = false) ∧
    (reached u 2 (u.epoch.next * epochNs u.epoch) = false → exec .boundary s = .next u)

/-- The instants of an epoch up to the seal (R41, R42, R85, R88, R89, R90, R107, R108, R160, R191): raw close, the end of
the condemn lines, exchange end, source set and seal, each at its time of TB2, where no image that they read holds a
wrong word (R225). A CDN_IN line that has been stuck high keeps a level that the spec leaves open (log entry 69). -/
def Obligations.ExchangeInstants : Prop :=
  ∀ s u, s.mem.upsets = [] →
    (Instant s u (boundaryNs s.epoch + 2000) → s.epoch.phase = .exchange → s.epoch.rawClosed = false →
      ∃ t, exec .rawClose s = .next t ∧ t.epoch.rawClosed = true ∧ t.epoch.closing = [] ∧
        t.mem = (closeRaw u).mem ∧ t.epoch.rawBytes = (closeRaw u).epoch.rawBytes ∧
        t = { u with mem := t.mem, epoch := t.epoch, mbox := t.mbox, weft := t.weft
                     pkt := { u.pkt with port := t.pkt.port, svcSent := t.pkt.svcSent } }) ∧
    (Instant s u (boundaryNs s.epoch + 20000) → s.epoch.phase = .exchange →
      ∃ t, exec .cdnOutRelease s = .next t ∧
        (∀ sd, linkOf t sd = { linkOf u sd with cdnOut := false, cdnIn := (linkOf t sd).cdnIn, condemnedBy := false } ∧
          ((linkOf s sd).cdnStuck = false ∨ (linkOf s sd).cdnIn = false → (linkOf t sd).cdnIn = false)) ∧
        (isVoter s = true → (linkOf s .a).condemnedBy ≠ (linkOf s .b).condemnedBy →
          t.weft.event = setBit s.weft.event 7) ∧
        (isVoter s = false ∨ (linkOf s .a).condemnedBy = (linkOf s .b).condemnedBy → t.weft.event = s.weft.event) ∧
        t = { u with weft := { u.weft with a := t.weft.a, b := t.weft.b, event := t.weft.event }, mor := t.mor
                     freeCtr := s.freeCtr + 2 }) ∧
    (Instant s u (boundaryNs s.epoch + exchangeUs s.epoch * 1000) → s.epoch.rawClosed = true → s.epoch.exchanged = false →
      ∃ t, exec .exchangeEnd s = .next t ∧ t.epoch = { u.epoch with exchanged := true } ∧
        (∀ sd, (linkOf t sd).rawOk = rawComplete u sd) ∧
        t = { u with weft := t.weft, epoch := t.epoch }) ∧
    (Instant s u (boundaryNs s.epoch + exchangeUs s.epoch * 1000 + 4000) → s.epoch.exchanged = true →
      s.epoch.sourced = false →
      let out := isVoter u && !inMask (sourceSet u) u.slot.toNat
      let lacks := !(maskSlots (sourceSet u)).all (fun x => inMask (receivedMask u) x)
      ∃ t, exec .sourceSetCompute s = .next t ∧ t.epoch.sourced = true ∧ t.weft.sources = sourceSet u ∧
        t.weft.outOfSet = out ∧
        ((out || lacks) = true → t.epoch.abstainAll = true ∧ ∀ l, (laneOf t l).readStale = true) ∧
        ((out || lacks) = false → t.epoch.abstainAll = s.epoch.abstainAll ∧ t.lanes = u.lanes) ∧
        t = { u with lanes := t.lanes, weft := t.weft, epoch := t.epoch }) ∧
    (running s 2 = true → s.epoch.running = true → s.epoch.resync = false → s.epoch.sourced = true →
      s.epoch.sealed = false → s.epoch.phase = .exchange →
      ∃ t, exec .seal s = .next t ∧ t.epoch.sealed = true ∧ t.epoch.phase = .compute ∧
        t.mem.cons = (consolidate s (sourceImages s) (if bench s then 0 else s.weft.sources.toNat)).1 ∧
        (∀ l, (laneOf s l).epochState = .waitSeal → (laneOf s l).mode ≠ .rejoining →
          (laneOf t l).epochState = .compute ∧ ∀ c, let k := coreAt s ⟨l, c⟩
            archOf (coreAt t ⟨l, c⟩) = archOf { k with suspended := false, pc := k.cr.vbase
                                                       cr := { k.cr with epc := k.pc, cause := 0, eval := 0
                                                                         status := (k.cr.status &&& 0b11000) ||| 0b00011 } }) ∧
        (∀ l, (laneOf s l).epochState = .waitSeal → (laneOf s l).mode = .rejoining →
          laneOf t l = { laneOf s l with sealSeen := true }) ∧
        (∀ l, (laneOf s l).epochState ≠ .waitSeal → laneOf t l = laneOf s l) ∧
        t = { s with lanes := t.lanes, mem := { s.mem with cons := t.mem.cons }, epoch := t.epoch, check := t.check }) ∧
    (Instant s u (boundaryNs s.epoch + epochNs s.epoch / 2) →
      ∃ t, exec .tb2SyncSend s = .next t ∧
        (∀ sd, (linkOf s sd).state = .up → ∃ f ∈ (linkOf t sd).txq, f.type = 0x04 ∧ f.payload = zeros 12) ∧
        (∀ sd, (linkOf s sd).state ≠ .up → linkOf t sd = linkOf u sd) ∧
        t = { u with weft := { u.weft with a := t.weft.a, b := t.weft.b } })

/-- The instants of an epoch from the warning to the vote (R62, R68, R69, R99, R102, R104, R113, R196, Table 2.8): pending
BUDGET_EXHAUSTED, the commit deadline, the digests and their deadline, the vote, and the start of the active role,
where no memory that is read holds a wrong word (R225 to R227). A holder that starts announces its unit addresses
(R296). -/
def Obligations.CommitVoteInstants : Prop :=
  ∀ s u, s.mem.upsets = [] →
    (Instant s u (warningNs s.epoch) → s.epoch.phase = .compute →
      ∃ t, exec .budgetWarning s = .next t ∧
        (∀ l, (laneOf s l).epochState ≠ .compute → laneOf t l = laneOf s l) ∧
        (∀ l c, (laneOf s l).epochState = .compute → let k := coreAt s ⟨l, c⟩
          coreAt t ⟨l, c⟩ = if k.suspended || k.bexTaken then k
            else { k with cr := { k.cr with status := k.cr.status ||| 0b01000 } }) ∧
        t = { u with lanes := t.lanes }) ∧
    (Instant s u (deadlineNs s.epoch) → s.epoch.phase = .exchange ∨ s.epoch.phase = .compute →
      ∃ t, exec .commitDeadline s = .next t ∧ t.epoch.phase = .digest ∧
        (∀ l, (laneOf s l).epochState = .compute → (laneOf t l).epochState = .late ∧
          ((laneOf s l).staleRejected = false → (laneOf t l).ovrCnt = satInc (laneOf s l).ovrCnt ∧
            t.epoch.event.getLsbD l.val = true) ∧
          ∀ c, (coreAt s ⟨l, c⟩).suspended = false → (coreAt t ⟨l, c⟩).cr.status = (coreAt s ⟨l, c⟩).cr.status ||| 0b10000) ∧
        (∀ l, (laneOf s l).epochState ≠ .compute → (laneOf s l).epochState ≠ .late → laneOf t l = laneOf s l) ∧
        t = { u with lanes := t.lanes, weft := t.weft, epoch := t.epoch, mor := t.mor }) ∧
    (∀ l : LaneId, running s 2 = true → s.epoch.running = true → s.epoch.resync = false →
      s.epoch.phase = .compute ∨ s.epoch.phase = .digest → (groupsOf s l).any (digestDue s) = true →
      s.weft.ownFrame = none →
      ∃ t, exec (.digestReady l) s = .next t ∧
        (∀ (g : GroupId) d, groupOn s g = some d → d.lane = l → digestDue s g = true →
          t.weft.ownDigest[g] = some (groupDigest s g d)) ∧
        (∀ (g : GroupId), g ∉ groupsOf s l → t.weft.ownDigest[g] = s.weft.ownDigest[g]) ∧ t = { s with weft := t.weft }) ∧
    (Instant s u (boundaryNs s.epoch + epochNs s.epoch - 6000) → s.epoch.phase = .digest → s.weft.stopped = false →
      s.rack.mute = false →
      ∃ t, exec .ownDigestDeadline s = .next t ∧ t.weft.ownFrame.isSome = true ∧
        (∀ g : GroupId, g ∈ digestMissing s → t.epoch.abstainGroups.getLsbD g.val = true) ∧
        (digestMissing s = [] → t.epoch = u.epoch) ∧ t = { u with weft := t.weft, epoch := t.epoch }) ∧
    (Instant s u (boundaryNs s.epoch + epochNs s.epoch - 2000) → s.epoch.phase = .digest →
      ∃ t, exec .voteClose s = .next t ∧ t.epoch = { u.epoch with phase := .release } ∧
        (∀ g : GroupId, t.weft.outcome[g] = (outcomeOf u g).1) ∧ t.weft.auditOutcome = (voteAudit u).1 ∧
        (t.weft.disagreeRun ≠ 0 → isVoter s = true ∧ (maskSlots s.weft.voters).length = 2) ∧
        t = { u with lanes := t.lanes, weft := t.weft, epoch := t.epoch }) ∧
    (running s 2 = true → mayStartRole s = true →
      ∃ t, exec .roleStart s = .next t ∧ t.weft = { s.weft with roleStarted := true } ∧ t.lanes = s.lanes ∧
        t.mem = { s.mem with dram := t.mem.dram } ∧ t.time = s.time ∧ t.fio = s.fio ∧ t.safe = s.safe ∧
        (∀ p : Fin 4, s.pkt.port[p].en = true → s.pkt.port[p].shed = false → s.pkt.port[p].unitIp ≠ 0 →
          ∃ f ∈ t.pkt.port[p].queue[0], f.bytes.take 6 = List.replicate 6 0xFF))

/-- Condemnation, self-exclusion and UNIT_SAFE (R107, R108, R109, R111): a line or a frame of one sibling is noted, both
of them exclude the module, and a UNIT_SAFE frame makes it enter that state. -/
def Obligations.CondemnResult : Prop :=
  (∀ s sd, running s 2 = true →
    let k := linkOf s sd
    (isVoter s = true → k.cdnStuck = false → k.state ≠ .stranger → inCondemnWindow s = true → k.condemnedBy = false →
      ∃ t, exec (.cdnInHigh sd) s = .next t ∧ (linkOf t sd).cdnIn = true ∧ (linkOf t sd).condemnedBy = true ∧
        t.weft.condemnedEpoch = true ∧
        ((∀ o, o ≠ sd → (linkOf s o).condemnedBy = false) → t.weft.own = .voter ∧ t = { s with weft := t.weft }) ∧
        ((∀ o, o ≠ sd → (linkOf s o).condemnedBy = true) → t.weft.own = .excluded ∧ t.weft.roleStarted = false ∧
          inMask t.weft.voters s.slot.toNat = false ∧
          (t.weft.exclFinal = false → ∀ l, (laneOf t l).reloading = ((laneOf s l).reloading ||
            (!(laneOf s l).disabled && (laneOf s l).image.isSome))))) ∧
    (isVoter s = false → ∃ t, exec (.cdnInHigh sd) s = .next t ∧ linkOf t sd = { k with cdnIn := true } ∧ LinkOnly s t sd) ∧
    (k.cdnStuck = false →
      ∃ t, exec (.cdnInStuck sd) s = .next t ∧
        linkOf t sd = { k with cdnIn := true, cdnStuck := true, cdnLowEpochs := 0 } ∧ (∀ o, o ≠ sd → linkOf t o = linkOf s o) ∧ t = { s with weft := t.weft, mor := t.mor })) ∧
  (∀ s u sd h p, Arrived s u sd h p →
    ((linkOf s sd).state = .up → p.length = 16 → isVoter u = true → leAt p 8 1 = u.slot.toNat → condemnWindow u (leAt p 0 8) = true →
      (linkOf u sd).condemnedBy = false →
      ∃ t, exec (.weftCondemn sd h p) s = .next t ∧ (linkOf t sd).condemnedBy = true ∧ t.weft.condemnedEpoch = true) ∧
    ((linkOf s sd).state = .up ∨ (linkOf s sd).state = .stranger → p.length = 8 → u.weft.own ≠ .unitSafe →
      ∃ t, exec (.weftUnitSafe sd h p) s = .next t ∧ t.weft.own = .unitSafe ∧ (linkOf t sd).unitSafe = true ∧
        t.weft.roleStarted = false ∧ inMask t.weft.voters s.slot.toNat = false))

/-- Link-up and the ways down (R80, R81, R82, R83, Tables 3.3 and 3.4): block lock starts NEGOTIATE with a HELLO and a
fresh nonce; training, timeout and retry; loss of lock, 16 frames with a bad CRC and two silent epochs take the link
DOWN. A frame that leaves carries its transmit stamp, which lies after the last tick of TB2 by a part that the spec
leaves open (log entry 49); a frame that is discarded is counted, and one whose CRC was right ends a run of CRC
failures (R81). -/
def Obligations.WeftLinkResult : Prop :=
  ∀ s sd, running s 2 = true →
    let k := linkOf s sd
    let negotiated := fun (t : State) => (linkOf t sd).state = .negotiate ∧ (linkOf t sd).txSeq = 0 ∧ (linkOf t sd).rxSeq = 0 ∧
      (∃ f, (linkOf t sd).txq = [f] ∧ f.type = 0x01 ∧ f.payload = helloBytes s (freeBytes s 32)) ∧
      (linkOf t sd).nonceSent = freeBytes s 32 ∧ (∀ o, o ≠ sd → linkOf t o = linkOf s o) ∧
      t = { s with weft := t.weft, freeCtr := s.freeCtr + 1 }
    let isDown := fun (t : State) => (linkOf t sd).state = .down ∧ (linkOf t sd).txq = [] ∧
      (linkOf t sd).crcErr = k.crcErr ∧ t.weft.event = setBit s.weft.event (sideBit sd) ∧
      (∀ o, o ≠ sd → linkOf t o = linkOf s o) ∧ t = { s with weft := t.weft, mor := t.mor }
    (linkAllowed s sd = true → k.state = .training ∨ k.state = .down →
      ∃ t, exec (.weftBlockLock sd) s = .next t ∧ negotiated t) ∧
    (k.state = .negotiate ∨ k.state = .identity ∨ k.state = .time →
      ∃ t, exec (.weftLinkupTimeout sd) s = .next t ∧ negotiated t) ∧
    (linkAllowed s sd = true → k.state = .down →
      ∃ t, exec (.weftRetrain sd) s = .next t ∧ linkOf t sd = { k with state := .training } ∧ LinkOnly s t sd) ∧
    (linkAllowed s sd = true → k.state = .refused →
      ∃ t, exec (.weftRefusedRetry sd) s = .next t ∧ (linkOf t sd).state = .training ∧ LinkOnly s t sd) ∧
    (k.state ≠ .down → ∃ t, exec (.weftLockLost sd) s = .next t ∧ isDown t) ∧
    (k.state ≠ .down → 16 ≤ k.crcRun → ∃ t, exec (.weftCrcRunDown sd) s = .next t ∧ isDown t) ∧
    (k.state ≠ .down → 2 ≤ k.silentEpochs → ∃ t, exec (.weftSilenceDown sd) s = .next t ∧ isDown t) ∧
    (k.state = .time → k.syncRounds < 8 →
      ∃ t f, exec (.linkupTb2Round sd) s = .next t ∧ linkOf t sd = { k with txq := k.txq ++ [f] } ∧ f.type = 0x04 ∧
        f.payload = zeros 12 ∧ LinkOnly s t sd) ∧
    (∀ f, nextFrame s k = some f → linkSends k = true →
      ∃ t at', tb2Stamp s ≤ at' ∧ exec (.weftFrameSend sd) s = .next t ∧ (linkOf t sd).txq = k.txq.erase f ∧
        (f.resend = false → (linkOf t sd).txSeq = k.txSeq + 1 ∧ (linkOf t sd).retx = k.retx ∧
          (linkOf t sd).lastFrame = frameBytes k (stamped { f with seq := k.txSeq } at')) ∧
        (f.resend = true → (linkOf t sd).txSeq = k.txSeq ∧ (linkOf t sd).retx = satInc k.retx ∧
          (linkOf t sd).lastFrame = frameBytes k (stamped f at')) ∧
        LinkOnly { s with freeCtr := s.freeCtr + 1 } t sd) ∧
    (∀ why, linkSends k = true →
      ∃ t, exec (.weftFrameDiscard sd why) s = .next t ∧ (linkOf t sd).crcErr = satInc k.crcErr ∧
        (why = .badCrc → (linkOf t sd).crcRun = k.crcRun + 1) ∧
        (why ≠ .badCrc → (linkOf t sd).crcRun = 0 ∧ (linkOf t sd).intact = true) ∧ LinkOnly s t sd)

/-- Frames of link-up, identity and time (R80, R83, R84, R85, Tables 3.4 and 3.5): HELLO negotiates or refuses, IDENT is
judged against the registry and answered, IDENT_RESULT completes the identity step, TB2_SYNC is answered or gives the
offset, and NAK has the frames from its SEQ on sent again. -/
def Obligations.WeftSessionFrames : Prop :=
  ∀ s u sd h p, Arrived s u sd h p →
    let k := linkOf u sd
    (p.length = 48 → (linkOf s sd).state = .negotiate →
      (helloFits u sd (helloOf p) = true → ∃ t, exec (.weftHello sd h p) s = .next t ∧ (linkOf t sd).state = .identity ∧
        (linkOf t sd).level = BitVec.ofNat 4 (min (ownLevel u) (helloOf p).levelMax) ∧
        (linkOf t sd).nonceGot = (helloOf p).nonce ∧ (linkOf t sd).peerGen = (helloOf p).imageGen ∧
        (∃ f ∈ (linkOf t sd).txq, f.type = 0x02) ∧ LinkOnly u t sd) ∧
      (helloFits u sd (helloOf p) = false → ∃ t, exec (.weftHello sd h p) s = .next t ∧
        (linkOf t sd).state = .refused ∧ t.weft.event = setBit u.weft.event 16 ∧
        (∀ o, o ≠ sd → linkOf t o = linkOf u o) ∧ t = { u with weft := t.weft, mor := t.mor })) ∧
    (p.length = 48 → (linkOf s sd).state = .up → (helloOf p).slot = sideSlot u sd →
      ∃ t, exec (.weftHello sd h p) s = .next t ∧ linkOf t sd = notePeer k (helloOf p) ∧ LinkOnly u t sd) ∧
    (p.length = 96 → (linkOf s sd).state = .identity →
      ∃ t, exec (.weftIdent sd h p) s = .next t ∧
        (linkOf t sd).identOk = some (identAccepts u sd (p.take 32) (p.drop 32)) ∧
        (∃ f ∈ (linkOf t sd).txq, f.type = 0x03 ∧
          f.payload = [BitVec.ofNat 8 (b2n (identAccepts u sd (p.take 32) (p.drop 32))), 0, 0, 0]) ∧
        (linkOf t sd).state = (if k.identResult.isSome then .time else .identity) ∧
        (∀ o, o ≠ sd → linkOf t o = linkOf u o) ∧ t = { u with weft := t.weft, sec := t.sec }) ∧
    (p.length = 4 → (linkOf s sd).state = .identity →
      ∃ t, exec (.weftIdentResult sd h p) s = .next t ∧ (linkOf t sd).identResult = some (leAt p 0 1 == 1) ∧
        (linkOf t sd).state = (if k.identOk.isSome then .time else .identity) ∧
        (∀ o, o ≠ sd → linkOf t o = linkOf u o) ∧ t = { u with weft := t.weft }) ∧
    (p.length = 12 → (linkOf s sd).state = .time ∨ (linkOf s sd).state = .identity ∨ (linkOf s sd).state = .up ∨
        (linkOf s sd).state = .stranger →
      ∃ t f at', tb2Stamp u ≤ at' ∧ exec (.weftTb2Sync sd h p) s = .next t ∧ linkOf t sd = { k with txq := k.txq ++ [f] } ∧
        f.type = 0x04 ∧ f.payload = p ++ stampBytes at' ++ zeros 12 ∧ LinkOnly { u with freeCtr := u.freeCtr + 1 } t sd) ∧
    (p.length = 36 → (linkOf s sd).state = .time ∨ (linkOf s sd).state = .up → k.t1 = some (leAt p 0 12) →
      ∃ t at', tb2Stamp u ≤ at' ∧ exec (.weftTb2Sync sd h p) s = .next t ∧ (linkOf t sd).t1 = none ∧
        (linkOf t sd).thetaValid = true ∧
        (linkOf t sd).theta = (((leAt p 12 12 : Int) - leAt p 0 12) - ((at' : Int) - leAt p 24 12)) / 2) ∧
    (p.length = 4 → (linkOf s sd).state = .up → k.level = 3 →
      ∃ t, exec (.weftNak sd h p) s = .next t ∧
        (∀ f ∈ k.sent, (f.seq = BitVec.ofNat 32 (leAt p 0 4) ∨ seqAfter (BitVec.ofNat 32 (leAt p 0 4)) f.seq = true) →
          meetsDeadline u f = true → f.epochLo = lo32 u.epoch.no → { f with resend := true } ∈ (linkOf t sd).txq) ∧
        (∀ f ∈ k.txq, f ∈ (linkOf t sd).txq) ∧ (∃ q, linkOf t sd = { k with txq := q }) ∧ LinkOnly u t sd) ∧
    ((linkOf s sd).state = .up → servesPair u (22 + sideBit sd) = true → bitOf (leAt p 1 1) 0 = false →
      exec (.weftMailbox sd h p) s = .next (mboxArrive u (22 + sideBit sd) ⟨0, 0⟩ none p))

/-- Frames of an epoch (R69, R78, R84, R88, R101, R123, R125): on a link that is UP, a part of the sibling's raw image,
its RX_REPORT, its DIGEST and a block of retained state are taken in the epoch they belong to, until the exchange end,
the source set, V_c and the exchange end; later ones of the epoch have no effect, but that a digest then sets
LATE_DIGEST. A frame of another epoch, or of another length, is discarded and counted. A STRANGER's digest is logged,
never counted. -/
def Obligations.WeftEpochFrames : Prop :=
  ∀ s u sd h p, Arrived s u sd h p →
    let k := linkOf u sd
    let discarded := fun (b t : State) => linkOf t sd = { k with crcErr := satInc k.crcErr } ∧ LinkOnly b t sd
    let late := epochEvent u 17
    ((linkOf s sd).state = .up → h.epochLo = lo32 u.epoch.no →
      (4 < p.length → u.epoch.exchanged = false → leAt p 0 4 + (p.length - 4) ≤ 0x400000 →
        ∃ t, exec (.weftRaw sd h p) s = .next t ∧
          sideImage t sd = memWrite (sideImage u sd) (leAt p 0 4) (p.drop 4) ∧
          linkOf t sd = { k with rawParts := k.rawParts ++ [(leAt p 0 4, p.length - 4)] } ∧
          (∀ o, o ≠ sd → sideImage t o = sideImage u o ∧ linkOf t o = linkOf u o) ∧
          t = { u with weft := { u.weft with a := t.weft.a, b := t.weft.b }
                       mem := { u.mem with rawA := t.mem.rawA, rawB := t.mem.rawB } }) ∧
      (4 < p.length → u.epoch.exchanged = true → exec (.weftRaw sd h p) s = .next u) ∧
      (p.length = 12 → leAt p 0 8 = u.epoch.no.toNat →
        (u.epoch.sourced = false → ∃ t, exec (.weftRxReport sd h p) s = .next t ∧
          linkOf t sd = { k with rxReport := some (BitVec.ofNat 3 (leAt p 8 1)) } ∧ LinkOnly u t sd) ∧
        (u.epoch.sourced = true → exec (.weftRxReport sd h p) s = .next u)) ∧
      (p.length = 152 → leAt p 0 8 = u.epoch.no.toNat → u.epoch.phase ≠ .release →
        ∃ t d, exec (.weftDigest sd h p) s = .next t ∧ linkOf t sd = { k with digest := some d, peerGen := d.imageGen } ∧
          d.epochNo.toNat = leAt p 0 8 ∧ d.imageGen.toNat = leAt p 8 4 ∧ d.offered.toNat = leAt p 12 2 ∧
          d.flags.toNat = leAt p 14 1 ∧ d.slice.toNat = leAt p 15 1 ∧
          (∀ g : Fin 16, d.digest[g].toNat = leAt p (16 + 8 * g.val) 8) ∧ d.audit.toNat = leAt p 144 8 ∧
          (∀ o, o ≠ sd → linkOf t o = linkOf u o) ∧
          t.weft.cuComplete = (u.weft.cuComplete || (bitOf (leAt p 14 1) 6 && u.weft.cuReceiver
            && u.weft.cuPeer.toNat == sideSlot u sd)) ∧
          t = { u with weft := { u.weft with a := t.weft.a, b := t.weft.b, cuComplete := t.weft.cuComplete } }) ∧
      (p.length = 1032 → u.weft.cuReceiver = true → u.weft.cuPeer.toNat = sideSlot u sd → u.epoch.exchanged = false →
        leAt p 0 2 < 256 → leAt p 2 1 < 4 →
        let at' := leAt p 0 2 * 4096 + leAt p 2 1 * 1024
        let again := u.weft.cuAgain = true ∨ ∃ l, (laneOf u l).resend = true ∧ leAt p 0 2 ∈ laneBlocks (laneOf u l)
        (¬ again → ∃ t, exec (.weftCatchup sd h p) s = .next t ∧ memBytes t.mem.retained at' 1024 = p.drop 8 ∧
          (∀ a, a < at' ∨ at' + 1024 ≤ a → memGet t.mem.retained a = memGet u.mem.retained a) ∧
          t = { u with mem := { u.mem with retained := t.mem.retained } }) ∧
        (again → exec (.weftCatchup sd h p) s = .next { u with
          weft := { u.weft with cuStaged := u.weft.cuStaged ++ [(at', p.drop 8)] } }))) ∧
    ((linkOf s sd).state = .up ∨ (linkOf s sd).state = .stranger → p.length = 152 →
      (h.epochLo = lo32 u.epoch.no → leAt p 0 8 = u.epoch.no.toNat → u.epoch.phase = .release →
        exec (.weftDigest sd h p) s = .next late) ∧
      (h.epochLo ≠ lo32 u.epoch.no → leAt p 0 8 + 1 = u.epoch.no.toNat →
        ∃ t, exec (.weftDigest sd h p) s = .next t ∧ discarded late t) ∧
      (h.epochLo ≠ lo32 u.epoch.no → leAt p 0 8 + 1 ≠ u.epoch.no.toNat → leAt p 0 8 ≠ u.epoch.no.toNat →
        ∃ t, exec (.weftDigest sd h p) s = .next t ∧ discarded u t)) ∧
    ((linkOf s sd).state = .stranger → p.length = 152 → h.epochLo = lo32 u.epoch.no → leAt p 0 8 = u.epoch.no.toNat →
      u.epoch.phase ≠ .release → ∃ t, exec (.weftDigest sd h p) s = .next t ∧
        linkOf t sd = { k with logged := some (digestOf p, 0) } ∧ LinkOnly u t sd) ∧
    (h.epochLo ≠ lo32 u.epoch.no → ∀ c ∈ ([.weftRaw sd h p, .weftRxReport sd h p, .weftCatchup sd h p] : List Instr),
      ∃ t, exec c s = .next t ∧ discarded u t) ∧
    (p.length ≤ 4 → ∃ t, exec (.weftRaw sd h p) s = .next t ∧ discarded u t) ∧
    (p.length ≠ 12 → ∃ t, exec (.weftRxReport sd h p) s = .next t ∧ discarded u t) ∧
    (p.length ≠ 152 → ∃ t, exec (.weftDigest sd h p) s = .next t ∧ discarded u t) ∧
    (p.length ≠ 1032 → ∃ t, exec (.weftCatchup sd h p) s = .next t ∧ discarded u t)

/-- Memory errors that the scrubbers find, where no earlier upset waits to be read (R224, R225, R226, R227, R228, R229,
Table 6.7): the patrol position moves on and wraps into a new pass; a corrected error is counted and changes no data;
an uncorrectable one fills the memory status block and acts on what its area holds: it stops the lane of a partition,
fails Selvedge, discards in the packet area, makes the module abstain and takes back the commits and RAW frames of an
epoch for an image, costs a group its digest, or makes the owner of a retained block LATE. An upset of one bit that
lies in the burst is corrected and gone. The lane of a damaged image and of a retained block is the model's reading
(log entries 93 and 98). -/
def Obligations.MemoryErrorResult : Prop :=
  (∀ s, running s 7 = true → s.mem.upsets = [] →
    let a := s.mem.scrubBurst * 64
    let next := if patrolBursts ≤ s.mem.scrubBurst + 1 then 0 else s.mem.scrubBurst + 1
    (∃ t, exec (.patrolScrub .none) s = .next t ∧ t.mem.scrubBurst = next ∧
      t.mem.scrubPasses = (if patrolBursts ≤ s.mem.scrubBurst + 1 then satInc s.mem.scrubPasses else s.mem.scrubPasses) ∧
      t = { s with mem := { s.mem with scrubBurst := t.mem.scrubBurst, scrubPasses := t.mem.scrubPasses } }) ∧
    (∃ t, exec (.patrolScrub .correctable) s = .next t ∧ t.mem.scrubBurst = next ∧
      t.mem.dramCe = satInc s.mem.dramCe ∧ t.mem.dramUe = s.mem.dramUe ∧ t.mem.dram = s.mem.dram ∧
      t = { s with mem := t.mem, mor := t.mor }) ∧
    (∃ t, exec (.patrolScrub .uncorrectable) s = .next t ∧ t.mem.scrubBurst = next ∧
      t.mem.dramUe = satInc s.mem.dramUe ∧ t.mem.dramCe = s.mem.dramCe ∧ t.mem.lastUeAddr = a ∧
      t.mem.lastUeArea = dramArea a ∧ t.mem.lastUeEpoch = s.epoch.no ∧
      (∀ l, a < 0x390000000 → partOwner s a = some l → (laneOf s l).epochState ≠ .shed →
        (laneOf t l).epochState ≠ .waitSeal ∧ (laneOf t l).epochState ≠ .compute ∧
        ∀ l', l' ≠ l → laneOf t l' = laneOf s l') ∧
      (0x390000000 ≤ a → a < 0x3B0000000 → t.mbox.failed = true) ∧
      (0x3B0000000 ≤ a → a < 0x3F0000000 → t.pkt.bufUe = satInc s.pkt.bufUe))) ∧
  (∀ s (u : Upset), running s 7 = true → s.mem.upsets = [u] → u.double = false →
    u.loc.area.toNat = dramArea (s.mem.scrubBurst * 64) → u.loc.offset / 64 = s.mem.scrubBurst →
    ∃ t, exec (.patrolScrub .none) s = .next t ∧ t.mem.upsets = [] ∧ t.mem.dramCe = satInc s.mem.dramCe ∧
      t.mem.dramUe = s.mem.dramUe ∧ t = { s with mem := t.mem, mor := t.mor }) ∧
  (∀ s (x : MemLoc), running s 2 = true → s.mem.upsets = [] → x.offset < scrubSize x.area.toNat → 10 ≤ x.area.toNat →
    exec (.sramScrub []) s = .next s ∧
    (∃ t, exec (.sramScrub [(x, .correctable)]) s = .next t ∧ t.mem.pisCe = satInc s.mem.pisCe ∧
      t = { s with mem := { s.mem with pisCe := t.mem.pisCe, ceCount := t.mem.ceCount }, mor := t.mor }) ∧
    (∃ t, exec (.sramScrub [(x, .uncorrectable)]) s = .next t ∧ t.mem.pisUe = satInc s.mem.pisUe ∧
      t.mem.lastUeAddr = locAddr x ∧ t.mem.lastUeArea = x.area.toNat ∧ t.mem.lastUeEpoch = s.epoch.no ∧
      (x.area = 0x0A ∨ x.area = 0x0B → t.epoch.abstainAll = true ∧ t.epoch.noRaw = true ∧
        (∀ g : GroupId, t.weft.ownDigest[g] = none) ∧
        (∀ sd, (linkOf t sd).txq = (linkOf s sd).txq.filter (fun f => f.type != 0x10)) ∧
        ∀ l, laneOf t l = (let ln := { laneOf s l with readStale := true }
          if ln.l.committed || ln.t.committed then { ln with
            l := { ln.l with committed := false }, t := { ln.t with committed := false }, staleRejected := true
            epochState := if ln.epochState = .committed then .late else ln.epochState }
          else ln)) ∧
      (x.area = 0x0D → x.offset < 0x200000 → ∀ l, blockOwner s (x.offset % 0x100000 / 0x1000) = some l →
        ((laneOf s l).epochState = .committed → (laneOf t l).epochState = .late ∧
          (laneOf t l).ovrCnt = satInc (laneOf s l).ovrCnt ∧ t.epoch.event = setBit s.epoch.event l.val) ∧
        ((laneOf s l).epochState ≠ .committed → (laneOf t l).epochState = (laneOf s l).epochState) ∧
        ∀ l', l' ≠ l → laneOf t l' = laneOf s l') ∧
      (x.area = 0x0C → ∀ (g : GroupId) d, s.maps.group[g] = some d → d.offset ≤ x.offset → x.offset < d.offset + d.length →
        t.epoch.abstainGroups.getLsbD g.val = true ∧ t.weft.ownDigest[g] = none)))

/-- Mailbox requests and notices (R239, R242, R243, R245, R254, R267, R268, Table 7.4): a doorbell arms the lane's pair,
ABORT withdraws a request, a datagram from the bound address makes an idle pair PENDING, a repeat is answered from the
stored response, one from elsewhere is dropped and counted, and a held notice goes out once the rate permits. -/
def Obligations.MailboxEventResult : Prop :=
  (∀ s (l : LaneId) (data : U32), running s 1 = true → data.getLsbD 0 = true → data.getLsbD 1 = false →
    let i := 2 * l.val
    ((pairAt s i).state = .idle ∨ (pairAt s i).state = .done →
      ∃ t, exec (.doorbellRing l data) s = .next t ∧ pairAt t i = { pairAt s i with
        state := .armed, wasDone := decide ((pairAt s i).state = .done) } ∧ Messaged s t) ∧
    ((pairAt s i).state = .armed ∨ (pairAt s i).state = .serving →
      ∃ t, exec (.doorbellRing l data) s = .next t ∧
        pairAt t i = { pairAt s i with dbIgnored := satInc (pairAt s i).dbIgnored } ∧ Messaged s t)) ∧
  (∀ s (pair : PairId) (data : U32), running s 1 = true → data.getLsbD 1 = true →
    (pairAt s pair.val).state = .armed ∨ (pairAt s pair.val).state = .pending →
    ∃ t, exec (.mbAbort pair data) s = .next t ∧ pairAt t pair.val = { pairAt s pair.val with state := .idle } ∧
      Messaged s t) ∧
  (∀ s (pair : PairId) src port m, 16 ≤ pair.val → pair.val < 22 → servesPair s pair.val = true →
    let p := pairAt s pair.val
    (p.bound = some src → 16 ≤ m.length → isRepeat p pair.val src m = false →
      p.state = .idle ∨ p.state = .done → definedCommand (leAt m 2 2) = true →
      ∃ t, exec (.mbRequestArrive pair src port m) s = .next t ∧
        pairAt t pair.val = { p with
          state := .pending, lastReq := tb3 s, req := slotOf (m.take 512), rx := m, src := some src, rxPort := port } ∧
        Messaged s t) ∧
    (p.bound = some src → 16 ≤ m.length → isRepeat p pair.val src m = true →
      ∃ t, exec (.mbRequestArrive pair src port m) s = .next t ∧
        pairAt t pair.val = { p with
          lastReq := tb3 s, served := satInc p.served, repeats := satInc p.repeats, lastSent := storedResponse p
          sentTo := some src } ∧
        (pair.val < 20 → t.pkt.svcSent = s.pkt.svcSent ∧ ∀ k, p.rxPort = some k → portTakes s.pkt.port[k] = true →
          t.pkt.port[k].queue[0] = s.pkt.port[k].queue[0] ++ [⟨ethFrame (macFor src.ip) (Config.portMac k.val % 2 ^ 48)
            (some s.pkt.mgmtVid.toNat) none 0x0800
            (udpPacket s.pkt.mgmtIp src.ip (50100 + pair.val) src.port.toNat (storedResponse p)), none, none⟩]) ∧
        (20 ≤ pair.val → t.pkt.svcSent = s.pkt.svcSent ++ [ethFrame (macFor src.ip) (Config.portMac 4 % 2 ^ 48) none none 0x0800
          (udpPacket s.pkt.svcIp src.ip (50100 + pair.val) src.port.toNat (storedResponse p))]) ∧ Messaged s t) ∧
    (∀ o, p.bound = some o → o ≠ src → 16 ≤ m.length → leAt m 2 2 ≠ 0x0100 →
      ∃ t, exec (.mbRequestArrive pair src port m) s = .next t ∧
        pairAt t pair.val = { p with crcErr := satInc p.crcErr } ∧ t = { s with mbox := t.mbox })) ∧
  (∀ s (pair : PairId) n, selvedgeRuns s = true → (pairAt s pair.val).notice = some n →
    noticeRate s (pairAt s pair.val) = true →
    ∃ t dest, exec (.eventNotice pair) s = .next t ∧ pairAt t pair.val = { pairAt s pair.val with
      lastSent := noticeBytes (pairAt s pair.val) n, noticeCnt := (pairAt s pair.val).noticeCnt + 1, notice := none
      noticeLost := 0, lastNotice := some (tb3 s), sentTo := dest } ∧
      (∀ a, pair.val < 22 → (pairAt s pair.val).bound = some a → dest = some a) ∧ Messaged s t)

/-- The ends of long commands (R252, R476, R485, R487, R493): the pair is DONE with the command's answer; the stage, the
bank or the security store holds what was written; a command that waits on another party is answered TIMEOUT. -/
def Obligations.LongCommandResult : Prop :=
  ∀ (pair : PairId) s payload code, selvedgeRuns s = true → (pairAt s pair.val).state = .serving →
    (pairAt s pair.val).job = some ⟨code, payload⟩ →
    let r := requestOf s pair.val
    let level := (pairAt s pair.val).level.toNat
    let answered := fun (t : State) (st : Nat) (body : List Byte) => (pairAt t pair.val).state = .done ∧
      (pairAt t pair.val).job = none ∧ (pairAt t pair.val).rsp = slotOf (messageBytes level 1 r.command r.tag st 0 body)
    (code = 0x0203 → ∀ ok, let c := s.sec.stageBytes
      ∃ t, exec (.longCommandDone pair ok) s = .next t ∧
      answered t 0 (sha256 c ++ b8 (b2n (slice c 16 32 != slice (optContainer s (currentSlot s)) 16 32))
        ++ b8 (containerCheck s c) ++ zeros 2) ∧
      t.sec = { s.sec with stage := if containerCheck s s.sec.stageBytes = 0 then .ready else .failed
                           lastCheck := BitVec.ofNat 8 (containerCheck s s.sec.stageBytes) } ∧
      Messaged { s with sec := t.sec } t) ∧
    (code = 0x0B01 ∨ code = 0x0B02 ∨ code = 0x0B03 → (dirNow s).seq.toNat + 1 < 2 ^ 32 →
      ∃ t, exec (.longCommandDone pair false) s = .next t ∧ answered t 9 [] ∧ bankNow t = .invalid ∧ t.boot.updOwner = none ∧
      Messaged { s with boot := t.boot } t) ∧
    (code = 0x0B01 → ∃ t, exec (.longCommandDone pair true) s = .next t ∧ answered t 0 [] ∧ Messaged s t) ∧
    (code = 0x0B02 → let n := u64 payload 0 + (payload.drop 8).length
      ∃ t, exec (.longCommandDone pair true) s = .next t ∧ answered t 0 (leBytes 8 n) ∧
        t.boot = { s.boot with bank := memWrite s.boot.bank (u64 payload 0) (payload.drop 8), written := n } ∧
        Messaged { s with boot := t.boot } t) ∧
    (code = 0x0B03 → (dirNow s).seq.toNat + 1 < 2 ^ 32 →
      let hit := sha256 (memBytes s.boot.bank 0 s.boot.setSize) == payload
      ∃ t, exec (.longCommandDone pair true) s = .next t ∧ answered t (if hit then 0 else 4) [] ∧
        bankNow t = (if hit then .complete else .invalid) ∧ t.boot.updOwner = none ∧ t.boot.bank = s.boot.bank ∧
        Messaged { s with boot := t.boot } t) ∧
    (code = 0x0C06 → ∀ c, changeSetOf payload = some c → (c.items.filter (·.kind == 1)).all (itemStaged s) = true →
      ∃ t, exec (.longCommandDone pair true) s = .next t ∧ (pairAt t pair.val).state = .done ∧
        t.sec = storeAfter s c ∧ t.lanes = { s.lanes with independent := (storeAfter s c).independent } ∧
        t.boot = (if c.items.any (·.kind == 1) then (commitContainer s payload).boot else s.boot) ∧
        t.mem = s.mem ∧ t.time = s.time) ∧
    (code = 0x0107 → ∃ t, exec (.longCommandTimeout pair) s = .next t ∧ answered t 8 [] ∧
      (pairAt t pair.val).deliverTo = none ∧ Messaged s t) ∧
    (code = 0x0601 ∨ code = 0x0602 ∨ code = 0x0704 ∨ code = 0x0804 ∨ code = 0x0805 ∨ code = 0x0A02 →
      ∃ t, exec (.longCommandTimeout pair) s = .next t ∧ answered t 8 [] ∧
        Messaged { s with rack := t.rack, power := t.power } t)

/-- The test access port (R155, R497, R499, R500, Table 18.2): an instruction whose condition holds selects its data
register and acts; one whose condition does not hold selects a 1-bit register that reads 0 and sets TAP_DENIED. -/
def Obligations.TestPortResult : Prop :=
  ∀ s, powered s 0 = true → s.dbg.tapReset = false →
    let sel := fun (t : State) (instr data len : Nat) => t.dbg.tap.instr = BitVec.ofNat 8 instr ∧
      t.dbg.tap.granted = true ∧ t.dbg.tap.data = data ∧ t.dbg.tap.length = len
    (∃ t, exec .tapIdcode s = .next t ∧ sel t 0x01 0x0484A3B7 32 ∧ t = { s with dbg := t.dbg }) ∧
    (∃ t, exec .tapDbgStatus s = .next t ∧ sel t 0x02 (dbgStatus s) 32 ∧ t = { s with dbg := t.dbg }) ∧
    (∃ t, exec .tapBypass s = .next t ∧ sel t 0xFF 0 1 ∧ t = { s with dbg := t.dbg }) ∧
    (s.dbg.frozen = true → unlocked s = true →
      (∀ chain : U16, ∃ t, exec (.tapScanSelect chain) s = .next t ∧ sel t 0x10 chain.toNat 16 ∧ t.dbg.tap.chain = chain ∧
        t = { s with dbg := t.dbg }) ∧
      (∃ t d, exec .tapScanRead s = .next t ∧ sel t 0x11 d (chainLen s.dbg.tap.chain) ∧
        d < 2 ^ chainLen s.dbg.tap.chain ∧ (s.dbg.tap.chain = 0 → ∀ (k : Nat) e, chainList[k]? = some e →
          d / 2 ^ (64 * k) % 2 ^ 64 = e.1.toNat + 2 ^ 16 * e.2.1.toNat + 2 ^ 48 * e.2.2.toNat) ∧ t = { s with dbg := t.dbg, freeCtr := s.freeCtr + 1 }) ∧
      (∀ a : BitVec 40, a.toNat % 8 = 0 → ∃ t, exec (.tapMemAddr a) s = .next t ∧ sel t 0x20 a.toNat 40 ∧
        t.dbg.tap.memAddr = a ∧ t = { s with dbg := t.dbg }) ∧
      (∃ t, exec .tapMemRead s = .next t ∧
        sel t 0x21 (((selvedgeBytes s s.dbg.tap.memAddr.toNat).map ofLe).getD (2 ^ 64)) 65 ∧
        t.dbg.tap.memAddr = s.dbg.tap.memAddr + 8 ∧ t = { s with dbg := t.dbg }) ∧
      (s.weft.own = .bench → ∀ data : Word,
        (∃ t, exec (.tapMemWrite data) s = .next t ∧ sel t 0x22 data.toNat 64 ∧
          t.dbg.tap.memAddr = s.dbg.tap.memAddr + 8) ∧
        (s.dbg.tap.memAddr.toNat < 0x400000000 → partitionOpen s s.dbg.tap.memAddr.toNat = true →
          ∃ t, exec (.tapMemWrite data) s = .next t ∧
            t.mem.dram = memWrite s.mem.dram s.dbg.tap.memAddr.toNat (leBytes 8 data.toNat) ∧
            t = { s with dbg := t.dbg, mem := { s.mem with dram := t.mem.dram } })) ∧
      (s.weft.own = .bench →
        (∃ t, exec (.tapResume true true) s = .next t ∧ sel t 0x31 1 1 ∧ t.dbg.frozen = false ∧ t.dbg.frzPin = false ∧
          t.time.tbHeld = false ∧ t.dbg.event = setBit s.dbg.event 1 ∧
          (∀ l, (laneOf s l).epochState ≠ .stopped → (laneOf s l).epochState ≠ .faulted → (laneOf s l).epochState ≠ .shed →
            (laneOf t l).epochState = .diverged) ∧
          (s.time.tbHeld = true → ∀ k : Fin 4, k.val ≠ 3 → t.time.tb[k].stepNext = true)) ∧
        (∃ t, exec (.tapResume false true) s = .next t ∧ sel t 0x31 0 1 ∧ t.dbg.frozen = true))) ∧
    (bench s = true → unlocked s = true → ∀ (data : U32) hit,
      let l : LaneId := ⟨s.dbg.tap.memAddr.toNat / 2 ^ 32 % 8, Nat.mod_lt _ (by decide)⟩
      (laneOf s l).epochState = .stopped → data.getLsbD 3 = true → 1 ≤ data.toNat % 8 → data.toNat % 8 ≤ 6 →
      ∃ t, exec (.tapFirnInject data hit) s = .next t ∧ sel t 0x30 data.toNat 32 ∧ (laneOf t l).bistDone = true ∧
        (laneOf t l).bistLast = BitVec.ofNat 3 (data.toNat % 8) ∧ (hit = false → (laneOf t l).disabled = true)) ∧
    (unlocked s = false → ∀ c ∈ ([.tapScanSelect 0, .tapScanRead, .tapMemAddr 0, .tapMemRead, .tapMemWrite 0] : List Instr),
      ∃ t, exec c s = .next t ∧ t.dbg.tap.granted = false ∧ t.dbg.tap.data = 0 ∧ t.dbg.tap.length = 1 ∧
        t.dbg.event = setBit s.dbg.event 3 ∧ t = { s with dbg := t.dbg }) ∧
    (∀ (data : U32) hit, let l : Nat := s.dbg.tap.memAddr.toNat / 2 ^ 32 % 8
      let note := record s 1 0xFF02 l (leBytes 8 (0x500001002C + l * 0x100) ++ leBytes 4 data.toNat ++ [1])
      (¬ (bench s = true ∧ unlocked s = true) → ∃ t, exec (.tapFirnInject data hit) s = .next t ∧
        t.dbg.tap.granted = false ∧ t.dbg.event = setBit s.dbg.event 3 ∧ t = { s with dbg := t.dbg, mor := note.mor }) ∧
      (bench s = true → unlocked s = true → (∀ k : LaneId, k.val = l → (laneOf s k).epochState ≠ .stopped) →
        ∃ t, exec (.tapFirnInject data hit) s = .next t ∧ sel t 0x30 data.toNat 32 ∧
          t = { s with dbg := t.dbg, mor := note.mor }))

/-- The recorder, Rime freeze and debug unlock (R489, R495, R498, R503, R504, R505): a flush moves staged records to the
ring, a rate window ends for every source, FRZ_L freezes the module with a held record, DURATION_S ends debug unlock,
and DBG_CTRL is written only while debug is unlocked. -/
def Obligations.RecorderDebugResult : Prop :=
  ∀ s,
    (running s 1 = true → s.mor.running = true →
      ((∀ u ∈ s.mem.upsets, u.loc.area ≠ 0x04) →
        ∃ t, exec .moraineFlush s = .next t ∧
          ((s.mor.ring ++ s.mor.staged).length ≤ morCapacity t.mor → t.mor.ring = s.mor.ring ++ s.mor.staged) ∧
          (morCapacity t.mor < (s.mor.ring ++ s.mor.staged).length → ∃ n, t.mor.ring = (s.mor.ring ++ s.mor.staged).drop n ∧
            n % morUnit = 0 ∧ t.mor.ring.length ≤ morCapacity t.mor ∧ t.mor.event.getLsbD 3 = true) ∧
          t.mor.staged = [] ∧ t.mor.flushing = false ∧ s.mor.badUnits.toNat ≤ t.mor.badUnits.toNat ∧
          t = { s with mor := t.mor, freeCtr := s.freeCtr + 1 }) ∧
      (∃ t, exec .rateWindowEnd s = .next t ∧ ((∀ i : Fin 20, s.mor.window[i].dropped = 0) → t.mor.staged = s.mor.staged ∧
          ∀ i : Fin 20, t.mor.window[i] = ⟨0, 0, 0⟩) ∧ t.mor.ring = s.mor.ring ∧ t = { s with mor := t.mor })) ∧
    (powered s 0 = true → s.dbg.frozen = false →
      ∃ t, exec .freezePin s = .next t ∧ t.dbg.frozen = true ∧ t.dbg.frzPin = true ∧ t.dbg.lastCause = 1 ∧
        t.dbg.freezes = satInc s.dbg.freezes ∧ t.time.tbHeld = s.dbg.frzTb ∧ t.rack.lockHeld = false ∧
        (∃ r, t.mor.backup = s.mor.backup ++ [r] ∧ r.held = true ∧ r.code = 0xFF07) ∧
        t = { s with dbg := t.dbg, time := { s.time with tbHeld := t.time.tbHeld }, rack := t.rack, mor := t.mor }) ∧
    (∀ due, powered s 0 = true → s.dbg.unlockEnd = some due → reached (passUntil s 3 due) 3 due = true →
      ∃ t, exec .debugUnlockExpire s = .next t ∧ unlocked t = false ∧ t.dbg.event = setBit s.dbg.event 2 ∧
        t = { passUntil s 3 due with dbg := t.dbg, mor := t.mor, mbox := t.mbox }) ∧
    (∀ data : U32, running s 0 = true →
      (unlocked s = true → exec (.dbgCtrlWrite data) s = .next { s with dbg := { s.dbg with frzTb := data.getLsbD 0 } }) ∧
      (unlocked s = false → ∃ t, exec (.dbgCtrlWrite data) s = .next t ∧ t.dbg = s.dbg ∧ t = { s with mor := t.mor }))

/-- Register accesses (R14, R15, R16, R289, R535, Tables 0.5 and 6.1): a 1 written to an event register clears its bit; an
interrupt enable takes the value written; read-only registers ignore a write; RWP fields ignore and record one;
EPOCH_WARN takes a good value at the next boundary; and a read of a latching register answers it and latches its
companions. -/
def Obligations.RegisterAccessResult : Prop :=
  ∀ s, running s 1 = true → s.mbox.failed = false →
    let put := fun (b o : Nat) (data : U32) => exec (.registerWrite .selvedge (BitVec.ofNat 40 (blockAddr b o)) data) s
    (∀ data : U32, (∀ b ∈ [0, 1, 2, 3, 4, 5, 6, 7, 8, 9, 10, 11, 12, 13, 14, 15], running s (blockDomain b) = true) →
      put 0 0x90C data = .next { s with lanes := { s.lanes with event := s.lanes.event &&& ~~~(data.setWidth _) } } ∧
      put 2 0x24 data = .next { s with epoch := { s.epoch with event := s.epoch.event &&& ~~~(data.setWidth _) } } ∧
      put 9 0x2C data = .next { s with fio := { s.fio with event := s.fio.event &&& ~~~(data.setWidth _) } } ∧
      put 10 0x18 data = .next { s with safe := { s.safe with event := s.safe.event &&& ~~~(data.setWidth _) } } ∧
      put 11 0x404 data = .next { s with muslin := { s.muslin with event := s.muslin.event &&& ~~~(data.setWidth _) } } ∧
      put 12 0x28 data = .next { s with weft := { s.weft with event := s.weft.event &&& ~~~(data.setWidth _) } } ∧
      put 13 0x18 data = .next { s with power := { s.power with event := s.power.event &&& ~~~(data.setWidth _) } } ∧
      put 14 0x20 data = .next { s with mor := { s.mor with event := s.mor.event &&& ~~~(data.setWidth _) } } ∧
      put 15 0x8 data = .next { s with dbg := { s.dbg with event := s.dbg.event &&& ~~~(data.setWidth _) } } ∧
      put 0 0x910 data = .next { s with lanes := { s.lanes with intEn := data } } ∧
      put 9 0x30 data = .next { s with fio := { s.fio with intEn := data.extractLsb' 0 11 } } ∧
      put 13 0x1C data = .next { s with power := { s.power with intEn := data.extractLsb' 0 9 } } ∧
      put 0 0x904 data = .next { s with lanes := { s.lanes with speedWarn := data.extractLsb' 0 16 } } ∧
      (∀ ro ∈ [(0, 0x008), (2, 0x08), (9, 0x04), (10, 0x00), (12, 0x04), (13, 0x00), (14, 0x00), (15, 0x00)],
        put ro.1 ro.2 data = .next s) ∧
      (∀ rwp ∈ [(0, 0x908), (10, 0x20), (10, 0x40), (10, 0x80), (10, 0xC0)],
        put rwp.1 rwp.2 data = .next (record s rwp.1 0xFF01 0xFF
          (leBytes 8 (blockAddr rwp.1 rwp.2) ++ leBytes 4 data.toNat)))) ∧
    (∀ data : U32, running s 2 = true →
      (warnOk s.epoch (data.toNat % 65536) = true → exec (.epochWarnWrite data) s = .next { s with
        epoch := { s.epoch with warnNext := some (BitVec.ofNat 16 (data.toNat % 65536)) } }) ∧
      (warnOk s.epoch (data.toNat % 65536) = false → exec (.epochWarnWrite data) s = .next { s with
        epoch := { s.epoch with warnNext := some 20, event := setBit s.epoch.event 22 } })) ∧
    (∀ addr b o, regionOf addr.toNat = .block b o → selvedgeFaults addr.toNat = false → running s (blockDomain b) = true →
      exec (.latchingLoRead .selvedge addr) s = .next { blockLatch s b o with readData := blockValue s b o })

/-- The servos (R272 to R276, R278, R288, Tables 8.3, 8.4): a measurement of TB0 or TB1 is taken, makes the base step, or
waits while an update runs, the newest replacing an older one; the held one then starts its own update; INCR takes a
value in range as a whole and INCR_BAD marks another; HOLDOVER and LOST follow silence, and REF_FREQ_DEV makes TB0 to
TB2 lock anew. -/
def Obligations.TimeServoResult : Prop :=
  (∀ (k : Fin 2) (data : U32) s, running s 0 = true →
    let j : Fin 4 := ⟨k.val, by omega⟩
    let b := { s.time.tb[j] with measHi := data }
    let m := (data ++ b.measLo).toInt
    (b.busy = true → ∃ t, exec (.servoMeasWrite k data) s = .next t ∧ t.time.tb[j] = { b with heldMeas := some m } ∧
      t.time.event = (if b.heldMeas.isSome then setBit s.time.event 9 else s.time.event) ∧
      t = { s with time := { s.time with tb := s.time.tb.set j t.time.tb[j], event := t.time.event } }) ∧
    (b.busy = false → b.stepNext = false → m.natAbs ≤ 100000 * 2 ^ 16 →
      ∃ t, exec (.servoMeasWrite k data) s = .next t ∧ Servoed s t j b m) ∧
    (b.busy = false → b.stepNext = true ∨ 100000 * 2 ^ 16 < m.natAbs →
      ∃ t, exec (.servoMeasWrite k data) s = .next t ∧ Stepped s t j b m)) ∧
  (∀ (k : Fin 3) s, powered s 0 = true →
    let j : Fin 4 := ⟨k.val, by omega⟩
    (s.time.tb[j].heldMeas = none → exec (.servoHeldUpdate k) s = .next s) ∧
    (∀ m, s.time.tb[j].heldMeas = some m →
      let b := { s.time.tb[j] with busy := false, heldMeas := none }
      (b.stepNext = false → m.natAbs ≤ 100000 * 2 ^ 16 →
        ∃ t, exec (.servoHeldUpdate k) s = .next t ∧ Servoed s t j b m) ∧
      (b.stepNext = true ∨ 100000 * 2 ^ 16 < m.natAbs →
        ∃ t, exec (.servoHeldUpdate k) s = .next t ∧ Stepped s t j b m)) ∧
    (s.time.tb[j].state = .locked → ∃ t, exec (.servoHoldover k) s = .next t ∧
      t.time.tb = s.time.tb.set j { s.time.tb[j] with state := .holdover } ∧
      t = { s with time := { s.time with tb := t.time.tb, event := setBit s.time.event (4 + k.val) } }) ∧
    (s.time.tb[j].state = .holdover → ∃ t, exec (.servoLost k) s = .next t ∧
      t.time.tb = s.time.tb.set j { s.time.tb[j] with state := .lost } ∧
      t = { s with time := { s.time with tb := t.time.tb, event := setBit s.time.event (4 + k.val) } }) ∧
    (s.time.tb[j].state ≠ .locked → exec (.servoHoldover k) s = .next s) ∧
    (s.time.tb[j].state ≠ .holdover → exec (.servoLost k) s = .next s) ∧
    (s.dbg.frozen = false → ∀ data : U32,
      let n := s.time.tb[j].incrNs.toNat * 2 ^ 32 + data.toNat
      (0x9FD70A3D8 ≤ n → n ≤ 0xA028F5C28 → exec (.incrWrite k data) s = .next { s with
        time := { s.time with tb := s.time.tb.set j { s.time.tb[j] with incr := n } } }) ∧
      (n < 0x9FD70A3D8 ∨ 0xA028F5C28 < n → exec (.incrWrite k data) s = .next { s with
        time := { s.time with event := setBit s.time.event 8 } }))) ∧
  (∀ s, powered s 0 = true → ∃ t, exec .refFreqDev s = .next t ∧
    (∀ k : Fin 4, t.time.tb[k] = if k.val = 3 then s.time.tb[k] else { s.time.tb[k] with relock := true }) ∧
    t.time.event = setBit s.time.event 13 ∧
    t = { s with time := { s.time with tb := t.time.tb, event := t.time.event, refFreq := true } })

/-- Captures, pulse outputs and the loss of the reference (R282 to R287, R288, Tables 8.6, 8.7, 8.12): an edge that the
unit takes is stamped, compensated to the pin, and queued as an item or counted as lost; a pulse output drives its
next edge when its time base reaches it; a register of an enabled output is not written; without the reference the
module sends no digests. -/
def Obligations.TimeEdgeResult : Prop :=
  (∀ (i : Fin 16) (falling glitch : Bool) s, powered s 0 = true →
    let c := s.time.cap[i]
    (capTakes s c falling = false ∨ 5 ≤ s.power.stage.toNat → exec (.capture i falling glitch) s = .next s) ∧
    (c.en = true → c.source ≠ 0 → c.edge.getLsbD (if falling then 1 else 0) = true → c.quietUntil ≤ tb3 s →
      s.power.stage.toNat < 5 →
      let back := if c.source.toNat ≤ 15 then 20 else 0
      let v := tbBack s.time.tb[c.tb.toNat].value back
      let t2 := tbBack s.time.tb[2].value back
      let n := tbNanos t2 / epochNs s.epoch + 1
      let placed := if c.epoch = n then c.placed else 0
      (placed < c.limit.toNat → ∃ t, exec (.capture i falling glitch) s = .next t ∧
        t.time.cap[i] = { c with quietUntil := tb3 s + 100, epoch := n, cnt := satInc c.cnt, placed := placed + 1
                                 lostFlag := false } ∧
        t.epoch = (queueItem s (tbNanos t2) 1 i.val
          (captureItem i c falling (glitch && c.edge == 3) (tbValid s.time.tb[c.tb.toNat]) v t2) id).epoch ∧
        t = { s with time := { s.time with cap := s.time.cap.set i t.time.cap[i] }, epoch := t.epoch }) ∧
      (c.limit.toNat ≤ placed → ∃ t, exec (.capture i falling glitch) s = .next t ∧
        t.time.cap[i] = { c with quietUntil := tb3 s + 100, epoch := n, lost := satInc c.lost, placed := placed
                                 lostFlag := true } ∧
        t = { s with time := { s.time with cap := s.time.cap.set i t.time.cap[i], event := setBit s.time.event 10 } }))) ∧
  (∀ (p : Fin 8) s, powered s 0 = true →
    let o := s.time.tpo[p]
    let k : Fin 4 := ⟨o.tb.toNat, o.tb.isLt⟩
    let u := passUntil s k o.nextEdge
    o.en = true → o.armed = true → s.power.stage.toNat < 5 → reached u k o.nextEdge = true →
    ∃ t, exec (.tpoEdge p) s = .next t ∧
      (o.nextLeading = true → t.time.tpo[p] = { o with
        active := true, nextLeading := false, nextEdge := o.nextEdge + o.width.toNat }) ∧
      (o.nextLeading = false → o.periodic = true → t.time.tpo[p] = { o with
        active := false, nextLeading := true, nextEdge := o.nextEdge - o.width.toNat + o.period.toNat }) ∧
      (o.nextLeading = false → o.periodic = false → t.time.tpo[p] = { o with active := false, armed := false }) ∧
      t = { u with time := { u.time with tpo := u.time.tpo.set p t.time.tpo[p] } }) ∧
  (∀ (p : Fin 8) (data : U32) s, running s 0 = true →
    let o := s.time.tpo[p]
    let now := tbNanos s.time.tb[data.toNat / 8 % 4].value
    let tb : BitVec 2 := data.extractLsb' 3 2
    (∀ r : Fin 6, r.val ≠ 0 → o.en = true → exec (.tpoCtrlWrite p r data) s = .next { s with
      time := { s.time with event := setBit s.time.event 11 } }) ∧
    (∀ r : Fin 6, r.val ≠ 0 → o.en = false → exec (.tpoCtrlWrite p r data) s = .next { s with
      time := { s.time with tpo := s.time.tpo.set p (match r.val with
        | 1 => { o with startNs := data.extractLsb' 0 30 }
        | 2 => { o with startSec := o.startSec.extractLsb' 32 16 ++ data }
        | 3 => { o with startSec := data.extractLsb' 0 16 ++ o.startSec.extractLsb' 0 32 }
        | 4 => { o with period := data }
        | _ => { o with width := data }) } }) ∧
    (data.getLsbD 0 = false → o.en = true → ∃ t, exec (.tpoCtrlWrite p 0 data) s = .next t ∧
      t.time.event = (if tb = o.tb then s.time.event else setBit s.time.event 11) ∧
      t.time.tpo[p] = { o with periodic := data.getLsbD 1, pol := data.getLsbD 2, en := false, armed := false
                               active := false } ∧
      t = { s with time := { s.time with tpo := s.time.tpo.set p t.time.tpo[p], event := t.time.event } }) ∧
    (data.getLsbD 0 = true → o.en = false →
      let start := o.startSec.toNat * 1000000000 + o.startNs.toNat
      let e := { o with periodic := data.getLsbD 1, pol := data.getLsbD 2, tb := tb, en := true, active := false, missed := 0 }
      let ok := o.startNs.toNat < 1000000000 ∧ 100 ≤ o.width.toNat ∧ 1000 ≤ o.period.toNat ∧
        (e.periodic = true → o.width.toNat < o.period.toNat)
      (¬ ok → exec (.tpoCtrlWrite p 0 data) s = .next { s with
        time := { s.time with tpo := s.time.tpo.set p { e with armed := false } } }) ∧
      (ok → ∃ t, exec (.tpoCtrlWrite p 0 data) s = .next t ∧
        (now ≤ start → t.time.tpo[p] = { e with armed := true, nextEdge := start, nextLeading := true }) ∧
        (start < now → e.periodic = true → ∃ n, t.time.tpo[p] = { e with
            armed := true, nextEdge := start + n * e.period.toNat, nextLeading := true } ∧
          now ≤ start + n * e.period.toNat ∧ start + n * e.period.toNat < now + e.period.toNat) ∧
        (start < now → e.periodic = false → t.time.tpo[p] = { e with armed := false, missed := 1 } ∧
          t.time.event = setBit s.time.event 12) ∧
        t = { s with time := { s.time with tpo := s.time.tpo.set p t.time.tpo[p], event := t.time.event } }))) ∧
  (∀ s, powered s 0 = true →
    (s.time.refMissing = true → exec .refLoss s = .next s) ∧
    (s.time.refMissing = false → ∃ t, exec .refLoss s = .next t ∧ t.time = { s.time with refMissing := true } ∧
      t.weft = { s.weft with stopped := true } ∧
      t = { s with time := t.time, weft := t.weft, mor := t.mor, freeCtr := s.freeCtr + 1 }))

/-- Ethernet ports and frames (R31, R294, R297, R298, R299, R301, R304, R305, R310, Table 9.2): a frame with a bad FCS or
length is counted, and one whose VID the port does not take is dropped; an intact telegram is staged for every
subscription that it matches; a duplicate of a stream is discarded; a link that is lost is recorded; a frame leaves
the queue whose turn it is, and with it its descriptor is completed; gate entries follow one another, and a pending
list starts at a multiple of its cycle, not before 1 ms has passed; a stream that is silent for its timeout starts
anew. -/
def Obligations.NetworkPortResult : Prop :=
  (∀ (p : Fin 4) (bytes : List Byte) s, running s 8 = true →
    let x := s.pkt.port[p]
    let f := bytes.take (bytes.length - 4)
    let v := ethView f
    let max := if v.rtag.isSome then 1528 else 1522
    (portUp x = false → exec (.ethFrameRx p bytes) s = .next s) ∧
    (portUp x = true → bytes.length < 64 ∨ max < bytes.length ∨ leAt bytes (bytes.length - 4) 4 ≠ crc32 f →
      exec (.ethFrameRx p bytes) s = .next { s with
        pkt := { s.pkt with port := s.pkt.port.set p { x with rxErr := satInc x.rxErr } } }) ∧
    (portUp x = true → 64 ≤ bytes.length → bytes.length ≤ max → leAt bytes (bytes.length - 4) 4 = crc32 f →
      (v.type = 0x8808 ∨ vidPasses x v = false → exec (.ethFrameRx p bytes) s = .next { s with
        pkt := { s.pkt with port := s.pkt.port.set p { x with rx := x.rx + 1, rxDrop := satInc x.rxDrop } } }) ∧
      (∀ n y q, streamFor s p v = some (n, y) → v.rtag = some q → v.type ≠ 0x8808 → vidPasses x v = true →
        (recover { y with lastRx := tb3 s } q).2 = false →
        ∃ t, exec (.ethFrameRx p bytes) s = .next t ∧ t.pkt.cbDiscard = satInc s.pkt.cbDiscard ∧
          t.pkt.subs = s.pkt.subs ∧ t.pkt.port = s.pkt.port.set p { x with rx := x.rx + 1 } ∧
          t.pkt.streams = s.pkt.streams.map (fun e =>
            if e.1 = n then (n, { y with lastRx := tb3 s, discarded := satInc y.discarded }) else e) ∧
          t = { s with pkt := { s.pkt with port := t.pkt.port, streams := t.pkt.streams, cbDiscard := t.pkt.cbDiscard } }) ∧
      (∀ ip u q, ipView v = some ip → udpView ip = some u → pdView u = some q → q.pull = false →
        vidPasses x v = true → streamFor s p v = none ∨ v.rtag = none → s.pkt.subs.any (subMatches s p ip q) = true →
        ∃ t, exec (.ethFrameRx p bytes) s = .next t ∧
          t.pkt.subs = s.pkt.subs.map (fun d => if subMatches s p ip q d then { d with
            staged := d.staged ++ [⟨p.val, q.seq, tb2 s, false, false, q.data⟩], count := satInc d.count
            lastSeq := BitVec.ofNat 32 q.seq, timedOut := false } else d) ∧
          t.pkt.port[p].rx = x.rx + 1 ∧ t = { s with pkt := t.pkt, route := t.route }))) ∧
  (∀ (p : Fin 4) (link : BitVec 2) (fec : Bool) s, running s 8 = true →
    let x := s.pkt.port[p]
    (x.en = true → x.shed = false → link ≠ 0 → x.force1g = false ∨ link ≠ 3 →
      ∃ t, exec (.ethLinkChange p link fec) s = .next t ∧
        t.pkt.port = s.pkt.port.set p { x with link := link, fecActive := fec && link == 3 && x.fec } ∧
        t.pkt.event = (if x.link = link then s.pkt.event else setBit s.pkt.event p.val) ∧
        t.power.restorePorts = (if 2 ≤ link.toNat then clearBit s.power.restorePorts p.val else s.power.restorePorts) ∧
        (link.toNat < 2 → 2 ≤ x.link.toNat →
          t.mor = (recordBit s 6 0x200 p.val t.pkt.event.toNat 0xFF [BitVec.ofNat 8 p.val, 1]).mor) ∧
        (2 ≤ link.toNat ∨ x.link.toNat < 2 → t.mor = s.mor) ∧
        t = { s with mor := t.mor
                     pkt := { s.pkt with port := t.pkt.port, event := t.pkt.event }
                     power := { s.power with restorePorts := t.power.restorePorts } }) ∧
    (x.en = false ∨ x.shed = true ∨ link = 0 ∨ (x.force1g = true ∧ link = 3) →
      exec (.ethLinkChange p link fec) s = .next s)) ∧
  (∀ (p : Fin 4) s, running s 8 = true →
    let x := s.pkt.port[p]
    let es := x.list.entries
    let ends := ((es.take (x.gateIx + 1)).map (·.2)).sum
    let next := if x.gateIx + 1 < es.length then x.gateIx + 1 else 0
    let nowOf := fun (tb : BitVec 2) => tbNanos s.time.tb[tb.toNat].value
    let wait := ends - nowOf x.tasTb % 1000000000 % x.list.cycleNs
    let goes := fun (t : State) (tb : BitVec 2) (ns : Nat) (y : EthPort) =>
      let u := passUntil s ⟨tb.toNat, tb.isLt⟩ (nowOf tb + ns)
      t = { u with pkt := { u.pkt with port := s.pkt.port.set p y } }
    es ≠ [] → x.gateIx < es.length → 0 < x.list.cycleNs →
    (x.pendingList = none → ∃ t, exec (.gateInterval p) s = .next t ∧ goes t x.tasTb wait { x with
      gateIx := next, gates := ((es[next]?).map (·.1)).getD 0xFF }) ∧
    (∀ l, x.pendingList = some l → 0 < l.cycleNs → ∃ t w, exec (.gateInterval p) s = .next t ∧
      (let first := nowOf l.tb + (x.pendingAt + 1000000 - tb3 s);
        first ≤ nowOf l.tb + w ∧ nowOf l.tb + w < first + l.cycleNs ∧
        (first % 1000000000 + l.cycleNs ≤ 1000000000 → (nowOf l.tb + w) % 1000000000 % l.cycleNs = 0)) ∧
      (wait < w → goes t x.tasTb wait { x with gateIx := next, gates := ((es[next]?).map (·.1)).getD 0xFF }) ∧
      (w ≤ wait → goes t l.tb w { x with list := l, pendingList := none, tasTb := l.tb, gateIx := 0
                                         gates := ((l.entries.head?).map (·.1)).getD 0xFF }))) ∧
  (∀ (p : Fin 4) (q : Fin 8) f rest s, running s 8 = true →
    let x := s.pkt.port[p]
    x.queue[q] = f :: rest →
    (portSends s x = false → exec (.ethFrameTx p q) s = .next s) ∧
    (portSends s x = true → gateOpen x q.val = true → fitsGate s x q.val f.bytes.length = true →
      (∀ k : Fin 8, q.val < k.val → x.queue[k] = [] ∨ gateOpen x k.val = false) →
      let sent := fun (t : State) => t.pkt.port = s.pkt.port.set p { x with queue := x.queue.set q rest, tx := x.tx + 1 } ∧
        t.pkt.pubs = (match f.pub with
          | some (i, seq) => s.pkt.pubs.modify i (fun d => { d with count := satInc d.count, lastSeq := BitVec.ofNat 32 seq })
          | none => s.pkt.pubs)
      (f.ring = none → ∃ t, exec (.ethFrameTx p q) s = .next t ∧ sent t ∧
        t = { s with pkt := { s.pkt with port := t.pkt.port, pubs := t.pkt.pubs } }) ∧
      (∀ (i : Fin 64) n, f.ring = some (i.val, n) → s.pkt.ring[i].head.toNat = n →
        let r := s.pkt.ring[i]
        let a := r.base.toNat * 256 + r.head.toNat % 2 ^ (r.size.toNat + 4) * 32
        let flags := memLe s.mem.dram (a + 10) 2
        (1 < r.posted → ∃ t, exec (.ethFrameTx p q) s = .next t ∧ sent t ∧
          t = { s with pkt := { s.pkt with port := t.pkt.port, pubs := t.pkt.pubs
                                           ring := s.pkt.ring.set i { r with posted := r.posted - 1 } } }) ∧
        (r.posted = 1 → bitOf flags 1 = false ∨ isTimed (ethView f.bytes) = false →
          ∃ t, exec (.ethFrameTx p q) s = .next t ∧ sent t ∧
          t = { s with
            mem := { s.mem with dram := memPutLe (memPutLe s.mem.dram (a + 10) 2 (flags / 2 * 2)) (a + 26) 2 0 }
            pkt := { s.pkt with port := t.pkt.port, pubs := t.pkt.pubs
                                ring := s.pkt.ring.set i { r with
                                  posted := 0, head := BitVec.ofNat 12 ((r.head.toNat + 1) % 2 ^ (r.size.toNat + 4)) } } }) ∧
        (r.posted = 1 → bitOf flags 1 = true → isTimed (ethView f.bytes) = true → s.time.ptp[p].en = true →
          ∃ t ns, exec (.ethFrameTx p q) s = .next t ∧ sent t ∧
          memLe t.mem.dram (a + 26) 2 = 0 ∧ memLe t.mem.dram (a + 10) 2 = (flags ||| 4) / 2 * 2 ∧
          memLe t.mem.dram (a + 16) 4 = ns % 1000000000 ∧ memLe t.mem.dram (a + 20) 6 = ns / 1000000000 % 2 ^ 48 ∧
          (let tb : Nat := tbNanos (if s.time.ptp[p].tb then s.time.tb[1] else s.time.tb[0]).value;
            tb ≤ ns ∧ ns ≤ tb + 10) ∧
          t = { s with
            mem := { s.mem with dram := t.mem.dram }, freeCtr := s.freeCtr + 1
            pkt := { s.pkt with port := t.pkt.port, pubs := t.pkt.pubs
                                ring := s.pkt.ring.set i { r with
                                  posted := 0
                                  head := BitVec.ofNat 12 ((r.head.toNat + 1) % 2 ^ (r.size.toNat + 4)) } } })))) ∧
  (∀ (n : U16) s, running s 8 = true →
    (streamOf s n.toNat = none → exec (.cbRecoveryTimeout n) s = .next s) ∧
    (∀ x, streamOf s n.toNat = some x → x.timeoutMs = 0 ∨ x.last = none → exec (.cbRecoveryTimeout n) s = .next s) ∧
    (∀ x, streamOf s n.toNat = some x → x.timeoutMs ≠ 0 → x.last ≠ none →
      let u := passUntil s 3 (x.lastRx + x.timeoutMs * 1000000)
      ∃ t, exec (.cbRecoveryTimeout n) s = .next t ∧
      streamOf t n.toNat = some { x with last := none, seen := [], resets := satInc x.resets } ∧
      (∀ k, k ≠ n.toNat → streamOf t k = streamOf s k) ∧ t.pkt.cbReset = satInc s.pkt.cbReset ∧
      t = { u with pkt := { u.pkt with streams := t.pkt.streams, cbReset := t.pkt.cbReset
                                       event := setBit s.pkt.event 7 } }))

/-- Rings, MVB and CAN (R299, R309, R310, R311, R312, R313, R320): a tail write hands over descriptors and belongs to the
ring's owner; a descriptor that a boundary has turned away, or that cannot be sent, is completed with its STATUS and
OWN cleared, and the frame of another waits in its port's queue, with its VLAN tag and, of a stream, the R-TAG on
every port of the stream; a master frame is answered while the module releases outputs, a slave frame is staged for
its sink ports, and one of no port size is an error; a CAN frame goes where every filter that it passes sends it;
objects are sent by index, and BUS OFF recovers when AUTO_RECOVER is set. The error counters of a CAN port are free
values, and it is error passive above 127 (log entry 103). -/
def Obligations.RingBusResult : Prop :=
  (∀ (i : Fin 64) (data : U32) s, running s 8 = true →
    let r := s.pkt.ring[i]
    let taken := { s with pkt := { s.pkt with ring := s.pkt.ring.set i { r with tail := data.extractLsb' 0 12 } } }
    exec (.ringTailWrite .selvedge i data) s = .next taken ∧
    ∀ l : LaneId, exec (.ringTailWrite (.lane l) i data) s =
      .next (if r.owner = 2 ∧ r.lane.toNat = l.val then taken else s)) ∧
  (∀ (i : Fin 64) s, running s 8 = true →
    let r := s.pkt.ring[i]
    let a := r.base.toNat * 256 + r.head.toNat % 2 ^ (r.size.toNat + 4) * 32
    let m := s.mem.dram
    let flags := memLe m (a + 10) 2
    let buf := memLe m a 8 % 2 ^ 40
    let len := memLe m (a + 8) 2
    let tci := if bitOf flags 3 then some (memLe m (a + 14) 2) else none
    let closed := fun (st : Nat) => { s with
      mem := { s.mem with dram := memPutLe (memPutLe m (a + 10) 2 (flags / 2 * 2)) (a + 26) 2 st }
      pkt := { s.pkt with ring := s.pkt.ring.set i { r with
        head := BitVec.ofNat 12 ((r.head.toNat + 1) % 2 ^ (r.size.toNat + 4)) } } }
    (r.en = false ∨ r.head = r.tail ∨ flags % 2 = 0 ∨ r.posted ≠ 0 → ∀ ok, exec (.ringDescDone i ok) s = .next s) ∧
    (r.en = true → r.head ≠ r.tail → flags % 2 = 1 → r.posted = 0 →
      (r.dir = true → r.gateEn = true → r.owner = 2 → ∀ ok,
        (gateVerdict r = none → exec (.ringDescDone i ok) s = .next s) ∧
        (gateVerdict r = some false → exec (.ringDescDone i ok) s = .next (closed 4))) ∧
      (r.dir = false ∨ r.gateEn = false ∨ r.owner ≠ 2 ∨ gateVerdict r = some true →
        (exec (.ringDescDone i false) s = .next { closed 2 with
          pkt := { (closed 2).pkt with bufUe := satInc s.pkt.bufUe, event := setBit s.pkt.event 6 } }) ∧
        (r.dir = false → exec (.ringDescDone i true) s = .next s) ∧
        (r.dir = true →
          let lies := ringArea s r a 32 && ringArea s r buf len
          let queued := fun (t : State) (p : Fin 4) (f : List Byte) =>
            let q : Fin 8 := ⟨memLe m (a + 13) 1 % 8, Nat.mod_lt _ (by decide)⟩
            t.pkt.port[p] = { s.pkt.port[p] with
              queue := s.pkt.port[p].queue.set q (s.pkt.port[p].queue[q] ++ [⟨f, none, some (i.val, r.head.toNat)⟩]) }
          (lies = false → exec (.ringDescDone i true) s = .next (closed 3)) ∧
          (lies = true → streamOf s (memLe m (a + 28) 2) = none →
            let f := ringFrame (memBytes m buf len) tci none
            let n := len + (if tci.isSome then 4 else 0)
            (len < 14 ∨ 1518 < n → exec (.ringDescDone i true) s = .next (closed 1)) ∧
            (14 ≤ len → n ≤ 1518 → 4 ≤ memLe m (a + 12) 1 → exec (.ringDescDone i true) s = .next (closed 4)) ∧
            (14 ≤ len → n ≤ 1518 → ∀ p : Fin 4, memLe m (a + 12) 1 = p.val →
              (portTakes s.pkt.port[p] = false → exec (.ringDescDone i true) s = .next (closed 4)) ∧
              (portTakes s.pkt.port[p] = true → ∃ t, exec (.ringDescDone i true) s = .next t ∧ queued t p f ∧
                (∀ o, o ≠ p → t.pkt.port[o] = s.pkt.port[o]) ∧
                t = { s with pkt := { s.pkt with ring := s.pkt.ring.set i { r with posted := 1 }, port := t.pkt.port } }))) ∧
          (∀ x, lies = true → streamOf s (memLe m (a + 28) 2) = some x → 14 ≤ len → len + 10 ≤ 1524 →
            (∃ p : Fin 4, x.ports.getLsbD p.val = true ∧ portTakes s.pkt.port[p] = true) →
            ∃ t, exec (.ringDescDone i true) s = .next t ∧ 1 ≤ t.pkt.ring[i].posted ∧
              streamOf t (memLe m (a + 28) 2) = some { x with txSeq := x.txSeq + 1 } ∧
              (∀ p : Fin 4, if x.ports.getLsbD p.val ∧ portTakes s.pkt.port[p] then
                queued t p (ringFrame (memBytes m buf len) tci (some x.txSeq.toNat)) else t.pkt.port[p] = s.pkt.port[p]) ∧
              t = { s with pkt := { s.pkt with
                ring := s.pkt.ring.set i { r with posted := t.pkt.ring[i].posted }, port := t.pkt.port
                streams := t.pkt.streams } }))))) ∧
  (∀ (lineB : Bool) (code : BitVec 4) (addr : BitVec 12) (data : List Byte) s, running s 9 = true →
    (∀ master, s.pkt.mvb.enabled = false → exec (.mvbFrame lineB master code addr data) s = .next s) ∧
    (s.pkt.mvb.enabled = true →
      (∃ t, exec (.mvbFrame lineB true code addr data) s = .next t ∧ t.pkt.mvb.lineActive = lineB ∧
        t.pkt.mvb.answered = (if s.weft.stopped ∨ releasing s = false then none else mvbAnswer s code.toNat addr.toNat) ∧
        t.pkt.mvb.ports = s.pkt.mvb.ports ∧ t = { s with pkt := { s.pkt with mvb := t.pkt.mvb, event := t.pkt.event } }) ∧
      ((∀ n ∈ [2, 4, 8, 16, 32], data.length ≠ n) → ∃ t, exec (.mvbFrame lineB false code addr data) s = .next t ∧
        t.pkt.mvb = { s.pkt.mvb with errors := satInc s.pkt.mvb.errors
                                     lineAOk := s.pkt.mvb.lineAOk && lineB, lineBOk := s.pkt.mvb.lineBOk && !lineB } ∧
        t = { s with pkt := { s.pkt with mvb := t.pkt.mvb } }) ∧
      (data.length ∈ [2, 4, 8, 16, 32] → ∃ t, exec (.mvbFrame lineB false code addr data) s = .next t ∧
        t.pkt.mvb.lineActive = lineB ∧
        t.pkt.mvb.ports = s.pkt.mvb.ports.map (fun d =>
          if !d.source && d.address == addr.toNat && d.size == data.length then { d with
            staged := d.staged ++ [⟨4, 0, tb2 s, lineB, false, data⟩] } else d) ∧
        t = { s with pkt := t.pkt, route := t.route }))) ∧
  (∀ s, running s 9 = true → s.pkt.mvb.enabled = true → s.pkt.mvb.admin = true → isHolder s = true →
    s.weft.stopped = false → ∃ t, exec .mvbBaPeriod s = .next t ∧
      t.pkt.mvb.sentMasters.map (·.2) = (s.pkt.mvb.poll[s.pkt.mvb.pollPos]?).getD [] ∧
      t.pkt.mvb.pollPos = (if s.pkt.mvb.poll.length ≤ s.pkt.mvb.pollPos + 1 then 0 else s.pkt.mvb.pollPos + 1) ∧
      t = { s with pkt := { s.pkt with mvb := t.pkt.mvb } }) ∧
  (∀ (p : Fin 4) s, running s 9 = true →
    let c := s.pkt.can[p]
    (∀ ident data,
      (2 ≤ c.state.toNat → exec (.canFrameRx p ident data) s = .next s) ∧
      (c.state.toNat < 2 → ∃ t, exec (.canFrameRx p ident data) s = .next t ∧ t.pkt.can[p].rx = c.rx + 1 ∧
        t.pkt.can[p].tec = c.tec ∧
        t.pkt.can[p].state = (if 127 < c.tec.toNat ∨ 127 < t.pkt.can[p].recCnt.toNat then 1 else 0) ∧
        t.pkt.can[p].filters = c.filters.map (fun d => if canPasses ident d && d.signal.isSome then { d with
          staged := d.staged ++ [⟨5 + p.val, 0, tb2 s, false, false, data⟩] } else d) ∧
        (let n := (c.filters.filter (fun d => canPasses ident d && d.signal.isNone)).length;
          t.pkt.can[p].items = (if c.limit ≤ c.items then c.items else min c.limit (c.items + n)) ∧
          (c.items + n ≤ c.limit → t.pkt.mdDrop = s.pkt.mdDrop) ∧
          (n = 1 → c.limit ≤ c.items → t.pkt.mdDrop = satInc s.pkt.mdDrop)) ∧
        t = { s with pkt := t.pkt, route := t.route, epoch := t.epoch, freeCtr := s.freeCtr + 1 })) ∧
    (c.state.toNat ≤ 1 → s.weft.stopped = false →
      let sent := fun (t : State) (c' : CanPort) =>
        t.pkt.can = s.pkt.can.set p { c' with
          tx := c.tx + 1, tec := t.pkt.can[p].tec
          state := if 127 < t.pkt.can[p].tec.toNat ∨ 127 < c.recCnt.toNat then 1 else 0 } ∧
        t = { s with pkt := { s.pkt with can := t.pkt.can }, freeCtr := s.freeCtr + 1 }
      (∀ i, c.objects.findIdx? (·.queued.isSome) = some i → ∃ t, exec (.canTxDone p) s = .next t ∧
        sent t { c with objects := c.objects.modify i (fun o => { o with queued := none }) }) ∧
      (∀ f rest, (∀ o ∈ c.objects, o.queued = none) → c.fwd = f :: rest → ∃ t, exec (.canTxDone p) s = .next t ∧
        sent t { c with fwd := rest }) ∧
      ((∀ o ∈ c.objects, o.queued = none) → c.fwd = [] → exec (.canTxDone p) s = .next s)) ∧
    (2 ≤ c.state.toNat ∨ s.weft.stopped = true → exec (.canTxDone p) s = .next s) ∧
    (2 ≤ c.state.toNat → exec (.canBusOff p) s = .next s) ∧
    (c.state.toNat < 2 → exec (.canBusOff p) s = .next { s with pkt := { s.pkt with
      can := s.pkt.can.set p { c with state := 2, tec := 255, busOffCnt := satInc c.busOffCnt, recovering := c.autoRecover }
      event := setBit s.pkt.event 9 } }) ∧
    (c.state = 2 → c.recovering = true → exec (.canBusoffRecovery p) s = .next { s with pkt := { s.pkt with
      can := s.pkt.can.set p { c with state := 0, recovering := false, tec := 0, recCnt := 0 } } }) ∧
    (c.state ≠ 2 ∨ c.recovering = false → exec (.canBusoffRecovery p) s = .next s))

/-- The bridge as bus master (R326, R327, R330, R331, R333, R334, R340, R346, Table 10.9): the lock has one owner, lasts
to the end of the first access of its owner after LOCK is cleared, and is broken after 20 µs; a grant opens the
address cycle; data cycles end an access, retry it or fail it with a log entry; a scan starts with no entry read, and
an entry that is read takes its words; a lost clock stops the bridge, and a parity error fails it with a record. -/
def Obligations.RackMasterResult : Prop :=
  (∀ (m : Master) (data : U32) s, running s 9 = true →
    let b := s.rack
    let a := match m with | .lane l => l.val | .selvedge => 8
    let took := fun (t : State) (b' : Rack) => exec (.rackLockWrite m data) s = .next t ∧
      t = { s with rack := moved b' t.rack }
    (data.getLsbD 0 = true → b.owner = 0xF ∨ b.owner.toNat = a → ∃ t, took t { b with
      lock := true, owner := BitVec.ofNat 4 a }) ∧
    (b.owner ≠ 0xF → b.owner.toNat ≠ a → ∃ t, took t { b with event := setBit b.event 3 }) ∧
    (data.getLsbD 0 = false → b.owner.toNat = a → b.lockHeld = true ∨ ownerBusy b = true →
      ∃ t, took t { b with lock := false }) ∧
    (data.getLsbD 0 = false → b.owner.toNat = a → b.lockHeld = false → ownerBusy b = false → ∃ t, took t { b with
      lock := false, owner := 0xF, lockHeld := false }) ∧
    (data.getLsbD 0 = false → b.owner = 0xF → ∃ t, took t b)) ∧
  (∀ s, running s 9 = true →
    let b := s.rack
    (b.lockHeld = false → exec .rackLockTimeout s = .next s) ∧
    (b.lockHeld = true → b.owner ≠ 0xF → ∃ t, exec .rackLockTimeout s = .next t ∧ t.rack.lock = false ∧
      t.rack.owner = 0xF ∧ t.rack.lockHeld = false ∧ t.rack.failures = satInc b.failures ∧
      t.rack.event.getLsbD 0 = true ∧ t = { s with rack := t.rack, epoch := t.epoch }) ∧
    (∀ a, b.openAccess = some a → b.granted = false → b.busLocked = false → b.clkOk = true → b.failed = false →
      exec .rackGrant s = .next { s with rack := { b with
        granted := true, lockHeld := b.lockHeld || (a.source == b.owner.toNat && !a.writeList && !isScan a) } }) ∧
    (b.openAccess = none ∨ b.granted = true ∨ b.busLocked = true ∨ b.clkOk = false ∨ b.failed = true →
      exec .rackGrant s = .next s)) ∧
  (∀ s a, running s 9 = true → s.rack.openAccess = some a → s.rack.granted = true → s.rack.clkOk = true →
    let b := s.rack
    (∀ v, a.got.length + 1 < a.words → exec (.rackBusAccessDone [(1, v)]) s =
      .next { s with rack := { b with openAccess := some { a with got := a.got ++ [v] } } }) ∧
    (∀ v, a.retries < b.retryLimit.toNat → exec (.rackBusAccessDone [(2, v)]) s =
      .next { s with rack := { b with openAccess := some { a with retries := a.retries + 1 }, outRetry := satInc b.outRetry } }) ∧
    (∀ v, a.words ≤ a.got.length + 1 →
      let ends := fun (t : State) => t.rack.failures = b.failures ∧
        (if b.lockHeld = true ∧ b.lock = false ∧ ofOwner b a = true then t.rack.owner = 0xF ∧ t.rack.lockHeld = false
          else t.rack.owner = b.owner ∧ t.rack.lockHeld = b.lockHeld)
      (a.kind = .write → ∃ t, exec (.rackBusAccessDone [(1, v)]) s = .next t ∧ t.rack.outWr = satInc b.outWr ∧
        t.rack.reads = b.reads ∧ ends t ∧ t = { s with rack := t.rack }) ∧
      (∀ r, a.kind = .read r → r ≤ 16 → ∃ t, exec (.rackBusAccessDone [(1, v)]) s = .next t ∧
        t.rack.outRd = satInc b.outRd ∧ ends t ∧
        t.rack.reads = b.reads ++ [(r, (a.got ++ [v]).headD 0)] ∧ t = { s with rack := t.rack }) ∧
      (∀ i x, a.kind = .scan i → b.scanBusy = true → a.epoch = s.epoch.no → b.scanValues[i]? = some x →
        ∃ t, exec (.rackBusAccessDone [(1, v)]) s = .next t ∧ t.rack.outRd = satInc b.outRd ∧ ends t ∧
        t.rack.scanValues = b.scanValues.set i { x with result := some true, staged := a.got ++ [v] } ∧
        t = { s with rack := t.rack }) ∧
      (∀ i : PairId, a.kind = .service i.val ∨ a.kind = .serviceWrite i.val → (pairAt s i.val).state = .serving →
        ∃ t, exec (.rackBusAccessDone [(1, v)]) s = .next t ∧ (pairAt t i.val).state = .done ∧ ends t ∧
          Messaged { s with rack := t.rack } t)) ∧
    (∀ x ∈ ([(3, 1), (0, 2), (2, 3)] : List (BitVec 2 × Nat)), ∀ v, (x.1 = 2 → b.retryLimit.toNat ≤ a.retries) →
      (∀ i, a.kind ≠ .service i ∧ a.kind ≠ .serviceWrite i) →
      ∃ t, exec (.rackBusAccessDone [(x.1, v)]) s = .next t ∧ t.rack.failures = satInc b.failures ∧
        t.rack.event.getLsbD 0 = true ∧ (b.log.length < 16 → t.rack.log = b.log ++ [rackLogOf s a x.2]) ∧
        (∀ r, a.kind = .read r → r ≤ 16 → t.rack.reads = b.reads ++ [(r, 0xFFFFFFFF)]) ∧
        t = { s with rack := t.rack, epoch := t.epoch })) ∧
  (∀ s m, running s 9 = true → s.rack.map = some m →
    let u := passUntil s 2 (s.epoch.next * epochNs s.epoch - m.scanLeadUs * 1000)
    (s.epoch.running = true → s.rack.en = true → s.rack.failed = false → m.scan ≠ [] →
      rackDrives s = true ∨ s.rack.shared = true → ∃ t, exec .rackScanStart s = .next t ∧
        t = { u with rack := moved { s.rack with
          scanBusy := true, scanValues := s.rack.scanValues.map (fun v => { v with result := none }) } t.rack }) ∧
    (s.epoch.running = false ∨ s.rack.en = false ∨ s.rack.failed = true ∨ m.scan = [] ∨
      (rackDrives s = false ∧ s.rack.shared = false) → exec .rackScanStart s = .next u)) ∧
  (∀ s, running s 9 = true →
    let b := s.rack
    (b.clkOk = true → exec .rbClkLoss s = .next { s with rack := { b with clkOk := false, event := setBit b.event 5 } }) ∧
    (b.clkOk = false → exec .rbClkLoss s = .next s) ∧
    (b.clkOk = true → exec .rbClkReturn s = .next s) ∧
    (b.clkOk = false → ∃ t, exec .rbClkReturn s = .next t ∧ t = { s with rack := moved { b with clkOk := true } t.rack }) ∧
    (b.failed = true → exec .rackBridgeFail s = .next s) ∧
    (b.failed = false → ∃ t, exec .rackBridgeFail s = .next t ∧ t.rack.failed = true ∧ t.rack.openAccess = none ∧
      t.rack.outQueue = [] ∧ t.rack.writeList = [] ∧ t.rack.scanBusy = false ∧ t.rack.owner = 0xF ∧
      t.rack.event.getLsbD 6 = true ∧ rackDrives t = false ∧
      t.mor = (recordBit s 8 0x10 6 t.rack.event.toNat 0xFF []).mor ∧
      Messaged { s with rack := t.rack, epoch := t.epoch, mor := t.mor } t))

/-- The bridge as bus target and monitor (R335 to R342, R345, Table 10.7): a posted write is queued or answered RETRY, and
applied in order, where it invalidates the buffers that its bytes reach; a read in a window is answered from its
buffer while no queued write reaches its bytes, any other read, and any under RB_LOCK_L, is a delayed read; an
interrupt line that changes gives an item; a monitor takes what the bus carries and compares the holder's write list. -/
def Obligations.RackTargetResult : Prop :=
  (∀ (addr : U32) (be : BitVec 4) (data : U32) (locked : Bool) m s, running s 9 = true → s.rack.map = some m →
    let b := s.rack
    let h := rackHeld s locked
    let claimed := rackDrives s = true ∧ b.clkOk = true ∧ m.inBase ≤ addr.toNat ∧ addr.toNat < m.inBase + 0x101000
    let o := addr.toNat - m.inBase
    (claimed → b.inQueue.length < 64 → ∃ t, exec (.inboundWrite addr be data locked) s = .next t ∧
      t = { s with rack := moved { b with
        busLocked := locked, inQueue := b.inQueue ++ [⟨o, be, data, tb2 s⟩], inWr := satInc b.inWr
        answer := some (1, 0) } t.rack }) ∧
    (claimed → 64 ≤ b.inQueue.length → ∃ t, exec (.inboundWrite addr be data locked) s = .next t ∧
      t = { s with rack := moved { b with busLocked := locked, inRetry := satInc b.inRetry, answer := some (2, 0) } t.rack }) ∧
    (¬ claimed → (∃ t, exec (.inboundWrite addr be data locked) s = .next t ∧
        t = { s with rack := moved { b with busLocked := locked, answer := some (0, 0) } t.rack }) ∧
      ∀ w, ∃ t, exec (.inboundRead addr w locked) s = .next t ∧
        t = { s with rack := moved { b with busLocked := locked, answer := some (0, 0) } t.rack }) ∧
    (claimed → ∀ w,
      let lane := fun (q : InWrite) (i : Nat) => q.offset / 4 * 4 + i
      let reaches := ∃ q ∈ b.inQueue, ∃ i < 4, q.byteEn.getLsbD i = true ∧ o ≤ lane q i ∧ lane q i < o + w
      (∀ k base bs, locked = false → pfWindowOf b o = some k → h.rack.pf[k].buffer = some (base, bs) →
        (base ≤ o → o + w ≤ base + bs.length → ¬ reaches → exec (.inboundRead addr w locked) s = .next { h with
          rack := { h.rack with inRd := satInc b.inRd, answer := some (1, onLanes (slice bs (o - base) w) o) } })) ∧
      (∀ k, locked = false → pfWindowOf b o = some k →
        (∀ base bs, h.rack.pf[k].buffer = some (base, bs) → o < base ∨ base + bs.length < o + w ∨ reaches) →
        exec (.inboundRead addr w locked) s = .next { h with rack := { h.rack with
          answer := some (2, 0), inRetry := satInc b.inRetry
          pf := h.rack.pf.set k { h.rack.pf[k] with
            refill := some (h.rack.pf[k].refill.getD (o, b.inQueue.length)) } } }) ∧
      (locked = true ∨ pfWindowOf b o = none → drOf b o w = none →
        ((∀ k : Fin 4, b.dr[k] ≠ none) → exec (.inboundRead addr w locked) s = .next { h with rack := { h.rack with
          inRetry := satInc b.inRetry, answer := some (2, 0) } }) ∧
        ∀ k : Fin 4, b.dr[k] = none → (∀ j, j < k → b.dr[j] ≠ none) →
        exec (.inboundRead addr w locked) s = .next { h with rack := { h.rack with
          dr := b.dr.set k (some ⟨o, w, b.inQueue.length, none, 0⟩), inRetry := satInc b.inRetry
          answer := some (2, 0) } }) ∧
      (∀ k d v, locked = true ∨ pfWindowOf b o = none → drOf b o w = some k → b.dr[k] = some d → d.data = some v →
        exec (.inboundRead addr w locked) s = .next { h with rack := if h.rack.openAccess.isSome
          then { h.rack with inRetry := satInc b.inRetry, answer := some (2, 0) }
          else { h.rack with dr := b.dr.set k none, inRd := satInc b.inRd, answer := some (1, v) } }))) ∧
  (∀ s, running s 9 = true →
    let b := s.rack
    (b.inQueue = [] → exec .inboundDrain s = .next s) ∧
    (∀ w rest, b.inQueue = w :: rest → ∃ t, exec .inboundDrain s = .next t ∧ t.rack.inQueue = rest ∧
      t.rack.shm = (if w.offset < 0x100000 then (shmWrite b w.offset w.byteEn w.data).shm else b.shm) ∧
      (∀ k : Fin 4, t.rack.dr[k] = b.dr[k].map (fun d => { d with after := d.after - 1 })) ∧
      (∀ k : Fin 8, t.rack.pf[k] = { b.pf[k] with
        refill := b.pf[k].refill.map (fun r => (r.1, r.2 - 1))
        buffer := b.pf[k].buffer.filter (fun x => decide (0x100000 ≤ w.offset) || (List.range 4).all (fun i =>
          !w.byteEn.getLsbD i || decide (w.offset / 4 * 4 + i < x.1) || decide (x.1 + x.2.length ≤ w.offset / 4 * 4 + i))) }) ∧
      (∀ m, b.map = some m → w.offset / 4 * 4 = 0x100008 → itemsBeside s.epoch w.stamp 4 b.items < m.eventLimit →
        t.rack.items = if joinsClosing s.epoch w.stamp then b.items else b.items + 1) ∧
      t = { s with rack := t.rack, epoch := t.epoch }) ∧
    (∀ (k : Fin 8) o, b.pf[k].refill = some (o, 0) → exec (.pfRefillDone k) s = .next { s with rack := { b with
      pf := b.pf.set k { b.pf[k] with
        buffer := some (o, memBytes b.shm o (min 256 ((b.pf[k].limit.toNat + 1) * 256 - o))), refill := none } } }) ∧
    (∀ (k : Fin 8) o n, b.pf[k].refill = some (o, n + 1) → exec (.pfRefillDone k) s = .next s) ∧
    (∀ (k : Fin 4) o w at', b.dr[k] = some ⟨o, w, 0, none, at'⟩ → exec (.delayedReadDone k) s = .next { s with rack := { b with
      dr := b.dr.set k (some ⟨o, w, 0, some (if o < 0x100000 then onLanes (memBytes b.shm o w) o
        else BitVec.ofNat 32 (compatRead s o)), tb3 s⟩) } }) ∧
    (∀ (k : Fin 4) o w n d at', b.dr[k] = some ⟨o, w, n, d, at'⟩ → n ≠ 0 ∨ d ≠ none →
      exec (.delayedReadDone k) s = .next s) ∧
    (∀ (k : Fin 4) d, b.dr[k] = some d → d.data ≠ none → exec (.drExpire k) s = .next { s with rack := { b with
      dr := b.dr.set k none, drExpired := satInc b.drExpired } }) ∧
    (∀ (k : Fin 4), (∀ d, b.dr[k] = some d → d.data = none) → exec (.drExpire k) s = .next s) ∧
    (∀ lines : BitVec 8,
      (b.en = false ∨ b.clkOk = false → exec (.rbIrqPoll lines) s = .next s) ∧
      (b.en = true → b.clkOk = true → ∃ t, exec (.rbIrqPoll lines) s = .next t ∧ t.rack.irqLevel = lines ∧
        (∀ m, b.map = some m → b.items + 8 ≤ m.eventLimit → t.rack.items = b.items +
          (if joinsClosing s.epoch (tb2 s) then 0 else
            ((List.range 8).filter (fun i => lines.getLsbD i != b.irqLevel.getLsbD i)).length)) ∧
        (lines = b.irqLevel → t = s) ∧ t = { s with rack := t.rack, epoch := t.epoch }))) ∧
  (∀ (cmd : BitVec 4) (addr : U32) (be : BitVec 4) (data : U32) (wl : Bool) m s, running s 9 = true → s.rack.map = some m →
    let b := s.rack
    (b.en = false ∨ b.shared = false ∨ b.failed = true ∨ b.clkOk = false ∨ isHolder s = true → ∀ rsp d,
      exec (.rackMonitorCycle cmd addr be d rsp wl) s = .next s) ∧
    (b.en = true → b.shared = true → b.failed = false → b.clkOk = true → isHolder s = false → cmd = 2 ∨ cmd = 4 →
      (wl = false → m.inBase ≤ addr.toNat → addr.toNat < m.inBase + 0x101000 →
        exec (.rackMonitorCycle cmd addr be [data] 1 wl) s = .next { s with rack := if b.inQueue.length < 64
          then { b with inQueue := b.inQueue ++ [⟨addr.toNat - m.inBase, be, data, tb2 s⟩] }
          else { b with monLost := true, notDriver := satInc b.notDriver } }) ∧
      (wl = true → ∀ x rest, b.expect = x :: rest → exec (.rackMonitorCycle cmd addr be [data] 1 wl) s =
        .next { s with rack := if x = (addr, data, be) then { b with expect := rest }
          else { b with expect := rest, monMismatch := satInc b.monMismatch, event := setBit b.event 7 } })) ∧
    (b.en = true → b.shared = true → b.failed = false → b.clkOk = true → isHolder s = false → cmd = 1 ∨ cmd = 3 →
      b.scanBusy = true → ∀ d, ∃ t, exec (.rackMonitorCycle cmd addr be d 1 wl) s = .next t ∧
        (∀ (i : Nat) e v, m.scan[i]? = some e → b.scanValues[i]? = some v → t.rack.scanValues[i]? = some
          (if e.address = addr ∧ e.words ≤ d.length then { v with result := some true, staged := d.take e.words } else v)) ∧
        t = { s with rack := { b with scanValues := t.rack.scanValues } }))

/-- Writes to the check contexts (R351 to R359, Tables 11.2, 11.4, 11.5): data is fed, a fold fed and marked, VAL and INIT
set the running value, CMP compares; a lane's write to a context that it may not use is only counted, and Selvedge
binds a context while its lane is quiet. -/
def Obligations.CheckWriteResult : Prop :=
  (∀ (m : Master) (trailing : Bool) (c : Fin 16) (data : U32) s, running s 7 = true →
    let x := ctxOf s c.val
    let mayUse := match m with
      | .selvedge => ctxHasAlg x && x.owner == 8
      | .lane l => ctxUsable s ⟨l, if trailing then .trailing else .leading⟩ c.val
    let put := fun (x : CheckCtx) => { s with check := { s.check with ctx := s.check.ctx.set c.val x } }
    (mayUse = true →
      (∀ size, size = 1 ∨ size = 2 ∨ size = 4 → exec (.chkDataWrite m trailing c size data) s = .next (put { x with
        running := BitVec.ofNat 64 (algFeed x.alg.toNat x.running.toNat (leBytes size data.toNat)), result := 0
        bytes := satAdd x.bytes size })) ∧
      exec (.chkFoldWrite m trailing c data) s = .next (put { x with
        running := BitVec.ofNat 64 (algFeed x.alg.toNat x.running.toNat (beBytes 4 data.toNat)), result := 0
        bytes := satAdd x.bytes 4, folded := true }) ∧
      exec (.chkValWrite m trailing c data) s = .next (put { x with
        running := BitVec.ofNat 64 ((data.toNat + x.valHiStage.toNat * 2 ^ 32) % 2 ^ algWidth x.alg.toNat), result := 0 }) ∧
      (∃ t, exec (.chkCmpWrite m trailing c data) s = .next t ∧
        let w := 2 ^ algWidth x.alg.toNat
        let hit := Nat.xor x.running.toNat (algXor x.alg.toNat) % w = (x.cmpHi.toNat * 2 ^ 32 + data.toNat) % w
        (hit → t = put { x with result := 1 }) ∧
        (¬ hit → t.check = { (put { x with result := 2 }).check with event := setBit s.check.event c.val } ∧
          t = { s with check := t.check })) ∧
      (data.getLsbD 0 = true → exec (.chkInitWrite m trailing c data) s = .next (put { x with
        running := BitVec.ofNat 64 (algInit x.alg.toNat), result := 0, folded := false, bytes := 0 })) ∧
      (data.getLsbD 0 = false → exec (.chkInitWrite m trailing c data) s = .next s)) ∧
    (mayUse = false → ∀ cmd ∈ ([.chkDataWrite m trailing c 4 data, .chkFoldWrite m trailing c data,
        .chkValWrite m trailing c data, .chkCmpWrite m trailing c data, .chkInitWrite m trailing c data] : List Instr),
      (m = .selvedge → exec cmd s = .next s) ∧
      (m ≠ .selvedge → exec cmd s = .next { s with check := { s.check with
        misuseCnt := satInc s.check.misuseCnt, event := setBit s.check.event 16 } })) ∧
    (data.toNat / 16 % 16 ≤ 8 ∨ data.toNat / 16 % 16 = 15 → (∀ l : LaneId, x.owner.toNat = l.val → laneQuiet (laneOf s l) = true) →
      exec (.chkCfgWrite c data) s = .next (put { x with
        alg := data.extractLsb' 0 3, core := data.getLsbD 3, owner := data.extractLsb' 4 4
        running := BitVec.ofNat 64 (x.running.toNat % 2 ^ algWidth (data.toNat % 8)) })) ∧
    (9 ≤ data.toNat / 16 % 16 → data.toNat / 16 % 16 ≤ 14 → ∃ t, exec (.chkCfgWrite c data) s = .next t ∧
      t.check = s.check ∧ t = { s with mor := t.mor }) ∧
    (∀ l : LaneId, x.owner.toNat = l.val → laneQuiet (laneOf s l) = false → ∃ t, exec (.chkCfgWrite c data) s = .next t ∧
      t.check = s.check ∧ t = { s with mor := t.mor }))

/-- The frames across the field barrier (R365, R368, R371 to R373, R379, R382, Tables 12.3, 12.6, 12.7): a field frame
shows the channels and gives an item per edge; a release frame is applied as CLEAR, then REARM, then ON; lost frames
are declared, and silence for T_SS puts every output that is not latched or tripped into its safe state. -/
def Obligations.FieldFrameResult : Prop :=
  (∀ (v0 v1 : BitVec 14) s, powered s 10 = true →
    let f : Fio := { s.fio with group := #v[{ s.fio.group[0] with volt := v0 }, { s.fio.group[1] with volt := v1 }] }
    (s.dbg.frozen = true → exec (.fieldFrame v0 v1) s = .next { s with fio := f }) ∧
    (s.dbg.frozen = false → ∃ t, exec (.fieldFrame v0 v1) s = .next t ∧ t.fio.frame = fieldFrameOf f ∧
      t.fio.fieldOk = (f.fieldOk || !f.lost) ∧ t.fio.group = f.group ∧
      (f.items + 32 ≤ f.eventLimit → ∀ c : Fin 32, t.fio.chan[c].events =
        if f.frame.state.getLsbD c.val ≠ (fieldFrameOf f).state.getLsbD c.val ∧ f.chan[c].cfg.event = true
        then satInc f.chan[c].events else f.chan[c].events) ∧
      (∀ c : Fin 32, t.fio.chan[c] = { f.chan[c] with events := t.fio.chan[c].events }) ∧
      (let old := f.frame
       let new := fieldFrameOf f
       ∀ x ∈ [(0, old.overload, new.overload), (1, old.openWire, new.openWire), (2, old.overtemp, new.overtemp)
        , (3, old.extDrive, new.extDrive)],
        t.fio.event.getLsbD x.1 = (f.event.getLsbD x.1 || (x.2.2 &&& ~~~ x.2.1) != 0)) ∧
      t = { s with fio := t.fio, epoch := t.epoch })) ∧
  (∀ (hot : U32) s, powered s 10 = true →
    (s.fio.release = none → exec (.fieldReleaseFrame hot) s = .next s) ∧
    (∀ w0 w1, s.fio.release = some (w0, w1) → ∃ t, exec (.fieldReleaseFrame hot) s = .next t ∧
      t.fio.release = none ∧ t.fio.tssSeen = false ∧ t.fio.frame = s.fio.frame ∧ t.fio.out = s.fio.out ∧
      (∀ c : Fin 32,
        let x := s.fio.chan[c]
        let g := s.fio.group[c.val / 16]
        let w := if c.val < 16 then w0 else w1
        let on := w.getLsbD (c.val % 16)
        let armed := w.getLsbD 16 && g.rearmOk
        t.fio.chan[c].onBit = on ∧ t.fio.chan[c].cfg = x.cfg ∧
        (x.cfg.output = false → x.state ≠ .groupOff → t.fio.chan[c].state = x.state) ∧
        (x.cfg.output = true →
          (x.state = .off ∨ x.state = .on ∨ x.state = .silent → t.fio.chan[c].state = if on then .on else .off) ∧
          (x.state = .limit → t.fio.chan[c].state = if on then .limit else .off) ∧
          (x.state = .latched → t.fio.chan[c].state =
            if w.getLsbD 17 && !on && !hot.getLsbD c.val then (if g.tripped && !armed then .groupOff else .off)
            else .latched) ∧
          (x.state = .groupOff → g.tripped = true → t.fio.chan[c].state =
            if armed then (if on then .on else .off) else .groupOff))) ∧
      (∀ g : Fin 2, t.fio.group[g] =
        let x := s.fio.group[g]
        let armed := (if g = 0 then w0 else w1).getLsbD 16 && x.tripped && x.rearmOk
        { x with tripped := x.tripped && !armed, rearmOk := x.rearmOk && !armed }) ∧
      (∀ g : Fin 2, (if g = 0 then w0 else w1).getLsbD 16 = true → s.fio.group[g].tripped = true →
        s.fio.group[g].rearmOk = false → t.fio.leftover = true ∧ t.fio.event.getLsbD 6 = true) ∧
      t = { s with fio := t.fio })) ∧
  (∀ s, running s 10 = true →
    (∃ t, exec .fieldHbLost s = .next t ∧ t.fio = { s.fio with
        lost := true, fieldOk := false, framesLost := satAdd s.fio.framesLost 5, event := setBit s.fio.event 9 } ∧
      t.mor = (recordBit s 9 0x2C 9 t.fio.event.toNat 0xFF []).mor ∧ t = { s with fio := t.fio, mor := t.mor }) ∧
    exec .fieldHbReturn s = .next { s with fio := { s.fio with lost := false, fieldOk := true } }) ∧
  (∀ s, powered s 10 = true → ∃ t, exec .tssTimeout s = .next t ∧ t.fio.tssSeen = true ∧
    (∀ c : Fin 32,
      let x := s.fio.chan[c]
      t.fio.chan[c] = if x.cfg.output = true ∧ (x.state = .on ∨ x.state = .limit ∨ x.state = .off)
        then { x with state := .silent, openOn := x.openOn && x.cfg.safeOn } else x) ∧
    t = { s with fio := { s.fio with chan := t.fio.chan, tssSeen := true } })

/-- Field channels and supplies (R364, R378, Tables 12.4, 12.7): an input edge, the current limit, overload and
overtemperature, open wire and external drive each act on their own channel; a supply that trips opens its group's
outputs until it is armed again. -/
def Obligations.FieldChannelResult : Prop :=
  (∀ (c : Fin 32) (b : Bool) s, powered s 10 = true →
    let x := s.fio.chan[c]
    let put := fun (y : FioChan) => { s with fio := { s.fio with chan := s.fio.chan.set c y } }
    let out := x.cfg.output
    exec (.inputFilterEdge c) s = .next (put { x with filtered := !x.filtered }) ∧
    (out = true → x.state = .on → exec (.fioCurrentLimit c true) s = .next (put { x with state := .limit })) ∧
    (out = true → x.state = .limit → exec (.fioCurrentLimit c false) s = .next (put { x with state := .on })) ∧
    (out = false ∨ (x.state ≠ .on ∧ x.state ≠ .limit) → exec (.fioCurrentLimit c b) s = .next s) ∧
    (out = true → x.state = .limit → exec (.fioOverload c) s = .next (put { x with
      overload := true, state := .latched, openOn := false })) ∧
    (out = false ∨ x.state ≠ .limit → exec (.fioOverload c) s = .next s) ∧
    (out = true → exec (.fioOvertemp c) s = .next (put { x with
      overtemp := true, hot := true, state := .latched, openOn := false })) ∧
    (out = false → exec (.fioOvertemp c) s = .next s) ∧
    (chanClosed x = true → exec (.openWireOn c b) s = .next (put { x with openOn := b })) ∧
    (chanClosed x = false → exec (.openWireOn c b) s = .next s ∧
      (out = true → x.cfg.offTest = true → exec (.openWireOff c true) s = .next (put { x with openOff := true })) ∧
      (out = true → exec (.extDrive c true) s = .next (put { x with extDrive := true }))) ∧
    (chanClosed x = true → exec (.openWireOff c true) s = .next s ∧ exec (.extDrive c true) s = .next s) ∧
    exec (.openWireOff c false) s = .next (put { x with openOff := false }) ∧
    exec (.extDrive c false) s = .next (put { x with extDrive := false })) ∧
  (∀ (g : Fin 2) (b : Bool) s, powered s 10 = true →
    let x := s.fio.group[g]
    let put := fun (y : FioGroup) => { s with fio := { s.fio with group := s.fio.group.set g y } }
    exec (.supplyWarn g b) s = .next (put { x with warn := b }) ∧
    (∃ t, exec (.supplyTrip g) s = .next t ∧ t.fio.group = s.fio.group.set g { x with tripped := true, rearmOk := false } ∧
      (∀ c : Fin 32, c.val / 16 = g.val → s.fio.chan[c].cfg.output = true → s.fio.chan[c].state ≠ .latched →
        t.fio.chan[c] = { s.fio.chan[c] with state := .groupOff, openOn := false }) ∧
      (∀ c : Fin 32, c.val / 16 ≠ g.val ∨ s.fio.chan[c].cfg.output = false ∨ s.fio.chan[c].state = .latched →
        t.fio.chan[c] = s.fio.chan[c]) ∧
      t = { s with fio := { s.fio with group := t.fio.group, chan := t.fio.chan } }) ∧
    exec (.rearmPermit g true) s = .next (put { x with rearmOk := false }) ∧
    (x.tripped = true → exec (.rearmPermit g false) s = .next (put { x with rearmOk := true })) ∧
    (x.tripped = false → exec (.rearmPermit g false) s = .next s))

/-- The safety tick (R386, R389 to R391, R396 to R399, R403, R405 to R407, Tables 13.1, 13.6, 13.9): inputs that agree
take their state and inputs that disagree too long latch; speeds follow their edges; functions permit by their
measures; outputs move on by Table 13.6. -/
def Obligations.SafetyTickResult : Prop :=
  ∀ s, running s 10 = true → ∃ t, exec .safetyTick s = .next t ∧
    t.safe.release = none ∧
    (∀ n : Fin 8,
      let x := s.safe.input[n]
      let a := if masked s.safe x.srcA then x.chA else s.safe.frame.a.getLsbD n.val
      let b := if masked s.safe x.srcB then x.chB else s.safe.frame.b.getLsbD n.val
      let agree := inOn x a b || inSafe x a b
      t.safe.input[n].chA = a ∧ t.safe.input[n].chB = b ∧
      (s.safe.release = none → s.safe.sinceDark[1] ≠ 3 →
        (agree = true → t.safe.input[n].count = 0 ∧ t.safe.input[n].state = (inOn x a b && !inFaulty x)) ∧
        (agree = false → t.safe.input[n].count = x.count + 1 ∧ t.safe.input[n].state = false ∧
          t.safe.input[n].discrepancy = (x.discrepancy || decide (x.limit.toNat ≤ x.count + 1))))) ∧
    (∀ i : Fin 4,
      let x := s.safe.speed[i]
      let p := s.safe.frame.plus[i]
      let m := s.safe.frame.minus[i]
      let edges := ((p + m) :: x.edges).take x.win.toNat
      t.safe.speed[i].edges = edges ∧ t.safe.speed[i].net = x.net + BitVec.ofNat 64 p - BitVec.ofNat 64 m ∧
      t.safe.speed[i].v = edges.sum * x.dEdge.toNat * 10 / x.win.toNat) ∧
    (∀ i : Fin 4,
      let x := s.safe.func[i]
      let y := t.safe.func[i]
      let v := t.safe.speed[x.sensor.toNat].v
      let d := s.safe.speed[x.sensor.toNat].dEdge.toNat
      let p := s.safe.frame.plus[x.sensor.toNat] * d
      let m := s.safe.frame.minus[x.sensor.toNat] * d
      s.safe.release = none →
      (x.en = false → y = x) ∧
      (x.en = true → x.chkEn = false → x.state ≠ .fault → x.latched = false →
        speedFaults t.safe.speed[x.sensor.toNat] = 0 →
        (i = 0 → y.state = if v + x.hyst.toNat ≤ x.limit.toNat ∨ (x.state = .permit ∧ v ≤ x.limit.toNat)
          then .permit else .noPermit) ∧
        (i = 1 → y.dist = (if x.fwdForbidden then x.dist + p - m else x.dist + m - p) ∧
          y.state = if y.dist ≤ x.limit.toNat then .permit else .noPermit) ∧
        (i = 2 → y.dist = (if t.safe.func[3].en = true ∧ t.safe.func[3].state = .permit then 0 else x.dist + (p + m)) ∧
          y.state = if y.dist ≤ x.limit.toNat then .permit else .noPermit) ∧
        (i = 3 → y.still = (if v ≤ 138 then min 100000 (x.still + 1) else 0) ∧
          y.state = if 100000 ≤ y.still then .permit else .noPermit))) ∧
    (∀ n : Fin 8,
      let x := s.safe.output[n]
      let st := t.safe.output[n].state
      let on := (s.safe.release.map (fun r => r.word.getLsbD n.val)).getD false
      let demand := demandStands s || !outPermit t.safe n.val || (s.safe.release.isSome && !on)
      let request := s.safe.release.isSome && on && !x.prevOn
      (x.state = .on → st = if demand then .shutdown else .on) ∧
      (x.state = .precheck → x.fault = 0 →
        st = if demand then .shutdown else if s.safe.frame.vl.getLsbD n.val then .on else .precheck) ∧
      (x.state = .shutdown → st = .shutdown) ∧
      (x.state = .safeOff → st = if request ∧ x.en = true ∧ x.offSince + 100000000 ≤ tb3 s ∧
          outPermit t.safe n.val = true ∧ demandStands s = false then .precheck else .safeOff) ∧
      (x.state = .safeOff → st = .safeOff → request = true → t.safe.rejected[n] ≠ 0 ∧ t.safe.event.getLsbD 4 = true) ∧
      (x.state = .locked → s.safe.release = none → st = .locked ∧ t.safe.output[n].fault = x.fault) ∧
      (st ≠ x.state → t.safe.output[n].swH = decide (st = .precheck ∨ st = .on) ∧
        t.safe.output[n].swL = decide (st = .on))) ∧
    t = { s with safe := t.safe, epoch := t.epoch, mor := t.mor }

/-- What happens to the safety block between ticks (R387, R390, R391, R395, R397, R400 to R404, R407, Tables 13.6 to
13.9): input and output faults latch, demands shut every output down, and a fault of a speed input or a check faults
the functions that use it. -/
def Obligations.SafetyEventResult : Prop :=
  (∀ (n : Fin 8) s, running s 10 = true →
    let x := s.safe.input[n]
    (x.count = 0 ∨ x.discrepancy = true → exec (.discrepancyLatch n) s = .next s) ∧
    (x.count ≠ 0 → x.discrepancy = false → ∃ t, exec (.discrepancyLatch n) s = .next t ∧
      t.safe.input = s.safe.input.set n { x with discrepancy := true, state := false, count := max x.count x.limit.toNat } ∧
      t.safe.event.getLsbD 0 = true ∧ t = { s with safe := t.safe, epoch := t.epoch })) ∧
  (∀ (k : Fin 2) s, running s 10 = true →
    (∃ t, exec (.tpsDark k) s = .next t ∧ t.safe.dark = s.safe.dark.set k true ∧
      t.safe.sinceDark = s.safe.sinceDark.set k 0 ∧
      (∀ n : Fin 8, t.safe.input[n].winA[k] = (s.safe.input[n].chA, false, false) ∧
        t.safe.input[n].winB[k] = (s.safe.input[n].chB, false, false) ∧
        t.safe.input[n] = { s.safe.input[n] with winA := t.safe.input[n].winA, winB := t.safe.input[n].winB }) ∧
      t = { s with safe := { s.safe with dark := t.safe.dark, sinceDark := t.safe.sinceDark, input := t.safe.input } }) ∧
    exec (.tpsLight k) s = .next { s with safe := { s.safe with dark := s.safe.dark.set k false } }) ∧
  (∀ (f : SafeFrame) s, running s 10 = true →
    exec (.safetyFieldFrame f) s = .next { s with safe := { s.safe with frame := f, fieldOk := true, lost := false } } ∧
    (s.safe.sent = none → exec .safetyReleaseFrame s = .next s) ∧
    (∀ w, s.safe.sent = some w → exec .safetyReleaseFrame s = .next { s with safe := { s.safe with
      sent := none, release := some ⟨w, false⟩, silent := false, fieldSilent := false } }) ∧
    (∃ t, exec .safetyHbLost s = .next t ∧ t.safe.fieldOk = false ∧ t.safe.lost = true ∧
      t.safe.event.getLsbD 8 = true ∧ shutDown s t ∧
      t.mor = (recordBit s 10 0x18 8 (setBit s.safe.event 8).toNat 0xFF []).mor ∧ t = { s with safe := t.safe, epoch := t.epoch, mor := t.mor }) ∧
    (∃ t, exec .safeSupplyLow s = .next t ∧ t.safe.supplyLow = true ∧ t.safe.event.getLsbD 7 = true ∧ shutDown s t ∧
      t = { s with safe := t.safe, epoch := t.epoch }) ∧
    exec .safeSupplyReturn s = .next { s with safe := { s.safe with supplyLow := false } }) ∧
  (∀ s, powered s 10 = true →
    (∃ t, exec .safetyFieldSilence s = .next t ∧ t.safe.fieldSilent = true ∧
      (∀ n : Fin 8, t.safe.output[n] = { s.safe.output[n] with swH := false, swL := false }) ∧
      t = { s with safe := { s.safe with fieldSilent := true, output := t.safe.output } }) ∧
    (∃ t, exec .safetyTss s = .next t ∧ t.safe.silent = true ∧ shutDown s t ∧
      t = { s with safe := t.safe, epoch := t.epoch })) ∧
  (∀ (n : Fin 8) (low b : Bool) s, running s 10 = true →
    let x := s.safe.output[n]
    (x.state = .shutdown → (∃ t, exec (.shutdownConfirm n) s = .next t ∧ OutputTo s t n .safeOff x.fault 0) ∧
      ∃ t, exec (.shutdownStuck n) s = .next t ∧ OutputTo s t n .locked 6 3) ∧
    (x.state ≠ .shutdown → exec (.shutdownConfirm n) s = .next s ∧ exec (.shutdownStuck n) s = .next s) ∧
    (x.state = .precheck → ∃ t, exec (.precheckTimeout n) s = .next t ∧ OutputTo s t n .locked 3 1) ∧
    (x.state ≠ .precheck → exec (.precheckTimeout n) s = .next s) ∧
    (x.state = .on ∨ x.state = .precheck ∨ x.state = .shutdown →
      (∃ t, exec (.safeOverload n) s = .next t ∧ OutputTo s t n .locked 5 1) ∧
      ∃ t, exec (.safeOvertemp n low) s = .next t ∧ OutputTo s t n .locked 7 (if low then 2 else 1)) ∧
    (x.state = .safeOff ∨ x.state = .locked → exec (.safeOverload n) s = .next s ∧ exec (.safeOvertemp n low) s = .next s) ∧
    (x.state ≠ .on ∨ x.pulseEn = false → ∀ o, exec (.outputTestPulse n low b o) s = .next s) ∧
    (x.state = .on → x.pulseEn = true →
      exec (.outputTestPulse n low false none) s = .next s ∧
      (∃ t, exec (.outputTestPulse n low true none) s = .next t ∧ OutputTo s t n .locked (if low then 2 else 1) (if low then 1 else 2)) ∧
      ∀ m : Fin 8, m ≠ n → s.safe.output[m].state = .on → ∃ t, exec (.outputTestPulse n low b (some m)) s = .next t ∧
        (∀ k : Fin 8, k = n ∨ k = m → t.safe.output[k].state = .locked ∧ t.safe.output[k].fault = 4 ∧
          t.safe.output[k].swH = false ∧ t.safe.output[k].swL = false ∧
          t.safe.output[k].first = (if low then 1 else 2)) ∧ (∀ k, k ≠ n → k ≠ m → t.safe.output[k] = s.safe.output[k])) ∧
    (x.state = .on → exec (.openLoad n true) s = .next { s with safe := { s.safe with
      output := s.safe.output.set n { x with openLoad := true }, event := setBit s.safe.event 6 } }) ∧
    (x.state ≠ .on → exec (.openLoad n true) s = .next s) ∧
    exec (.openLoad n false) s = .next { s with safe := { s.safe with
      output := s.safe.output.set n { x with openLoad := false } } }) ∧
  (∀ (i : Fin 4) (fault : BitVec 4) s, running s 10 = true →
    let x := s.safe.speed[i]
    ∃ t, exec (.speedInputFault i fault) s = .next t ∧
      t.safe.speed = s.safe.speed.set i { x with
        wireA := x.wireA || fault.getLsbD 0, wireB := x.wireB || fault.getLsbD 1, illegal := x.illegal || fault.getLsbD 2
        freq := x.freq || fault.getLsbD 3, present := x.present ||| fault } ∧
      (∀ k : Fin 4, let f := s.safe.func[k]
        (f.en = true → f.sensor.toNat = i.val ∨ (f.chkEn = true ∧ f.check.toNat = i.val) → fault ≠ 0 →
          t.safe.func[k].state = .fault) ∧
        ((funcSpeedFault s.safe f).1 = 0 → f.sensor.toNat ≠ i.val → (f.chkEn = true → f.check.toNat ≠ i.val) →
          t.safe.func[k] = f) ∧
        (f.en = false → t.safe.func[k] = f)) ∧
      t = { s with safe := t.safe, epoch := t.epoch }) ∧
  (∀ (k : Fin 4) s, running s 10 = true →
    let f := s.safe.func[k]
    (f.en = false ∨ f.chkEn = false ∨ checkDiffers s.safe f = false → exec (.checkDiffFault k) s = .next s) ∧
    (f.en = true → f.chkEn = true → checkDiffers s.safe f = true → ∃ t, exec (.checkDiffFault k) s = .next t ∧
      t.safe.func[k].state = .fault ∧ (f.state ≠ .fault → t.safe.func[k].faultCode = 5 ∧ t.safe.func[k].latched = true) ∧
      (∀ j, j ≠ k → t.safe.func[j] = s.safe.func[j]) ∧ t = { s with safe := t.safe, epoch := t.epoch })) ∧
  (∀ s, running s 10 = true →
    let f := s.safe.func[3]
    let v := s.safe.speed[f.sensor.toNat].v
    (f.en = false ∨ f.state = .fault ∨ 138 < v → exec .standstillReached s = .next s) ∧
    (f.en = true → f.state ≠ .fault → v ≤ 138 → ∃ t, exec .standstillReached s = .next t ∧
      t.safe.func[3] = { f with still := 100000, state := .permit } ∧
      (∀ j : Fin 4, j ≠ 3 → t.safe.func[j] = s.safe.func[j]) ∧ t = { s with safe := t.safe, epoch := t.epoch }))

/-- Analog channels (R418, R424 to R428, R432, Table 14.1): an F_h sample enters window, envelope, history and limit
comparator; OPEN and OVERCUR follow the loop current, the burden is disconnected and returns, a chain fault
invalidates its channel, and MU_SYNC marks the configured channels of its mask for a reset. -/
def Obligations.AnalogResult : Prop :=
  (∀ (c : Fin 16) (at16 : Nat) (code : BitVec 24) s, running s 11 = true →
    let x := s.muslin.chan[c]
    let v := max code.toInt (-8388607)
    let g := x.cfg
    let hyst : Int := g.hyst.toNat
    (x.cfg.range = 0 ∨ x.valid = false → exec (.analogSample c at16 code) s = .next s) ∧
    (x.cfg.range ≠ 0 → x.valid = true → ∃ t, exec (.analogSample c at16 code) s = .next t ∧
      let y := t.muslin.chan[c]
      y.count = x.count + 1 ∧ y.runMax = (if x.count = 0 then v else max x.runMax v) ∧
      y.runMin = (if x.count = 0 then v else min x.runMin v) ∧ y.sumSq = x.sumSq + v.natAbs * v.natAbs ∧
      y.e = x.e + ((v.natAbs : Int) - x.e) /
        2 ^ (if x.e < (v.natAbs : Int) then g.attack.toNat + 2 else g.release.toNat + 2) ∧
      y.history = ((at16, v) :: x.history).take 48 ∧ x.samples <+: y.samples ∧ y.cfg = g ∧
      (v.natAbs = 8388607 ∨ (g.range = 2 ∧ v < -163840) → y.ovrNow = true) ∧
      (g.evtEn = false → t.epoch = s.epoch ∧ y.events = x.events) ∧
      (x.limit = .normal → y.limit = if g.high.toInt < v then .high else if v < g.low.toInt then .low else .normal) ∧
      (x.limit = .high → y.limit =
        if v < g.high.toInt - hyst then (if v < g.low.toInt then .low else .normal) else .high) ∧
      (x.limit = .low → y.limit =
        if g.low.toInt + hyst < v then (if g.high.toInt < v then .high else .normal) else .low) ∧
      (∀ d : Fin 16, d ≠ c → t.muslin.chan[d] = s.muslin.chan[d]) ∧
      t = { s with muslin := t.muslin, epoch := t.epoch })) ∧
  (∀ (c : Fin 16) s, running s 11 = true →
    let m := s.muslin
    let x := m.chan[c]
    let put := fun (y : MuChan) (e : BitVec 7) => { s with muslin := { m with chan := m.chan.set c y, event := e } }
    (x.cfg.range ≠ 4 → ∀ b, exec (.analogOpen c b) s = .next s ∧ exec (.analogOvercur c b) s = .next s ∧
      exec (.burdenDisconnect c) s = .next s) ∧
    (x.cfg.range = 4 →
      (x.openFlag = false → exec (.analogOpen c true) s = .next (put { x with
        openFlag := true, openSeen := true } (setBit m.event 1))) ∧
      (x.openFlag = true → x.disconnected = false →
        exec (.analogOpen c false) s = .next (put { x with openFlag := false } m.event)) ∧
      (x.openFlag = true → x.disconnected = true → exec (.analogOpen c false) s = .next s) ∧
      (x.overcur = false → exec (.analogOvercur c true) s = .next (put { x with
        overcur := true, overcurSeen := true } (setBit m.event 2))) ∧
      (x.overcur = true → exec (.analogOvercur c false) s = .next (put { x with overcur := false } m.event)) ∧
      (x.disconnected = false → exec (.burdenDisconnect c) s = .next (put { x with
        disconnected := true, openFlag := true, openSeen := true } (if x.openFlag then m.event else setBit m.event 1))) ∧
      (x.disconnected = true → exec (.burdenDisconnect c) s = .next s)) ∧
    exec (.burdenReconnect c) s = .next (put { x with disconnected := false } m.event) ∧
    (x.cfg.range = 0 → exec (.chainFault c) s = .next s) ∧
    (x.cfg.range ≠ 0 → ∃ t, exec (.chainFault c) s = .next t ∧
      t.mor = (recordBit s 11 0x404 6 (setBit m.event 6).toNat 0xFF [BitVec.ofNat 8 c.val]).mor ∧
      t = { put { x with
        valid := false, faults := tb3 s :: x.faults, resetDue := some (x.resetDue.getD 0)
        dead := x.dead || x.faults.any (fun t => decide (tb3 s ≤ t + 3600000000000)) } (setBit m.event 6) with mor := t.mor })) ∧
  (∀ (data : U32) s, running s 11 = true → ∃ t, exec (.muSyncWrite data) s = .next t ∧
    (∀ c : Fin 16, t.muslin.chan[c] = if data.getLsbD c.val = true ∧ s.muslin.chan[c].cfg.range ≠ 0
      then { s.muslin.chan[c] with resetNow := true } else s.muslin.chan[c]) ∧
    t = { s with muslin := { s.muslin with chan := t.muslin.chan } })

/-- Feeds, the bank and the Calving order (R437 to R442, R444, R445, R447 to R449, Tables 15.2, 15.3): the loss of the
second feed begins stage 1; each stage comes at its time or its threshold and sheds what it names; a feed that returns
in stage 1 or 2 restores; the bank, VBAK and the power measurement are kept. -/
def Obligations.PowerResult : Prop :=
  (∀ (f : Feed) (cv : BitVec 12) s, powered s 0 = true →
    let p := s.power
    let was := match f with | .a => p.aValid | .b => p.bValid
    let other := match f with | .a => p.bValid | .b => p.aValid
    let bit := match f with | .a => 0 | .b => 1
    (was = false → exec (.feedInvalid f cv) s = .next { s with power := putFeed p f cv false }) ∧
    (was = true → other = true ∨ p.stage ≠ 0 → ∃ t, exec (.feedInvalid f cv) s = .next t ∧
      t.mor = (recordBit s 13 0x18 bit (setBit p.event bit).toNat 0xFF []).mor ∧
      t = { s with power := { putFeed p f cv false with event := setBit p.event bit }, mor := t.mor }) ∧
    (was = true → other = false → p.stage = 0 → 224 < p.energy.toNat → ∃ t, exec (.feedInvalid f cv) s = .next t ∧
      t.power.stage = 1 ∧ t.power.stageMax = 1 ∧ t.power.t0 = some (tb3 s) ∧ t.power.losses = satInc p.losses ∧
      t.power.domains = clearBit p.domains 11 ∧ t.power.eth = p.eth &&& 3 ∧ t.power.pf = false ∧ t.power.charging = false ∧
      t.power.event.getLsbD 2 = true ∧ t.power.event.getLsbD 3 = true ∧
      (∀ i : Fin 4, (2 ≤ i.val → t.pkt.port[i].shed = true) ∧ (i.val < 2 → t.pkt.port[i] = s.pkt.port[i])) ∧
      t.rack.pfShed = true ∧ (∀ c : Fin 16, t.muslin.chan[c].valid = false) ∧ t.lanes = s.lanes ∧
      t.mor.flushing = s.mor.running ∧ t = { s with
        power := t.power, pkt := t.pkt, rack := t.rack, muslin := t.muslin, mor := t.mor, mbox := t.mbox, weft := t.weft
        epoch := t.epoch, mem := { s.mem with dram := t.mem.dram } }) ∧
    exec (.feedOver f) s = .next { s with power := { p with event := setBit p.event 8 } }) ∧
  (∀ (f : Feed) (cv : BitVec 12) env s,
    let p := putFeed s.power f cv true
    (s.power.domains = 0 → ∃ t, exec (.feedValid f cv env) s = .next t ∧ Started s t 1 env) ∧
    (s.power.domains ≠ 0 → s.power.stage = 0 →
      exec (.feedValid f cv env) s = .next { s with power := { p with charging := !p.full } }) ∧
    (s.power.domains ≠ 0 → s.power.stage = 1 → stageDue s 12000 224 = false → ∃ t, exec (.feedValid f cv env) s = .next t ∧
      t.power.stage = 0 ∧ t.power.t0 = none ∧ t.power.restoring = true ∧ t.power.domains = s.power.domains ||| 0x860 ∧
      t.power.eth = 0xF ∧ t.power.pf = true ∧ t.power.log.head?.map (·.stageMax) = some s.power.stageMax.toNat ∧
      (∀ i : Fin 4, t.pkt.port[i] = { s.pkt.port[i] with shed := false }) ∧ t.rack.pfShed = false ∧ t.mor.flushing = false)) ∧
  (∀ (e : BitVec 12) t0 s, powered s 0 = true → s.power.t0 = some t0 →
    let at' := fun (us mj : Nat) => if mj < e.toNat then passUntil s 3 (t0 + us * 1000) else s
    (s.power.stage ≠ 1 → exec (.calvingStage2 e) s = .next s) ∧
    (s.power.stage ≠ 2 → exec (.calvingStage3 e) s = .next s) ∧
    (s.power.stage ≠ 4 → exec (.calvingStage5 e) s = .next s) ∧
    (s.power.stage = 1 → let u := at' 12000 224
      e.toNat ≤ 224 ∨ t0 + 12000000 ≤ tb3 u → 112 < e.toNat → tb3 u < t0 + 16000000 →
      ∃ t, exec (.calvingStage2 e) s = .next t ∧ t.power.stage = 2 ∧ t.power.energy = e ∧
        t.power.backstop = decide (tb3 u < t0 + 12000000) ∧ t.power.domains = s.power.domains &&& ~~~0x060 ∧
        t.power.event.getLsbD 3 = true ∧
        (∀ l : LaneId, 4 ≤ l.val → (laneOf s l).epochState ≠ .stopped → (laneOf s l).epochState ≠ .shed →
          (laneOf t l).epochState = (if (laneOf s l).disabled then .stopped else .shed) ∧
          (laneOf t l).gate = [] ∧ (laneOf t l).drift = []) ∧
        (∀ l : LaneId, l.val < 4 ∨ (laneOf s l).epochState = .stopped ∨ (laneOf s l).epochState = .shed →
          laneOf t l = laneOf s l) ∧
        t = { u with power := t.power, lanes := { s.lanes with lane := t.lanes.lane }
                     weft := { s.weft with ownDigest := t.weft.ownDigest } }) ∧
    (s.power.stage = 2 → let u := at' 16000 112
      e.toNat ≤ 112 ∨ t0 + 16000000 ≤ tb3 u → 14 < e.toNat → tb3 u < t0 + 20000000 →
      ∃ t, exec (.calvingStage3 e) s = .next t ∧ t.power.stage = 4 ∧ t.power.stageMax = 4 ∧
        t.power.backstop = decide (tb3 u < t0 + 16000000) ∧ t.power.deep = satInc s.power.deep ∧
        (s.dbg.frozen = false → t.weft.stopped = true ∧ t.safe.calved = true ∧ t.rack.outQueue = [] ∧
          t.rack.openAccess = none ∧ (∀ n : Fin 8, t.safe.output[n].state ≠ .on ∧ t.safe.output[n].state ≠ .precheck) ∧
          (s.mor.ring.length < morCapacity s.mor → ∃ r ∈ t.mor.ring, r.code = 0xFF06))) ∧
    (s.power.stage = 4 → let u := at' 20000 14
      e.toNat ≤ 14 ∨ t0 + 20000000 ≤ tb3 u → ∃ t, exec (.calvingStage5 e) s = .next t ∧ t.power.stage = 5 ∧
        t.power.domains = (if s.power.vbakOk then 1 else 0) ∧ t.power.eth = 0 ∧
        t.power.full = false ∧ t.power.charging = false ∧
        (∀ n : Fin 8, t.safe.output[n].swH = false ∧ t.safe.output[n].swL = false ∧
          t.safe.output[n].state = if s.safe.output[n].state = .locked then .locked else .safeOff) ∧
        (∀ c : Fin 32, s.fio.chan[c].cfg.output = true → t.fio.chan[c].state = .off) ∧
        (∀ i : Fin 16, t.time.cap[i].en = false) ∧ (∀ i : Fin 8, t.time.tpo[i].active = false ∧ t.time.tpo[i].hiZ = true) ∧
        (linkOf t .a).state = .down ∧ (linkOf t .b).state = .down ∧ t.mor.running = false)) ∧
  (∀ s, powered s 0 = true →
    let p := s.power
    (restoreDone s = false → exec .restoreComplete s = .next s) ∧
    (restoreDone s = true → exec .restoreComplete s = .next { s with
      power := { p with restoring := false, restoreLanes := 0, event := setBit p.event 4 } }) ∧
    (p.full = true → p.aValid = true ∨ p.bValid = true → p.stage = 0 → p.measuring = false →
      exec .holdupTestDaily s = .next { s with power := { p with measuring := true } }) ∧
    (p.full = false ∨ (p.aValid = false ∧ p.bValid = false) ∨ p.stage ≠ 0 ∨ p.measuring = true →
      exec .holdupTestDaily s = .next s) ∧
    (p.charging = false → exec .bankFull s = .next s) ∧
    (p.charging = true → ∃ t, exec .bankFull s = .next t ∧ t.power.full = true ∧ t.power.charging = false ∧
      (if p.cap = 0 then 560 ≤ t.power.energy.toNat else t.power.energy = p.cap) ∧
      t = { s with power := { p with full := true, charging := false, energy := t.power.energy }
                   freeCtr := s.freeCtr + 1 }) ∧
    (∀ cap : BitVec 12,
      (p.measuring = false → exec (.holdupMeasureDone cap) s = .next s) ∧
      (p.measuring = true → ∃ t, exec (.holdupMeasureDone cap) s = .next t ∧ t.power.measuring = false ∧
        t.power.testPair = none ∧ t.power.cap = cap ∧ t.power.energy = cap ∧ t.power.lowCap = decide (cap.toNat < 560) ∧
        t.power.event = (if cap.toNat < 560 then setBit p.event 6 else p.event) ∧
        (∀ i : PairId, p.testPair = some i.val → (pairAt s i.val).state = .serving → (pairAt t i.val).state = .done) ∧
        (560 ≤ cap.toNat → t.mor = s.mor) ∧
        (cap.toNat < 560 → t.mor = (recordBit s 13 0x18 6 t.power.event.toNat 0xFF []).mor) ∧
        Messaged { s with power := t.power, mor := t.mor } t)) ∧
    (∀ mv : BitVec 12, exec (.vbakLow mv) s = .next { s with power := { p with
        vbak := mv, vbakOk := false, event := if p.vbakOk then setBit p.event 7 else p.event
        domains := if p.stage = 5 then 0 else p.domains } }) ∧
    (running s 1 = true → ∃ t, exec .pwrDrawRead s = .next t ∧ t.power.peak = 0 ∧
      t.readData.toNat / 65536 = max p.peak.toNat t.power.power.toNat ∧ t.readData.toNat % 65536 = t.power.power.toNat ∧
      t = { s with power := { p with power := t.power.power, peak := 0 }, readData := t.readData
                   freeCtr := s.freeCtr + 1 }) ∧
    (∀ env, powered s 1 = true → s.dbg.frozen = false → p.stage = 4 →
      (p.returned = true → ∃ t, exec (.calvingFlushDone env) s = .next t ∧ Started { s with mor := morFlush s.mor } t 7 env) ∧
      (p.returned = false → ∃ t, exec (.calvingFlushDone env) s = .next t ∧ t.mor.staged = [] ∧ t.mor.flushing = false ∧
        t = { s with mor := t.mor })) ∧
    (∀ env, p.stage ≠ 4 → exec (.calvingFlushDone env) s = .next s)) ∧
  (∀ (mv : BitVec 12) s, exec (.vbakReturn mv) s = .next { s with power := { s.power with vbak := mv, vbakOk := true } }) ∧
  (∀ (pins : BitVec 2) s, ∃ t, exec (.slotPinChange pins) s = .next t ∧ t.slot = s.slot ∧ t.slotPins = pins ∧
    (powered s 0 = false ∨ pins = s.slotPins → t = { s with slotPins := pins }) ∧
    t = { s with slotPins := pins, mor := t.mor, freeCtr := t.freeCtr })

/-- Starts and resets (R234 to R236, R451, R454 to R458, R468, R492, Tables 7.13, 16.1 to 16.3): what each cause of a
restart does, on which path a start ends, and what the supervisor and the reset line do. -/
def Obligations.StartResult : Prop :=
  (∀ (f : Feed) (cause : BitVec 8) env s,
    (awaitsPower s = true → (∃ t, exec (.powerOn f env) s = .next t ∧
        Started s t (if powered s 0 = true ∧ s.power.stage = 5 then 2 else 1) env) ∧
      exec (.moduleReset cause env) s = .next s ∧ exec (.supervisorRestart env) s = .next s ∧
      exec (.pd0SupervisorFault env) s = .next s ∧ ∀ n, exec (.resetRequest n env) s = .next s) ∧
    (awaitsPower s = false → exec (.powerOn f env) s = .next s ∧
      (1 ≤ cause.toNat → cause.toNat ≤ 8 → ∃ t, exec (.moduleReset cause env) s = .next t ∧ Started s t cause env) ∧
      (cause.toNat = 0 ∨ 8 < cause.toNat → exec (.moduleReset cause env) s = .next s) ∧
      (∀ n, s.boot.rst ≠ .stuck → 50 ≤ n → n ≤ 8000 → ∃ t, exec (.resetRequest n env) s = .next t ∧ Started s t 3 env) ∧
      (∀ n, s.boot.rst = .stuck ∨ n < 50 ∨ 8000 < n → exec (.resetRequest n env) s = .next s) ∧
      (s.time.refMissing = true → ∃ t, exec (.supervisorRestart env) s = .next t ∧ Started s t 6 env) ∧
      (s.time.refMissing = false → s.mbox.failed = true → ∃ t, exec (.supervisorRestart env) s = .next t ∧ Started s t 5 env) ∧
      (s.time.refMissing = false → s.mbox.failed = false → exec (.supervisorRestart env) s = .next s) ∧
      ∃ t, exec (.pd0SupervisorFault env) s = .next t ∧ Started s t 8 env)) ∧
  (∀ env s t, awaitsPower s = false → s.sec.pendingSlot = 0 → exec (.pd0SupervisorFault env) s = .next t →
    let r := dirNow s
    let ends := fun (reason : BitVec 8) => t.boot.recovery = true ∧ t.boot.reason = reason ∧ t.boot.bootLock = true ∧
      t.power.domains.getLsbD 7 = true ∧ t.power.domains.getLsbD 2 = false
    (env.loaderOk = false ∨ env.selvedgeOk = false →
      t.boot.noStart = true ∧ t.boot.recovery = false ∧ t.power.domains = 3) ∧
    (env.loaderOk = true → env.selvedgeOk = true →
      (r.recoveryReq = true → ends 3) ∧
      (r.recoveryReq = false → r.bank = .writing ∨ r.bank = .invalid → ends 2) ∧
      (r.recoveryReq = false → r.bank = .valid ∨ r.bank = .complete →
        (setIntegrity s = false → ends 1) ∧
        (setIntegrity s = true → env.dramOk = false → ends 4) ∧
        (setIntegrity s = true → env.dramOk = true → env.step7Ok = false →
          (s.boot.failedEarly = true → ends 5) ∧ (s.boot.failedEarly = false → t.mbox.failed = true ∧ t.boot.failedEarly = true)) ∧
        (setIntegrity s = true → env.dramOk = true → env.step7Ok = true → t.boot.recovery = false ∧ t.boot.noStart = false ∧
          t.boot.bootLock = true ∧ t.boot.step = 7 ∧ t.epoch.running = true ∧ t.mor.running = true)))) ∧
  (∀ s, powered s 0 = true →
    (s.boot.rst = .stuck → exec .rstStuck s = .next s ∧
      exec .rstUnstuck s = .next { s with boot := { s.boot with rst := .idle } }) ∧
    (s.boot.rst ≠ .stuck → exec .rstUnstuck s = .next s ∧ ∃ t, exec .rstStuck s = .next t ∧
      t = { s with boot := { s.boot with rst := .stuck, rstStuckService := true }, mor := t.mor })) ∧
  (∀ s (data : U32),
    (running s 1 = true → s.mbox.failed = false → s.boot.noStart = false →
      exec (.heartbeatWrite data) s = .next { s with mbox := { s.mbox with heartbeat := tb3 s } } ∧
      ∃ t, exec .heartbeatTimeout s = .next t ∧ t.mbox = { s.mbox with failed := true } ∧
        t = { s with mbox := t.mbox, weft := { s.weft with abstainNext := true }, boot := t.boot, mor := t.mor
                     freeCtr := t.freeCtr }) ∧
    (running s 1 = false ∨ s.mbox.failed = true ∨ s.boot.noStart = true →
      exec (.heartbeatWrite data) s = .next s ∧ exec .heartbeatTimeout s = .next s))

/-- A step runs the command at the front of the queue on the state with the queue's rest (log entry 1); with an empty
queue 10 ns of the reference pass, and a stored word may go wrong (R271, R224; log entries 2 and 98, the model's
choices); nothing else changes. -/
def Obligations.StepRunsFrontCommand : Prop :=
  (∀ (c : Instr) s, step { s with pending := c :: s.pending } = exec c s) ∧
  (∀ s, s.pending = [] → ∃ t, step s = .next t ∧
    (powered s 0 = true → s.time.refMissing = false → ∀ k : Fin 4,
      (s.time.tbHeld = true → k.val ≠ 3 → t.time.tb[k] = s.time.tb[k]) ∧
      (s.time.tbHeld = false ∨ k.val = 3 → t.time.tb[k] = { s.time.tb[k] with
        value := tbOfFine ((tbFine s.time.tb[k].value : Int) + (s.time.tb[k].incr + s.time.tb[k].adj)).toNat
        busy := s.time.tb[k].busy && s.time.tb[k].heldMeas.isSome })) ∧
    (powered s 0 = false ∨ s.time.refMissing = true → t.time.tb = s.time.tb) ∧
    (t.mem.upsets = s.mem.upsets ∨ ∃ u, t.mem.upsets = u :: s.mem.upsets) ∧
    t = { s with time := { s.time with tb := t.time.tb }, mem := { s.mem with upsets := t.mem.upsets }
                 freeCtr := s.freeCtr + 1 })

/-- Reset values that the register tables state (Tables 2.13, 4.13, 8.9, 8.10, 9.11, 10.11, 11.4, 13.14, 13.15, 14.9,
18.6), on a module that has no power yet: no domain is on and nothing waits; its memories have their canonical form
(log entry 12). -/
def Obligations.ResetValues : Prop :=
  let s := State.reset
  memoriesWf s = true ∧ s.pending = [] ∧ s.power.domains = 0 ∧ s.epoch.warnLead = 20 ∧
  (∀ k : Fin 4, tbFine s.time.tb[k].value = 0 ∧ s.time.tb[k].incr = 10 * 2 ^ 32 ∧ s.time.tb[k].kp = 21 ∧
    s.time.tb[k].ki = 24 ∧ s.time.tb[k].lockNs = (if k.val = 2 then 50 else 1000) ∧ s.time.tb[k].holdS = 60) ∧
  s.pkt.mgmtVid = 1 ∧ s.rack.retryLimit = 64 ∧ s.rack.owner = 15 ∧
  (∀ c : Fin 16, s.check.ctx[c].alg = 0 ∧ s.check.ctx[c].owner = 15) ∧
  (∀ c : Fin 16, s.muslin.chan[c].cfg.range = 0 ∧ s.muslin.chan[c].cfg.ne = 1) ∧
  s.mor.flushMs = 1000 ∧ s.mor.rate = 256 ∧ s.fio.tssMs = 20 ∧
  (∀ n : Fin 8, s.safe.output[n].state = .safeOff) ∧ s.power.stage = 0

/-- Every memory reads back what was written to it, little-endian (R13), and a write, a fill with zeros or a copy leaves
every other byte as it was. -/
def Obligations.MemoryReadBack : Prop :=
  (∀ (m : Mem) a bs, memBytes (memWrite m a bs) a bs.length = bs ∧
    (∀ x, x < a ∨ a + bs.length ≤ x → memGet (memWrite m a bs) x = memGet m x)) ∧
  (∀ (m : Mem) a n v, memLe (memPutLe m a n v) a n = v % 256 ^ n ∧
    (∀ x, x < a ∨ a + n ≤ x → memGet (memPutLe m a n v) x = memGet m x)) ∧
  (∀ (m : Mem) a (be : BitVec 4) (v : U32) x, memGet (memPutBe m a be v) x =
    if a ≤ x ∧ x < a + 4 ∧ be.getLsbD (x - a) = true then v.extractLsb' (8 * (x - a)) 8 else memGet m x) ∧
  (∀ (m : Mem) a n x, memGet (memZero m a n) x = if a ≤ x ∧ x < a + n then 0 else memGet m x) ∧
  (∀ (m src : Mem) da sa n x, memGet (memCopy m da src sa n) x =
    if da ≤ x ∧ x < da + n then memGet src (x - da + sa) else memGet m x)

/-- No command stops the module: every step answers a next state (chapter 95; section 7.6 has no command without an
answer). What manufacture fixes stays as it is, and a step takes exactly the front command from the queue (R459, R463,
R490, R491; the queue is the model's own, log entry 1). -/
def Obligations.StepCompletesAndKeeps : Prop :=
  ∀ s, ∃ t, step s = .next t ∧ t.otp = s.otp ∧ t.pending = s.pending.tail

/-- Every step keeps every memory of the module in its canonical form: addresses strictly rising, no byte listed that
equals what an unlisted address reads as (log entry 12, the model's own form of the memories of Tables 6.1 and 6.3 and
of the flash). -/
def Obligations.StepKeepsMemoryForm : Prop :=
  ∀ s t, memoriesWf s = true → step s = .next t → memoriesWf t = true
end

