-- ==== Sys2Proof/Laws/Bytes.lean ====
section
/-! SUPPORT. Reading a field out of bytes that were put together field by field. -/

namespace Sys2Proof.Machine

open Sys2Proof

@[simp] theorem length_leBytes (k n : Nat) : (leBytes k n).length = k := by
  induction k generalizing n with
  | zero => rfl
  | succ k ih => simp [leBytes, ih]

@[simp] theorem length_slice (bs : List Byte) (off n : Nat) : (slice bs off n).length = n := by
  simp only [slice, List.length_append, List.length_take, List.length_drop, List.length_replicate]
  omega

@[simp] theorem length_fit (n : Nat) (bs : List Byte) : (fit n bs).length = n := length_slice _ _ _

@[simp] theorem length_zeros (n : Nat) : (zeros n).length = n := by
  simp [zeros]

/-- Bytes that lie inside are cut out of the list itself. -/
theorem slice_inside (bs : List Byte) (off n : Nat) (h : off + n ≤ bs.length) : slice bs off n = (bs.drop off).take n := by
  have : ((bs.drop off).take n).length = n := by
    simp
    omega
  simp only [slice, this, Nat.sub_self, List.replicate_zero, List.append_nil]

/-- A field that lies in the first part of some bytes. -/
theorem leAt_append_left (xs ys : List Byte) (off n : Nat) (h : off + n ≤ xs.length) :
    leAt (xs ++ ys) off n = leAt xs off n := by
  unfold leAt
  rw [slice_inside _ _ _ (by simp; omega), slice_inside _ _ _ h, List.drop_append_of_le_length (by omega),
    List.take_append_of_le_length (by simp; omega)]

/-- A field that lies in the second part of some bytes. -/
theorem leAt_append_right (xs ys : List Byte) (off n : Nat) (h : xs.length ≤ off) :
    leAt (xs ++ ys) off n = leAt ys (off - xs.length) n := by
  unfold leAt slice
  rw [List.drop_append, List.drop_eq_nil_of_le h, List.nil_append]

theorem ofLe_leBytes (k n : Nat) : ofLe (leBytes k n) = n % 256 ^ k := by
  induction k generalizing n with
  | zero => simp [leBytes, ofLe, Nat.mod_one]
  | succ k ih =>
    rw [leBytes, ofLe, ih, BitVec.toNat_ofNat, show 256 ^ (k + 1) = 2 ^ 8 * 256 ^ k from (Nat.pow_succ ..).trans (Nat.mul_comm ..)]
    exact (Nat.mod_mul).symm

/-- A number reads back from its little-endian bytes, cut to their width (R13). -/
theorem leAt_leBytes (k n : Nat) : leAt (leBytes k n) 0 k = n % 256 ^ k := by
  unfold leAt
  rw [slice_inside _ _ _ (by simp), List.drop_zero, List.take_of_length_le (by simp), ofLe_leBytes]

end Sys2Proof.Machine
end

