-- ==== Sys2Proof/Laws/Rounding.lean ====
section
/-! SUPPORT. One rounding: the encodings of binary64, the rounding modes, and `fRound` against `RoundsTo`. -/

namespace Sys2Proof.Machine

open Sys2Proof

theorem fExp_eq (x : Word) : fExp x = x.toNat / 2 ^ 52 % 2 ^ 11 := by
  simp [fExp, BitVec.extractLsb'_toNat, Nat.shiftRight_eq_div_pow]

theorem fFrac_eq (x : Word) : fFrac x = x.toNat % 2 ^ 52 := by
  simp [fFrac, BitVec.extractLsb'_toNat]

theorem fFrac_lt (x : Word) : fFrac x < 2 ^ 52 := by
  rw [fFrac_eq]; exact Nat.mod_lt _ (by norm_num)

theorem fExp_lt (x : Word) : fExp x < 2048 := by
  rw [fExp_eq]; exact Nat.mod_lt _ (by norm_num)

theorem fDecode_eq (x : Word) : fDecode x =
    if fExp x = 2047 then if fFrac x = 0 then .inf (x.getLsbD 63) else .nan (!x.getLsbD 51)
    else if fExp x = 0 then .fin (x.getLsbD 63) (fFrac x) (-1074)
    else .fin (x.getLsbD 63) (fFrac x + 2 ^ 52) ((fExp x : Int) - 1075) := by
  simp only [fDecode, fExp_eq, fFrac_eq, fSign]

theorem fIsNan_iff (x : Word) : fIsNan x = true ↔ fNaN x := by
  simp only [fIsNan, fDecode_eq, fNaN]; split_ifs <;> simp_all

theorem fIsSnan_iff (x : Word) : fIsSnan x = true ↔ fSignals x := by
  simp only [fIsSnan, fDecode_eq, fSignals, fNaN]; split_ifs <;> simp_all

theorem fDecode_nan {x : Word} (h : fNaN x) : fDecode x = .nan (!x.getLsbD 51) := by
  simp [fDecode_eq, h.1, h.2]

theorem fDecode_inf {x : Word} (h : fInfinite x) : fDecode x = .inf (x.getLsbD 63) := by
  simp [fDecode_eq, h.1, h.2]

/-- A sign applied to a magnitude. -/
def signed (neg : Bool) (y : ℝ) : ℝ := if neg then -y else y

/-- A finite encoding decodes to its sign and its magnitude. -/
theorem fDecode_fin {x : Word} (h : fFinite x) : ∃ (m : ℕ) (e : ℤ), fDecode x = .fin (x.getLsbD 63) m e ∧
    fNum x = (if x.getLsbD 63 then -1 else 1) * ((m : ℚ) * 2 ^ e) ∧ m < 2 ^ 53 ∧ -1074 ≤ e := by
  have hf := fFrac_lt x
  by_cases h0 : fExp x = 0
  · refine ⟨_, _, by simp only [fDecode_eq, h0]; rfl, by simp [fNum, h0], by omega, by omega⟩
  · refine ⟨fFrac x + 2 ^ 52, (fExp x : Int) - 1075, by simp only [fDecode_eq, if_neg h, if_neg h0],
      by simp [fNum, h0, add_comm], by omega, by omega⟩

theorem bitLen_le (n : Nat) (h : 0 < n) : 2 ^ (bitLen n - 1) ≤ n := by
  simp [bitLen, Nat.pos_iff_ne_zero.1 h, Nat.log2_self_le]

theorem lt_bitLen (n : Nat) : n < 2 ^ bitLen n := by
  unfold bitLen; split_ifs with h
  · simp [h]
  · exact Nat.lt_log2_self

theorem bitLen_pos {n : Nat} (h : 0 < n) : 0 < bitLen n := by
  simp [bitLen, Nat.pos_iff_ne_zero.1 h]

theorem bitLen_le_of_lt {n k : Nat} (h : n < 2 ^ k) : bitLen n ≤ k := by
  by_contra hk
  have hn : 0 < n := by
    rcases Nat.eq_zero_or_pos n with rfl | h'
    · simp [bitLen] at hk
    · exact h'
  have := bitLen_le n hn
  have := Nat.pow_le_pow_right (n := 2) (by norm_num) (show k ≤ bitLen n - 1 by omega)
  omega

theorem lt_bitLen_of_le {n k : Nat} (h : 2 ^ k ≤ n) : k < bitLen n := by
  by_contra hk
  have := lt_bitLen n
  have := Nat.pow_le_pow_right (n := 2) (by norm_num) (show bitLen n ≤ k by omega)
  omega

/-- The fields of an encoding put together. -/
theorem fields_of (neg : Bool) (e f : Nat) (he : e < 2048) (hf : f < 2 ^ 52) :
    let w : Word := BitVec.ofNat 64 ((if neg then 2 ^ 63 else 0) + e * 2 ^ 52 + f)
    fExp w = e ∧ fFrac w = f ∧ w.getLsbD 63 = neg := by
  intro w
  have hw : w.toNat = (if neg then 2 ^ 63 else 0) + e * 2 ^ 52 + f := by
    simp only [w, BitVec.toNat_ofNat]; split_ifs <;> omega
  refine ⟨?_, ?_, ?_⟩
  · rw [fExp_eq, hw]; split_ifs <;> omega
  · rw [fFrac_eq, hw]; split_ifs <;> omega
  · rw [BitVec.getLsbD, hw, Nat.testBit_eq_decide_div_mod_eq]
    cases neg <;> simp <;> omega

theorem fNum_of_fields (w : Word) (neg : Bool) (e f : Nat) (hw : fExp w = e ∧ fFrac w = f ∧ w.getLsbD 63 = neg) :
    fNum w = (if neg then -1 else 1) *
      (if e = 0 then (f : ℚ) * 2 ^ (-1074 : ℤ) else ((2 ^ 52 + f : ℕ) : ℚ) * 2 ^ ((e : ℤ) - 1075)) := by
  simp only [fNum, hw.1, hw.2.1, hw.2.2]

theorem pow_zpow (a b c : ℤ) (k : ℕ) (h : a + k = b + c) : (2 : ℚ) ^ k * 2 ^ a = 2 ^ b * 2 ^ c := by
  rw [← zpow_natCast, ← zpow_add₀ (by norm_num), ← zpow_add₀ (by norm_num)]; congr 1; omega

/-- `fEncode` gives the encoding of a number that binary64 holds (IEEE 754-2019). -/
theorem fEncode_num (neg : Bool) (man : Nat) (exp : Int) (h0 : 0 < man) (h1 : man ≤ 2 ^ 53) (h2 : -1074 ≤ exp)
    (h3 : exp + bitLen man ≤ 1024) :
    fFinite (fEncode neg man exp) ∧ fNum (fEncode neg man exp) = (if neg then -1 else 1) * ((man : ℚ) * 2 ^ exp) ∧
      (fEncode neg man exp).getLsbD 63 = neg := by
  have hb := bitLen_le man h0
  have hb' := lt_bitLen man
  have hbp := bitLen_pos h0
  simp only [fEncode, if_neg (Nat.pos_iff_ne_zero.1 h0)]
  by_cases ht : exp + (bitLen man : Int) - 1 < -1022
  · rw [if_pos ht]
    obtain ⟨k, hk⟩ : ∃ k : ℕ, exp + 1074 = k := ⟨(exp + 1074).toNat, by omega⟩
    have hkn : (-(exp + 1074)).toNat = 0 := by omega
    rw [hkn, hk, Int.toNat_natCast, pow_zero, Nat.div_one]
    have hM : man * 2 ^ k < 2 ^ 52 := by
      calc man * 2 ^ k < 2 ^ bitLen man * 2 ^ k := Nat.mul_lt_mul_of_pos_right hb' (by positivity)
        _ = 2 ^ (bitLen man + k) := by rw [pow_add]
        _ ≤ 2 ^ 52 := Nat.pow_le_pow_right (by norm_num) (by omega)
    have hw := fields_of neg 0 (man * 2 ^ k) (by norm_num) hM
    simp only [zero_mul, add_zero] at hw
    refine ⟨by rw [fFinite, hw.1]; norm_num, ?_, hw.2.2⟩
    rw [fNum_of_fields _ _ _ _ hw, if_pos rfl]
    rw [Nat.cast_mul, Nat.cast_pow, Nat.cast_ofNat, mul_assoc (man : ℚ), ← zpow_natCast, ← zpow_add₀ (by norm_num), show (k : ℤ) + -1074 = exp by omega]
  · rw [if_neg ht]
    have key : ∃ m : ℕ, man * 2 ^ (52 - ((bitLen man : Int) - 1)).toNat / 2 ^ (-(52 - ((bitLen man : Int) - 1))).toNat = m ∧
        2 ^ 52 ≤ m ∧ m < 2 ^ 53 ∧ (m : ℚ) * 2 ^ (exp + (bitLen man : Int) - 1 - 52) = man * 2 ^ exp := by
      by_cases hl : bitLen man ≤ 53
      · obtain ⟨j, hj⟩ : ∃ j : ℕ, bitLen man + j = 53 := ⟨53 - bitLen man, by omega⟩
        rw [show (52 - ((bitLen man : Int) - 1)).toNat = j by omega, show (-(52 - ((bitLen man : Int) - 1))).toNat = 0 by omega]
        refine ⟨_, rfl, ?_, ?_, ?_⟩
        · rw [pow_zero, Nat.div_one, show 52 = (bitLen man - 1) + j by omega, pow_add]
          exact Nat.mul_le_mul_right _ hb
        · rw [pow_zero, Nat.div_one, ← hj, pow_add]
          exact Nat.mul_lt_mul_of_pos_right hb' (by positivity)
        · rw [pow_zero, Nat.div_one]; push_cast
          rw [mul_assoc, ← zpow_natCast, ← zpow_add₀ (by norm_num)]; congr 2; omega
      · have hm : man = 2 ^ 53 := by
          have : 2 ^ 53 ≤ man := le_trans (Nat.pow_le_pow_right (by norm_num) (by omega)) hb
          omega
        have hl' : bitLen man = 54 := by
          have := bitLen_le_of_lt (show man < 2 ^ 54 by omega); omega
        rw [hl', hm]
        refine ⟨2 ^ 52, rfl, by norm_num, by norm_num, ?_⟩
        have h := pow_zpow (exp + 54 - 1 - 52) 53 exp 52 (by push_cast; ring)
        exact_mod_cast h
    obtain ⟨m, hm, hlo, hhi, hv⟩ := key
    rw [hm]
    have hw := fields_of neg (exp + (bitLen man : Int) - 1 + 1023).toNat (m - 2 ^ 52) (by omega) (by omega)
    refine ⟨by rw [fFinite, hw.1]; omega, ?_, hw.2.2⟩
    have he : (exp + (bitLen man : Int) - 1 + 1023).toNat ≠ 0 := by omega
    rw [fNum_of_fields _ _ _ _ hw, if_neg he, show 2 ^ 52 + (m - 2 ^ 52) = m by omega, ← hv,
      show ((exp + (bitLen man : Int) - 1 + 1023).toNat : ℤ) - 1075 = exp + (bitLen man : Int) - 1 - 52 by omega]

/-- When a discarded part `φ` of the last place rounds the magnitude up (Table 5.3). -/
def UpWhen (rm : Nat) (neg : Bool) (hi : Nat) (φ : ℝ) : Prop := match rm with
  | 0 => 1 / 2 < φ ∨ φ = 1 / 2 ∧ hi % 2 = 1
  | 1 => 1 / 2 ≤ φ
  | 2 => 0 < φ ∧ neg = false
  | 3 => 0 < φ ∧ neg = true
  | _ => False

/-- `roundsUp` decides by the discarded part: `rem` and a part `δ` below it, out of `2 ^ s`. -/
theorem roundsUp_iff (rm : Nat) (neg : Bool) (hi rem s : Nat) (sticky : Bool) (δ : ℝ) (hr : rem < 2 ^ s) (h0 : 0 ≤ δ)
    (h1 : δ < 1) (hs : sticky = false → δ = 0) (ht : sticky = true → 0 < δ ∧ 1 ≤ s) :
    0 ≤ (rem + δ) / 2 ^ s ∧ (rem + δ) / 2 ^ s < 1 ∧ ((rem != 0 || sticky) = true ↔ 0 < (rem + δ) / 2 ^ s) ∧
      (roundsUp rm neg hi rem s sticky = true ↔ UpWhen rm neg hi ((rem + δ) / 2 ^ s)) := by
  have hp : (0 : ℝ) < 2 ^ s := by positivity
  have hr1 : (rem : ℝ) + 1 ≤ 2 ^ s := by exact_mod_cast hr
  have hn : (0 : ℝ) ≤ rem := Nat.cast_nonneg _
  have hpos : (rem != 0 || sticky) = true ↔ 0 < (rem + δ) / 2 ^ s := by
    rw [div_pos_iff_of_pos_right hp]
    constructor
    · intro h
      rcases Nat.eq_zero_or_pos rem with h' | h'
      · subst h'
        have := (ht (by simpa using h)).1
        simpa using this
      · have : (0 : ℝ) < rem := by exact_mod_cast h'
        linarith
    · intro h
      by_contra hc
      simp only [Bool.or_eq_true, bne_iff_ne, ne_eq, not_or, not_not, Bool.not_eq_true] at hc
      rw [hs hc.2, hc.1] at h
      simp at h
  refine ⟨by positivity, by rw [div_lt_one hp]; linarith, hpos, ?_⟩
  have hhalf : s ≠ 0 → ((2 ^ s / 2 : ℕ) : ℝ) = 2 ^ s / 2 := by
    intro h
    obtain ⟨j, rfl⟩ := Nat.exists_eq_succ_of_ne_zero h
    rw [pow_succ, Nat.mul_div_cancel _ (by norm_num)]; push_cast; rw [pow_succ]; ring
  have hz : s = 0 → rem = 0 ∧ δ = 0 := by
    rintro rfl
    refine ⟨by simpa using hr, hs ?_⟩
    by_contra hc
    have := (ht (by simpa using hc)).2
    omega
  have hgt : 1 / 2 < (rem + δ) / 2 ^ s ↔ s ≠ 0 ∧ (2 ^ s / 2 < rem ∨ rem = 2 ^ s / 2 ∧ sticky = true) := by
    rw [lt_div_iff₀ hp]
    by_cases h : s = 0
    · simp [h, hz h]
    · have hh := hhalf h
      simp only [ne_eq, h, not_false_eq_true, true_and]
      constructor
      · intro hlt
        rcases Nat.lt_trichotomy rem (2 ^ s / 2) with hc | hc | hc
        · have : (rem : ℝ) + 1 ≤ (2 ^ s / 2 : ℕ) := by exact_mod_cast hc
          rw [hh] at this; linarith
        · right; refine ⟨hc, ?_⟩
          by_contra hc'
          have hd := hs (by simpa using hc')
          have : (rem : ℝ) = (2 ^ s / 2 : ℕ) := by exact_mod_cast hc
          rw [hh] at this; linarith
        · exact Or.inl hc
      · rintro (hc | ⟨hc, hc'⟩)
        · have : ((2 ^ s / 2 : ℕ) : ℝ) + 1 ≤ rem := by exact_mod_cast hc
          rw [hh] at this; linarith
        · have := (ht hc').1
          have h2 : (rem : ℝ) = (2 ^ s / 2 : ℕ) := by exact_mod_cast hc
          rw [hh] at h2; linarith
  have heq : (rem + δ) / 2 ^ s = 1 / 2 ↔ s ≠ 0 ∧ rem = 2 ^ s / 2 ∧ sticky = false := by
    rw [div_eq_iff hp.ne']
    by_cases h : s = 0
    · simp [h, hz h]
    · have hh := hhalf h
      simp only [ne_eq, h, not_false_eq_true, true_and]
      constructor
      · intro he
        rcases Nat.lt_trichotomy rem (2 ^ s / 2) with hc | hc | hc
        · have : (rem : ℝ) + 1 ≤ (2 ^ s / 2 : ℕ) := by exact_mod_cast hc
          rw [hh] at this; linarith
        · refine ⟨hc, ?_⟩
          by_contra hc'
          have := (ht (by simpa using hc')).1
          have h2 : (rem : ℝ) = (2 ^ s / 2 : ℕ) := by exact_mod_cast hc
          rw [hh] at h2; linarith
        · have : ((2 ^ s / 2 : ℕ) : ℝ) + 1 ≤ rem := by exact_mod_cast hc
          rw [hh] at this; linarith
      · rintro ⟨hc, hc'⟩
        have h2 : (rem : ℝ) = (2 ^ s / 2 : ℕ) := by exact_mod_cast hc
        rw [hh] at h2; rw [h2, hs hc']; ring
  have hcase : s = 0 ∨ s ≠ 0 := em _
  have hge : 1 / 2 ≤ (rem + δ) / 2 ^ s ↔ s ≠ 0 ∧ 2 ^ s / 2 ≤ rem := by
    rw [le_iff_lt_or_eq, eq_comm, heq, hgt]
    constructor
    · rintro (⟨h, h' | h'⟩ | ⟨h, h', -⟩) <;> exact ⟨h, by omega⟩
    · rintro ⟨h, h'⟩
      rcases Nat.lt_or_eq_of_le h' with h'' | h''
      · exact Or.inl ⟨h, Or.inl h''⟩
      · cases sticky
        · exact Or.inr ⟨h, h''.symm, rfl⟩
        · exact Or.inl ⟨h, Or.inr ⟨h''.symm, rfl⟩⟩
  match rm with
  | 0 =>
    simp only [roundsUp, UpWhen, hgt, heq]
    cases sticky <;> simp <;> constructor
    · rintro (h | ⟨h, h'⟩)
      · refine Or.inl ⟨?_, h⟩
        rintro rfl
        have := (hz rfl).1
        omega
      · exact Or.inr ⟨⟨h.2, h.1⟩, h'⟩
    · rintro (⟨h, h'⟩ | ⟨⟨h, h'⟩, h''⟩)
      · exact Or.inl h'
      · exact Or.inr ⟨⟨h', h⟩, h''⟩
    · rintro (h | ⟨h, h'⟩)
      · refine ⟨?_, Or.inl h⟩
        rintro rfl
        have := (hz rfl).1
        omega
      · exact ⟨h', Or.inr h⟩
    · rintro ⟨h, h' | h'⟩
      · exact Or.inl h'
      · exact Or.inr ⟨h', h⟩
  | 1 =>
    simp only [roundsUp, UpWhen, hge]
    simp [and_comm]
  | 2 => simp only [roundsUp, UpWhen, ← hpos]; cases neg <;> simp
  | 3 => simp only [roundsUp, UpWhen, ← hpos]; cases neg <;> simp
  | (n + 4) => simp [roundsUp, UpWhen]

theorem abs_signed (neg : Bool) (y : ℝ) (h : 0 ≤ y) : |signed neg y| = y := by
  cases neg <;> simp [signed, abs_of_nonneg h]

theorem signed_neg_iff (neg : Bool) (y : ℝ) (h : 0 < y) : signed neg y < 0 ↔ neg = true := by
  cases neg <;> simp [signed, h, h.le]

/-- A sign applied to a natural significand. -/
def signedInt (neg : Bool) (m : ℕ) : ℤ := if neg then -(m : ℤ) else m

theorem signedInt_cast (neg : Bool) (m : ℕ) : ((signedInt neg m : ℤ) : ℝ) = signed neg m := by
  cases neg <;> simp [signedInt, signed]

/-- The magnitude rounded up or down as `UpWhen` says is the nearest integer of the mode. -/
theorem nearest_of_up (rm : Nat) (neg : Bool) (hi : Nat) (φ : ℝ) (h0 : 0 ≤ φ) (h1 : φ < 1) (up : Bool)
    (hu : up = true ↔ UpWhen rm neg hi φ) :
    Nearest rm (signed neg (hi + φ)) (signedInt neg (if up then hi + 1 else hi)) := by
  have hn : (0 : ℝ) ≤ hi := Nat.cast_nonneg _
  have hc : ((if up then hi + 1 else hi : ℕ) : ℝ) = hi + (if up then 1 else 0) := by split_ifs <;> simp
  have hdiff : |signed neg (hi + φ) - signedInt neg (if up then hi + 1 else hi)| = |φ - (if up then 1 else 0)| := by
    rw [signedInt_cast, hc]
    cases neg
    · simp [signed]
    · simp only [signed, if_true]; rw [← abs_neg]; congr 1; ring
  have habs : |((signedInt neg (if up then hi + 1 else hi) : ℤ) : ℝ)| = hi + (if up then 1 else 0) := by
    rw [signedInt_cast, hc, abs_signed]; split_ifs <;> linarith
  have heven : Even (signedInt neg (if up then hi + 1 else hi)) ↔ Even (if up then hi + 1 else hi) := by
    generalize (if up then hi + 1 else hi) = n
    cases neg <;> simp [signedInt]
  match rm with
  | 0 =>
    simp only [Nearest, hdiff, heven, UpWhen] at hu ⊢
    cases up
    · simp only [Bool.false_eq_true, if_false, sub_zero, abs_of_nonneg h0, false_iff, not_or, not_and] at hu ⊢
      refine ⟨by linarith [hu.1], fun h => ?_⟩
      have := hu.2 h
      exact Nat.even_iff.2 (by omega)
    · simp only [if_true, true_iff] at hu ⊢
      rw [abs_of_nonpos (by linarith)]
      refine ⟨by rcases hu with h | ⟨h, -⟩ <;> linarith, fun h => ?_⟩
      rcases hu with h' | ⟨h', h''⟩
      · linarith
      · exact Nat.even_iff.2 (by omega)
  | 1 =>
    simp only [Nearest, hdiff, habs, UpWhen] at hu ⊢
    rw [abs_signed _ _ (by linarith)]
    cases up
    · simp only [Bool.false_eq_true, if_false, sub_zero, abs_of_nonneg h0, false_iff, not_le] at hu ⊢
      exact ⟨hu.le, fun h => absurd h hu.ne⟩
    · simp only [if_true, true_iff] at hu ⊢
      rw [abs_of_nonpos (by linarith)]
      exact ⟨by linarith, fun _ => by linarith⟩
  | 2 =>
    simp only [Nearest, signedInt_cast, hc, UpWhen] at hu ⊢
    cases neg
    · simp only [signed, Bool.false_eq_true, if_false, and_true] at hu ⊢
      cases up
      · simp only [Bool.false_eq_true, if_false, false_iff, not_lt] at hu ⊢
        constructor <;> linarith
      · simp only [if_true, true_iff] at hu ⊢
        constructor <;> linarith
    · simp only [signed, if_true, Bool.true_eq_false, and_false, iff_false, Bool.not_eq_true] at hu ⊢
      subst hu
      simp only [Bool.false_eq_true, if_false]
      constructor <;> linarith
  | 3 =>
    simp only [Nearest, signedInt_cast, hc, UpWhen] at hu ⊢
    cases neg
    · simp only [signed, Bool.false_eq_true, if_false, and_false, iff_false, Bool.not_eq_true] at hu ⊢
      subst hu
      simp only [Bool.false_eq_true, if_false]
      constructor <;> linarith
    · simp only [signed, if_true, and_true] at hu ⊢
      cases up
      · simp only [Bool.false_eq_true, if_false, false_iff, not_lt] at hu ⊢
        constructor <;> linarith
      · simp only [if_true, true_iff] at hu ⊢
        constructor <;> linarith
  | (n + 4) =>
    simp only [Nearest, habs, UpWhen, iff_false, Bool.not_eq_true] at hu ⊢
    subst hu
    rw [abs_signed _ _ (by linarith), signedInt_cast]
    simp only [Bool.false_eq_true, if_false, add_zero]
    refine ⟨by linarith, by linarith, ?_⟩
    cases neg
    · simp only [signed, Bool.false_eq_true, if_false]; positivity
    · simp only [signed, if_true, neg_mul_neg]; positivity

/-- What `roundAt` gives of a magnitude `y` that lies in the bracket of `man`: the nearest multiple of the mode, and whether it is
inexact. -/
theorem roundAt_spec (rm : Nat) (neg : Bool) (man : Nat) (exp q : Int) (sticky : Bool) (y : ℝ)
    (hlo : (man : ℝ) * 2 ^ exp ≤ y) (hhi : y < ((man : ℝ) + 1) * 2 ^ exp) (hs : sticky = false → y = man * 2 ^ exp)
    (ht : sticky = true → (man : ℝ) * 2 ^ exp < y ∧ exp < q) :
    Nearest rm (signed neg y / 2 ^ q) (signedInt neg (roundAt rm neg man exp q sticky).1) ∧
      ((roundAt rm neg man exp q sticky).2 = true ↔ y ≠ (roundAt rm neg man exp q sticky).1 * 2 ^ q) ∧
      (∀ k : ℤ, (roundAt rm neg man exp q sticky).2 = true → y ≠ k * 2 ^ q) := by
  have hq : (0 : ℝ) < 2 ^ q := by positivity
  have he : (0 : ℝ) < 2 ^ exp := by positivity
  have hsd : signed neg y / 2 ^ q = signed neg (y / 2 ^ q) := by cases neg <;> simp [signed, neg_div]
  have hnoint : ∀ (hi : ℕ) (φ : ℝ), y / 2 ^ q = hi + φ → 0 < φ → φ < 1 → ∀ k : ℤ, y ≠ k * 2 ^ q := by
    intro hi φ h h0 h1 k hk
    rw [hk, mul_div_assoc, div_self hq.ne', mul_one] at h
    have h2 : ((k - hi : ℤ) : ℝ) = φ := by push_cast; linarith
    rw [← h2] at h0 h1
    have : (0 : ℤ) < k - hi := by exact_mod_cast h0
    have : (k - hi : ℤ) < 1 := by exact_mod_cast h1
    omega
  unfold roundAt
  by_cases hqe : q ≤ exp
  · have hst : sticky = false := by
      by_contra h
      have := (ht (by simpa using h)).2
      omega
    obtain ⟨j, hj⟩ : ∃ j : ℕ, exp - q = j := ⟨(exp - q).toNat, by omega⟩
    simp only [if_pos hqe, hst, hj, Int.toNat_natCast, Bool.false_eq_true, false_iff, not_not, false_imp_iff, implies_true,
      and_true, ne_eq]
    have hv : y = ((man * 2 ^ j : ℕ) : ℝ) * 2 ^ q := by
      rw [hs hst, show exp = (j : ℤ) + q by omega, zpow_add₀ (by norm_num), zpow_natCast]; push_cast; ring
    refine ⟨?_, hv⟩
    have := nearest_of_up rm neg (man * 2 ^ j) 0 le_rfl (by norm_num) false (by
      match rm with
      | 0 => simp [UpWhen]
      | 1 => simp [UpWhen]
      | 2 => simp [UpWhen]
      | 3 => simp [UpWhen]
      | (n + 4) => simp [UpWhen])
    rw [hsd, hv, mul_div_assoc, div_self hq.ne', mul_one]
    simpa using this
  · obtain ⟨s, hsq⟩ : ∃ s : ℕ, q - exp = s := ⟨(q - exp).toNat, by omega⟩
    simp only [if_neg hqe, hsq, Int.toNat_natCast]
    have hz : y / 2 ^ q = y / 2 ^ exp / 2 ^ s := by
      rw [div_div, ← zpow_natCast, ← zpow_add₀ (by norm_num)]; congr 2; omega
    obtain ⟨δ, hδ⟩ : ∃ δ : ℝ, δ = y / 2 ^ exp - man := ⟨_, rfl⟩
    have hye : y / 2 ^ exp = man + δ := by rw [hδ]; ring
    have hδ0 : 0 ≤ δ := by rw [hδ, sub_nonneg, le_div_iff₀ he]; exact hlo
    have hδ1 : δ < 1 := by rw [hδ, sub_lt_iff_lt_add', div_lt_iff₀ he]; exact hhi
    have hdm : (man : ℝ) = (man / 2 ^ s : ℕ) * 2 ^ s + (man % 2 ^ s : ℕ) := by
      have := Nat.div_add_mod man (2 ^ s)
      rw [mul_comm] at this
      exact_mod_cast this.symm
    have hsp : (0 : ℝ) < 2 ^ s := by positivity
    have hzz : y / 2 ^ q = (man / 2 ^ s : ℕ) + ((man % 2 ^ s : ℕ) + δ) / 2 ^ s := by
      rw [hz, hye, hdm, add_assoc, add_div, mul_div_assoc, div_self hsp.ne', mul_one]
    obtain ⟨h0, h1, hin, hup⟩ := roundsUp_iff rm neg (man / 2 ^ s) (man % 2 ^ s) s sticky δ (Nat.mod_lt _ (by positivity))
      hδ0 hδ1 (fun h => by rw [hδ, hs h, mul_div_assoc, div_self he.ne']; ring)
      (fun h => ⟨by rw [hδ, sub_pos, lt_div_iff₀ he]; exact (ht h).1, by have := (ht h).2; omega⟩)
    have hni := hnoint _ _ hzz
    refine ⟨?_, ?_, fun k h => hni (hin.1 h) h1 k⟩
    · rw [hsd, hzz]
      exact nearest_of_up rm neg _ _ h0 h1 _ hup
    · constructor
      · intro h
        have := hni (hin.1 h) h1
        exact_mod_cast this _
      · intro h
        by_contra hc
        have hφ : ((man % 2 ^ s : ℕ) + δ) / 2 ^ s = 0 := by
          have := mt hin.2 hc
          linarith
        have hnu : ¬ UpWhen rm neg (man / 2 ^ s) (((man % 2 ^ s : ℕ) + δ) / 2 ^ s) := by
          rw [hφ]
          match rm with
          | 0 => simp [UpWhen]
          | 1 => simp [UpWhen]
          | 2 => simp [UpWhen]
          | 3 => simp [UpWhen]
          | (n + 4) => simp [UpWhen]
        apply h
        rw [if_neg (mt hup.1 hnu)]
        rw [hφ, add_zero, div_eq_iff hq.ne'] at hzz
        exact hzz

theorem nearest_bound {rm : Nat} {x : ℝ} {m : ℤ} (h : Nearest rm x m) : |(m : ℝ) - x| < 1 := by
  match rm with
  | 0 => simp only [Nearest] at h; rw [abs_sub_comm]; linarith [h.1]
  | 1 => simp only [Nearest] at h; rw [abs_sub_comm]; linarith [h.1]
  | 2 => simp only [Nearest] at h; rw [abs_lt]; constructor <;> linarith [h.1, h.2]
  | 3 => simp only [Nearest] at h; rw [abs_lt]; constructor <;> linarith [h.1, h.2]
  | (n + 4) =>
    simp only [Nearest] at h
    obtain ⟨h1, h2, h3⟩ := h
    rcases le_total 0 x with hx | hx
    · rw [abs_of_nonneg hx] at h1 h2
      rcases le_total 0 (m : ℝ) with hm | hm
      · rw [abs_of_nonneg hm] at h1 h2; rw [abs_lt]; constructor <;> linarith
      · rcases eq_or_lt_of_le hx with h0 | h0
        · rw [← h0] at h1; have : (m : ℝ) = 0 := by simpa using h1
          rw [this, ← h0]; norm_num
        · have : (m : ℝ) = 0 := by nlinarith
          rw [this] at h1 h2 ⊢; simp at h2; rw [abs_lt]; constructor <;> linarith
    · rw [abs_of_nonpos hx] at h1 h2
      rcases le_total 0 (m : ℝ) with hm | hm
      · rcases eq_or_lt_of_le hx with h0 | h0
        · rw [h0] at h1; have : (m : ℝ) = 0 := by simpa using h1
          rw [this, h0]; norm_num
        · have : (m : ℝ) = 0 := by nlinarith
          rw [this] at h1 h2 ⊢; simp at h2; rw [abs_lt]; constructor <;> linarith
      · rw [abs_of_nonpos hm] at h1 h2; rw [abs_lt]; constructor <;> linarith

/-- A mode gives one integer. -/
theorem nearest_unique {rm : Nat} {x : ℝ} {m n : ℤ} (hm : Nearest rm x m) (hn : Nearest rm x n) : m = n := by
  wlog hlt : m < n generalizing m n with H
  · rcases lt_trichotomy m n with h | h | h
    · exact absurd h hlt
    · exact h
    · exact (H hn hm h).symm
  exfalso
  have bm := abs_lt.1 (nearest_bound hm)
  have bn := abs_lt.1 (nearest_bound hn)
  have hmn : n = m + 1 := by
    have : (n : ℝ) < m + 2 := by linarith
    have : n < m + 2 := by exact_mod_cast this
    omega
  have hc : (n : ℝ) = m + 1 := by rw [hmn]; push_cast; ring
  match rm with
  | 0 =>
    simp only [Nearest] at hm hn
    rw [hc] at hn
    have h1 := (abs_le.1 hm.1).2
    have h2 := (abs_le.1 hn.1).1
    have hx : x - m = 1 / 2 := by linarith
    have e1 := hm.2 (by rw [hx]; norm_num)
    have e2 := hn.2 (by rw [show x - (m + 1) = -(1 / 2) by linarith, abs_neg]; norm_num)
    rw [hmn] at e2
    exact (Int.even_add_one.1 e2) e1
  | 1 =>
    simp only [Nearest] at hm hn
    rw [hc] at hn
    have h1 := (abs_le.1 hm.1).2
    have h2 := (abs_le.1 hn.1).1
    have hx : x - m = 1 / 2 := by linarith
    have e1 := hm.2 (by rw [hx]; norm_num)
    have e2 := hn.2 (by rw [show x - (m + 1) = -(1 / 2) by linarith, abs_neg]; norm_num)
    have hxm : x = m + 1 / 2 := by linarith
    rw [hxm] at e1 e2
    rcases le_or_gt 0 m with h | h
    · have h' : (0 : ℝ) ≤ m := by exact_mod_cast h
      rw [abs_of_nonneg (by linarith), abs_of_nonneg h'] at e1; linarith
    · have h' : (m : ℝ) + 1 ≤ 0 := by exact_mod_cast h
      rw [abs_of_nonpos (by linarith), abs_of_nonpos h'] at e2; linarith
  | 2 => simp only [Nearest] at hm hn; rw [hc] at hn; linarith [hm.1, hn.2]
  | 3 => simp only [Nearest] at hm hn; rw [hc] at hn; linarith [hm.2, hn.1]
  | (k + 4) =>
    simp only [Nearest] at hm hn
    rw [hc] at hn
    rcases le_or_gt 0 m with h | h
    · have h' : (0 : ℝ) ≤ m := by exact_mod_cast h
      rw [abs_of_nonneg h'] at hm
      rw [abs_of_nonneg (by linarith)] at hn
      linarith [hm.2.1, hn.1]
    · have h' : (m : ℝ) + 1 ≤ 0 := by exact_mod_cast h
      rw [abs_of_nonpos (by linarith)] at hm
      rw [abs_of_nonpos h'] at hn
      linarith [hm.1, hn.2.1]

/-- The bits of a significand place its number against a power of two. -/
theorem bitLen_pow (m : ℕ) (q e : ℤ) (h : m = 0 → q ≤ e) : e < (bitLen m : ℤ) + q ↔ (2 : ℝ) ^ e ≤ m * 2 ^ q := by
  constructor
  · intro hl
    have hm : 0 < m := by
      rcases Nat.eq_zero_or_pos m with h0 | h0
      · have := h h0; subst h0; simp [bitLen] at hl; omega
      · exact h0
    have hb := bitLen_le m hm
    have := bitLen_pos hm
    calc (2 : ℝ) ^ e ≤ 2 ^ (((bitLen m - 1 : ℕ) : ℤ) + q) := zpow_le_zpow_right₀ (by norm_num) (by omega)
      _ = (2 ^ (bitLen m - 1) : ℕ) * 2 ^ q := by rw [zpow_add₀ (by norm_num), zpow_natCast]; push_cast; rfl
      _ ≤ m * 2 ^ q := by gcongr
  · intro hl
    by_contra hc
    have hb : ((m : ℕ) : ℝ) < (2 ^ bitLen m : ℕ) := by exact_mod_cast lt_bitLen m
    have : (m : ℝ) * 2 ^ q < 2 ^ e := by
      calc (m : ℝ) * 2 ^ q < (2 ^ bitLen m : ℕ) * 2 ^ q := by gcongr
        _ = 2 ^ ((bitLen m : ℤ) + q) := by rw [zpow_add₀ (by norm_num), zpow_natCast]; push_cast; rfl
        _ ≤ 2 ^ e := zpow_le_zpow_right₀ (by norm_num) (by omega)
    linarith

theorem fmtOf_bounds (s : Bool) : (fmtOf s).prec ≤ 53 ∧ 0 < (fmtOf s).prec ∧ -1074 ≤ (fmtOf s).emin - (fmtOf s).prec + 1 ∧
    (fmtOf s).emax ≤ 1023 ∧ (fmtOf s).emin < (fmtOf s).emax := by
  cases s <;> decide

theorem fInf_infinite (neg : Bool) : fInfinite (fInf neg) ∧ (fInf neg).getLsbD 63 = neg := by
  cases neg <;> decide

theorem fEncode_zero (neg : Bool) (e : Int) : fEncode neg 0 e = fZero neg := by
  cases neg <;> simp [fEncode, fZero]

theorem fZero_num (neg : Bool) : fFinite (fZero neg) ∧ fNum (fZero neg) = 0 ∧ (fZero neg).getLsbD 63 = neg := by
  have h : fExp (fZero neg) = 0 ∧ fFrac (fZero neg) = 0 ∧ (fZero neg).getLsbD 63 = neg := by cases neg <;> decide
  refine ⟨by simp [fFinite, h.1], ?_, h.2.2⟩
  rw [fNum_of_fields _ _ _ _ h]; simp

theorem fMax_num (s neg : Bool) :
    let fm := fmtOf s
    let w := fEncode neg (2 ^ fm.prec - 1) (fm.emax - fm.prec + 1)
    fFinite w ∧ |fNum w| = (2 ^ fm.prec - 1) * 2 ^ (fm.emax - fm.prec + 1) ∧ w.getLsbD 63 = neg := by
  intro fm w
  obtain ⟨h1, h2, h3⟩ := fEncode_num neg (2 ^ fm.prec - 1) (fm.emax - fm.prec + 1)
    (by cases s <;> decide) (by cases s <;> decide) (by cases s <;> decide) (by cases s <;> decide)
  refine ⟨h1, ?_, h3⟩
  rw [h2]
  have hp : ((2 ^ fm.prec - 1 : ℕ) : ℚ) = 2 ^ fm.prec - 1 := by
    rw [Nat.cast_sub Nat.one_le_two_pow]; push_cast; ring
  rw [abs_mul, hp, abs_of_nonneg (a := (2 ^ fm.prec - 1) * (2 : ℚ) ^ (fm.emax - fm.prec + 1))]
  · cases neg <;> simp
  · have : (1 : ℚ) ≤ 2 ^ fm.prec := one_le_pow₀ (by norm_num)
    have h0 : (0 : ℚ) ≤ 2 ^ fm.prec - 1 := by linarith
    positivity

/-- The one rounding of the model is the one rounding of R183 and R185: `man * 2^exp`, with a part below it where `sticky`
says so, is the magnitude of `x`. -/
theorem fRound_spec (s : Bool) (rm : Nat) (neg : Bool) (man : Nat) (exp : Int) (sticky : Bool) (y : ℝ) (h0 : 0 < man)
    (hlo : (man : ℝ) * 2 ^ exp ≤ y) (hhi : y < ((man : ℝ) + 1) * 2 ^ exp) (hs : sticky = false → y = man * 2 ^ exp)
    (ht : sticky = true → (man : ℝ) * 2 ^ exp < y ∧ (fmtOf s).prec < bitLen man) :
    RoundsTo (fmtOf s) rm (signed neg y) (fRound (fmtOf s) rm neg man exp sticky) := by
  obtain ⟨hp, hp0, hmin, hmax, hee⟩ := fmtOf_bounds s
  generalize hfm : fmtOf s = fm at *
  have hbp := bitLen_pos h0
  have hy0 : 0 < y := lt_of_lt_of_le (by positivity) hlo
  obtain ⟨q0, hq0⟩ : ∃ q0 : ℤ, q0 = exp + bitLen man - fm.prec := ⟨_, rfl⟩
  obtain ⟨q, hq⟩ : ∃ q : ℤ, q = max q0 (fm.emin - fm.prec + 1) := ⟨_, rfl⟩
  have hy1 : (2 : ℝ) ^ (q0 + fm.prec - 1) ≤ y := by
    refine le_trans ?_ hlo
    have hb : ((2 ^ (bitLen man - 1) : ℕ) : ℝ) ≤ man := by exact_mod_cast bitLen_le man h0
    calc (2 : ℝ) ^ (q0 + fm.prec - 1) = (2 ^ (bitLen man - 1) : ℕ) * 2 ^ exp := by
          rw [show q0 + fm.prec - 1 = ((bitLen man - 1 : ℕ) : ℤ) + exp by omega, zpow_add₀ (by norm_num), zpow_natCast]
          push_cast; rfl
      _ ≤ man * 2 ^ exp := by gcongr
  have hy2 : y < (2 : ℝ) ^ (q0 + fm.prec) := by
    refine lt_of_lt_of_le hhi ?_
    have hb : (man : ℝ) + 1 ≤ (2 ^ bitLen man : ℕ) := by exact_mod_cast lt_bitLen man
    calc ((man : ℝ) + 1) * 2 ^ exp ≤ (2 ^ bitLen man : ℕ) * 2 ^ exp := by gcongr
      _ = 2 ^ (q0 + fm.prec) := by
          rw [show q0 + fm.prec = (bitLen man : ℤ) + exp by omega, zpow_add₀ (by norm_num), zpow_natCast]
          push_cast; rfl
  have hqq : q0 ≤ q := by omega
  have hy3 : y < (2 : ℝ) ^ (q + fm.prec) := lt_of_lt_of_le hy2 (zpow_le_zpow_right₀ (by norm_num) (by omega))
  have habs : |signed neg y| = y := abs_signed neg y hy0.le
  obtain ⟨hN, hI, hI'⟩ := roundAt_spec rm neg man exp q sticky y hlo hhi hs
    (fun h => ⟨(ht h).1, by have := (ht h).2; omega⟩)
  obtain ⟨hN0, -, -⟩ := roundAt_spec rm neg man exp q0 sticky y hlo hhi hs
    (fun h => ⟨(ht h).1, by have := (ht h).2; omega⟩)
  have hR : fRound fm rm neg man exp sticky =
      if fm.emax + 1 < (bitLen (roundAt rm neg man exp q sticky).1 : Int) + q then
        (if overflowsToInf rm neg then fInf neg else fEncode neg (2 ^ fm.prec - 1) (fm.emax - fm.prec + 1), fOF ||| fNX)
      else
        (fEncode neg (roundAt rm neg man exp q sticky).1 q,
          (if (roundAt rm neg man exp q sticky).2 then fNX else 0) |||
          (if decide ((bitLen (roundAt rm neg man exp q0 sticky).1 : Int) + q0 - 1 < fm.emin) &&
            (roundAt rm neg man exp q sticky).2 then fUF else 0)) := by
    subst hq hq0; rfl
  generalize hm : (roundAt rm neg man exp q sticky).1 = m at *
  generalize hi : (roundAt rm neg man exp q sticky).2 = inx at *
  generalize hu : (roundAt rm neg man exp q0 sticky).1 = u at *
  have hq' : (0 : ℝ) < 2 ^ q := by positivity
  have hz : |signed neg y / 2 ^ q| < 2 ^ fm.prec := by
    rw [abs_div, habs, abs_of_pos hq', div_lt_iff₀ hq', ← zpow_natCast, ← zpow_add₀ (by norm_num), add_comm]
    exact hy3
  have hmabs : |((signedInt neg m : ℤ) : ℝ)| = m := by
    rw [signedInt_cast, abs_signed]; exact Nat.cast_nonneg _
  have hmz : (m : ℝ) < |signed neg y / 2 ^ q| + 1 := by
    have hb := nearest_bound hN
    have := abs_sub_abs_le_abs_sub ((signedInt neg m : ℤ) : ℝ) (signed neg y / 2 ^ q)
    rw [hmabs] at this
    linarith
  have hm1 : m ≤ 2 ^ fm.prec := by
    have : (m : ℝ) < (2 ^ fm.prec + 1 : ℕ) := by push_cast; linarith
    have : m < 2 ^ fm.prec + 1 := by exact_mod_cast this
    omega
  have hm53 : m ≤ 2 ^ 53 := le_trans hm1 (Nat.pow_le_pow_right (by norm_num) hp)
  have hm0 : m = 0 → q = fm.emin - fm.prec + 1 := by
    intro hm0
    by_contra hc
    have hqe : q = q0 := by omega
    have hb := nearest_bound hN
    rw [← abs_neg, neg_sub, hm0] at hb
    have h1 : |signed neg y / 2 ^ q| < 1 := by cases neg <;> simpa [signedInt] using hb
    rw [abs_div, habs, abs_of_pos hq', div_lt_iff₀ hq', one_mul] at h1
    have : (2 : ℝ) ^ q ≤ 2 ^ (q0 + fm.prec - 1) := zpow_le_zpow_right₀ (by norm_num) (by omega)
    linarith
  have hov := bitLen_pow m q (fm.emax + 1) (fun h => by have := hm0 h; omega)
  have htiny : decide ((bitLen u : Int) + q0 - 1 < fm.emin) = true ↔ TinyAfter fm rm (signed neg y) := by
    have huabs : |((signedInt neg u : ℤ) : ℝ)| = u := by
      rw [signedInt_cast, abs_signed]; exact Nat.cast_nonneg _
    have hu0 : u ≠ 0 := by
      intro h
      have hb := nearest_bound hN0
      rw [← abs_neg, neg_sub, h] at hb
      have h1 : |signed neg y / 2 ^ q0| < 1 := by cases neg <;> simpa [signedInt] using hb
      have hq0' : (0 : ℝ) < 2 ^ q0 := by positivity
      rw [abs_div, habs, abs_of_pos hq0', div_lt_iff₀ hq0', one_mul] at h1
      have : (2 : ℝ) ^ q0 ≤ 2 ^ (q0 + fm.prec - 1) := zpow_le_zpow_right₀ (by norm_num) (by omega)
      linarith
    have hb := bitLen_pow u q0 fm.emin (fun h => absurd h hu0)
    have hd : decide ((bitLen u : Int) + q0 - 1 < fm.emin) = true ↔ (u : ℝ) * 2 ^ q0 < 2 ^ fm.emin := by
      rw [decide_eq_true_iff, ← @not_le ℝ _ (2 ^ fm.emin), ← hb]; omega
    rw [hd]
    constructor
    · intro h
      exact ⟨q0, signedInt neg u, by rw [habs]; exact hy1, by rw [habs]; exact hy2, hN0, by rw [huabs]; exact h⟩
    · rintro ⟨q', m', h1, h2, h3, h4⟩
      rw [habs] at h1 h2
      have e1 : (2 : ℝ) ^ (q' + fm.prec - 1) < 2 ^ (q0 + fm.prec) := lt_of_le_of_lt h1 hy2
      have e2 : (2 : ℝ) ^ (q0 + fm.prec - 1) < 2 ^ (q' + fm.prec) := lt_of_le_of_lt hy1 h2
      have e1' := (zpow_lt_zpow_iff_right₀ (by norm_num)).1 e1
      have e2' := (zpow_lt_zpow_iff_right₀ (by norm_num)).1 e2
      have : q' = q0 := by omega
      subst this
      rw [nearest_unique h3 hN0, huabs] at h4
      exact h4
  have hxm : signed neg y = (signedInt neg m : ℤ) * 2 ^ q ↔ y = m * 2 ^ q := by
    rw [signedInt_cast]; cases neg <;> simp [signed]
  refine ⟨q, signedInt neg m, by omega, by rw [habs]; exact hy3, ?_, hN, ?_, ?_, ?_⟩
  · rcases le_total q0 (fm.emin - fm.prec + 1) with h | h
    · left; omega
    · right; rw [habs, show q = q0 by omega]; exact hy1
  · rw [signed_neg_iff neg y hy0, hR]
    by_cases h1 : fm.emax + 1 < (bitLen m : Int) + q
    · rw [if_pos h1]
      by_cases h2 : overflowsToInf rm neg = true
      · simp only [if_pos h2, (fInf_infinite neg).2]
      · subst hfm; simp only [if_neg h2, (fMax_num s neg).2.2]
    · rw [if_neg h1]
      rcases Nat.eq_zero_or_pos m with h | h
      · simp only [h, fEncode_zero, (fZero_num neg).2.2]
      · simp only [(fEncode_num neg m q h hm53 (by omega) (by omega)).2.2]
  · intro h
    rw [hmabs, ← hov] at h
    rw [hR, if_pos h]
    refine ⟨?_, show fOF ||| fNX = _ by decide⟩
    subst hfm
    have e1 := fInf_infinite neg
    have e2 := fMax_num s neg
    rcases hb : overflowsToInf rm neg
    · simp only [hb, Bool.false_eq_true, if_false, e2.2.2]
      exact ⟨e2.1, e2.2.1⟩
    · simp only [hb, if_true, e1.2]
      exact e1.1
  · intro h
    rw [hmabs, ← not_le, ← hov] at h
    rw [hR, if_neg h]
    have hfin : fFinite (fEncode neg m q) ∧ (fNum (fEncode neg m q) : ℝ) = (signedInt neg m : ℤ) * 2 ^ q := by
      rcases Nat.eq_zero_or_pos m with h' | h'
      · subst h'
        rw [fEncode_zero, (fZero_num neg).2.1]
        exact ⟨(fZero_num neg).1, by simp [signedInt]⟩
      · obtain ⟨e1, e2, -⟩ := fEncode_num neg m q h' hm53 (by omega) (by omega)
        refine ⟨e1, ?_⟩
        rw [e2, signedInt_cast]; cases neg <;> simp [signed]
    refine ⟨hfin.1, hfin.2, fun hx => ?_, fun hx ht => ?_, fun hx ht => ?_⟩
    · have : inx = false := by
        by_contra hc
        exact (hI.1 (by simpa using hc)) (hxm.1 hx)
      simp [this]
    · have h1 : inx = true := hI.2 (fun hc => hx (hxm.2 hc))
      have h2 := htiny.2 ht
      simp only [h1, h2, Bool.and_self, if_true]; decide
    · have h1 : inx = true := hI.2 (fun hc => hx (hxm.2 hc))
      have h2 := mt htiny.1 ht
      simp only [h1, h2, Bool.false_and, if_true, Bool.false_eq_true, if_false]; decide

end Sys2Proof.Machine
end

