-- ==== Sys2Proof/Laws/Float.lean ====
section
/-! SUPPORT. What each floating-point operation of the model gives, by the relations of Ieee.lean. -/

namespace Sys2Proof.Machine

open Sys2Proof

/-- Every encoding is a NaN, an infinity or finite. -/
theorem fClass (x : Word) : fNaN x ∨ fInfinite x ∨ fFinite x := by
  by_cases h : fExp x = 2047
  · by_cases h' : fFrac x = 0
    · exact Or.inr (Or.inl ⟨h, h'⟩)
    · exact Or.inl ⟨h, h'⟩
  · exact Or.inr (Or.inr h)

/-- A finite encoding decodes to the sign and the magnitude of its number. -/
theorem fDecode_num {x : Word} (h : fFinite x) : ∃ (m : ℕ) (e : ℤ), fDecode x = .fin (x.getLsbD 63) m e ∧
    (fNum x : ℝ) = signed (x.getLsbD 63) (m * 2 ^ e) ∧ m < 2 ^ 53 := by
  obtain ⟨m, e, h1, h2, h3, -⟩ := fDecode_fin h
  refine ⟨m, e, h1, ?_, h3⟩
  rw [h2]; cases x.getLsbD 63 <;> simp [signed]

theorem signed_eq_zero (neg : Bool) (m : ℕ) (e : ℤ) : signed neg ((m : ℝ) * 2 ^ e) = 0 ↔ m = 0 := by
  have : (2 : ℝ) ^ e ≠ 0 := by positivity
  cases neg <;> simp [signed, this]

theorem fNum_zero_iff {x : Word} {m : ℕ} {e : ℤ} (h : (fNum x : ℝ) = signed (x.getLsbD 63) (m * 2 ^ e)) :
    fNum x = 0 ↔ m = 0 := by
  rw [← signed_eq_zero (x.getLsbD 63) m e, ← h]; norm_cast

/-- An exact non-zero magnitude rounds once. -/
theorem fRound_exact (s : Bool) (rm : Nat) (neg : Bool) (man : Nat) (exp : Int) (h0 : 0 < man) :
    RoundsTo (fmtOf s) rm (signed neg (man * 2 ^ exp)) (fRound (fmtOf s) rm neg man exp false) :=
  fRound_spec s rm neg man exp false _ h0 le_rfl
    (by have : (0 : ℝ) < 2 ^ exp := by positivity
        nlinarith) (fun _ => rfl) (by simp)

/-- A magnitude that decoding gives rounds once, and its zero keeps the sign. -/
theorem fRound_rounded (s : Bool) (rm : Nat) (neg : Bool) (man : Nat) (exp : Int) :
    Rounded s rm (signed neg (man * 2 ^ exp)) neg
      (if man = 0 then (fEncode neg 0 0, 0) else fRound (fmtOf s) rm neg man exp false) := by
  constructor
  · intro h
    rw [if_pos ((signed_eq_zero _ _ _).1 h), fEncode_zero]
  · intro h
    have h0 := mt (signed_eq_zero neg man exp).2 h
    rw [if_neg h0]
    exact fRound_exact s rm neg man exp (Nat.pos_of_ne_zero h0)

theorem fRoundInt_spec (s : Bool) (rm : Nat) (num : Int) (exp : Int) (zn : Bool) :
    Rounded s rm (num * 2 ^ exp) zn (fRoundInt (fmtOf s) rm num exp zn) := by
  have hp : (0 : ℝ) < 2 ^ exp := by positivity
  unfold fRoundInt
  constructor
  · intro h
    have : num = 0 := by
      rcases mul_eq_zero.1 h with h | h
      · exact_mod_cast h
      · exact absurd h hp.ne'
    rw [if_pos this, fEncode_zero]
  · intro h
    have h0 : num ≠ 0 := by rintro rfl; simp at h
    rw [if_neg h0]
    have := fRound_exact s rm (decide (num < 0)) num.natAbs exp (Int.natAbs_pos.2 h0)
    rw [show signed (decide (num < 0)) ((num.natAbs : ℝ) * 2 ^ exp) = num * 2 ^ exp from ?_] at this
    · exact this
    · rw [Nat.cast_natAbs]
      rcases lt_or_gt_of_ne h0 with hn | hn
      · simp [signed, hn, abs_of_neg hn]
      · simp [signed, hn.le.not_gt, abs_of_pos hn]

theorem fAt_cast (neg : Bool) (m : Nat) (e e' : Int) (h : e' ≤ e) :
    ((fAt neg m e e' : ℤ) : ℝ) * 2 ^ e' = signed neg (m * 2 ^ e) := by
  obtain ⟨j, hj⟩ : ∃ j : ℕ, e - e' = j := ⟨(e - e').toNat, by omega⟩
  have : (2 : ℝ) ^ e = 2 ^ j * 2 ^ e' := by
    rw [← zpow_natCast, ← zpow_add₀ (by norm_num)]; congr 1; omega
  simp only [fAt, hj, Int.toNat_natCast, this]
  cases neg <;> simp [signed] <;> ring

theorem fSumFin_spec (s : Bool) (rm : Nat) (n1 : Bool) (m1 : Nat) (e1 : Int) (n2 : Bool) (m2 : Nat) (e2 : Int) :
    Rounded s rm (signed n1 (m1 * 2 ^ e1) + signed n2 (m2 * 2 ^ e2)) (if n1 = n2 then n1 else rm == 3)
      (fSumFin s rm n1 m1 e1 n2 m2 e2) := by
  have := fRoundInt_spec s rm (fAt n1 m1 e1 (min e1 e2) + fAt n2 m2 e2 (min e1 e2)) (min e1 e2)
    (if n1 = n2 then n1 else rm == 3)
  rwa [Int.cast_add, add_mul, fAt_cast _ _ _ _ (min_le_left _ _), fAt_cast _ _ _ _ (min_le_right _ _)] at this

theorem first_nan (ops : List Word) (d : Word) (h : ∃ x ∈ ops, fNaN x) : ∃ before x after, ops = before ++ x :: after ∧
    (∀ y ∈ before, ¬ fNaN y) ∧ fNaN x ∧ (ops.filter fIsNan).headD d = x := by
  induction ops with
  | nil => simp at h
  | cons a t ih =>
    by_cases ha : fNaN a
    · exact ⟨[], a, t, rfl, by simp, ha, by simp [(fIsNan_iff a).2 ha]⟩
    · obtain ⟨b, x, r, h1, h2, h3, h4⟩ := ih (by simpa [ha] using h)
      refine ⟨a :: b, x, r, by simp [h1], fun y hy => ?_, h3, ?_⟩
      · rcases List.mem_cons.1 hy with rfl | hy
        · exact ha
        · exact h2 y hy
      have : fIsNan a = false := by
        by_contra hc
        exact ha ((fIsNan_iff a).1 (by simpa using hc))
      simp only [List.filter_cons, this, Bool.false_eq_true, if_false, h4]

theorem fNanOf_spec (s : Bool) (ops : List Word) (h : ∃ x ∈ ops, fNaN x) : NanResult s ops (fNanOf s ops) := by
  obtain ⟨b, x, r, h1, h2, h3, h4⟩ := first_nan ops fDefaultNan h
  refine ⟨⟨b, x, r, h1, h2, h3, by simp only [fNanOf, h4]; rfl⟩, fun hs => ?_, fun hs => ?_⟩
  · have : ops.any fIsSnan = true := by
      obtain ⟨y, hy, hy'⟩ := hs
      exact List.any_eq_true.2 ⟨y, hy, (fIsSnan_iff y).2 hy'⟩
    simp [fNanOf, this, fNV]
  · have : ops.any fIsSnan = false := by
      rw [List.any_eq_false]
      exact fun y hy hc => hs y hy ((fIsSnan_iff y).1 hc)
    simp [fNanOf, this]

theorem not_nan_of_inf {x : Word} (h : fInfinite x) : ¬ fNaN x := fun h' => h'.2 h.2

theorem not_nan_of_fin {x : Word} (h : fFinite x) : ¬ fNaN x := fun h' => h h'.1

theorem not_inf_of_fin {x : Word} (h : fFinite x) : ¬ fInfinite x := fun h' => h h'.1

theorem inf_eq {x : Word} (h : fInfinite x) : fInf (x.getLsbD 63) = x := by
  have hx := BitVec.isLt x
  have he := h.1; have hf := h.2
  rw [fExp_eq] at he; rw [fFrac_eq] at hf
  have hs : x.getLsbD 63 = decide (x.toNat / 2 ^ 63 % 2 = 1) := by
    rw [BitVec.getLsbD, Nat.testBit_eq_decide_div_mod_eq]
  rw [hs]
  apply BitVec.eq_of_toNat_eq
  by_cases h' : x.toNat / 2 ^ 63 % 2 = 1
  · simp only [h', decide_true, fInf, if_true]
    show 0xFFF0000000000000 = _
    omega
  · simp only [h', decide_false, fInf, Bool.false_eq_true, if_false]
    show 0x7FF0000000000000 = _
    omega

theorem fAdd_sum (s : Bool) (rm : Nat) (a b : Word) (ha : ¬ fNaN a) (hb : ¬ fNaN b) :
    SumResult s rm a b (fAdd s rm a b) := by
  rcases (fClass a).resolve_left ha with ha | ha <;> rcases (fClass b).resolve_left hb with hb | hb
  · have e : fAdd s rm a b = if a.getLsbD 63 = b.getLsbD 63 then (a, 0) else (fDefaultNan, fNV) := by
      simp only [fAdd, fDecode_inf ha, fDecode_inf hb, inf_eq ha]
    refine ⟨fun _ _ h => by rw [e, if_neg h]; rfl, fun _ h => by rw [e, if_pos (h hb)], fun h => ?_, fun h => ?_⟩
    · exact absurd ha (not_inf_of_fin h)
    · exact absurd ha (not_inf_of_fin h)
  · obtain ⟨m, x, hd, -⟩ := fDecode_num hb
    have e : fAdd s rm a b = (a, 0) := by simp only [fAdd, fDecode_inf ha, hd, inf_eq ha]
    refine ⟨fun _ h => absurd h (not_inf_of_fin hb), fun _ _ => e, fun h => absurd ha (not_inf_of_fin h),
      fun h => absurd ha (not_inf_of_fin h)⟩
  · obtain ⟨m, x, hd, -⟩ := fDecode_num ha
    have e : fAdd s rm a b = (b, 0) := by simp only [fAdd, fDecode_inf hb, hd, inf_eq hb]
    exact ⟨fun h => absurd h (not_inf_of_fin ha), fun h => absurd h (not_inf_of_fin ha), fun _ _ => e,
      fun _ h => absurd hb (not_inf_of_fin h)⟩
  · obtain ⟨m1, e1, hd1, hv1, -⟩ := fDecode_num ha
    obtain ⟨m2, e2, hd2, hv2, -⟩ := fDecode_num hb
    have e : fAdd s rm a b = fSumFin s rm (a.getLsbD 63) m1 e1 (b.getLsbD 63) m2 e2 := by simp only [fAdd, hd1, hd2]
    refine ⟨fun h => absurd h (not_inf_of_fin ha), fun h => absurd h (not_inf_of_fin ha),
      fun _ h => absurd h (not_inf_of_fin hb), fun _ _ => ?_⟩
    rw [e, Rat.cast_add, hv1, hv2]
    exact fSumFin_spec ..

theorem fAdd_nan (s : Bool) (rm : Nat) (a b : Word) (h : fNaN a ∨ fNaN b) : fAdd s rm a b = fNanOf s [a, b] := by
  by_cases ha : fNaN a
  · simp only [fAdd, fDecode_nan ha]
  · have hb := h.resolve_left ha
    rcases (fClass a).resolve_left ha with ha | ha
    · simp only [fAdd, fDecode_inf ha, fDecode_nan hb]
    · obtain ⟨m, e, hd, -⟩ := fDecode_num ha
      simp only [fAdd, hd, fDecode_nan hb]

theorem fNanOf_pair (s : Bool) (a b : Word) (h : fNaN a ∨ fNaN b) : NanResult s [a, b] (fNanOf s [a, b]) :=
  fNanOf_spec s _ (by rcases h with h | h <;> exact ⟨_, by simp, h⟩)

theorem fMinus_fields (x : Word) : fExp (fMinus x) = fExp x ∧ fFrac (fMinus x) = fFrac x ∧
    (fMinus x).getLsbD 63 = !x.getLsbD 63 := by
  refine ⟨?_, ?_, ?_⟩
  · unfold fExp; congr 1
    ext i hi
    simp only [fMinus, BitVec.getElem_extractLsb', BitVec.getLsbD_xor]
    interval_cases i <;> simp
  · unfold fFrac; congr 1
    ext i hi
    simp only [fMinus, BitVec.getElem_extractLsb', BitVec.getLsbD_xor]
    interval_cases i <;> simp
  · simp [fMinus]

theorem fMinus_nan (x : Word) : fNaN (fMinus x) ↔ fNaN x := by
  simp only [fNaN, (fMinus_fields x).1, (fMinus_fields x).2.1]

theorem fAdd_spec (s : Bool) (rm : Nat) (a b : Word) : AddResult false s rm a b (fAdd s rm a b) :=
  ⟨fun h => fAdd_nan s rm a b h ▸ fNanOf_pair s a b h, fun ha hb => by simpa using fAdd_sum s rm a b ha hb⟩

theorem fSub_spec (s : Bool) (rm : Nat) (a b : Word) : AddResult true s rm a b (fSub s rm a b) := by
  constructor
  · intro h
    have : (fIsNan a || fIsNan b) = true := by simpa [fIsNan_iff] using h
    simp only [fSub, this, if_true]
    exact fNanOf_pair s a b h
  · intro ha hb
    have : (fIsNan a || fIsNan b) = false := by
      by_contra hc
      simp only [Bool.not_eq_false, Bool.or_eq_true, fIsNan_iff] at hc
      exact hc.elim ha hb
    simp only [fSub, this, Bool.false_eq_true, if_false, if_true]
    exact fAdd_sum s rm a (fMinus b) ha (mt (fMinus_nan b).1 hb)

theorem signed_mul (a b : Bool) (x y : ℝ) : signed a x * signed b y = signed (a ^^ b) (x * y) := by
  cases a <;> cases b <;> simp [signed]

theorem signed_div (a b : Bool) (x y : ℝ) : signed a x / signed b y = signed (a ^^ b) (x / y) := by
  cases a <;> cases b <;> simp [signed, neg_div, div_neg]

theorem fMul_nan (s : Bool) (rm : Nat) (a b : Word) (h : fNaN a ∨ fNaN b) : fMul s rm a b = fNanOf s [a, b] := by
  by_cases ha : fNaN a
  · simp only [fMul, fDecode_nan ha]
  · have hb := h.resolve_left ha
    rcases (fClass a).resolve_left ha with ha | ha
    · simp only [fMul, fDecode_inf ha, fDecode_nan hb]
    · obtain ⟨m, e, hd, -⟩ := fDecode_num ha
      simp only [fMul, hd, fDecode_nan hb]

theorem fMul_spec (s : Bool) (rm : Nat) (a b : Word) : MulResult s rm a b (fMul s rm a b) := by
  refine ⟨fun h => fMul_nan s rm a b h ▸ fNanOf_pair s a b h, fun ha hb h => ?_, fun ha hb h => ?_, fun ha h => ?_,
    fun ha h hb => ?_, fun ha hb => ?_⟩
  · obtain ⟨m, e, hd, hv, -⟩ := fDecode_num hb
    have := (fNum_zero_iff hv).1 h
    simp only [fMul, fDecode_inf ha, hd, this, if_true]; rfl
  · obtain ⟨m, e, hd, hv, -⟩ := fDecode_num ha
    have := (fNum_zero_iff hv).1 h
    simp only [fMul, fDecode_inf hb, hd, this, if_true]; rfl
  · rcases h with hb | ⟨hb, h0⟩
    · simp only [fMul, fDecode_inf ha, fDecode_inf hb]
    · obtain ⟨m, e, hd, hv, -⟩ := fDecode_num hb
      have := mt (fNum_zero_iff hv).2 h0
      simp only [fMul, fDecode_inf ha, hd, if_neg this]
  · obtain ⟨m, e, hd, hv, -⟩ := fDecode_num ha
    have := mt (fNum_zero_iff hv).2 h
    simp only [fMul, fDecode_inf hb, hd, if_neg this]
  · obtain ⟨m1, e1, hd1, hv1, -⟩ := fDecode_num ha
    obtain ⟨m2, e2, hd2, hv2, -⟩ := fDecode_num hb
    have := fRound_rounded s rm (a.getLsbD 63 ^^ b.getLsbD 63) (m1 * m2) (e1 + e2)
    simp only [fMul, hd1, hd2]
    rw [Rat.cast_mul, hv1, hv2, signed_mul]
    rw [zpow_add₀ (by norm_num)] at this
    convert this using 2
    push_cast; ring

theorem fDiv_spec (s : Bool) (rm : Nat) (a b : Word) : DivResult s rm a b (fDiv s rm a b) := by
  refine ⟨fun h => ?_, fun ha hb => ?_, fun ha hb => ?_, fun ha hb => ?_, fun ha hb h => ?_, fun ha hb h => ?_⟩
  · have : fDiv s rm a b = fNanOf s [a, b] := by
      by_cases ha : fNaN a
      · simp only [fDiv, fDecode_nan ha]
      · have hb := h.resolve_left ha
        rcases (fClass a).resolve_left ha with ha | ha
        · simp only [fDiv, fDecode_inf ha, fDecode_nan hb]
        · obtain ⟨m, e, hd, -⟩ := fDecode_num ha
          simp only [fDiv, hd, fDecode_nan hb]
    exact this ▸ fNanOf_pair s a b h
  · simp only [fDiv, fDecode_inf ha, fDecode_inf hb]; rfl
  · obtain ⟨m, e, hd, -⟩ := fDecode_num hb
    simp only [fDiv, fDecode_inf ha, hd]
  · obtain ⟨m, e, hd, -⟩ := fDecode_num ha
    simp only [fDiv, fDecode_inf hb, hd, fEncode_zero]
  · obtain ⟨m1, e1, hd1, hv1, -⟩ := fDecode_num ha
    obtain ⟨m2, e2, hd2, hv2, -⟩ := fDecode_num hb
    have h2 := (fNum_zero_iff hv2).1 h
    simp only [fDiv, hd1, hd2, h2, if_true, fNum_zero_iff hv1]
    rfl
  · obtain ⟨m1, e1, hd1, hv1, -⟩ := fDecode_num ha
    obtain ⟨m2, e2, hd2, hv2, hm2⟩ := fDecode_num hb
    have h2 := mt (fNum_zero_iff hv2).2 h
    simp only [fDiv, hd1, hd2, if_neg h2]
    rw [Rat.cast_div, hv1, hv2, signed_div]
    have hm2p : 0 < m2 := Nat.pos_of_ne_zero h2
    have hm2r : (0 : ℝ) < m2 := by exact_mod_cast hm2p
    have hpe : (0 : ℝ) < 2 ^ (e1 - e2 - 120) := by positivity
    have hval : (m1 : ℝ) * 2 ^ e1 / (m2 * 2 ^ e2) = (m1 * 2 ^ 120 : ℕ) / m2 * 2 ^ (e1 - e2 - 120) := by
      have : (2 : ℝ) ^ e1 = 2 ^ (e1 - e2 - 120) * 2 ^ 120 * 2 ^ e2 := by
        rw [← zpow_natCast, ← zpow_add₀ (by norm_num), ← zpow_add₀ (by norm_num)]; congr 1; push_cast; ring
      have h2e : (2 : ℝ) ^ e2 ≠ 0 := by positivity
      rw [this]; push_cast; field_simp; norm_num
    constructor
    · intro hx
      have : m1 = 0 := by
        rw [hval] at hx
        by_contra hc
        have h1 : (0 : ℝ) < m1 := by exact_mod_cast Nat.pos_of_ne_zero hc
        have : (0 : ℝ) < ((m1 * 2 ^ 120 : ℕ) : ℝ) / m2 * 2 ^ (e1 - e2 - 120) := by push_cast; positivity
        have habs := abs_signed (a.getLsbD 63 ^^ b.getLsbD 63) _ this.le
        rw [hx, abs_zero] at habs
        linarith
      rw [if_pos this, fEncode_zero]
    · intro hx
      have h1 : m1 ≠ 0 := by
        rintro rfl
        apply hx
        cases (a.getLsbD 63 ^^ b.getLsbD 63) <;> simp [signed]
      rw [if_neg h1, hval]
      have hbig : 2 ^ 67 ≤ m1 * 2 ^ 120 / m2 := by
        rw [Nat.le_div_iff_mul_le hm2p]
        calc 2 ^ 67 * m2 ≤ 2 ^ 67 * 2 ^ 53 := Nat.mul_le_mul_left _ hm2.le
          _ = 1 * 2 ^ 120 := by norm_num
          _ ≤ m1 * 2 ^ 120 := Nat.mul_le_mul_right _ (Nat.pos_of_ne_zero h1)
      generalize hn : m1 * 2 ^ 120 = n at *
      have hdm : (n : ℝ) = m2 * (n / m2 : ℕ) + (n % m2 : ℕ) := by exact_mod_cast (Nat.div_add_mod n m2).symm
      have hr : ((n % m2 : ℕ) : ℝ) < m2 := by exact_mod_cast Nat.mod_lt n hm2p
      have hr0 : (0 : ℝ) ≤ (n % m2 : ℕ) := Nat.cast_nonneg _
      refine fRound_spec s rm _ (n / m2) (e1 - e2 - 120) (n % m2 != 0) _ (by omega) ?_ ?_ ?_ ?_
      · refine mul_le_mul_of_nonneg_right ?_ hpe.le
        rw [le_div_iff₀ hm2r]; linarith
      · refine mul_lt_mul_of_pos_right ?_ hpe
        rw [div_lt_iff₀ hm2r]; linarith
      · intro h0
        have h0' : n % m2 = 0 := by simpa using h0
        rw [h0'] at hdm
        congr 1
        rw [div_eq_iff hm2r.ne', hdm]; push_cast; ring
      · intro h0
        have h0' : n % m2 ≠ 0 := by simpa using h0
        have : (0 : ℝ) < (n % m2 : ℕ) := by exact_mod_cast Nat.pos_of_ne_zero h0'
        refine ⟨mul_lt_mul_of_pos_right ?_ hpe, ?_⟩
        · rw [lt_div_iff₀ hm2r]; linarith
        · have := lt_bitLen_of_le hbig
          have := (fmtOf_bounds s).1
          omega

theorem isqrtBits_spec (k n r : Nat) (h1 : r * r ≤ n) (h2 : n < (r + 2 ^ k) * (r + 2 ^ k)) :
    isqrtBits k n r * isqrtBits k n r ≤ n ∧ n < (isqrtBits k n r + 1) * (isqrtBits k n r + 1) := by
  induction k generalizing r with
  | zero => exact ⟨h1, by simpa [isqrtBits] using h2⟩
  | succ k ih =>
    simp only [isqrtBits]
    split_ifs with h
    · exact ih _ h (by rw [pow_succ] at h2; convert h2 using 2 <;> ring)
    · exact ih _ h1 (by omega)

theorem isqrt_spec (n : Nat) (h : n < 2 ^ 256) : isqrt n * isqrt n ≤ n ∧ n < (isqrt n + 1) * (isqrt n + 1) :=
  isqrtBits_spec 128 n 0 (by omega) (by omega)

theorem fSqrt_spec (s : Bool) (rm : Nat) (a : Word) : SqrtResult s rm a (fSqrt s rm a) := by
  refine ⟨fun h => ?_, fun h => ?_, fun ha h => ?_, fun ha h => ?_⟩
  · simp only [fSqrt, fDecode_nan h]
    exact fNanOf_spec s _ ⟨a, by simp, h⟩
  · simp only [fSqrt, fDecode_inf h]
    by_cases hs : a.getLsbD 63 = true
    · rw [if_pos hs, if_pos hs]; rfl
    · have he := inf_eq h
      rw [if_neg hs, if_neg hs]
      rw [Bool.not_eq_true] at hs
      rw [hs] at he; rw [he]
  · obtain ⟨m, e, hd, hv, -⟩ := fDecode_num ha
    have h0 := mt (fNum_zero_iff hv).2 h.ne
    have hs : a.getLsbD 63 = true := by
      by_contra hc
      rw [Bool.not_eq_true] at hc
      rw [hc] at hv
      have : (fNum a : ℝ) < 0 := by exact_mod_cast h
      rw [hv] at this
      have : (0 : ℝ) ≤ m * 2 ^ e := by positivity
      simp [signed] at *; linarith
    simp only [fSqrt, hd, if_neg h0, hs, if_true]; rfl
  · obtain ⟨m, e, hd, hv, hm⟩ := fDecode_num ha
    simp only [fSqrt, hd]
    constructor
    · intro hx
      have : fNum a = 0 := by
        have h' : (0 : ℝ) ≤ fNum a := by exact_mod_cast h
        have := (Real.sqrt_eq_zero h').1 hx
        exact_mod_cast this
      rw [if_pos ((fNum_zero_iff hv).1 this), fEncode_zero]
    · intro hx
      have h0 : m ≠ 0 := by
        intro hc
        apply hx
        rw [(fNum_zero_iff hv).2 hc]; simp
      have hpos : (0 : ℝ) < m * 2 ^ e := by
        have : (0 : ℝ) < m := by exact_mod_cast Nat.pos_of_ne_zero h0
        positivity
      have hs : a.getLsbD 63 = false := by
        by_contra hc
        rw [Bool.not_eq_false] at hc
        rw [hc] at hv
        have : (0 : ℝ) ≤ fNum a := by exact_mod_cast h
        rw [hv] at this
        simp [signed] at this; linarith
      rw [if_neg h0, hs]
      simp only [Bool.false_eq_true, if_false]
      rw [hs] at hv
      simp only [signed, Bool.false_eq_true, if_false] at hv
      rw [hv]
      obtain ⟨n, hn⟩ : ∃ n, n = (if (e % 2 != 0) = true then 2 * m else m) * 2 ^ 180 := ⟨_, rfl⟩
      obtain ⟨e', he'⟩ : ∃ e', e' = ((if (e % 2 != 0) = true then e - 1 else e) - 180) / 2 := ⟨_, rfl⟩
      rw [← hn, ← he']
      have hnb : 2 ^ 180 ≤ n ∧ n < 2 ^ 256 := by rw [hn]; split_ifs <;> omega
      have hval : (m : ℝ) * 2 ^ e = n * (2 ^ e') ^ 2 := by
        rw [← zpow_natCast, ← zpow_mul, hn]
        by_cases ho : (e % 2 != 0) = true
        · rw [if_pos ho] at he' ⊢
          have ho' : e % 2 ≠ 0 := by simpa using ho
          rw [show (e : ℤ) = 1 + 180 + e' * (2 : ℕ) by push_cast; omega, zpow_add₀ (by norm_num), zpow_add₀ (by norm_num)]
          push_cast
          rw [show ((2 : ℝ) ^ (180 : ℤ)) = 2 ^ (180 : ℕ) from by norm_cast, zpow_one]; ring
        · rw [if_neg ho] at he' ⊢
          have ho' : e % 2 = 0 := by simpa using ho
          rw [show (e : ℤ) = 180 + e' * (2 : ℕ) by push_cast; omega, zpow_add₀ (by norm_num)]
          push_cast
          rw [show ((2 : ℝ) ^ (180 : ℤ)) = 2 ^ (180 : ℕ) from by norm_cast]; ring
      have hpe : (0 : ℝ) < 2 ^ e' := by positivity
      have hsq : Real.sqrt (m * 2 ^ e) = Real.sqrt n * 2 ^ e' := by
        rw [hval, Real.sqrt_mul (Nat.cast_nonneg _), Real.sqrt_sq hpe.le]
      rw [hsq]
      obtain ⟨h1, h2⟩ := isqrt_spec n hnb.2
      generalize hr : isqrt n = r at *
      have hr90 : 2 ^ 90 ≤ r := by
        by_contra hc
        have : r + 1 ≤ 2 ^ 90 := by omega
        have := Nat.mul_le_mul this this
        omega
      have h1r : (r : ℝ) ≤ Real.sqrt n := Real.le_sqrt_of_sq_le (by rw [sq]; exact_mod_cast h1)
      have h2r : Real.sqrt n < r + 1 := by
        rw [Real.sqrt_lt' (by positivity), sq]; exact_mod_cast h2
      have := fRound_spec s rm false r e' (r * r != n) (Real.sqrt n * 2 ^ e') (by omega)
        (mul_le_mul_of_nonneg_right h1r hpe.le) (mul_lt_mul_of_pos_right h2r hpe)
        (fun hc => by
          have hc' : r * r = n := by simpa using hc
          rw [← hc', Nat.cast_mul, Real.sqrt_mul_self (Nat.cast_nonneg _)])
        (fun hc => by
          have hc' : r * r ≠ n := by simpa using hc
          refine ⟨mul_lt_mul_of_pos_right (lt_of_le_of_ne h1r fun heq => hc' ?_) hpe, ?_⟩
          · have : (r : ℝ) * r = n := by rw [heq, Real.mul_self_sqrt (Nat.cast_nonneg _)]
            exact_mod_cast this
          · have := lt_bitLen_of_le hr90
            have := (fmtOf_bounds s).1
            omega)
      simpa [signed] using this

/-- The significand and the exponent of a finite encoding: canonical, so that the number and the sign give it back. -/
theorem canon (x : Word) : ∃ (m : ℕ) (e : ℕ), |fNum x| = m * 2 ^ ((e : ℤ) - 1074) ∧ m < 2 ^ 53 ∧
    (e ≠ 0 → 2 ^ 52 ≤ m) ∧ fFrac x = m % 2 ^ 52 ∧ fExp x = if m < 2 ^ 52 then 0 else e + 1 := by
  have hf := fFrac_lt x
  have habs : ∀ (b : Bool) (y : ℚ), 0 ≤ y → |(if b then -1 else 1) * y| = y := by
    intro b y hy; cases b <;> simp [abs_of_nonneg hy]
  by_cases h0 : fExp x = 0
  · refine ⟨fFrac x, 0, ?_, by omega, by simp, by omega, by rw [if_pos hf, h0]⟩
    rw [fNum, if_pos h0, habs _ _ (by positivity)]; simp
  · refine ⟨2 ^ 52 + fFrac x, fExp x - 1, ?_, by omega, by omega, by omega, by rw [if_neg (by omega)]; omega⟩
    rw [fNum, if_neg h0, habs _ _ (by positivity)]
    congr 2; omega

theorem eq_of_fields {x y : Word} (h1 : fExp x = fExp y) (h2 : fFrac x = fFrac y) (h3 : x.getLsbD 63 = y.getLsbD 63) :
    x = y := by
  have hx := BitVec.isLt x
  have hy := BitVec.isLt y
  rw [fExp_eq, fExp_eq] at h1
  rw [fFrac_eq, fFrac_eq] at h2
  rw [BitVec.getLsbD, BitVec.getLsbD, Nat.testBit_eq_decide_div_mod_eq, Nat.testBit_eq_decide_div_mod_eq,
    decide_eq_decide] at h3
  apply BitVec.eq_of_toNat_eq
  omega

/-- An encoding is given by its number and its sign. -/
theorem fNum_inj {x y : Word} (h : fNum x = fNum y)
    (hs : x.getLsbD 63 = y.getLsbD 63) : x = y := by
  obtain ⟨m, e, v, hm, hn, hf, he⟩ := canon x
  obtain ⟨m', e', v', hm', hn', hf', he'⟩ := canon y
  rw [h, v'] at v
  have key : ∀ (m m' e e' : ℕ), (m' : ℚ) * 2 ^ ((e' : ℤ) - 1074) = m * 2 ^ ((e : ℤ) - 1074) → m < 2 ^ 53 →
      (e' ≠ 0 → 2 ^ 52 ≤ m') → e' ≤ e := by
    intro m m' e e' v hm hn'
    by_contra hc
    obtain ⟨j, hj⟩ : ∃ j, e' = e + 1 + j := ⟨e' - (e + 1), by omega⟩
    have h52 : (2 : ℚ) ^ 52 ≤ m' := by exact_mod_cast hn' (by omega)
    have hm53 : (m : ℚ) < 2 ^ 53 := by exact_mod_cast hm
    have hp : (0 : ℚ) < 2 ^ ((e : ℤ) - 1074) := by positivity
    rw [hj, show ((e + 1 + j : ℕ) : ℤ) - 1074 = ((1 + j : ℕ) : ℤ) + ((e : ℤ) - 1074) by push_cast; ring,
      zpow_add₀ (by norm_num), ← mul_assoc] at v
    have v' := mul_right_cancel₀ hp.ne' v
    have hj1 : (1 : ℚ) ≤ 2 ^ j := one_le_pow₀ (by norm_num)
    rw [zpow_natCast, pow_add, pow_one, mul_left_comm] at v'
    have h3 := mul_le_mul h52 hj1 (by norm_num) (le_trans (by norm_num) h52)
    rw [pow_succ' 2 52] at hm53
    linarith
  have hee : e = e' := le_antisymm (key _ _ _ _ v.symm hm' hn) (key _ _ _ _ v hm hn')
  subst hee
  have hp : (0 : ℚ) < 2 ^ ((e : ℤ) - 1074) := by positivity
  have hmm : m' = m := by exact_mod_cast mul_right_cancel₀ hp.ne' v
  subst hmm
  exact eq_of_fields (by rw [he, he']) (by rw [hf, hf']) hs

theorem zero_of_num {x : Word} (h0 : fNum x = 0) : x = fZero (x.getLsbD 63) :=
  fNum_inj (by rw [h0, (fZero_num _).2.1]) (fZero_num _).2.2.symm

theorem fToFormat_spec (s : Bool) (rm : Nat) (x : Word) : FormatResult s rm x (fToFormat s rm x) := by
  refine ⟨fun h => by simp only [fToFormat, fDecode_inf h], fun h => ?_⟩
  obtain ⟨m, e, hd, hv, -⟩ := fDecode_num h
  have := fRound_rounded s rm (x.getLsbD 63) m e
  simp only [fToFormat, hd]
  rw [hv]
  by_cases h0 : m = 0
  · rw [if_pos h0] at this ⊢
    rw [fEncode_zero, ← zero_of_num ((fNum_zero_iff hv).2 h0)] at this
    exact this
  · rwa [if_neg h0] at this ⊢

theorem fLt_iff (a b : Word) : fLt a b = true ↔ FLess a b := by
  rcases fClass a with ha | ha | ha
  · have h1 : ¬ FLess a b := by
      rintro (⟨h, -⟩ | ⟨h, -⟩ | ⟨h, -⟩)
      · exact ha.2 h.2
      · exact h ha.1
      · exact h ha.1
    simp only [fLt, fDecode_nan ha, h1, iff_false]
    simp
  · rcases fClass b with hb | hb | hb
    · have h1 : ¬ FLess a b := by
        rintro (⟨-, -, h | ⟨h, -⟩⟩ | ⟨h, -⟩ | ⟨h, -⟩)
        · exact h hb.1
        · exact hb.2 h.2
        · exact h ha.1
        · exact h ha.1
      simp only [fLt, fDecode_nan hb, fDecode_inf ha, h1, iff_false]
      simp
    · have ha' : ¬ fFinite a := fun h => h ha.1
      have hb' : ¬ fFinite b := fun h => h hb.1
      simp only [fLt, fDecode_inf ha, fDecode_inf hb, FLess, eq_true ha, eq_false ha', eq_true hb, eq_false hb']
      simp
    · obtain ⟨m, e, hd, -⟩ := fDecode_num hb
      have ha' : ¬ fFinite a := fun h => h ha.1
      simp only [fLt, fDecode_inf ha, hd, FLess, eq_true ha, eq_false ha', eq_true hb]
      simp
  · obtain ⟨m, e, hd, hv, -⟩ := fDecode_num ha
    have ha' : ¬ fInfinite a := not_inf_of_fin ha
    rcases fClass b with hb | hb | hb
    · have h1 : ¬ FLess a b := by
        rintro (⟨h, -⟩ | ⟨-, h, -⟩ | ⟨-, h, -⟩)
        · exact ha' h
        · exact hb.2 h.2
        · exact h hb.1
      simp only [fLt, fDecode_nan hb, hd, h1, iff_false]
      simp
    · have hb' : ¬ fFinite b := fun h => h hb.1
      simp only [fLt, hd, fDecode_inf hb, FLess, eq_true ha, eq_false ha', eq_true hb, eq_false hb']
      simp
    · obtain ⟨m', e', hd', hv', -⟩ := fDecode_num hb
      have hb' : ¬ fInfinite b := not_inf_of_fin hb
      simp only [fLt, hd, hd', FLess, eq_true ha, eq_false ha', eq_true hb, eq_false hb', decide_eq_true_iff, true_and,
        false_and, and_false, false_or]
      have hp : (0 : ℝ) < 2 ^ (min e e') := by positivity
      rw [← Rat.cast_lt (K := ℝ), hv, hv', ← fAt_cast _ _ _ _ (min_le_left e e'), ← fAt_cast _ _ _ _ (min_le_right e e'),
        mul_lt_mul_iff_left₀ hp]
      norm_cast

theorem fEq_iff (a b : Word) : fEq a b = true ↔ FSame a b := by
  have hn : fEq a b = true ↔ ¬ fNaN a ∧ ¬ fNaN b ∧ ¬ FLess a b ∧ ¬ FLess b a := by
    simp only [fEq, Bool.and_eq_true, Bool.not_eq_true', ← fIsNan_iff, ← fLt_iff, Bool.not_eq_true, and_assoc]
  rw [hn]
  rcases fClass a with ha | ha | ha
  · simp only [eq_true ha, not_true, false_and, false_iff]
    rintro (⟨h, -⟩ | ⟨h, -⟩)
    · exact ha.2 h.2
    · exact h ha.1
  · have ha' : ¬ fFinite a := fun h => h ha.1
    rcases fClass b with hb | hb | hb
    · simp only [eq_true hb, not_true, false_and, and_false, false_iff]
      rintro (⟨-, h, -⟩ | ⟨h, -⟩)
      · exact hb.2 h.2
      · exact h ha.1
    · have hb' : ¬ fFinite b := fun h => h hb.1
      simp only [eq_false (not_nan_of_inf ha), eq_false (not_nan_of_inf hb), FLess, FSame, eq_true ha, eq_true hb, eq_false ha', eq_false hb',
        not_false_eq_true, true_and, false_and, and_false, or_false, false_or]
      cases a.getLsbD 63 <;> cases b.getLsbD 63 <;> simp
    · have hb' : ¬ fInfinite b := not_inf_of_fin hb
      simp only [eq_false (not_nan_of_inf ha), eq_false (not_nan_of_fin hb), FLess, FSame, eq_true ha, eq_true hb, eq_false ha', eq_false hb',
        not_false_eq_true, true_and, false_and, and_false, or_false, false_or]
      cases a.getLsbD 63 <;> simp
  · have ha' : ¬ fInfinite a := not_inf_of_fin ha
    rcases fClass b with hb | hb | hb
    · simp only [eq_true hb, not_true, false_and, and_false, false_iff]
      rintro (⟨-, h, -⟩ | ⟨-, h, -⟩)
      · exact hb.2 h.2
      · exact h hb.1
    · have hb' : ¬ fFinite b := fun h => h hb.1
      simp only [eq_false (not_nan_of_fin ha), eq_false (not_nan_of_inf hb), FLess, FSame, eq_true ha, eq_true hb, eq_false ha', eq_false hb',
        not_false_eq_true, true_and, false_and, and_false, or_false, false_or]
      cases b.getLsbD 63 <;> simp
    · have hb' : ¬ fInfinite b := not_inf_of_fin hb
      simp only [eq_false (not_nan_of_fin ha), eq_false (not_nan_of_fin hb), FLess, FSame, eq_true ha, eq_true hb, eq_false ha', eq_false hb',
        not_false_eq_true, true_and, false_and, and_false, or_false, false_or]
      simp only [not_lt]
      exact ⟨fun h => le_antisymm h.2 h.1, fun h => ⟨h.ge, h.le⟩⟩

theorem FSame_eq {a b : Word} (h : FSame a b) (hs : a.getLsbD 63 = b.getLsbD 63) : a = b := by
  rcases h with ⟨ha, hb, -⟩ | ⟨ha, hb, h⟩
  · exact eq_of_fields (ha.1.trans hb.1.symm) (ha.2.trans hb.2.symm) hs
  · exact fNum_inj h hs

theorem not_nan_less {a b : Word} (h : FLess a b) : ¬ fNaN a ∧ ¬ fNaN b := by
  rcases h with ⟨h, -, h' | ⟨h', -⟩⟩ | ⟨h, h', -⟩ | ⟨h, h', -⟩
  · exact ⟨not_nan_of_inf h, not_nan_of_fin h'⟩
  · exact ⟨not_nan_of_inf h, not_nan_of_inf h'⟩
  · exact ⟨not_nan_of_fin h, not_nan_of_inf h'⟩
  · exact ⟨not_nan_of_fin h, not_nan_of_fin h'⟩

theorem not_nan_same {a b : Word} (h : FSame a b) : ¬ fNaN a ∧ ¬ fNaN b := by
  rcases h with ⟨h, h', -⟩ | ⟨h, h', -⟩
  · exact ⟨not_nan_of_inf h, not_nan_of_inf h'⟩
  · exact ⟨not_nan_of_fin h, not_nan_of_fin h'⟩

theorem FLess_asymm {a b : Word} (h : FLess a b) : ¬ FLess b a ∧ ¬ FSame a b ∧ ¬ FSame b a := by
  have h1 : ∀ {x y : Word}, FLess x y → ¬ FSame x y ∧ ¬ FSame y x := by
    intro x y hl
    rcases hl with ⟨hx, hs, hy | ⟨hy, hs'⟩⟩ | ⟨hx, hy, hs⟩ | ⟨hx, hy, hv⟩
    · exact ⟨by rintro (⟨-, h, -⟩ | ⟨h, -⟩) <;> [exact hy h.1; exact h hx.1],
        by rintro (⟨h, -⟩ | ⟨-, h, -⟩) <;> [exact hy h.1; exact h hx.1]⟩
    · exact ⟨by rintro (⟨-, -, h⟩ | ⟨h, -⟩) <;> [(rw [hs, hs'] at h; simp at h); exact h hx.1],
        by rintro (⟨-, -, h⟩ | ⟨h, -⟩) <;> [(rw [hs, hs'] at h; simp at h); exact h hy.1]⟩
    · exact ⟨by rintro (⟨h, -⟩ | ⟨-, h, -⟩) <;> [exact hx h.1; exact h hy.1],
        by rintro (⟨-, h, -⟩ | ⟨h, -⟩) <;> [exact hx h.1; exact h hy.1]⟩
    · exact ⟨by rintro (⟨h, -⟩ | ⟨-, -, h⟩) <;> [exact hx h.1; exact hv.ne h],
        by rintro (⟨h, -⟩ | ⟨-, -, h⟩) <;> [exact hy h.1; exact hv.ne h.symm]⟩
  refine ⟨?_, h1 h⟩
  rcases h with ⟨hx, hs, hy | ⟨hy, hs'⟩⟩ | ⟨hx, hy, hs⟩ | ⟨hx, hy, hv⟩
  · rintro (⟨h, -⟩ | ⟨-, -, h⟩ | ⟨-, h, -⟩)
    · exact hy h.1
    · rw [hs] at h; simp at h
    · exact h hx.1
  · rintro (⟨-, h, -⟩ | ⟨h, -⟩ | ⟨h, -⟩)
    · rw [hs'] at h; simp at h
    · exact h hy.1
    · exact h hy.1
  · rintro (⟨-, h, -⟩ | ⟨h, -⟩ | ⟨h, -⟩)
    · rw [hs] at h; simp at h
    · exact h hy.1
    · exact h hy.1
  · rintro (⟨h, -⟩ | ⟨-, h, -⟩ | ⟨-, -, h⟩)
    · exact hy h.1
    · exact hx h.1
    · exact absurd h hv.le.not_gt

theorem FSame_symm {a b : Word} (h : FSame a b) : FSame b a := by
  rcases h with ⟨h, h', e⟩ | ⟨h, h', e⟩
  · exact Or.inl ⟨h', h, e.symm⟩
  · exact Or.inr ⟨h', h, e.symm⟩

theorem fMinMax_spec (max s : Bool) (rm : Nat) (a b : Word) : ExtremeResult max s rm a b (fMinMax max s rm a b) := by
  have hb : ∀ x y, (fLt x y || (fEq x y && fSign x && !fSign y)) = true ↔
      FLess x y ∨ FSame x y ∧ x.getLsbD 63 = true ∧ y.getLsbD 63 = false := by
    intro x y
    simp only [Bool.or_eq_true, Bool.and_eq_true, fLt_iff, fEq_iff, fSign, Bool.not_eq_true', and_assoc]
  have hf : ¬ fNaN a → ¬ fNaN b → fMinMax max s rm a b =
      fToFormat s rm (if ((fLt a b || (fEq a b && fSign a && !fSign b)) ^^ max) = true then a else b) := by
    intro ha hb
    have : (fIsNan a || fIsNan b) = false := by
      by_contra hc
      simp only [Bool.not_eq_false, Bool.or_eq_true, fIsNan_iff] at hc
      exact hc.elim ha hb
    simp only [fMinMax, this, Bool.false_eq_true, if_false]
  refine ⟨fun h => ?_, fun h => ?_, fun h => ?_, fun h hs => ?_⟩
  · have : (fIsNan a || fIsNan b) = true := by simpa [fIsNan_iff] using h
    simp only [fMinMax, this, if_true]
    exact fNanOf_pair s a b h
  · have hn : ¬ fNaN a ∧ ¬ fNaN b := h.elim not_nan_less (fun h => not_nan_same h.1)
    rw [hf hn.1 hn.2, (hb a b).2 h]
    cases max <;> exact fToFormat_spec ..
  · have hn : ¬ fNaN b ∧ ¬ fNaN a := h.elim not_nan_less (fun h => not_nan_same h.1)
    have : (fLt a b || (fEq a b && fSign a && !fSign b)) = false := by
      rw [← Bool.not_eq_true, hb]
      rcases h with h | ⟨h, h1, h2⟩
      · rintro (h' | ⟨h', -⟩)
        · exact (FLess_asymm h).1 h'
        · exact (FLess_asymm h).2.2 h'
      · rintro (h' | ⟨-, h', -⟩)
        · exact (FLess_asymm h').2.2 h
        · rw [h2] at h'; simp at h'
    rw [hf hn.2 hn.1, this]
    cases max <;> exact fToFormat_spec ..
  · have hn := not_nan_same h
    have e := FSame_eq h hs
    refine ⟨e, ?_⟩
    rw [hf hn.1 hn.2, ← e, ite_self]
    exact fToFormat_spec ..

theorem fMinus_num (x : Word) : fNum (fMinus x) = -fNum x := by
  obtain ⟨h1, h2, h3⟩ := fMinus_fields x
  simp only [fNum, h1, h2, h3]
  generalize (if fExp x = 0 then _ else _) = v
  cases x.getLsbD 63 <;> simp

theorem fNeg_eq (x : Word) : fNeg x = fMinus x := rfl

theorem fMadd_spec (np nc s : Bool) (rm : Nat) (a b c : Word) : FusedResult np nc s rm a b c (fMadd np nc s rm a b c) := by
  unfold FusedResult
  intro pn c' zeroInf
  obtain ⟨zi, hzi⟩ : ∃ zi : Bool, zi = (match fDecode a, fDecode b with
    | .inf _, .fin _ m _ => m == 0
    | .fin _ m _, .inf _ => m == 0
    | _, _ => false) := ⟨_, rfl⟩
  have hz : zi = true ↔ zeroInf := by
    simp only [zeroInf]
    rcases fClass a with ha | ha | ha
    · have ha1 : ¬ fFinite a := fun h => h ha.1
      have ha2 : ¬ fInfinite a := fun h => ha.2 h.2
      simp only [hzi, fDecode_nan ha, eq_false ha1, eq_false ha2]; simp
    · have ha1 : ¬ fFinite a := fun h => h ha.1
      rcases fClass b with hb | hb | hb
      · have hb1 : ¬ fFinite b := fun h => h hb.1
        simp only [hzi, fDecode_inf ha, fDecode_nan hb, eq_false ha1, eq_false hb1]; simp
      · have hb1 : ¬ fFinite b := fun h => h hb.1
        simp only [hzi, fDecode_inf ha, fDecode_inf hb, eq_false ha1, eq_false hb1]; simp
      · obtain ⟨m, e, hd, hv, -⟩ := fDecode_num hb
        simp only [hzi, fDecode_inf ha, hd, eq_true ha, eq_false ha1, eq_true hb, fNum_zero_iff hv]; simp
    · obtain ⟨m, e, hd, hv, -⟩ := fDecode_num ha
      have ha1 : ¬ fInfinite a := not_inf_of_fin ha
      rcases fClass b with hb | hb | hb
      · have hb1 : ¬ fInfinite b := fun h => hb.2 h.2
        simp only [hzi, hd, fDecode_nan hb, eq_false ha1, eq_false hb1]; simp
      · simp only [hzi, hd, fDecode_inf hb, eq_false ha1, eq_true ha, eq_true hb, fNum_zero_iff hv]; simp
      · obtain ⟨m', e', hd', -⟩ := fDecode_num hb
        have hb1 : ¬ fInfinite b := not_inf_of_fin hb
        simp only [hzi, hd, hd', eq_false ha1, eq_false hb1]; simp
  have hnan : (fIsNan a || fIsNan b || fIsNan c) = true ↔ fNaN a ∨ fNaN b ∨ fNaN c := by
    simp only [Bool.or_eq_true, fIsNan_iff, or_assoc]
  have hunf : fMadd np nc s rm a b c =
      if (fIsNan a || fIsNan b || fIsNan c) = true then
        ((fNanOf s [a, b, c]).1, (fNanOf s [a, b, c]).2 ||| (if (zi && Config.fmaZeroInfNan) = true then fNV else 0))
      else if zi = true then (fDefaultNan, fNV)
      else match fDecode a, fDecode b with
        | .fin n1 m1 e1, .fin n2 m2 e2 =>
          match fDecode c' with
          | .fin n3 m3 e3 => fSumFin s rm (xor (xor n1 n2) np) (m1 * m2) (e1 + e2) n3 m3 e3
          | _ => (c', 0)
        | _, _ =>
          match fDecode c' with
          | .inf y => if pn = y then (fInf y, 0) else (fDefaultNan, fNV)
          | _ => (fInf pn, 0) := by
    subst hzi; rfl
  have hspec : fNaN a ∨ fNaN b ∨ fNaN c → NanResult s [a, b, c] (fNanOf s [a, b, c]) := fun h =>
    fNanOf_spec s _ (by rcases h with h | h | h <;> exact ⟨_, by simp, h⟩)
  have hci : (fInfinite c' ↔ fInfinite c) ∧ (fFinite c' ↔ fFinite c) ∧ (fNaN c' ↔ fNaN c) := by
    simp only [c']
    split_ifs
    · simp only [fInfinite, fFinite, fNaN, (fMinus_fields c).1, (fMinus_fields c).2.1]; simp
    · simp
  refine ⟨fun h hzn => ?_, fun h hzn => ?_, fun h hzn => ?_, fun ha hb hc hzn => ?_⟩
  · have hzf : zi = false := by rw [← Bool.not_eq_true, hz]; exact hzn
    rw [hunf, if_pos (hnan.2 h), hzf]
    simpa using hspec h
  · have h3 : fNaN a ∨ fNaN b ∨ fNaN c := Or.inr (Or.inr h)
    rw [hunf, if_pos (hnan.2 h3), hz.2 hzn]
    refine ⟨(fNanOf s [a, b, c]).2, hspec h3, ?_⟩
    have hfl : (fNanOf s [a, b, c]).2 = 0 ∨ (fNanOf s [a, b, c]).2 = 1 := by
      simp only [fNanOf, fNV]; split_ifs <;> simp
    cases Config.fmaZeroInfNan
    · simp
    · rcases hfl with h | h <;> simp [h, fNV]
  · have hz' := hzn
    have hn : ¬ (fIsNan a || fIsNan b || fIsNan c) = true := by
      rw [hnan]
      rintro (h' | h' | h')
      · rcases hzn with ⟨h1, -⟩ | ⟨h1, -⟩
        · exact not_nan_of_inf h1 h'
        · exact not_nan_of_fin h1 h'
      · rcases hzn with ⟨-, h1, -⟩ | ⟨-, -, h1⟩
        · exact not_nan_of_fin h1 h'
        · exact not_nan_of_inf h1 h'
      · exact h h'
    rw [hunf, if_neg hn, if_pos (hz.2 hz')]; rfl
  · have hn : ¬ (fIsNan a || fIsNan b || fIsNan c) = true := by
      rw [hnan]; rintro (h | h | h)
      · exact ha h
      · exact hb h
      · exact hc h
    have hzf : ¬ zi = true := by rw [hz]; exact hzn
    rw [hunf, if_neg hn, if_neg hzf]
    have hc' : ¬ fNaN c' := mt hci.2.2.1 hc
    have hinf : fInfinite a ∨ fInfinite b → (match fDecode a, fDecode b with
        | .fin n1 m1 e1, .fin n2 m2 e2 =>
          match fDecode c' with
          | .fin n3 m3 e3 => fSumFin s rm (xor (xor n1 n2) np) (m1 * m2) (e1 + e2) n3 m3 e3
          | _ => (c', 0)
        | _, _ =>
          match fDecode c' with
          | .inf y => if pn = y then (fInf y, 0) else (fDefaultNan, fNV)
          | _ => (fInf pn, 0)) = match fDecode c' with
          | .inf y => if pn = y then (fInf y, 0) else (fDefaultNan, fNV)
          | _ => (fInf pn, 0) := by
      rintro (h | h)
      · rw [fDecode_inf h]
      · rcases (fClass a).resolve_left ha with h' | h'
        · rw [fDecode_inf h']
        · obtain ⟨m, e, hd, -⟩ := fDecode_num h'
          rw [fDecode_inf h, hd]
    refine ⟨fun h => ?_, fun h1 h2 h3 => ?_, fun h1 h2 h3 => ?_⟩
    · rw [hinf h]
      rcases (fClass c').resolve_left hc' with h' | h'
      · simp only [fDecode_inf h']
        refine ⟨fun _ hs => by rw [if_neg (Ne.symm hs)]; rfl, fun hs => ?_⟩
        have := hs (hci.1.1 h')
        rw [if_pos this.symm, this]
      · obtain ⟨m, e, hd, -⟩ := fDecode_num h'
        simp only [hd]
        exact ⟨fun h'' => absurd (hci.1.2 h'') (not_inf_of_fin h'), fun _ => trivial⟩
    · obtain ⟨m1, e1, hd1, -⟩ := fDecode_num h1
      obtain ⟨m2, e2, hd2, -⟩ := fDecode_num h2
      simp only [hd1, hd2, fDecode_inf (hci.1.2 h3)]
    · obtain ⟨m1, e1, hd1, hv1, -⟩ := fDecode_num h1
      obtain ⟨m2, e2, hd2, hv2, -⟩ := fDecode_num h2
      obtain ⟨m3, e3, hd3, hv3, -⟩ := fDecode_num (hci.2.1.2 h3)
      simp only [hd1, hd2, hd3]
      have := fSumFin_spec s rm pn (m1 * m2) (e1 + e2) (c'.getLsbD 63) m3 e3
      convert this using 1
      rw [Rat.cast_add, hv3]
      congr 1
      have hprod : (fNum a : ℝ) * fNum b = signed (a.getLsbD 63 ^^ b.getLsbD 63) ((m1 * m2 : ℕ) * 2 ^ (e1 + e2)) := by
        rw [hv1, hv2, signed_mul, zpow_add₀ (by norm_num)]; congr 1; push_cast; ring
      cases hnp : np
      · simp only [Bool.false_eq_true, if_false, Rat.cast_mul, hprod, pn, hnp, Bool.xor_false]
      · simp only [if_true, Rat.cast_neg, Rat.cast_mul, hprod, pn, hnp, Bool.xor_true]
        cases (a.getLsbD 63 ^^ b.getLsbD 63) <;> simp [signed]

theorem fCmpFlags_spec (q : Bool) (a b : Word) :
    (fSignals a ∨ fSignals b ∨ q = true ∧ (fNaN a ∨ fNaN b) → fCmpFlags q a b = 1) ∧
    (¬ fSignals a → ¬ fSignals b → (q = true → ¬ fNaN a ∧ ¬ fNaN b) → fCmpFlags q a b = 0) := by
  have h : (fIsSnan a || fIsSnan b || (q && (fIsNan a || fIsNan b))) = true ↔
      fSignals a ∨ fSignals b ∨ q = true ∧ (fNaN a ∨ fNaN b) := by
    simp only [Bool.or_eq_true, Bool.and_eq_true, fIsSnan_iff, fIsNan_iff, or_assoc]
  unfold fCmpFlags
  refine ⟨fun h' => by rw [if_pos (h.2 h')]; rfl, fun h1 h2 h3 => ?_⟩
  rw [if_neg]
  rw [h]
  rintro (h' | h' | ⟨hq, h' | h'⟩)
  · exact h1 h'
  · exact h2 h'
  · exact (h3 hq).1 h'
  · exact (h3 hq).2 h'

theorem fCmpEq_spec (a b : Word) : CompareResult FSame false a b (if fEq a b then 1 else 0, fCmpFlags false a b) :=
  ⟨fun h => by simp [(fEq_iff a b).2 h], fun h => by simp [mt (fEq_iff a b).1 h], (fCmpFlags_spec _ a b).1,
    (fCmpFlags_spec _ a b).2⟩

theorem fCmpLt_spec (a b : Word) : CompareResult FLess true a b (if fLt a b then 1 else 0, fCmpFlags true a b) :=
  ⟨fun h => by simp [(fLt_iff a b).2 h], fun h => by simp [mt (fLt_iff a b).1 h], (fCmpFlags_spec _ a b).1,
    (fCmpFlags_spec _ a b).2⟩

theorem fCmpLe_spec (a b : Word) : CompareResult (fun x y => FLess x y ∨ FSame x y) true a b
    (if fLt a b || fEq a b then 1 else 0, fCmpFlags true a b) := by
  have h : (fLt a b || fEq a b) = true ↔ FLess a b ∨ FSame a b := by rw [Bool.or_eq_true, fLt_iff, fEq_iff]
  exact ⟨fun h' => by rw [if_pos (h.2 h')], fun h' => by rw [if_neg (mt h.1 h')], (fCmpFlags_spec _ a b).1,
    (fCmpFlags_spec _ a b).2⟩

theorem fKind_spec (x : Word) : KindResult x (fKind x) := by
  have hf := fFrac_lt x
  have key : ∀ k : ℕ, k < 8 → (BitVec.ofNat 64 (k + (if x.getLsbD 63 = true then 8 else 0)) : Word).toNat =
      k + (if x.getLsbD 63 = true then 8 else 0) := by
    intro k hk
    rw [BitVec.toNat_ofNat]; split_ifs <;> omega
  simp only [KindResult, fKind, fSign]
  refine ⟨fun h0 h1 => ?_, fun h0 h1 => ?_, fun h0 h1 => ?_, fun h => ?_, fun h h' => ?_, fun h => ?_⟩
  · have e : fDecode x = .fin (x.getLsbD 63) (fFrac x) (-1074) := by simp [fDecode_eq, h0]
    simp only [e, h1]; exact key 0 (by norm_num)
  · have e : fDecode x = .fin (x.getLsbD 63) (fFrac x) (-1074) := by simp [fDecode_eq, h0]
    simp only [e, if_neg h1, if_pos hf]; exact key 1 (by norm_num)
  · have e : fDecode x = .fin (x.getLsbD 63) (fFrac x + 2 ^ 52) ((fExp x : Int) - 1075) := by
      rw [fDecode_eq, if_neg h1, if_neg h0]
    simp only [e, if_neg (show ¬ fFrac x + 2 ^ 52 = 0 by omega), if_neg (show ¬ fFrac x + 2 ^ 52 < 2 ^ 52 by omega)]
    exact key 2 (by norm_num)
  · simp only [fDecode_inf h]; exact key 3 (by norm_num)
  · have : x.getLsbD 51 = true := by
      by_contra hc
      exact h' ⟨h, by simpa using hc⟩
    simp only [fDecode_nan h, this]; exact key 4 (by norm_num)
  · simp only [fDecode_nan h.1, h.2]; exact key 5 (by norm_num)

theorem fCvt_spec (rm : Nat) (x : Word) (lo hi : Int) (hlh : lo ≤ hi) :
    ConvertResult rm x lo hi (BitVec.ofInt 64 (fCvt rm x lo hi).1, (fCvt rm x lo hi).2) := by
  refine ⟨fun h => ?_, fun h => ?_, fun h => ?_⟩
  · simp only [fCvt, fDecode_nan h]; rfl
  · simp only [fCvt, fDecode_inf h]; rfl
  · obtain ⟨m, e, hd, hv, -⟩ := fDecode_num h
    have hp : (0 : ℝ) < 2 ^ e := by positivity
    obtain ⟨hN, hI, -⟩ := roundAt_spec rm (x.getLsbD 63) m e 0 false (m * 2 ^ e) le_rfl (by nlinarith) (fun _ => rfl)
      (by simp)
    simp only [fCvt, hd]
    generalize (roundAt rm (x.getLsbD 63) m e 0 false).1 = k at *
    generalize (roundAt rm (x.getLsbD 63) m e 0 false).2 = i at *
    rw [zpow_zero, div_one, ← hv] at hN
    refine ⟨signedInt (x.getLsbD 63) k, hN, fun h => ?_, fun h => ?_, fun h1 h2 => ?_⟩
    · rw [show (if (x.getLsbD 63) = true then -(k : Int) else k) = signedInt (x.getLsbD 63) k from rfl, if_pos h]; rfl
    · rw [show (if (x.getLsbD 63) = true then -(k : Int) else k) = signedInt (x.getLsbD 63) k from rfl,
        if_neg (by omega), if_pos h]; rfl
    · rw [show (if (x.getLsbD 63) = true then -(k : Int) else k) = signedInt (x.getLsbD 63) k from rfl,
        if_neg (by omega), if_neg (by omega)]
      have : fNum x = (signedInt (x.getLsbD 63) k : ℤ) ↔ ¬ i = true := by
        rw [hI, not_not, ← @Rat.cast_inj ℝ, hv, Rat.cast_intCast, signedInt_cast, zpow_zero, mul_one]
        cases x.getLsbD 63 <;> simp [signed]
      by_cases hi' : i = true
      · rw [if_pos hi', if_neg (by rw [this, not_not]; exact hi')]; rfl
      · rw [if_neg hi', if_pos (this.2 hi')]

theorem fRnd32_spec (rm : Nat) (x : Word) : Round32Result rm x (fRnd32 rm x) := by
  constructor
  · intro h
    simp only [fRnd32, (fIsNan_iff x).2 h, if_true]
    refine ⟨rfl, fun h' => by rw [if_pos ((fIsSnan_iff x).2 h')]; rfl, fun h' => by rw [if_neg (mt (fIsSnan_iff x).1 h')]⟩
  · intro h
    simp only [fRnd32, if_neg (mt (fIsNan_iff x).1 h)]
    exact fToFormat_spec true rm x

theorem fits_of (m q : ℤ) (hm : |m| ≤ 2 ^ 24) (hq : -149 ≤ q) (hv : |(m : ℝ)| * 2 ^ q < 2 ^ (128 : ℤ)) :
    Fits32 (m * 2 ^ q) := by
  by_cases h1 : q ≤ 104
  · rcases lt_or_eq_of_le hm with h | h
    · exact ⟨m, q, rfl, h, hq, h1⟩
    · have hq' : q < 104 := by
        have h' : |(m : ℝ)| = 2 ^ (24 : ℤ) := by exact_mod_cast h
        rw [h', ← zpow_add₀ (by norm_num), zpow_lt_zpow_iff_right₀ (by norm_num)] at hv
        omega
      obtain ⟨k, hk⟩ : ∃ k, m = k * 2 := ⟨m / 2, by rcases abs_choice m with h' | h' <;> omega⟩
      refine ⟨k, q + 1, ?_, ?_, by omega, by omega⟩
      · rw [hk, zpow_add₀ (by norm_num)]; push_cast; ring
      · rw [hk, abs_mul] at h
        norm_num at h ⊢
        omega
  · obtain ⟨j, hj⟩ : ∃ j : ℕ, q = j + 104 := ⟨(q - 104).toNat, by omega⟩
    refine ⟨m * 2 ^ j, 104, ?_, ?_, by norm_num, le_rfl⟩
    · rw [hj, zpow_add₀ (by norm_num), zpow_natCast]; push_cast; ring
    · rw [hj, zpow_add₀ (by norm_num), zpow_natCast, ← mul_assoc,
        show (2 : ℝ) ^ (128 : ℤ) = 2 ^ (24 : ℤ) * 2 ^ (104 : ℤ) by rw [← zpow_add₀ (by norm_num)]; norm_num,
        mul_lt_mul_iff_left₀ (by positivity)] at hv
      rw [abs_mul, abs_of_pos (a := (2 : ℤ) ^ j) (by positivity)]
      exact_mod_cast hv

/-- What one rounding to binary32 gives, binary32 holds. -/
theorem fits_of_rounds {rm : Nat} {x : ℝ} {r : Word × BitVec 5} (h : RoundsTo (fmtOf true) rm x r) (hf : fFinite r.1) :
    Fits32 (fNum r.1) := by
  obtain ⟨q, m, h1, h2, -, hN, -, h5, h6⟩ := h
  change (-126 : ℤ) - (24 : ℕ) + 1 ≤ q at h1
  change |x| < 2 ^ (q + (24 : ℕ)) at h2
  change (2 : ℝ) ^ ((127 : ℤ) + 1) ≤ |(m : ℝ)| * 2 ^ q → (if overflowsToInf rm (r.1.getLsbD 63) then fInfinite r.1
    else fFinite r.1 ∧ |fNum r.1| = (2 ^ 24 - 1) * 2 ^ ((127 : ℤ) - (24 : ℕ) + 1)) ∧ _ at h5
  change |(m : ℝ)| * 2 ^ q < 2 ^ ((127 : ℤ) + 1) → _ at h6
  by_cases hov : (2 : ℝ) ^ ((127 : ℤ) + 1) ≤ |(m : ℝ)| * 2 ^ q
  · have hh := (h5 hov).1
    split_ifs at hh with hc
    · exact absurd hh (not_inf_of_fin hf)
    · have hv := hh.2
      rw [show ((127 : ℤ) - (24 : ℕ) + 1) = 104 by norm_num] at hv
      rcases abs_choice (fNum r.1) with h | h
      · exact ⟨2 ^ 24 - 1, 104, by rw [← h, hv]; push_cast; ring, by norm_num, by norm_num, by norm_num⟩
      · exact ⟨-(2 ^ 24 - 1), 104, by rw [← neg_neg (fNum r.1), ← h, hv]; push_cast; ring, by norm_num, by norm_num,
          by norm_num⟩
  · rw [not_le] at hov
    have hv' : fNum r.1 = m * 2 ^ q := Rat.cast_injective (α := ℝ) (by rw [(h6 hov).2.1]; push_cast; rfl)
    have hq : (0 : ℝ) < 2 ^ q := by positivity
    have hb := nearest_bound hN
    have hz : |x / 2 ^ q| < 2 ^ 24 := by
      rw [abs_div, abs_of_pos hq, div_lt_iff₀ hq, ← zpow_natCast, ← zpow_add₀ (by norm_num), add_comm]; exact h2
    have hm : |m| ≤ 2 ^ 24 := by
      have := abs_sub_abs_le_abs_sub (m : ℝ) (x / 2 ^ q)
      have : |(m : ℝ)| < 2 ^ 24 + 1 := by linarith
      have : |m| < 2 ^ 24 + 1 := by exact_mod_cast this
      omega
    rw [hv']
    exact fits_of m q hm (by omega) (by norm_num at hov ⊢; exact hov)

/-- A number that binary32 holds rounds to itself. -/
theorem rounds_of_fits {rm : Nat} {x : ℚ} {r : Word × BitVec 5} (h : RoundsTo (fmtOf true) rm x r) (hf : Fits32 x) :
    fFinite r.1 ∧ fNum r.1 = x ∧ r.2 = 0 := by
  obtain ⟨q, m, h1, h2, h3, hN, -, h5, h6⟩ := h
  obtain ⟨k, p, hx, hk, hp, hp'⟩ := hf
  change (-126 : ℤ) - (24 : ℕ) + 1 ≤ q at h1
  change q = (-126 : ℤ) - (24 : ℕ) + 1 ∨ (2 : ℝ) ^ (q + (24 : ℕ) - 1) ≤ |(x : ℝ)| at h3
  change |(m : ℝ)| * 2 ^ q < 2 ^ ((127 : ℤ) + 1) → _ at h6
  have hxr : (x : ℝ) = k * 2 ^ p := by rw [hx]; push_cast; ring
  have hpp : (0 : ℝ) < 2 ^ p := by positivity
  have habs : |(x : ℝ)| < 2 ^ ((24 : ℕ) + p) := by
    rw [hxr, abs_mul, abs_of_pos hpp, zpow_add₀ (by norm_num), zpow_natCast, mul_lt_mul_iff_left₀ hpp]
    exact_mod_cast hk
  have hqp : q ≤ p := by
    rcases h3 with h3 | h3
    · omega
    · have := (zpow_lt_zpow_iff_right₀ (by norm_num)).1 (lt_of_le_of_lt h3 habs)
      omega
  obtain ⟨j, hj⟩ : ∃ j : ℕ, p = j + q := ⟨(p - q).toNat, by omega⟩
  have hint : (x : ℝ) / 2 ^ q = ((k * 2 ^ j : ℤ) : ℝ) := by
    rw [hxr, hj, zpow_add₀ (by norm_num), zpow_natCast, ← mul_assoc, mul_div_assoc, div_self (by positivity), mul_one]
    push_cast; rfl
  have hself : ∀ n : ℤ, Nearest rm (n : ℝ) n := by
    intro n
    match rm with
    | 0 => simp [Nearest]
    | 1 => simp [Nearest]
    | 2 => simp [Nearest]
    | 3 => simp [Nearest]
    | (i + 4) => simp [Nearest, mul_self_nonneg]
  rw [hint] at hN
  have hm := nearest_unique hN (hself _)
  have hxm : (x : ℝ) = m * 2 ^ q := by
    rw [div_eq_iff (by positivity)] at hint
    rw [hint, hm]
  have hlt : |(m : ℝ)| * 2 ^ q < 2 ^ ((127 : ℤ) + 1) := by
    have : |(m : ℝ)| * 2 ^ q = |(x : ℝ)| := by rw [hxm, abs_mul, abs_of_pos (a := (2 : ℝ) ^ q) (by positivity)]
    rw [this]
    exact lt_of_lt_of_le habs (zpow_le_zpow_right₀ (by norm_num) (by push_cast; omega))
  obtain ⟨h7, h8, h9, -⟩ := h6 hlt
  exact ⟨h7, by rw [← hxm] at h8; exact_mod_cast h8, h9 hxm⟩

theorem fIs32_spec (a : Word) : (fNaN a ∨ fInfinite a ∨ Fits32 (fNum a) → fIs32 a = true) ∧
    (fFinite a → ¬ Fits32 (fNum a) → fIs32 a = false) := by
  have hfmt := fToFormat_spec true 0 a
  have hfin : fFinite a → (fIs32 a = true ↔ Fits32 (fNum a)) := by
    intro h
    have hn : fIsNan a = false := by
      rw [← Bool.not_eq_true]; exact mt (fIsNan_iff a).1 (not_nan_of_fin h)
    simp only [fIs32, hn, Bool.false_or, beq_iff_eq]
    obtain ⟨h1, h2⟩ := hfmt.2 h
    by_cases h0 : fNum a = 0
    · have e := h1 (by exact_mod_cast h0)
      rw [e, h0]
      exact iff_of_true (zero_of_num h0).symm ⟨0, 0, by norm_num, by norm_num, by norm_num, by norm_num⟩
    · have hr := h2 (by exact_mod_cast h0)
      constructor
      · intro e
        have := fits_of_rounds hr (e.symm ▸ h)
        rwa [e] at this
      · intro hf
        have hs := hr.choose_spec.choose_spec.2.2.2.2.1
        refine fNum_inj (rounds_of_fits hr hf).2.1 ?_
        rw [Bool.eq_iff_iff, hs]
        obtain ⟨m, e, hd, hv, -⟩ := fDecode_num h
        have hm := mt (fNum_zero_iff hv).2 h0
        have hp : (0 : ℝ) < m * 2 ^ e := by
          have : (0 : ℝ) < m := by exact_mod_cast Nat.pos_of_ne_zero hm
          positivity
        rw [hv]
        exact signed_neg_iff _ _ hp
  constructor
  · rintro (h | h | h)
    · simp [fIs32, (fIsNan_iff a).2 h]
    · have := hfmt.1 h
      simp [fIs32, this]
    · rcases fClass a with h' | h' | h'
      · simp [fIs32, (fIsNan_iff a).2 h']
      · have := hfmt.1 h'
        simp [fIs32, this]
      · exact (hfin h').2 h
  · intro h h'
    rw [← Bool.not_eq_true]; exact mt (hfin h).1 h'

/-- `cvt` and the operations on integers. -/
theorem fFromInt_spec (s : Bool) (rm : Nat) (n : Int) : Rounded s rm n false (fRoundInt (fmtOf s) rm n 0 false) := by
  have := fRoundInt_spec s rm n 0 false
  rwa [zpow_zero, mul_one] at this

theorem fields32 (x : U32) : (x.extractLsb' 23 8).toNat = x.toNat / 2 ^ 23 % 256 ∧
    (x.extractLsb' 0 23).toNat = x.toNat % 2 ^ 23 := by
  constructor
  · simp [BitVec.extractLsb'_toNat, Nat.shiftRight_eq_div_pow]
  · simp [BitVec.extractLsb'_toNat]

theorem fWiden_spec (x : U32) : WidensTo x (fWiden x) := by
  obtain ⟨he, hf⟩ := fields32 x
  have hf' : x.toNat % 2 ^ 23 < 2 ^ 23 := Nat.mod_lt _ (by norm_num)
  have he' : x.toNat / 2 ^ 23 % 256 < 256 := Nat.mod_lt _ (by norm_num)
  simp only [WidensTo, fNum32, he, hf, fWiden]
  generalize x.toNat % 2 ^ 23 = f at *
  generalize x.toNat / 2 ^ 23 % 256 = e at *
  generalize x.getLsbD 31 = neg at *
  by_cases h255 : e = 255
  · rw [if_pos h255]
    have hw := fields_of neg 2047 (f * 2 ^ 29) (by norm_num) (by omega)
    have heq : fInf neg ||| BitVec.ofNat 64 (f * 2 ^ 29) =
        BitVec.ofNat 64 ((if neg then 2 ^ 63 else 0) + 2047 * 2 ^ 52 + f * 2 ^ 29) := by
      apply BitVec.eq_of_toNat_eq
      have h1 : (fInf neg).toNat = ((if neg then 2 ^ 11 else 0) + 2047) <<< 52 := by cases neg <;> rfl
      have h2 : (BitVec.ofNat 64 (f * 2 ^ 29) : Word).toNat = f * 2 ^ 29 := by rw [BitVec.toNat_ofNat]; omega
      rw [BitVec.toNat_or, h1, h2, ← Nat.shiftLeft_add_eq_or_of_lt (by omega), Nat.shiftLeft_eq, BitVec.toNat_ofNat]
      split_ifs <;> omega
    rw [heq]
    exact ⟨hw.2.2, fun h => absurd h255 h, fun _ => ⟨hw.1, hw.2.1⟩⟩
  · rw [if_neg h255]
    by_cases h0 : e = 0
    · rw [if_pos h0]
      rcases Nat.eq_zero_or_pos f with hz | hz
      · rw [hz, fEncode_zero]
        refine ⟨(fZero_num neg).2.2, fun _ => ⟨(fZero_num neg).1, ?_⟩, fun h => absurd h h255⟩
        rw [(fZero_num neg).2.1, if_pos h0]; simp
      · obtain ⟨h1, h2, h3⟩ := fEncode_num neg f (-149) hz (by omega) (by norm_num)
          (by have := bitLen_le_of_lt hf'; omega)
        exact ⟨h3, fun _ => ⟨h1, by rw [h2, if_pos h0]⟩, fun h => absurd h h255⟩
    · rw [if_neg h0]
      obtain ⟨h1, h2, h3⟩ := fEncode_num neg (f + 2 ^ 23) ((e : Int) - 150) (by omega) (by omega) (by omega)
        (by have := bitLen_le_of_lt (show f + 2 ^ 23 < 2 ^ 24 by omega); omega)
      exact ⟨h3, fun _ => ⟨h1, by rw [h2, if_neg h0, add_comm]⟩, fun h => absurd h h255⟩

theorem fields32_of (neg : Bool) (e f : Nat) (he : e < 256) (hf : f < 2 ^ 23) :
    let w : U32 := BitVec.ofNat 32 ((if neg then 2 ^ 31 else 0) + e * 2 ^ 23 + f)
    (w.extractLsb' 23 8).toNat = e ∧ (w.extractLsb' 0 23).toNat = f ∧ w.getLsbD 31 = neg := by
  intro w
  have hw : w.toNat = (if neg then 2 ^ 31 else 0) + e * 2 ^ 23 + f := by
    simp only [w, BitVec.toNat_ofNat]; split_ifs <;> omega
  rw [(fields32 w).1, (fields32 w).2, hw]
  refine ⟨by split_ifs <;> omega, by split_ifs <;> omega, ?_⟩
  rw [BitVec.getLsbD, hw, Nat.testBit_eq_decide_div_mod_eq]
  cases neg <;> simp <;> omega

/-- A significand moved to another last place, where no bit is lost. -/
theorem shift_exact (m : ℕ) (e i : ℤ) (h : ∀ j : ℕ, e + j = i → 2 ^ j ∣ m) :
    ((m * 2 ^ (e - i).toNat / 2 ^ (-(e - i)).toNat : ℕ) : ℚ) * 2 ^ i = m * 2 ^ e := by
  rcases le_total i e with hie | hie
  · obtain ⟨j, hj⟩ : ∃ j : ℕ, e = j + i := ⟨(e - i).toNat, by omega⟩
    rw [show (e - i).toNat = j by omega, show (-(e - i)).toNat = 0 by omega, pow_zero, Nat.div_one, hj,
      zpow_add₀ (by norm_num), zpow_natCast]
    push_cast; ring
  · obtain ⟨j, hj⟩ : ∃ j : ℕ, i = j + e := ⟨(i - e).toNat, by omega⟩
    obtain ⟨k, hk⟩ := h j (by omega)
    rw [show (e - i).toNat = 0 by omega, show (-(e - i)).toNat = j by omega, pow_zero, mul_one, hk,
      Nat.mul_div_cancel_left _ (by positivity), hj, zpow_add₀ (by norm_num), zpow_natCast]
    push_cast; ring

/-- What binary32 holds, its encoding widens to. -/
theorem fEncode32_spec (w : Word) (h : fInfinite w ∨ fFinite w ∧ Fits32 (fNum w)) : WidensTo (fEncode32 w) w := by
  rcases h with h | ⟨h, k, q, hk, hkl, hq, hq'⟩
  · have e : fEncode32 w = BitVec.ofNat 32 ((if w.getLsbD 63 then 2 ^ 31 else 0) + 255 * 2 ^ 23 + 0) := by
      simp only [fEncode32, fDecode_inf h, fSign, add_zero]; norm_num
    obtain ⟨h1, h2, h3⟩ := fields32_of (w.getLsbD 63) 255 0 (by norm_num) (by norm_num)
    rw [e]
    refine ⟨h3.symm, fun hc => absurd h1 hc, fun _ => ⟨h.1, ?_⟩⟩
    rw [h2, h.2, zero_mul]
  · obtain ⟨m, e, hd, hv, hm, -⟩ := fDecode_fin h
    have hsgn : ∀ x : U32, ∀ E F : ℕ, (x.extractLsb' 23 8).toNat = E → (x.extractLsb' 0 23).toNat = F →
        x.getLsbD 31 = w.getLsbD 63 → E ≠ 255 → (m : ℚ) * 2 ^ e = (if E = 0 then (F : ℚ) * 2 ^ (-149 : ℤ) else
          ((2 ^ 23 + F : ℕ) : ℚ) * 2 ^ ((E : ℤ) - 150)) → WidensTo x w := by
      intro x E F h1 h2 h3 hE hval
      refine ⟨h3.symm, fun _ => ⟨h, ?_⟩, fun hc => absurd (h1.symm.trans hc) hE⟩
      simp only [fNum32, h1, h2, h3, hv, hval]
    simp only [fEncode32, hd, fSign]
    by_cases h0 : m = 0
    · rw [if_pos h0]
      obtain ⟨h1, h2, h3⟩ := fields32_of (w.getLsbD 63) 0 0 (by norm_num) (by norm_num)
      exact hsgn _ 0 0 h1 h2 h3 (by norm_num) (by simp [h0])
    · rw [if_neg h0]
      have hmp : 0 < m := Nat.pos_of_ne_zero h0
      have hb := bitLen_le m hmp
      have hb' := lt_bitLen m
      have hbp := bitLen_pos hmp
      -- the same number in the form that binary32 holds
      have habs : (m : ℚ) * 2 ^ e = (k.natAbs : ℕ) * 2 ^ q := by
        have h1 : |fNum w| = m * 2 ^ e := by
          rw [hv, abs_mul, abs_of_nonneg (a := (m : ℚ) * 2 ^ e) (by positivity)]
          cases w.getLsbD 63 <;> simp
        rw [← h1, hk, abs_mul, abs_of_pos (a := (2 : ℚ) ^ q) (by positivity), Nat.cast_natAbs]; push_cast; rfl
      have hkl' : k.natAbs < 2 ^ 24 := by zify; exact hkl
      generalize k.natAbs = n at *
      have hdvd : ∀ i : ℕ, (e : ℤ) + i ≤ q → 2 ^ i ∣ m := by
        intro i hi
        obtain ⟨j, hj⟩ : ∃ j : ℕ, q = e + i + j := ⟨(q - (e + i)).toNat, by omega⟩
        refine ⟨n * 2 ^ j, ?_⟩
        have hp : (2 : ℚ) ^ e ≠ 0 := by positivity
        rw [hj, zpow_add₀ (by norm_num), zpow_add₀ (by norm_num), zpow_natCast, zpow_natCast] at habs
        have : (m : ℚ) = n * (2 ^ i * 2 ^ j) := by
          apply mul_right_cancel₀ hp
          rw [habs]; ring
        have : (m : ℚ) = ((2 ^ i * (n * 2 ^ j) : ℕ) : ℚ) := by rw [this]; push_cast; ring
        exact_mod_cast this
      obtain ⟨top, htop⟩ : ∃ top : ℤ, top = e + (bitLen m : ℤ) - 1 := ⟨_, rfl⟩
      rw [← htop]
      have hval : (2 : ℚ) ^ top ≤ m * 2 ^ e ∧ (m : ℚ) * 2 ^ e < 2 ^ (top + 1) := by
        constructor
        · calc (2 : ℚ) ^ top = ((2 ^ (bitLen m - 1) : ℕ) : ℚ) * 2 ^ e := by
                rw [show top = ((bitLen m - 1 : ℕ) : ℤ) + e by omega, zpow_add₀ (by norm_num), zpow_natCast]
                push_cast; rfl
            _ ≤ m * 2 ^ e := by
                have : ((2 ^ (bitLen m - 1) : ℕ) : ℚ) ≤ m := by exact_mod_cast hb
                gcongr
        · calc (m : ℚ) * 2 ^ e < ((2 ^ bitLen m : ℕ) : ℚ) * 2 ^ e := by
                have : (m : ℚ) < ((2 ^ bitLen m : ℕ) : ℚ) := by exact_mod_cast hb'
                gcongr
            _ = 2 ^ (top + 1) := by
                rw [show top + 1 = (bitLen m : ℤ) + e by omega, zpow_add₀ (by norm_num), zpow_natCast]
                push_cast; rfl
      have hn24 : (n : ℚ) * 2 ^ q < 2 ^ (24 + q) := by
        rw [zpow_add₀ (by norm_num)]
        have : (n : ℚ) < 2 ^ (24 : ℤ) := by exact_mod_cast hkl'
        gcongr
      have htq : top < 24 + q := by
        have := lt_of_le_of_lt hval.1 (habs ▸ hn24)
        exact (zpow_lt_zpow_iff_right₀ (by norm_num)).1 this
      by_cases ht : top < -126
      · rw [if_pos ht]
        have hM := shift_exact m e (-149) (fun j hj => hdvd j (by omega))
        rw [show e - -149 = e + 149 by ring] at hM
        generalize m * 2 ^ (e + 149).toNat / 2 ^ (-(e + 149)).toNat = M at *
        have hM23 : M < 2 ^ 23 := by
          have h1 : (M : ℚ) * 2 ^ (-149 : ℤ) < 2 ^ (23 : ℤ) * 2 ^ (-149 : ℤ) := by
            rw [hM, ← zpow_add₀ (by norm_num)]
            exact lt_of_lt_of_le hval.2 (zpow_le_zpow_right₀ (by norm_num) (by omega))
          have h2 : (M : ℚ) < 2 ^ (23 : ℤ) := lt_of_mul_lt_mul_right h1 (by positivity)
          exact_mod_cast h2
        obtain ⟨h1, h2, h3⟩ := fields32_of (w.getLsbD 63) 0 M (by norm_num) hM23
        simp only [zero_mul, add_zero] at h1 h2 h3
        exact hsgn _ 0 M h1 h2 h3 (by norm_num) (by rw [if_pos rfl, hM])
      · rw [if_neg ht]
        have hM := shift_exact m e (top - 23) (fun j hj => hdvd j (by omega))
        rw [show e - (top - 23) = 23 - ((bitLen m : ℤ) - 1) by omega] at hM
        generalize m * 2 ^ (23 - ((bitLen m : ℤ) - 1)).toNat / 2 ^ (-(23 - ((bitLen m : ℤ) - 1))).toNat = M at *
        have hp : (0 : ℚ) < 2 ^ (top - 23) := by positivity
        have hM1 : 2 ^ 23 ≤ M := by
          have h1 : (2 : ℚ) ^ (23 : ℤ) * 2 ^ (top - 23) ≤ M * 2 ^ (top - 23) := by
            rw [hM, ← zpow_add₀ (by norm_num), show 23 + (top - 23) = top by ring]; exact hval.1
          have h2 : (2 : ℚ) ^ (23 : ℤ) ≤ M := le_of_mul_le_mul_right h1 hp
          exact_mod_cast h2
        have hM2 : M < 2 ^ 24 := by
          have h1 : (M : ℚ) * 2 ^ (top - 23) < 2 ^ (24 : ℤ) * 2 ^ (top - 23) := by
            rw [hM, ← zpow_add₀ (by norm_num), show 24 + (top - 23) = top + 1 by ring]; exact hval.2
          have h2 : (M : ℚ) < 2 ^ (24 : ℤ) := lt_of_mul_lt_mul_right h1 hp.le
          exact_mod_cast h2
        obtain ⟨h1, h2, h3⟩ := fields32_of (w.getLsbD 63) (top + 127).toNat (M - 2 ^ 23) (by omega) (by omega)
        refine hsgn _ _ _ h1 h2 h3 (by omega) ?_
        have hE : (top + 127).toNat ≠ 0 := by omega
        rw [if_neg hE, ← hM, show 2 ^ 23 + (M - 2 ^ 23) = M by omega,
          show (((top + 127).toNat : ℕ) : ℤ) - 150 = top - 23 by omega]

theorem fNarrow_spec (rm : Nat) (x : Word) : NarrowsTo rm x (fNarrow rm x) := by
  constructor
  · intro h
    simp only [fNarrow, (fIsNan_iff x).2 h, if_true, fSign]
    exact ⟨rfl, fun h' => by rw [if_pos ((fIsSnan_iff x).2 h')]; rfl, fun h' => by rw [if_neg (mt (fIsSnan_iff x).1 h')]⟩
  · intro h
    simp only [fNarrow, if_neg (mt (fIsNan_iff x).1 h)]
    have hs := fToFormat_spec true rm x
    refine ⟨(fToFormat true rm x).1, hs, fEncode32_spec _ ?_⟩
    rcases (fClass x).resolve_left h with h' | h'
    · left; rw [hs.1 h']; exact h'
    · obtain ⟨h1, h2⟩ := hs.2 h'
      by_cases h0 : fNum x = 0
      · right
        rw [h1 (by exact_mod_cast h0)]
        exact ⟨(fZero_num _).1, 0, 0, by rw [(fZero_num _).2.1]; simp, by norm_num, by norm_num, by norm_num⟩
      · have hr := h2 (by exact_mod_cast h0)
        by_cases hf : fFinite (fToFormat true rm x).1
        · exact Or.inr ⟨hf, fits_of_rounds hr hf⟩
        · left
          obtain ⟨q, m, -, -, -, -, -, h5, h6⟩ := hr
          rcases lt_or_ge (|(m : ℝ)| * 2 ^ q) (2 ^ ((fmtOf true).emax + 1)) with hl | hl
          · exact absurd (h6 hl).1 hf
          · have := (h5 hl).1
            split_ifs at this
            · exact this
            · exact absurd this.1 hf

end Sys2Proof.Machine
end

