-- ==== Sys2Proof/Laws/Kept.lean ====
section
/-! SUPPORT. The lemmas that carry `kept` through conditions, folds and record updates, and what the shared operations of
Machine/Ops.lean and Machine/LaneExec.lean keep. -/

namespace Sys2Proof.Machine

open Sys2Proof

@[simp] theorem keptO_next (t : State) : keptO (.next t) = some (kept t) := rfl

@[simp] theorem kept_ite (c : Prop) [Decidable c] (a b : State) :
    kept (if c then a else b) = if c then kept a else kept b := by
  split <;> rfl

@[simp] theorem keptO_ite (c : Prop) [Decidable c] (a b : Host.Outcome State Fault Refusal) :
    keptO (if c then a else b) = if c then keptO a else keptO b := by
  split <;> rfl

@[simp] theorem kept_foldl {α : Type} (f : State → α → State) (h : ∀ s x, kept (f s x) = kept s) (l : List α) (s : State) :
    kept (l.foldl f s) = kept s := by
  induction l generalizing s with
  | nil => rfl
  | cons x r ih => rw [List.foldl_cons, ih, h]

/-- An update of any other part keeps what is kept. -/
@[simp] theorem kept_mk (x : State) (lanes : LaneBlock) (epoch : Epoch) (mem : Memory) (time : TimeBlock) (check :
    CheckBlock) (mor : Moraine) (dbg : Debug) (weft : Weft) (mbox : Mbox) (pkt : Pkt) (route : Route) (rack : Rack)
    (fio : Fio) (safe : Safe) (muslin : Muslin) (power : Power) (boot : Boot) (sec : Sec) (maps : Maps) (slot :
    BitVec 2) (slotPins : BitVec 2) (readData : U32) (freeCtr : Nat) :
    kept (State.mk lanes epoch mem time check mor dbg weft mbox pkt route rack fio safe muslin power boot sec x.otp
    maps slot slotPins readData freeCtr x.pending) = kept x := rfl

/-- The state that the execution of an instruction leaves before its retirement. -/
def actState : Act → State
  | .exc s _ => s
  | .done s _ => s
  | .wait s => s
  | .fault s _ => s

@[simp] theorem actState_exc (s : State) (e : Exc) : actState (.exc s e) = s := rfl
@[simp] theorem actState_done (s : State) (r : Ret) : actState (.done s r) = s := rfl
@[simp] theorem actState_wait (s : State) : actState (.wait s) = s := rfl
@[simp] theorem actState_fault (s : State) (c : Nat) : actState (.fault s c) = s := rfl

@[simp] theorem actState_ite (c : Prop) [Decidable c] (a b : Act) :
    actState (if c then a else b) = if c then actState a else actState b := by
  split <;> rfl

end Sys2Proof.Machine
end

