-- ==== Sys2Proof/Laws/KeptOps.lean ====
section
/-! SUPPORT. What the shared operations over registers, mailboxes, the rack bus and the checking table keep: the identity and the waiting commands. -/

namespace Sys2Proof.Machine

open Sys2Proof

@[simp] theorem live_kept (s : State) (d : Nat) (t : State) (h : kept t = kept s) :
    keptO (live s d t) = some (kept s) := by
  simp [live, h]

@[simp] theorem always_kept (s : State) (d : Nat) (t : State) (h : kept t = kept s) :
    keptO (always s d t) = some (kept s) := by
  simp [always, h]

@[simp] theorem putLane_kept (s : State) (l : LaneId) (ln : Lane) :
    kept (putLane s l ln) = kept s := by
  simp [putLane]

@[simp] theorem mapLanes_kept (s : State) (f : LaneId → Lane → Lane) : kept (mapLanes s f) = kept s := by
  simp [mapLanes]

@[simp] theorem takeFree_kept (s : State) :
    kept (takeFree s).2 = kept s := by
  simp [takeFree]

@[simp] theorem record_kept (s : State) (source : Nat) (code : U16) (lane : Nat) (data : List Byte) :
    kept (record s source code lane data) = kept s := by
  simp [record]

@[simp] theorem recordOpen_kept (s : State) (source lane : Nat) :
    kept (recordOpen s source lane) = kept s := by
  simp [recordOpen]

@[simp] theorem recordBit_kept (s : State) (block off bit value lane : Nat) (detail : List Byte) :
    kept (recordBit s block off bit value lane detail) = kept s := by
  simp [recordBit]

@[simp] theorem recordIgnored_kept (s : State) (block addr value lane rule : Nat) :
    kept (recordIgnored s block addr value lane rule) = kept s := by
  simp [recordIgnored]

@[simp] theorem queueItem_kept (s : State) (stamp source sub : Nat) (body : List Byte) (mark : List Byte → List Byte) :
    kept (queueItem s stamp source sub body mark) = kept s := by
  unfold queueItem
  dsimp only
  repeat' split
  all_goals simp

@[simp] theorem muRequest_kept (s : State) (mask : Nat) :
    kept (muRequest s mask) = kept s := by
  simp [muRequest]

@[simp] theorem putCtx_kept (s : State) (c : Nat) (x : CheckCtx) :
    kept (putCtx s c x) = kept s := by
  simp [putCtx]

@[simp] theorem chkCompare_kept (s : State) (c : Nat) (lo : U32) :
    kept (chkCompare s c lo) = kept s := by
  simp [chkCompare]

@[simp] theorem chkMisuse_kept (s : State) :
    kept (chkMisuse s) = kept s := by
  simp [chkMisuse]

@[simp] theorem resetLaneCtxs_kept (s : State) (l : LaneId) :
    kept (resetLaneCtxs s l) = kept s := by
  simp [resetLaneCtxs]

@[simp] theorem putLink_kept (s : State) (sd : Side) (k : Link) :
    kept (putLink s sd k) = kept s := by
  unfold putLink
  split <;> simp

@[simp] theorem laneLatch_kept (s : State) (o : Nat) :
    kept (laneLatch s o) = kept s := by
  unfold laneLatch
  split <;> simp

@[simp] theorem firnLatch_kept (s : State) (o : Nat) :
    kept (firnLatch s o) = kept s := by
  unfold firnLatch
  repeat' split
  all_goals simp

@[simp] theorem timeLatch_kept (s : State) (o : Nat) :
    kept (timeLatch s o) = kept s := by
  unfold timeLatch
  split <;> simp

@[simp] theorem checkLatch_kept (s : State) (o : Nat) :
    kept (checkLatch s o) = kept s := by
  unfold checkLatch
  repeat' split
  all_goals simp

@[simp] theorem safeLatch_kept (s : State) (o : Nat) :
    kept (safeLatch s o) = kept s := by
  unfold safeLatch
  split <;> simp

@[simp] theorem blockLatch_kept (s : State) (b o : Nat) :
    kept (blockLatch s b o) = kept s := by
  unfold blockLatch
  split <;> simp

@[simp] theorem putPair_kept (s : State) (i : Nat) (p : MailPair) :
    kept (putPair s i p) = kept s := by
  simp [putPair]

@[simp] theorem mboxEvent_kept (s : State) (bit : Nat) :
    kept (mboxEvent s bit) = kept s := by
  simp [mboxEvent]

@[simp] theorem mboxWithdraw_kept (s : State) (i : Nat) :
    kept (mboxWithdraw s i) = kept s := by
  simp [mboxWithdraw]

@[simp] theorem mboxIgnored_kept (s : State) (i : Nat) :
    kept (mboxIgnored s i) = kept s := by
  simp [mboxIgnored]

@[simp] theorem mboxRing_kept (s : State) (i : Nat) :
    kept (mboxRing s i) = kept s := by
  simp only [mboxRing]
  repeat' split
  all_goals simp_all

@[simp] theorem mboxDoorbell_kept (s : State) (i : Nat) (data : U32) :
    kept (mboxDoorbell s i data) = kept s := by
  simp [mboxDoorbell]

@[simp] theorem mboxStore_kept (s : State) (l : LaneId) (o size : Nat) (v : Word) :
    kept (mboxStore s l o size v) = kept s := by
  simp [mboxStore]

@[simp] theorem rackEvent_kept (s : State) (bit : Nat) :
    kept (rackEvent s bit) = kept s := by
  simp [rackEvent]

@[simp] theorem rackItemAt_kept (s : State) (stamp kind sub : Nat) (body : List Byte) :
    kept (rackItemAt s stamp kind sub body) = kept s := by
  simp [rackItemAt]

@[simp] theorem rackItem_kept (s : State) (kind sub : Nat) (body : List Byte) :
    kept (rackItem s kind sub body) = kept s := by
  simp [rackItem]

@[simp] theorem rackLog_kept (s : State) (e : RackLog) :
    kept (rackLog s e) = kept s := by
  simp [rackLog]

@[simp] theorem rackPump_kept (s : State) :
    kept (rackPump s) = kept s := by
  simp only [rackPump]
  repeat' split
  all_goals simp_all

@[simp] theorem rackQueue_kept (s : State) (a : OutAccess) :
    kept (rackQueue s a) = kept s := by
  simp [rackQueue]

@[simp] theorem rackNotDriver_kept (s : State) :
    kept (rackNotDriver s) = kept s := by
  simp [rackNotDriver]

theorem rackPost_kept (s : State) (source : Nat) (address : U32) (byteEn : BitVec 4) (data : U32) (t : State)
    (h : rackPost s source address byteEn data = some t) : kept t = kept s := by
  unfold rackPost at h
  repeat' split at h
  all_goals (cases h <;> simp)

@[simp] theorem rackLoad_kept (s : State) (req source : Nat) (address : U32) (byteEn : BitVec 4) :
    kept (rackLoad s req source address byteEn).2 = kept s := by
  unfold rackLoad
  repeat' split
  all_goals simp

@[simp] theorem rackForget_kept (s : State) (l : LaneId) :
    kept (rackForget s l) = kept s := by
  simp [rackForget]

@[simp] theorem rackFree_kept (s : State) :
    kept (rackFree s) = kept s := by
  simp [rackFree]

@[simp] theorem rackBreak_kept (s : State) :
    kept (rackBreak s) = kept s := by
  simp [rackBreak]

@[simp] theorem rackBreakLane_kept (s : State) (l : LaneId) :
    kept (rackBreakLane s l) = kept s := by
  simp [rackBreakLane]

@[simp] theorem rackLockWrite_kept (s : State) (a : Nat) (data : U32) :
    kept (rackLockWrite s a data) = kept s := by
  simp [rackLockWrite]

@[simp] theorem rawSet_kept (s : State) (i v : Nat) :
    kept (rawSet s i v) = kept s := by
  unfold rawSet
  split <;> simp

@[simp] theorem rawSetAll_kept (s : State) (i : Nat) (vs : List Nat) :
    kept (rawSetAll s i vs) = kept s := by
  simp [rawSetAll]

@[simp] theorem rawArea_kept (s : State) (i : Nat) (bs : List Byte) :
    kept (rawArea s i bs) = kept s := by
  unfold rawArea
  split <;> simp

@[simp] theorem closeRaw_kept (s : State) :
    kept (closeRaw s) = kept s := by
  simp [closeRaw]

@[simp] theorem abstainIn_kept (s : State) (gs : List GroupId) :
    kept (abstainIn s gs) = kept s := by
  simp [abstainIn]

@[simp] theorem abstainLane_kept (s : State) (l : LaneId) :
    kept (abstainLane s l) = kept s := by
  simp [abstainLane]

@[simp] theorem stopLane_kept (s : State) (l : LaneId) :
    kept (stopLane s l) = kept s := by
  simp [stopLane]

@[simp] theorem disableLane_kept (s : State) (l : LaneId) :
    kept (disableLane s l) = kept s := by
  simp [disableLane]

@[simp] theorem laneEvent_kept (s : State) (bit : Nat) :
    kept (laneEvent s bit) = kept s := by
  simp [laneEvent]

@[simp] theorem laneFaults_kept (s : State) (l : LaneId) (causes : List Nat) (w : Option (FirnWindow × FirnWindow)) :
    kept (laneFaults s l causes w) = kept s := by
  unfold laneFaults
  dsimp only
  repeat' split
  all_goals simp

@[simp] theorem laneFault_kept (s : State) (l : LaneId) (cause : Nat) (w : Option (FirnWindow × FirnWindow)) :
    kept (laneFault s l cause w) = kept s := by
  simp [laneFault]

@[simp] theorem pktEvent_kept (s : State) (bit : Nat) :
    kept (pktEvent s bit) = kept s := by
  simp [pktEvent]

@[simp] theorem putPort_kept (s : State) (p : Fin 4) (x : EthPort) :
    kept (putPort s p x) = kept s := by
  simp [putPort]

@[simp] theorem rxDrop_kept (s : State) (p : Fin 4) :
    kept (rxDrop s p) = kept s := by
  simp [rxDrop]

@[simp] theorem enqueue_kept (s : State) (p : Fin 4) (q : Nat) (f : EthFrame) :
    kept (enqueue s p q f) = kept s := by
  simp [enqueue]

@[simp] theorem weftEvent_kept (s : State) (bit : Nat) :
    kept (weftEvent s bit) = kept s := by
  simp [weftEvent]

@[simp] theorem sendSide_kept (s : State) (sd : Side) (type : Nat) (payload : List Byte) :
    kept (sendSide s sd type payload) = kept s := by
  simp [sendSide]

@[simp] theorem sendBoth_kept (s : State) (type : Nat) (payload : List Byte) :
    kept (sendBoth s type payload) = kept s := by
  simp [sendBoth]

@[simp] theorem sendRaw_kept (s : State) (off n : Nat) :
    kept (sendRaw s off n) = kept s := by
  simp [sendRaw]

@[simp] theorem abstainEpoch_kept (s : State) :
    kept (abstainEpoch s) = kept s := by
  simp [abstainEpoch]

@[simp] theorem sendDigest_kept (s : State) :
    kept (sendDigest s) = kept s := by
  simp [sendDigest]

@[simp] theorem releaseAs_kept (s : State) (g : GroupId) (d : Group) (k : ReleaseKind) :
    kept (releaseAs s g d k) = kept s := by
  simp [releaseAs]

@[simp] theorem releaseUndecided_kept (s : State) (g : GroupId) (d : Group) :
    kept (releaseUndecided s g d) = kept s := by
  simp [releaseUndecided]

@[simp] theorem releaseGroup_kept (s : State) (g : GroupId) (d : Group) :
    kept (releaseGroup s g d) = kept s := by
  simp [releaseGroup]

@[simp] theorem releaseBench_kept (s : State) (g : GroupId) (d : Group) :
    kept (releaseBench s g d) = kept s := by
  simp [releaseBench]

@[simp] theorem releaseSafe_kept (s : State) (g : GroupId) (d : Group) :
    kept (releaseSafe s g d) = kept s := by
  simp [releaseSafe]

@[simp] theorem releaseAll_kept (s : State) (f : State → GroupId → Group → State)
    (h : ∀ s g d, kept (f s g d) = kept s) : kept (releaseAll s f) = kept s := by
  unfold releaseAll
  refine kept_foldl _ (fun s g => ?_) _ _
  split <;> simp [h]

@[simp] theorem releaseValues_kept (s : State) :
    kept (releaseValues s) = kept s := by
  unfold releaseValues
  repeat' split
  all_goals simp [releaseAll_kept]

end Sys2Proof.Machine
end

