-- ==== Sys2Proof/Laws/KeptTime.lean ====
section
/-! SUPPORT. What the time bases keep: the identity and the waiting commands. -/

namespace Sys2Proof.Machine

open Sys2Proof

@[simp] theorem timeEvent_kept (s : State) (bit : Nat) :
    kept (timeEvent s bit) = kept s := by
  simp [timeEvent]

@[simp] theorem putTb_kept (s : State) (k : Fin 4) (b : TimeBase) :
    kept (putTb s k b) = kept s := by
  simp [putTb]

@[simp] theorem passTicks_kept (s : State) (n : Nat) :
    kept (passTicks s n) = kept s := by
  simp [passTicks]

@[simp] theorem passUntil_kept (s : State) (k : Fin 4) (ns : Nat) :
    kept (passUntil s k ns) = kept s := by
  simp [passUntil]

@[simp] theorem tpoSteps_kept (s : State) (k : Fin 4) :
    kept (tpoSteps s k) = kept s := by
  simp [tpoSteps]

@[simp] theorem divergeLane_kept (s : State) (l : LaneId) :
    kept (divergeLane s l) = kept s := by
  simp [divergeLane]

@[simp] theorem divergeAll_kept (s : State) :
    kept (divergeAll s) = kept s := by
  simp [divergeAll]

@[simp] theorem epochStep_kept (s : State) (fwd : Bool) :
    kept (epochStep s fwd) = kept s := by
  simp [epochStep]

@[simp] theorem gateSteps_kept (s : State) (k : Fin 4) :
    kept (gateSteps s k) = kept s := by
  simp [gateSteps]

@[simp] theorem servoTo_kept (s : State) (k : Fin 4) (st : ServoState) :
    kept (servoTo s k st) = kept s := by
  simp [servoTo]

@[simp] theorem stepBase_kept (s : State) (k : Fin 4) (fine : Nat) :
    kept (stepBase s k fine) = kept s := by
  simp [stepBase]

@[simp] theorem servoUpdate_kept (s : State) (k : Fin 4) (theta : Int) :
    kept (servoUpdate s k theta) = kept s := by
  simp [servoUpdate]

@[simp] theorem servoMeasure_kept (s : State) (k : Fin 4) (theta : Int) :
    kept (servoMeasure s k theta) = kept s := by
  simp [servoMeasure]

@[simp] theorem measHiWrite_kept (s : State) (k : Fin 4) (data : U32) :
    kept (measHiWrite s k data) = kept s := by
  simp [measHiWrite]

@[simp] theorem execServoMeasWrite_kept (k : Fin 2) (data : U32) (s : State) :
    keptO (execServoMeasWrite k data s) = some (kept s) := by
  simp [execServoMeasWrite]

@[simp] theorem execServoHeldUpdate_kept (k : Fin 3) (s : State) :
    keptO (execServoHeldUpdate k s) = some (kept s) := by
  simp only [execServoHeldUpdate]
  repeat' split
  all_goals simp_all

@[simp] theorem incrWrite_kept (s : State) (k : Fin 4) (data : U32) :
    kept (incrWrite s k data) = kept s := by
  simp [incrWrite]

@[simp] theorem execIncrWrite_kept (k : Fin 3) (data : U32) (s : State) :
    keptO (execIncrWrite k data s) = some (kept s) := by
  simp [execIncrWrite]

@[simp] theorem execServoHoldover_kept (k : Fin 3) (s : State) :
    keptO (execServoHoldover k s) = some (kept s) := by
  simp [execServoHoldover]

@[simp] theorem execServoLost_kept (k : Fin 3) (s : State) :
    keptO (execServoLost k s) = some (kept s) := by
  simp [execServoLost]

@[simp] theorem execRefFreqDev_kept (s : State) :
    keptO (execRefFreqDev s) = some (kept s) := by
  simp [execRefFreqDev]

@[simp] theorem captureNow_kept (s : State) (u : Fin 16) (falling glitch : Bool) :
    kept (captureNow s u falling glitch) = kept s := by
  simp [captureNow]

@[simp] theorem execCapture_kept (unit : Fin 16) (falling glitch : Bool) (s : State) :
    keptO (execCapture unit falling glitch s) = some (kept s) := by
  simp [execCapture]

@[simp] theorem putTpo_kept (s : State) (p : Fin 8) (t : Tpo) :
    kept (putTpo s p t) = kept s := by
  simp [putTpo]

@[simp] theorem execTpoEdge_kept (out : Fin 8) (s : State) :
    keptO (execTpoEdge out s) = some (kept s) := by
  simp [execTpoEdge]

@[simp] theorem tpoSetEn_kept (s : State) (p : Fin 8) (t : Tpo) (en : Bool) :
    kept (tpoSetEn s p t en) = kept s := by
  simp [tpoSetEn]

@[simp] theorem tpoWrite_kept (s : State) (p : Fin 8) (reg : Nat) (data : U32) :
    kept (tpoWrite s p reg data) = kept s := by
  unfold tpoWrite
  split <;> simp

@[simp] theorem execTpoCtrlWrite_kept (out : Fin 8) (reg : Fin 6) (data : U32) (s : State) :
    keptO (execTpoCtrlWrite out reg data s) = some (kept s) := by
  simp [execTpoCtrlWrite]

end Sys2Proof.Machine
end

