-- ==== Sys2Proof/Laws/KeptMbox.lean ====
section
/-! SUPPORT. What the mailbox service and the system and time commands keep: the identity and the waiting commands. -/

namespace Sys2Proof.Machine

open Sys2Proof

@[simp] theorem beginService_kept (s : State) (i : Nat) :
    kept (beginService s i) = kept s := by
  simp only [beginService]
  repeat' split
  all_goals simp_all

@[simp] theorem mboxDatagram_kept (s : State) (i : Nat) (m : List Byte) :
    kept (mboxDatagram s i m) = kept s := by
  unfold mboxDatagram
  dsimp only
  repeat' split
  all_goals simp

@[simp] theorem mboxSend_kept (s : State) (i : Nat) (m : List Byte) :
    kept (mboxSend s i m) = kept s := by
  unfold mboxSend
  dsimp only
  repeat' split
  all_goals simp

@[simp] theorem deliverItem_kept (s : State) (i kind source : Nat) (m : List Byte) :
    kept (deliverItem s i kind source m) = kept s := by
  simp [deliverItem]

@[simp] theorem respond_kept (s : State) (i : Nat) (r : Request) (a : Answer) :
    kept (respond s i r a) = kept s := by
  simp [respond]

@[simp] theorem discardXfer_kept (s : State) (i : Nat) :
    kept (discardXfer s i) = kept s := by
  simp [discardXfer]

@[simp] theorem closeOther_kept (s : State) (i : Nat) (r : Request) :
    kept (closeOther s i r) = kept s := by
  unfold closeOther
  split <;> simp

@[simp] theorem repeatLane_kept (s : State) (i : Nat) :
    kept (repeatLane s i) = kept s := by
  simp [repeatLane]

@[simp] theorem answerUnknown_kept (s : State) (i : Nat) :
    kept (answerUnknown s i) = kept s := by
  simp [answerUnknown]

@[simp] theorem mboxAutoN_kept (k : Nat) (s : State) : kept (mboxAutoN k s) = kept s := by
  induction k generalizing s with
  | zero => rfl
  | succ k ih =>
    unfold mboxAutoN
    split
    · repeat' split
      all_goals simp [ih]
    · rfl

@[simp] theorem mboxAuto_kept (s : State) : kept (mboxAuto s) = kept s := mboxAutoN_kept _ _

@[simp] theorem runBody_kept (s : State) (i : Nat) (r : Request) (c : CmdSpec) (payload : List Byte) (body : Body)
    (h : ∀ s p, kept (body s p).1 = kept s) : kept (runBody s i r c payload body) = kept s := by
  unfold runBody
  split
  · simp
  · have hb := h s payload
    split <;> simp_all

@[simp] theorem runSegment_kept (s : State) (i : Nat) (r : Request) (c : CmdSpec) (body : Body)
    (h : ∀ s p, kept (body s p).1 = kept s) : kept (runSegment s i r c body) = kept s := by
  unfold runSegment
  dsimp only
  repeat' split
  all_goals simp [h]

@[simp] theorem runRequest_kept (s : State) (i : Nat) (r : Request) (c : CmdSpec) (body : Body)
    (h : ∀ s p, kept (body s p).1 = kept s) : kept (runRequest s i r c body) = kept s := by
  unfold runRequest
  dsimp only
  repeat' split
  all_goals simp [h]

@[simp] theorem serve_kept (s : State) (pair : PairId) (c : CmdSpec) (body : Body)
    (h : ∀ s p, kept (body s p).1 = kept s) : keptO (serve s pair c body) = some (kept s) := by
  unfold serve
  dsimp only
  split <;> simp [h]

@[simp] theorem reads_kept (f : State → List Byte → Answer) (s : State) (p : List Byte) :
    kept (reads f s p).1 = kept s := rfl

@[simp] theorem finishLong_kept (s : State) (i : Nat) (a : Answer) :
    kept (finishLong s i a) = kept s := by
  simp [finishLong]

@[simp] theorem sendNotice_kept (s : State) (i : Nat) (n : Notice) :
    kept (sendNotice s i n) = kept s := by
  simp [sendNotice]

@[simp] theorem offerNotice_kept (s : State) (i : Nat) (n : Notice) :
    kept (offerNotice s i n) = kept s := by
  simp [offerNotice]

@[simp] theorem postNotice_kept (s : State) (group code : Nat) (data : List Byte) :
    kept (postNotice s group code data) = kept s := by
  simp [postNotice]

@[simp] theorem execEventNotice_kept (pair : PairId) (s : State) :
    keptO (execEventNotice pair s) = some (kept s) := by
  simp only [execEventNotice]
  repeat' split
  all_goals simp_all

@[simp] theorem endSubs_kept (s : State) (i : Nat) :
    kept (endSubs s i) = kept s := by
  unfold endSubs
  dsimp only
  repeat' split
  all_goals simp

@[simp] theorem recordCommand_kept (s : State) (i status detail command tag : Nat) :
    kept (recordCommand s i status detail command tag) = kept s := by
  simp [recordCommand]

@[simp] theorem dropDatagram_kept (s : State) (i : Nat) (reject : Bool) :
    kept (dropDatagram s i reject) = kept s := by
  simp [dropDatagram]

@[simp] theorem mboxArrive_kept (s : State) (i : Nat) (src : NetAddr) (port : Option (Fin 4)) (m : List Byte) :
    kept (mboxArrive s i src port m) = kept s := by
  simp only [mboxArrive]
  repeat' split
  all_goals simp_all

@[simp] theorem execMbRequestArrive_kept (pair : PairId) (src : NetAddr) (port : Option (Fin 4)) (bytes : List Byte) (s : State) :
    keptO (execMbRequestArrive pair src port bytes s) = some (kept s) := by
  simp [execMbRequestArrive]

@[simp] theorem execDoorbellRing_kept (lane : LaneId) (data : U32) (s : State) :
    keptO (execDoorbellRing lane data s) = some (kept s) := by
  simp [execDoorbellRing]

@[simp] theorem execMbAbort_kept (pair : PairId) (data : U32) (s : State) :
    keptO (execMbAbort pair data s) = some (kept s) := by
  simp [execMbAbort]

@[simp] theorem helloTake_kept (s : State) (i level : Nat) (p : List Byte) :
    kept (helloTake s i level p) = kept s := by
  simp [helloTake]

@[simp] theorem helloBody_kept (i tag : Nat) (s : State) (p : List Byte) : kept (helloBody i tag s p).1 = kept s := by
  simp only [helloBody]
  repeat' split
  all_goals simp_all

@[simp] theorem execHello_kept (pair : PairId) (s : State) :
    keptO (execHello pair s) = some (kept s) := by
  simp [execHello]

@[simp] theorem execSysGetIdentity_kept (pair : PairId) (s : State) :
    keptO (execSysGetIdentity pair s) = some (kept s) := by
  unfold execSysGetIdentity
  refine serve_kept _ _ _ _ (fun s p => ?_)
  first | rfl | (repeat' split) <;> first | rfl | simp

@[simp] theorem execSysGetStatus_kept (pair : PairId) (s : State) :
    keptO (execSysGetStatus pair s) = some (kept s) := by
  unfold execSysGetStatus
  refine serve_kept _ _ _ _ (fun s p => ?_)
  first | rfl | (repeat' split) <;> first | rfl | simp

@[simp] theorem execSysGetMemory_kept (pair : PairId) (s : State) :
    keptO (execSysGetMemory pair s) = some (kept s) := by
  unfold execSysGetMemory
  refine serve_kept _ _ _ _ (fun s p => ?_)
  first | rfl | (repeat' split) <;> first | rfl | simp

@[simp] theorem restartBody_kept (i tag : Nat) (s : State) (p : List Byte) : kept (restartBody i tag s p).1 = kept s := by
  unfold restartBody
  repeat' split
  all_goals simp

@[simp] theorem execSysRestart_kept (pair : PairId) (s : State) :
    keptO (execSysRestart pair s) = some (kept s) := by
  simp [execSysRestart]

@[simp] theorem execSysEcho_kept (pair : PairId) (s : State) :
    keptO (execSysEcho pair s) = some (kept s) := by
  unfold execSysEcho
  refine serve_kept _ _ _ _ (fun s p => ?_)
  first | rfl | (repeat' split) <;> first | rfl | simp

@[simp] theorem mboxStatsBody_kept (i : Nat) (s : State) (p : List Byte) : kept (mboxStatsBody i s p).1 = kept s := by
  simp [mboxStatsBody]

@[simp] theorem execSysGetMboxStats_kept (pair : PairId) (s : State) :
    keptO (execSysGetMboxStats pair s) = some (kept s) := by
  simp [execSysGetMboxStats]

@[simp] theorem deliverBody_kept (i tag : Nat) (s : State) (p : List Byte) : kept (deliverBody i tag s p).1 = kept s := by
  simp only [deliverBody]
  repeat' split
  all_goals simp_all

@[simp] theorem execSysDeliver_kept (pair : PairId) (s : State) :
    keptO (execSysDeliver pair s) = some (kept s) := by
  simp [execSysDeliver]

@[simp] theorem deliverClosed_kept (s : State) (i : Nat) :
    kept (deliverClosed s i) = kept s := by
  simp only [deliverClosed]
  repeat' split
  all_goals simp_all

@[simp] theorem deliverClose_kept (s : State) :
    kept (deliverClose s) = kept s := by
  simp [deliverClose]

@[simp] theorem subscribeBody_kept (i : Nat) (s : State) (p : List Byte) : kept (subscribeBody i s p).1 = kept s := by
  unfold subscribeBody
  split <;> simp

@[simp] theorem execSysSubscribe_kept (pair : PairId) (s : State) :
    keptO (execSysSubscribe pair s) = some (kept s) := by
  simp [execSysSubscribe]

@[simp] theorem execSysGetResetLog_kept (pair : PairId) (s : State) :
    keptO (execSysGetResetLog pair s) = some (kept s) := by
  unfold execSysGetResetLog
  refine serve_kept _ _ _ _ (fun s p => ?_)
  first | rfl | (repeat' split) <;> first | rfl | simp

@[simp] theorem execTimeGetAll_kept (pair : PairId) (s : State) :
    keptO (execTimeGetAll pair s) = some (kept s) := by
  unfold execTimeGetAll
  refine serve_kept _ _ _ _ (fun s p => ?_)
  first | rfl | (repeat' split) <;> first | rfl | simp

@[simp] theorem execTimeGetServo_kept (pair : PairId) (s : State) :
    keptO (execTimeGetServo pair s) = some (kept s) := by
  unfold execTimeGetServo
  refine serve_kept _ _ _ _ (fun s p => ?_)
  first | rfl | (repeat' split) <;> first | rfl | simp

@[simp] theorem setServoBody_kept (s : State) (p : List Byte) : kept (setServoBody s p).1 = kept s := by
  simp only [setServoBody]
  repeat' split
  all_goals simp_all

@[simp] theorem execTimeSetServo_kept (pair : PairId) (s : State) :
    keptO (execTimeSetServo pair s) = some (kept s) := by
  simp [execTimeSetServo]

@[simp] theorem setIncrBody_kept (s : State) (p : List Byte) : kept (setIncrBody s p).1 = kept s := by
  simp only [setIncrBody]
  repeat' split
  all_goals simp_all

@[simp] theorem execTimeSetIncr_kept (pair : PairId) (s : State) :
    keptO (execTimeSetIncr pair s) = some (kept s) := by
  simp [execTimeSetIncr]

@[simp] theorem timeSetBody_kept (s : State) (p : List Byte) : kept (timeSetBody s p).1 = kept s := by
  simp only [timeSetBody]
  repeat' split
  all_goals simp_all

@[simp] theorem execTimeSet_kept (pair : PairId) (s : State) :
    keptO (execTimeSet pair s) = some (kept s) := by
  simp [execTimeSet]

@[simp] theorem capSetBody_kept (s : State) (p : List Byte) : kept (capSetBody s p).1 = kept s := by
  unfold capSetBody
  repeat' split
  all_goals simp

@[simp] theorem execTimeCapSet_kept (pair : PairId) (s : State) :
    keptO (execTimeCapSet pair s) = some (kept s) := by
  simp [execTimeCapSet]

@[simp] theorem tpoSetBody_kept (s : State) (p : List Byte) : kept (tpoSetBody s p).1 = kept s := by
  simp only [tpoSetBody]
  repeat' split
  all_goals simp_all

@[simp] theorem execTimeTpoSet_kept (pair : PairId) (s : State) :
    keptO (execTimeTpoSet pair s) = some (kept s) := by
  simp [execTimeTpoSet]

@[simp] theorem ptpSetBody_kept (s : State) (p : List Byte) : kept (ptpSetBody s p).1 = kept s := by
  simp only [ptpSetBody]
  repeat' split
  all_goals simp_all

@[simp] theorem execTimePtpSet_kept (pair : PairId) (s : State) :
    keptO (execTimePtpSet pair s) = some (kept s) := by
  simp [execTimePtpSet]

@[simp] theorem execTimePtpGet_kept (pair : PairId) (s : State) :
    keptO (execTimePtpGet pair s) = some (kept s) := by
  unfold execTimePtpGet
  refine serve_kept _ _ _ _ (fun s p => ?_)
  first | rfl | (repeat' split) <;> first | rfl | simp

end Sys2Proof.Machine
end

