-- ==== Sys2Proof/Laws/KeptIo.lean ====
section
/-! SUPPORT. What field input and output, the safety function and the measuring unit keep: the identity and the waiting commands. -/

namespace Sys2Proof.Machine

open Sys2Proof

@[simp] theorem fioEvent_kept (s : State) (bit : Nat) :
    kept (fioEvent s bit) = kept s := by
  simp [fioEvent]

@[simp] theorem putChan_kept (s : State) (c : Fin 32) (x : FioChan) :
    kept (putChan s c x) = kept s := by
  simp [putChan]

@[simp] theorem putGroup_kept (s : State) (g : Fin 2) (x : FioGroup) :
    kept (putGroup s g x) = kept s := by
  simp [putGroup]

@[simp] theorem edgeItem_kept (s : State) (c : Fin 32) (falling : Bool) :
    kept (edgeItem s c falling) = kept s := by
  simp [edgeItem]

@[simp] theorem frameEdges_kept (s : State) (old new : U32) :
    kept (frameEdges s old new) = kept s := by
  simp [frameEdges]

@[simp] theorem frameEvents_kept (s : State) (old new : FieldFrame) :
    kept (frameEvents s old new) = kept s := by
  simp [frameEvents]

@[simp] theorem fieldFrameArrives_kept (s : State) :
    kept (fieldFrameArrives s) = kept s := by
  simp [fieldFrameArrives]

@[simp] theorem frameClear_kept (s : State) (w : Fin 2 → Word) (hot : U32) : kept (frameClear s w hot) = kept s := by
  unfold frameClear
  dsimp only
  split <;> simp

@[simp] theorem frameRearm_kept (s : State) (g : Fin 2) (w : Word) :
    kept (frameRearm s g w) = kept s := by
  simp [frameRearm]

@[simp] theorem applyRelease_kept (s : State) (w0 w1 : Word) (hot : U32) :
    kept (applyRelease s w0 w1 hot) = kept s := by
  simp [applyRelease]

@[simp] theorem fioRelease_kept (s : State) (released : Bool) :
    kept (fioRelease s released) = kept s := by
  simp [fioRelease]

@[simp] theorem fioSafe_kept (s : State) :
    kept (fioSafe s) = kept s := by
  simp [fioSafe]

@[simp] theorem fioBoundary_kept (s : State) :
    kept (fioBoundary s) = kept s := by
  simp [fioBoundary]

@[simp] theorem latchFio_kept (s : State) :
    kept (latchFio s) = kept s := by
  simp [latchFio]

@[simp] theorem execFieldFrame_kept (volt0 volt1 : BitVec 14) (s : State) :
    keptO (execFieldFrame volt0 volt1 s) = some (kept s) := by
  simp [execFieldFrame]

@[simp] theorem execFieldReleaseFrame_kept (hot : U32) (s : State) :
    keptO (execFieldReleaseFrame hot s) = some (kept s) := by
  unfold execFieldReleaseFrame
  split <;> simp

@[simp] theorem execInputFilterEdge_kept (ch : Fin 32) (s : State) :
    keptO (execInputFilterEdge ch s) = some (kept s) := by
  simp [execInputFilterEdge]

@[simp] theorem execFioCurrentLimit_kept (ch : Fin 32) (engaged : Bool) (s : State) :
    keptO (execFioCurrentLimit ch engaged s) = some (kept s) := by
  simp [execFioCurrentLimit]

@[simp] theorem execFioOverload_kept (ch : Fin 32) (s : State) :
    keptO (execFioOverload ch s) = some (kept s) := by
  simp [execFioOverload]

@[simp] theorem execFioOvertemp_kept (ch : Fin 32) (s : State) :
    keptO (execFioOvertemp ch s) = some (kept s) := by
  simp [execFioOvertemp]

@[simp] theorem execOpenWireOn_kept (ch : Fin 32) (low : Bool) (s : State) :
    keptO (execOpenWireOn ch low s) = some (kept s) := by
  simp [execOpenWireOn]

@[simp] theorem execOpenWireOff_kept (ch : Fin 32) (high : Bool) (s : State) :
    keptO (execOpenWireOff ch high s) = some (kept s) := by
  simp [execOpenWireOff]

@[simp] theorem execExtDrive_kept (ch : Fin 32) (driven : Bool) (s : State) :
    keptO (execExtDrive ch driven s) = some (kept s) := by
  simp [execExtDrive]

@[simp] theorem execFieldHbLost_kept (s : State) :
    keptO (execFieldHbLost s) = some (kept s) := by
  simp [execFieldHbLost]

@[simp] theorem execFieldHbReturn_kept (s : State) :
    keptO (execFieldHbReturn s) = some (kept s) := by
  unfold execFieldHbReturn
  refine live_kept _ _ _ ?_
  repeat' split
  all_goals simp_all

@[simp] theorem execTssTimeout_kept (s : State) :
    keptO (execTssTimeout s) = some (kept s) := by
  unfold execTssTimeout
  refine always_kept _ _ _ ?_
  repeat' split
  all_goals simp_all

@[simp] theorem execSupplyWarn_kept (group : Fin 2) (low : Bool) (s : State) :
    keptO (execSupplyWarn group low s) = some (kept s) := by
  simp [execSupplyWarn]

@[simp] theorem execSupplyTrip_kept (group : Fin 2) (s : State) :
    keptO (execSupplyTrip group s) = some (kept s) := by
  unfold execSupplyTrip
  refine always_kept _ _ _ ?_
  repeat' split
  all_goals simp_all

@[simp] theorem execRearmPermit_kept (group : Fin 2) (dip : Bool) (s : State) :
    keptO (execRearmPermit group dip s) = some (kept s) := by
  simp [execRearmPermit]

@[simp] theorem safeEvent_kept (s : State) (bit : Nat) :
    kept (safeEvent s bit) = kept s := by
  simp [safeEvent]

@[simp] theorem safeItem_kept (s : State) (kind index value : Nat) (fault : Bool) (speed : Nat) :
    kept (safeItem s kind index value fault speed) = kept s := by
  simp [safeItem]

@[simp] theorem putIn_kept (s : State) (n : Fin 8) (x : SafeIn) :
    kept (putIn s n x) = kept s := by
  simp [putIn]

@[simp] theorem putOut_kept (s : State) (n : Fin 8) (x : SafeOut) :
    kept (putOut s n x) = kept s := by
  simp [putOut]

@[simp] theorem putSpeed_kept (s : State) (n : Fin 4) (x : SpeedIn) :
    kept (putSpeed s n x) = kept s := by
  simp [putSpeed]

@[simp] theorem putFunc_kept (s : State) (n : Fin 4) (x : SafeFunc) :
    kept (putFunc s n x) = kept s := by
  simp [putFunc]

@[simp] theorem inState_kept (s : State) (n : Fin 8) (b : Bool) :
    kept (inState s n b) = kept s := by
  simp [inState]

@[simp] theorem inLatch_kept (s : State) (n : Fin 8) (code : Nat) :
    kept (inLatch s n code) = kept s := by
  simp [inLatch]

@[simp] theorem inputTick_kept (s : State) (n : Fin 8) :
    kept (inputTick s n) = kept s := by
  simp [inputTick]

@[simp] theorem speedTick_kept (s : State) (n : Fin 4) :
    kept (speedTick s n) = kept s := by
  simp [speedTick]

@[simp] theorem funcState_kept (s : State) (i : Fin 4) (st : FuncState) :
    kept (funcState s i st) = kept s := by
  simp [funcState]

@[simp] theorem funcFault_kept (s : State) (i : Fin 4) (code speed : Nat) :
    kept (funcFault s i code speed) = kept s := by
  simp [funcFault]

@[simp] theorem funcTick_kept (s : State) (i : Fin 4) :
    kept (funcTick s i) = kept s := by
  simp [funcTick]

@[simp] theorem clearFunc_kept (s : State) (i : Fin 4) (service : Bool) :
    kept (clearFunc s i service) = kept s := by
  simp [clearFunc]

@[simp] theorem clearInput_kept (s : State) (n : Fin 8) :
    kept (clearInput s n) = kept s := by
  simp [clearInput]

@[simp] theorem outState_kept (s : State) (n : Fin 8) (st : SafeOutState) :
    kept (outState s n st) = kept s := by
  simp [outState]

@[simp] theorem outFault_kept (s : State) (n : Fin 8) (code : Nat) (low : Bool) :
    kept (outFault s n code low) = kept s := by
  unfold outFault
  dsimp only
  repeat' split
  all_goals simp

@[simp] theorem outDemand_kept (s : State) (n : Fin 8) :
    kept (outDemand s n) = kept s := by
  unfold outDemand
  split <;> simp

@[simp] theorem safeDemand_kept (s : State) :
    kept (safeDemand s) = kept s := by
  simp [safeDemand]

@[simp] theorem outReject_kept (s : State) (n : Fin 8) (reason : Nat) :
    kept (outReject s n reason) = kept s := by
  simp [outReject]

@[simp] theorem outputTick_kept (s : State) (r : Option SafeRelease) (n : Fin 8) :
    kept (outputTick s r n) = kept s := by
  simp only [outputTick]
  repeat' split
  all_goals simp_all

@[simp] theorem safetyTick_kept (s : State) :
    kept (safetyTick s) = kept s := by
  simp only [safetyTick]
  repeat' split
  all_goals simp_all

@[simp] theorem safeRelease_kept (s : State) (released : Bool) :
    kept (safeRelease s released) = kept s := by
  simp [safeRelease]

@[simp] theorem safeApply_kept (s : State) (w : Word) (service : Bool) :
    kept (safeApply s w service) = kept s := by
  simp [safeApply]

@[simp] theorem latchSafe_kept (s : State) :
    kept (latchSafe s) = kept s := by
  simp [latchSafe]

@[simp] theorem execDiscrepancyLatch_kept (input : Fin 8) (s : State) :
    keptO (execDiscrepancyLatch input s) = some (kept s) := by
  simp [execDiscrepancyLatch]

@[simp] theorem execTpsDark_kept (tps : Fin 2) (s : State) :
    keptO (execTpsDark tps s) = some (kept s) := by
  unfold execTpsDark
  refine live_kept _ _ _ ?_
  repeat' split
  all_goals simp_all

@[simp] theorem execTpsLight_kept (tps : Fin 2) (s : State) :
    keptO (execTpsLight tps s) = some (kept s) := by
  unfold execTpsLight
  refine live_kept _ _ _ ?_
  repeat' split
  all_goals simp_all

@[simp] theorem execSafetyFieldFrame_kept (frame : SafeFrame) (s : State) :
    keptO (execSafetyFieldFrame frame s) = some (kept s) := by
  unfold execSafetyFieldFrame
  refine live_kept _ _ _ ?_
  repeat' split
  all_goals simp_all

@[simp] theorem execSafetyReleaseFrame_kept (s : State) :
    keptO (execSafetyReleaseFrame s) = some (kept s) := by
  unfold execSafetyReleaseFrame
  split <;> simp

@[simp] theorem execSafetyHbLost_kept (s : State) :
    keptO (execSafetyHbLost s) = some (kept s) := by
  simp [execSafetyHbLost]

@[simp] theorem execSafetyFieldSilence_kept (s : State) :
    keptO (execSafetyFieldSilence s) = some (kept s) := by
  unfold execSafetyFieldSilence
  refine always_kept _ _ _ ?_
  repeat' split
  all_goals simp_all

@[simp] theorem execSafetyTss_kept (s : State) :
    keptO (execSafetyTss s) = some (kept s) := by
  simp [execSafetyTss]

@[simp] theorem execShutdownConfirm_kept (out : Fin 8) (s : State) :
    keptO (execShutdownConfirm out s) = some (kept s) := by
  simp [execShutdownConfirm]

@[simp] theorem execShutdownStuck_kept (out : Fin 8) (s : State) :
    keptO (execShutdownStuck out s) = some (kept s) := by
  simp [execShutdownStuck]

@[simp] theorem execPrecheckTimeout_kept (out : Fin 8) (s : State) :
    keptO (execPrecheckTimeout out s) = some (kept s) := by
  simp [execPrecheckTimeout]

@[simp] theorem execOutputTestPulse_kept (out : Fin 8) (low failed : Bool) (cross : Option (Fin 8)) (s : State) :
    keptO (execOutputTestPulse out low failed cross s) = some (kept s) := by
  unfold execOutputTestPulse
  split <;> simp

@[simp] theorem execSafeOverload_kept (out : Fin 8) (s : State) :
    keptO (execSafeOverload out s) = some (kept s) := by
  simp [execSafeOverload]

@[simp] theorem execSafeOvertemp_kept (out : Fin 8) (_hotLow : Bool) (s : State) :
    keptO (execSafeOvertemp out _hotLow s) = some (kept s) := by
  simp [execSafeOvertemp]

@[simp] theorem execOpenLoad_kept (out : Fin 8) (isOpen : Bool) (s : State) :
    keptO (execOpenLoad out isOpen s) = some (kept s) := by
  simp [execOpenLoad]

@[simp] theorem execSafeSupplyLow_kept (s : State) :
    keptO (execSafeSupplyLow s) = some (kept s) := by
  simp [execSafeSupplyLow]

@[simp] theorem execSafeSupplyReturn_kept (s : State) :
    keptO (execSafeSupplyReturn s) = some (kept s) := by
  unfold execSafeSupplyReturn
  refine live_kept _ _ _ ?_
  repeat' split
  all_goals simp_all

@[simp] theorem execSpeedInputFault_kept (input : Fin 4) (fault : BitVec 4) (s : State) :
    keptO (execSpeedInputFault input fault s) = some (kept s) := by
  simp [execSpeedInputFault]

@[simp] theorem execCheckDiffFault_kept (func : Fin 4) (s : State) :
    keptO (execCheckDiffFault func s) = some (kept s) := by
  simp [execCheckDiffFault]

@[simp] theorem execStandstillReached_kept (s : State) :
    keptO (execStandstillReached s) = some (kept s) := by
  simp [execStandstillReached]

@[simp] theorem execFioGetStatus_kept (pair : PairId) (s : State) :
    keptO (execFioGetStatus pair s) = some (kept s) := by
  unfold execFioGetStatus
  refine serve_kept _ _ _ _ (fun s p => ?_)
  first | rfl | (repeat' split) <;> first | rfl | simp

@[simp] theorem execFioGetCompat_kept (pair : PairId) (s : State) :
    keptO (execFioGetCompat pair s) = some (kept s) := by
  unfold execFioGetCompat
  refine serve_kept _ _ _ _ (fun s p => ?_)
  first | rfl | (repeat' split) <;> first | rfl | simp

@[simp] theorem execFioGetChannel_kept (pair : PairId) (s : State) :
    keptO (execFioGetChannel pair s) = some (kept s) := by
  unfold execFioGetChannel
  refine serve_kept _ _ _ _ (fun s p => ?_)
  first | rfl | (repeat' split) <;> first | rfl | simp

@[simp] theorem setChannelBody_kept (s : State) (p : List Byte) : kept (setChannelBody s p).1 = kept s := by
  simp only [setChannelBody]
  repeat' split
  all_goals simp_all

@[simp] theorem execFioSetChannel_kept (pair : PairId) (s : State) :
    keptO (execFioSetChannel pair s) = some (kept s) := by
  simp [execFioSetChannel]

@[simp] theorem serviceFrame_kept (s : State) (mask : U32) (groups : Nat) (hot : U32) :
    kept (serviceFrame s mask groups hot) = kept s := by
  simp [serviceFrame]

@[simp] theorem fioClearBody_kept (hot : U32) (s : State) (p : List Byte) : kept (fioClearBody hot s p).1 = kept s := by
  unfold fioClearBody
  repeat' split
  all_goals simp

@[simp] theorem execFioClear_kept (pair : PairId) (hot : U32) (s : State) :
    keptO (execFioClear pair hot s) = some (kept s) := by
  simp [execFioClear]

@[simp] theorem execSafeGetStatus_kept (pair : PairId) (s : State) :
    keptO (execSafeGetStatus pair s) = some (kept s) := by
  unfold execSafeGetStatus
  refine serve_kept _ _ _ _ (fun s p => ?_)
  first | rfl | (repeat' split) <;> first | rfl | simp

@[simp] theorem execSafeGetSpeed_kept (pair : PairId) (s : State) :
    keptO (execSafeGetSpeed pair s) = some (kept s) := by
  unfold execSafeGetSpeed
  refine serve_kept _ _ _ _ (fun s p => ?_)
  first | rfl | (repeat' split) <;> first | rfl | simp

@[simp] theorem execSafeGetFunc_kept (pair : PairId) (s : State) :
    keptO (execSafeGetFunc pair s) = some (kept s) := by
  unfold execSafeGetFunc
  refine serve_kept _ _ _ _ (fun s p => ?_)
  first | rfl | (repeat' split) <;> first | rfl | simp

@[simp] theorem execSafeGetConfig_kept (pair : PairId) (s : State) :
    keptO (execSafeGetConfig pair s) = some (kept s) := by
  unfold execSafeGetConfig
  refine serve_kept _ _ _ _ (fun s p => ?_)
  first | rfl | (repeat' split) <;> first | rfl | simp

@[simp] theorem safeClearBody_kept (s : State) (p : List Byte) : kept (safeClearBody s p).1 = kept s := by
  unfold safeClearBody
  repeat' split
  all_goals simp

@[simp] theorem execSafeClear_kept (pair : PairId) (s : State) :
    keptO (execSafeClear pair s) = some (kept s) := by
  simp [execSafeClear]

@[simp] theorem outRequestBody_kept (s : State) (p : List Byte) : kept (outRequestBody s p).1 = kept s := by
  unfold outRequestBody
  repeat' split
  all_goals simp

@[simp] theorem execSafeOutRequest_kept (pair : PairId) (s : State) :
    keptO (execSafeOutRequest pair s) = some (kept s) := by
  simp [execSafeOutRequest]

@[simp] theorem safeAnswer_kept (s : State) (i : Nat) :
    kept (safeAnswer s i) = kept s := by
  unfold safeAnswer
  split <;> simp

@[simp] theorem execSafetyTick_kept (s : State) :
    keptO (execSafetyTick s) = some (kept s) := by
  simp [execSafetyTick]

@[simp] theorem muEvent_kept (s : State) (bit : Nat) :
    kept (muEvent s bit) = kept s := by
  simp [muEvent]

@[simp] theorem putMu_kept (s : State) (c : Fin 16) (x : MuChan) :
    kept (putMu s c x) = kept s := by
  simp [putMu]

@[simp] theorem limitItem_kept (s : State) (c : Fin 16) (st : LimitState) (stamp : Nat) :
    kept (limitItem s c st stamp) = kept s := by
  simp [limitItem]

@[simp] theorem limitTo_kept (s : State) (c : Fin 16) (st : LimitState) (stamp : Nat) :
    kept (limitTo s c st stamp) = kept s := by
  simp [limitTo]

@[simp] theorem execAnalogSample_kept (ch : Fin 16) (at16 : Nat) (code : BitVec 24) (s : State) :
    keptO (execAnalogSample ch at16 code s) = some (kept s) := by
  simp [execAnalogSample]

@[simp] theorem execAnalogOpen_kept (ch : Fin 16) (low : Bool) (s : State) :
    keptO (execAnalogOpen ch low s) = some (kept s) := by
  simp [execAnalogOpen]

@[simp] theorem execAnalogOvercur_kept (ch : Fin 16) (high : Bool) (s : State) :
    keptO (execAnalogOvercur ch high s) = some (kept s) := by
  simp [execAnalogOvercur]

@[simp] theorem execBurdenDisconnect_kept (ch : Fin 16) (s : State) :
    keptO (execBurdenDisconnect ch s) = some (kept s) := by
  simp [execBurdenDisconnect]

@[simp] theorem execBurdenReconnect_kept (ch : Fin 16) (s : State) :
    keptO (execBurdenReconnect ch s) = some (kept s) := by
  simp [execBurdenReconnect]

@[simp] theorem execChainFault_kept (ch : Fin 16) (s : State) :
    keptO (execChainFault ch s) = some (kept s) := by
  simp [execChainFault]

@[simp] theorem execMuSyncWrite_kept (data : U32) (s : State) :
    keptO (execMuSyncWrite data s) = some (kept s) := by
  simp [execMuSyncWrite]

@[simp] theorem latchMuslin_kept (prev s : State) (word : Nat) : kept (latchMuslin prev s word) = kept s := by
  unfold latchMuslin
  split
  · rfl
  · rw [kept_mk, kept_foldl]
    intro s c
    dsimp only
    repeat' split
    all_goals simp

@[simp] theorem blankMuslin_kept (s : State) : kept (blankMuslin s) = kept s := by
  unfold blankMuslin
  split
  · rfl
  · exact kept_foldl _ (fun s x => by split <;> simp) _ _

@[simp] theorem execAnaGetStatus_kept (pair : PairId) (s : State) :
    keptO (execAnaGetStatus pair s) = some (kept s) := by
  unfold execAnaGetStatus
  refine serve_kept _ _ _ _ (fun s p => ?_)
  first | rfl | (repeat' split) <;> first | rfl | simp

@[simp] theorem execAnaGetChannel_kept (pair : PairId) (s : State) :
    keptO (execAnaGetChannel pair s) = some (kept s) := by
  unfold execAnaGetChannel
  refine serve_kept _ _ _ _ (fun s p => ?_)
  first | rfl | (repeat' split) <;> first | rfl | simp

@[simp] theorem setDetBody_kept (s : State) (p : List Byte) : kept (setDetBody s p).1 = kept s := by
  simp only [setDetBody]
  repeat' split
  all_goals simp_all

@[simp] theorem execAnaSetDet_kept (pair : PairId) (s : State) :
    keptO (execAnaSetDet pair s) = some (kept s) := by
  simp [execAnaSetDet]

@[simp] theorem execAnaSync_kept (pair : PairId) (s : State) :
    keptO (execAnaSync pair s) = some (kept s) := by
  unfold execAnaSync
  refine serve_kept _ _ _ _ (fun s p => ?_)
  first | rfl | (repeat' split) <;> first | rfl | simp

@[simp] theorem execAnaGetRom_kept (pair : PairId) (s : State) :
    keptO (execAnaGetRom pair s) = some (kept s) := by
  unfold execAnaGetRom
  refine serve_kept _ _ _ _ (fun s p => ?_)
  first | rfl | (repeat' split) <;> first | rfl | simp

end Sys2Proof.Machine
end

