-- ==== Sys2Proof/Laws/KeptMem.lean ====
section
/-! SUPPORT. What memory errors, the accesses that meet them and the scrubbers keep: the identity and the waiting commands. -/

namespace Sys2Proof.Machine

open Sys2Proof

@[simp] theorem selvedgeFail_kept (s : State) :
    kept (selvedgeFail s) = kept s := by
  simp [selvedgeFail]

@[simp] theorem epochEvent_kept (s : State) (bit : Nat) :
    kept (epochEvent s bit) = kept s := by
  simp [epochEvent]

@[simp] theorem memRecord_kept (s : State) (x : MemLoc) (uncorrectable : Bool) :
    kept (memRecord s x uncorrectable) = kept s := by
  simp [memRecord]

@[simp] theorem memCorrected_kept (s : State) (x : MemLoc) :
    kept (memCorrected s x) = kept s := by
  simp [memCorrected]

@[simp] theorem memStopLane_kept (s : State) (l : LaneId) :
    kept (memStopLane s l) = kept s := by
  unfold memStopLane
  split <;> simp

@[simp] theorem dropUncommitted_kept (s : State) :
    kept (dropUncommitted s) = kept s := by
  simp [dropUncommitted]

@[simp] theorem memReject_kept (s : State) (l : LaneId) (b : Option Nat) :
    kept (memReject s l b) = kept s := by
  simp only [memReject]
  repeat' split
  all_goals simp_all

@[simp] theorem memRetained_kept (s : State) (b : Nat) :
    kept (memRetained s b) = kept s := by
  unfold memRetained
  split <;> simp

@[simp] theorem memExchange_kept (s : State) (o : Nat) :
    kept (memExchange s o) = kept s := by
  simp [memExchange]

@[simp] theorem rejectStale_kept (s : State) (l : LaneId) :
    kept (rejectStale s l) = kept s := by
  unfold rejectStale
  dsimp only
  split <;> simp

@[simp] theorem memImage_kept (s : State) :
    kept (memImage s) = kept s := by
  simp [memImage]

@[simp] theorem memOutput_kept (s : State) (o : Nat) :
    kept (memOutput s o) = kept s := by
  simp [memOutput]

@[simp] theorem memPacket_kept (s : State) :
    kept (memPacket s) = kept s := by
  simp [memPacket]

@[simp] theorem memStaging_kept (s : State) (a : Nat) :
    kept (memStaging s a) = kept s := by
  simp only [memStaging]
  repeat' split
  all_goals simp_all

@[simp] theorem memTcm_kept (s : State) (o : Nat) :
    kept (memTcm s o) = kept s := by
  unfold memTcm
  split <;> simp

@[simp] theorem memEffect_kept (s : State) (x : MemLoc) (dirty : Bool) :
    kept (memEffect s x dirty) = kept s := by
  unfold memEffect
  repeat' split
  all_goals simp

@[simp] theorem memUncorrectable_kept (s : State) (x : MemLoc) (dirty : Bool) :
    kept (memUncorrectable s x dirty) = kept s := by
  simp [memUncorrectable]

@[simp] theorem memFound_kept (s : State) (x : MemLoc) (e : MemErr) : kept (memFound s x e) = kept s := by
  cases e <;> simp [memFound]

@[simp] theorem meetOne_kept (s : State) (u : Upset) :
    kept (meetOne s u) = kept s := by
  unfold meetOne
  dsimp only
  repeat' split
  all_goals simp

@[simp] theorem meet_kept (s : State) (hit : Upset → Bool) :
    kept (meet s hit) = kept s := by
  simp [meet]

@[simp] theorem touch_kept (s : State) (area o n : Nat) :
    kept (touch s area o n) = kept s := by
  simp [touch]

@[simp] theorem access_kept (s : State) (c : CoreRef) (r : Region) (n : Nat) (fetch : Bool) :
    kept (access s c r n fetch).1 = kept s := by
  simp [access]

@[simp] theorem storeMeets_kept (s : State) (c : CoreRef) (r : Region) (n : Nat) :
    kept (storeMeets s c r n).1 = kept s := by
  unfold storeMeets
  split <;> simp

@[simp] theorem execPatrolScrub_kept (err : MemErr) (s : State) : keptO (execPatrolScrub err s) = some (kept s) := by
  unfold execPatrolScrub
  refine live_kept _ _ _ ?_
  dsimp only
  rw [kept_mk]
  simp

@[simp] theorem execSramScrub_kept (errs : List (MemLoc × MemErr)) (s : State) :
    keptO (execSramScrub errs s) = some (kept s) := by
  unfold execSramScrub
  dsimp only
  refine live_kept _ _ _ ?_
  rw [meet_kept]
  refine kept_foldl _ (fun s e => ?_) _ _
  split <;> simp

end Sys2Proof.Machine
end

