-- ==== Sys2Proof/Laws/KeptLane.lean ====
section
/-! SUPPORT. What the lane instructions and the events of a lane keep: the identity and the waiting commands. -/

namespace Sys2Proof.Machine

open Sys2Proof

@[simp] theorem noteStale_kept (s : State) (c : CoreRef) (r : Region) :
    kept (noteStale s c r) = kept s := by
  unfold noteStale
  repeat' split
  all_goals simp

@[simp] theorem blockLoad_kept (s : State) (l : LaneId) (b o size : Nat) :
    kept (blockLoad s l b o size).2 = kept s := by
  simp [blockLoad]

@[simp] theorem memStore_kept (s : State) (r : Region) (size : Nat) (v : Word) :
    kept (memStore s r size v) = kept s := by
  unfold memStore
  split <;> simp

@[simp] theorem checkStore_kept (s : State) (o size : Nat) (v : Word) :
    kept (checkStore s o size v) = kept s := by
  unfold checkStore
  split <;> simp

@[simp] theorem modeRequest_kept (s : State) (l : LaneId) (data : U32) :
    kept (modeRequest s l data) = kept s := by
  simp [modeRequest]

@[simp] theorem ringTail_kept (s : State) (r : Nat) (data : U32) :
    kept (ringTail s r data) = kept s := by
  unfold ringTail
  split <;> simp

theorem performStore_kept (s : State) (c : CoreRef) (a size : Nat) (v : Word) (t : State)
    (h : performStore s c a size v = some t) : kept t = kept s := by
  unfold performStore at h
  split at h
  · split at h <;> (cases h; simp)
  · cases h; simp
  · cases h; simp
  · cases h; simp
  · exact rackPost_kept _ _ _ _ _ _ h
  · cases h; rfl

@[simp] theorem gatePerform_kept (s : State) (l : LaneId) (g : List GateEntry) :
    kept (gatePerform s l g) = kept s := by
  induction g generalizing s with
  | nil => simp [gatePerform]
  | cons e r ih =>
    unfold gatePerform
    split
    · simp
    · split
      · rename_i t ht
        rw [ih, performStore_kept _ _ _ _ _ _ ht]
      · simp

@[simp] theorem gateRun_kept (s : State) (l : LaneId) :
    kept (gateRun s l) = kept s := by
  simp [gateRun]

@[simp] theorem markT_kept (s : State) (l : LaneId) (seq : BitVec 10) :
    kept (markT s l seq) = kept s := by
  unfold markT
  dsimp only
  repeat' split
  all_goals simp

@[simp] theorem takeAsyncT_kept (s : State) (l : LaneId) (code : Nat) :
    kept (takeAsyncT s l code) = kept s := by
  unfold takeAsyncT
  dsimp only
  repeat' split
  all_goals simp

@[simp] theorem takeAsync_kept (s : State) (c : CoreRef) (code : Nat) :
    kept (takeAsync s c code) = kept s := by
  unfold takeAsync
  dsimp only
  repeat' split
  all_goals simp

@[simp] theorem retire_kept (s : State) (c : CoreRef) (old : Core) (r : Ret) :
    kept (retire s c old r) = kept s := by
  unfold retire
  split <;> simp

@[simp] theorem yieldNote_kept (s : State) (c : CoreRef) (k : Core) :
    kept (yieldNote s c k) = kept s := by
  simp [yieldNote]

@[simp] theorem doYield_kept (s : State) (c : CoreRef) (k : Core) (commit : Bool) :
    kept (doYield s c k commit) = kept s := by
  simp [doYield]

@[simp] theorem doubleExc_kept (s : State) (c : CoreRef) (k : Core) (e : Exc) :
    kept (doubleExc s c k e) = kept s := by
  simp [doubleExc]

@[simp] theorem syncExc_kept (s : State) (c : CoreRef) (k : Core) (e : Exc) :
    kept (syncExc s c k e) = kept s := by
  simp [syncExc]

@[simp] theorem finish_kept (c : CoreRef) (k : Core) (a : Act) : kept (finish c k a) = kept (actState a) := by
  cases a <;> simp [finish, actState]

@[simp] theorem driftStall_kept (s : State) (c : CoreRef) :
    kept (driftStall s c) = kept s := by
  simp [driftStall]

/-- An instruction keeps whatever its execution keeps, also where the Drift queue has no room for it. -/
@[simp] theorem complete_kept (s : State) (c : CoreRef) (k : Core) (a : Act) (h : kept (actState a) = kept s) :
    kept (complete s c k a) = kept s := by
  unfold complete
  repeat' split
  all_goals simp_all

@[simp] theorem fetchMeets_kept (s : State) (c : CoreRef) (k : Core) :
    kept (fetchMeets s c k).1 = kept s := by
  simp [fetchMeets]

@[simp] theorem runLane_kept (s : State) (c : CoreRef) (body : State → Core → Act)
    (h : ∀ s k, kept (actState (body s k)) = kept s) : keptO (runLane s c body) = some (kept s) := by
  unfold runLane
  dsimp only
  split
  · rfl
  · split
    · split <;> simp
    · split
      · exact congrArg some (complete_kept s c _ _ rfl)
      · split
        · simp
        · rw [keptO_next, complete_kept _ _ _ _ (h _ _), fetchMeets_kept]

@[simp] theorem illegal_kept (s : State) (word : U32) :
    kept (actState (illegal s word)) = kept s := by
  cases s
  rfl

@[simp] theorem legal_kept (ok : Bool) (s : State) (word : U32) (a : Act) (h : kept (actState a) = kept s) :
    kept (actState (legal ok s word a)) = kept s := by
  unfold legal
  split <;> simp [h]

@[simp] theorem retG_kept (s : State) (k : Core) (rd : BitVec 5) (v : Word) :
    kept (actState (retG s k rd v)) = kept s := by
  cases s
  rfl

@[simp] theorem retGI_kept (s : State) (k : Core) (rd : BitVec 5) (v : Word) (fl : BitVec 3) :
    kept (actState (retGI s k rd v fl)) = kept s := by
  cases s
  rfl

@[simp] theorem retGF_kept (s : State) (k : Core) (rd : BitVec 5) (v : Word) (fl : BitVec 5) :
    kept (actState (retGF s k rd v fl)) = kept s := by
  cases s
  rfl

@[simp] theorem retF_kept (s : State) (k : Core) (rd : BitVec 5) (v : Word) (fl : BitVec 5) :
    kept (actState (retF s k rd v fl)) = kept s := by
  cases s
  rfl

@[simp] theorem retPc_kept (s : State) (k : Core) (pc : Word) :
    kept (actState (retPc s k pc)) = kept s := by
  cases s
  rfl

@[simp] theorem fromDrift_kept (s : State) (c : CoreRef) (kind : DriftKind) (cont : State → Word → Act)
    (h : ∀ s v, kept (actState (cont s v)) = kept s) : kept (actState (fromDrift s c kind cont)) = kept s := by
  unfold fromDrift
  split
  · simp [h]
  · simp
  · simp

@[simp] theorem noteExc_kept (s : State) (c : CoreRef) (store : Bool) (a : Word) (size : Nat) (v : Word) (e : Exc) :
    kept (noteExc s c store a size v e) = kept s := by
  unfold noteExc
  repeat' split
  all_goals simp

@[simp] theorem drainFirst_kept (s : State) (c : CoreRef) (d : DrainKind) :
    kept (actState (drainFirst s c d)) = kept s := by
  unfold drainFirst
  dsimp only
  repeat' split
  all_goals simp_all [actState]

@[simp] theorem deliver_kept (r : State × Delivered) (v : Word) (size : Nat) (cont : State → Word → Act)
    (h : ∀ s v, kept (actState (cont s v)) = kept s) : kept (actState (deliver r v size cont)) = kept r.1 := by
  unfold deliver
  dsimp only
  split <;> simp [h]

@[simp] theorem loadValue_kept (s : State) (c : CoreRef) (k : Core) (a size : Nat) (cont : State → Word → Act)
    (h : ∀ s v, kept (actState (cont s v)) = kept s) : kept (actState (loadValue s c k a size cont)) = kept s := by
  unfold loadValue
  split
  · split <;> simp [h]
  · split
    · simp
    · rename_i o _ _
      have hr := rackLoad_kept s (requester c) c.lane.val (BitVec.ofNat 32 o) (rackEnables o size)
      split <;> simp_all
  · rw [deliver_kept _ _ _ _ (fun s v => by simp [h])]
    simp

@[simp] theorem doLoad_kept (s : State) (c : CoreRef) (k : Core) (a : Word) (size : Nat)
    (cont : State → Word → Option (DriftKind × Word) → Act) (h : ∀ s v e, kept (actState (cont s v e)) = kept s) :
    kept (actState (doLoad s c k a size cont)) = kept s := by
  unfold doLoad
  dsimp only
  split
  · simp
  · split
    · rw [deliver_kept _ _ _ _ (fun s v => h _ _ _)]
      simp
    · rw [deliver_kept _ _ _ _ (fun s v => h _ _ _)]
      simp
    · split
      · exact fromDrift_kept _ _ _ _ (fun s v => h _ _ _)
      · exact loadValue_kept _ _ _ _ _ _ (fun s v => h _ _ _)

@[simp] theorem storeDevice_kept (s : State) (c : CoreRef) (k : Core) (a size : Nat) (v : Word) (cont : State → Act)
    (h : ∀ s, kept (actState (cont s)) = kept s) : kept (actState (storeDevice s c k a size v cont)) = kept s := by
  unfold storeDevice
  dsimp only
  split
  · split <;> simp [h]
  · split
    · rename_i t ht
      rw [h, performStore_kept _ _ _ _ _ _ ht]
    · simp

@[simp] theorem storeInto_kept (s : State) (c : CoreRef) (r : Region) (size : Nat) (cont : State → Act)
    (h : ∀ s, kept (actState (cont s)) = kept s) : kept (actState (storeInto s c r size cont)) = kept s := by
  unfold storeInto
  dsimp only
  repeat' split
  all_goals simp [h]

@[simp] theorem doStore_kept (s : State) (c : CoreRef) (k : Core) (a : Word) (size : Nat) (v : Word)
    (cont : State → Core → Act) (h : ∀ s k, kept (actState (cont s k)) = kept s) :
    kept (actState (doStore s c k a size v cont)) = kept s := by
  unfold doStore
  split
  · simp
  · split
    · exact storeInto_kept _ _ _ _ _ (fun s => h _ _)
    · rw [h]
      split <;> simp
    · split
      · exact h _ _
      · split
        · exact storeDevice_kept _ _ _ _ _ _ _ (fun s => h _ _)
        · exact storeInto_kept _ _ _ _ _ (fun s => by simp [h])

@[simp] theorem doAtomic_kept (s : State) (c : CoreRef) (k : Core) (a : Word) (size : Nat) (op : Word → Option Word)
    (cont : State → Word → Option Word → Option (DriftKind × Word) → Act)
    (h : ∀ s v x e, kept (actState (cont s v x e)) = kept s) :
    kept (actState (doAtomic s c k a size op cont)) = kept s := by
  unfold doAtomic
  dsimp only
  split
  · rfl
  · split
    · exact fromDrift_kept _ _ _ _ (fun s v => h _ _ _ _)
    · rw [deliver_kept _ _ _ _ (fun s v => by rw [h]; split <;> simp)]
      simp

@[simp] theorem takeIfDue_kept (s : State) (c : CoreRef) (code : Nat) :
    keptO (takeIfDue s c code) = some (kept s) := by
  simp [takeIfDue]

@[simp] theorem execBudgetExhaustedTaken_kept (c : CoreRef) (s : State) :
    keptO (execBudgetExhaustedTaken c s) = some (kept s) := by
  simp [execBudgetExhaustedTaken]

@[simp] theorem execCommitLateTaken_kept (c : CoreRef) (s : State) :
    keptO (execCommitLateTaken c s) = some (kept s) := by
  simp [execCommitLateTaken]

@[simp] theorem commitNow_kept (s : State) (l : LaneId) (c : CoreSel) :
    kept (commitNow s l c) = kept s := by
  simp [commitNow]

@[simp] theorem execCommit_kept (c : CoreRef) (s : State) :
    keptO (execCommit c s) = some (kept s) := by
  simp [execCommit]

@[simp] theorem acceptWindow_kept (s : State) (l : LaneId) (a b : FirnWindow) :
    kept (acceptWindow s l a b) = kept s := by
  simp [acceptWindow]

@[simp] theorem raiseCause_kept (s : State) (p : PairRef) (causes : List Nat) :
    kept (raiseCause s p causes) = kept s := by
  unfold raiseCause
  split <;> simp

@[simp] theorem execWindowCompare_kept (p : PairRef) (ansA ansB : Option Rail) (parity : Bool) (s : State) :
    keptO (execWindowCompare p ansA ansB parity s) = some (kept s) := by
  simp only [execWindowCompare]
  repeat' split
  all_goals simp_all

@[simp] theorem execDrainComplete_kept (lane : LaneId) (s : State) :
    keptO (execDrainComplete lane s) = some (kept s) := by
  simp [execDrainComplete]

@[simp] theorem execCmpRailTimeout_kept (p : PairRef) (s : State) :
    keptO (execCmpRailTimeout p s) = some (kept s) := by
  unfold execCmpRailTimeout
  split <;> simp

@[simp] theorem execTrailStall_kept (p : PairRef) (s : State) :
    keptO (execTrailStall p s) = some (kept s) := by
  unfold execTrailStall
  split <;> simp

@[simp] theorem bistMiss_kept (s : State) (l : LaneId) :
    kept (bistMiss s l) = kept s := by
  simp [bistMiss]

@[simp] theorem bistResult_kept (s : State) (l : LaneId) (detected : BitVec 6) :
    kept (bistResult s l detected) = kept s := by
  simp [bistResult]

@[simp] theorem execInjectionTestsDone_kept (lane : LaneId) (detected : BitVec 6) (s : State) :
    keptO (execInjectionTestsDone lane detected s) = some (kept s) := by
  simp [execInjectionTestsDone]

@[simp] theorem bindContexts_kept (s : State) (l : LaneId) :
    kept (bindContexts s l) = kept s := by
  simp [bindContexts]

@[simp] theorem resetLanePairs_kept (s : State) (l : LaneId) :
    kept (resetLanePairs s l) = kept s := by
  simp [resetLanePairs]

@[simp] theorem loadLane_kept (s : State) (l : LaneId) (im : LaneImage) :
    kept (loadLane s l im) = kept s := by
  simp [loadLane]

@[simp] theorem leaveExcluded_kept (s : State) :
    kept (leaveExcluded s) = kept s := by
  simp [leaveExcluded]

@[simp] theorem execLaneReloadDone_kept (lane : LaneId) (s : State) :
    keptO (execLaneReloadDone lane s) = some (kept s) := by
  simp only [execLaneReloadDone]
  repeat' split
  all_goals simp_all

@[simp] theorem epochEntry_kept (s : State) (l : LaneId) :
    kept (epochEntry s l) = kept s := by
  simp [epochEntry]

@[simp] theorem execRejoinCopyDone_kept (lane : LaneId) (equal : Bool) (s : State) :
    keptO (execRejoinCopyDone lane equal s) = some (kept s) := by
  simp [execRejoinCopyDone]

@[simp] theorem execModeReqWrite_kept (lane : LaneId) (data : U32) (s : State) :
    keptO (execModeReqWrite lane data s) = some (kept s) := by
  simp [execModeReqWrite]

@[simp] theorem perfWrite_kept (s : State) (data : U32) :
    kept (perfWrite s data) = kept s := by
  simp [perfWrite]

@[simp] theorem execLanePerfWrite_kept (data : U32) (s : State) :
    keptO (execLanePerfWrite data s) = some (kept s) := by
  simp [execLanePerfWrite]

@[simp] theorem execPerfRampDone_kept (domain : Fin 4) (s : State) :
    keptO (execPerfRampDone domain s) = some (kept s) := by
  unfold execPerfRampDone
  refine always_kept _ _ _ ?_
  repeat' split
  all_goals simp_all

@[simp] theorem execSpeedInterval_kept (s : State) :
    keptO (execSpeedInterval s) = some (kept s) := by
  simp [execSpeedInterval]

@[simp] theorem execLaneSpeedRead_kept (lane : LaneId) (s : State) :
    keptO (execLaneSpeedRead lane s) = some (kept s) := by
  simp [execLaneSpeedRead]

@[simp] theorem injectTest_kept (s : State) (l : LaneId) (test : Nat) (detected : Bool) :
    kept (injectTest s l test detected) = kept s := by
  simp [injectTest]

@[simp] theorem injectWrite_kept (s : State) (l : LaneId) (data : U32) (detected : Bool) :
    kept (injectWrite s l data detected) = kept s := by
  simp [injectWrite]

@[simp] theorem execFirnInject_kept (lane : LaneId) (data : U32) (detected : Bool) (s : State) :
    keptO (execFirnInject lane data detected s) = some (kept s) := by
  simp [execFirnInject]

theorem chkWrite_kept (s : State) (m : Master) (trailing : Bool) (ctx : Fin 16) (effect : State)
    (h : kept effect = kept s) : kept (chkWrite s m trailing ctx effect) = kept s := by
  unfold chkWrite
  repeat' split
  all_goals simp [h]

@[simp] theorem chkStore_kept (s : State) (ctx : Fin 16) (r size : Nat) (data : U32) :
    kept (chkStore s ctx r size data) = kept s := by
  simp [chkStore]

@[simp] theorem execChkDataWrite_kept (m : Master) (trailing : Bool) (ctx : Fin 16) (size : Nat) (data : U32) (s : State) :
    keptO (execChkDataWrite m trailing ctx size data s) = some (kept s) := by
  unfold execChkDataWrite
  refine live_kept _ _ _ ?_
  split
  · exact chkWrite_kept _ _ _ _ _ (by simp)
  · rfl

@[simp] theorem execChkFoldWrite_kept (m : Master) (trailing : Bool) (ctx : Fin 16) (data : U32) (s : State) :
    keptO (execChkFoldWrite m trailing ctx data s) = some (kept s) := by
  unfold execChkFoldWrite
  refine live_kept _ _ _ (chkWrite_kept _ _ _ _ _ ?_)
  simp

@[simp] theorem execChkValWrite_kept (m : Master) (trailing : Bool) (ctx : Fin 16) (data : U32) (s : State) :
    keptO (execChkValWrite m trailing ctx data s) = some (kept s) := by
  unfold execChkValWrite
  refine live_kept _ _ _ (chkWrite_kept _ _ _ _ _ ?_)
  simp

@[simp] theorem execChkCmpWrite_kept (m : Master) (trailing : Bool) (ctx : Fin 16) (data : U32) (s : State) :
    keptO (execChkCmpWrite m trailing ctx data s) = some (kept s) := by
  unfold execChkCmpWrite
  refine live_kept _ _ _ (chkWrite_kept _ _ _ _ _ ?_)
  simp

@[simp] theorem execChkInitWrite_kept (m : Master) (trailing : Bool) (ctx : Fin 16) (data : U32) (s : State) :
    keptO (execChkInitWrite m trailing ctx data s) = some (kept s) := by
  unfold execChkInitWrite
  refine live_kept _ _ _ (chkWrite_kept _ _ _ _ _ ?_)
  simp

@[simp] theorem chkCfgWrite_kept (s : State) (ctx : Fin 16) (data : U32) :
    kept (chkCfgWrite s ctx data) = kept s := by
  simp [chkCfgWrite]

@[simp] theorem execChkCfgWrite_kept (ctx : Fin 16) (data : U32) (s : State) :
    keptO (execChkCfgWrite ctx data s) = some (kept s) := by
  simp [execChkCfgWrite]

@[simp] theorem checkPut_kept (s : State) (c : CoreRef) (k : Core) (f : Fields) (o size : Nat) (v : Word)
    (op : CheckCtx → CheckCtx) : kept (actState (checkPut s c k f o size v op)) = kept s := by
  unfold checkPut
  dsimp only
  repeat' split
  all_goals simp

@[simp] theorem checkGet_kept (s : State) (c : CoreRef) (k : Core) (f : Fields) (val : CheckCtx → Word) :
    kept (actState (checkGet s c k f val)) = kept s := by
  unfold checkGet
  dsimp only
  repeat' split
  · simp
  · simp
  · exact fromDrift_kept _ _ _ _ (fun s v => rfl)
  · simp

@[simp] theorem execCkinit_kept (c : CoreRef) (f : Fields) (s : State) :
    keptO (execCkinit c f s) = some (kept s) := by
  simp [execCkinit]

@[simp] theorem execCkf8_kept (c : CoreRef) (f : Fields) (s : State) :
    keptO (execCkf8 c f s) = some (kept s) := by
  simp [execCkf8]

@[simp] theorem execCkf16_kept (c : CoreRef) (f : Fields) (s : State) :
    keptO (execCkf16 c f s) = some (kept s) := by
  simp [execCkf16]

@[simp] theorem execCkf32_kept (c : CoreRef) (f : Fields) (s : State) :
    keptO (execCkf32 c f s) = some (kept s) := by
  simp [execCkf32]

@[simp] theorem execCkfold_kept (c : CoreRef) (f : Fields) (s : State) :
    keptO (execCkfold c f s) = some (kept s) := by
  simp [execCkfold]

@[simp] theorem execCkwr_kept (c : CoreRef) (f : Fields) (s : State) :
    keptO (execCkwr c f s) = some (kept s) := by
  simp [execCkwr]

@[simp] theorem execCkrd_kept (c : CoreRef) (f : Fields) (s : State) :
    keptO (execCkrd c f s) = some (kept s) := by
  simp [execCkrd]

@[simp] theorem execCkfin_kept (c : CoreRef) (f : Fields) (s : State) :
    keptO (execCkfin c f s) = some (kept s) := by
  simp [execCkfin]

@[simp] theorem retRes_kept (s : State) (k : Core) (rd : BitVec 5) (r : Word × BitVec 3) :
    kept (actState (retRes s k rd r)) = kept s := by
  simp [retRes]

@[simp] theorem execAdd_kept (c : CoreRef) (f : Fields) (s : State) :
    keptO (execAdd c f s) = some (kept s) := by
  simp [execAdd]

@[simp] theorem execSub_kept (c : CoreRef) (f : Fields) (s : State) :
    keptO (execSub c f s) = some (kept s) := by
  simp [execSub]

@[simp] theorem execAnd_kept (c : CoreRef) (f : Fields) (s : State) :
    keptO (execAnd c f s) = some (kept s) := by
  simp [execAnd]

@[simp] theorem execOr_kept (c : CoreRef) (f : Fields) (s : State) :
    keptO (execOr c f s) = some (kept s) := by
  simp [execOr]

@[simp] theorem execXor_kept (c : CoreRef) (f : Fields) (s : State) :
    keptO (execXor c f s) = some (kept s) := by
  simp [execXor]

@[simp] theorem execAndn_kept (c : CoreRef) (f : Fields) (s : State) :
    keptO (execAndn c f s) = some (kept s) := by
  simp [execAndn]

@[simp] theorem execOrn_kept (c : CoreRef) (f : Fields) (s : State) :
    keptO (execOrn c f s) = some (kept s) := by
  simp [execOrn]

@[simp] theorem execXnor_kept (c : CoreRef) (f : Fields) (s : State) :
    keptO (execXnor c f s) = some (kept s) := by
  simp [execXnor]

@[simp] theorem execSlt_kept (c : CoreRef) (f : Fields) (s : State) :
    keptO (execSlt c f s) = some (kept s) := by
  simp [execSlt]

@[simp] theorem execSltu_kept (c : CoreRef) (f : Fields) (s : State) :
    keptO (execSltu c f s) = some (kept s) := by
  simp [execSltu]

@[simp] theorem execMin_kept (c : CoreRef) (f : Fields) (s : State) :
    keptO (execMin c f s) = some (kept s) := by
  simp [execMin]

@[simp] theorem execMax_kept (c : CoreRef) (f : Fields) (s : State) :
    keptO (execMax c f s) = some (kept s) := by
  simp [execMax]

@[simp] theorem execMinu_kept (c : CoreRef) (f : Fields) (s : State) :
    keptO (execMinu c f s) = some (kept s) := by
  simp [execMinu]

@[simp] theorem execMaxu_kept (c : CoreRef) (f : Fields) (s : State) :
    keptO (execMaxu c f s) = some (kept s) := by
  simp [execMaxu]

@[simp] theorem execAddw_kept (c : CoreRef) (f : Fields) (s : State) :
    keptO (execAddw c f s) = some (kept s) := by
  simp [execAddw]

@[simp] theorem execSubw_kept (c : CoreRef) (f : Fields) (s : State) :
    keptO (execSubw c f s) = some (kept s) := by
  simp [execSubw]

@[simp] theorem execSeq_kept (c : CoreRef) (f : Fields) (s : State) :
    keptO (execSeq c f s) = some (kept s) := by
  simp [execSeq]

@[simp] theorem execAddi_kept (c : CoreRef) (f : Fields) (s : State) :
    keptO (execAddi c f s) = some (kept s) := by
  simp [execAddi]

@[simp] theorem execAndi_kept (c : CoreRef) (f : Fields) (s : State) :
    keptO (execAndi c f s) = some (kept s) := by
  simp [execAndi]

@[simp] theorem execOri_kept (c : CoreRef) (f : Fields) (s : State) :
    keptO (execOri c f s) = some (kept s) := by
  simp [execOri]

@[simp] theorem execXori_kept (c : CoreRef) (f : Fields) (s : State) :
    keptO (execXori c f s) = some (kept s) := by
  simp [execXori]

@[simp] theorem execSlti_kept (c : CoreRef) (f : Fields) (s : State) :
    keptO (execSlti c f s) = some (kept s) := by
  simp [execSlti]

@[simp] theorem execSltiu_kept (c : CoreRef) (f : Fields) (s : State) :
    keptO (execSltiu c f s) = some (kept s) := by
  simp [execSltiu]

@[simp] theorem execAddiw_kept (c : CoreRef) (f : Fields) (s : State) :
    keptO (execAddiw c f s) = some (kept s) := by
  simp [execAddiw]

@[simp] theorem execSll_kept (c : CoreRef) (f : Fields) (s : State) :
    keptO (execSll c f s) = some (kept s) := by
  simp [execSll]

@[simp] theorem execSrl_kept (c : CoreRef) (f : Fields) (s : State) :
    keptO (execSrl c f s) = some (kept s) := by
  simp [execSrl]

@[simp] theorem execSra_kept (c : CoreRef) (f : Fields) (s : State) :
    keptO (execSra c f s) = some (kept s) := by
  simp [execSra]

@[simp] theorem execRol_kept (c : CoreRef) (f : Fields) (s : State) :
    keptO (execRol c f s) = some (kept s) := by
  simp [execRol]

@[simp] theorem execRor_kept (c : CoreRef) (f : Fields) (s : State) :
    keptO (execRor c f s) = some (kept s) := by
  simp [execRor]

@[simp] theorem execSllw_kept (c : CoreRef) (f : Fields) (s : State) :
    keptO (execSllw c f s) = some (kept s) := by
  simp [execSllw]

@[simp] theorem execSrlw_kept (c : CoreRef) (f : Fields) (s : State) :
    keptO (execSrlw c f s) = some (kept s) := by
  simp [execSrlw]

@[simp] theorem execSraw_kept (c : CoreRef) (f : Fields) (s : State) :
    keptO (execSraw c f s) = some (kept s) := by
  simp [execSraw]

@[simp] theorem execSlli_kept (c : CoreRef) (f : Fields) (s : State) :
    keptO (execSlli c f s) = some (kept s) := by
  simp [execSlli]

@[simp] theorem execSrli_kept (c : CoreRef) (f : Fields) (s : State) :
    keptO (execSrli c f s) = some (kept s) := by
  simp [execSrli]

@[simp] theorem execSrai_kept (c : CoreRef) (f : Fields) (s : State) :
    keptO (execSrai c f s) = some (kept s) := by
  simp [execSrai]

@[simp] theorem execRori_kept (c : CoreRef) (f : Fields) (s : State) :
    keptO (execRori c f s) = some (kept s) := by
  simp [execRori]

@[simp] theorem execExtu_kept (c : CoreRef) (f : Fields) (s : State) :
    keptO (execExtu c f s) = some (kept s) := by
  simp [execExtu]

@[simp] theorem execExts_kept (c : CoreRef) (f : Fields) (s : State) :
    keptO (execExts c f s) = some (kept s) := by
  simp [execExts]

@[simp] theorem execIns_kept (c : CoreRef) (f : Fields) (s : State) :
    keptO (execIns c f s) = some (kept s) := by
  simp [execIns]

@[simp] theorem execClz_kept (c : CoreRef) (f : Fields) (s : State) :
    keptO (execClz c f s) = some (kept s) := by
  simp [execClz]

@[simp] theorem execCtz_kept (c : CoreRef) (f : Fields) (s : State) :
    keptO (execCtz c f s) = some (kept s) := by
  simp [execCtz]

@[simp] theorem execPopc_kept (c : CoreRef) (f : Fields) (s : State) :
    keptO (execPopc c f s) = some (kept s) := by
  simp [execPopc]

@[simp] theorem execRev8_kept (c : CoreRef) (f : Fields) (s : State) :
    keptO (execRev8 c f s) = some (kept s) := by
  simp [execRev8]

@[simp] theorem execMul_kept (c : CoreRef) (f : Fields) (s : State) :
    keptO (execMul c f s) = some (kept s) := by
  simp [execMul]

@[simp] theorem execMulh_kept (c : CoreRef) (f : Fields) (s : State) :
    keptO (execMulh c f s) = some (kept s) := by
  simp [execMulh]

@[simp] theorem execMulhu_kept (c : CoreRef) (f : Fields) (s : State) :
    keptO (execMulhu c f s) = some (kept s) := by
  simp [execMulhu]

@[simp] theorem execMulhsu_kept (c : CoreRef) (f : Fields) (s : State) :
    keptO (execMulhsu c f s) = some (kept s) := by
  simp [execMulhsu]

@[simp] theorem execMulw_kept (c : CoreRef) (f : Fields) (s : State) :
    keptO (execMulw c f s) = some (kept s) := by
  simp [execMulw]

@[simp] theorem execDiv_kept (c : CoreRef) (f : Fields) (s : State) :
    keptO (execDiv c f s) = some (kept s) := by
  simp [execDiv]

@[simp] theorem execDivu_kept (c : CoreRef) (f : Fields) (s : State) :
    keptO (execDivu c f s) = some (kept s) := by
  simp [execDivu]

@[simp] theorem execRem_kept (c : CoreRef) (f : Fields) (s : State) :
    keptO (execRem c f s) = some (kept s) := by
  simp [execRem]

@[simp] theorem execRemu_kept (c : CoreRef) (f : Fields) (s : State) :
    keptO (execRemu c f s) = some (kept s) := by
  simp [execRemu]

@[simp] theorem execDivw_kept (c : CoreRef) (f : Fields) (s : State) :
    keptO (execDivw c f s) = some (kept s) := by
  simp [execDivw]

@[simp] theorem execDivuw_kept (c : CoreRef) (f : Fields) (s : State) :
    keptO (execDivuw c f s) = some (kept s) := by
  simp [execDivuw]

@[simp] theorem execRemw_kept (c : CoreRef) (f : Fields) (s : State) :
    keptO (execRemw c f s) = some (kept s) := by
  simp [execRemw]

@[simp] theorem execRemuw_kept (c : CoreRef) (f : Fields) (s : State) :
    keptO (execRemuw c f s) = some (kept s) := by
  simp [execRemuw]

@[simp] theorem execAdds_kept (c : CoreRef) (f : Fields) (s : State) :
    keptO (execAdds c f s) = some (kept s) := by
  simp [execAdds]

@[simp] theorem execSubs_kept (c : CoreRef) (f : Fields) (s : State) :
    keptO (execSubs c f s) = some (kept s) := by
  simp [execSubs]

@[simp] theorem execAddus_kept (c : CoreRef) (f : Fields) (s : State) :
    keptO (execAddus c f s) = some (kept s) := by
  simp [execAddus]

@[simp] theorem execSubus_kept (c : CoreRef) (f : Fields) (s : State) :
    keptO (execSubus c f s) = some (kept s) := by
  simp [execSubus]

@[simp] theorem execNegs_kept (c : CoreRef) (f : Fields) (s : State) :
    keptO (execNegs c f s) = some (kept s) := by
  simp [execNegs]

@[simp] theorem execAbss_kept (c : CoreRef) (f : Fields) (s : State) :
    keptO (execAbss c f s) = some (kept s) := by
  simp [execAbss]

@[simp] theorem execSats_kept (c : CoreRef) (f : Fields) (s : State) :
    keptO (execSats c f s) = some (kept s) := by
  simp [execSats]

@[simp] theorem execSatu_kept (c : CoreRef) (f : Fields) (s : State) :
    keptO (execSatu c f s) = some (kept s) := by
  simp [execSatu]

@[simp] theorem execMulq_kept (c : CoreRef) (f : Fields) (s : State) :
    keptO (execMulq c f s) = some (kept s) := by
  simp [execMulq]

@[simp] theorem execMacq_kept (c : CoreRef) (f : Fields) (s : State) :
    keptO (execMacq c f s) = some (kept s) := by
  simp [execMacq]

@[simp] theorem execClamp_kept (c : CoreRef) (f : Fields) (s : State) :
    keptO (execClamp c f s) = some (kept s) := by
  simp [execClamp]

@[simp] theorem execRate_kept (c : CoreRef) (f : Fields) (s : State) :
    keptO (execRate c f s) = some (kept s) := by
  simp [execRate]

@[simp] theorem execLis_kept (c : CoreRef) (w : Wide) (s : State) :
    keptO (execLis c w s) = some (kept s) := by
  simp [execLis]

@[simp] theorem execLik_kept (c : CoreRef) (w : Wide) (s : State) :
    keptO (execLik c w s) = some (kept s) := by
  simp [execLik]

@[simp] theorem execPcrel_kept (c : CoreRef) (w : Wide) (s : State) :
    keptO (execPcrel c w s) = some (kept s) := by
  simp [execPcrel]

@[simp] theorem retFR_kept (s : State) (k : Core) (rd : BitVec 5) (r : Word × BitVec 5) :
    kept (actState (retFR s k rd r)) = kept s := by
  simp [retFR]

@[simp] theorem retGR_kept (s : State) (k : Core) (rd : BitVec 5) (r : Word × BitVec 5) :
    kept (actState (retGR s k rd r)) = kept s := by
  simp [retGR]

@[simp] theorem execFadd_kept (c : CoreRef) (f : Fields) (s : State) :
    keptO (execFadd c f s) = some (kept s) := by
  simp [execFadd]

@[simp] theorem execFsub_kept (c : CoreRef) (f : Fields) (s : State) :
    keptO (execFsub c f s) = some (kept s) := by
  simp [execFsub]

@[simp] theorem execFmul_kept (c : CoreRef) (f : Fields) (s : State) :
    keptO (execFmul c f s) = some (kept s) := by
  simp [execFmul]

@[simp] theorem execFdiv_kept (c : CoreRef) (f : Fields) (s : State) :
    keptO (execFdiv c f s) = some (kept s) := by
  simp [execFdiv]

@[simp] theorem execFsqrt_kept (c : CoreRef) (f : Fields) (s : State) :
    keptO (execFsqrt c f s) = some (kept s) := by
  simp [execFsqrt]

@[simp] theorem execFmin_kept (c : CoreRef) (f : Fields) (s : State) :
    keptO (execFmin c f s) = some (kept s) := by
  simp [execFmin]

@[simp] theorem execFmax_kept (c : CoreRef) (f : Fields) (s : State) :
    keptO (execFmax c f s) = some (kept s) := by
  simp [execFmax]

@[simp] theorem execFcpys_kept (c : CoreRef) (f : Fields) (s : State) :
    keptO (execFcpys c f s) = some (kept s) := by
  simp [execFcpys]

@[simp] theorem execFcpyn_kept (c : CoreRef) (f : Fields) (s : State) :
    keptO (execFcpyn c f s) = some (kept s) := by
  simp [execFcpyn]

@[simp] theorem execFcpyx_kept (c : CoreRef) (f : Fields) (s : State) :
    keptO (execFcpyx c f s) = some (kept s) := by
  simp [execFcpyx]

@[simp] theorem execFmadd_kept (c : CoreRef) (f : Fields) (s : State) :
    keptO (execFmadd c f s) = some (kept s) := by
  simp [execFmadd]

@[simp] theorem execFmsub_kept (c : CoreRef) (f : Fields) (s : State) :
    keptO (execFmsub c f s) = some (kept s) := by
  simp [execFmsub]

@[simp] theorem execFnmadd_kept (c : CoreRef) (f : Fields) (s : State) :
    keptO (execFnmadd c f s) = some (kept s) := by
  simp [execFnmadd]

@[simp] theorem execFnmsub_kept (c : CoreRef) (f : Fields) (s : State) :
    keptO (execFnmsub c f s) = some (kept s) := by
  simp [execFnmsub]

@[simp] theorem execFcmpeq_kept (c : CoreRef) (f : Fields) (s : State) :
    keptO (execFcmpeq c f s) = some (kept s) := by
  simp [execFcmpeq]

@[simp] theorem execFcmplt_kept (c : CoreRef) (f : Fields) (s : State) :
    keptO (execFcmplt c f s) = some (kept s) := by
  simp [execFcmplt]

@[simp] theorem execFcmple_kept (c : CoreRef) (f : Fields) (s : State) :
    keptO (execFcmple c f s) = some (kept s) := by
  simp [execFcmple]

@[simp] theorem execFkind_kept (c : CoreRef) (f : Fields) (s : State) :
    keptO (execFkind c f s) = some (kept s) := by
  simp [execFkind]

@[simp] theorem execFtol_kept (c : CoreRef) (f : Fields) (s : State) :
    keptO (execFtol c f s) = some (kept s) := by
  simp [execFtol]

@[simp] theorem execFtolu_kept (c : CoreRef) (f : Fields) (s : State) :
    keptO (execFtolu c f s) = some (kept s) := by
  simp [execFtolu]

@[simp] theorem execFtow_kept (c : CoreRef) (f : Fields) (s : State) :
    keptO (execFtow c f s) = some (kept s) := by
  simp [execFtow]

@[simp] theorem execFtowu_kept (c : CoreRef) (f : Fields) (s : State) :
    keptO (execFtowu c f s) = some (kept s) := by
  simp [execFtowu]

@[simp] theorem execFfroml_kept (c : CoreRef) (f : Fields) (s : State) :
    keptO (execFfroml c f s) = some (kept s) := by
  simp [execFfroml]

@[simp] theorem execFfromlu_kept (c : CoreRef) (f : Fields) (s : State) :
    keptO (execFfromlu c f s) = some (kept s) := by
  simp [execFfromlu]

@[simp] theorem execFrnd32_kept (c : CoreRef) (f : Fields) (s : State) :
    keptO (execFrnd32 c f s) = some (kept s) := by
  simp [execFrnd32]

@[simp] theorem execFis32_kept (c : CoreRef) (f : Fields) (s : State) :
    keptO (execFis32 c f s) = some (kept s) := by
  simp [execFis32]

@[simp] theorem execFtog_kept (c : CoreRef) (f : Fields) (s : State) :
    keptO (execFtog c f s) = some (kept s) := by
  simp [execFtog]

@[simp] theorem execFfromg_kept (c : CoreRef) (f : Fields) (s : State) :
    keptO (execFfromg c f s) = some (kept s) := by
  simp [execFfromg]

@[simp] theorem branchIf_kept (s : State) (k : Core) (f : Fields) (b : Bool) :
    kept (actState (branchIf s k f b)) = kept s := by
  simp [branchIf]

@[simp] theorem readCr_kept (s : State) (c : CoreRef) (k : Core) (i : Nat)
    (cont : State → Word → Option (DriftKind × Word) → Act) (h : ∀ s v e, kept (actState (cont s v e)) = kept s) :
    kept (actState (readCr s c k i cont)) = kept s := by
  unfold readCr
  repeat' split
  all_goals simp [h]

@[simp] theorem writeTaskSel_kept (s : State) (c : CoreRef) (k : Core) (v : Word)
    (cont : State → Core → Option (DriftKind × Word) → Act) (h : ∀ s k e, kept (actState (cont s k e)) = kept s) :
    kept (actState (writeTaskSel s c k v cont)) = kept s := by
  unfold writeTaskSel
  dsimp only
  split
  · rfl
  · split
    · rfl
    · refine doLoad_kept _ _ _ _ _ _ (fun s d e => ?_)
      repeat' split
      all_goals simp_all

@[simp] theorem crModify_kept (s : State) (c : CoreRef) (k : Core) (f : Fields) (word : U32) (new : Word → Word) :
    kept (actState (crModify s c k f word new)) = kept s := by
  unfold crModify
  refine legal_kept _ _ _ _ ?_
  split
  · exact writeTaskSel_kept _ _ _ _ _ (fun s k e => rfl)
  · split
    · simp
    · exact readCr_kept _ _ _ _ _ (fun s v e => rfl)

@[simp] theorem execBeq_kept (c : CoreRef) (f : Fields) (s : State) :
    keptO (execBeq c f s) = some (kept s) := by
  simp [execBeq]

@[simp] theorem execBne_kept (c : CoreRef) (f : Fields) (s : State) :
    keptO (execBne c f s) = some (kept s) := by
  simp [execBne]

@[simp] theorem execBlt_kept (c : CoreRef) (f : Fields) (s : State) :
    keptO (execBlt c f s) = some (kept s) := by
  simp [execBlt]

@[simp] theorem execBge_kept (c : CoreRef) (f : Fields) (s : State) :
    keptO (execBge c f s) = some (kept s) := by
  simp [execBge]

@[simp] theorem execBltu_kept (c : CoreRef) (f : Fields) (s : State) :
    keptO (execBltu c f s) = some (kept s) := by
  simp [execBltu]

@[simp] theorem execBgeu_kept (c : CoreRef) (f : Fields) (s : State) :
    keptO (execBgeu c f s) = some (kept s) := by
  simp [execBgeu]

@[simp] theorem execJal_kept (c : CoreRef) (f : Fields) (s : State) :
    keptO (execJal c f s) = some (kept s) := by
  unfold execJal
  refine runLane_kept _ _ _ (fun s k => ?_)
  repeat' split
  all_goals simp_all

@[simp] theorem execJalr_kept (c : CoreRef) (f : Fields) (s : State) :
    keptO (execJalr c f s) = some (kept s) := by
  simp [execJalr]

@[simp] theorem yieldAct_kept (s : State) (c : CoreRef) (k : Core) (commit : Bool) :
    kept (actState (yieldAct s c k commit)) = kept s := by
  simp [yieldAct]

@[simp] theorem execYield_kept (c : CoreRef) (f : Fields) (s : State) :
    keptO (execYield c f s) = some (kept s) := by
  simp [execYield]

@[simp] theorem execTrap_kept (c : CoreRef) (f : Fields) (s : State) :
    keptO (execTrap c f s) = some (kept s) := by
  unfold execTrap
  refine runLane_kept _ _ _ (fun s k => ?_)
  repeat' split
  all_goals simp_all

@[simp] theorem execRet_kept (c : CoreRef) (f : Fields) (s : State) :
    keptO (execRet c f s) = some (kept s) := by
  unfold execRet
  refine runLane_kept _ _ _ (fun s k => ?_)
  refine legal_kept _ _ _ _ ?_
  first | rfl | simp | ((repeat' split) <;> simp_all)

@[simp] theorem execCrr_kept (c : CoreRef) (f : Fields) (s : State) : keptO (execCrr c f s) = some (kept s) := by
  unfold execCrr
  refine runLane_kept _ _ _ (fun s k => legal_kept _ _ _ _ ?_)
  split
  · rfl
  · exact readCr_kept _ _ _ _ _ (fun s v e => rfl)

@[simp] theorem execCrw_kept (c : CoreRef) (f : Fields) (s : State) :
    keptO (execCrw c f s) = some (kept s) := by
  simp [execCrw]

@[simp] theorem execCrs_kept (c : CoreRef) (f : Fields) (s : State) :
    keptO (execCrs c f s) = some (kept s) := by
  simp [execCrs]

@[simp] theorem execCrc_kept (c : CoreRef) (f : Fields) (s : State) :
    keptO (execCrc c f s) = some (kept s) := by
  simp [execCrc]

@[simp] theorem loadG_kept (s : State) (c : CoreRef) (k : Core) (f : Fields) (size : Nat) (ext : Word → Word) :
    kept (actState (loadG s c k f size ext)) = kept s := by
  unfold loadG
  exact doLoad_kept _ _ _ _ _ _ (fun s v e => rfl)

@[simp] theorem loadF_kept (s : State) (c : CoreRef) (k : Core) (f : Fields) (size : Nat) (ext : Word → Word) :
    kept (actState (loadF s c k f size ext)) = kept s := by
  unfold loadF
  exact doLoad_kept _ _ _ _ _ _ (fun s v e => rfl)

@[simp] theorem storeV_kept (s : State) (c : CoreRef) (k : Core) (f : Fields) (size : Nat) (v : Word) (fl : BitVec 5) :
    kept (actState (storeV s c k f size v fl)) = kept s := by
  unfold storeV
  exact doStore_kept _ _ _ _ _ _ _ (fun s k => rfl)

@[simp] theorem atomicV_kept (s : State) (c : CoreRef) (k : Core) (f : Fields) (minor : BitVec 6)
    (op : (n : Nat) → BitVec n → BitVec n → Option (BitVec n)) : kept (actState (atomicV s c k f minor op)) = kept s := by
  unfold atomicV
  dsimp only
  split
  · exact doAtomic_kept _ _ _ _ _ _ _ (fun s v x e => rfl)
  · split
    · exact doAtomic_kept _ _ _ _ _ _ _ (fun s v x e => rfl)
    · rfl

@[simp] theorem execLb_kept (c : CoreRef) (f : Fields) (s : State) :
    keptO (execLb c f s) = some (kept s) := by
  simp [execLb]

@[simp] theorem execLbu_kept (c : CoreRef) (f : Fields) (s : State) :
    keptO (execLbu c f s) = some (kept s) := by
  simp [execLbu]

@[simp] theorem execLh_kept (c : CoreRef) (f : Fields) (s : State) :
    keptO (execLh c f s) = some (kept s) := by
  simp [execLh]

@[simp] theorem execLhu_kept (c : CoreRef) (f : Fields) (s : State) :
    keptO (execLhu c f s) = some (kept s) := by
  simp [execLhu]

@[simp] theorem execLw_kept (c : CoreRef) (f : Fields) (s : State) :
    keptO (execLw c f s) = some (kept s) := by
  simp [execLw]

@[simp] theorem execLwu_kept (c : CoreRef) (f : Fields) (s : State) :
    keptO (execLwu c f s) = some (kept s) := by
  simp [execLwu]

@[simp] theorem execLd_kept (c : CoreRef) (f : Fields) (s : State) :
    keptO (execLd c f s) = some (kept s) := by
  simp [execLd]

@[simp] theorem execFlw_kept (c : CoreRef) (f : Fields) (s : State) :
    keptO (execFlw c f s) = some (kept s) := by
  simp [execFlw]

@[simp] theorem execFld_kept (c : CoreRef) (f : Fields) (s : State) :
    keptO (execFld c f s) = some (kept s) := by
  simp [execFld]

@[simp] theorem execSb_kept (c : CoreRef) (f : Fields) (s : State) :
    keptO (execSb c f s) = some (kept s) := by
  simp [execSb]

@[simp] theorem execSh_kept (c : CoreRef) (f : Fields) (s : State) :
    keptO (execSh c f s) = some (kept s) := by
  simp [execSh]

@[simp] theorem execSw_kept (c : CoreRef) (f : Fields) (s : State) :
    keptO (execSw c f s) = some (kept s) := by
  simp [execSw]

@[simp] theorem execSd_kept (c : CoreRef) (f : Fields) (s : State) :
    keptO (execSd c f s) = some (kept s) := by
  simp [execSd]

@[simp] theorem execFsd_kept (c : CoreRef) (f : Fields) (s : State) :
    keptO (execFsd c f s) = some (kept s) := by
  simp [execFsd]

@[simp] theorem execFsw_kept (c : CoreRef) (f : Fields) (s : State) :
    keptO (execFsw c f s) = some (kept s) := by
  simp [execFsw]

@[simp] theorem execAtswap_kept (c : CoreRef) (f : Fields) (s : State) :
    keptO (execAtswap c f s) = some (kept s) := by
  simp [execAtswap]

@[simp] theorem execAtadd_kept (c : CoreRef) (f : Fields) (s : State) :
    keptO (execAtadd c f s) = some (kept s) := by
  simp [execAtadd]

@[simp] theorem execAtand_kept (c : CoreRef) (f : Fields) (s : State) :
    keptO (execAtand c f s) = some (kept s) := by
  simp [execAtand]

@[simp] theorem execAtorr_kept (c : CoreRef) (f : Fields) (s : State) :
    keptO (execAtorr c f s) = some (kept s) := by
  simp [execAtorr]

@[simp] theorem execAtxor_kept (c : CoreRef) (f : Fields) (s : State) :
    keptO (execAtxor c f s) = some (kept s) := by
  simp [execAtxor]

@[simp] theorem execAtmin_kept (c : CoreRef) (f : Fields) (s : State) :
    keptO (execAtmin c f s) = some (kept s) := by
  simp [execAtmin]

@[simp] theorem execAtmax_kept (c : CoreRef) (f : Fields) (s : State) :
    keptO (execAtmax c f s) = some (kept s) := by
  simp [execAtmax]

@[simp] theorem execAtminu_kept (c : CoreRef) (f : Fields) (s : State) :
    keptO (execAtminu c f s) = some (kept s) := by
  simp [execAtminu]

@[simp] theorem execAtmaxu_kept (c : CoreRef) (f : Fields) (s : State) :
    keptO (execAtmaxu c f s) = some (kept s) := by
  simp [execAtmaxu]

@[simp] theorem execAtcas_kept (c : CoreRef) (f : Fields) (s : State) :
    keptO (execAtcas c f s) = some (kept s) := by
  simp [execAtcas]

@[simp] theorem execFence_kept (c : CoreRef) (f : Fields) (s : State) :
    keptO (execFence c f s) = some (kept s) := by
  simp [execFence]

end Sys2Proof.Machine
end

