-- ==== Sys2Proof/Laws/KeptNet.lean ====
section
/-! SUPPORT. What the networks, the gateway and their commands keep: the identity and the waiting commands. -/

namespace Sys2Proof.Machine

open Sys2Proof

@[simp] theorem putStream_kept (s : State) (n : Nat) (x : Stream) :
    kept (putStream s n x) = kept s := by
  simp [putStream]

@[simp] theorem streamTake_kept (s : State) (n : Nat) :
    kept (streamTake s n).1 = kept s := by
  unfold streamTake
  split <;> simp

@[simp] theorem putRing_kept (s : State) (i : Fin 64) (r : Ring) :
    kept (putRing s i r) = kept s := by
  simp [putRing]

@[simp] theorem ringPost_kept (s : State) (p : Fin 4) (i : Fin 64) (f : List Byte) :
    kept (outboxRecord.ringPost s p i f) = kept s := by
  simp [outboxRecord.ringPost]

@[simp] theorem outboxRecord_kept (s : State) (r : List Byte) (scope : Bool → Bool) :
    kept (outboxRecord s r scope) = kept s := by
  unfold outboxRecord
  dsimp only
  repeat' split
  all_goals simp

@[simp] theorem outboxRun_kept (k : Nat) (s : State) (bs : List Byte) (scope : Bool → Bool) :
    kept (outboxRun k s bs scope) = kept s := by
  induction k generalizing s bs with
  | zero => rfl
  | succ k ih => simp [outboxRun, ih]

@[simp] theorem outboxSend_kept (s : State) (scope : Bool → Bool) :
    kept (outboxSend s scope) = kept s := by
  unfold outboxSend
  repeat' split
  all_goals simp

@[simp] theorem publishOne_kept (s : State) (i : Nat) (d : Publication) (m : Nat) :
    kept (publishOne s i d m) = kept s := by
  simp [publishOne]

@[simp] theorem publishAll_kept (s : State) (unit : Bool) :
    kept (publishAll s unit) = kept s := by
  simp [publishAll]

@[simp] theorem dropUnsent_kept (s : State) :
    kept (dropUnsent s) = kept s := by
  simp [dropUnsent]

@[simp] theorem areaLatch_kept (s : State) (signal : Nat) (xs : List Staged) (seq : Staged → Nat) (timeoutMs : Nat)
    (zero : Bool) : kept (areaLatch s signal xs seq timeoutMs zero).1 = kept s := by
  unfold areaLatch
  dsimp only
  repeat' split
  all_goals simp

@[simp] theorem latchSub_kept (s : State) (i : Nat) (d : Subscription) :
    kept (latchSub s i d) = kept s := by
  simp [latchSub]

@[simp] theorem latchMvb_kept (s : State) : kept (latchMvb s) = kept s := by
  unfold latchMvb
  rw [kept_mk, kept_foldl _ (fun s d => by split <;> simp)]

@[simp] theorem latchCan_kept (s : State) : kept (latchCan s) = kept s := by
  unfold latchCan
  rw [kept_mk, kept_foldl]
  intro s c
  refine kept_foldl _ (fun s d => ?_) _ _
  split <;> simp

@[simp] theorem latchNet_kept (s : State) :
    kept (latchNet s) = kept s := by
  simp [latchNet]

@[simp] theorem takeTopo_kept (s : State) :
    kept (takeTopo s) = kept s := by
  simp [takeTopo]

@[simp] theorem mvbSources_kept (s : State) (unit : Bool) :
    kept (mvbSources s unit) = kept s := by
  simp [mvbSources]

@[simp] theorem canObjects_kept (s : State) (unit : Bool) :
    kept (canObjects s unit) = kept s := by
  simp [canObjects]

@[simp] theorem ringComplete_kept (s : State) (i : Fin 64) (status : Nat) (fill : Mem → Nat → Mem) :
    kept (ringComplete s i status fill) = kept s := by
  simp [ringComplete]

@[simp] theorem tsMissed_kept (s : State) (p : Fin 4) :
    kept (tsMissed s p) = kept s := by
  simp [tsMissed]

@[simp] theorem takeStamp_kept (s : State) (p : Fin 4) (timed : Bool) (asym : Int) :
    kept (takeStamp s p timed asym).1 = kept s := by
  unfold takeStamp
  dsimp only
  repeat' split
  all_goals simp

@[simp] theorem ringReceive_kept (s : State) (p : Fin 4) (i : Fin 64) (f : List Byte) (timed : Bool) :
    kept (ringReceive s p i f timed) = kept s := by
  unfold ringReceive
  dsimp only
  repeat' split
  all_goals simp

@[simp] theorem toSelvedge_kept (s : State) (p : Fin 4) (f : List Byte) (timed : Bool) :
    kept (toSelvedge s p f timed) = kept s := by
  unfold toSelvedge
  repeat' split
  all_goals simp

@[simp] theorem takePd_kept (s : State) (p : Fin 4) (ip : IpView) (t : PdView) :
    kept (takePd s p ip t).1 = kept s := by
  simp [takePd]

@[simp] theorem mdDrop_kept (s : State) :
    kept (mdDrop s) = kept s := by
  simp [mdDrop]

@[simp] theorem takeMdItem_kept (s : State) (p : Fin 4) (ip : IpView) (u : UdpView) :
    kept (takeMdItem s p ip u) = kept s := by
  unfold takeMdItem
  dsimp only
  repeat' split
  all_goals simp

@[simp] theorem takeMd_kept (s : State) (p : Fin 4) (f : List Byte) (ip : IpView) (u : UdpView) :
    kept (takeMd s p f ip u) = kept s := by
  unfold takeMd
  repeat' split
  all_goals simp

theorem takeMailbox_kept (s : State) (p : Fin 4) (v : EthView) (ip : IpView) (u : UdpView) (t : State)
    (h : takeMailbox s p v ip u = some t) : kept t = kept s := by
  unfold takeMailbox at h
  dsimp only at h
  repeat' split at h
  all_goals (cases h <;> simp)

@[simp] theorem gratuitousArp_kept (s : State) (p : Fin 4) :
    kept (gratuitousArp s p) = kept s := by
  simp [gratuitousArp]

@[simp] theorem ptpMessage_kept (s : State) (p : Fin 4) (udp : Bool) (body : List Byte) :
    kept (ptpMessage s p udp body) = kept s := by
  unfold ptpMessage
  dsimp only
  repeat' split
  all_goals simp

@[simp] theorem ttdpFrame_kept (s : State) (f : List Byte) :
    kept (ttdpFrame s f) = kept s := by
  simp [ttdpFrame]

theorem takeSelvedge_kept (s : State) (p : Fin 4) (f : List Byte) (v : EthView) (t : State)
    (h : takeSelvedge s p f v = some t) : kept t = kept s := by
  unfold takeSelvedge at h
  dsimp only at h
  repeat' split at h
  all_goals (cases h <;> simp)

@[simp] theorem takeLocal_kept (s : State) (p : Fin 4) (f : List Byte) (v : EthView) :
    kept (takeLocal s p f v).1 = kept s := by
  have hr : kept (match ringFor s p (· == 2) with
      | some i => (ringReceive s p i f false, true)
      | none => (s, false)).1 = kept s := by
    split <;> simp
  unfold takeLocal
  dsimp only
  split
  · exact takeSelvedge_kept _ _ _ _ _ (by assumption)
  · split
    · exact hr
    · split
      · exact hr
      · split
        · split
          · simp
          · split
            · rfl
            · exact hr
        · split
          · simp
          · split
            · exact takeMailbox_kept _ _ _ _ _ _ (by assumption)
            · exact hr

@[simp] theorem dedup_kept (s : State) (p : Fin 4) (v : EthView) :
    kept (dedup s p v).1 = kept s := by
  unfold dedup
  dsimp only
  repeat' split
  all_goals simp

@[simp] theorem execCbRecoveryTimeout_kept (stream : U16) (s : State) :
    keptO (execCbRecoveryTimeout stream s) = some (kept s) := by
  unfold execCbRecoveryTimeout
  split <;> simp

@[simp] theorem execEthLinkChange_kept (port : Fin 4) (link : BitVec 2) (fec : Bool) (s : State) :
    keptO (execEthLinkChange port link fec s) = some (kept s) := by
  simp [execEthLinkChange]

@[simp] theorem ringSent_kept (s : State) (p : Fin 4) (f : EthFrame) (status : Nat) :
    kept (ringSent s p f status) = kept s := by
  unfold ringSent
  dsimp only
  repeat' split
  all_goals simp

@[simp] theorem portLost_kept (s : State) (p : Fin 4) (x : EthPort) :
    kept (portLost s p x) = kept s := by
  simp [portLost]

@[simp] theorem portTo_kept (s : State) (p : Fin 4) (x : EthPort) (en : Bool) :
    kept (portTo s p x en) = kept s := by
  unfold portTo
  dsimp only
  repeat' split
  all_goals simp

@[simp] theorem execEthFrameTx_kept (port : Fin 4) (queue : Fin 8) (s : State) :
    keptO (execEthFrameTx port queue s) = some (kept s) := by
  unfold execEthFrameTx
  refine live_kept _ _ _ ?_
  dsimp only
  repeat' split
  all_goals simp

@[simp] theorem execGateInterval_kept (port : Fin 4) (s : State) :
    keptO (execGateInterval port s) = some (kept s) := by
  unfold execGateInterval
  refine live_kept _ _ _ ?_
  dsimp only
  repeat' split
  all_goals simp

@[simp] theorem tailWrite_kept (s : State) (i : Fin 64) (data : U32) :
    kept (tailWrite s i data) = kept s := by
  simp [tailWrite]

@[simp] theorem execRingTailWrite_kept (m : Master) (ring : Fin 64) (data : U32) (s : State) :
    keptO (execRingTailWrite m ring data s) = some (kept s) := by
  unfold execRingTailWrite
  split <;> simp

@[simp] theorem ringEnqueue_kept (s : State) (i : Fin 64) (ports : List (Fin 4)) (q : Nat) (f : List Byte) :
    kept (ringEnqueue s i ports q f) = kept s := by
  unfold ringEnqueue
  dsimp only
  repeat' split
  all_goals simp

@[simp] theorem ringSend_kept (s : State) (i : Fin 64) :
    kept (ringSend s i) = kept s := by
  unfold ringSend
  dsimp only
  repeat' split
  all_goals simp

@[simp] theorem ringError_kept (s : State) (i : Fin 64) :
    kept (ringError s i) = kept s := by
  cases s
  rfl

@[simp] theorem execRingDescDone_kept (ring : Fin 64) (ok : Bool) (s : State) :
    keptO (execRingDescDone ring ok s) = some (kept s) := by
  simp [execRingDescDone]

@[simp] theorem ringDiscard_kept (k : Nat) (s : State) (i : Fin 64) : kept (ringDiscard k s i) = kept s := by
  induction k generalizing s i with
  | zero => rfl
  | succ k ih => simp [ringDiscard, ih]

@[simp] theorem ringGate_kept (s : State) (i : Fin 64) :
    kept (ringGate s i) = kept s := by
  simp [ringGate]

@[simp] theorem ringGates_kept (s : State) :
    kept (ringGates s) = kept s := by
  simp [ringGates]

@[simp] theorem mvbLine_kept (s : State) (lineB : Bool) :
    kept (mvbLine s lineB) = kept s := by
  simp [mvbLine]

@[simp] theorem mvbError_kept (s : State) (lineB : Bool) :
    kept (mvbError s lineB) = kept s := by
  simp [mvbError]

@[simp] theorem mvbMaster_kept (s : State) (code addr : Nat) :
    kept (mvbMaster s code addr) = kept s := by
  simp [mvbMaster]

@[simp] theorem mvbSink_kept (s : State) (addr : Nat) (data : List Byte) (lineB : Bool) :
    kept (mvbSink s addr data lineB) = kept s := by
  simp [mvbSink]

@[simp] theorem execMvbBaPeriod_kept (s : State) : keptO (execMvbBaPeriod s) = some (kept s) := by
  unfold execMvbBaPeriod
  refine live_kept _ _ _ ?_
  dsimp only
  split
  · split
    · rfl
    · rw [kept_foldl]
      · rfl
      · intro s f
        split <;> rfl
  · rfl

@[simp] theorem putCan_kept (s : State) (p : Fin 4) (c : CanPort) :
    kept (putCan s p c) = kept s := by
  simp [putCan]

@[simp] theorem canItem_kept (s : State) (p : Fin 4) (ident : U32) (data : List Byte) :
    kept (canItem s p ident data) = kept s := by
  unfold canItem
  dsimp only
  repeat' split
  all_goals simp

@[simp] theorem canTake_kept (s : State) (p : Fin 4) (ident : U32) (data : List Byte) :
    kept (canTake s p ident data) = kept s := by
  unfold canTake
  dsimp only
  repeat' split
  all_goals simp

@[simp] theorem execCanTxDone_kept (port : Fin 4) (s : State) :
    keptO (execCanTxDone port s) = some (kept s) := by
  unfold execCanTxDone
  refine live_kept _ _ _ ?_
  dsimp only
  repeat' split
  all_goals simp

@[simp] theorem execCanBusOff_kept (port : Fin 4) (s : State) :
    keptO (execCanBusOff port s) = some (kept s) := by
  simp [execCanBusOff]

@[simp] theorem execCanBusoffRecovery_kept (port : Fin 4) (s : State) :
    keptO (execCanBusoffRecovery port s) = some (kept s) := by
  simp [execCanBusoffRecovery]

@[simp] theorem sendSelvedge_kept (s : State) (c : Carried) :
    kept (sendSelvedge s c) = kept s := by
  simp [sendSelvedge]

@[simp] theorem queueCans_kept (s : State) (mask ident : Nat) (data : List Byte) :
    kept (queueCans s mask ident data) = kept s := by
  simp [queueCans]

@[simp] theorem sendLocal_kept (s : State) (e : RouteEntry) (c : Carried) :
    kept (sendLocal s e c) = kept s := by
  unfold sendLocal
  split <;> simp

@[simp] theorem sendPorts_kept (s : State) (e : RouteEntry) (q : Nat) (f : EthPort → List Byte) :
    kept (sendPorts s e q f) = kept s := by
  simp [sendPorts]

@[simp] theorem sendCans_kept (s : State) (e : RouteEntry) (ident : Nat) (data : List Byte) :
    kept (sendCans s e ident data) = kept s := by
  simp [sendCans]

@[simp] theorem gatewayMvb_kept (s : State) (e : RouteEntry) (data : List Byte) :
    kept (gatewayMvb s e data) = kept s := by
  unfold gatewayMvb
  dsimp only
  repeat' split
  all_goals simp

@[simp] theorem gatewayPd_kept (s : State) (i : Nat) (e : RouteEntry) (data : List Byte) :
    kept (gatewayPd s i e data) = kept s := by
  simp [gatewayPd]

@[simp] theorem transform_kept (s : State) (i : Nat) (e : RouteEntry) (c : Carried) :
    kept (transform s i e c) = kept s := by
  unfold transform
  split <;> simp

@[simp] theorem gapDrop_kept (s : State) :
    kept (gapDrop s) = kept s := by
  simp [gapDrop]

@[simp] theorem gateway_kept (s : State) (port kind ident : Nat) (c : Carried) :
    kept (gateway s port kind ident c).1 = kept s := by
  unfold gateway
  dsimp only
  repeat' split
  all_goals simp

@[simp] theorem dispatchFrame_kept (s : State) (p : Fin 4) (f : List Byte) :
    kept (dispatchFrame s p f) = kept s := by
  unfold dispatchFrame
  dsimp only
  repeat' split
  all_goals simp

@[simp] theorem execEthFrameRx_kept (port : Fin 4) (bytes : List Byte) (s : State) :
    keptO (execEthFrameRx port bytes s) = some (kept s) := by
  unfold execEthFrameRx
  refine live_kept _ _ _ ?_
  dsimp only
  repeat' split
  all_goals simp

@[simp] theorem execMvbFrame_kept (lineB : Bool) (master : Bool) (code : BitVec 4) (addr : BitVec 12) (data : List Byte) (s : State) :
    keptO (execMvbFrame lineB master code addr data s) = some (kept s) := by
  simp [execMvbFrame]

@[simp] theorem execCanFrameRx_kept (port : Fin 4) (ident : U32) (data : List Byte) (s : State) :
    keptO (execCanFrameRx port ident data s) = some (kept s) := by
  simp [execCanFrameRx]

@[simp] theorem routeEvent_kept (s : State) (bit : Nat) :
    kept (routeEvent s bit) = kept s := by
  simp [routeEvent]

@[simp] theorem routeSwap_kept (s : State) :
    kept (routeSwap s) = kept s := by
  simp [routeSwap]

@[simp] theorem execNetGetPort_kept (pair : PairId) (s : State) :
    keptO (execNetGetPort pair s) = some (kept s) := by
  unfold execNetGetPort
  refine serve_kept _ _ _ _ (fun s p => ?_)
  first | rfl | (repeat' split) <;> first | rfl | simp

@[simp] theorem setPortBody_kept (i : Nat) (s : State) (p : List Byte) : kept (setPortBody i s p).1 = kept s := by
  simp only [setPortBody]
  repeat' split
  all_goals simp_all

@[simp] theorem execNetSetPort_kept (pair : PairId) (s : State) :
    keptO (execNetSetPort pair s) = some (kept s) := by
  simp [execNetSetPort]

@[simp] theorem execNetClearCounters_kept (pair : PairId) (s : State) :
    keptO (execNetClearCounters pair s) = some (kept s) := by
  unfold execNetClearCounters
  refine serve_kept _ _ _ _ (fun s p => ?_)
  first | rfl | (repeat' split) <;> first | rfl | simp

@[simp] theorem gclSetBody_kept (s : State) (p : List Byte) : kept (gclSetBody s p).1 = kept s := by
  simp only [gclSetBody]
  repeat' split
  all_goals simp_all

@[simp] theorem execNetGclSet_kept (pair : PairId) (s : State) :
    keptO (execNetGclSet pair s) = some (kept s) := by
  simp [execNetGclSet]

@[simp] theorem execNetGclGet_kept (pair : PairId) (s : State) :
    keptO (execNetGclGet pair s) = some (kept s) := by
  unfold execNetGclGet
  refine serve_kept _ _ _ _ (fun s p => ?_)
  first | rfl | (repeat' split) <;> first | rfl | simp

@[simp] theorem execNetCbGet_kept (pair : PairId) (s : State) :
    keptO (execNetCbGet pair s) = some (kept s) := by
  unfold execNetCbGet
  refine serve_kept _ _ _ _ (fun s p => ?_)
  first | rfl | (repeat' split) <;> first | rfl | simp

@[simp] theorem execNetPdGet_kept (pair : PairId) (s : State) :
    keptO (execNetPdGet pair s) = some (kept s) := by
  unfold execNetPdGet
  refine serve_kept _ _ _ _ (fun s p => ?_)
  first | rfl | (repeat' split) <;> first | rfl | simp

@[simp] theorem execNetMvbGet_kept (pair : PairId) (s : State) :
    keptO (execNetMvbGet pair s) = some (kept s) := by
  unfold execNetMvbGet
  refine serve_kept _ _ _ _ (fun s p => ?_)
  first | rfl | (repeat' split) <;> first | rfl | simp

@[simp] theorem execNetCanGet_kept (pair : PairId) (s : State) :
    keptO (execNetCanGet pair s) = some (kept s) := by
  unfold execNetCanGet
  refine serve_kept _ _ _ _ (fun s p => ?_)
  first | rfl | (repeat' split) <;> first | rfl | simp

@[simp] theorem canRecoverBody_kept (s : State) (p : List Byte) : kept (canRecoverBody s p).1 = kept s := by
  simp only [canRecoverBody]
  repeat' split
  all_goals simp_all

@[simp] theorem execNetCanRecover_kept (pair : PairId) (s : State) :
    keptO (execNetCanRecover pair s) = some (kept s) := by
  simp [execNetCanRecover]

@[simp] theorem routeBeginBody_kept (pair : PairId) (s : State) (p : List Byte) : kept (routeBeginBody pair s p).1 = kept s := by
  unfold routeBeginBody
  repeat' split
  all_goals simp

@[simp] theorem execRouteBegin_kept (pair : PairId) (s : State) :
    keptO (execRouteBegin pair s) = some (kept s) := by
  simp [execRouteBegin]

@[simp] theorem answerOwner_kept (s : State) (a : Answer) :
    kept (answerOwner s a) = kept s := by
  unfold answerOwner
  split <;> simp

@[simp] theorem execRouteCopyDone_kept (s : State) :
    keptO (execRouteCopyDone s) = some (kept s) := by
  simp [execRouteCopyDone]

@[simp] theorem routeWriteBody_kept (pair : PairId) (s : State) (p : List Byte) : kept (routeWriteBody pair s p).1 = kept s := by
  unfold routeWriteBody
  repeat' split
  all_goals simp

@[simp] theorem execRouteWrite_kept (pair : PairId) (s : State) :
    keptO (execRouteWrite pair s) = some (kept s) := by
  simp [execRouteWrite]

@[simp] theorem routeCommitBody_kept (pair : PairId) (s : State) (p : List Byte) : kept (routeCommitBody pair s p).1 = kept s := by
  simp only [routeCommitBody]
  repeat' split
  all_goals simp_all

@[simp] theorem execRouteCommit_kept (pair : PairId) (s : State) :
    keptO (execRouteCommit pair s) = some (kept s) := by
  simp [execRouteCommit]

@[simp] theorem execRouteCheckDone_kept (s : State) :
    keptO (execRouteCheckDone s) = some (kept s) := by
  unfold execRouteCheckDone
  repeat' split
  all_goals simp

@[simp] theorem routeAbortBody_kept (pair : PairId) (s : State) (p : List Byte) : kept (routeAbortBody pair s p).1 = kept s := by
  simp only [routeAbortBody]
  repeat' split
  all_goals simp_all

@[simp] theorem execRouteAbort_kept (pair : PairId) (s : State) :
    keptO (execRouteAbort pair s) = some (kept s) := by
  simp [execRouteAbort]

@[simp] theorem execRouteGetStatus_kept (pair : PairId) (s : State) :
    keptO (execRouteGetStatus pair s) = some (kept s) := by
  unfold execRouteGetStatus
  refine serve_kept _ _ _ _ (fun s p => ?_)
  first | rfl | (repeat' split) <;> first | rfl | simp

@[simp] theorem execRouteRead_kept (pair : PairId) (s : State) :
    keptO (execRouteRead pair s) = some (kept s) := by
  unfold execRouteRead
  refine serve_kept _ _ _ _ (fun s p => ?_)
  first | rfl | (repeat' split) <;> first | rfl | simp

end Sys2Proof.Machine
end

