-- ==== Sys2Proof/Laws/KeptRack.lean ====
section
/-! SUPPORT. What the rack bus and its commands keep: the identity and the waiting commands. -/

namespace Sys2Proof.Machine

open Sys2Proof

@[simp] theorem feedList_kept (n : Nat) (s : State) : kept (feedList n s) = kept s := by
  induction n generalizing s with
  | zero => rfl
  | succ n ih =>
    unfold feedList
    repeat' split
    all_goals simp [ih]

@[simp] theorem feedScan_kept (s : State) :
    kept (feedScan s) = kept s := by
  simp only [feedScan]
  repeat' split
  all_goals simp_all

@[simp] theorem feedService_kept (s : State) (i : Nat) :
    kept (feedService s i) = kept s := by
  unfold feedService
  repeat' split
  all_goals simp

@[simp] theorem rackGo_kept (s : State) : kept (rackGo s) = kept s := by
  unfold rackGo
  simp

@[simp] theorem scanResult_kept (s : State) (i : Nat) (a : OutAccess) (ok : Bool) (data : List U32) :
    kept (scanResult s i a ok data) = kept s := by
  simp [scanResult]

@[simp] theorem rackDeliver_kept (s : State) (a : OutAccess) (code : Nat) :
    kept (rackDeliver s a code) = kept s := by
  unfold rackDeliver
  repeat' split
  all_goals simp

@[simp] theorem rackEnd_kept (s : State) (a : OutAccess) (code : Nat) :
    kept (rackEnd s a code) = kept s := by
  simp [rackEnd]

@[simp] theorem rackAnswers_kept (l : List (BitVec 2 × U32)) (s : State) (a : OutAccess) :
    kept (rackAnswers l s a) = kept s := by
  induction l generalizing s a with
  | nil => rfl
  | cons x r ih =>
    obtain ⟨rsp, v⟩ := x
    unfold rackAnswers
    dsimp only
    repeat' split
    all_goals simp [ih]

@[simp] theorem rackAbort_kept (s : State) :
    kept (rackAbort s) = kept s := by
  unfold rackAbort
  dsimp only
  rw [kept_foldl _ (fun s x => by simp)]
  simp

@[simp] theorem execRackLockWrite_kept (m : Master) (data : U32) (s : State) :
    keptO (execRackLockWrite m data s) = some (kept s) := by
  simp [execRackLockWrite]

@[simp] theorem execRackLockTimeout_kept (s : State) :
    keptO (execRackLockTimeout s) = some (kept s) := by
  simp [execRackLockTimeout]

@[simp] theorem execRackGrant_kept (s : State) :
    keptO (execRackGrant s) = some (kept s) := by
  unfold execRackGrant
  refine live_kept _ _ _ ?_
  repeat' split
  all_goals simp_all

@[simp] theorem execRackBusAccessDone_kept (answers : List (BitVec 2 × U32)) (s : State) :
    keptO (execRackBusAccessDone answers s) = some (kept s) := by
  unfold execRackBusAccessDone
  refine live_kept _ _ _ ?_
  repeat' split
  all_goals simp

@[simp] theorem execRackScanStart_kept (s : State) :
    keptO (execRackScanStart s) = some (kept s) := by
  unfold execRackScanStart
  split <;> simp

@[simp] theorem rackAnswer_kept (s : State) (rsp : BitVec 2) (data : U32) :
    kept (rackAnswer s rsp data) = kept s := by
  simp [rackAnswer]

@[simp] theorem rackHeld_kept (s : State) (locked : Bool) :
    kept (rackHeld s locked) = kept s := by
  simp [rackHeld]

theorem rackPosted_kept (s : State) (offset : Nat) (byteEn : BitVec 4) (data : U32) (t : State)
    (h : rackPosted s offset byteEn data = some t) : kept t = kept s := by
  unfold rackPosted at h
  split at h <;> cases h
  simp

@[simp] theorem execInboundWrite_kept (addr : U32) (byteEn : BitVec 4) (data : U32) (locked : Bool) (s : State) :
    keptO (execInboundWrite addr byteEn data locked s) = some (kept s) := by
  unfold execInboundWrite
  refine live_kept _ _ _ ?_
  split
  · split
    · rename_i h
      have := rackPosted_kept _ _ _ _ _ h
      simp_all
    · simp
  · simp

@[simp] theorem rackApply_kept (s : State) (w : InWrite) :
    kept (rackApply s w) = kept s := by
  simp [rackApply]

@[simp] theorem execInboundDrain_kept (s : State) :
    keptO (execInboundDrain s) = some (kept s) := by
  unfold execInboundDrain
  split <;> simp

@[simp] theorem pfRead_kept (s : State) (k : Fin 8) (o width : Nat) :
    kept (pfRead s k o width) = kept s := by
  simp only [pfRead]
  repeat' split
  all_goals simp_all

@[simp] theorem drStart_kept (s : State) (o width : Nat) :
    kept (drStart s o width) = kept s := by
  simp only [drStart]
  repeat' split
  all_goals simp_all

@[simp] theorem drRead_kept (s : State) (o width : Nat) :
    kept (drRead s o width) = kept s := by
  simp only [drRead]
  repeat' split
  all_goals simp_all

@[simp] theorem execInboundRead_kept (addr : U32) (width : Nat) (locked : Bool) (s : State) :
    keptO (execInboundRead addr width locked s) = some (kept s) := by
  unfold execInboundRead
  repeat' split
  all_goals simp

@[simp] theorem execPfRefillDone_kept (window : Fin 8) (s : State) :
    keptO (execPfRefillDone window s) = some (kept s) := by
  unfold execPfRefillDone
  refine live_kept _ _ _ ?_
  repeat' split
  all_goals simp_all

@[simp] theorem execDelayedReadDone_kept (buffer : Fin 4) (s : State) :
    keptO (execDelayedReadDone buffer s) = some (kept s) := by
  unfold execDelayedReadDone
  refine live_kept _ _ _ ?_
  repeat' split
  all_goals simp_all

@[simp] theorem execDrExpire_kept (buffer : Fin 4) (s : State) :
    keptO (execDrExpire buffer s) = some (kept s) := by
  unfold execDrExpire
  refine live_kept _ _ _ ?_
  repeat' split
  all_goals simp_all

@[simp] theorem execRbIrqPoll_kept (lines : BitVec 8) (s : State) :
    keptO (execRbIrqPoll lines s) = some (kept s) := by
  simp [execRbIrqPoll]

@[simp] theorem monitorRead_kept (s : State) (addr : U32) (data : List U32) :
    kept (monitorRead s addr data) = kept s := by
  unfold monitorRead
  split
  · split
    · rw [kept_foldl]
      intro s e
      rfl
    · rfl
  · rfl

@[simp] theorem monitorWrite_kept (s : State) (offset : Nat) (byteEn : BitVec 4) (data : U32) :
    kept (monitorWrite s offset byteEn data) = kept s := by
  unfold monitorWrite
  split
  · exact rackPosted_kept _ _ _ _ _ (by assumption)
  · rfl

@[simp] theorem monitorList_kept (s : State) (addr : U32) (byteEn : BitVec 4) (data : U32) :
    kept (monitorList s addr byteEn data) = kept s := by
  simp only [monitorList]
  repeat' split
  all_goals simp_all

@[simp] theorem execRackMonitorCycle_kept (cmd : BitVec 4) (addr : U32) (byteEn : BitVec 4) (data : List U32) (rsp : BitVec 2) (wl : Bool) (s : State) :
    keptO (execRackMonitorCycle cmd addr byteEn data rsp wl s) = some (kept s) := by
  simp [execRackMonitorCycle]

@[simp] theorem execRbClkLoss_kept (s : State) :
    keptO (execRbClkLoss s) = some (kept s) := by
  simp [execRbClkLoss]

@[simp] theorem execRbClkReturn_kept (s : State) :
    keptO (execRbClkReturn s) = some (kept s) := by
  simp [execRbClkReturn]

@[simp] theorem rackAnswerFault_kept (s : State) : kept (rackAnswerFault s) = kept s := by
  unfold rackAnswerFault
  refine kept_foldl _ (fun s i => ?_) _ _
  split
  · split <;> simp
  · rfl

@[simp] theorem execRackBridgeFail_kept (s : State) :
    keptO (execRackBridgeFail s) = some (kept s) := by
  simp [execRackBridgeFail]

@[simp] theorem scanSignals_kept (s : State) (e : ScanEntry) (v : ScanValue) :
    kept (scanSignals s e v) = kept s := by
  simp [scanSignals]

@[simp] theorem rangeSignals_kept (s : State) (r : RackRange) :
    kept (rangeSignals s r) = kept s := by
  simp [rangeSignals]

@[simp] theorem rackScanEnd_kept (s : State) :
    kept (rackScanEnd s) = kept s := by
  unfold rackScanEnd
  dsimp only
  repeat' split
  all_goals simp

@[simp] theorem rackYield_kept (s : State) :
    kept (rackYield s) = kept s := by
  simp [rackYield]

@[simp] theorem latchRack_kept (s : State) :
    kept (latchRack s) = kept s := by
  unfold latchRack
  split <;> simp

@[simp] theorem rackRelease_kept (s : State) (epoch : Word) (bytes : List Byte) :
    kept (rackRelease s epoch bytes) = kept s := by
  simp [rackRelease]

@[simp] theorem rackTake_kept (s : State) :
    kept (rackTake s) = kept s := by
  simp [rackTake]

@[simp] theorem execRackGetStatus_kept (pair : PairId) (s : State) :
    keptO (execRackGetStatus pair s) = some (kept s) := by
  unfold execRackGetStatus
  refine serve_kept _ _ _ _ (fun s p => ?_)
  first | rfl | (repeat' split) <;> first | rfl | simp

@[simp] theorem rackServiceBody_kept (write : Bool) (s : State) (p : List Byte) : kept (rackServiceBody write s p).1 = kept s := by
  unfold rackServiceBody
  repeat' split
  all_goals simp

@[simp] theorem serveRack_kept (s : State) (pair : PairId) (c : CmdSpec) (write : Bool) :
    keptO (serveRack s pair c write) = some (kept s) := by
  have h := serve_kept s pair c (rackServiceBody write) (fun s p => by simp)
  unfold serveRack
  revert h
  generalize serve s pair c (rackServiceBody write) = o
  intro h
  cases o with
  | next t =>
    simp only [keptO_next, Option.some.injEq] at h
    dsimp only
    split <;> simp [h]
  | fault => simpa using h
  | refused => simpa using h

@[simp] theorem execRackRead_kept (pair : PairId) (s : State) :
    keptO (execRackRead pair s) = some (kept s) := by
  simp [execRackRead]

@[simp] theorem execRackWrite_kept (pair : PairId) (s : State) :
    keptO (execRackWrite pair s) = some (kept s) := by
  simp [execRackWrite]

@[simp] theorem execRackGetLog_kept (pair : PairId) (s : State) :
    keptO (execRackGetLog pair s) = some (kept s) := by
  unfold execRackGetLog
  refine serve_kept _ _ _ _ (fun s p => ?_)
  first | rfl | (repeat' split) <;> first | rfl | simp

@[simp] theorem execRackClear_kept (pair : PairId) (s : State) :
    keptO (execRackClear pair s) = some (kept s) := by
  unfold execRackClear
  refine serve_kept _ _ _ _ (fun s p => ?_)
  first | rfl | (repeat' split) <;> first | rfl | simp

@[simp] theorem execRackSetPoll_kept (pair : PairId) (s : State) :
    keptO (execRackSetPoll pair s) = some (kept s) := by
  unfold execRackSetPoll
  refine serve_kept _ _ _ _ (fun s p => ?_)
  first | rfl | (repeat' split) <;> first | rfl | simp

@[simp] theorem execRackSetPf_kept (pair : PairId) (s : State) :
    keptO (execRackSetPf pair s) = some (kept s) := by
  unfold execRackSetPf
  refine serve_kept _ _ _ _ (fun s p => ?_)
  dsimp only
  repeat' split
  all_goals simp_all

end Sys2Proof.Machine
end

