-- ==== Sys2Proof/Laws/KeptStart.lean ====
section
/-! SUPPORT. What the recorder, containers, image sets, the start of the module, its power and its updates keep: the identity and the waiting commands. -/

namespace Sys2Proof.Machine

open Sys2Proof

@[simp] theorem runRecord_kept (body : Body) (s : State) (p : List Byte) (h : ∀ s p, kept (body s p).1 = kept s) :
    kept (runRecord body s p) = kept s := by
  simp [runRecord, h]

@[simp] theorem timeRecord_kept (s : State) (r : CtRecord) :
    kept (timeRecord s r) = kept s := by
  unfold timeRecord
  split <;> simp

@[simp] theorem netRecord_kept (s : State) (r : CtRecord) :
    kept (netRecord s r) = kept s := by
  unfold netRecord
  repeat' split
  all_goals simp

@[simp] theorem disablePorts_kept (s : State) :
    kept (disablePorts s) = kept s := by
  simp [disablePorts]

@[simp] theorem loadNet_kept (s : State) (c : List Byte) :
    kept (loadNet s c) = kept s := by
  unfold loadNet
  split <;> simp

@[simp] theorem loadRack_kept (s : State) (c : List Byte) :
    kept (loadRack s c) = kept s := by
  unfold loadRack
  split <;> simp

@[simp] theorem loadFio_kept (s : State) (c : List Byte) :
    kept (loadFio s c) = kept s := by
  unfold loadFio
  split <;> simp

@[simp] theorem loadSafe_kept (s : State) (c : List Byte) :
    kept (loadSafe s c) = kept s := by
  unfold loadSafe
  split <;> simp

@[simp] theorem loadMuslin_kept (s : State) (c : List Byte) :
    kept (loadMuslin s c) = kept s := by
  unfold loadMuslin
  split <;> simp

@[simp] theorem loadLevels_kept (s : State) (c : List Byte) :
    kept (loadLevels s c) = kept s := by
  unfold loadLevels
  split <;> simp

@[simp] theorem recSetBody_kept (s : State) (p : List Byte) : kept (recSetBody s p).1 = kept s := by
  unfold recSetBody
  split <;> simp

@[simp] theorem loadRoutes_kept (s : State) (c : List Byte) :
    kept (loadRoutes s c) = kept s := by
  unfold loadRoutes
  split <;> simp

@[simp] theorem loadContainer_kept (s : State) (c : List Byte) :
    kept (loadContainer s c) = kept s := by
  unfold loadContainer
  split <;> simp

@[simp] theorem loadHeader_kept (s : State) :
    kept (loadHeader s) = kept s := by
  simp [loadHeader]

@[simp] theorem loadSet_kept (s : State) :
    kept (loadSet s) = kept s := by
  simp [loadSet]

@[simp] theorem dirWrite_kept (s : State) (r : DirRecord) :
    kept (dirWrite s r) = kept s := by
  simp [dirWrite]

@[simp] theorem dirBank_kept (s : State) (b : BankState) :
    kept (dirBank s b) = kept s := by
  simp [dirBank]

@[simp] theorem dirCommit_kept (s : State) (i : Fin 2) (fw : U32) :
    kept (dirCommit s i fw) = kept s := by
  simp [dirCommit]

@[simp] theorem completePending_kept (s : State) (fw : U32) :
    kept (completePending s fw) = kept s := by
  unfold completePending
  split <;> simp

@[simp] theorem cleared_kept (s : State) (cause : BitVec 8) (env : StartEnv) :
    kept (cleared s cause env) = kept s := by
  simp [cleared]

@[simp] theorem relockAtReset_kept (s : State) (old : State) (cause : BitVec 8) :
    kept (relockAtReset s old cause) = kept s := by
  simp [relockAtReset]

@[simp] theorem firstSample_kept (s : State) (cause : BitVec 8) (env : StartEnv) :
    kept (firstSample s cause env) = kept s := by
  simp [firstSample]

@[simp] theorem enterRecovery_kept (s : State) (reason step : Nat) :
    kept (enterRecovery s reason step) = kept s := by
  simp [enterRecovery]

@[simp] theorem startRecorder_kept (s : State) (lost : Nat × Word) :
    kept (startRecorder s lost) = kept s := by
  simp [startRecorder]

@[simp] theorem selectContainer_kept (s : State) :
    kept (selectContainer s).1 = kept s := by
  simp only [selectContainer]
  repeat' split
  all_goals simp_all

@[simp] theorem loadLanes_kept (s : State) :
    kept (loadLanes s) = kept s := by
  unfold loadLanes
  refine kept_foldl _ (fun s x => ?_) _ _
  dsimp only
  repeat' split
  all_goals simp_all

@[simp] theorem laneTests_kept (s : State) (env : StartEnv) :
    kept (laneTests s env) = kept s := by
  simp [laneTests]

@[simp] theorem finishStart_kept (s : State) (env : StartEnv) (lost : Nat × Word) :
    kept (finishStart s env lost) = kept s := by
  simp [finishStart]

@[simp] theorem unconfigured_kept (s : State) (check : Nat) :
    kept (unconfigured s check) = kept s := by
  simp [unconfigured]

@[simp] theorem configured_kept (s : State) (c : List Byte) :
    kept (configured s c) = kept s := by
  unfold configured
  repeat' split
  all_goals simp

@[simp] theorem stepSeven_kept (s : State) : kept (stepSeven s) = kept s := by
  have hc := selectContainer_kept (loadSet (loadHeader s))
  unfold stepSeven
  dsimp only
  split
  · simp
  · split <;> rename_i h <;> rw [h] at hc
    · simp_all
    · split <;> simp_all

@[simp] theorem laterSteps_kept (s : State) (env : StartEnv) (lost : Nat × Word) :
    kept (laterSteps s env lost) = kept s := by
  simp [laterSteps]

@[simp] theorem earlySteps_kept (s : State) (env : StartEnv) (lost : Nat × Word) :
    kept (earlySteps s env lost) = kept s := by
  simp only [earlySteps]
  repeat' split
  all_goals simp_all

@[simp] theorem refuseStart_kept (s : State) :
    kept (refuseStart s) = kept s := by
  simp [refuseStart]

@[simp] theorem stayUnitSafe_kept (old : State) (cause : BitVec 8) (s : State) :
    kept (stayUnitSafe old cause s) = kept s := by
  unfold stayUnitSafe
  split <;> simp

@[simp] theorem startModule_kept (s : State) (cause : BitVec 8) (env : StartEnv) :
    kept (startModule s cause env) = kept s := by
  simp [startModule]

@[simp] theorem powerOn_kept (s : State) (feed : Feed) (env : StartEnv) :
    kept (powerOn s feed env) = kept s := by
  simp [powerOn]

@[simp] theorem execPowerOn_kept (feed : Feed) (env : StartEnv) (s : State) :
    keptO (execPowerOn feed env s) = some (kept s) := by
  simp [execPowerOn]

@[simp] theorem execModuleReset_kept (cause : BitVec 8) (env : StartEnv) (s : State) :
    keptO (execModuleReset cause env s) = some (kept s) := by
  simp [execModuleReset]

@[simp] theorem execResetRequest_kept (lows : Nat) (env : StartEnv) (s : State) :
    keptO (execResetRequest lows env s) = some (kept s) := by
  simp [execResetRequest]

@[simp] theorem execRstStuck_kept (s : State) :
    keptO (execRstStuck s) = some (kept s) := by
  simp [execRstStuck]

@[simp] theorem execRstUnstuck_kept (s : State) :
    keptO (execRstUnstuck s) = some (kept s) := by
  simp [execRstUnstuck]

@[simp] theorem execHeartbeatWrite_kept (_data : U32) (s : State) :
    keptO (execHeartbeatWrite _data s) = some (kept s) := by
  simp [execHeartbeatWrite]

@[simp] theorem execHeartbeatTimeout_kept (s : State) :
    keptO (execHeartbeatTimeout s) = some (kept s) := by
  simp [execHeartbeatTimeout]

@[simp] theorem execRefLoss_kept (s : State) :
    keptO (execRefLoss s) = some (kept s) := by
  simp [execRefLoss]

@[simp] theorem execSupervisorRestart_kept (env : StartEnv) (s : State) :
    keptO (execSupervisorRestart env s) = some (kept s) := by
  simp [execSupervisorRestart]

@[simp] theorem execPd0SupervisorFault_kept (env : StartEnv) (s : State) :
    keptO (execPd0SupervisorFault env s) = some (kept s) := by
  simp [execPd0SupervisorFault]

@[simp] theorem execMoraineFlush_kept (s : State) :
    keptO (execMoraineFlush s) = some (kept s) := by
  simp [execMoraineFlush]

@[simp] theorem lossRecord_kept (s : State) (i : Fin 20) :
    kept (lossRecord s i) = kept s := by
  simp [lossRecord]

@[simp] theorem execRateWindowEnd_kept (s : State) :
    keptO (execRateWindowEnd s) = some (kept s) := by
  simp [execRateWindowEnd]

@[simp] theorem powerLossRecord_kept (s : State) (elapsed : Nat) :
    kept (powerLossRecord s elapsed) = kept s := by
  simp [powerLossRecord]

@[simp] theorem pwrEvent_kept (s : State) (bit : Nat) :
    kept (pwrEvent s bit) = kept s := by
  simp [pwrEvent]

@[simp] theorem pwrNoted_kept (s : State) (bit : Nat) :
    kept (pwrNoted s bit) = kept s := by
  simp [pwrNoted]

@[simp] theorem enterStage_kept (s : State) (stage : Nat) (backstop : Bool) :
    kept (enterStage s stage backstop) = kept s := by
  simp [enterStage]

@[simp] theorem stageOne_kept (s : State) :
    kept (stageOne s) = kept s := by
  simp [stageOne]

@[simp] theorem shedLane_kept (s : State) (l : LaneId) :
    kept (shedLane s l) = kept s := by
  simp [shedLane]

@[simp] theorem stageTwo_kept (s : State) (backstop : Bool) :
    kept (stageTwo s backstop) = kept s := by
  simp [stageTwo]

@[simp] theorem unlessFrozen_kept (s : State) (f : State → State) (h : ∀ s, kept (f s) = kept s) :
    kept (unlessFrozen s f) = kept s := by
  simp [unlessFrozen, h]

@[simp] theorem outputsOff_kept (s : State) :
    kept (outputsOff s) = kept s := by
  simp [outputsOff]

@[simp] theorem stageThreeActs_kept (s : State) :
    kept (stageThreeActs s) = kept s := by
  simp [stageThreeActs]

@[simp] theorem stageThree_kept (s : State) (backstop : Bool) :
    kept (stageThree s backstop) = kept s := by
  simp [stageThree]

@[simp] theorem logLoss_kept (s : State) (restored : Bool) :
    kept (logLoss s restored) = kept s := by
  simp [logLoss]

@[simp] theorem stageFive_kept (s : State) (backstop : Bool) :
    kept (stageFive s backstop) = kept s := by
  simp [stageFive]

@[simp] theorem evaluateStages_kept (s : State) :
    kept (evaluateStages s) = kept s := by
  simp [evaluateStages]

@[simp] theorem calvingEvent_kept (s : State) (us mj : Nat) (energy : BitVec 12) :
    kept (calvingEvent s us mj energy) = kept s := by
  unfold calvingEvent
  split <;> simp

@[simp] theorem execCalvingStage2_kept (energy : BitVec 12) (s : State) :
    keptO (execCalvingStage2 energy s) = some (kept s) := by
  simp [execCalvingStage2]

@[simp] theorem execCalvingStage3_kept (energy : BitVec 12) (s : State) :
    keptO (execCalvingStage3 energy s) = some (kept s) := by
  simp [execCalvingStage3]

@[simp] theorem execCalvingStage5_kept (energy : BitVec 12) (s : State) :
    keptO (execCalvingStage5 energy s) = some (kept s) := by
  simp [execCalvingStage5]

@[simp] theorem endMeasure_kept (s : State) :
    kept (endMeasure s) = kept s := by
  simp only [endMeasure]
  repeat' split
  all_goals simp_all

@[simp] theorem feedLoss_kept (s : State) :
    kept (feedLoss s) = kept s := by
  simp [feedLoss]

@[simp] theorem execFeedInvalid_kept (feed : Feed) (centivolts : BitVec 12) (s : State) :
    keptO (execFeedInvalid feed centivolts s) = some (kept s) := by
  simp [execFeedInvalid]

@[simp] theorem unshedLane_kept (s : State) (l : LaneId) :
    kept (unshedLane s l) = kept s := by
  unfold unshedLane
  split <;> simp

@[simp] theorem restore_kept (s : State) :
    kept (restore s) = kept s := by
  simp [restore]

@[simp] theorem calvedRestart_kept (s : State) (env : StartEnv) :
    kept (calvedRestart s env) = kept s := by
  simp [calvedRestart]

@[simp] theorem feedReturn_kept (s : State) (env : StartEnv) :
    kept (feedReturn s env) = kept s := by
  simp only [feedReturn]
  repeat' split
  all_goals simp_all

@[simp] theorem execFeedValid_kept (feed : Feed) (centivolts : BitVec 12) (env : StartEnv) (s : State) :
    keptO (execFeedValid feed centivolts env s) = some (kept s) := by
  simp [execFeedValid]

@[simp] theorem execFeedOver_kept (_feed : Feed) (s : State) :
    keptO (execFeedOver _feed s) = some (kept s) := by
  simp [execFeedOver]

@[simp] theorem execRestoreComplete_kept (s : State) :
    keptO (execRestoreComplete s) = some (kept s) := by
  simp [execRestoreComplete]

@[simp] theorem execHoldupTestDaily_kept (s : State) :
    keptO (execHoldupTestDaily s) = some (kept s) := by
  simp [execHoldupTestDaily]

@[simp] theorem execHoldupMeasureDone_kept (cap : BitVec 12) (s : State) :
    keptO (execHoldupMeasureDone cap s) = some (kept s) := by
  unfold execHoldupMeasureDone
  refine always_kept _ _ _ ?_
  repeat' split
  all_goals simp_all

@[simp] theorem execBankFull_kept (s : State) :
    keptO (execBankFull s) = some (kept s) := by
  simp [execBankFull]

@[simp] theorem execVbakLow_kept (millivolts : BitVec 12) (s : State) :
    keptO (execVbakLow millivolts s) = some (kept s) := by
  simp [execVbakLow]

@[simp] theorem execVbakReturn_kept (millivolts : BitVec 12) (s : State) :
    keptO (execVbakReturn millivolts s) = some (kept s) := by
  simp [execVbakReturn]

@[simp] theorem execPwrDrawRead_kept (s : State) :
    keptO (execPwrDrawRead s) = some (kept s) := by
  simp [execPwrDrawRead]

@[simp] theorem execSlotPinChange_kept (pins : BitVec 2) (s : State) :
    keptO (execSlotPinChange pins s) = some (kept s) := by
  simp [execSlotPinChange]

@[simp] theorem execCalvingFlushDone_kept (env : StartEnv) (s : State) :
    keptO (execCalvingFlushDone env s) = some (kept s) := by
  simp [execCalvingFlushDone]

@[simp] theorem execPwrGetStatus_kept (pair : PairId) (s : State) :
    keptO (execPwrGetStatus pair s) = some (kept s) := by
  unfold execPwrGetStatus
  refine serve_kept _ _ _ _ (fun s p => ?_)
  first | rfl | (repeat' split) <;> first | rfl | simp

@[simp] theorem execPwrSetPerf_kept (pair : PairId) (s : State) :
    keptO (execPwrSetPerf pair s) = some (kept s) := by
  unfold execPwrSetPerf
  refine serve_kept _ _ _ _ (fun s p => ?_)
  first | rfl | (repeat' split) <;> first | rfl | simp

@[simp] theorem execPwrHoldupTest_kept (pair : PairId) (s : State) :
    keptO (execPwrHoldupTest pair s) = some (kept s) := by
  unfold execPwrHoldupTest
  refine serve_kept _ _ _ _ (fun s p => ?_)
  first | rfl | (repeat' split) <;> first | rfl | simp

@[simp] theorem execPwrGetLog_kept (pair : PairId) (s : State) :
    keptO (execPwrGetLog pair s) = some (kept s) := by
  unfold execPwrGetLog
  refine serve_kept _ _ _ _ (fun s p => ?_)
  first | rfl | (repeat' split) <;> first | rfl | simp

@[simp] theorem execUpdGetStatus_kept (pair : PairId) (s : State) :
    keptO (execUpdGetStatus pair s) = some (kept s) := by
  unfold execUpdGetStatus
  refine serve_kept _ _ _ _ (fun s p => ?_)
  first | rfl | (repeat' split) <;> first | rfl | simp

@[simp] theorem updBeginBody_kept (pair : PairId) (s : State) (p : List Byte) : kept (updBeginBody pair s p).1 = kept s := by
  simp only [updBeginBody]
  repeat' split
  all_goals simp_all

@[simp] theorem execUpdBegin_kept (pair : PairId) (s : State) :
    keptO (execUpdBegin pair s) = some (kept s) := by
  simp [execUpdBegin]

@[simp] theorem updWriteBody_kept (pair : PairId) (s : State) (p : List Byte) : kept (updWriteBody pair s p).1 = kept s := by
  simp only [updWriteBody]
  repeat' split
  all_goals simp_all

@[simp] theorem execUpdWrite_kept (pair : PairId) (s : State) :
    keptO (execUpdWrite pair s) = some (kept s) := by
  simp [execUpdWrite]

@[simp] theorem updFinishBody_kept (pair : PairId) (s : State) (p : List Byte) : kept (updFinishBody pair s p).1 = kept s := by
  unfold updFinishBody
  repeat' split
  all_goals simp

@[simp] theorem execUpdFinish_kept (pair : PairId) (s : State) :
    keptO (execUpdFinish pair s) = some (kept s) := by
  simp [execUpdFinish]

@[simp] theorem updEnd_kept (s : State) (b : BankState) :
    kept (updEnd s b) = kept s := by
  simp [updEnd]

@[simp] theorem updAbortBody_kept (pair : PairId) (s : State) (p : List Byte) : kept (updAbortBody pair s p).1 = kept s := by
  unfold updAbortBody
  repeat' split
  all_goals simp

@[simp] theorem execUpdAbort_kept (pair : PairId) (s : State) :
    keptO (execUpdAbort pair s) = some (kept s) := by
  simp [execUpdAbort]

@[simp] theorem updDone_kept (s : State) (i : Nat) (job : LongJob) (ok : Bool) :
    kept (updDone s i job ok) = kept s := by
  unfold updDone
  repeat' split
  all_goals simp

@[simp] theorem execCfgGetStatus_kept (pair : PairId) (s : State) :
    keptO (execCfgGetStatus pair s) = some (kept s) := by
  unfold execCfgGetStatus
  refine serve_kept _ _ _ _ (fun s p => ?_)
  first | rfl | (repeat' split) <;> first | rfl | simp

@[simp] theorem stageBeginBody_kept (pair : PairId) (s : State) (p : List Byte) : kept (stageBeginBody pair s p).1 = kept s := by
  simp only [stageBeginBody]
  repeat' split
  all_goals simp_all

@[simp] theorem execCfgStageBegin_kept (pair : PairId) (s : State) :
    keptO (execCfgStageBegin pair s) = some (kept s) := by
  simp [execCfgStageBegin]

@[simp] theorem stageWriteBody_kept (pair : PairId) (s : State) (p : List Byte) : kept (stageWriteBody pair s p).1 = kept s := by
  simp only [stageWriteBody]
  repeat' split
  all_goals simp_all

@[simp] theorem execCfgStageWrite_kept (pair : PairId) (s : State) :
    keptO (execCfgStageWrite pair s) = some (kept s) := by
  simp [execCfgStageWrite]

@[simp] theorem stageFinishBody_kept (pair : PairId) (s : State) (p : List Byte) : kept (stageFinishBody pair s p).1 = kept s := by
  simp only [stageFinishBody]
  repeat' split
  all_goals simp_all

@[simp] theorem execCfgStageFinish_kept (pair : PairId) (s : State) :
    keptO (execCfgStageFinish pair s) = some (kept s) := by
  simp [execCfgStageFinish]

@[simp] theorem stageDone_kept (s : State) (i : Nat) :
    kept (stageDone s i) = kept s := by
  simp [stageDone]

@[simp] theorem execCfgRead_kept (pair : PairId) (s : State) :
    keptO (execCfgRead pair s) = some (kept s) := by
  unfold execCfgRead
  refine serve_kept _ _ _ _ (fun s p => ?_)
  first | rfl | (repeat' split) <;> first | rfl | simp

@[simp] theorem stageDiscardBody_kept (pair : PairId) (s : State) (p : List Byte) : kept (stageDiscardBody pair s p).1 = kept s := by
  unfold stageDiscardBody
  split <;> simp

@[simp] theorem execCfgDiscard_kept (pair : PairId) (s : State) :
    keptO (execCfgDiscard pair s) = some (kept s) := by
  simp [execCfgDiscard]

end Sys2Proof.Machine
end

