-- ==== Sys2Proof/Laws/KeptWeft.lean ====
section
/-! SUPPORT. What the links, membership, epochs and the boundary keep: the identity and the waiting commands. -/

namespace Sys2Proof.Machine

open Sys2Proof

@[simp] theorem reachStep_kept (s : State) (n : Nat) :
    kept (reachStep s n) = kept s := by
  simp [reachStep]

@[simp] theorem weftNoted_kept (s : State) (bit : Nat) :
    kept (weftNoted s bit) = kept s := by
  simp [weftNoted]

@[simp] theorem strangerCheck_kept (s : State) :
    kept (strangerCheck s) = kept s := by
  unfold strangerCheck
  split <;> simp

@[simp] theorem linkDown_kept (s : State) (sd : Side) :
    kept (linkDown s sd) = kept s := by
  simp [linkDown]

@[simp] theorem linkNegotiate_kept (s : State) (sd : Side) :
    kept (linkNegotiate s sd) = kept s := by
  simp [linkNegotiate]

@[simp] theorem execWeftBlockLock_kept (sd : Side) (s : State) :
    keptO (execWeftBlockLock sd s) = some (kept s) := by
  simp [execWeftBlockLock]

@[simp] theorem execWeftRetrain_kept (sd : Side) (s : State) :
    keptO (execWeftRetrain sd s) = some (kept s) := by
  simp [execWeftRetrain]

@[simp] theorem execWeftLockLost_kept (sd : Side) (s : State) :
    keptO (execWeftLockLost sd s) = some (kept s) := by
  simp [execWeftLockLost]

@[simp] theorem execWeftCrcRunDown_kept (sd : Side) (s : State) :
    keptO (execWeftCrcRunDown sd s) = some (kept s) := by
  simp [execWeftCrcRunDown]

@[simp] theorem execWeftSilenceDown_kept (sd : Side) (s : State) :
    keptO (execWeftSilenceDown sd s) = some (kept s) := by
  simp [execWeftSilenceDown]

@[simp] theorem execWeftLinkupTimeout_kept (sd : Side) (s : State) :
    keptO (execWeftLinkupTimeout sd s) = some (kept s) := by
  simp [execWeftLinkupTimeout]

@[simp] theorem execWeftRefusedRetry_kept (sd : Side) (s : State) :
    keptO (execWeftRefusedRetry sd s) = some (kept s) := by
  simp [execWeftRefusedRetry]

@[simp] theorem execWeftFrameSend_kept (sd : Side) (s : State) :
    keptO (execWeftFrameSend sd s) = some (kept s) := by
  simp only [execWeftFrameSend]
  repeat' split
  all_goals simp_all

@[simp] theorem frameDiscarded_kept (s : State) (sd : Side) :
    kept (frameDiscarded s sd) = kept s := by
  simp [frameDiscarded]

@[simp] theorem sendNak_kept (s : State) (sd : Side) (seq : U32) :
    kept (sendNak s sd seq) = kept s := by
  simp [sendNak]

@[simp] theorem noteSeq_kept (s : State) (sd : Side) (seq ack : U32) :
    kept (noteSeq s sd seq ack) = kept s := by
  simp [noteSeq]

@[simp] theorem execWeftFrameDiscard_kept (sd : Side) (why : Discard) (s : State) :
    keptO (execWeftFrameDiscard sd why s) = some (kept s) := by
  unfold execWeftFrameDiscard
  split <;> simp

@[simp] theorem takeFrame_kept (s : State) (sd : Side) (hd : WeftHdr) (p : List Byte) (need : Nat → Bool) (bound : Bool)
    (ok : Link → Bool) (f : State → State) (h : ∀ s, kept (f s) = kept s) :
    keptO (takeFrame s sd hd p need bound ok f) = some (kept s) := by
  unfold takeFrame
  refine live_kept _ _ _ ?_
  dsimp only
  repeat' split
  all_goals simp [h]

@[simp] theorem helloTaken_kept (s : State) (sd : Side) (h : Hello) :
    kept (helloTaken s sd h) = kept s := by
  simp [helloTaken]

@[simp] theorem execWeftHello_kept (sd : Side) (hdr : WeftHdr) (payload : List Byte) (s : State) :
    keptO (execWeftHello sd hdr payload s) = some (kept s) := by
  simp [execWeftHello]

@[simp] theorem notePeerKey_kept (s : State) (sd : Side) (key : List Byte) :
    kept (notePeerKey s sd key) = kept s := by
  unfold notePeerKey
  split <;> simp

@[simp] theorem execWeftIdent_kept (sd : Side) (hdr : WeftHdr) (payload : List Byte) (s : State) :
    keptO (execWeftIdent sd hdr payload s) = some (kept s) := by
  simp [execWeftIdent]

@[simp] theorem execWeftIdentResult_kept (sd : Side) (hdr : WeftHdr) (payload : List Byte) (s : State) :
    keptO (execWeftIdentResult sd hdr payload s) = some (kept s) := by
  simp [execWeftIdentResult]

@[simp] theorem linkStep_kept (s : State) (k : Link) :
    kept (linkStep s k) = kept s := by
  simp [linkStep]

@[simp] theorem strangerNotice_kept (s : State) (sd : Side) :
    kept (strangerNotice s sd) = kept s := by
  simp [strangerNotice]

@[simp] theorem linkUp_kept (s : State) (sd : Side) :
    kept (linkUp s sd) = kept s := by
  simp [linkUp]

@[simp] theorem execLinkupTb2Round_kept (sd : Side) (s : State) :
    keptO (execLinkupTb2Round sd s) = some (kept s) := by
  simp [execLinkupTb2Round]

@[simp] theorem syncServo_kept (s : State) :
    kept (syncServo s) = kept s := by
  unfold syncServo
  split <;> simp

@[simp] theorem syncDone_kept (s : State) :
    kept (syncDone s) = kept s := by
  simp [syncDone]

@[simp] theorem syncAnswer_kept (s : State) (sd : Side) (p : List Byte) :
    kept (syncAnswer s sd p) = kept s := by
  simp [syncAnswer]

@[simp] theorem syncResult_kept (s : State) (sd : Side) (p : List Byte) :
    kept (syncResult s sd p) = kept s := by
  simp [syncResult]

@[simp] theorem execWeftTb2Sync_kept (sd : Side) (hdr : WeftHdr) (payload : List Byte) (s : State) :
    keptO (execWeftTb2Sync sd hdr payload s) = some (kept s) := by
  simp [execWeftTb2Sync]

@[simp] theorem execTb2SyncSend_kept (s : State) :
    keptO (execTb2SyncSend s) = some (kept s) := by
  simp [execTb2SyncSend]

@[simp] theorem execWeftNak_kept (sd : Side) (hdr : WeftHdr) (payload : List Byte) (s : State) :
    keptO (execWeftNak sd hdr payload s) = some (kept s) := by
  simp [execWeftNak]

@[simp] theorem execWeftMailbox_kept (sd : Side) (hdr : WeftHdr) (payload : List Byte) (s : State) :
    keptO (execWeftMailbox sd hdr payload s) = some (kept s) := by
  simp [execWeftMailbox]

@[simp] theorem atInstant_kept (s : State) (ns : Nat) (ok : Bool) (f : State → State) (h : ∀ s, kept (f s) = kept s) :
    keptO (atInstant s ns ok f) = some (kept s) := by
  unfold atInstant
  refine live_kept _ _ _ ?_
  split <;> simp [h]

@[simp] theorem toVote_kept (s : State) (v : VoteState) :
    kept (toVote s v) = kept s := by
  simp [toVote]

@[simp] theorem selfExclude_kept (s : State) :
    kept (selfExclude s) = kept s := by
  simp [selfExclude]

@[simp] theorem condemned_kept (s : State) (sd : Side) :
    kept (condemned s sd) = kept s := by
  simp [condemned]

@[simp] theorem execCdnInHigh_kept (sd : Side) (s : State) :
    keptO (execCdnInHigh sd s) = some (kept s) := by
  simp [execCdnInHigh]

@[simp] theorem execCdnInStuck_kept (sd : Side) (s : State) :
    keptO (execCdnInStuck sd s) = some (kept s) := by
  simp [execCdnInStuck]

@[simp] theorem execCdnOutRelease_kept (s : State) :
    keptO (execCdnOutRelease s) = some (kept s) := by
  simp [execCdnOutRelease]

@[simp] theorem enterUnitSafe_kept (s : State) :
    kept (enterUnitSafe s) = kept s := by
  simp [enterUnitSafe]

@[simp] theorem tellUnitSafe_kept (s : State) :
    kept (tellUnitSafe s) = kept s := by
  unfold tellUnitSafe
  split <;> simp

@[simp] theorem execWeftUnitSafe_kept (sd : Side) (hdr : WeftHdr) (payload : List Byte) (s : State) :
    keptO (execWeftUnitSafe sd hdr payload s) = some (kept s) := by
  simp [execWeftUnitSafe]

@[simp] theorem execWeftCondemn_kept (sd : Side) (hdr : WeftHdr) (payload : List Byte) (s : State) :
    keptO (execWeftCondemn sd hdr payload s) = some (kept s) := by
  simp [execWeftCondemn]

@[simp] theorem putImage_kept (s : State) (sd : Side) (off : Nat) (bs : List Byte) :
    kept (putImage s sd off bs) = kept s := by
  unfold putImage
  split <;> simp

@[simp] theorem execWeftRaw_kept (sd : Side) (hdr : WeftHdr) (payload : List Byte) (s : State) :
    keptO (execWeftRaw sd hdr payload s) = some (kept s) := by
  simp [execWeftRaw]

@[simp] theorem execWeftRxReport_kept (sd : Side) (hdr : WeftHdr) (payload : List Byte) (s : State) :
    keptO (execWeftRxReport sd hdr payload s) = some (kept s) := by
  simp [execWeftRxReport]

@[simp] theorem digestTaken_kept (s : State) (sd : Side) (d : DigestFrame) :
    kept (digestTaken s sd d) = kept s := by
  simp [digestTaken]

@[simp] theorem digestLogged_kept (s : State) (sd : Side) (d : DigestFrame) (equal : U16) :
    kept (digestLogged s sd d equal) = kept s := by
  simp [digestLogged]

@[simp] theorem execWeftDigest_kept (sd : Side) (hdr : WeftHdr) (payload : List Byte) (s : State) :
    keptO (execWeftDigest sd hdr payload s) = some (kept s) := by
  simp [execWeftDigest]

@[simp] theorem execWeftCatchup_kept (sd : Side) (hdr : WeftHdr) (payload : List Byte) (s : State) :
    keptO (execWeftCatchup sd hdr payload s) = some (kept s) := by
  simp [execWeftCatchup]

@[simp] theorem exchangeSide_kept (s : State) (sd : Side) :
    kept (exchangeSide s sd) = kept s := by
  simp [exchangeSide]

@[simp] theorem execExchangeEnd_kept (s : State) :
    keptO (execExchangeEnd s) = some (kept s) := by
  simp [execExchangeEnd]

@[simp] theorem execSourceSetCompute_kept (s : State) :
    keptO (execSourceSetCompute s) = some (kept s) := by
  simp [execSourceSetCompute]

@[simp] theorem sealLane_kept (s : State) (l : LaneId) :
    kept (sealLane s l) = kept s := by
  simp [sealLane]

@[simp] theorem sourceReads_kept (s : State) :
    kept (sourceReads s) = kept s := by
  unfold sourceReads
  dsimp only
  rw [kept_foldl]
  · split <;> simp
  · intro s sd
    split <;> simp

@[simp] theorem sealNow_kept (s : State) :
    kept (sealNow s) = kept s := by
  simp [sealNow]

@[simp] theorem execSeal_kept (s : State) :
    keptO (execSeal s) = some (kept s) := by
  simp [execSeal]

@[simp] theorem execBudgetWarning_kept (s : State) :
    keptO (execBudgetWarning s) = some (kept s) := by
  simp [execBudgetWarning]

@[simp] theorem deadlineLane_kept (s : State) (l : LaneId) :
    kept (deadlineLane s l) = kept s := by
  simp only [deadlineLane]
  repeat' split
  all_goals simp_all

@[simp] theorem execCommitDeadline_kept (s : State) :
    keptO (execCommitDeadline s) = some (kept s) := by
  simp [execCommitDeadline]

@[simp] theorem withAudit_kept (s : State) :
    kept (withAudit s) = kept s := by
  unfold withAudit
  split <;> simp

@[simp] theorem laneDigests_kept (s : State) (l : LaneId) :
    kept (laneDigests s l) = kept s := by
  unfold laneDigests
  dsimp only
  rw [kept_mk, kept_foldl]
  intro s g
  repeat' split
  all_goals simp

@[simp] theorem execDigestReady_kept (lane : LaneId) (s : State) :
    keptO (execDigestReady lane s) = some (kept s) := by
  simp [execDigestReady]

@[simp] theorem execOwnDigestDeadline_kept (s : State) :
    keptO (execOwnDigestDeadline s) = some (kept s) := by
  simp [execOwnDigestDeadline]

@[simp] theorem decideAll_kept (s : State) :
    kept (decideAll s) = kept s := by
  simp [decideAll]

@[simp] theorem condemnSlot_kept (s : State) (slot : Nat) :
    kept (condemnSlot s slot) = kept s := by
  simp only [condemnSlot]
  repeat' split
  all_goals simp_all

@[simp] theorem condemnAll_kept (s : State) :
    kept (condemnAll s) = kept s := by
  simp [condemnAll]

@[simp] theorem receiverDone_kept (s : State) :
    kept (receiverDone s) = kept s := by
  simp [receiverDone]

@[simp] theorem admitOwn_kept (s : State) :
    kept (admitOwn s) = kept s := by
  unfold admitOwn
  repeat' split
  all_goals simp

@[simp] theorem admitLanes_kept (s : State) :
    kept (admitLanes s) = kept s := by
  simp [admitLanes]

@[simp] theorem admitPeer_kept (s : State) (source : Bool) (sd : Side) :
    kept (admitPeer s source sd) = kept s := by
  unfold admitPeer
  dsimp only
  repeat' split
  all_goals simp

@[simp] theorem notePeerQuiet_kept (s : State) (sd : Side) :
    kept (notePeerQuiet s sd) = kept s := by
  simp [notePeerQuiet]

@[simp] theorem noteDisagree_kept (s : State) :
    kept (noteDisagree s) = kept s := by
  unfold noteDisagree
  dsimp only
  repeat' split
  all_goals simp

@[simp] theorem logForeign_kept (s : State) (sd : Side) :
    kept (logForeign s sd) = kept s := by
  unfold logForeign
  dsimp only
  repeat' split
  all_goals simp

@[simp] theorem voteClose_kept (s : State) :
    kept (voteClose s) = kept s := by
  simp [voteClose]

@[simp] theorem execVoteClose_kept (s : State) :
    keptO (execVoteClose s) = some (kept s) := by
  simp [execVoteClose]

@[simp] theorem allCaughtUp_kept (s : State) :
    kept (allCaughtUp s) = kept s := by
  simp [allCaughtUp]

@[simp] theorem enterCatchup_kept (s : State) :
    kept (enterCatchup s) = kept s := by
  simp [enterCatchup]

@[simp] theorem enterAdmitting_kept (s : State) :
    kept (enterAdmitting s) = kept s := by
  simp [enterAdmitting]

@[simp] theorem enterVoter_kept (s : State) :
    kept (enterVoter s) = kept s := by
  simp [enterVoter]

@[simp] theorem voterNext_kept (s : State) (m : MemberView) :
    kept (voterNext s m) = kept s := by
  unfold voterNext
  dsimp only
  repeat' split
  all_goals simp

@[simp] theorem ownNext_kept (s : State) (m : MemberView) :
    kept (ownNext s m) = kept s := by
  simp only [ownNext]
  repeat' split
  all_goals simp_all

@[simp] theorem noteLinksDown_kept (s : State) :
    kept (noteLinksDown s) = kept s := by
  simp [noteLinksDown]

@[simp] theorem members_kept (s : State) :
    kept (members s) = kept s := by
  simp [members]

@[simp] theorem exchangeLane_kept (s : State) (l : LaneId) :
    kept (exchangeLane s l) = kept s := by
  simp [exchangeLane]

@[simp] theorem commitRetained_kept (s : State) :
    kept (commitRetained s) = kept s := by
  simp [commitRetained]

@[simp] theorem laneRestart_kept (s : State) (l : LaneId) :
    kept (laneRestart s l) = kept s := by
  unfold laneRestart
  split <;> simp

@[simp] theorem laneBoundary_kept (wait : Bool) (s : State) (l : LaneId) :
    kept (laneBoundary wait s l) = kept s := by
  simp only [laneBoundary]
  repeat' split
  all_goals simp_all

@[simp] theorem laneAdmitted_kept (s : State) (l : LaneId) :
    kept (laneAdmitted s l) = kept s := by
  simp [laneAdmitted]

@[simp] theorem areaReads_kept (s : State) :
    kept (areaReads s) = kept s := by
  unfold areaReads
  dsimp only
  rw [kept_foldl]
  · simp
  · intro s l
    split <;> simp

@[simp] theorem lanesBoundary_kept (s : State) :
    kept (lanesBoundary s) = kept s := by
  simp [lanesBoundary]

@[simp] theorem mboxLane_kept (ok : Bool) (s : State) (i : Nat) :
    kept (mboxLane ok s i) = kept s := by
  simp [mboxLane]

@[simp] theorem mboxBoundary_kept (s : State) (ok : List Bool) :
    kept (mboxBoundary s ok) = kept s := by
  simp [mboxBoundary]

@[simp] theorem clearEpoch_kept (s : State) :
    kept (clearEpoch s) = kept s := by
  unfold clearEpoch
  split <;> simp

@[simp] theorem weftRequests_kept (s : State) :
    kept (weftRequests s) = kept s := by
  simp [weftRequests]

@[simp] theorem serveLink_kept (s : State) (sd : Side) :
    kept (serveLink s sd) = kept s := by
  simp [serveLink]

@[simp] theorem catchupSend_kept (s : State) (sd : Side) :
    kept (catchupSend s sd) = kept s := by
  simp [catchupSend]

@[simp] theorem catchupBoundary_kept (s : State) :
    kept (catchupBoundary s) = kept s := by
  simp [catchupBoundary]

@[simp] theorem roleBoundary_kept (s : State) :
    kept (roleBoundary s) = kept s := by
  simp [roleBoundary]

@[simp] theorem rackBoundary_kept (s : State) (epoch : Word) :
    kept (rackBoundary s epoch) = kept s := by
  unfold rackBoundary
  split <;> simp

@[simp] theorem publishScope_kept (s : State) (unit : Bool) :
    kept (publishScope s unit) = kept s := by
  simp [publishScope]

@[simp] theorem netBoundary_kept (s : State) (live started : Bool) (epoch : Word) :
    kept (netBoundary s live started epoch) = kept s := by
  simp [netBoundary]

@[simp] theorem releaseBoundary_kept (s : State) (live : Bool) :
    kept (releaseBoundary s live) = kept s := by
  simp [releaseBoundary]

@[simp] theorem latchBoundary_kept (prev s : State) : kept (latchBoundary prev s) = kept s := by
  simp [latchBoundary]

@[simp] theorem beginEpoch_kept (s : State) :
    kept (beginEpoch s) = kept s := by
  simp [beginEpoch]

@[simp] theorem sendRawPart_kept (s : State) (off n : Nat) :
    kept (sendRawPart s off n) = kept s := by
  simp [sendRawPart]

@[simp] theorem boundaryNow_kept (s : State) :
    kept (boundaryNow s) = kept s := by
  simp [boundaryNow]

@[simp] theorem execBoundary_kept (s : State) :
    keptO (execBoundary s) = some (kept s) := by
  simp [execBoundary]

@[simp] theorem latchDeliveries_kept (s : State) :
    kept (latchDeliveries s) = kept s := by
  simp [latchDeliveries]

@[simp] theorem rawCloseNow_kept (s : State) :
    kept (rawCloseNow s) = kept s := by
  simp [rawCloseNow]

@[simp] theorem execRawClose_kept (s : State) :
    keptO (execRawClose s) = some (kept s) := by
  simp [execRawClose]

@[simp] theorem execRoleStart_kept (s : State) :
    keptO (execRoleStart s) = some (kept s) := by
  simp only [execRoleStart]
  repeat' split
  all_goals simp_all

@[simp] theorem execEpochGetConfig_kept (pair : PairId) (s : State) :
    keptO (execEpochGetConfig pair s) = some (kept s) := by
  unfold execEpochGetConfig
  refine serve_kept _ _ _ _ (fun s p => ?_)
  first | rfl | (repeat' split) <;> first | rfl | simp

@[simp] theorem execEpochGetStatus_kept (pair : PairId) (s : State) :
    keptO (execEpochGetStatus pair s) = some (kept s) := by
  unfold execEpochGetStatus
  refine serve_kept _ _ _ _ (fun s p => ?_)
  first | rfl | (repeat' split) <;> first | rfl | simp

@[simp] theorem execEpochGetMargin_kept (pair : PairId) (s : State) :
    keptO (execEpochGetMargin pair s) = some (kept s) := by
  unfold execEpochGetMargin
  refine serve_kept _ _ _ _ (fun s p => ?_)
  first | rfl | (repeat' split) <;> first | rfl | simp

@[simp] theorem clearCountersBody_kept (s : State) (p : List Byte) : kept (clearCountersBody s p).1 = kept s := by
  unfold clearCountersBody
  split <;> simp

@[simp] theorem execEpochClearCounters_kept (pair : PairId) (s : State) :
    keptO (execEpochClearCounters pair s) = some (kept s) := by
  simp [execEpochClearCounters]

@[simp] theorem setWarnBody_kept (s : State) (p : List Byte) : kept (setWarnBody s p).1 = kept s := by
  unfold setWarnBody
  split <;> simp

@[simp] theorem execEpochSetWarn_kept (pair : PairId) (s : State) :
    keptO (execEpochSetWarn pair s) = some (kept s) := by
  simp [execEpochSetWarn]

@[simp] theorem execVoteGetStatus_kept (pair : PairId) (s : State) :
    keptO (execVoteGetStatus pair s) = some (kept s) := by
  unfold execVoteGetStatus
  refine serve_kept _ _ _ _ (fun s p => ?_)
  first | rfl | (repeat' split) <;> first | rfl | simp

@[simp] theorem execVoteGetLinks_kept (pair : PairId) (s : State) :
    keptO (execVoteGetLinks pair s) = some (kept s) := by
  unfold execVoteGetLinks
  refine serve_kept _ _ _ _ (fun s p => ?_)
  first | rfl | (repeat' split) <;> first | rfl | simp

@[simp] theorem execVoteGetGroups_kept (pair : PairId) (s : State) :
    keptO (execVoteGetGroups pair s) = some (kept s) := by
  unfold execVoteGetGroups
  refine serve_kept _ _ _ _ (fun s p => ?_)
  first | rfl | (repeat' split) <;> first | rfl | simp

@[simp] theorem withdrawBody_kept (s : State) (p : List Byte) : kept (withdrawBody s p).1 = kept s := by
  unfold withdrawBody
  repeat' split
  all_goals simp

@[simp] theorem execVoteWithdraw_kept (pair : PairId) (s : State) :
    keptO (execVoteWithdraw pair s) = some (kept s) := by
  simp [execVoteWithdraw]

@[simp] theorem rejoinBody_kept (s : State) (p : List Byte) : kept (rejoinBody s p).1 = kept s := by
  unfold rejoinBody
  repeat' split
  all_goals simp

@[simp] theorem execVoteRejoin_kept (pair : PairId) (s : State) :
    keptO (execVoteRejoin pair s) = some (kept s) := by
  simp [execVoteRejoin]

@[simp] theorem resumeBody_kept (s : State) (p : List Byte) : kept (resumeBody s p).1 = kept s := by
  unfold resumeBody
  split <;> simp

@[simp] theorem execVoteResumeGroup_kept (pair : PairId) (s : State) :
    keptO (execVoteResumeGroup pair s) = some (kept s) := by
  simp [execVoteResumeGroup]

@[simp] theorem voteClearBody_kept (s : State) (p : List Byte) : kept (voteClearBody s p).1 = kept s := by
  unfold voteClearBody
  split <;> simp

@[simp] theorem execVoteClearCounters_kept (pair : PairId) (s : State) :
    keptO (execVoteClearCounters pair s) = some (kept s) := by
  simp [execVoteClearCounters]

@[simp] theorem execVoteGetAdmit_kept (pair : PairId) (s : State) :
    keptO (execVoteGetAdmit pair s) = some (kept s) := by
  unfold execVoteGetAdmit
  refine serve_kept _ _ _ _ (fun s p => ?_)
  first | rfl | (repeat' split) <;> first | rfl | simp

end Sys2Proof.Machine
end

