-- ==== Sys2Proof/Laws/KeptPort.lean ====
section
/-! SUPPORT. What memory errors, register writes, the security and recorder commands and the access port keep: the identity and the waiting commands. -/

namespace Sys2Proof.Machine

open Sys2Proof

@[simp] theorem execSecGetStatus_kept (pair : PairId) (s : State) :
    keptO (execSecGetStatus pair s) = some (kept s) := by
  unfold execSecGetStatus
  refine serve_kept _ _ _ _ (fun s p => ?_)
  first | rfl | (repeat' split) <;> first | rfl | simp

@[simp] theorem execSecGetKeys_kept (pair : PairId) (s : State) :
    keptO (execSecGetKeys pair s) = some (kept s) := by
  unfold execSecGetKeys
  refine serve_kept _ _ _ _ (fun s p => ?_)
  first | rfl | (repeat' split) <;> first | rfl | simp

@[simp] theorem execSecGetRegistry_kept (pair : PairId) (s : State) :
    keptO (execSecGetRegistry pair s) = some (kept s) := by
  unfold execSecGetRegistry
  refine serve_kept _ _ _ _ (fun s p => ?_)
  first | rfl | (repeat' split) <;> first | rfl | simp

@[simp] theorem execSecGetIdentity_kept (pair : PairId) (s : State) :
    keptO (execSecGetIdentity pair s) = some (kept s) := by
  unfold execSecGetIdentity
  refine serve_kept _ _ _ _ (fun s p => ?_)
  first | rfl | (repeat' split) <;> first | rfl | simp

@[simp] theorem execSecGetCert_kept (pair : PairId) (s : State) :
    keptO (execSecGetCert pair s) = some (kept s) := by
  unfold execSecGetCert
  refine serve_kept _ _ _ _ (fun s p => ?_)
  first | rfl | (repeat' split) <;> first | rfl | simp

@[simp] theorem execSecAttest_kept (pair : PairId) (s : State) :
    keptO (execSecAttest pair s) = some (kept s) := by
  unfold execSecAttest
  refine serve_kept _ _ _ _ (fun s p => ?_)
  first | rfl | (repeat' split) <;> first | rfl | simp

@[simp] theorem changeRefuse_kept (s : State) (i tag st detail : Nat) :
    kept (changeRefuse s i tag st detail) = kept s := by
  simp [changeRefuse]

@[simp] theorem submitBody_kept (i tag : Nat) (s : State) (p : List Byte) : kept (submitBody i tag s p).1 = kept s := by
  unfold submitBody
  split <;> simp

@[simp] theorem execSecSubmitChange_kept (pair : PairId) (s : State) :
    keptO (execSecSubmitChange pair s) = some (kept s) := by
  simp [execSecSubmitChange]

@[simp] theorem commitContainer_kept (s : State) (p : List Byte) :
    kept (commitContainer s p) = kept s := by
  simp [commitContainer]

@[simp] theorem registryLinks_kept (s : State) (old : Vector RegEntry 3) :
    kept (registryLinks s old) = kept s := by
  simp [registryLinks]

@[simp] theorem unlockFor_kept (s : State) (seconds : Nat) :
    kept (unlockFor s seconds) = kept s := by
  simp [unlockFor]

@[simp] theorem changeApply_kept (s : State) (i tag : Nat) (p : List Byte) (c : ChangeSet) :
    kept (changeApply s i tag p c) = kept s := by
  unfold changeApply
  repeat' split
  all_goals simp

@[simp] theorem changeDone_kept (s : State) (i : Nat) (job : LongJob) (ok : Bool) :
    kept (changeDone s i job ok) = kept s := by
  unfold changeDone
  split <;> simp

@[simp] theorem debugLock_kept (s : State) (i tag : Nat) :
    kept (debugLock s i tag) = kept s := by
  simp [debugLock]

@[simp] theorem execSecDebugLock_kept (pair : PairId) (s : State) :
    keptO (execSecDebugLock pair s) = some (kept s) := by
  simp [execSecDebugLock]

@[simp] theorem execDebugUnlockExpire_kept (s : State) :
    keptO (execDebugUnlockExpire s) = some (kept s) := by
  unfold execDebugUnlockExpire
  split <;> simp

@[simp] theorem execLongCommandDone_kept (pair : PairId) (ok : Bool) (s : State) :
    keptO (execLongCommandDone pair ok s) = some (kept s) := by
  simp only [execLongCommandDone]
  repeat' split
  all_goals simp_all

@[simp] theorem dropService_kept (s : State) (i : Nat) :
    kept (dropService s i) = kept s := by
  simp [dropService]

@[simp] theorem execLongCommandTimeout_kept (pair : PairId) (s : State) :
    keptO (execLongCommandTimeout pair s) = some (kept s) := by
  simp only [execLongCommandTimeout]
  repeat' split
  all_goals simp_all

@[simp] theorem execRecGetStatus_kept (pair : PairId) (s : State) :
    keptO (execRecGetStatus pair s) = some (kept s) := by
  unfold execRecGetStatus
  refine serve_kept _ _ _ _ (fun s p => ?_)
  first | rfl | (repeat' split) <;> first | rfl | simp

@[simp] theorem execRecRead_kept (pair : PairId) (s : State) :
    keptO (execRecRead pair s) = some (kept s) := by
  unfold execRecRead
  refine serve_kept _ _ _ _ (fun s p => ?_)
  first | rfl | (repeat' split) <;> first | rfl | simp

@[simp] theorem execRecMark_kept (pair : PairId) (s : State) :
    keptO (execRecMark pair s) = some (kept s) := by
  simp [execRecMark]

@[simp] theorem execRecSetCfg_kept (pair : PairId) (s : State) :
    keptO (execRecSetCfg pair s) = some (kept s) := by
  simp [execRecSetCfg]

@[simp] theorem execDbgGetStatus_kept (pair : PairId) (s : State) :
    keptO (execDbgGetStatus pair s) = some (kept s) := by
  unfold execDbgGetStatus
  refine serve_kept _ _ _ _ (fun s p => ?_)
  first | rfl | (repeat' split) <;> first | rfl | simp

@[simp] theorem freeze_kept (s : State) (cause : Nat) :
    kept (freeze s cause) = kept s := by
  simp [freeze]

@[simp] theorem execFreezePin_kept (s : State) :
    keptO (execFreezePin s) = some (kept s) := by
  simp [execFreezePin]

@[simp] theorem freezeBody_kept (s : State) (p : List Byte) : kept (freezeBody s p).1 = kept s := by
  unfold freezeBody
  repeat' split
  all_goals simp

@[simp] theorem execDbgFreeze_kept (pair : PairId) (s : State) :
    keptO (execDbgFreeze pair s) = some (kept s) := by
  simp [execDbgFreeze]

@[simp] theorem rwpWrite_kept (s : State) (block addr : Nat) (data : U32) :
    kept (rwpWrite s block addr data) = kept s := by
  simp [rwpWrite]

@[simp] theorem laneSetWrite_kept (s : State) (l : LaneId) (o : Nat) (data : U32) :
    kept (laneSetWrite s l o data) = kept s := by
  unfold laneSetWrite
  split <;> simp

@[simp] theorem laneWrite_kept (s : State) (o : Nat) (data : U32) :
    kept (laneWrite s o data) = kept s := by
  unfold laneWrite
  repeat' split
  all_goals simp

@[simp] theorem firnWrite_kept (s : State) (o : Nat) (data : U32) :
    kept (firnWrite s o data) = kept s := by
  unfold firnWrite
  split <;> simp

@[simp] theorem warnWrite_kept (s : State) (data : U32) :
    kept (warnWrite s data) = kept s := by
  simp [warnWrite]

@[simp] theorem epochWrite_kept (s : State) (o : Nat) (data : U32) :
    kept (epochWrite s o data) = kept s := by
  unfold epochWrite
  split <;> simp

@[simp] theorem mboxWrite_kept (s : State) (o : Nat) (data : U32) :
    kept (mboxWrite s o data) = kept s := by
  unfold mboxWrite
  repeat' split
  all_goals simp

@[simp] theorem tbWrite_kept (s : State) (k : Fin 4) (o : Nat) (data : U32) :
    kept (tbWrite s k o data) = kept s := by
  unfold tbWrite
  split <;> simp

@[simp] theorem timeWrite_kept (s : State) (o : Nat) (data : U32) :
    kept (timeWrite s o data) = kept s := by
  unfold timeWrite
  repeat' split
  all_goals simp

@[simp] theorem ctxWrite_kept (s : State) (m : Master) (c : Fin 16) (r : Nat) (data : U32) :
    kept (ctxWrite s m c r data) = kept s := by
  unfold ctxWrite
  split
  · simp
  · exact chkWrite_kept _ _ _ _ _ (by simp)

@[simp] theorem checkWrite_kept (s : State) (o : Nat) (data : U32) :
    kept (checkWrite s o data) = kept s := by
  unfold checkWrite
  repeat' split
  all_goals simp

@[simp] theorem ringWrite_kept (s : State) (i : Fin 64) (o : Nat) (data : U32) :
    kept (ringWrite s i o data) = kept s := by
  unfold ringWrite
  split <;> simp

@[simp] theorem portWrite_kept (s : State) (p : Fin 4) (data : U32) :
    kept (portWrite s p data) = kept s := by
  simp [portWrite]

@[simp] theorem pktWrite_kept (s : State) (o : Nat) (data : U32) :
    kept (pktWrite s o data) = kept s := by
  unfold pktWrite
  repeat' split
  all_goals simp

@[simp] theorem routeWrite_kept (s : State) (o : Nat) (data : U32) :
    kept (routeWrite s o data) = kept s := by
  unfold routeWrite
  split <;> simp

@[simp] theorem rackCtrlWrite_kept (s : State) (data : U32) :
    kept (rackCtrlWrite s data) = kept s := by
  simp [rackCtrlWrite]

@[simp] theorem pfWrite_kept (s : State) (k : Fin 8) (limit : Bool) (data : U32) :
    kept (pfWrite s k limit data) = kept s := by
  simp [pfWrite]

@[simp] theorem rackWrite_kept (s : State) (o : Nat) (data : U32) :
    kept (rackWrite s o data) = kept s := by
  unfold rackWrite
  repeat' split
  all_goals simp

@[simp] theorem fioCfgWrite_kept (s : State) (data : U32) :
    kept (fioCfgWrite s data) = kept s := by
  simp [fioCfgWrite]

@[simp] theorem fioChWrite_kept (s : State) (c : Fin 32) (data : U32) :
    kept (fioChWrite s c data) = kept s := by
  simp [fioChWrite]

@[simp] theorem fioWrite_kept (s : State) (o : Nat) (data : U32) :
    kept (fioWrite s o data) = kept s := by
  unfold fioWrite
  repeat' split
  all_goals simp

@[simp] theorem safeWrite_kept (s : State) (o : Nat) (data : U32) :
    kept (safeWrite s o data) = kept s := by
  unfold safeWrite
  repeat' split
  all_goals simp

@[simp] theorem muslinWrite_kept (s : State) (o : Nat) (data : U32) :
    kept (muslinWrite s o data) = kept s := by
  unfold muslinWrite
  repeat' split
  all_goals simp

@[simp] theorem weftCtrlWrite_kept (s : State) (data : U32) :
    kept (weftCtrlWrite s data) = kept s := by
  simp [weftCtrlWrite]

@[simp] theorem weftWrite_kept (s : State) (o : Nat) (data : U32) :
    kept (weftWrite s o data) = kept s := by
  unfold weftWrite
  split <;> simp

@[simp] theorem pwrWrite_kept (s : State) (o : Nat) (data : U32) :
    kept (pwrWrite s o data) = kept s := by
  unfold pwrWrite
  split <;> simp

@[simp] theorem morBlockWrite_kept (s : State) (o : Nat) (data : U32) :
    kept (morBlockWrite s o data) = kept s := by
  unfold morBlockWrite
  split <;> simp

@[simp] theorem dbgCtrl_kept (s : State) (data : U32) :
    kept (dbgCtrl s data) = kept s := by
  simp [dbgCtrl]

@[simp] theorem dbgWrite_kept (s : State) (o : Nat) (data : U32) :
    kept (dbgWrite s o data) = kept s := by
  unfold dbgWrite
  split <;> simp

@[simp] theorem blockWrite_kept (s : State) (b o : Nat) (data : U32) :
    kept (blockWrite s b o data) = kept s := by
  unfold blockWrite
  split <;> simp

@[simp] theorem laneRegStore_kept (s : State) (l : LaneId) (b o : Nat) (data : U32) :
    kept (laneRegStore s l b o data) = kept s := by
  have hp : ∀ c a n v, kept ((performStore s c a n v).getD s) = kept s := by
    intro c a n v
    cases h : performStore s c a n v with
    | none => rfl
    | some t => exact performStore_kept _ _ _ _ _ _ h
  unfold laneRegStore
  dsimp only
  split
  · split <;> simp [hp]
  · exact hp _ _ _ _
  · simp
  · split <;> simp

@[simp] theorem bySelvedge_kept (s : State) (d : Nat) (t : State) (h : kept t = kept s) :
    keptO (bySelvedge s d t) = some (kept s) := by
  unfold bySelvedge
  refine live_kept _ _ _ ?_
  split <;> simp [h]

@[simp] theorem execRegisterWrite_kept (m : Master) (addr : BitVec 40) (data : U32) (s : State) :
    keptO (execRegisterWrite m addr data s) = some (kept s) := by
  unfold execRegisterWrite
  split
  · exact bySelvedge_kept _ _ _ (by simp)
  · split
    · refine live_kept _ _ _ ?_
      repeat' split
      all_goals simp
    · rfl

@[simp] theorem execEpochWarnWrite_kept (data : U32) (s : State) :
    keptO (execEpochWarnWrite data s) = some (kept s) := by
  simp [execEpochWarnWrite]

@[simp] theorem execLatchingLoRead_kept (m : Master) (addr : BitVec 40) (s : State) :
    keptO (execLatchingLoRead m addr s) = some (kept s) := by
  unfold execLatchingLoRead
  split
  · exact bySelvedge_kept _ _ _ (by simp)
  · split
    · refine live_kept _ _ _ ?_
      repeat' split
      all_goals simp
    · rfl

@[simp] theorem execDbgCtrlWrite_kept (data : U32) (s : State) :
    keptO (execDbgCtrlWrite data s) = some (kept s) := by
  simp [execDbgCtrlWrite]

@[simp] theorem tapData_kept (s : State) (code data length : Nat) :
    kept (tapData s code data length) = kept s := by
  simp [tapData]

@[simp] theorem tapDenied_kept (s : State) (code : Nat) :
    kept (tapDenied s code) = kept s := by
  simp [tapDenied]

theorem tap_kept (s : State) (code : Nat) (ok : Bool) (t : State) (h : kept t = kept s) :
    keptO (tap s code ok t) = some (kept s) := by
  unfold tap
  refine always_kept _ _ _ ?_
  repeat' split
  all_goals simp [h]

@[simp] theorem execTapIdcode_kept (s : State) :
    keptO (execTapIdcode s) = some (kept s) := by
  unfold execTapIdcode
  refine always_kept _ _ _ ?_
  repeat' split
  all_goals simp_all

@[simp] theorem execTapDbgStatus_kept (s : State) :
    keptO (execTapDbgStatus s) = some (kept s) := by
  unfold execTapDbgStatus
  refine always_kept _ _ _ ?_
  repeat' split
  all_goals simp_all

@[simp] theorem execTapScanSelect_kept (chain : U16) (s : State) :
    keptO (execTapScanSelect chain s) = some (kept s) := by
  unfold execTapScanSelect
  refine always_kept _ _ _ ?_
  repeat' split
  all_goals simp_all

@[simp] theorem execTapScanRead_kept (s : State) :
    keptO (execTapScanRead s) = some (kept s) := by
  unfold execTapScanRead
  refine always_kept _ _ _ ?_
  repeat' split
  all_goals simp_all

@[simp] theorem tapAddr_kept (s : State) (a : BitVec 40) :
    kept (tapAddr s a) = kept s := by
  simp [tapAddr]

@[simp] theorem execTapMemAddr_kept (addr : BitVec 40) (s : State) :
    keptO (execTapMemAddr addr s) = some (kept s) := by
  unfold execTapMemAddr
  refine always_kept _ _ _ ?_
  repeat' split
  all_goals simp_all

@[simp] theorem tapAdvance_kept (s : State) :
    kept (tapAdvance s) = kept s := by
  simp [tapAdvance]

@[simp] theorem execTapMemRead_kept (s : State) :
    keptO (execTapMemRead s) = some (kept s) := by
  unfold execTapMemRead
  refine always_kept _ _ _ ?_
  repeat' split
  all_goals simp_all

@[simp] theorem selvedgeStore_kept (s : State) (a : Nat) (v : Word) :
    kept (selvedgeStore s a v) = kept s := by
  unfold selvedgeStore
  repeat' split
  all_goals simp

@[simp] theorem execTapMemWrite_kept (data : Word) (s : State) :
    keptO (execTapMemWrite data s) = some (kept s) := by
  unfold execTapMemWrite
  refine always_kept _ _ _ ?_
  repeat' split
  all_goals simp_all

@[simp] theorem execTapFirnInject_kept (data : U32) (detected : Bool) (s : State) :
    keptO (execTapFirnInject data detected s) = some (kept s) := by
  unfold execTapFirnInject
  refine always_kept _ _ _ ?_
  repeat' split
  all_goals simp_all

@[simp] theorem resume_kept (s : State) :
    kept (resume s) = kept s := by
  simp [resume]

@[simp] theorem execTapResume_kept (bit frzHigh : Bool) (s : State) :
    keptO (execTapResume bit frzHigh s) = some (kept s) := by
  simp [execTapResume]

@[simp] theorem execTapBypass_kept (s : State) :
    keptO (execTapBypass s) = some (kept s) := by
  unfold execTapBypass
  refine always_kept _ _ _ ?_
  repeat' split
  all_goals simp_all

end Sys2Proof.Machine
end

