-- ==== Sys2Proof/Laws/Lane.lean ====
section
/-! SUPPORT. What retiring an instruction does, once for every instruction: the core it leaves, and what stays. -/

namespace Sys2Proof.Machine

open Sys2Proof

@[simp] theorem laneOf_putLane (s : State) (l : LaneId) (ln : Lane) : laneOf (putLane s l ln) l = ln := by
  simp [laneOf, putLane]

theorem laneOf_putLane_ne (s : State) (l m : LaneId) (ln : Lane) (h : m ≠ l) : laneOf (putLane s l ln) m = laneOf s m := by
  have hv : l.val ≠ m.val := fun e => h (Fin.ext e.symm)
  simp [laneOf, putLane, hv]

@[simp] theorem putLane_putLane (s : State) (l : LaneId) (a b : Lane) : putLane (putLane s l a) l b = putLane s l b := by
  simp [putLane, Vector.set_set]

@[simp] theorem coreOf_putCore (ln : Lane) (c : CoreSel) (k : Core) : coreOf (putCore ln c k) c = k := by
  cases c <;> rfl

@[simp] theorem archOf_countRetired (k : Core) (b : Bool) :
    archOf (countRetired k b) = archOf { k with retired := k.retired + 1 } := rfl

@[simp] theorem archOf_firnFeed (k : Core) (bs : List Byte) (n : Word) :
    archOf { firnFeed k bs with retired := n } = archOf { k with retired := n } := rfl

@[simp] theorem archOf_firnClose (k : Core) : archOf (firnClose k) = archOf k := rfl

@[simp] theorem archOf_archOf (k : Core) : archOf (archOf k) = archOf k := rfl

/-- A MARK of right parity with T's own COUNT and WSEQ raises no cause (R143). -/
theorem markCause_none (e : DriftEntry) (k : Core) (hp : e.parity = driftParity e.data e.kind e.seq)
    (hd : e.data = k.wseq ++ k.wcount) : markCause e k = none := by
  have h1 : e.data.extractLsb' 0 32 = k.wcount := by
    rw [hd]; exact BitVec.extractLsb'_append_eq_right ..
  have h2 : e.data.extractLsb' 32 32 = k.wseq := by
    rw [hd]; exact BitVec.extractLsb'_append_eq_left ..
  simp [markCause, hp, h1, h2]

/-- Putting a lane back whose own two cores, Drift queue and peak alone have changed. -/
theorem ran_putLane (s : State) (c : CoreRef) (ln : Lane) (k : Core)
    (hc : archOf (coreOf ln c.core) = archOf { k with retired := k.retired + 1 })
    (ho : coreOf ln (otherCore c).core = coreAt s (otherCore c))
    (hl : ln = { laneOf s c.lane with l := ln.l, t := ln.t, drift := ln.drift, driftPeak := ln.driftPeak }) :
    Ran s (putLane s c.lane ln) c k := by
  have hoc : (otherCore c).lane = c.lane := by
    unfold otherCore
    split <;> rfl
  refine ⟨?_, ?_, ?_, fun l h => laneOf_putLane_ne s c.lane l ln h, rfl⟩
  · simpa [coreAt] using hc
  · rw [← ho]
    unfold coreAt
    rw [hoc, laneOf_putLane]
  · simpa using hl

/-- Retiring an instruction that does not yield leaves the core it gives, and changes nothing outside the core's Firn
stream and the lane's Drift queue. -/
theorem retire_ran (s : State) (c : CoreRef) (old : Core) (r : Ret) (hy : r.yields = false)
    (hk : seqOf old = seqOf (coreAt s c)) (hp : r.k.speedMin = (coreAt s c).speedMin)
    (hq : r.k.committed = (coreAt s c).committed) (hj : r.k.rejected = (coreAt s c).rejected)
    (hc : r.k.wcount = (coreAt s c).wcount) (hs : r.k.wseq = (coreAt s c).wseq) (hm : MarkAgrees s c) :
    Ran s (retire s c old r) c r.k := by
  obtain ⟨l, sel⟩ := c
  obtain ⟨k, regs, store, entry, yields⟩ := r
  have hr : ({ k with speedMin := (coreOf (laneOf s l) sel).speedMin, committed := (coreOf (laneOf s l) sel).committed
                      rejected := (coreOf (laneOf s l) sel).rejected } : Core) = k := by
    cases k
    simp_all [coreAt]
  unfold retire
  simp only [hr]
  dsimp only at hc hs hy
  split
  · refine ran_putLane s ⟨l, sel⟩ _ k (by simp) ?_ ?_ <;> cases sel <;> rfl
  · rename_i hsp
    cases sel with
    | leading =>
      dsimp only
      refine ran_putLane s ⟨l, .leading⟩ _ k ?_ ?_ ?_
      all_goals
        simp only [retireL, hy, Bool.false_eq_true, if_false]
        cases entry <;> (dsimp only; split <;> rfl)
    | trailing =>
      dsimp only
      have hm' := fun e rest => hm e rest (by simp [follows, checkedLane, hsp])
      simp only [markT, laneOf_putLane]
      split
      · refine ran_putLane s ⟨l, .trailing⟩ _ k ?_ ?_ ?_ <;> rfl
      · rename_i e rest hd
        split
        · rename_i hq
          simp only [Bool.and_eq_true, beq_iff_eq, decide_eq_true_eq] at hq
          obtain ⟨hp', hdata⟩ := hm' e rest hd hq.1 (hq.2.trans hk)
          rw [markCause_none e _ hp' (by rw [hdata, ← hc, ← hs]; rfl)]
          dsimp only
          rw [putLane_putLane]
          refine ran_putLane s ⟨l, .trailing⟩ _ k ?_ ?_ ?_ <;> rfl
        · refine ran_putLane s ⟨l, .trailing⟩ _ k ?_ ?_ ?_ <;> rfl

/-- An access meets nothing where no memory holds a wrong word (R224). -/
theorem access_sound (s : State) (c : CoreRef) (r : Region) (n : Nat) (fetch : Bool) (h : s.mem.upsets = []) :
    access s c r n fetch = (s, .good) := by
  simp [access, meet, h]

/-- A read meets nothing where no memory holds a wrong word (R224). -/
theorem touch_sound (s : State) (area o n : Nat) (h : s.mem.upsets = []) : touch s area o n = s := by
  simp [touch, meet, h]

/-- A store meets nothing where no memory holds a wrong word (R224). -/
theorem storeMeets_sound (s : State) (c : CoreRef) (r : Region) (n : Nat) (h : s.mem.upsets = []) :
    storeMeets s c r n = (s, .good) := by
  unfold storeMeets
  split
  · have he : rewritten s.mem (accessHits s c r n false) = s.mem := by
      unfold rewritten
      rw [h, List.filter_nil, ← h]
    rw [he]
  · exact access_sound s c r n false h

/-- A fetch meets nothing where no memory holds a wrong word (R224). -/
theorem fetchMeets_sound (s : State) (c : CoreRef) (k : Core) (h : s.mem.upsets = []) : fetchMeets s c k = (s, false) := by
  simp [fetchMeets, access_sound _ _ _ _ _ h]

/-- A Drift queue with room for two entries is full for no instruction (R139). -/
theorem driftFull_room (s : State) (c : CoreRef) (n : Nat) (hn : n ≤ 2) (h : stalled s c = false) :
    driftFull s c n = false := by
  simp only [stalled, driftRoom, driftFits, driftFull, Bool.and_eq_false_iff, Bool.not_eq_false', decide_eq_true_eq,
    decide_eq_false_iff_not] at h ⊢
  rcases h with h | h
  · exact .inl h
  · exact .inr (by omega)

/-- An instruction writes at most two Drift entries: its value and a MARK (R139). -/
theorem entriesOf_le (ln : Lane) (r : Ret) : entriesOf ln r ≤ 2 := by
  unfold entriesOf
  have h : ∀ b, b2n b ≤ 1 := by decide
  have h1 := h r.entry.isSome
  have h2 := h (r.yields || decide (ln.l.wcount.toNat + 1 = windowLen ln))
  omega

/-- A core that retires runs the body of its instruction. -/
theorem runLane_body (s : State) (c : CoreRef) (body : State → Core → Act) (h : Retires s c) :
    runLane s c body = .next (complete s c (coreAt s c) (body s (coreAt s c))) := by
  obtain ⟨h1, -, h3, h4, h5⟩ := h
  unfold runLane
  simp only [coreAt] at h4 ⊢
  simp [h1, h3, h4, fetchMeets_sound _ _ _ h5]

/-- A core that retires an instruction whose body completes on `s'`. -/
theorem runLane_done (s s' : State) (c : CoreRef) (body : State → Core → Act) (r : Ret) (h : Retires s c)
    (hb : body s (coreAt s c) = .done s' r) : runLane s c body = .next (retire s' c (coreAt s c) r) := by
  rw [runLane_body s c body h, hb]
  simp only [complete, driftFull_room s c _ (entriesOf_le _ _) h.room]
  rfl

/-- A core whose instruction raises an exception, none being open (R195). -/
theorem runLane_exc (s s' : State) (c : CoreRef) (body : State → Core → Act) (e : Exc) (h : Retires s c)
    (hx : excSet (coreAt s c) = false) (hb : body s (coreAt s c) = .exc s' e) :
    runLane s c body = .next (syncExc s' c (coreAt s c) e) := by
  rw [runLane_body s c body h, hb]
  simp [complete, hx, finish]

end Sys2Proof.Machine
end

