-- ==== Sys2Proof/Laws/Mbox.lean ====
section
/-! SUPPORT. What serving a request does, once for every mailbox command: the answer in the pair's response slot, and what
stays. -/

namespace Sys2Proof.Machine

open Sys2Proof

theorem Messaged.refl (s : State) : Messaged s s := ⟨rfl, fun sd => by cases sd <;> rfl, fun _ => rfl⟩

theorem Messaged.trans {s t u : State} (h : Messaged s t) (g : Messaged t u) : Messaged s u := by
  refine ⟨?_, fun sd => ?_, fun k => ?_⟩
  · rw [g.rest, h.rest]
  · rw [g.links sd, h.links sd]
  · rw [g.ports k, h.ports k]

/-- One pair's mailbox in two states. -/
theorem pairAt_putPair (s : State) (i : Nat) (p : MailPair) (h : i < 24) : pairAt (putPair s i p) i = p := by
  simp [pairAt, putPair, h]

theorem pairAt_putPair_ne (s : State) (i j : Nat) (p : MailPair) (h : i ≠ j) : pairAt (putPair s i p) j = pairAt s j := by
  simp [pairAt, putPair, h]

theorem messaged_putPair (s : State) (i : Nat) (p : MailPair) : Messaged s (putPair s i p) := ⟨rfl, fun sd => by cases sd <;> rfl, fun _ => rfl⟩

theorem messaged_enqueue (s : State) (p : Fin 4) (q : Nat) (f : EthFrame) : Messaged s (enqueue s p q f) := by
  unfold enqueue
  dsimp only
  split
  · refine ⟨rfl, fun sd => by cases sd <;> rfl, fun k => ?_⟩
    by_cases hk : p = k
    · subst hk
      simp [putPort]
    · simp [putPort, Fin.val_ne_of_ne hk]
  · exact .refl s

theorem pairAt_enqueue (s : State) (p : Fin 4) (q : Nat) (f : EthFrame) (j : Nat) :
    pairAt (enqueue s p q f) j = pairAt s j := by
  unfold enqueue
  dsimp only
  split <;> rfl

theorem messaged_mboxDatagram (s : State) (i : Nat) (m : List Byte) : Messaged s (mboxDatagram s i m) := by
  unfold mboxDatagram
  dsimp only
  repeat' split
  all_goals first | exact ⟨rfl, fun sd => by cases sd <;> rfl, fun _ => rfl⟩ | exact Messaged.trans (messaged_putPair _ _ _) (messaged_enqueue _ _ _ _)

theorem messaged_mboxSend (s : State) (i : Nat) (m : List Byte) : Messaged s (mboxSend s i m) := by
  unfold mboxSend
  dsimp only
  repeat' split
  all_goals first
    | exact ⟨rfl, fun sd => by cases sd <;> rfl, fun _ => rfl⟩
    | exact Messaged.trans (messaged_putPair _ _ _) (messaged_mboxDatagram _ _ _)
    | (unfold sendSide putLink; split <;> exact ⟨rfl, fun sd => by cases sd <;> rfl, fun _ => rfl⟩)

theorem pairAt_sendSide (s : State) (sd : Side) (ty : Nat) (m : List Byte) (j : Nat) :
    pairAt (sendSide s sd ty m) j = pairAt s j := by
  unfold sendSide putLink
  split <;> rfl

theorem pairAt_mboxDatagram_ne (s : State) (i j : Nat) (m : List Byte) (h : i ≠ j) :
    pairAt (mboxDatagram s i m) j = pairAt s j := by
  unfold mboxDatagram
  dsimp only
  repeat' split
  all_goals first
    | rfl
    | exact pairAt_putPair_ne _ _ _ _ h
    | (rw [pairAt_enqueue]; exact pairAt_putPair_ne _ _ _ _ h)

/-- A datagram notes where it goes, and leaves the rest of its pair. -/
theorem pairAt_mboxDatagram (s : State) (i : Nat) (m : List Byte) (h : i < 24) :
    ∃ x, pairAt (mboxDatagram s i m) i = { pairAt s i with sentTo := x } := by
  have hp := fun (x : Option NetAddr) => pairAt_putPair s i { pairAt s i with sentTo := x } h
  have hq : ∀ (u : State) p, pairAt { u with pkt := p } i = pairAt u i := fun _ _ => rfl
  unfold mboxDatagram
  dsimp only
  split
  · exact ⟨_, rfl⟩
  · rename_i a _
    refine ⟨some a, ?_⟩
    repeat' split
    · exact (pairAt_enqueue _ _ _ _ _).trans (hp _)
    · exact hp _
    · exact (hq _ _).trans (hp _)

theorem pairAt_mboxSend_ne (s : State) (i j : Nat) (m : List Byte) (h : i ≠ j) :
    pairAt (mboxSend s i m) j = pairAt s j := by
  have hp := pairAt_putPair_ne s i j { pairAt s i with lastSent := m } h
  unfold mboxSend
  dsimp only
  repeat' split
  all_goals first
    | exact hp
    | exact (pairAt_mboxDatagram_ne _ _ _ _ h).trans hp
    | exact (pairAt_sendSide _ _ _ _ _).trans hp

/-- A message that leaves is noted in its pair, and the rest of the pair stands. -/
theorem pairAt_mboxSend (s : State) (i : Nat) (m : List Byte) (h : i < 24) :
    ∃ x, pairAt (mboxSend s i m) i = { pairAt s i with lastSent := m, sentTo := x } := by
  have hp := pairAt_putPair s i { pairAt s i with lastSent := m } h
  have hd := pairAt_mboxDatagram (putPair s i { pairAt s i with lastSent := m }) i m h
  rw [hp] at hd
  unfold mboxSend
  dsimp only
  repeat' split
  all_goals first
    | exact hd
    | exact ⟨(pairAt s i).sentTo, hp⟩
    | exact ⟨(pairAt s i).sentTo, (pairAt_sendSide _ _ _ _ _).trans hp⟩

theorem messaged_deliverItem (s : State) (i k src : Nat) (m : List Byte) : Messaged s (deliverItem s i k src m) := by
  unfold deliverItem queueItem
  dsimp only
  repeat' split
  all_goals exact ⟨rfl, fun sd => by cases sd <;> rfl, fun _ => rfl⟩

theorem pairAt_deliverItem (s : State) (i k src j : Nat) (m : List Byte) :
    pairAt (deliverItem s i k src m) j
      = pairAt (putPair s i { pairAt s i with undelivered := true, latched := false }) j := by
  unfold deliverItem queueItem
  dsimp only
  repeat' split
  all_goals rfl

theorem messaged_respond (s : State) (i : Nat) (r : Request) (a : Answer) : Messaged s (respond s i r a) := by
  unfold respond
  dsimp only
  have h : ∀ u : State, Messaged u (if i < 16 then deliverItem u i 1 i (messageBytes
      (if a.status = stCrc then r.level else (pairAt s i).level.toNat) 1 r.command r.tag a.status
      (if (pairAt s i).level.toNat ≤ 1 then 0 else a.detail) a.payload) else mboxSend u i (messageBytes
      (if a.status = stCrc then r.level else (pairAt s i).level.toNat) 1 r.command r.tag a.status
      (if (pairAt s i).level.toNat ≤ 1 then 0 else a.detail) a.payload)) := by
    intro u
    split
    · exact messaged_deliverItem _ _ _ _ _
    · exact messaged_mboxSend _ _ _
  refine Messaged.trans ?_ (h _)
  split <;> exact ⟨rfl, fun sd => by cases sd <;> rfl, fun _ => rfl⟩

/-- A response leaves every other pair as it was. -/
theorem pairAt_respond_ne (s : State) (i j : Nat) (r : Request) (a : Answer) (h : i ≠ j) :
    pairAt (respond s i r a) j = pairAt s j := by
  unfold respond
  dsimp only
  split
  · rw [pairAt_deliverItem, pairAt_putPair_ne _ _ _ _ h]
    split
    · exact pairAt_putPair_ne _ _ _ _ h
    · exact pairAt_putPair_ne _ _ _ _ h
  · rw [pairAt_mboxSend_ne _ _ _ _ h]
    split
    · exact pairAt_putPair_ne _ _ _ _ h
    · exact pairAt_putPair_ne _ _ _ _ h

/-- What a response leaves in its own pair. -/
theorem pairAt_respond (s : State) (i : Nat) (r : Request) (a : Answer) (hi : i < 24) (hc : a.status ≠ stCrc) :
    (pairAt (respond s i r a) i).state = .done ∧ (pairAt (respond s i r a) i).served = satInc (pairAt s i).served ∧
      (pairAt (respond s i r a) i).rsp = slotOf (messageBytes (pairAt s i).level.toNat 1 r.command r.tag a.status
        (if (pairAt s i).level.toNat ≤ 1 then 0 else a.detail) a.payload) := by
  unfold respond
  simp only [hc, if_false]
  split
  · rw [pairAt_deliverItem, pairAt_putPair _ _ _ hi]
    simp [pairAt_putPair _ _ _ hi]
  · obtain ⟨x, hx⟩ := pairAt_mboxSend (putPair s i _) i _ hi
    rw [hx]
    simp [pairAt_putPair _ _ _ hi]

theorem messaged_beginService (s : State) (i : Nat) : Messaged s (beginService s i) := by
  unfold beginService
  dsimp only
  split <;> exact ⟨rfl, fun sd => by cases sd <;> rfl, fun _ => rfl⟩

theorem pairAt_beginService_ne (s : State) (i j : Nat) (h : i ≠ j) : pairAt (beginService s i) j = pairAt s j := by
  unfold beginService
  dsimp only
  split <;> exact pairAt_putPair_ne _ _ _ _ h

theorem pairAt_beginService (s : State) (i : Nat) (h : i < 24) :
    pairAt (beginService s i) i = { pairAt s i with state := .serving } := by
  unfold beginService
  dsimp only
  split <;> exact pairAt_putPair _ _ _ h

/-- The pair whose turn it is waits for service. -/
theorem mboxTurn_pending (s : State) (i : Nat) (h : mboxTurn s = some i) : (pairAt s i).state = .pending ∧ i < 24 := by
  have hf : ∀ lo, pendingFrom s lo = some i → (pairAt s i).state = .pending ∧ i < 24 := by
    intro lo hl
    have h1 := List.find?_some hl
    have h2 := List.mem_of_find?_eq_some hl
    simp at h1 h2
    exact ⟨h1.1.2, h2⟩
  unfold mboxTurn at h
  split at h
  · rename_i j hj
    cases h
    exact hf _ hj
  · exact hf _ h

theorem messaged_closeOther (s : State) (i : Nat) (r : Request) : Messaged s (closeOther s i r) := by
  unfold closeOther
  split <;> exact ⟨rfl, fun sd => by cases sd <;> rfl, fun _ => rfl⟩

theorem pairAt_closeOther_ne (s : State) (i j : Nat) (r : Request) (h : i ≠ j) : pairAt (closeOther s i r) j = pairAt s j := by
  unfold closeOther
  split
  · exact pairAt_putPair_ne _ _ _ _ h
  · rfl

/-- Answering the requests that repeat or whose command is undefined leaves a pair that waits for nothing as it is. -/
theorem mboxAutoN_other (k : Nat) (s : State) (j : Nat) (hj : (pairAt s j).state ≠ .pending) :
    pairAt (mboxAutoN k s) j = pairAt s j ∧ Messaged s (mboxAutoN k s) := by
  induction k generalizing s with
  | zero => exact ⟨rfl, .refl _⟩
  | succ k ih =>
    unfold mboxAutoN
    split
    · rename_i i hi
      have hne : i ≠ j := by
        rintro rfl
        exact hj (mboxTurn_pending s i hi).1
      split
      · have h1 : pairAt (repeatLane s i) j = pairAt s j := by
          unfold repeatLane
          rw [pairAt_deliverItem, pairAt_putPair_ne _ _ _ _ hne, pairAt_putPair_ne _ _ _ _ hne,
            pairAt_beginService_ne _ _ _ hne]
        have h2 : Messaged s (repeatLane s i) :=
          Messaged.trans (messaged_beginService s i) (Messaged.trans (messaged_putPair _ _ _) (messaged_deliverItem _ _ _ _ _))
        obtain ⟨h3, h4⟩ := ih (repeatLane s i) (by rw [h1]; exact hj)
        exact ⟨h3.trans h1, h2.trans h4⟩
      · split
        · exact ⟨rfl, .refl _⟩
        · have h1 : pairAt (answerUnknown s i) j = pairAt s j := by
            unfold answerUnknown
            dsimp only
            rw [pairAt_respond_ne _ _ _ _ _ hne, pairAt_closeOther_ne _ _ _ _ hne, pairAt_beginService_ne _ _ _ hne]
          have h2 : Messaged s (answerUnknown s i) :=
            Messaged.trans (messaged_beginService s i) (Messaged.trans (messaged_closeOther _ _ _) (messaged_respond _ _ _ _))
          obtain ⟨h3, h4⟩ := ih (answerUnknown s i) (by rw [h1]; exact hj)
          exact ⟨h3.trans h1, h2.trans h4⟩
    · exact ⟨rfl, .refl _⟩

theorem sameXfer_beginService (s : State) (i : Nat) (r : Request) (h : i < 24) :
    sameXfer (beginService s i) i r = sameXfer s i r := by
  simp [sameXfer, pairAt_beginService s i h]

/-- What the body of a served command starts from. -/
structure Served (s u : State) (pair : PairId) : Prop where
  same : u = { s with mbox := u.mbox }
  failed : u.mbox.failed = s.mbox.failed
  serving : (pairAt u pair.val).state = .serving
  own : pairAt u pair.val = { pairAt s pair.val with state := .serving, xfer := (pairAt u pair.val).xfer }
  others : ∀ j, j ≠ pair.val → pairAt u j = pairAt s j

theorem served_beginService (s : State) (pair : PairId) : Served s (beginService s pair.val) pair := by
  have hp := pairAt_beginService s pair.val pair.isLt
  refine ⟨?_, ?_, by rw [hp], by rw [hp], fun j hj => pairAt_beginService_ne s pair.val j (Ne.symm hj)⟩
  · unfold beginService
    dsimp only
    split <;> rfl
  · unfold beginService
    dsimp only
    split <;> rfl

theorem served_put {s u : State} {pair : PairId} (h : Served s u pair) (x : Option Transfer) :
    Served s (putPair u pair.val { pairAt u pair.val with xfer := x }) pair := by
  have hp := pairAt_putPair u pair.val { pairAt u pair.val with xfer := x } pair.isLt
  refine ⟨?_, h.failed, by rw [hp]; exact h.serving, ?_, fun j hj => ?_⟩
  · rw [h.same]
    rfl
  · rw [hp, h.own]
  · rw [pairAt_putPair_ne _ _ _ _ (Ne.symm hj)]
    exact h.others j hj

theorem served_discard {s u : State} {pair : PairId} (h : Served s u pair) : Served s (discardXfer u pair.val) pair := by
  have hq := served_put h none
  exact ⟨by rw [show discardXfer u pair.val = mboxEvent (putPair u pair.val { pairAt u pair.val with xfer := none }) 5 from
      rfl, hq.same]; rfl, hq.failed, hq.serving, hq.own, hq.others⟩

theorem sameXfer_discard (s : State) (i : Nat) (r : Request) (h : i < 24) : sameXfer (discardXfer s i) i r = none := by
  have : pairAt (discardXfer s i) i = { pairAt s i with xfer := none } := pairAt_putPair s i _ h
  simp [sameXfer, this]

/-- A request that passes its checks reaches the body of its command, with the whole payload, in a state that differs from
the one before in the mailboxes alone. -/
theorem serve_body (s : State) (pair : PairId) (c : CmdSpec) (body : Body) (h : Asked s pair c) (hc : c.code ≠ 0x0100)
    (hl : c.lengthOk (payloadOf s pair).length = true) :
    ∃ u : State, Served s u pair ∧ serve s pair c body = .next (mboxAuto (match body u (payloadOf s pair) with
        | (t, some a) => respond t pair.val (requestOf s pair.val) a
        | (t, none) => putPair t pair.val { pairAt t pair.val with job := some ⟨c.code, payloadOf s pair⟩ })) := by
  have hi := pair.isLt
  have hb := served_beginService s pair
  have hhead : ∀ u, Served s u pair →
      headerCheck u pair.val (requestOf s pair.val) (c.code == 0x0100) c.segmented = none := by
    intro u hu
    unfold headerCheck
    have hlev : (requestOf s pair.val).level = (pairAt u pair.val).level.toNat := by
      rw [hu.own]
      exact h.level
    have hz : (c.code == 0x0100) = false := by simpa using hc
    have hf0 : bitOf 0 0 = false := rfl
    have hf1 : bitOf 0 1 = false := rfl
    have hf2 : bitOf 0 2 = false := rfl
    simp only [h.crc, h.length, h.flags, h.status, h.reserved, hz, hlev, hf0, hf1, hf2]
    simp
  have hcmd : ∀ u, Served s u pair → commandCheck u pair.val c = none := by
    intro u hu
    unfold commandCheck
    have hr : u.boot.recovery = s.boot.recovery := by rw [hu.same]
    have := h.reach
    rw [if_neg (by rw [hu.own]; simpa using this)]
    by_cases hrec : s.boot.recovery = true
    · have := h.recovery hrec
      rw [if_neg (by simp [hr, hrec]; omega), if_neg (by simp [h.accept])]
    · rw [if_neg (by simp [hr, hrec]), if_neg (by simp [h.accept])]
  have hserve : serve s pair c body
      = .next (mboxAuto (runRequest (beginService s pair.val) pair.val (requestOf s pair.val) c body)) := by
    unfold serve
    dsimp only
    rw [if_pos (by rw [h.turn, h.code, beq_self_eq_true, decide_eq_true rfl]; rfl)]
  have hbits : bitOf (requestOf s pair.val).flags 1 = false := by
    rw [h.flags]
    rfl
  have hlen : (payloadOf s pair).length ≤ 496 := by
    have h1 : (requestOf s pair.val).length ≤ 496 := by
      have h2 := h.length
      unfold requestOf parseRequest at h2 ⊢
      dsimp only at h2 ⊢
      simp only [Bool.and_eq_true, decide_eq_true_eq] at h2
      exact h2.1
    have : (payloadOf s pair).length ≤ (requestOf s pair.val).length := by
      unfold payloadOf requestOf parseRequest
      dsimp only
      rw [List.length_take]
      exact Nat.min_le_left _ _
    omega
  rw [hserve]
  unfold runRequest
  dsimp only
  have hs2 : ∃ u, Served s u pair ∧ (c.segmented = true → sameXfer u pair.val (requestOf s pair.val) = none ∧
      (pairAt u pair.val).xfer = none) ∧
      closeOther (beginService s pair.val) pair.val (requestOf s pair.val) = u := by
    unfold closeOther
    split
    · refine ⟨_, served_discard hb, fun _ => ⟨sameXfer_discard _ _ _ hi, ?_⟩, rfl⟩
      have : pairAt (discardXfer (beginService s pair.val) pair.val) pair.val
          = { pairAt (beginService s pair.val) pair.val with xfer := none } := pairAt_putPair _ _ _ hi
      rw [this]
    · rename_i hx
      refine ⟨_, hb, fun hseg => ?_, rfl⟩
      have ha := h.alone hseg
      rw [sameXfer_beginService s _ _ hi] at hx ⊢
      rw [ha] at hx
      refine ⟨ha, ?_⟩
      simpa using hx
  obtain ⟨u, hu, hx, he⟩ := hs2
  rw [he, hhead u hu, hcmd u hu]
  dsimp only
  by_cases hseg : c.segmented = true
  · obtain ⟨hx1, hx2⟩ := hx hseg
    refine ⟨_, served_put hu none, ?_⟩
    rw [if_pos hseg]
    unfold runSegment
    have hp : (requestOf s pair.val).payload = payloadOf s pair := rfl
    simp only [hx1, hbits, hp]
    simp only [Option.isSome_none, Bool.false_eq_true, if_false, Option.map_none, Option.getD_none, List.nil_append]
    rw [if_neg (by omega)]
    unfold runBody
    rw [hl]
    simp only [Bool.not_true, Bool.false_eq_true, if_false]
    all_goals (split <;> rename_i hbd <;> rw [hbd])
  · refine ⟨u, hu, ?_⟩
    rw [if_neg hseg]
    have hp : (requestOf s pair.val).payload = payloadOf s pair := rfl
    unfold runBody
    rw [hp, hl]
    simp only [Bool.not_true, Bool.false_eq_true, if_false]
    all_goals (split <;> rename_i hbd <;> rw [hbd])

/-- A command whose body answers: the pair of `t` keeps its level and its count. -/
theorem answered_of (s b t : State) (pair : PairId) (a : Answer) (ha : a.status ≠ stCrc)
    (hlev : (pairAt t pair.val).level = (pairAt s pair.val).level)
    (hcnt : (pairAt t pair.val).served = (pairAt s pair.val).served)
    (hq : requestOf b pair.val = requestOf s pair.val) (hb1 : (pairAt b pair.val).level = (pairAt s pair.val).level)
    (hb2 : (pairAt b pair.val).served = (pairAt s pair.val).served) (hrest : Messaged b t) :
    Answered b (mboxAuto (respond t pair.val (requestOf s pair.val) a)) pair a := by
  have h1 := pairAt_respond t pair.val (requestOf s pair.val) a pair.isLt ha
  have h2 := mboxAutoN_other 24 (respond t pair.val (requestOf s pair.val) a) pair.val (by rw [h1.1]; simp)
  have h3 := (hrest.trans (messaged_respond t pair.val (requestOf s pair.val) a)).trans h2.2
  refine ⟨?_, ?_, ?_, h3⟩
  · unfold mboxAuto
    rw [h2.1, h1.1]
  · unfold mboxAuto
    rw [h2.1, h1.2.2, hlev, hq, hb1]
  · unfold mboxAuto
    rw [h2.1, h1.2.1, hcnt, hb2]

/-- A served command whose effect outside the mailboxes is `b` and whose answer is `a`. -/
theorem serve_answer (s b : State) (pair : PairId) (c : CmdSpec) (body : Body) (a : Answer) (h : Asked s pair c)
    (hc : c.code ≠ 0x0100) (hl : c.lengthOk (payloadOf s pair).length = true) (ha : a.status ≠ stCrc)
    (hm : b.mbox = s.mbox)
    (hbody : ∀ u, Served s u pair → body u (payloadOf s pair) = ({ b with mbox := u.mbox }, some a)) :
    ∃ t, serve s pair c body = .next t ∧ Answered b t pair a := by
  obtain ⟨u, hu, hs⟩ := serve_body s pair c body h hc hl
  rw [hbody u hu] at hs
  have hp : ∀ j, pairAt b j = pairAt s j := by
    intro j
    simp [pairAt, hm]
  have hq : pairAt { b with mbox := u.mbox } pair.val = pairAt u pair.val := rfl
  refine ⟨_, hs, answered_of s b _ pair a ha ?_ ?_ ?_ ?_ ?_ ⟨rfl, fun sd => by cases sd <;> rfl, fun _ => rfl⟩⟩
  · rw [hq, hu.own]
  · rw [hq, hu.own]
  · simp only [requestOf, messageOf, hp]
  · rw [hp]
  · rw [hp]

/-- A served command that begins a long command with the effect `b` outside the mailboxes. -/
theorem serve_begun (s b : State) (pair : PairId) (c : CmdSpec) (body : Body) (h : Asked s pair c)
    (hc : c.code ≠ 0x0100) (hl : c.lengthOk (payloadOf s pair).length = true) (hm : b.mbox = s.mbox)
    (hbody : ∀ u, Served s u pair → body u (payloadOf s pair) = ({ b with mbox := u.mbox }, none)) :
    ∃ t, serve s pair c body = .next t ∧ Begun b t pair c.code := by
  obtain ⟨u, hu, hs⟩ := serve_body s pair c body h hc hl
  rw [hbody u hu] at hs
  dsimp only at hs
  have hp : ∀ j, pairAt b j = pairAt s j := by
    intro j
    simp [pairAt, hm]
  have hq : pairAt { b with mbox := u.mbox } pair.val = pairAt u pair.val := rfl
  generalize hw : putPair { b with mbox := u.mbox } pair.val
    { pairAt { b with mbox := u.mbox } pair.val with job := some ⟨c.code, payloadOf s pair⟩ } = w at hs
  have h0 : pairAt w pair.val = { pairAt u pair.val with job := some ⟨c.code, payloadOf s pair⟩ } := by
    rw [← hw, pairAt_putPair _ _ _ pair.isLt, hq]
  have h2 := mboxAutoN_other 24 w pair.val (by rw [h0, hu.own]; simp)
  have hr : requestOf b pair.val = requestOf s pair.val := by
    simp only [requestOf, messageOf, hp]
  have h3 : Messaged b w := by
    rw [← hw]
    exact ⟨rfl, fun sd => by cases sd <;> rfl, fun _ => rfl⟩
  refine ⟨_, hs, ?_, ?_, h3.trans h2.2⟩
  · unfold mboxAuto
    rw [h2.1, h0, hu.own]
  · unfold mboxAuto
    rw [h2.1, h0, hr]
    rfl

end Sys2Proof.Machine
end

