-- ==== Sys2Proof/Laws/Mem.lean ====
section
/-! SUPPORT. Every operation over a sparse byte memory keeps its canonical form, and the memories of State.reset have
it. -/

namespace Sys2Proof.Machine

open Sys2Proof

/-- The canonical form as an order on entries: addresses strictly rising from `lo`, no byte 0. -/
theorem wfFrom_iff (lo : Nat) (m : Mem) :
    Mem.wfFrom lo m = true ↔ m.Pairwise (fun x y => x.1 < y.1) ∧ ∀ c ∈ m, lo ≤ c.1 ∧ c.2 ≠ 0 := by
  induction m generalizing lo with
  | nil => simp [Mem.wfFrom]
  | cons c r ih =>
    obtain ⟨a, b⟩ := c
    simp only [Mem.wfFrom, Bool.and_eq_true, decide_eq_true_eq, bne_iff_ne, ne_eq, ih, List.pairwise_cons, List.mem_cons,
      forall_eq_or_imp]
    constructor
    · rintro ⟨⟨hl, hb⟩, hp, hr⟩
      exact ⟨⟨fun x hx => (hr x hx).1, hp⟩, ⟨hl, hb⟩, fun x hx => ⟨by have := (hr x hx).1; omega, (hr x hx).2⟩⟩
    · rintro ⟨⟨ha, hp⟩, ⟨hl, hb⟩, hr⟩
      exact ⟨⟨hl, hb⟩, hp, fun x hx => ⟨ha x hx, (hr x hx).2⟩⟩

/-- The canonical form: addresses strictly rising, no byte 0. -/
theorem wf_iff (m : Mem) : m.wf = true ↔ m.Pairwise (fun x y => x.1 < y.1) ∧ ∀ c ∈ m, c.2 ≠ 0 := by
  simp [Mem.wf, wfFrom_iff]

/-- The entries of a byte string stand in the span that it fills, rising, without 0. -/
theorem memCells_wf (a : Nat) (bs : List Byte) :
    (memCells a bs).Pairwise (fun x y => x.1 < y.1) ∧ ∀ c ∈ memCells a bs, a ≤ c.1 ∧ c.1 < a + bs.length ∧ c.2 ≠ 0 := by
  induction bs generalizing a with
  | nil => simp [memCells]
  | cons b r ih =>
    obtain ⟨hp, hr⟩ := ih (a + 1)
    have hw : ∀ c ∈ memCells (a + 1) r, a ≤ c.1 ∧ c.1 < a + (r.length + 1) ∧ c.2 ≠ 0 := fun c hc => by
      have := hr c hc
      exact ⟨by omega, by omega, this.2.2⟩
    by_cases hb : b = 0
    · simp only [memCells, hb, if_true, List.length_cons]
      exact ⟨hp, hw⟩
    · simp only [memCells, hb, if_false, List.length_cons, List.pairwise_cons, List.mem_cons, forall_eq_or_imp]
      exact ⟨⟨fun c hc => by have := hr c hc; show a < c.1; omega, hp⟩, ⟨by omega, by omega, hb⟩, hw⟩

/-- Putting entries of a span between what lies below and above it keeps the form. -/
theorem splice_wf (m x : Mem) (a n : Nat) (hm : m.wf = true) (hx : x.Pairwise (fun c d => c.1 < d.1))
    (hs : ∀ c ∈ x, a ≤ c.1 ∧ c.1 < a + n ∧ c.2 ≠ 0) :
    Mem.wf (m.filter (·.1 < a) ++ x ++ m.filter (fun c => decide (a + n ≤ c.1))) = true := by
  rw [wf_iff] at hm ⊢
  obtain ⟨hp, hb⟩ := hm
  constructor
  · rw [List.pairwise_append, List.pairwise_append]
    refine ⟨⟨hp.filter _, hx, ?_⟩, hp.filter _, ?_⟩
    · intro c hc d hd
      have := (List.mem_filter.mp hc).2
      have := hs d hd
      simp_all
      omega
    · intro c hc d hd
      have hd2 := (List.mem_filter.mp hd).2
      rw [List.mem_append] at hc
      rcases hc with hc | hc
      · have := (List.mem_filter.mp hc).2
        simp_all
        omega
      · have := hs c hc
        simp_all
        omega
  · intro c hc
    rw [List.mem_append, List.mem_append] at hc
    rcases hc with (hc | hc) | hc
    · exact hb c (List.mem_filter.mp hc).1
    · exact (hs c hc).2.2
    · exact hb c (List.mem_filter.mp hc).1

theorem memWrite_wf (m : Mem) (a : Nat) (bs : List Byte) (hm : m.wf = true) : (memWrite m a bs).wf = true :=
  splice_wf m _ a bs.length hm (memCells_wf a bs).1 (memCells_wf a bs).2

theorem memPutLe_wf (m : Mem) (a n v : Nat) (hm : m.wf = true) : (memPutLe m a n v).wf = true :=
  memWrite_wf m a _ hm

theorem memPutBe_wf (m : Mem) (a : Nat) (be : BitVec 4) (v : U32) (hm : m.wf = true) : (memPutBe m a be v).wf = true := by
  unfold memPutBe
  have step : ∀ (l : List Nat) (m : Mem), m.wf = true → (l.foldl (fun m i =>
      if be.getLsbD i then memWrite m (a + i) [v.extractLsb' (8 * i) 8] else m) m).wf = true := by
    intro l
    induction l with
    | nil => exact fun _ h => h
    | cons i r ih =>
      intro m h
      rw [List.foldl_cons]
      apply ih
      split
      · exact memWrite_wf m _ _ h
      · exact h
  exact step _ m hm

theorem memZero_wf (m : Mem) (a n : Nat) (hm : m.wf = true) : (memZero m a n).wf = true := by
  rw [wf_iff] at hm ⊢
  exact ⟨hm.1.filter _, fun c hc => hm.2 c (List.mem_filter.mp hc).1⟩

theorem memCopy_wf (m : Mem) (da : Nat) (src : Mem) (sa n : Nat) (hm : m.wf = true) (hs : src.wf = true) :
    (memCopy m da src sa n).wf = true := by
  rw [wf_iff] at hs
  refine splice_wf m _ da n hm ?_ ?_
  · rw [List.pairwise_map, List.pairwise_filter]
    exact hs.1.imp (fun {c d} h hc hd => by simp_all; omega)
  · intro c hc
    obtain ⟨d, hd, rfl⟩ := List.mem_map.mp hc
    have hq := (List.mem_filter.mp hd).2
    simp only [Bool.and_eq_true, decide_eq_true_eq] at hq
    exact ⟨by show da ≤ d.1 - sa + da; omega, by show d.1 - sa + da < da + n; omega, hs.2 d (List.mem_filter.mp hd).1⟩

/-- The memories of State.reset list nothing, so they have their form. -/
theorem reset_memoriesWf : memoriesWf State.reset = true := by decide

end Sys2Proof.Machine
end

