-- ==== Sys2Proof/Laws/State.lean ====
section
/-! SUPPORT. The named updates of State: each leaves every other block as it was, and the part it replaces reads back. -/

namespace Sys2Proof.Machine

open Sys2Proof

@[simp] theorem putLane_epoch (s : State) (l : LaneId) (x : Lane) : (putLane s l x).epoch = s.epoch := rfl
@[simp] theorem putLane_mem (s : State) (l : LaneId) (x : Lane) : (putLane s l x).mem = s.mem := rfl
@[simp] theorem putLane_time (s : State) (l : LaneId) (x : Lane) : (putLane s l x).time = s.time := rfl
@[simp] theorem putLane_check (s : State) (l : LaneId) (x : Lane) : (putLane s l x).check = s.check := rfl
@[simp] theorem putLane_mor (s : State) (l : LaneId) (x : Lane) : (putLane s l x).mor = s.mor := rfl
@[simp] theorem putLane_dbg (s : State) (l : LaneId) (x : Lane) : (putLane s l x).dbg = s.dbg := rfl
@[simp] theorem putLane_weft (s : State) (l : LaneId) (x : Lane) : (putLane s l x).weft = s.weft := rfl
@[simp] theorem putLane_mbox (s : State) (l : LaneId) (x : Lane) : (putLane s l x).mbox = s.mbox := rfl
@[simp] theorem putLane_pkt (s : State) (l : LaneId) (x : Lane) : (putLane s l x).pkt = s.pkt := rfl
@[simp] theorem putLane_route (s : State) (l : LaneId) (x : Lane) : (putLane s l x).route = s.route := rfl
@[simp] theorem putLane_rack (s : State) (l : LaneId) (x : Lane) : (putLane s l x).rack = s.rack := rfl
@[simp] theorem putLane_fio (s : State) (l : LaneId) (x : Lane) : (putLane s l x).fio = s.fio := rfl
@[simp] theorem putLane_safe (s : State) (l : LaneId) (x : Lane) : (putLane s l x).safe = s.safe := rfl
@[simp] theorem putLane_muslin (s : State) (l : LaneId) (x : Lane) : (putLane s l x).muslin = s.muslin := rfl
@[simp] theorem putLane_power (s : State) (l : LaneId) (x : Lane) : (putLane s l x).power = s.power := rfl
@[simp] theorem putLane_boot (s : State) (l : LaneId) (x : Lane) : (putLane s l x).boot = s.boot := rfl
@[simp] theorem putLane_sec (s : State) (l : LaneId) (x : Lane) : (putLane s l x).sec = s.sec := rfl
@[simp] theorem putLane_otp (s : State) (l : LaneId) (x : Lane) : (putLane s l x).otp = s.otp := rfl
@[simp] theorem putLane_maps (s : State) (l : LaneId) (x : Lane) : (putLane s l x).maps = s.maps := rfl
@[simp] theorem putLane_slot (s : State) (l : LaneId) (x : Lane) : (putLane s l x).slot = s.slot := rfl
@[simp] theorem putLane_slotPins (s : State) (l : LaneId) (x : Lane) : (putLane s l x).slotPins = s.slotPins := rfl
@[simp] theorem putLane_readData (s : State) (l : LaneId) (x : Lane) : (putLane s l x).readData = s.readData := rfl
@[simp] theorem putLane_freeCtr (s : State) (l : LaneId) (x : Lane) : (putLane s l x).freeCtr = s.freeCtr := rfl
@[simp] theorem putLane_pending (s : State) (l : LaneId) (x : Lane) : (putLane s l x).pending = s.pending := rfl

@[simp] theorem mapLanes_epoch (s : State) (f : LaneId → Lane → Lane) : (mapLanes s f).epoch = s.epoch := rfl
@[simp] theorem mapLanes_mem (s : State) (f : LaneId → Lane → Lane) : (mapLanes s f).mem = s.mem := rfl
@[simp] theorem mapLanes_time (s : State) (f : LaneId → Lane → Lane) : (mapLanes s f).time = s.time := rfl
@[simp] theorem mapLanes_check (s : State) (f : LaneId → Lane → Lane) : (mapLanes s f).check = s.check := rfl
@[simp] theorem mapLanes_mor (s : State) (f : LaneId → Lane → Lane) : (mapLanes s f).mor = s.mor := rfl
@[simp] theorem mapLanes_dbg (s : State) (f : LaneId → Lane → Lane) : (mapLanes s f).dbg = s.dbg := rfl
@[simp] theorem mapLanes_weft (s : State) (f : LaneId → Lane → Lane) : (mapLanes s f).weft = s.weft := rfl
@[simp] theorem mapLanes_mbox (s : State) (f : LaneId → Lane → Lane) : (mapLanes s f).mbox = s.mbox := rfl
@[simp] theorem mapLanes_pkt (s : State) (f : LaneId → Lane → Lane) : (mapLanes s f).pkt = s.pkt := rfl
@[simp] theorem mapLanes_route (s : State) (f : LaneId → Lane → Lane) : (mapLanes s f).route = s.route := rfl
@[simp] theorem mapLanes_rack (s : State) (f : LaneId → Lane → Lane) : (mapLanes s f).rack = s.rack := rfl
@[simp] theorem mapLanes_fio (s : State) (f : LaneId → Lane → Lane) : (mapLanes s f).fio = s.fio := rfl
@[simp] theorem mapLanes_safe (s : State) (f : LaneId → Lane → Lane) : (mapLanes s f).safe = s.safe := rfl
@[simp] theorem mapLanes_muslin (s : State) (f : LaneId → Lane → Lane) : (mapLanes s f).muslin = s.muslin := rfl
@[simp] theorem mapLanes_power (s : State) (f : LaneId → Lane → Lane) : (mapLanes s f).power = s.power := rfl
@[simp] theorem mapLanes_boot (s : State) (f : LaneId → Lane → Lane) : (mapLanes s f).boot = s.boot := rfl
@[simp] theorem mapLanes_sec (s : State) (f : LaneId → Lane → Lane) : (mapLanes s f).sec = s.sec := rfl
@[simp] theorem mapLanes_otp (s : State) (f : LaneId → Lane → Lane) : (mapLanes s f).otp = s.otp := rfl
@[simp] theorem mapLanes_maps (s : State) (f : LaneId → Lane → Lane) : (mapLanes s f).maps = s.maps := rfl
@[simp] theorem mapLanes_slot (s : State) (f : LaneId → Lane → Lane) : (mapLanes s f).slot = s.slot := rfl
@[simp] theorem mapLanes_slotPins (s : State) (f : LaneId → Lane → Lane) : (mapLanes s f).slotPins = s.slotPins := rfl
@[simp] theorem mapLanes_readData (s : State) (f : LaneId → Lane → Lane) : (mapLanes s f).readData = s.readData := rfl
@[simp] theorem mapLanes_freeCtr (s : State) (f : LaneId → Lane → Lane) : (mapLanes s f).freeCtr = s.freeCtr := rfl
@[simp] theorem mapLanes_pending (s : State) (f : LaneId → Lane → Lane) : (mapLanes s f).pending = s.pending := rfl

@[simp] theorem putTb_lanes (s : State) (k : Fin 4) (x : TimeBase) : (putTb s k x).lanes = s.lanes := rfl
@[simp] theorem putTb_epoch (s : State) (k : Fin 4) (x : TimeBase) : (putTb s k x).epoch = s.epoch := rfl
@[simp] theorem putTb_mem (s : State) (k : Fin 4) (x : TimeBase) : (putTb s k x).mem = s.mem := rfl
@[simp] theorem putTb_check (s : State) (k : Fin 4) (x : TimeBase) : (putTb s k x).check = s.check := rfl
@[simp] theorem putTb_mor (s : State) (k : Fin 4) (x : TimeBase) : (putTb s k x).mor = s.mor := rfl
@[simp] theorem putTb_dbg (s : State) (k : Fin 4) (x : TimeBase) : (putTb s k x).dbg = s.dbg := rfl
@[simp] theorem putTb_weft (s : State) (k : Fin 4) (x : TimeBase) : (putTb s k x).weft = s.weft := rfl
@[simp] theorem putTb_mbox (s : State) (k : Fin 4) (x : TimeBase) : (putTb s k x).mbox = s.mbox := rfl
@[simp] theorem putTb_pkt (s : State) (k : Fin 4) (x : TimeBase) : (putTb s k x).pkt = s.pkt := rfl
@[simp] theorem putTb_route (s : State) (k : Fin 4) (x : TimeBase) : (putTb s k x).route = s.route := rfl
@[simp] theorem putTb_rack (s : State) (k : Fin 4) (x : TimeBase) : (putTb s k x).rack = s.rack := rfl
@[simp] theorem putTb_fio (s : State) (k : Fin 4) (x : TimeBase) : (putTb s k x).fio = s.fio := rfl
@[simp] theorem putTb_safe (s : State) (k : Fin 4) (x : TimeBase) : (putTb s k x).safe = s.safe := rfl
@[simp] theorem putTb_muslin (s : State) (k : Fin 4) (x : TimeBase) : (putTb s k x).muslin = s.muslin := rfl
@[simp] theorem putTb_power (s : State) (k : Fin 4) (x : TimeBase) : (putTb s k x).power = s.power := rfl
@[simp] theorem putTb_boot (s : State) (k : Fin 4) (x : TimeBase) : (putTb s k x).boot = s.boot := rfl
@[simp] theorem putTb_sec (s : State) (k : Fin 4) (x : TimeBase) : (putTb s k x).sec = s.sec := rfl
@[simp] theorem putTb_otp (s : State) (k : Fin 4) (x : TimeBase) : (putTb s k x).otp = s.otp := rfl
@[simp] theorem putTb_maps (s : State) (k : Fin 4) (x : TimeBase) : (putTb s k x).maps = s.maps := rfl
@[simp] theorem putTb_slot (s : State) (k : Fin 4) (x : TimeBase) : (putTb s k x).slot = s.slot := rfl
@[simp] theorem putTb_slotPins (s : State) (k : Fin 4) (x : TimeBase) : (putTb s k x).slotPins = s.slotPins := rfl
@[simp] theorem putTb_readData (s : State) (k : Fin 4) (x : TimeBase) : (putTb s k x).readData = s.readData := rfl
@[simp] theorem putTb_freeCtr (s : State) (k : Fin 4) (x : TimeBase) : (putTb s k x).freeCtr = s.freeCtr := rfl
@[simp] theorem putTb_pending (s : State) (k : Fin 4) (x : TimeBase) : (putTb s k x).pending = s.pending := rfl

@[simp] theorem putTpo_lanes (s : State) (k : Fin 8) (x : Tpo) : (putTpo s k x).lanes = s.lanes := rfl
@[simp] theorem putTpo_epoch (s : State) (k : Fin 8) (x : Tpo) : (putTpo s k x).epoch = s.epoch := rfl
@[simp] theorem putTpo_mem (s : State) (k : Fin 8) (x : Tpo) : (putTpo s k x).mem = s.mem := rfl
@[simp] theorem putTpo_check (s : State) (k : Fin 8) (x : Tpo) : (putTpo s k x).check = s.check := rfl
@[simp] theorem putTpo_mor (s : State) (k : Fin 8) (x : Tpo) : (putTpo s k x).mor = s.mor := rfl
@[simp] theorem putTpo_dbg (s : State) (k : Fin 8) (x : Tpo) : (putTpo s k x).dbg = s.dbg := rfl
@[simp] theorem putTpo_weft (s : State) (k : Fin 8) (x : Tpo) : (putTpo s k x).weft = s.weft := rfl
@[simp] theorem putTpo_mbox (s : State) (k : Fin 8) (x : Tpo) : (putTpo s k x).mbox = s.mbox := rfl
@[simp] theorem putTpo_pkt (s : State) (k : Fin 8) (x : Tpo) : (putTpo s k x).pkt = s.pkt := rfl
@[simp] theorem putTpo_route (s : State) (k : Fin 8) (x : Tpo) : (putTpo s k x).route = s.route := rfl
@[simp] theorem putTpo_rack (s : State) (k : Fin 8) (x : Tpo) : (putTpo s k x).rack = s.rack := rfl
@[simp] theorem putTpo_fio (s : State) (k : Fin 8) (x : Tpo) : (putTpo s k x).fio = s.fio := rfl
@[simp] theorem putTpo_safe (s : State) (k : Fin 8) (x : Tpo) : (putTpo s k x).safe = s.safe := rfl
@[simp] theorem putTpo_muslin (s : State) (k : Fin 8) (x : Tpo) : (putTpo s k x).muslin = s.muslin := rfl
@[simp] theorem putTpo_power (s : State) (k : Fin 8) (x : Tpo) : (putTpo s k x).power = s.power := rfl
@[simp] theorem putTpo_boot (s : State) (k : Fin 8) (x : Tpo) : (putTpo s k x).boot = s.boot := rfl
@[simp] theorem putTpo_sec (s : State) (k : Fin 8) (x : Tpo) : (putTpo s k x).sec = s.sec := rfl
@[simp] theorem putTpo_otp (s : State) (k : Fin 8) (x : Tpo) : (putTpo s k x).otp = s.otp := rfl
@[simp] theorem putTpo_maps (s : State) (k : Fin 8) (x : Tpo) : (putTpo s k x).maps = s.maps := rfl
@[simp] theorem putTpo_slot (s : State) (k : Fin 8) (x : Tpo) : (putTpo s k x).slot = s.slot := rfl
@[simp] theorem putTpo_slotPins (s : State) (k : Fin 8) (x : Tpo) : (putTpo s k x).slotPins = s.slotPins := rfl
@[simp] theorem putTpo_readData (s : State) (k : Fin 8) (x : Tpo) : (putTpo s k x).readData = s.readData := rfl
@[simp] theorem putTpo_freeCtr (s : State) (k : Fin 8) (x : Tpo) : (putTpo s k x).freeCtr = s.freeCtr := rfl
@[simp] theorem putTpo_pending (s : State) (k : Fin 8) (x : Tpo) : (putTpo s k x).pending = s.pending := rfl

@[simp] theorem putCtx_lanes (s : State) (k : Nat) (x : CheckCtx) : (putCtx s k x).lanes = s.lanes := rfl
@[simp] theorem putCtx_epoch (s : State) (k : Nat) (x : CheckCtx) : (putCtx s k x).epoch = s.epoch := rfl
@[simp] theorem putCtx_mem (s : State) (k : Nat) (x : CheckCtx) : (putCtx s k x).mem = s.mem := rfl
@[simp] theorem putCtx_time (s : State) (k : Nat) (x : CheckCtx) : (putCtx s k x).time = s.time := rfl
@[simp] theorem putCtx_mor (s : State) (k : Nat) (x : CheckCtx) : (putCtx s k x).mor = s.mor := rfl
@[simp] theorem putCtx_dbg (s : State) (k : Nat) (x : CheckCtx) : (putCtx s k x).dbg = s.dbg := rfl
@[simp] theorem putCtx_weft (s : State) (k : Nat) (x : CheckCtx) : (putCtx s k x).weft = s.weft := rfl
@[simp] theorem putCtx_mbox (s : State) (k : Nat) (x : CheckCtx) : (putCtx s k x).mbox = s.mbox := rfl
@[simp] theorem putCtx_pkt (s : State) (k : Nat) (x : CheckCtx) : (putCtx s k x).pkt = s.pkt := rfl
@[simp] theorem putCtx_route (s : State) (k : Nat) (x : CheckCtx) : (putCtx s k x).route = s.route := rfl
@[simp] theorem putCtx_rack (s : State) (k : Nat) (x : CheckCtx) : (putCtx s k x).rack = s.rack := rfl
@[simp] theorem putCtx_fio (s : State) (k : Nat) (x : CheckCtx) : (putCtx s k x).fio = s.fio := rfl
@[simp] theorem putCtx_safe (s : State) (k : Nat) (x : CheckCtx) : (putCtx s k x).safe = s.safe := rfl
@[simp] theorem putCtx_muslin (s : State) (k : Nat) (x : CheckCtx) : (putCtx s k x).muslin = s.muslin := rfl
@[simp] theorem putCtx_power (s : State) (k : Nat) (x : CheckCtx) : (putCtx s k x).power = s.power := rfl
@[simp] theorem putCtx_boot (s : State) (k : Nat) (x : CheckCtx) : (putCtx s k x).boot = s.boot := rfl
@[simp] theorem putCtx_sec (s : State) (k : Nat) (x : CheckCtx) : (putCtx s k x).sec = s.sec := rfl
@[simp] theorem putCtx_otp (s : State) (k : Nat) (x : CheckCtx) : (putCtx s k x).otp = s.otp := rfl
@[simp] theorem putCtx_maps (s : State) (k : Nat) (x : CheckCtx) : (putCtx s k x).maps = s.maps := rfl
@[simp] theorem putCtx_slot (s : State) (k : Nat) (x : CheckCtx) : (putCtx s k x).slot = s.slot := rfl
@[simp] theorem putCtx_slotPins (s : State) (k : Nat) (x : CheckCtx) : (putCtx s k x).slotPins = s.slotPins := rfl
@[simp] theorem putCtx_readData (s : State) (k : Nat) (x : CheckCtx) : (putCtx s k x).readData = s.readData := rfl
@[simp] theorem putCtx_freeCtr (s : State) (k : Nat) (x : CheckCtx) : (putCtx s k x).freeCtr = s.freeCtr := rfl
@[simp] theorem putCtx_pending (s : State) (k : Nat) (x : CheckCtx) : (putCtx s k x).pending = s.pending := rfl

@[simp] theorem putLink_lanes (s : State) (sd : Side) (x : Link) : (putLink s sd x).lanes = s.lanes := by cases sd <;> rfl
@[simp] theorem putLink_epoch (s : State) (sd : Side) (x : Link) : (putLink s sd x).epoch = s.epoch := by cases sd <;> rfl
@[simp] theorem putLink_mem (s : State) (sd : Side) (x : Link) : (putLink s sd x).mem = s.mem := by cases sd <;> rfl
@[simp] theorem putLink_time (s : State) (sd : Side) (x : Link) : (putLink s sd x).time = s.time := by cases sd <;> rfl
@[simp] theorem putLink_check (s : State) (sd : Side) (x : Link) : (putLink s sd x).check = s.check := by cases sd <;> rfl
@[simp] theorem putLink_mor (s : State) (sd : Side) (x : Link) : (putLink s sd x).mor = s.mor := by cases sd <;> rfl
@[simp] theorem putLink_dbg (s : State) (sd : Side) (x : Link) : (putLink s sd x).dbg = s.dbg := by cases sd <;> rfl
@[simp] theorem putLink_mbox (s : State) (sd : Side) (x : Link) : (putLink s sd x).mbox = s.mbox := by cases sd <;> rfl
@[simp] theorem putLink_pkt (s : State) (sd : Side) (x : Link) : (putLink s sd x).pkt = s.pkt := by cases sd <;> rfl
@[simp] theorem putLink_route (s : State) (sd : Side) (x : Link) : (putLink s sd x).route = s.route := by cases sd <;> rfl
@[simp] theorem putLink_rack (s : State) (sd : Side) (x : Link) : (putLink s sd x).rack = s.rack := by cases sd <;> rfl
@[simp] theorem putLink_fio (s : State) (sd : Side) (x : Link) : (putLink s sd x).fio = s.fio := by cases sd <;> rfl
@[simp] theorem putLink_safe (s : State) (sd : Side) (x : Link) : (putLink s sd x).safe = s.safe := by cases sd <;> rfl
@[simp] theorem putLink_muslin (s : State) (sd : Side) (x : Link) : (putLink s sd x).muslin = s.muslin := by cases sd <;> rfl
@[simp] theorem putLink_power (s : State) (sd : Side) (x : Link) : (putLink s sd x).power = s.power := by cases sd <;> rfl
@[simp] theorem putLink_boot (s : State) (sd : Side) (x : Link) : (putLink s sd x).boot = s.boot := by cases sd <;> rfl
@[simp] theorem putLink_sec (s : State) (sd : Side) (x : Link) : (putLink s sd x).sec = s.sec := by cases sd <;> rfl
@[simp] theorem putLink_otp (s : State) (sd : Side) (x : Link) : (putLink s sd x).otp = s.otp := by cases sd <;> rfl
@[simp] theorem putLink_maps (s : State) (sd : Side) (x : Link) : (putLink s sd x).maps = s.maps := by cases sd <;> rfl
@[simp] theorem putLink_slot (s : State) (sd : Side) (x : Link) : (putLink s sd x).slot = s.slot := by cases sd <;> rfl
@[simp] theorem putLink_slotPins (s : State) (sd : Side) (x : Link) : (putLink s sd x).slotPins = s.slotPins := by cases sd <;> rfl
@[simp] theorem putLink_readData (s : State) (sd : Side) (x : Link) : (putLink s sd x).readData = s.readData := by cases sd <;> rfl
@[simp] theorem putLink_freeCtr (s : State) (sd : Side) (x : Link) : (putLink s sd x).freeCtr = s.freeCtr := by cases sd <;> rfl
@[simp] theorem putLink_pending (s : State) (sd : Side) (x : Link) : (putLink s sd x).pending = s.pending := by cases sd <;> rfl

@[simp] theorem putPair_lanes (s : State) (k : Nat) (x : MailPair) : (putPair s k x).lanes = s.lanes := rfl
@[simp] theorem putPair_epoch (s : State) (k : Nat) (x : MailPair) : (putPair s k x).epoch = s.epoch := rfl
@[simp] theorem putPair_mem (s : State) (k : Nat) (x : MailPair) : (putPair s k x).mem = s.mem := rfl
@[simp] theorem putPair_time (s : State) (k : Nat) (x : MailPair) : (putPair s k x).time = s.time := rfl
@[simp] theorem putPair_check (s : State) (k : Nat) (x : MailPair) : (putPair s k x).check = s.check := rfl
@[simp] theorem putPair_mor (s : State) (k : Nat) (x : MailPair) : (putPair s k x).mor = s.mor := rfl
@[simp] theorem putPair_dbg (s : State) (k : Nat) (x : MailPair) : (putPair s k x).dbg = s.dbg := rfl
@[simp] theorem putPair_weft (s : State) (k : Nat) (x : MailPair) : (putPair s k x).weft = s.weft := rfl
@[simp] theorem putPair_pkt (s : State) (k : Nat) (x : MailPair) : (putPair s k x).pkt = s.pkt := rfl
@[simp] theorem putPair_route (s : State) (k : Nat) (x : MailPair) : (putPair s k x).route = s.route := rfl
@[simp] theorem putPair_rack (s : State) (k : Nat) (x : MailPair) : (putPair s k x).rack = s.rack := rfl
@[simp] theorem putPair_fio (s : State) (k : Nat) (x : MailPair) : (putPair s k x).fio = s.fio := rfl
@[simp] theorem putPair_safe (s : State) (k : Nat) (x : MailPair) : (putPair s k x).safe = s.safe := rfl
@[simp] theorem putPair_muslin (s : State) (k : Nat) (x : MailPair) : (putPair s k x).muslin = s.muslin := rfl
@[simp] theorem putPair_power (s : State) (k : Nat) (x : MailPair) : (putPair s k x).power = s.power := rfl
@[simp] theorem putPair_boot (s : State) (k : Nat) (x : MailPair) : (putPair s k x).boot = s.boot := rfl
@[simp] theorem putPair_sec (s : State) (k : Nat) (x : MailPair) : (putPair s k x).sec = s.sec := rfl
@[simp] theorem putPair_otp (s : State) (k : Nat) (x : MailPair) : (putPair s k x).otp = s.otp := rfl
@[simp] theorem putPair_maps (s : State) (k : Nat) (x : MailPair) : (putPair s k x).maps = s.maps := rfl
@[simp] theorem putPair_slot (s : State) (k : Nat) (x : MailPair) : (putPair s k x).slot = s.slot := rfl
@[simp] theorem putPair_slotPins (s : State) (k : Nat) (x : MailPair) : (putPair s k x).slotPins = s.slotPins := rfl
@[simp] theorem putPair_readData (s : State) (k : Nat) (x : MailPair) : (putPair s k x).readData = s.readData := rfl
@[simp] theorem putPair_freeCtr (s : State) (k : Nat) (x : MailPair) : (putPair s k x).freeCtr = s.freeCtr := rfl
@[simp] theorem putPair_pending (s : State) (k : Nat) (x : MailPair) : (putPair s k x).pending = s.pending := rfl

@[simp] theorem putPort_lanes (s : State) (k : Fin 4) (x : EthPort) : (putPort s k x).lanes = s.lanes := rfl
@[simp] theorem putPort_epoch (s : State) (k : Fin 4) (x : EthPort) : (putPort s k x).epoch = s.epoch := rfl
@[simp] theorem putPort_mem (s : State) (k : Fin 4) (x : EthPort) : (putPort s k x).mem = s.mem := rfl
@[simp] theorem putPort_time (s : State) (k : Fin 4) (x : EthPort) : (putPort s k x).time = s.time := rfl
@[simp] theorem putPort_check (s : State) (k : Fin 4) (x : EthPort) : (putPort s k x).check = s.check := rfl
@[simp] theorem putPort_mor (s : State) (k : Fin 4) (x : EthPort) : (putPort s k x).mor = s.mor := rfl
@[simp] theorem putPort_dbg (s : State) (k : Fin 4) (x : EthPort) : (putPort s k x).dbg = s.dbg := rfl
@[simp] theorem putPort_weft (s : State) (k : Fin 4) (x : EthPort) : (putPort s k x).weft = s.weft := rfl
@[simp] theorem putPort_mbox (s : State) (k : Fin 4) (x : EthPort) : (putPort s k x).mbox = s.mbox := rfl
@[simp] theorem putPort_route (s : State) (k : Fin 4) (x : EthPort) : (putPort s k x).route = s.route := rfl
@[simp] theorem putPort_rack (s : State) (k : Fin 4) (x : EthPort) : (putPort s k x).rack = s.rack := rfl
@[simp] theorem putPort_fio (s : State) (k : Fin 4) (x : EthPort) : (putPort s k x).fio = s.fio := rfl
@[simp] theorem putPort_safe (s : State) (k : Fin 4) (x : EthPort) : (putPort s k x).safe = s.safe := rfl
@[simp] theorem putPort_muslin (s : State) (k : Fin 4) (x : EthPort) : (putPort s k x).muslin = s.muslin := rfl
@[simp] theorem putPort_power (s : State) (k : Fin 4) (x : EthPort) : (putPort s k x).power = s.power := rfl
@[simp] theorem putPort_boot (s : State) (k : Fin 4) (x : EthPort) : (putPort s k x).boot = s.boot := rfl
@[simp] theorem putPort_sec (s : State) (k : Fin 4) (x : EthPort) : (putPort s k x).sec = s.sec := rfl
@[simp] theorem putPort_otp (s : State) (k : Fin 4) (x : EthPort) : (putPort s k x).otp = s.otp := rfl
@[simp] theorem putPort_maps (s : State) (k : Fin 4) (x : EthPort) : (putPort s k x).maps = s.maps := rfl
@[simp] theorem putPort_slot (s : State) (k : Fin 4) (x : EthPort) : (putPort s k x).slot = s.slot := rfl
@[simp] theorem putPort_slotPins (s : State) (k : Fin 4) (x : EthPort) : (putPort s k x).slotPins = s.slotPins := rfl
@[simp] theorem putPort_readData (s : State) (k : Fin 4) (x : EthPort) : (putPort s k x).readData = s.readData := rfl
@[simp] theorem putPort_freeCtr (s : State) (k : Fin 4) (x : EthPort) : (putPort s k x).freeCtr = s.freeCtr := rfl
@[simp] theorem putPort_pending (s : State) (k : Fin 4) (x : EthPort) : (putPort s k x).pending = s.pending := rfl

@[simp] theorem putStream_lanes (s : State) (k : Nat) (x : Stream) : (putStream s k x).lanes = s.lanes := rfl
@[simp] theorem putStream_epoch (s : State) (k : Nat) (x : Stream) : (putStream s k x).epoch = s.epoch := rfl
@[simp] theorem putStream_mem (s : State) (k : Nat) (x : Stream) : (putStream s k x).mem = s.mem := rfl
@[simp] theorem putStream_time (s : State) (k : Nat) (x : Stream) : (putStream s k x).time = s.time := rfl
@[simp] theorem putStream_check (s : State) (k : Nat) (x : Stream) : (putStream s k x).check = s.check := rfl
@[simp] theorem putStream_mor (s : State) (k : Nat) (x : Stream) : (putStream s k x).mor = s.mor := rfl
@[simp] theorem putStream_dbg (s : State) (k : Nat) (x : Stream) : (putStream s k x).dbg = s.dbg := rfl
@[simp] theorem putStream_weft (s : State) (k : Nat) (x : Stream) : (putStream s k x).weft = s.weft := rfl
@[simp] theorem putStream_mbox (s : State) (k : Nat) (x : Stream) : (putStream s k x).mbox = s.mbox := rfl
@[simp] theorem putStream_route (s : State) (k : Nat) (x : Stream) : (putStream s k x).route = s.route := rfl
@[simp] theorem putStream_rack (s : State) (k : Nat) (x : Stream) : (putStream s k x).rack = s.rack := rfl
@[simp] theorem putStream_fio (s : State) (k : Nat) (x : Stream) : (putStream s k x).fio = s.fio := rfl
@[simp] theorem putStream_safe (s : State) (k : Nat) (x : Stream) : (putStream s k x).safe = s.safe := rfl
@[simp] theorem putStream_muslin (s : State) (k : Nat) (x : Stream) : (putStream s k x).muslin = s.muslin := rfl
@[simp] theorem putStream_power (s : State) (k : Nat) (x : Stream) : (putStream s k x).power = s.power := rfl
@[simp] theorem putStream_boot (s : State) (k : Nat) (x : Stream) : (putStream s k x).boot = s.boot := rfl
@[simp] theorem putStream_sec (s : State) (k : Nat) (x : Stream) : (putStream s k x).sec = s.sec := rfl
@[simp] theorem putStream_otp (s : State) (k : Nat) (x : Stream) : (putStream s k x).otp = s.otp := rfl
@[simp] theorem putStream_maps (s : State) (k : Nat) (x : Stream) : (putStream s k x).maps = s.maps := rfl
@[simp] theorem putStream_slot (s : State) (k : Nat) (x : Stream) : (putStream s k x).slot = s.slot := rfl
@[simp] theorem putStream_slotPins (s : State) (k : Nat) (x : Stream) : (putStream s k x).slotPins = s.slotPins := rfl
@[simp] theorem putStream_readData (s : State) (k : Nat) (x : Stream) : (putStream s k x).readData = s.readData := rfl
@[simp] theorem putStream_freeCtr (s : State) (k : Nat) (x : Stream) : (putStream s k x).freeCtr = s.freeCtr := rfl
@[simp] theorem putStream_pending (s : State) (k : Nat) (x : Stream) : (putStream s k x).pending = s.pending := rfl

@[simp] theorem putRing_lanes (s : State) (k : Fin 64) (x : Ring) : (putRing s k x).lanes = s.lanes := rfl
@[simp] theorem putRing_epoch (s : State) (k : Fin 64) (x : Ring) : (putRing s k x).epoch = s.epoch := rfl
@[simp] theorem putRing_mem (s : State) (k : Fin 64) (x : Ring) : (putRing s k x).mem = s.mem := rfl
@[simp] theorem putRing_time (s : State) (k : Fin 64) (x : Ring) : (putRing s k x).time = s.time := rfl
@[simp] theorem putRing_check (s : State) (k : Fin 64) (x : Ring) : (putRing s k x).check = s.check := rfl
@[simp] theorem putRing_mor (s : State) (k : Fin 64) (x : Ring) : (putRing s k x).mor = s.mor := rfl
@[simp] theorem putRing_dbg (s : State) (k : Fin 64) (x : Ring) : (putRing s k x).dbg = s.dbg := rfl
@[simp] theorem putRing_weft (s : State) (k : Fin 64) (x : Ring) : (putRing s k x).weft = s.weft := rfl
@[simp] theorem putRing_mbox (s : State) (k : Fin 64) (x : Ring) : (putRing s k x).mbox = s.mbox := rfl
@[simp] theorem putRing_route (s : State) (k : Fin 64) (x : Ring) : (putRing s k x).route = s.route := rfl
@[simp] theorem putRing_rack (s : State) (k : Fin 64) (x : Ring) : (putRing s k x).rack = s.rack := rfl
@[simp] theorem putRing_fio (s : State) (k : Fin 64) (x : Ring) : (putRing s k x).fio = s.fio := rfl
@[simp] theorem putRing_safe (s : State) (k : Fin 64) (x : Ring) : (putRing s k x).safe = s.safe := rfl
@[simp] theorem putRing_muslin (s : State) (k : Fin 64) (x : Ring) : (putRing s k x).muslin = s.muslin := rfl
@[simp] theorem putRing_power (s : State) (k : Fin 64) (x : Ring) : (putRing s k x).power = s.power := rfl
@[simp] theorem putRing_boot (s : State) (k : Fin 64) (x : Ring) : (putRing s k x).boot = s.boot := rfl
@[simp] theorem putRing_sec (s : State) (k : Fin 64) (x : Ring) : (putRing s k x).sec = s.sec := rfl
@[simp] theorem putRing_otp (s : State) (k : Fin 64) (x : Ring) : (putRing s k x).otp = s.otp := rfl
@[simp] theorem putRing_maps (s : State) (k : Fin 64) (x : Ring) : (putRing s k x).maps = s.maps := rfl
@[simp] theorem putRing_slot (s : State) (k : Fin 64) (x : Ring) : (putRing s k x).slot = s.slot := rfl
@[simp] theorem putRing_slotPins (s : State) (k : Fin 64) (x : Ring) : (putRing s k x).slotPins = s.slotPins := rfl
@[simp] theorem putRing_readData (s : State) (k : Fin 64) (x : Ring) : (putRing s k x).readData = s.readData := rfl
@[simp] theorem putRing_freeCtr (s : State) (k : Fin 64) (x : Ring) : (putRing s k x).freeCtr = s.freeCtr := rfl
@[simp] theorem putRing_pending (s : State) (k : Fin 64) (x : Ring) : (putRing s k x).pending = s.pending := rfl

@[simp] theorem putCan_lanes (s : State) (k : Fin 4) (x : CanPort) : (putCan s k x).lanes = s.lanes := rfl
@[simp] theorem putCan_epoch (s : State) (k : Fin 4) (x : CanPort) : (putCan s k x).epoch = s.epoch := rfl
@[simp] theorem putCan_mem (s : State) (k : Fin 4) (x : CanPort) : (putCan s k x).mem = s.mem := rfl
@[simp] theorem putCan_time (s : State) (k : Fin 4) (x : CanPort) : (putCan s k x).time = s.time := rfl
@[simp] theorem putCan_check (s : State) (k : Fin 4) (x : CanPort) : (putCan s k x).check = s.check := rfl
@[simp] theorem putCan_mor (s : State) (k : Fin 4) (x : CanPort) : (putCan s k x).mor = s.mor := rfl
@[simp] theorem putCan_dbg (s : State) (k : Fin 4) (x : CanPort) : (putCan s k x).dbg = s.dbg := rfl
@[simp] theorem putCan_weft (s : State) (k : Fin 4) (x : CanPort) : (putCan s k x).weft = s.weft := rfl
@[simp] theorem putCan_mbox (s : State) (k : Fin 4) (x : CanPort) : (putCan s k x).mbox = s.mbox := rfl
@[simp] theorem putCan_route (s : State) (k : Fin 4) (x : CanPort) : (putCan s k x).route = s.route := rfl
@[simp] theorem putCan_rack (s : State) (k : Fin 4) (x : CanPort) : (putCan s k x).rack = s.rack := rfl
@[simp] theorem putCan_fio (s : State) (k : Fin 4) (x : CanPort) : (putCan s k x).fio = s.fio := rfl
@[simp] theorem putCan_safe (s : State) (k : Fin 4) (x : CanPort) : (putCan s k x).safe = s.safe := rfl
@[simp] theorem putCan_muslin (s : State) (k : Fin 4) (x : CanPort) : (putCan s k x).muslin = s.muslin := rfl
@[simp] theorem putCan_power (s : State) (k : Fin 4) (x : CanPort) : (putCan s k x).power = s.power := rfl
@[simp] theorem putCan_boot (s : State) (k : Fin 4) (x : CanPort) : (putCan s k x).boot = s.boot := rfl
@[simp] theorem putCan_sec (s : State) (k : Fin 4) (x : CanPort) : (putCan s k x).sec = s.sec := rfl
@[simp] theorem putCan_otp (s : State) (k : Fin 4) (x : CanPort) : (putCan s k x).otp = s.otp := rfl
@[simp] theorem putCan_maps (s : State) (k : Fin 4) (x : CanPort) : (putCan s k x).maps = s.maps := rfl
@[simp] theorem putCan_slot (s : State) (k : Fin 4) (x : CanPort) : (putCan s k x).slot = s.slot := rfl
@[simp] theorem putCan_slotPins (s : State) (k : Fin 4) (x : CanPort) : (putCan s k x).slotPins = s.slotPins := rfl
@[simp] theorem putCan_readData (s : State) (k : Fin 4) (x : CanPort) : (putCan s k x).readData = s.readData := rfl
@[simp] theorem putCan_freeCtr (s : State) (k : Fin 4) (x : CanPort) : (putCan s k x).freeCtr = s.freeCtr := rfl
@[simp] theorem putCan_pending (s : State) (k : Fin 4) (x : CanPort) : (putCan s k x).pending = s.pending := rfl

@[simp] theorem putChan_lanes (s : State) (k : Fin 32) (x : FioChan) : (putChan s k x).lanes = s.lanes := rfl
@[simp] theorem putChan_epoch (s : State) (k : Fin 32) (x : FioChan) : (putChan s k x).epoch = s.epoch := rfl
@[simp] theorem putChan_mem (s : State) (k : Fin 32) (x : FioChan) : (putChan s k x).mem = s.mem := rfl
@[simp] theorem putChan_time (s : State) (k : Fin 32) (x : FioChan) : (putChan s k x).time = s.time := rfl
@[simp] theorem putChan_check (s : State) (k : Fin 32) (x : FioChan) : (putChan s k x).check = s.check := rfl
@[simp] theorem putChan_mor (s : State) (k : Fin 32) (x : FioChan) : (putChan s k x).mor = s.mor := rfl
@[simp] theorem putChan_dbg (s : State) (k : Fin 32) (x : FioChan) : (putChan s k x).dbg = s.dbg := rfl
@[simp] theorem putChan_weft (s : State) (k : Fin 32) (x : FioChan) : (putChan s k x).weft = s.weft := rfl
@[simp] theorem putChan_mbox (s : State) (k : Fin 32) (x : FioChan) : (putChan s k x).mbox = s.mbox := rfl
@[simp] theorem putChan_pkt (s : State) (k : Fin 32) (x : FioChan) : (putChan s k x).pkt = s.pkt := rfl
@[simp] theorem putChan_route (s : State) (k : Fin 32) (x : FioChan) : (putChan s k x).route = s.route := rfl
@[simp] theorem putChan_rack (s : State) (k : Fin 32) (x : FioChan) : (putChan s k x).rack = s.rack := rfl
@[simp] theorem putChan_safe (s : State) (k : Fin 32) (x : FioChan) : (putChan s k x).safe = s.safe := rfl
@[simp] theorem putChan_muslin (s : State) (k : Fin 32) (x : FioChan) : (putChan s k x).muslin = s.muslin := rfl
@[simp] theorem putChan_power (s : State) (k : Fin 32) (x : FioChan) : (putChan s k x).power = s.power := rfl
@[simp] theorem putChan_boot (s : State) (k : Fin 32) (x : FioChan) : (putChan s k x).boot = s.boot := rfl
@[simp] theorem putChan_sec (s : State) (k : Fin 32) (x : FioChan) : (putChan s k x).sec = s.sec := rfl
@[simp] theorem putChan_otp (s : State) (k : Fin 32) (x : FioChan) : (putChan s k x).otp = s.otp := rfl
@[simp] theorem putChan_maps (s : State) (k : Fin 32) (x : FioChan) : (putChan s k x).maps = s.maps := rfl
@[simp] theorem putChan_slot (s : State) (k : Fin 32) (x : FioChan) : (putChan s k x).slot = s.slot := rfl
@[simp] theorem putChan_slotPins (s : State) (k : Fin 32) (x : FioChan) : (putChan s k x).slotPins = s.slotPins := rfl
@[simp] theorem putChan_readData (s : State) (k : Fin 32) (x : FioChan) : (putChan s k x).readData = s.readData := rfl
@[simp] theorem putChan_freeCtr (s : State) (k : Fin 32) (x : FioChan) : (putChan s k x).freeCtr = s.freeCtr := rfl
@[simp] theorem putChan_pending (s : State) (k : Fin 32) (x : FioChan) : (putChan s k x).pending = s.pending := rfl

@[simp] theorem putGroup_lanes (s : State) (k : Fin 2) (x : FioGroup) : (putGroup s k x).lanes = s.lanes := rfl
@[simp] theorem putGroup_epoch (s : State) (k : Fin 2) (x : FioGroup) : (putGroup s k x).epoch = s.epoch := rfl
@[simp] theorem putGroup_mem (s : State) (k : Fin 2) (x : FioGroup) : (putGroup s k x).mem = s.mem := rfl
@[simp] theorem putGroup_time (s : State) (k : Fin 2) (x : FioGroup) : (putGroup s k x).time = s.time := rfl
@[simp] theorem putGroup_check (s : State) (k : Fin 2) (x : FioGroup) : (putGroup s k x).check = s.check := rfl
@[simp] theorem putGroup_mor (s : State) (k : Fin 2) (x : FioGroup) : (putGroup s k x).mor = s.mor := rfl
@[simp] theorem putGroup_dbg (s : State) (k : Fin 2) (x : FioGroup) : (putGroup s k x).dbg = s.dbg := rfl
@[simp] theorem putGroup_weft (s : State) (k : Fin 2) (x : FioGroup) : (putGroup s k x).weft = s.weft := rfl
@[simp] theorem putGroup_mbox (s : State) (k : Fin 2) (x : FioGroup) : (putGroup s k x).mbox = s.mbox := rfl
@[simp] theorem putGroup_pkt (s : State) (k : Fin 2) (x : FioGroup) : (putGroup s k x).pkt = s.pkt := rfl
@[simp] theorem putGroup_route (s : State) (k : Fin 2) (x : FioGroup) : (putGroup s k x).route = s.route := rfl
@[simp] theorem putGroup_rack (s : State) (k : Fin 2) (x : FioGroup) : (putGroup s k x).rack = s.rack := rfl
@[simp] theorem putGroup_safe (s : State) (k : Fin 2) (x : FioGroup) : (putGroup s k x).safe = s.safe := rfl
@[simp] theorem putGroup_muslin (s : State) (k : Fin 2) (x : FioGroup) : (putGroup s k x).muslin = s.muslin := rfl
@[simp] theorem putGroup_power (s : State) (k : Fin 2) (x : FioGroup) : (putGroup s k x).power = s.power := rfl
@[simp] theorem putGroup_boot (s : State) (k : Fin 2) (x : FioGroup) : (putGroup s k x).boot = s.boot := rfl
@[simp] theorem putGroup_sec (s : State) (k : Fin 2) (x : FioGroup) : (putGroup s k x).sec = s.sec := rfl
@[simp] theorem putGroup_otp (s : State) (k : Fin 2) (x : FioGroup) : (putGroup s k x).otp = s.otp := rfl
@[simp] theorem putGroup_maps (s : State) (k : Fin 2) (x : FioGroup) : (putGroup s k x).maps = s.maps := rfl
@[simp] theorem putGroup_slot (s : State) (k : Fin 2) (x : FioGroup) : (putGroup s k x).slot = s.slot := rfl
@[simp] theorem putGroup_slotPins (s : State) (k : Fin 2) (x : FioGroup) : (putGroup s k x).slotPins = s.slotPins := rfl
@[simp] theorem putGroup_readData (s : State) (k : Fin 2) (x : FioGroup) : (putGroup s k x).readData = s.readData := rfl
@[simp] theorem putGroup_freeCtr (s : State) (k : Fin 2) (x : FioGroup) : (putGroup s k x).freeCtr = s.freeCtr := rfl
@[simp] theorem putGroup_pending (s : State) (k : Fin 2) (x : FioGroup) : (putGroup s k x).pending = s.pending := rfl

@[simp] theorem putIn_lanes (s : State) (k : Fin 8) (x : SafeIn) : (putIn s k x).lanes = s.lanes := rfl
@[simp] theorem putIn_epoch (s : State) (k : Fin 8) (x : SafeIn) : (putIn s k x).epoch = s.epoch := rfl
@[simp] theorem putIn_mem (s : State) (k : Fin 8) (x : SafeIn) : (putIn s k x).mem = s.mem := rfl
@[simp] theorem putIn_time (s : State) (k : Fin 8) (x : SafeIn) : (putIn s k x).time = s.time := rfl
@[simp] theorem putIn_check (s : State) (k : Fin 8) (x : SafeIn) : (putIn s k x).check = s.check := rfl
@[simp] theorem putIn_mor (s : State) (k : Fin 8) (x : SafeIn) : (putIn s k x).mor = s.mor := rfl
@[simp] theorem putIn_dbg (s : State) (k : Fin 8) (x : SafeIn) : (putIn s k x).dbg = s.dbg := rfl
@[simp] theorem putIn_weft (s : State) (k : Fin 8) (x : SafeIn) : (putIn s k x).weft = s.weft := rfl
@[simp] theorem putIn_mbox (s : State) (k : Fin 8) (x : SafeIn) : (putIn s k x).mbox = s.mbox := rfl
@[simp] theorem putIn_pkt (s : State) (k : Fin 8) (x : SafeIn) : (putIn s k x).pkt = s.pkt := rfl
@[simp] theorem putIn_route (s : State) (k : Fin 8) (x : SafeIn) : (putIn s k x).route = s.route := rfl
@[simp] theorem putIn_rack (s : State) (k : Fin 8) (x : SafeIn) : (putIn s k x).rack = s.rack := rfl
@[simp] theorem putIn_fio (s : State) (k : Fin 8) (x : SafeIn) : (putIn s k x).fio = s.fio := rfl
@[simp] theorem putIn_muslin (s : State) (k : Fin 8) (x : SafeIn) : (putIn s k x).muslin = s.muslin := rfl
@[simp] theorem putIn_power (s : State) (k : Fin 8) (x : SafeIn) : (putIn s k x).power = s.power := rfl
@[simp] theorem putIn_boot (s : State) (k : Fin 8) (x : SafeIn) : (putIn s k x).boot = s.boot := rfl
@[simp] theorem putIn_sec (s : State) (k : Fin 8) (x : SafeIn) : (putIn s k x).sec = s.sec := rfl
@[simp] theorem putIn_otp (s : State) (k : Fin 8) (x : SafeIn) : (putIn s k x).otp = s.otp := rfl
@[simp] theorem putIn_maps (s : State) (k : Fin 8) (x : SafeIn) : (putIn s k x).maps = s.maps := rfl
@[simp] theorem putIn_slot (s : State) (k : Fin 8) (x : SafeIn) : (putIn s k x).slot = s.slot := rfl
@[simp] theorem putIn_slotPins (s : State) (k : Fin 8) (x : SafeIn) : (putIn s k x).slotPins = s.slotPins := rfl
@[simp] theorem putIn_readData (s : State) (k : Fin 8) (x : SafeIn) : (putIn s k x).readData = s.readData := rfl
@[simp] theorem putIn_freeCtr (s : State) (k : Fin 8) (x : SafeIn) : (putIn s k x).freeCtr = s.freeCtr := rfl
@[simp] theorem putIn_pending (s : State) (k : Fin 8) (x : SafeIn) : (putIn s k x).pending = s.pending := rfl

@[simp] theorem putOut_lanes (s : State) (k : Fin 8) (x : SafeOut) : (putOut s k x).lanes = s.lanes := rfl
@[simp] theorem putOut_epoch (s : State) (k : Fin 8) (x : SafeOut) : (putOut s k x).epoch = s.epoch := rfl
@[simp] theorem putOut_mem (s : State) (k : Fin 8) (x : SafeOut) : (putOut s k x).mem = s.mem := rfl
@[simp] theorem putOut_time (s : State) (k : Fin 8) (x : SafeOut) : (putOut s k x).time = s.time := rfl
@[simp] theorem putOut_check (s : State) (k : Fin 8) (x : SafeOut) : (putOut s k x).check = s.check := rfl
@[simp] theorem putOut_mor (s : State) (k : Fin 8) (x : SafeOut) : (putOut s k x).mor = s.mor := rfl
@[simp] theorem putOut_dbg (s : State) (k : Fin 8) (x : SafeOut) : (putOut s k x).dbg = s.dbg := rfl
@[simp] theorem putOut_weft (s : State) (k : Fin 8) (x : SafeOut) : (putOut s k x).weft = s.weft := rfl
@[simp] theorem putOut_mbox (s : State) (k : Fin 8) (x : SafeOut) : (putOut s k x).mbox = s.mbox := rfl
@[simp] theorem putOut_pkt (s : State) (k : Fin 8) (x : SafeOut) : (putOut s k x).pkt = s.pkt := rfl
@[simp] theorem putOut_route (s : State) (k : Fin 8) (x : SafeOut) : (putOut s k x).route = s.route := rfl
@[simp] theorem putOut_rack (s : State) (k : Fin 8) (x : SafeOut) : (putOut s k x).rack = s.rack := rfl
@[simp] theorem putOut_fio (s : State) (k : Fin 8) (x : SafeOut) : (putOut s k x).fio = s.fio := rfl
@[simp] theorem putOut_muslin (s : State) (k : Fin 8) (x : SafeOut) : (putOut s k x).muslin = s.muslin := rfl
@[simp] theorem putOut_power (s : State) (k : Fin 8) (x : SafeOut) : (putOut s k x).power = s.power := rfl
@[simp] theorem putOut_boot (s : State) (k : Fin 8) (x : SafeOut) : (putOut s k x).boot = s.boot := rfl
@[simp] theorem putOut_sec (s : State) (k : Fin 8) (x : SafeOut) : (putOut s k x).sec = s.sec := rfl
@[simp] theorem putOut_otp (s : State) (k : Fin 8) (x : SafeOut) : (putOut s k x).otp = s.otp := rfl
@[simp] theorem putOut_maps (s : State) (k : Fin 8) (x : SafeOut) : (putOut s k x).maps = s.maps := rfl
@[simp] theorem putOut_slot (s : State) (k : Fin 8) (x : SafeOut) : (putOut s k x).slot = s.slot := rfl
@[simp] theorem putOut_slotPins (s : State) (k : Fin 8) (x : SafeOut) : (putOut s k x).slotPins = s.slotPins := rfl
@[simp] theorem putOut_readData (s : State) (k : Fin 8) (x : SafeOut) : (putOut s k x).readData = s.readData := rfl
@[simp] theorem putOut_freeCtr (s : State) (k : Fin 8) (x : SafeOut) : (putOut s k x).freeCtr = s.freeCtr := rfl
@[simp] theorem putOut_pending (s : State) (k : Fin 8) (x : SafeOut) : (putOut s k x).pending = s.pending := rfl

@[simp] theorem putSpeed_lanes (s : State) (k : Fin 4) (x : SpeedIn) : (putSpeed s k x).lanes = s.lanes := rfl
@[simp] theorem putSpeed_epoch (s : State) (k : Fin 4) (x : SpeedIn) : (putSpeed s k x).epoch = s.epoch := rfl
@[simp] theorem putSpeed_mem (s : State) (k : Fin 4) (x : SpeedIn) : (putSpeed s k x).mem = s.mem := rfl
@[simp] theorem putSpeed_time (s : State) (k : Fin 4) (x : SpeedIn) : (putSpeed s k x).time = s.time := rfl
@[simp] theorem putSpeed_check (s : State) (k : Fin 4) (x : SpeedIn) : (putSpeed s k x).check = s.check := rfl
@[simp] theorem putSpeed_mor (s : State) (k : Fin 4) (x : SpeedIn) : (putSpeed s k x).mor = s.mor := rfl
@[simp] theorem putSpeed_dbg (s : State) (k : Fin 4) (x : SpeedIn) : (putSpeed s k x).dbg = s.dbg := rfl
@[simp] theorem putSpeed_weft (s : State) (k : Fin 4) (x : SpeedIn) : (putSpeed s k x).weft = s.weft := rfl
@[simp] theorem putSpeed_mbox (s : State) (k : Fin 4) (x : SpeedIn) : (putSpeed s k x).mbox = s.mbox := rfl
@[simp] theorem putSpeed_pkt (s : State) (k : Fin 4) (x : SpeedIn) : (putSpeed s k x).pkt = s.pkt := rfl
@[simp] theorem putSpeed_route (s : State) (k : Fin 4) (x : SpeedIn) : (putSpeed s k x).route = s.route := rfl
@[simp] theorem putSpeed_rack (s : State) (k : Fin 4) (x : SpeedIn) : (putSpeed s k x).rack = s.rack := rfl
@[simp] theorem putSpeed_fio (s : State) (k : Fin 4) (x : SpeedIn) : (putSpeed s k x).fio = s.fio := rfl
@[simp] theorem putSpeed_muslin (s : State) (k : Fin 4) (x : SpeedIn) : (putSpeed s k x).muslin = s.muslin := rfl
@[simp] theorem putSpeed_power (s : State) (k : Fin 4) (x : SpeedIn) : (putSpeed s k x).power = s.power := rfl
@[simp] theorem putSpeed_boot (s : State) (k : Fin 4) (x : SpeedIn) : (putSpeed s k x).boot = s.boot := rfl
@[simp] theorem putSpeed_sec (s : State) (k : Fin 4) (x : SpeedIn) : (putSpeed s k x).sec = s.sec := rfl
@[simp] theorem putSpeed_otp (s : State) (k : Fin 4) (x : SpeedIn) : (putSpeed s k x).otp = s.otp := rfl
@[simp] theorem putSpeed_maps (s : State) (k : Fin 4) (x : SpeedIn) : (putSpeed s k x).maps = s.maps := rfl
@[simp] theorem putSpeed_slot (s : State) (k : Fin 4) (x : SpeedIn) : (putSpeed s k x).slot = s.slot := rfl
@[simp] theorem putSpeed_slotPins (s : State) (k : Fin 4) (x : SpeedIn) : (putSpeed s k x).slotPins = s.slotPins := rfl
@[simp] theorem putSpeed_readData (s : State) (k : Fin 4) (x : SpeedIn) : (putSpeed s k x).readData = s.readData := rfl
@[simp] theorem putSpeed_freeCtr (s : State) (k : Fin 4) (x : SpeedIn) : (putSpeed s k x).freeCtr = s.freeCtr := rfl
@[simp] theorem putSpeed_pending (s : State) (k : Fin 4) (x : SpeedIn) : (putSpeed s k x).pending = s.pending := rfl

@[simp] theorem putFunc_lanes (s : State) (k : Fin 4) (x : SafeFunc) : (putFunc s k x).lanes = s.lanes := rfl
@[simp] theorem putFunc_epoch (s : State) (k : Fin 4) (x : SafeFunc) : (putFunc s k x).epoch = s.epoch := rfl
@[simp] theorem putFunc_mem (s : State) (k : Fin 4) (x : SafeFunc) : (putFunc s k x).mem = s.mem := rfl
@[simp] theorem putFunc_time (s : State) (k : Fin 4) (x : SafeFunc) : (putFunc s k x).time = s.time := rfl
@[simp] theorem putFunc_check (s : State) (k : Fin 4) (x : SafeFunc) : (putFunc s k x).check = s.check := rfl
@[simp] theorem putFunc_mor (s : State) (k : Fin 4) (x : SafeFunc) : (putFunc s k x).mor = s.mor := rfl
@[simp] theorem putFunc_dbg (s : State) (k : Fin 4) (x : SafeFunc) : (putFunc s k x).dbg = s.dbg := rfl
@[simp] theorem putFunc_weft (s : State) (k : Fin 4) (x : SafeFunc) : (putFunc s k x).weft = s.weft := rfl
@[simp] theorem putFunc_mbox (s : State) (k : Fin 4) (x : SafeFunc) : (putFunc s k x).mbox = s.mbox := rfl
@[simp] theorem putFunc_pkt (s : State) (k : Fin 4) (x : SafeFunc) : (putFunc s k x).pkt = s.pkt := rfl
@[simp] theorem putFunc_route (s : State) (k : Fin 4) (x : SafeFunc) : (putFunc s k x).route = s.route := rfl
@[simp] theorem putFunc_rack (s : State) (k : Fin 4) (x : SafeFunc) : (putFunc s k x).rack = s.rack := rfl
@[simp] theorem putFunc_fio (s : State) (k : Fin 4) (x : SafeFunc) : (putFunc s k x).fio = s.fio := rfl
@[simp] theorem putFunc_muslin (s : State) (k : Fin 4) (x : SafeFunc) : (putFunc s k x).muslin = s.muslin := rfl
@[simp] theorem putFunc_power (s : State) (k : Fin 4) (x : SafeFunc) : (putFunc s k x).power = s.power := rfl
@[simp] theorem putFunc_boot (s : State) (k : Fin 4) (x : SafeFunc) : (putFunc s k x).boot = s.boot := rfl
@[simp] theorem putFunc_sec (s : State) (k : Fin 4) (x : SafeFunc) : (putFunc s k x).sec = s.sec := rfl
@[simp] theorem putFunc_otp (s : State) (k : Fin 4) (x : SafeFunc) : (putFunc s k x).otp = s.otp := rfl
@[simp] theorem putFunc_maps (s : State) (k : Fin 4) (x : SafeFunc) : (putFunc s k x).maps = s.maps := rfl
@[simp] theorem putFunc_slot (s : State) (k : Fin 4) (x : SafeFunc) : (putFunc s k x).slot = s.slot := rfl
@[simp] theorem putFunc_slotPins (s : State) (k : Fin 4) (x : SafeFunc) : (putFunc s k x).slotPins = s.slotPins := rfl
@[simp] theorem putFunc_readData (s : State) (k : Fin 4) (x : SafeFunc) : (putFunc s k x).readData = s.readData := rfl
@[simp] theorem putFunc_freeCtr (s : State) (k : Fin 4) (x : SafeFunc) : (putFunc s k x).freeCtr = s.freeCtr := rfl
@[simp] theorem putFunc_pending (s : State) (k : Fin 4) (x : SafeFunc) : (putFunc s k x).pending = s.pending := rfl

@[simp] theorem putMu_lanes (s : State) (k : Fin 16) (x : MuChan) : (putMu s k x).lanes = s.lanes := rfl
@[simp] theorem putMu_epoch (s : State) (k : Fin 16) (x : MuChan) : (putMu s k x).epoch = s.epoch := rfl
@[simp] theorem putMu_mem (s : State) (k : Fin 16) (x : MuChan) : (putMu s k x).mem = s.mem := rfl
@[simp] theorem putMu_time (s : State) (k : Fin 16) (x : MuChan) : (putMu s k x).time = s.time := rfl
@[simp] theorem putMu_check (s : State) (k : Fin 16) (x : MuChan) : (putMu s k x).check = s.check := rfl
@[simp] theorem putMu_mor (s : State) (k : Fin 16) (x : MuChan) : (putMu s k x).mor = s.mor := rfl
@[simp] theorem putMu_dbg (s : State) (k : Fin 16) (x : MuChan) : (putMu s k x).dbg = s.dbg := rfl
@[simp] theorem putMu_weft (s : State) (k : Fin 16) (x : MuChan) : (putMu s k x).weft = s.weft := rfl
@[simp] theorem putMu_mbox (s : State) (k : Fin 16) (x : MuChan) : (putMu s k x).mbox = s.mbox := rfl
@[simp] theorem putMu_pkt (s : State) (k : Fin 16) (x : MuChan) : (putMu s k x).pkt = s.pkt := rfl
@[simp] theorem putMu_route (s : State) (k : Fin 16) (x : MuChan) : (putMu s k x).route = s.route := rfl
@[simp] theorem putMu_rack (s : State) (k : Fin 16) (x : MuChan) : (putMu s k x).rack = s.rack := rfl
@[simp] theorem putMu_fio (s : State) (k : Fin 16) (x : MuChan) : (putMu s k x).fio = s.fio := rfl
@[simp] theorem putMu_safe (s : State) (k : Fin 16) (x : MuChan) : (putMu s k x).safe = s.safe := rfl
@[simp] theorem putMu_power (s : State) (k : Fin 16) (x : MuChan) : (putMu s k x).power = s.power := rfl
@[simp] theorem putMu_boot (s : State) (k : Fin 16) (x : MuChan) : (putMu s k x).boot = s.boot := rfl
@[simp] theorem putMu_sec (s : State) (k : Fin 16) (x : MuChan) : (putMu s k x).sec = s.sec := rfl
@[simp] theorem putMu_otp (s : State) (k : Fin 16) (x : MuChan) : (putMu s k x).otp = s.otp := rfl
@[simp] theorem putMu_maps (s : State) (k : Fin 16) (x : MuChan) : (putMu s k x).maps = s.maps := rfl
@[simp] theorem putMu_slot (s : State) (k : Fin 16) (x : MuChan) : (putMu s k x).slot = s.slot := rfl
@[simp] theorem putMu_slotPins (s : State) (k : Fin 16) (x : MuChan) : (putMu s k x).slotPins = s.slotPins := rfl
@[simp] theorem putMu_readData (s : State) (k : Fin 16) (x : MuChan) : (putMu s k x).readData = s.readData := rfl
@[simp] theorem putMu_freeCtr (s : State) (k : Fin 16) (x : MuChan) : (putMu s k x).freeCtr = s.freeCtr := rfl
@[simp] theorem putMu_pending (s : State) (k : Fin 16) (x : MuChan) : (putMu s k x).pending = s.pending := rfl

@[simp] theorem putTb_same (s : State) (k : Fin 4) (x : TimeBase) : (putTb s k x).time.tb[k] = x := by simp [putTb]

theorem putTb_other (s : State) (k : Fin 4) (x : TimeBase) (j : Fin 4) (h : j ≠ k) : (putTb s k x).time.tb[j] = s.time.tb[j] := by
  have hv : k.val ≠ j.val := fun e => h (Fin.ext e.symm)
  simp [putTb, hv]

@[simp] theorem putTpo_same (s : State) (k : Fin 8) (x : Tpo) : (putTpo s k x).time.tpo[k] = x := by simp [putTpo]

theorem putTpo_other (s : State) (k : Fin 8) (x : Tpo) (j : Fin 8) (h : j ≠ k) : (putTpo s k x).time.tpo[j] = s.time.tpo[j] := by
  have hv : k.val ≠ j.val := fun e => h (Fin.ext e.symm)
  simp [putTpo, hv]

@[simp] theorem putPort_same (s : State) (k : Fin 4) (x : EthPort) : (putPort s k x).pkt.port[k] = x := by simp [putPort]

theorem putPort_other (s : State) (k : Fin 4) (x : EthPort) (j : Fin 4) (h : j ≠ k) : (putPort s k x).pkt.port[j] = s.pkt.port[j] := by
  have hv : k.val ≠ j.val := fun e => h (Fin.ext e.symm)
  simp [putPort, hv]

@[simp] theorem putRing_same (s : State) (k : Fin 64) (x : Ring) : (putRing s k x).pkt.ring[k] = x := by simp [putRing]

theorem putRing_other (s : State) (k : Fin 64) (x : Ring) (j : Fin 64) (h : j ≠ k) : (putRing s k x).pkt.ring[j] = s.pkt.ring[j] := by
  have hv : k.val ≠ j.val := fun e => h (Fin.ext e.symm)
  simp [putRing, hv]

@[simp] theorem putCan_same (s : State) (k : Fin 4) (x : CanPort) : (putCan s k x).pkt.can[k] = x := by simp [putCan]

theorem putCan_other (s : State) (k : Fin 4) (x : CanPort) (j : Fin 4) (h : j ≠ k) : (putCan s k x).pkt.can[j] = s.pkt.can[j] := by
  have hv : k.val ≠ j.val := fun e => h (Fin.ext e.symm)
  simp [putCan, hv]

@[simp] theorem putChan_same (s : State) (k : Fin 32) (x : FioChan) : (putChan s k x).fio.chan[k] = x := by simp [putChan]

theorem putChan_other (s : State) (k : Fin 32) (x : FioChan) (j : Fin 32) (h : j ≠ k) : (putChan s k x).fio.chan[j] = s.fio.chan[j] := by
  have hv : k.val ≠ j.val := fun e => h (Fin.ext e.symm)
  simp [putChan, hv]

@[simp] theorem putGroup_same (s : State) (k : Fin 2) (x : FioGroup) : (putGroup s k x).fio.group[k] = x := by simp [putGroup]

theorem putGroup_other (s : State) (k : Fin 2) (x : FioGroup) (j : Fin 2) (h : j ≠ k) : (putGroup s k x).fio.group[j] = s.fio.group[j] := by
  have hv : k.val ≠ j.val := fun e => h (Fin.ext e.symm)
  simp [putGroup, hv]

@[simp] theorem putIn_same (s : State) (k : Fin 8) (x : SafeIn) : (putIn s k x).safe.input[k] = x := by simp [putIn]

theorem putIn_other (s : State) (k : Fin 8) (x : SafeIn) (j : Fin 8) (h : j ≠ k) : (putIn s k x).safe.input[j] = s.safe.input[j] := by
  have hv : k.val ≠ j.val := fun e => h (Fin.ext e.symm)
  simp [putIn, hv]

@[simp] theorem putOut_same (s : State) (k : Fin 8) (x : SafeOut) : (putOut s k x).safe.output[k] = x := by simp [putOut]

theorem putOut_other (s : State) (k : Fin 8) (x : SafeOut) (j : Fin 8) (h : j ≠ k) : (putOut s k x).safe.output[j] = s.safe.output[j] := by
  have hv : k.val ≠ j.val := fun e => h (Fin.ext e.symm)
  simp [putOut, hv]

@[simp] theorem putSpeed_same (s : State) (k : Fin 4) (x : SpeedIn) : (putSpeed s k x).safe.speed[k] = x := by simp [putSpeed]

theorem putSpeed_other (s : State) (k : Fin 4) (x : SpeedIn) (j : Fin 4) (h : j ≠ k) : (putSpeed s k x).safe.speed[j] = s.safe.speed[j] := by
  have hv : k.val ≠ j.val := fun e => h (Fin.ext e.symm)
  simp [putSpeed, hv]

@[simp] theorem putFunc_same (s : State) (k : Fin 4) (x : SafeFunc) : (putFunc s k x).safe.func[k] = x := by simp [putFunc]

theorem putFunc_other (s : State) (k : Fin 4) (x : SafeFunc) (j : Fin 4) (h : j ≠ k) : (putFunc s k x).safe.func[j] = s.safe.func[j] := by
  have hv : k.val ≠ j.val := fun e => h (Fin.ext e.symm)
  simp [putFunc, hv]

@[simp] theorem putMu_same (s : State) (k : Fin 16) (x : MuChan) : (putMu s k x).muslin.chan[k] = x := by simp [putMu]

theorem putMu_other (s : State) (k : Fin 16) (x : MuChan) (j : Fin 16) (h : j ≠ k) : (putMu s k x).muslin.chan[j] = s.muslin.chan[j] := by
  have hv : k.val ≠ j.val := fun e => h (Fin.ext e.symm)
  simp [putMu, hv]

end Sys2Proof.Machine
end

