-- ==== Sys2Proof/WellFormed.lean ====
section
/-! DEFINITION. Which operands a command can have: what the spec bounds and the operand types leave open. Every command
that the world can send is well-formed; the meanings are total, so a step does not ask for it. -/

namespace Sys2Proof

/-- RST_REQ_L was low for 50 to 8000 samples (R457, Table 16.3). -/
def lowSamplesOk (lows : Nat) : Bool := decide (50 ≤ lows) && decide (lows ≤ 8000)

/-- The payload of a Weft frame: 0 to 2028 bytes (R77, Table 3.1). -/
def payloadOk (payload : List Byte) : Bool := decide (payload.length ≤ 2028)

/-- A register access: 4 bytes, aligned, in one of the register blocks (R210, R212, Table 6.1). -/
def registerAddrOk (addr : BitVec 40) : Bool :=
  decide (0x5000000000 ≤ addr.toNat) && decide (addr.toNat ≤ 0x50000FFFFF) && decide (addr.toNat % 4 = 0)

/-- A datum of 1, 2 or 4 bytes (R352). -/
def checkSizeOk (size : Nat) : Bool := size == 1 || size == 2 || size == 4

/-- An inbound read of 1, 2 or 4 bytes, naturally aligned, as the byte enables of a data cycle allow (Table 10.1,
R328). -/
def inboundReadOk (addr : U32) (width : Nat) : Bool := checkSizeOk width && decide (addr.toNat % width = 0)

/-- The answers of one bus access: at least one, and at most the 255 retries more (R327). -/
def answersOk (answers : List (BitVec 2 × U32)) : Bool :=
  decide (1 ≤ answers.length) && decide (answers.length ≤ 256)

/-- The data cycles of a bus command (Table 10.2): none for IDLE, one for READ and WRITE, four for READ4 and WRITE4. -/
def dataCyclesOk (cmd : BitVec 4) (data : List U32) : Bool :=
  data.length == if cmd = 1 || cmd = 2 then 1 else if cmd = 3 || cmd = 4 then 4 else 0

/-- An MVB master frame carries no data; a slave frame carries the data of a port of 2, 4, 8, 16 or 32 bytes (R312). -/
def mvbDataOk (master : Bool) (data : List Byte) : Bool :=
  if master then data.isEmpty else [2, 4, 8, 16, 32].contains data.length

/-- A CAN FD frame: an identifier of 11 bits, or of 29 bits with bit 31 set, and a length of ISO FD (R313, R315). -/
def canFrameOk (ident : U32) (data : List Byte) : Bool :=
  (decide (ident.toNat < 0x800) || (ident.getLsbD 31 && decide (ident.toNat < 0xA0000000)))
    && (decide (data.length ≤ 8) || [12, 16, 20, 24, 32, 48, 64].contains data.length)

/-- Requests arrive from outside on MB16 to MB23 (R239, R242, R244). -/
def requestPairOk (pair : PairId) : Bool := decide (16 ≤ pair.val)

/-- A location of the SRAM scrubber's pass: a TCM, or a region of the process-image SRAM (R228, Table 6.9). -/
def scrubLocOk (x : MemLoc) : Bool :=
  decide (x.offset < match x.area with
    | 0x08 | 0x09 => 0x400000
    | 0x0A => 0xC00000
    | 0x0B | 0x0C | 0x0D => 0x400000
    | _ => 0)

/-- Which commands are well-formed. The fields of a lane instruction, pair, port, channel and lane numbers are bounded
by their types. -/
def Instr.wf : Instr → Bool
  | .resetRequest lows _ => lowSamplesOk lows
  | .weftHello _ _ payload => payloadOk payload
  | .weftIdent _ _ payload => payloadOk payload
  | .weftIdentResult _ _ payload => payloadOk payload
  | .weftTb2Sync _ _ payload => payloadOk payload
  | .weftRaw _ _ payload => payloadOk payload
  | .weftRxReport _ _ payload => payloadOk payload
  | .weftDigest _ _ payload => payloadOk payload
  | .weftCondemn _ _ payload => payloadOk payload
  | .weftUnitSafe _ _ payload => payloadOk payload
  | .weftCatchup _ _ payload => payloadOk payload
  | .weftMailbox _ _ payload => payloadOk payload
  | .weftNak _ _ payload => payloadOk payload
  | .latchingLoRead _ addr => registerAddrOk addr
  | .registerWrite _ addr _ => registerAddrOk addr
  | .sramScrub errs => errs.all (fun e => scrubLocOk e.1)
  | .mbRequestArrive pair _ _ _ => requestPairOk pair
  | .mvbFrame _ master _ _ data => mvbDataOk master data
  | .canFrameRx _ ident data => canFrameOk ident data
  | .rackBusAccessDone answers => answersOk answers
  | .inboundRead addr width _ => inboundReadOk addr width
  | .rackMonitorCycle cmd _ _ data _ _ => dataCyclesOk cmd data
  | .chkDataWrite _ _ _ size _ => checkSizeOk size
  | .speedInputFault _ fault => fault != 0
  | .powerOn _ _ | .moduleReset _ _ | .rstStuck | .rstUnstuck | .heartbeatWrite _ | .heartbeatTimeout
  | .supervisorRestart _ | .refLoss | .refFreqDev | .boundary | .rawClose | .exchangeEnd | .sourceSetCompute
  | .seal | .budgetWarning | .budgetExhaustedTaken _ | .commit _ | .commitDeadline | .commitLateTaken _
  | .digestReady _ | .ownDigestDeadline | .voteClose | .cdnOutRelease | .cdnInHigh _ | .cdnInStuck _ | .roleStart
  | .tb2SyncSend | .weftFrameSend _ | .weftFrameDiscard _ _ | .weftBlockLock _ | .weftLockLost _
  | .weftCrcRunDown _ | .weftSilenceDown _ | .weftRetrain _ | .weftLinkupTimeout _ | .weftRefusedRetry _
  | .windowCompare _ _ _ _ | .drainComplete _ | .cmpRailTimeout _ | .trailStall _ | .injectionTestsDone _ _
  | .laneReloadDone _ | .rejoinCopyDone _ _ | .modeReqWrite _ _ | .lanePerfWrite _ | .perfRampDone _
  | .speedInterval | .laneSpeedRead _ | .firnInject _ _ _ | .epochWarnWrite _ | .add _ _ | .sub _ _ | .and _ _
  | .or _ _ | .xor _ _ | .andn _ _ | .orn _ _ | .xnor _ _ | .slt _ _ | .sltu _ _ | .min _ _ | .max _ _ | .minu _ _
  | .maxu _ _ | .addw _ _ | .subw _ _ | .seq _ _ | .addi _ _ | .andi _ _ | .ori _ _ | .xori _ _ | .slti _ _
  | .sltiu _ _ | .addiw _ _ | .sll _ _ | .srl _ _ | .sra _ _ | .rol _ _ | .ror _ _ | .sllw _ _ | .srlw _ _
  | .sraw _ _ | .slli _ _ | .srli _ _ | .srai _ _ | .rori _ _ | .extu _ _ | .exts _ _ | .ins _ _ | .clz _ _
  | .ctz _ _ | .popc _ _ | .rev8 _ _ | .mul _ _ | .mulh _ _ | .mulhu _ _ | .mulhsu _ _ | .div _ _ | .divu _ _
  | .rem _ _ | .remu _ _ | .mulw _ _ | .divw _ _ | .divuw _ _ | .remw _ _ | .remuw _ _ | .lb _ _ | .lbu _ _
  | .lh _ _ | .lhu _ _ | .lw _ _ | .lwu _ _ | .ld _ _ | .flw _ _ | .fld _ _ | .sb _ _ | .sh _ _ | .sw _ _ | .sd _ _
  | .fsw _ _ | .fsd _ _ | .beq _ _ | .bne _ _ | .blt _ _ | .bge _ _ | .bltu _ _ | .bgeu _ _ | .jal _ _ | .jalr _ _
  | .fadd _ _ | .fsub _ _ | .fmul _ _ | .fdiv _ _ | .fsqrt _ _ | .fmin _ _ | .fmax _ _ | .fcpys _ _ | .fcpyn _ _
  | .fcpyx _ _ | .fmadd _ _ | .fmsub _ _ | .fnmadd _ _ | .fnmsub _ _ | .fcmpeq _ _ | .fcmplt _ _ | .fcmple _ _
  | .fkind _ _ | .ftol _ _ | .ftolu _ _ | .ftow _ _ | .ftowu _ _ | .ffroml _ _ | .ffromlu _ _ | .frnd32 _ _
  | .fis32 _ _ | .ftog _ _ | .ffromg _ _ | .atswap _ _ | .atadd _ _ | .atand _ _ | .atorr _ _ | .atxor _ _
  | .atmin _ _ | .atmax _ _ | .atminu _ _ | .atmaxu _ _ | .atcas _ _ | .fence _ _ | .yield _ _ | .trap _ _
  | .ret _ _ | .crr _ _ | .crw _ _ | .crs _ _ | .crc _ _ | .adds _ _ | .subs _ _ | .addus _ _ | .subus _ _
  | .negs _ _ | .abss _ _ | .sats _ _ | .satu _ _ | .mulq _ _ | .macq _ _ | .clamp _ _ | .rate _ _ | .ckinit _ _
  | .ckf8 _ _ | .ckf16 _ _ | .ckf32 _ _ | .ckfold _ _ | .ckrd _ _ | .ckwr _ _ | .ckfin _ _ | .lis _ _ | .lik _ _
  | .pcrel _ _ | .patrolScrub _ | .doorbellRing _ _ | .mbAbort _ _ | .eventNotice _ | .hello _ | .sysGetIdentity _
  | .sysGetStatus _ | .sysGetMemory _ | .sysRestart _ | .sysEcho _ | .sysGetMboxStats _ | .sysDeliver _
  | .sysSubscribe _ | .sysGetResetLog _ | .cfgGetStatus _ | .cfgStageBegin _ | .cfgStageWrite _ | .cfgStageFinish _
  | .cfgRead _ | .cfgDiscard _ | .epochGetConfig _ | .epochGetStatus _ | .epochGetMargin _ | .epochClearCounters _
  | .epochSetWarn _ | .voteGetStatus _ | .voteGetLinks _ | .voteGetGroups _ | .voteWithdraw _ | .voteRejoin _
  | .voteResumeGroup _ | .voteClearCounters _ | .voteGetAdmit _ | .timeGetAll _ | .timeGetServo _ | .timeSetServo _
  | .timeSetIncr _ | .timeSet _ | .timeCapSet _ | .timeTpoSet _ | .timePtpSet _ | .timePtpGet _ | .netGetPort _
  | .netSetPort _ | .netClearCounters _ | .netGclSet _ | .netGclGet _ | .netCbGet _ | .netPdGet _ | .netMvbGet _
  | .netCanGet _ | .netCanRecover _ | .routeBegin _ | .routeCopyDone | .routeWrite _ | .routeCommit _
  | .routeCheckDone | .routeAbort _ | .routeGetStatus _ | .routeRead _ | .rackGetStatus _ | .rackRead _
  | .rackWrite _ | .rackGetLog _ | .rackClear _ | .rackSetPoll _ | .rackSetPf _ | .fioGetStatus _ | .fioGetCompat _
  | .fioGetChannel _ | .fioSetChannel _ | .fioClear _ _ | .safeGetStatus _ | .safeGetSpeed _ | .safeGetFunc _
  | .safeGetConfig _ | .safeClear _ | .safeOutRequest _ | .anaGetStatus _ | .anaGetChannel _ | .anaSetDet _
  | .anaSync _ | .anaGetRom _ | .pwrGetStatus _ | .pwrSetPerf _ | .pwrHoldupTest _ | .pwrGetLog _ | .updGetStatus _
  | .updBegin _ | .updWrite _ | .updFinish _ | .updAbort _ | .secGetStatus _ | .secGetKeys _ | .secGetRegistry _
  | .secGetIdentity _ | .secGetCert _ | .secAttest _ | .secSubmitChange _ | .secDebugLock _ | .recGetStatus _
  | .recRead _ | .recMark _ | .recSetCfg _ | .dbgGetStatus _ | .dbgFreeze _ | .debugUnlockExpire | .freezePin
  | .tapIdcode | .tapDbgStatus | .tapScanSelect _ | .tapScanRead | .tapMemAddr _ | .tapMemRead | .tapMemWrite _
  | .tapFirnInject _ _ | .tapResume _ _ | .tapBypass | .dbgCtrlWrite _ | .moraineFlush | .rateWindowEnd
  | .servoMeasWrite _ _ | .servoHeldUpdate _ | .incrWrite _ _ | .servoHoldover _ | .servoLost _ | .capture _ _ _
  | .tpoEdge _ | .tpoCtrlWrite _ _ _ | .ethFrameRx _ _ | .ethLinkChange _ _ _ | .gateInterval _ | .ethFrameTx _ _
  | .cbRecoveryTimeout _ | .ringTailWrite _ _ _ | .ringDescDone _ _ | .mvbBaPeriod | .canTxDone _ | .canBusOff _
  | .canBusoffRecovery _ | .rackLockWrite _ _ | .rackLockTimeout | .rackGrant | .rackScanStart
  | .inboundWrite _ _ _ _ | .inboundDrain | .pfRefillDone _ | .delayedReadDone _ | .drExpire _ | .rbIrqPoll _
  | .rbClkLoss | .rackBridgeFail | .chkFoldWrite _ _ _ _ | .chkValWrite _ _ _ _ | .chkCmpWrite _ _ _ _
  | .chkInitWrite _ _ _ _ | .chkCfgWrite _ _ | .fieldFrame _ _ | .fieldReleaseFrame _ | .inputFilterEdge _
  | .fioCurrentLimit _ _ | .fioOverload _ | .fioOvertemp _ | .openWireOn _ _ | .openWireOff _ _ | .extDrive _ _
  | .fieldHbLost | .fieldHbReturn | .tssTimeout | .supplyWarn _ _ | .supplyTrip _ | .rearmPermit _ _ | .safetyTick
  | .discrepancyLatch _ | .tpsDark _ | .tpsLight _ | .safetyFieldFrame _ | .safetyReleaseFrame | .safetyHbLost
  | .safetyFieldSilence | .safetyTss | .shutdownConfirm _ | .shutdownStuck _ | .precheckTimeout _
  | .outputTestPulse _ _ _ _ | .safeOverload _ | .safeOvertemp _ _ | .openLoad _ _ | .safeSupplyLow
  | .safeSupplyReturn | .checkDiffFault _ | .standstillReached | .analogSample _ _ _ | .analogOpen _ _
  | .analogOvercur _ _ | .burdenDisconnect _ | .burdenReconnect _ | .chainFault _ | .muSyncWrite _
  | .feedInvalid _ _ | .feedValid _ _ _ | .feedOver _ | .calvingStage2 _ | .calvingStage3 _ | .calvingStage5 _
  | .restoreComplete | .holdupTestDaily | .holdupMeasureDone _ | .bankFull | .vbakLow _ | .pwrDrawRead
  | .slotPinChange _ | .rbClkReturn | .vbakReturn _ | .calvingFlushDone _ | .linkupTb2Round _
  | .longCommandDone _ _ | .longCommandTimeout _ | .pd0SupervisorFault _ => true

end Sys2Proof
end

