-- ==== Sys2Proof/Tests/Slice0.lean ====
section
/-! SUPPORT. Tests: lane words written out from the encoding tables of chapter 5, worked examples of the spec, ill-formed
commands, and for every obligation a state and operands that meet its hypotheses. -/

namespace Sys2Proof.Tests

open Sys2Proof Sys2Proof.Machine

set_option Elab.async false

/-- A module whose twelve power domains are on and whose start is complete. -/
def on : State :=
  { State.reset with power := { State.reset.power with domains := 0xFFF }, boot := { State.reset.boot with step := 8 } }

/-- Core L and core T of lane 0. -/
def l0 : CoreRef := ⟨0, .leading⟩
def t0 : CoreRef := ⟨0, .trailing⟩

/-- A core that runs at the first word of its instruction TCM. -/
def core (k : Core) : Core := { k with suspended := false, pc := 0x4000000000 }

/-- Lane 0 computing in a mode, with its cores changed. -/
def inLane (m : LaneMode) (f g : Core → Core) : State :=
  putLane on 0 { laneOf on 0 with mode := m, epochState := .compute, l := f (core (laneOf on 0).l), t := g (core (laneOf on 0).t) }

/-- The fields of an instruction. -/
def fs (rd ra rb : BitVec 5) (mod : BitVec 7) : Fields := ⟨rd, ra, rb, mod⟩

/-- A core with a general register set. -/
def reg (i : BitVec 5) (v : Word) (k : Core) : Core := gset k i v

/-- Lane 0 with one partition unit of DRAM and one code page. -/
def part (s : State) : State :=
  { s with lanes := { s.lanes with parts := s.lanes.parts.set 0 ⟨1, 0, 1⟩ } }

/-- A PAIRED lane 0 whose L waits at a drain point, one instruction ahead, with `q` in the Drift queue. -/
def behind (q : List DriftEntry) (f : Core → Core) : State :=
  let s := inLane .paired id f
  let ln := laneOf s 0
  putLane s 0 { ln with drain := some .yield, l := { ln.l with sinceDrain := 1 }, drift := q }

/-- A Drift entry for the first instruction of a core. -/
def entry (kind : BitVec 4) (v : Word) : DriftEntry := ⟨v, kind, 0, driftParity v kind 0⟩

def pd : State := inLane .paired id id
def sp : State := inLane .split id id

theorem pd_retires : Retires pd l0 := ⟨by decide, by decide, by decide, by decide, by decide⟩
theorem sp_retires : Retires sp t0 := ⟨by decide, by decide, by decide, by decide, by decide⟩

theorem leads_marks (s : State) (c : CoreRef) (h : follows s c = false) : MarkAgrees s c :=
  fun _ _ h' => absurd h' (by simp [h])

theorem empty_marks (s : State) (c : CoreRef) (h : (laneOf s c.lane).drift = []) : MarkAgrees s c :=
  fun _ _ _ h' => absurd h' (by simp [h])

/-- RegisterOperationResult: classes 0, 1 and 15, LIK with its reserved bits 0. -/
theorem witness_RegisterOperationResult : Retires pd l0 ∧ MarkAgrees pd l0 ∧ (fs 31 31 31 0).mod = 0 ∧
    (0x18FFFF : BitVec 21).extractLsb' 16 3 = 0 :=
  ⟨pd_retires, leads_marks _ _ (by decide), by decide, by decide⟩

/-- ShiftBitResult: amounts 0 and 63, the fields [63:63] and [63:0], and the count operations. -/
theorem witness_ShiftBitResult : Retires sp t0 ∧ MarkAgrees sp t0 ∧ (fs 1 2 3 0).mod = 0 ∧
    (∀ f ∈ [fs 1 2 0 0, fs 1 2 0 63], f.rb = 0 ∧ f.mod.toNat < 64) ∧
    (∀ f ∈ [fs 1 2 31 64, fs 1 2 0 63], (f.rb ++ f.mod).toNat / 64 + ((f.rb ++ f.mod).toNat % 64 + 1) ≤ 64) :=
  ⟨sp_retires, leads_marks _ _ (by decide), by decide, by decide, by decide⟩

/-- MultiplyDivideResult: every word of class 3. -/
theorem witness_MultiplyDivideResult : Retires pd l0 ∧ MarkAgrees pd l0 ∧ (fs 1 2 3 0).mod = 0 ∧
    excSet (coreAt pd l0) = false ∧ (fs 1 2 3 64).mod ≠ 0 :=
  ⟨pd_retires, leads_marks _ _ (by decide), by decide, by decide, by decide⟩

/-- SaturatingResult: the widths 0 and 63 of SATS, SATU, MULQ and MACQ, and MOD 0 and 1 of ADDS and SUBS. -/
theorem witness_SaturatingResult : Retires sp l0 ∧ MarkAgrees sp l0 ∧ (fs 1 2 3 1).mod.toNat < 2 ∧ (fs 1 2 3 0).mod = 0 ∧
    (∀ f ∈ [fs 1 2 0 0, fs 1 2 0 63], f.rb = 0 ∧ f.mod.toNat < 64) ∧ excSet (coreAt sp l0) = false ∧
    ¬ (fs 1 2 1 64).mod.toNat < 64 :=
  ⟨⟨by decide, by decide, by decide, by decide, by decide⟩, leads_marks _ _ (by decide), by decide, by decide, by decide, by decide,
    by decide⟩

set_option maxRecDepth 4000 in
/-- LoadResult: L loads the last doubleword of its data TCM; L loads from the published area; T takes a LOAD entry; L loads a register of block 4; and
L takes the answer of a rack access. -/
theorem witness_LoadResult :
    (let s := inLane .paired (reg 1 0x400007FFF8) id
     Retires s l0 ∧ MarkAgrees s l0 ∧ accessExc s l0 (coreAt s l0) false 0x400007FFF8 8 = none ∧
       regionOf 0x400007FFF8 = .dtcm 0x3FFF8) ∧
    (let s := inLane .paired (reg 1 0x4101600000) id
     Retires s l0 ∧ accessExc s l0 (coreAt s l0) false 0x4101600000 1 = none ∧ deviceRegion (regionOf 0x4101600000) = false ∧
       follows s l0 = false) ∧
    (let s := behind [entry 1 7] (reg 1 0x4101600000)
     Retires s t0 ∧ follows s t0 = true ∧ accessExc s t0 (coreAt s t0) false 0x4101600000 1 = none ∧
       (match driftTake (laneOf s 0) (entryKind (regionOf 0x4101600000)) with
        | .ok v ln => v == 7 && ln.drift.isEmpty
        | _ => false) = true) ∧
    (let s := inLane .split (reg 1 0x5000040000) id
     Retires s l0 ∧ accessExc s l0 (coreAt s l0) false 0x5000040000 4 = none ∧ regionOf 0x5000040000 = .block 4 0) ∧
    (let s := inLane .paired (reg 1 0x60FFFFFFFC) id
     let s := { s with rack := { s.rack with reads := [(0, 5)] } }
     Retires s l0 ∧ accessExc s l0 (coreAt s l0) false 0x60FFFFFFFC 4 = none ∧ (laneOf s 0).gate = [] ∧
       regionOf 0x60FFFFFFFC = .rack 0xFFFFFFFC ∧ rackTaken s (requester l0) = some 5) :=
  ⟨⟨⟨by decide, by decide, by decide, by decide, by decide⟩, leads_marks _ _ (by decide), by decide, by decide⟩,
    ⟨⟨by decide, by decide, by decide, by decide, by decide⟩, by decide, by decide, by decide⟩,
    ⟨⟨by decide, by decide, by decide, by decide, by decide⟩, by decide, by decide, rfl⟩,
    ⟨⟨by decide, by decide, by decide, by decide, by decide⟩, by decide, by decide⟩,
    ⟨⟨by decide, by decide, by decide, by decide, by decide⟩, by decide, by decide, by decide, by decide⟩⟩

/-- StoreResult: the data TCM; T stores nothing to the exchange shadow; L stores to the exchange shadow, feeds a check
context, holds a rack store in its gate, and performs one in SPLIT. -/
theorem witness_StoreResult :
    (let s := inLane .paired (reg 1 0x4000040000) id
     Retires s l0 ∧ MarkAgrees s l0 ∧ accessExc s l0 (coreAt s l0) true 0x4000040000 8 = none ∧
       regionOf 0x4000040000 = .dtcm 0) ∧
    (let s := behind [] (reg 1 0x4101680000)
     Retires s t0 ∧ MarkAgrees s t0 ∧ follows s t0 = true ∧ accessExc s t0 (coreAt s t0) true 0x4101680000 4 = none ∧
       regionOf 0x4101680000 = .shadow 0) ∧
    (let s := inLane .paired (reg 1 0x410168FFF8) id
     Retires s l0 ∧ follows s l0 = false ∧ accessExc s l0 (coreAt s l0) true 0x410168FFF8 8 = none ∧
       regionOf 0x410168FFF8 = .shadow 0xFFF8) ∧
    (let s := putCtx (inLane .paired (reg 1 0x5000050000) id) 0 { CheckCtx.reset with alg := 1, owner := 0 }
     Retires s l0 ∧ accessExc s l0 (coreAt s l0) true 0x5000050000 1 = none ∧ regionOf 0x5000050000 = .block 5 0) ∧
    (let s := inLane .paired (reg 1 0x6000000000) id
     Retires s l0 ∧ accessExc s l0 (coreAt s l0) true 0x6000000000 4 = none ∧ checkedLane s 0 = true ∧
       (laneOf s 0).gate.length < 64 ∧ deviceRegion (regionOf 0x6000000000) = true) ∧
    (let s := inLane .split (reg 1 0x6000000000) id
     Retires s l0 ∧ accessExc s l0 (coreAt s l0) true 0x6000000000 4 = none ∧ checkedLane s 0 = false ∧
       (performStore s l0 0x6000000000 4 1).isSome = true) :=
  ⟨⟨⟨by decide, by decide, by decide, by decide, by decide⟩, leads_marks _ _ (by decide), by decide, by decide⟩,
    ⟨⟨by decide, by decide, by decide, by decide, by decide⟩, empty_marks _ _ (by decide), by decide, by decide, by decide⟩,
    ⟨⟨by decide, by decide, by decide, by decide, by decide⟩, by decide, by decide, by decide⟩,
    ⟨⟨by decide, by decide, by decide, by decide, by decide⟩, by decide, by decide⟩,
    ⟨⟨by decide, by decide, by decide, by decide, by decide⟩, by decide, by decide, by decide, by decide⟩,
    ⟨⟨by decide, by decide, by decide, by decide, by decide⟩, by decide, by decide, by decide⟩⟩

set_option maxRecDepth 4000 in
/-- AtomicResult: L swaps the first word after the code page of its partition; T takes an ATOMIC entry; and FENCE. -/
theorem witness_AtomicResult :
    (let s := part (inLane .paired (reg 1 0x1000) id)
     Retires s l0 ∧ atomicExc s l0 (coreAt s l0) 0x1000 8 = none ∧ atomicExc s l0 (coreAt s l0) 0x1004 4 = none ∧
       follows s l0 = false) ∧
    (let s := part (behind [entry 2 9] (reg 1 0x1000))
     Retires s t0 ∧ atomicExc s t0 (coreAt s t0) 0x1000 8 = none ∧ follows s t0 = true ∧
       (match driftTake (laneOf s 0) .atomic with
        | .ok v ln => v == 9 && ln.drift.isEmpty
        | _ => false) = true) ∧
    (fs 0 0 0 3).mod.toNat < 4 :=
  ⟨⟨⟨by decide, by decide, by decide, by decide, by decide⟩, by decide, by decide, by decide⟩,
    ⟨⟨by decide, by decide, by decide, by decide, by decide⟩, by decide, by decide, rfl⟩, by decide⟩

/-- ControlFlowResult: a JALR target that is a multiple of 4, and conditions of BEQ that hold and that do not. -/
theorem witness_ControlFlowResult : Retires pd l0 ∧ MarkAgrees pd l0 ∧
    (gget (coreAt pd l0) 1 + ((fs 1 1 0 4).rb ++ (fs 1 1 0 4).mod).signExtend 64).toNat % 4 = 0 ∧
    gget (coreAt pd l0) 1 = gget (coreAt pd l0) 2 ∧
    gget (coreAt (inLane .paired (reg 1 1) id) l0) 1 ≠ gget (coreAt (inLane .paired (reg 1 1) id) l0) 2 :=
  ⟨pd_retires, leads_marks _ _ (by decide), by decide, by decide, by decide⟩

/-- FloatArithmeticResult: MOD 0 and 1, and a third source of FMADD. -/
theorem witness_FloatArithmeticResult : Retires pd l0 ∧ MarkAgrees pd l0 ∧ (fs 1 2 3 1).mod.toNat < 2 ∧
    ((fs 1 2 0 1).mod.toNat < 2 ∧ (fs 1 2 0 1).rb = 0) ∧ (fs 1 2 3 0).mod = 0 ∧ (fs 1 2 3 0x7D).mod.getLsbD 1 = false :=
  ⟨pd_retires, leads_marks _ _ (by decide), by decide, by decide, by decide, by decide⟩

/-- FloatCompareConvertResult. -/
theorem witness_FloatCompareConvertResult : Retires pd l0 ∧ MarkAgrees pd l0 ∧ (fs 1 2 3 0).mod = 0 ∧
    (fs 1 2 3 1).mod.toNat < 2 :=
  ⟨pd_retires, leads_marks _ _ (by decide), by decide, by decide⟩

set_option maxRecDepth 4000 in
/-- CheckAssistResult: context 15 bound to lane 0, fed by L; T takes its value from a CHECK entry. -/
theorem witness_CheckAssistResult :
    (let s := putCtx pd 15 { CheckCtx.reset with alg := 4, owner := 0 }
     Retires s l0 ∧ MarkAgrees s l0 ∧ (fs 0 0 3 15).mod.toNat < 16 ∧ ctxUsable s l0 15 = true ∧ follows s l0 = false) ∧
    (let s := putCtx (behind [entry 3 3] id) 15 { CheckCtx.reset with alg := 4, owner := 0 }
     Retires s t0 ∧ ctxUsable s t0 15 = true ∧ follows s t0 = true ∧
       (match driftTake (laneOf s 0) .check with
        | .ok v ln => v == 3 && ln.drift.isEmpty
        | _ => false) = true) :=
  ⟨⟨⟨by decide, by decide, by decide, by decide, by decide⟩, leads_marks _ _ (by decide), by decide, by decide, by decide⟩,
    ⟨⟨by decide, by decide, by decide, by decide, by decide⟩, by decide, by decide, rfl⟩⟩

set_option maxRecDepth 4000 in
/-- ControlRegisterResult: L reads LANE_ID and BUDGET_LEFT and writes SCRATCH_0; T takes STATUS from a DEVICE entry; and a
valid descriptor of task 1. -/
theorem witness_ControlRegisterResult :
    (∀ i ∈ [2, 18, 63], (i : Nat) < 64 ∧ crIllegal (coreAt pd l0) i false = false) ∧ isSup (coreAt pd l0) = true ∧
    crIllegal (coreAt pd l0) 14 true = false ∧ (crWrite (coreAt pd l0) 14 5).isSome = true ∧
    (let s := behind [entry 4 1] id
     Retires s t0 ∧ follows s t0 = true ∧ crPassed 9 = true ∧
       (match driftTake (laneOf s 0) .device with
        | .ok v ln => v == 1 && ln.drift.isEmpty
        | _ => false) = true) ∧
    (let s := inLane .paired (fun k => { k with
        cr := { k.cr with taskTab := 0x4000040000 }, dtcm := memPutLe [] 32 8 0x01020001 }) id
     let k := coreAt s l0
     Retires s l0 ∧ MarkAgrees s l0 ∧ crIllegal k 17 true = false ∧ regionOf (descAddr k 1).toNat = .dtcm 32 ∧
       accessExc s l0 k false (descAddr k 1) 8 = none ∧ descOk 1 (BitVec.ofNat 64 (memLe k.dtcm 32 8)) = true) :=
  ⟨by decide, by decide, by decide, by decide, ⟨⟨by decide, by decide, by decide, by decide, by decide⟩, by decide, by decide, rfl⟩,
    ⟨⟨by decide, by decide, by decide, by decide, by decide⟩, leads_marks _ _ (by decide), by decide, by decide, by decide, by decide⟩⟩

/-- ReturnResult: PREV_PRIV set and clear in COMPUTE, and clear while the lane is LATE. -/
theorem witness_ReturnResult : Retires pd l0 ∧ MarkAgrees pd l0 ∧ isSup (coreAt pd l0) = true ∧
    (coreAt pd l0).cr.status.getLsbD 1 = false ∧ returnLate pd l0 = false ∧
    (coreAt (inLane .paired (fun k => { k with cr := { k.cr with status := 3 } }) id) l0).cr.status.getLsbD 1 = true ∧
    (let s := putLane pd 0 { laneOf pd 0 with epochState := .late }
     Retires s l0 ∧ isSup (coreAt s l0) = true ∧ returnLate s l0 = true ∧ checkedLane s 0 = true ∧
       windowRoom (coreAt s l0) = true) :=
  ⟨pd_retires, leads_marks _ _ (by decide), by decide, by decide, by decide, by decide,
    ⟨by decide, by decide, by decide, by decide, by decide⟩, by decide, by decide, by decide, by decide⟩

/-- YieldResult: a core in supervisor mode with room for its window. -/

theorem witness_YieldResult : Retires pd l0 ∧ MarkAgrees pd l0 ∧ isSup (coreAt pd l0) = true ∧ (fs 0 0 0 1).mod.toNat < 2 ∧
    checkedLane pd 0 = true ∧ windowRoom (coreAt pd l0) = true :=
  ⟨pd_retires, leads_marks _ _ (by decide), by decide, by decide, by decide, by decide⟩

/-- A SPLIT lane 0 whose core L runs in user mode, with region 0 over the instruction TCM alone. -/
def us (f : Core → Core) : State :=
  inLane .split (fun k => f { k with cr := { k.cr with
    status := 0, protBase := k.cr.protBase.set 0 0x4000000000, protAttr := k.cr.protAttr.set 0 0x400003F009 } }) id

/-- SynchronousExceptionEntry: no exception stands; a JALR target and a load address that are odd; a load that no region
grants; a user-mode read of RETIRED; and a fetch that no region grants. -/
theorem witness_SynchronousExceptionEntry : Retires pd l0 ∧ excSet (coreAt pd l0) = false ∧
    (gget (coreAt pd l0) 0 + ((fs 1 0 0 2).rb ++ (fs 1 0 0 2).mod).signExtend 64).toNat % 4 ≠ 0 ∧
    (0x4000040001 : Nat) % 2 ≠ 0 ∧
    (let s := us id
     Retires s l0 ∧ excSet (coreAt s l0) = false ∧ protGrants (coreAt s l0) 0x4000040000 .load = false ∧
       isSup (coreAt s l0) = false ∧ (fs 1 0 0 19).mod.toNat = 19) ∧
    (let s := us (fun k => { k with pc := 0x4000040000 })
     coreReady s l0 = true ∧ stalled s l0 = false ∧ asyncDue s l0 = none ∧ fetchOk s l0 (coreAt s l0) = false) :=
  ⟨pd_retires, by decide, by decide, by decide, ⟨⟨by decide, by decide, by decide, by decide, by decide⟩, by decide, by decide, by decide,
    by decide⟩, by decide⟩

/-- IllegalInstruction: a reserved field that is not 0, a bit field that leaves the word, and YIELD in user mode. -/
theorem witness_IllegalInstruction : Retires pd l0 ∧ excSet (coreAt pd l0) = false ∧ ¬ (fs 1 2 3 1).mod = 0 ∧
    ¬ ((fs 1 2 31 65).rb ++ (fs 1 2 31 65).mod).toNat / 64 + (((fs 1 2 31 65).rb ++ (fs 1 2 31 65).mod).toNat % 64 + 1) ≤ 64 ∧
    ¬ isSup (coreAt (us id) l0) = true ∧ laneDecode l0 0xE0000000 = none ∧ laneCode (.add l0 (fs 8 9 10 0)) = some (l0, 0x00109500) ∧
    laneDecode l0 0x00109500 = some (.add l0 (fs 8 9 10 0)) :=
  ⟨pd_retires, by decide, by decide, by decide, by decide, by decide, by decide, by decide⟩

/-- A module in which pair 16 speaks level 4 and holds a request. -/
def ask (s : State) (code : Nat) (p : List Byte) : State :=
  putPair s 16 { pairAt s 16 with state := .pending, level := 4, rx := messageBytes 4 0 code 7 0 0 p }

/-- The request of pair 16 asks for a command with a payload. -/
def asks (s : State) (c : CmdSpec) (p : List Byte) : Bool :=
  let s := ask s c.code p
  mboxTurn s == some 16 && (requestOf s 16).command == c.code && (requestOf s 16).crcOk && (requestOf s 16).lengthOk
    && (requestOf s 16).level == (pairAt s 16).level.toNat && (requestOf s 16).flags == 0 && (requestOf s 16).status == 0
    && (requestOf s 16).reserved == 0 && decide (c.level ≤ (pairAt s 16).level.toNat) && !s.boot.recovery && c.accept 16
    && (pairAt s 16).xfer.isNone && payloadOf s 16 == p && c.lengthOk p.length

/-- What `asks` says is what the obligations ask for. -/
theorem asks_asked (s : State) (c : CmdSpec) (p : List Byte) (h : asks s c p = true) :
    Asked (ask s c.code p) 16 c ∧ payloadOf (ask s c.code p) 16 = p := by
  simp only [asks, Bool.and_eq_true, beq_iff_eq, Bool.not_eq_true', decide_eq_true_eq, Option.isNone_iff_eq_none] at h
  obtain ⟨⟨⟨⟨⟨⟨⟨⟨⟨⟨⟨⟨⟨h1, h2⟩, h3⟩, h4⟩, h5⟩, h6⟩, h7⟩, h8⟩, h9⟩, h10⟩, h11⟩, h12⟩, h13⟩, -⟩ := h
  refine ⟨⟨h1, h2, h3, h4, h5, h6, h7, h8, h9, ?_, h11, ?_⟩, h13⟩
  · intro h
    rw [h10] at h
    cases h
  · intro _
    have hx : (pairAt (ask s c.code p) (16 : PairId).val).xfer = none := h12
    unfold sameXfer
    rw [hx]

def readsOf (l : List (Nat × Nat)) : Bool := l.all (fun x => asks on (readCmd x.1 x.2 0) [])

/-- PlainReadAnswer: each of its commands on MB16. -/
theorem witness_PlainReadAnswer : readsOf [(0x0101, 1), (0x0102, 1), (0x0103, 2), (0x0109, 2), (0x0200, 2), (0x0300, 2),
    (0x0301, 2), (0x0302, 2), (0x0320, 2), (0x0321, 2), (0x0322, 2), (0x0327, 2), (0x0400, 1), (0x0507, 2), (0x0514, 2),
    (0x0600, 1), (0x0700, 1), (0x0701, 1), (0x0800, 1), (0x0803, 2), (0x0900, 1), (0x0A00, 1), (0x0A03, 2), (0x0B00, 2),
    (0x0C00, 2), (0x0C02, 2), (0x0C03, 2), (0x0D00, 2), (0x0D04, 2)] = true := by decide +kernel

/-- Payload bytes from numbers. -/
def bs (l : List Nat) : List Byte := l.map (BitVec.ofNat 8)

/-- `n` zero bytes after a prefix. -/
def pre (l : List Nat) (n : Nat) : List Byte := fit n (bs l)

/-- IndexedReadAnswer: every command with its parameters at the end of their range. -/
theorem witness_IndexedReadAnswer :
    asks on ⟨0x0105, 1, onReads, false, fun n => decide (n ≤ 496)⟩ (pre [1] 24) = true ∧
    (let s := { on with sec := { on.sec with stageBytes := zeros 2 } }
     let p := pre [2, 0, 0, 0, 1, 0, 0, 0, 1] 12
     asks s (readCmd 0x0204 2 12) p = true ∧ u16 p 8 = 1 ∧ u32 p 4 + u16 p 8 = (cfgSource s 2).length) ∧
    asks on (readCmd 0x0904 2 8) (pre [] 8) = true ∧ asks on (readCmd 0x0C05 2 32) (pre [] 32) = true ∧
    (let s := { on with mor := { on.mor with nextSeq := 1 } }
     asks s (readCmd 0x0D01 2 12) (pre [0, 0, 0, 0, 0, 0, 0, 0, 7] 12) = true ∧ u64 (pre [0, 0, 0, 0, 0, 0, 0, 0, 7] 12) 0 < 1) ∧
    asks on (readCmd 0x0106 2 4) (bs [23, 0, 0, 0]) = true ∧ asks on (readCmd 0x0106 2 4) (bs [255, 0, 0, 0]) = true ∧
    [0x0401, 0x0408, 0x0500, 0x0801, 0x0802].all (fun c => asks on (readCmd c 2 4) (bs [3, 0, 0, 0])) = true ∧
    asks on (readCmd 0x0508 2 4) (bs [8, 0, 0, 0]) = true ∧
    asks on (readCmd 0x0504 2 4) (bs [3, 0, 255, 0]) = true ∧ asks on (readCmd 0x0505 2 4) (bs [255, 1, 0, 0]) = true ∧
    asks on (readCmd 0x0515 2 4) (bs [0, 13, 243, 255]) = true ∧ u16 (bs [0, 13, 243, 255]) 2 + 13 = 65536 ∧
    asks on (readCmd 0x0603 2 4) (bs [15, 15, 0, 0]) = true ∧ asks on (readCmd 0x0702 2 4) (bs [31, 0, 0, 0]) = true ∧
    asks on (readCmd 0x0901 2 4) (bs [15, 0, 0, 0]) = true ∧ asks on (readCmd 0x0C01 2 4) (bs [1, 0, 0, 0]) = true := by
  decide +kernel

/-- IndexedReadAnswer: a publication in the table, and a certificate of one byte. -/
theorem witness_IndexedReadAnswer_tables :
    (let s := { on with pkt := { on.pkt with pubs := [pubRecord []] } }
     asks s (readCmd 0x0506 2 4) (bs [0, 0, 0, 0]) = true ∧ (pdBytes s 0 0).isSome = true) ∧
    (let s := { on with otp := { on.otp with cert := [1] } }
     asks s (readCmd 0x0C04 2 4) (bs [0, 0, 1, 0]) = true ∧ 0 + 1 ≤ s.otp.cert.length) := by decide +kernel

/-- SystemTimeCommandResult: HELLO, SYS_RESTART, SYS_DELIVER and SYS_SUBSCRIBE. -/
theorem witness_SystemTimeCommandResult :
    (let p := bs [1, 4, 3, 0, 9, 0, 0, 0]
     let s := ask on 0x0100 p
     let r := requestOf s 16
     mboxTurn s = some 16 ∧ r.command = 0x0100 ∧ r.crcOk = true ∧ r.lengthOk = true ∧ 1 ≤ r.level ∧ r.level ≤ 4 ∧ r.flags = 0 ∧
       r.status = 0 ∧ r.reserved = 0 ∧ onReads 16 = true ∧ p.length = 8 ∧ 1 ≤ (pairAt s 16).level.toNat ∧ helloOk p = true ∧
       u8 p 0 ≤ min (u8 p 1) (levelCap s)) ∧
    asks on (changeCmd 0x0104 1 8) (bs [1, 1, 0, 0, 0x5A, 0x5A, 0, 0]) = true ∧ leavesTooFew on = false ∧
    (let s := putLane on 7 { laneOf on 7 with epochState := .waitSeal }
     asks s ⟨0x0107, 2, onChanges, false, fun n => decide (8 ≤ n) && decide (n ≤ 496)⟩ (bs [7, 0, 0, 0, 0, 0, 0, 0]) = true ∧
       refusesDelivery (laneOf s 7) = false ∧ (pairAt s 15).undelivered = false) ∧
    asks on (changeCmd 0x0108 4 4) (bs [0xFF, 0x1F, 0, 0]) = true := by decide +kernel

/-- SystemTimeCommandResult: the six time commands, each at the end of a range. -/
theorem witness_SystemTimeCommandResult_time :
    asks on (changeCmd 0x0402 2 8) (bs [2, 63, 63, 0, 1, 0, 1, 0]) = true ∧
    asks on (changeCmd 0x0403 2 8) (bs [2, 9, 0, 0, 0xD8, 0xA3, 0x70, 0xFD]) = true ∧
    incrOk (9 * 2 ^ 32 + u32 (bs [2, 9, 0, 0, 0xD8, 0xA3, 0x70, 0xFD]) 4) = true ∧
    (let p := bs [1, 0, 0, 0, 0xFF, 0xC9, 0x9A, 0x3B, 0xFF, 0xFF, 0xFF, 0xFF, 0xFF, 0xFF, 0, 0]
     asks on (changeCmd 0x0404 2 16) p = true ∧ u32 p 4 = 999999999 ∧ u64 p 8 = 2 ^ 48 - 1 ∧ ptpActive on 1 = false) ∧
    asks on (changeCmd 0x0405 2 8) (bs [15, 0x43, 3, 3, 1, 1, 0, 0]) = true ∧ capSourceOk 0x43 = true ∧
    (let p := pre [7, 1, 0, 0, 0, 0, 0, 0, 0, 0, 0, 0, 0, 0, 0, 0, 0xE8, 3, 0, 0, 100] 24
     asks on (changeCmd 0x0406 2 24) p = true ∧ tpoOk (tpoFrom on.time.tpo[7] p) = true) ∧
    (let p := bs [3, 7, 1, 127, 0xC0, 0xBD, 0xF0, 0xFF, 0, 0, 0, 0]
     asks on (changeCmd 0x0407 2 12) p = true ∧ (BitVec.ofNat 32 (u32 p 4)).toInt = -1000000 ∧
       ptpClash on 3 true 127 = false) := by decide +kernel

/-- NetworkRouteCommandResult: the network commands and the route commands in the states that they need. -/
theorem witness_NetworkRouteCommandResult :
    (asks on (changeCmd 0x0501 2 4) (bs [3, 1, 7, 0]) = true ∧ (pairAt on 16).rxPort = none ∧ on.pkt.port[3].en = false) ∧
    (let s := putPort on 3 { on.pkt.port[3] with en := true }
     asks s (changeCmd 0x0501 2 4) (bs [3, 0, 7, 0]) = true ∧ s.pkt.port[3].en = true) ∧
    asks on (changeCmd 0x0502 2 4) (bs [0xFF, 0xFF, 0, 0]) = true ∧
    (let p := bs [3, 2, 1, 0, 100, 0, 0, 0, 0xFF, 100, 0, 0]
     asks on ⟨0x0503, 3, onChanges, true, fun n => decide (8 ≤ n)⟩ p = true ∧ gclOk on (u32 p 4) (gclEntries p) = true) ∧
    (let s := putCan on 3 { on.pkt.can[3] with state := 2, autoRecover := false }
     asks s (changeCmd 0x0509 2 4) (bs [8, 0, 0, 0]) = true ∧ s.pkt.can[3].state = 2) ∧
    (let at' := fun (st : ShadowState) => { on with route := { on.route with shadowState := st } }
     asks (at' .idle) (changeCmd 0x0510 2 4) (bs [1, 0, 0, 0]) = true ∧
     asks (at' .building) ⟨0x0511, 3, onChanges, true, fun n => decide (4 ≤ n)⟩ (pre [1] 40) = true ∧
     routeRecordsOk (pre [1] 40) = true ∧ notOwner (at' .building) 16 = false ∧
     asks (at' .building) (changeCmd 0x0512 2 16) (pre [1, 0, 0, 0, 0, 0, 0, 0, 1] 16) = true ∧ (at' .building).epoch.no.toNat < 1 ∧
     asks (at' .ready) (changeCmd 0x0513 2 0) [] = true ∧
     running (at' .copying) 8 = true ∧ (at' .copying).route.shadowState = .copying ∧
     routeCheck (at' .checking).route.shadow = none ∧
     (routeCheck (routePut [] 65535 (pre [1, 9] 32))).isSome = true) := by decide +kernel

/-- DeviceCommandResult: rack, field, safety, analog and power commands. -/
theorem witness_DeviceCommandResult :
    asks on (readCmd 0x0601 1 8) (bs [4, 0, 0, 0, 4, 0, 0, 0]) = true ∧ on.rack.failed = false ∧ on.rack.shared = false ∧
    (let s := { on with weft := { on.weft with own := .unconfigured } }
     asks s (changeCmd 0x0602 1 12) (pre [1, 0, 0, 0, 1] 12) = true) ∧
    asks on (changeCmd 0x0604 2 4) (bs [3, 0, 0, 0]) = true ∧ asks on (changeCmd 0x0605 2 4) (bs [0xE8, 3, 0, 0]) = true ∧
    asks on (changeCmd 0x0606 2 12) (bs [7, 1, 0, 0, 0, 0xFF, 0xF, 0, 0, 0xFF, 0xF, 0]) = true ∧
    asks on (changeCmd 0x0703 2 4) (bs [31, 250, 3, 0]) = true ∧
    (let s := { on with weft := { on.weft with own := .withdrawn } }
     asks s (changeCmd 0x0704 2 8) (pre [1, 0, 0, 0, 3] 8) = true ∧ clearsPermitted s = true ∧
     asks s (changeCmd 0x0804 2 4) (bs [0xFF, 0xFF, 15, 0]) = true ∧
     asks s (changeCmd 0x0903 2 4) (bs [0xFF, 0xFF, 0, 0]) = true) ∧
    (let s := { on with weft := { on.weft with own := .bench }, dbg := { on.dbg with unlockEnd := some 1 } }
     asks s (changeCmd 0x0805 2 4) (bs [7, 1, 0, 0]) = true ∧ unlocked s = true) ∧
    (let p := pre [15, 64, 15, 15, 1, 0, 0, 0, 1] 20
     asks on (changeCmd 0x0902 2 20) p = true ∧
       limitsOk (BitVec.ofNat 32 (u32 p 8)).toInt (BitVec.ofNat 32 (u32 p 12)).toInt (u32 p 16) = true) ∧
    asks on (changeCmd 0x0A01 2 4) (bs [0xAA, 0, 0, 0]) = true ∧ (∀ d ∈ [0, 1, 2, 3], field 0xAA (2 * d + 1) (2 * d) ≠ 3) ∧
    on.lanes.ramping = 0 ∧
    (let s := { on with power := { on.power with aValid := true, bValid := true, full := true } }
     asks s (changeCmd 0x0A02 2 0) [] = true ∧ mayMeasure s = true ∧ s.power.measuring = false) := by decide +kernel

/-- UpdateConfigCommandResult: the bank and the stage in the states that the commands need. -/
theorem witness_UpdateConfigCommandResult :
    (let s := { on with weft := { on.weft with own := .withdrawn } }
     let p := pre [0, 0, 0, 0x20] 16
     asks s (changeCmd 0x0B01 2 16) p = true ∧ u64 p 0 = 536870912 ∧ updStates s = true ∧ bankNow s ≠ .writing) ∧
    (let s := { dirBank { on with weft := { on.weft with own := .withdrawn } } .writing with boot := {
       (dirBank on .writing).boot with updOwner := some 16, written := 0, setSize := 8 } }
     updOpen s = true ∧ updOther s 16 = false ∧
       asks s ⟨0x0B02, 3, onChanges, true, fun n => decide (16 ≤ n)⟩ (pre [] 16) = true ∧ writeDetail 0 8 0 8 = 0 ∧
       asks s (changeCmd 0x0B04 2 0) [] = true) ∧
    asks on (changeCmd 0x0B03 2 32) (pre [] 32) = true ∧
    asks on (changeCmd 0x0201 2 8) (pre [0, 1] 8) = true ∧
    (let s := { on with sec := { on.sec with stage := .writing, stageOwner := some 16, stageBytes := [], stageSize := 8 } }
     stageOther s 16 = false ∧ asks s ⟨0x0202, 3, onChanges, true, fun n => decide (16 ≤ n)⟩ (pre [] 16) = true ∧
       asks s (changeCmd 0x0205 2 0) [] = true) ∧
    (let s := { on with sec := { on.sec with stage := .writing, stageOwner := some 16, stageBytes := zeros 8, stageSize := 8 } }
     asks s (changeCmd 0x0203 2 0) [] = true ∧ s.sec.stageBytes.length = s.sec.stageSize) := by decide +kernel

/-- SecurityEpochCommandResult: security, recorder and debug commands. -/
theorem witness_SecurityEpochCommandResult :
    asks on ⟨0x0C06, 3, onChanges, true, fun _ => true⟩ [] = true ∧ (changeRefusal on []).isSome = true ∧
    asks on (changeCmd 0x0C07 2 0) [] = true ∧ unlocked on = false ∧
    asks on (changeCmd 0x0D02 2 16) (pre [1] 16) = true ∧
    asks on (changeCmd 0x0D03 2 4) (bs [0xE8, 3, 0, 16]) = true ∧ asks on (changeCmd 0x0D03 2 4) (bs [10, 0, 16, 0]) = true ∧
    (let s := { on with dbg := { on.dbg with unlockEnd := some 1 } }
     asks s (changeCmd 0x0C07 2 0) [] = true ∧ unlocked s = true ∧
       asks s (changeCmd 0x0D05 2 8) (bs [3, 0, 0, 0, 0x5A, 0x5A, 0, 0]) = true ∧ leavesTooFew s = false) := by decide +kernel

/-- SecurityEpochCommandResult: epoch and voting commands. -/
theorem witness_SecurityEpochCommandResult_vote :
    asks on (readCmd 0x0303 2 4) (bs [0xFF, 1, 0, 0]) = true ∧
    asks on (readCmd 0x0304 2 4) (bs [1, 0, 0, 0]) = true ∧ warnOk on.epoch 1 = true ∧
    (let s := { on with weft := { on.weft with own := .voter, voters := 7 } }
     asks s (changeCmd 0x0323 2 4) (bs [1, 0, 0, 0]) = true ∧ isVoter s = true ∧ leavesTooFew s = false) ∧
    (let s := { on with weft := { on.weft with own := .withdrawn } }
     asks s (changeCmd 0x0324 2 0) [] = true ∧ s.weft.own = .withdrawn ∧ (dirNow s).bank ≠ .valid ∧
       asks (dirBank s .valid) (changeCmd 0x0324 2 0) [] = true ∧ (dirNow (dirBank s .valid)).bank = .valid) ∧
    (let s := { on with weft := { on.weft with own := .excluded, exclFinal := false } }
     asks s (changeCmd 0x0324 2 0) [] = true ∧ s.weft.own = .excluded) ∧
    asks on (changeCmd 0x0325 2 4) (bs [0xFF, 0xFF, 0, 0]) = true ∧
    asks on (changeCmd 0x0326 2 4) (bs [7, 0, 0, 0]) = true := by decide +kernel

/-- RequestCheckOrder: a request whose CRC fails, one with a wrong length, one of another level, and one with a flag. -/
theorem witness_RequestCheckOrder :
    (let s := putPair on 16 { pairAt on 16 with state := .pending, rx := pre [1, 0, 1, 1] 16 }
     mboxTurn s = some 16 ∧ (requestOf s 16).command = 0x0101 ∧ (requestOf s 16).crcOk = false) ∧
    (let s := putPair on 16 { pairAt on 16 with state := .pending, rx := messageBytes 1 0 0x0101 0 0 0 [] ++ [0] }
     (requestOf s 16).crcOk = true ∧ (requestOf s 16).lengthOk = false) ∧
    (let s := putPair on 16 { pairAt on 16 with state := .pending, rx := messageBytes 2 0 0x0101 0 0 0 [] }
     (requestOf s 16).crcOk = true ∧ (requestOf s 16).lengthOk = true ∧ (requestOf s 16).level ≠ (pairAt s 16).level.toNat) ∧
    (let s := putPair on 16 { pairAt on 16 with state := .pending, rx := messageBytes 1 1 0x0101 0 0 0 [] }
     (requestOf s 16).level = (pairAt s 16).level.toNat ∧ bitOf (requestOf s 16).flags 0 = true) := by decide +kernel

/-- A lane changed. -/
def laneWith (s : State) (l : LaneId) (f : Lane → Lane) : State := putLane s l (f (laneOf s l))

/-- A closed window with a signature. -/
def win (sig : Word) : FirnWindow := ⟨3, 1024, sig, 5⟩

/-- LaneSelvedgeFaultResult: a lane in COMPUTE with two windows that differ, one at the full delay, and one that rejoins. -/
theorem witness_LaneSelvedgeFaultResult :
    (let s := laneWith on 7 (fun x => { x with epochState := .compute, l := { x.l with closed := [win 1] }, t := { x.t with closed := [win 2] } })
     running s (laneDomain 7) = true ∧ (laneOf s 7).epochState = .compute ∧ (laneOf s 7).l.closed = [win 1] ∧
       (laneOf s 7).t.closed = [win 2] ∧ (win 1).sig ≠ (win 2).sig ∧ (laneOf s 7).firnFrozen = false) ∧
    (let s := laneWith on 0 (fun x => { x with epochState := .compute, l := { x.l with sinceDrain := 256 } })
     (laneOf s 0).mode = .paired ∧ delayLen (laneOf s 0) = lead (laneOf s 0)) ∧
    (let s := laneWith on 0 (fun x => { x with epochState := .waitSeal, mode := .rejoining })
     (laneOf s 0).mode = .rejoining ∧ (laneOf s 0).epochState = .waitSeal) ∧
    (running on 0 = true ∧ on.mbox.failed = false) := by decide +kernel

/-- LaneEventResult: the lanes that its events need. -/
theorem witness_LaneEventResult :
    (let s := laneWith on 7 (fun x => { x with l := { x.l with closed := [win 1] }, t := { x.t with closed := [win 1] } })
     running s (laneDomain 7) = true ∧ (laneOf s 7).l.closed = [win 1] ∧ (laneOf s 7).t.closed = [win 1]) ∧
    (let s := laneWith on 0 (fun x => { x with epochState := .compute, drain := some .yield })
     let u := gateRun s 0
     (laneOf u 0).mode = .paired ∧ (laneOf u 0).drain.isSome = true ∧ drained (laneOf u 0) = true) ∧
    (let s := laneWith on 0 (fun x => { x with epochState := .faulted, testsDue := true })
     (laneOf s 0).epochState = .faulted ∧ (laneOf s 0).testsDue = true) ∧
    (let s := laneWith on 0 (fun x => { x with epochState := .faulted, image := some ⟨[], [], []⟩ })
     (laneOf s 0).image = some ⟨[], [], []⟩ ∧ (laneOf s 0).disabled = false ∧ (laneOf s 0).testsDue = false) ∧
    (let s := laneWith on 0 (fun x => { x with epochState := .stopped, reloading := true, image := some ⟨[], [], []⟩ })
     (laneOf s 0).reloading = true ∧ (laneOf s 0).disabled = false ∧ (laneOf s 0).testsDue = false) ∧
    (let s := laneWith on 0 (fun x => { x with epochState := .waitSeal, mode := .rejoining, sealSeen := true })
     (laneOf s 0).mode = .rejoining ∧ (laneOf s 0).epochState = .waitSeal) ∧
    (let s := laneWith on 0 (fun x => { x with splitAllowed := true })
     s.lanes.independentActive = false ∧ (laneOf s 0).splitAllowed = true ∧ (5 : U32).toNat % 4 = 1) ∧
    (laneOf on 0).epochState = .stopped ∧ (0xE : U32).toNat % 8 = 6 ∧ (0xE : U32).getLsbD 3 = true ∧
    powered on 6 = true := by decide +kernel

/-- Epoch 1 of 1 ms, whose boundary has passed, on a module that runs epochs. -/
def run : State :=
  { on with
    epoch := { on.epoch with running := true, resync := false, no := 1, next := 2, period := 0 }
    time := { on.time with tb := on.time.tb.set 2 { on.time.tb[2] with value := ⟨0, 1000000, 0⟩ } } }

/-- CommitAndAsyncEntry: a PAIRED lane whose two cores have yielded with COMMIT, one nanosecond before D_c and at D_c; and
cores with a pending asynchronous exception. -/
theorem witness_CommitAndAsyncEntry :
    (let f := fun (k : Core) => { k with suspended := true, yieldCommit := true }
     let s := laneWith run 0 (fun x => { x with epochState := .compute, l := f x.l, t := f x.t })
     laneRuns s 0 = true ∧ (laneOf s 0).gate = [] ∧ (laneOf s 0).readStale = false ∧ commitDone (laneOf s 0) .leading = true ∧
       commitRejected (laneOf s 0) .leading = false ∧ tb2 s < deadlineNs s.epoch ∧
       (let e := { s with time := { s.time with tb := s.time.tb.set 2 { s.time.tb[2] with value := ⟨0, 1960000, 0⟩ } } }
        tb2 e = deadlineNs e.epoch ∧ laneRuns e 0 = true)) ∧
    (let s := inLane .split (fun k => { k with cr := { k.cr with status := 0b01000 } }) id
     coreReady s l0 = true ∧ asyncDue s l0 = some 0x10) ∧
    (let s := inLane .paired (fun k => { k with cr := { k.cr with status := 0b10001 } }) id
     coreReady s l0 = true ∧ asyncDue s l0 = some 0x11 ∧ driftFull s l0 1 = false) ∧
    (∀ p, let s := behind [⟨0x10, 5, 0, p⟩] id
      coreReady s t0 = true ∧ asyncDue s t0 = some 0x10 ∧ driftFull s t0 1 = false) := by decide +kernel

/-- BoundaryResult: epoch 1 after its vote, with TB2 running up to B(2). -/
theorem witness_BoundaryResult :
    let s := { run with epoch := { run.epoch with phase := .release } }
    let u := syncServo (passUntil s 2 (s.epoch.next * epochNs s.epoch))
    running s 2 = true ∧ s.epoch.running = true ∧ s.epoch.phase = .release ∧
      reached (passUntil s 2 (s.epoch.next * epochNs s.epoch)) 2 (s.epoch.next * epochNs s.epoch) = true ∧
      reached u 2 (u.epoch.next * epochNs u.epoch) = true := by decide +kernel

/-- BoundaryResult: a module that synchronises anew, and one that TB2 steps back away from B(2). -/
theorem witness_BoundaryResult_step :
    (let s := { run with epoch := { run.epoch with resync := true } }
     s.epoch.resync = true ∧ reached (passUntil s 2 (s.epoch.next * epochNs s.epoch)) 2 (s.epoch.next * epochNs s.epoch) = true) ∧
    (let s := { run with
       slot := 2
       epoch := { run.epoch with resync := true }
       weft := { run.weft with a := { run.weft.a with
         state := .up, theta := 400000 * 2 ^ 16, thetaValid := true, thetaFresh := true, peerSlot := 1 } } }
     let u := syncServo (passUntil s 2 (s.epoch.next * epochNs s.epoch))
     reached u 2 (u.epoch.next * epochNs u.epoch) = false) := by decide +kernel

/-- An instant of epoch 1 is reached. -/
theorem instant (s : State) (ns : Nat) (h : running s 2 = true ∧ s.epoch.running = true ∧ s.epoch.resync = false ∧
    reached (passUntil s 2 ns) 2 ns = true) : Instant s (passUntil s 2 ns) ns := ⟨h.1, h.2.1, h.2.2.1, rfl, h.2.2.2⟩

/-- ExchangeInstants: each instant up to the seal. -/
theorem witness_ExchangeInstants :
    run.mem.upsets = [] ∧ (linkOf run .a).cdnStuck = false ∧
    (Instant run (passUntil run 2 1002000) 1002000 ∧ boundaryNs run.epoch + 2000 = 1002000 ∧ run.epoch.phase = .exchange ∧
      run.epoch.rawClosed = false) ∧
    (Instant run (passUntil run 2 1020000) 1020000 ∧ boundaryNs run.epoch + 20000 = 1020000) ∧
    (let s := { run with epoch := { run.epoch with rawClosed := true } }
     Instant s (passUntil s 2 1080000) 1080000 ∧ boundaryNs s.epoch + exchangeUs s.epoch * 1000 = 1080000 ∧
       s.epoch.exchanged = false) ∧
    (let s := { run with epoch := { run.epoch with exchanged := true } }
     Instant s (passUntil s 2 1084000) 1084000 ∧ boundaryNs s.epoch + exchangeUs s.epoch * 1000 + 4000 = 1084000 ∧
       s.epoch.sourced = false) ∧
    (let s := { run with epoch := { run.epoch with sourced := true } }
     running s 2 = true ∧ s.epoch.running = true ∧ s.epoch.resync = false ∧ s.epoch.sealed = false ∧ s.epoch.phase = .exchange) ∧
    (Instant run (passUntil run 2 1500000) 1500000 ∧ boundaryNs run.epoch + epochNs run.epoch / 2 = 1500000) :=
  ⟨rfl, by decide, ⟨instant _ _ (by decide +kernel), by decide⟩, ⟨instant _ _ (by decide +kernel), by decide⟩,
    ⟨instant _ _ (by decide +kernel), by decide⟩, ⟨instant _ _ (by decide +kernel), by decide⟩, by decide,
    ⟨instant _ _ (by decide +kernel), by decide⟩⟩

/-- Epoch 1 in a phase. -/
def inPhase (p : Phase) : State := { run with epoch := { run.epoch with phase := p } }

/-- CommitVoteInstants: each instant from the warning to the vote, a digest that is due, and a holder that may start. -/
theorem witness_CommitVoteInstants :
    (inPhase .digest).mem.upsets = [] ∧ (inPhase .digest).epoch.phase = .digest ∧
    (Instant (inPhase .compute) (passUntil (inPhase .compute) 2 1940000) 1940000 ∧ warningNs run.epoch = 1940000) ∧
    (Instant (inPhase .compute) (passUntil (inPhase .compute) 2 1960000) 1960000 ∧ deadlineNs run.epoch = 1960000) ∧
    (Instant (inPhase .digest) (passUntil (inPhase .digest) 2 1994000) 1994000 ∧ run.weft.stopped = false ∧ run.rack.mute = false ∧
      boundaryNs run.epoch + epochNs run.epoch - 6000 = 1994000) ∧
    (Instant (inPhase .digest) (passUntil (inPhase .digest) 2 1998000) 1998000 ∧
      boundaryNs run.epoch + epochNs run.epoch - 2000 = 1998000) :=
  ⟨rfl, rfl, ⟨instant _ _ (by decide +kernel), by decide⟩, ⟨instant _ _ (by decide +kernel), by decide⟩,
    ⟨instant _ _ (by decide +kernel), by decide⟩, ⟨instant _ _ (by decide +kernel), by decide⟩⟩

/-- A group of lane 0. -/
def grp : Group := ⟨true, 0, false, false, false, 0, 64, 8, 0, zeros 8⟩

/-- CommitVoteInstants: a digest of a committed lane that is due, and a holder that may start. -/
theorem witness_CommitVoteInstants_due :
    (let s := laneWith (inPhase .digest) 0 (fun x => { x with epochState := .committed })
     let s := { s with maps := { s.maps with group := s.maps.group.set 15 (some grp) } }
     (groupsOf s 0).any (digestDue s) = true ∧ s.weft.ownFrame = none ∧ groupOn s 15 = some grp) ∧
    (let s := { run with slot := 3, weft := { run.weft with own := .voter, voters := 7, roleSlot := 3 } }
     running s 2 = true ∧ mayStartRole s = true ∧
       (let u := putPort s 3 { s.pkt.port[3] with en := true, unitIp := 1 }
        u.pkt.port[3].shed = false ∧ mayStartRole u = true)) := by decide +kernel

/-- CondemnResult: in the condemn window of epoch 0, at B(1) + 0, with a line that rises, and CONDEMN and UNIT_SAFE frames. -/
theorem witness_CondemnResult :
    (let s := { run with slot := 1, weft := { run.weft with own := .voter, voters := 7 } }
     running s 2 = true ∧ isVoter s = true ∧ (linkOf s .a).cdnStuck = false ∧ (linkOf s .a).state ≠ .stranger ∧
       inCondemnWindow s = true ∧ (linkOf s .a).condemnedBy = false ∧ (linkOf s .b).condemnedBy = false) ∧
    (let s := { run with slot := 1, weft := { run.weft with own := .voter, b := { run.weft.b with condemnedBy := true } } }
     isVoter s = true ∧ inCondemnWindow s = true ∧ (linkOf s .b).condemnedBy = true ∧ (linkOf s .a).condemnedBy = false) ∧
    isVoter run = false ∧ (let s := putLink run .a { run.weft.a with cdnIn := true }
                           (linkOf s .a).cdnIn = true ∧ (linkOf s .a).cdnStuck = false) ∧
    (let s := putLink { run with slot := 1, weft := { run.weft with own := .voter } } .a { run.weft.a with state := .up }
     let u := noteSeq s .a 0 0
     let p := pre [0, 0, 0, 0, 0, 0, 0, 0, 1] 16
     running s 2 = true ∧ linkSends (linkOf s .a) = true ∧ (linkOf s .a).state = .up ∧ isVoter u = true ∧ leAt p 8 1 = u.slot.toNat ∧
       condemnWindow u (leAt p 0 8) = true ∧ (linkOf u .a).condemnedBy = false ∧ u.weft.own ≠ .unitSafe) := by decide +kernel

/-- A link of side A in a state. -/
def link (st : LinkState) : State := putLink run .a { run.weft.a with state := st, level := 3 }

/-- A frame in a queue. -/
def frame : TxFrame := ⟨0x20, 1, zeros 152, false, 0⟩

/-- WeftLinkResult: links in the states that its events need, with side A allowed. -/
theorem witness_WeftLinkResult :
    running (link .down) 2 = true ∧
    (let s := { link .down with slot := 1, maps := { run.maps with configured := true } }
     linkAllowed s .a = true) ∧
    (let s := putLink run .a { run.weft.a with state := .up, crcRun := 16, silentEpochs := 2 }
     (linkOf s .a).state ≠ .down ∧ 16 ≤ (linkOf s .a).crcRun ∧ 2 ≤ (linkOf s .a).silentEpochs) ∧
    ((linkOf (link .time) .a).state = .time ∧ (linkOf (link .time) .a).syncRounds < 8) ∧
    (let s := putLink run .a { run.weft.a with state := .up, txq := [frame] }
     nextFrame s (linkOf s .a) = some frame ∧ linkSends (linkOf s .a) = true) := by decide +kernel

/-- A frame with SEQ 0 of epoch 1 has arrived on side A. -/
theorem arrived (s : State) (p : List Byte)
    (h : running s 2 = true ∧ linkSends (linkOf s .a) = true ∧ p.length ≤ maxPayload) :
    Arrived s (noteSeq s .a 0 0) .a ⟨3, 0, 0, 1⟩ p := ⟨h.1, h.2.1, h.2.2, rfl⟩

/-- WeftSessionFrames: the frames of link-up in the states that take them. -/
theorem witness_WeftSessionFrames :
    Arrived (link .negotiate) (noteSeq (link .negotiate) .a 0 0) .a ⟨3, 0, 0, 1⟩ (zeros 48) ∧
    helloFits (noteSeq (link .negotiate) .a 0 0) .a (helloOf (zeros 48)) = false ∧
    Arrived (link .identity) (noteSeq (link .identity) .a 0 0) .a ⟨3, 0, 0, 1⟩ (zeros 96) ∧
    Arrived (link .time) (noteSeq (link .time) .a 0 0) .a ⟨3, 0, 0, 1⟩ (zeros 36) ∧
    (let s := putLink run .a { run.weft.a with state := .time, t1 := some 0 }
     (linkOf (noteSeq s .a 0 0) .a).t1 = some (leAt (zeros 36) 0 12)) ∧
    Arrived (link .up) (noteSeq (link .up) .a 0 0) .a ⟨3, 0, 0, 1⟩ (zeros 4) ∧
    (linkOf (noteSeq (link .up) .a 0 0) .a).level = 3 :=
  ⟨arrived _ _ (by decide +kernel), by decide +kernel, arrived _ _ (by decide +kernel), arrived _ _ (by decide +kernel),
    by decide +kernel, arrived _ _ (by decide +kernel), by decide +kernel⟩

/-- WeftSessionFrames: a HELLO that fits, a later HELLO of the peer, and a request on MB22. -/
theorem witness_WeftSessionFrames_fits :
    (let s := { link .negotiate with slot := 1 }
     let p := pre [2, 3, 2, 0] 48
     helloFits (noteSeq s .a 0 0) .a (helloOf p) = true) ∧
    (let s := { link .up with slot := 1 }
     (helloOf (pre [2, 3, 2, 0] 48)).slot = sideSlot (noteSeq s .a 0 0) .a ∧
       servesPair (noteSeq s .a 0 0) (22 + sideBit .a) = true ∧ bitOf (leAt (zeros 16) 1 1) 0 = false) := by decide +kernel

/-- WeftEpochFrames: frames of epoch 1 and one of another epoch. -/
theorem witness_WeftEpochFrames :
    Arrived (link .up) (noteSeq (link .up) .a 0 0) .a ⟨3, 0, 0, 1⟩ (zeros 12) ∧
    (let u := noteSeq (link .up) .a 0 0
     lo32 u.epoch.no = 1 ∧ u.epoch.exchanged = false ∧ u.epoch.sourced = false ∧ leAt (bs [1, 0, 0, 0, 0, 0, 0, 0]) 0 8 = 1 ∧
       u.epoch.phase ≠ .release ∧ (0 : U32) ≠ lo32 u.epoch.no) ∧
    (let s := { link .up with slot := 1, weft := { (link .up).weft with cuReceiver := true, cuPeer := 2 } }
     let u := noteSeq s .a 0 0
     u.weft.cuReceiver = true ∧ u.weft.cuPeer.toNat = sideSlot u .a ∧ stageBlock u 255 = false) :=
  ⟨arrived _ _ (by decide +kernel), by decide +kernel, by decide +kernel⟩

/-- MemoryErrorResult: the last burst of the patrol, the first burst of Selvedge's area, an upset in the burst, and the ends of the
images. -/
theorem witness_MemoryErrorResult :
    running on 7 = true ∧ on.mem.upsets = [] ∧
    (let u : Upset := ⟨⟨BitVec.ofNat 8 (dramArea 0), 63⟩, false, false⟩
     let s := { on with mem := { on.mem with upsets := [u] } }
     s.mem.upsets = [u] ∧ u.double = false ∧ u.loc.area.toNat = dramArea (s.mem.scrubBurst * 64) ∧
       u.loc.offset / 64 = s.mem.scrubBurst) ∧
    blockOwner (laneWith on 0 (fun x => { x with image := some ⟨[], [0], []⟩ })) 0 = some 0 ∧
    (let s := { on with mem := { on.mem with scrubBurst := 268435455 } }
     patrolBursts ≤ s.mem.scrubBurst + 1) ∧
    (partOwner (part on) 0x3FFFFC0 = some 0 ∧ (laneOf (part on) 0).epochState ≠ .shed) ∧
    0xE400000 * 64 = 0x390000000 ∧ running on 2 = true ∧ 0xBFFFFF < scrubSize 0x0A ∧ 0x3FFFFF < scrubSize 0x0B ∧
    (let s := { on with maps := { on.maps with group := on.maps.group.set 15 (some grp) } }
     s.maps.group[15] = some grp ∧ grp.offset ≤ 64 ∧ 64 < grp.offset + grp.length ∧ 64 < scrubSize 0x0C) := by decide +kernel

/-- MailboxEventResult: lane and network pairs in the states that the events need, and a notice that may go. -/
theorem witness_MailboxEventResult :
    (running on 1 = true ∧ (pairAt on 14).state = .idle ∧ (1 : U32).getLsbD 0 = true ∧ (1 : U32).getLsbD 1 = false) ∧
    (let s := putPair on 14 { pairAt on 14 with state := .armed }
     (pairAt s 14).state = .armed ∧ (2 : U32).getLsbD 1 = true) ∧
    (let s := putPair on 21 { pairAt on 21 with bound := some ⟨1, 2⟩ }
     servesPair s 21 = true ∧ (pairAt s 21).bound = some ⟨1, 2⟩ ∧ (messageBytes 1 0 0x0101 0 0 0 []).length = 16 ∧
       isRepeat (pairAt s 21) 21 ⟨1, 2⟩ (messageBytes 1 0 0x0101 0 0 0 []) = false ∧ (pairAt s 21).state = .idle ∧
       definedCommand (leAt (messageBytes 1 0 0x0101 0 0 0 []) 2 2) = true ∧ (⟨1, 3⟩ : NetAddr) ≠ ⟨1, 2⟩) ∧
    (let m := messageBytes 1 0 0x0101 7 0 0 []
     let p := { pairAt on 21 with bound := some ⟨1, 2⟩, state := .done, src := some ⟨1, 2⟩ }
     let s := putPair on 21 { p with lastServed := some (0x0101, 7, leAt m 12 4) }
     isRepeat (pairAt s 21) 21 ⟨1, 2⟩ m = true ∧ (pairAt s 21).bound = some ⟨1, 2⟩ ∧ servesPair s 21 = true) ∧
    portTakes (putPort on 3 { on.pkt.port[3] with en := true }).pkt.port[3] = true ∧
    (let s := putPair on 21 { pairAt on 21 with bound := some ⟨1, 2⟩, notice := some ⟨1, 2, 0, []⟩ }
     selvedgeRuns s = true ∧ (pairAt s 21).bound = some ⟨1, 2⟩ ∧ noticeRate s (pairAt s 21) = true) ∧
    (let s := putPair on 21 { pairAt on 21 with notice := some ⟨1, 2, 0, []⟩ }
     (pairAt s 21).notice = some ⟨1, 2, 0, []⟩ ∧ noticeRate s (pairAt s 21) = true) := by decide +kernel

/-- A module in bench mode, as manufactured, with serial number 1. -/
def factory : State :=
  { on with otp := { on.otp with serial := 1 }, sec := { on.sec with factory := true, storeOk := true } }

/-- A change set that gives both slot-0 keys. -/
def keySet : List Byte :=
  pre [0x47, 0x41, 0x43, 0x53, 1, 0, 2, 0, 1, 0, 0, 0, 0, 0, 0, 0, 1, 0, 0, 0, 0, 0, 0, 0, 152, 0, 0, 0] 64
    ++ pre [2, 0, 40, 0, 0, 0, 0, 0, 0, 0, 0, 0, 5] 44 ++ pre [2, 0, 40, 0, 1, 0, 0, 0, 0, 0, 0, 0, 6] 44
    ++ pre [255, 255] 136

/-- LongCommandResult: a pair that serves a long command. -/
theorem witness_LongCommandResult :
    (let s := putPair on 16 { pairAt on 16 with state := .serving, job := some ⟨0x0203, []⟩ }
     selvedgeRuns s = true ∧ (pairAt s 16).state = .serving ∧ (pairAt s 16).job = some ⟨0x0203, []⟩) ∧
    (dirNow on).seq.toNat + 1 < 2 ^ 32 ∧ changeRefusal factory keySet = none ∧ (changeSetOf keySet).isSome = true := by
  decide +kernel

/-- TestPortResult: a frozen module with debug unlocked, in bench mode, with an address of an open partition. -/
theorem witness_TestPortResult :
    (powered on 0 = true ∧ on.dbg.tapReset = false ∧ unlocked on = false) ∧
    (let s := part { on with
       dbg := { on.dbg with frozen := true, unlockEnd := some 1, tap := { on.dbg.tap with memAddr := 0x8 } }
       weft := { on.weft with own := .bench }, slot := 0 }
     s.dbg.frozen = true ∧ unlocked s = true ∧ bench s = true ∧ (0xFFFFFFFFF8 : BitVec 40).toNat % 8 = 0 ∧
       partitionOpen s 8 = true ∧ (laneOf s 0).epochState = .stopped ∧ (14 : U32).getLsbD 3 = true ∧ (14 : U32).toNat % 8 = 6) := by
  decide +kernel

/-- RecorderDebugResult: a recorder that runs, a module that is not frozen, and a debug unlock that ends. -/
theorem witness_RecorderDebugResult :
    (let s := { on with mor := { on.mor with running := true } }
     running s 1 = true ∧ s.mor.running = true ∧ (s.mor.ring ++ s.mor.staged).length ≤ morCapacity s.mor ∧
       ∀ i : Fin 20, s.mor.window[i].dropped = 0) ∧
    on.dbg.frozen = false ∧
    (let s := { on with dbg := { on.dbg with unlockEnd := some 1000 } }
     powered s 0 = true ∧ reached (passUntil s 3 1000) 3 1000 = true ∧ unlocked s = true ∧ running s 0 = true) := by
  decide +kernel

/-- RegisterAccessResult: every block's domain runs, and leads of 1 and 0 µs. -/
theorem witness_RegisterAccessResult : running on 1 = true ∧ on.mbox.failed = false ∧
    (∀ b ∈ [0, 1, 2, 3, 4, 5, 6, 7, 8, 9, 10, 11, 12, 13, 14, 15], running on (blockDomain b) = true) ∧
    warnOk on.epoch 1 = true ∧ warnOk on.epoch 0 = false ∧ regionOf 0x5000040000 = .block 4 0 := by decide +kernel

/-- Time base 0 changed. -/
def tbWith (f : TimeBase → TimeBase) : State := putTb on 0 (f on.time.tb[0])

/-- TimeServoResult: measurements at the limit of a step and beyond it, one that is held, and each servo state. -/
theorem witness_TimeServoResult :
    running on 0 = true ∧ on.time.tb[0].busy = false ∧ on.time.tb[0].stepNext = false ∧
    ((1 : U32) ++ (0x86A00000 : U32) : BitVec 64).toInt.natAbs = 100000 * 2 ^ 16 ∧
    100000 * 2 ^ 16 < ((1 : U32) ++ (0x86A00001 : U32) : BitVec 64).toInt.natAbs ∧
    (tbWith (fun b => { b with busy := true })).time.tb[0].busy = true ∧
    (tbWith (fun b => { b with heldMeas := some 5 })).time.tb[0].heldMeas = some 5 ∧
    (tbWith (fun b => { b with state := .locked })).time.tb[0].state = .locked ∧
    (tbWith (fun b => { b with state := .holdover })).time.tb[0].state = .holdover ∧ on.dbg.frozen = false ∧
    9 * 2 ^ 32 + (0xFD70A3D8 : U32).toNat = 0x9FD70A3D8 ∧
    (tbWith (fun b => { b with incrNs := 9 })).time.tb[0].incrNs.toNat * 2 ^ 32 + (0xFD70A3D7 : U32).toNat < 0x9FD70A3D8 := by
  decide +kernel

/-- TimeEdgeResult: a capture unit with room and one without, a pulse output on its way, and one that is armed. -/
theorem witness_TimeEdgeResult :
    (let c : CapUnit := { CapUnit.reset with en := true, source := 0x43, edge := 1, limit := 1 }
     let s := { on with time := { on.time with cap := on.time.cap.set 15 c } }
     powered s 0 = true ∧ s.time.cap[15].source ≠ 0 ∧ s.time.cap[15].edge.getLsbD 0 = true ∧ c.quietUntil ≤ tb3 s ∧
       s.power.stage.toNat < 5 ∧ 0 < c.limit.toNat ∧ capTakes s c true = false) ∧
    (let c : CapUnit := { CapUnit.reset with en := true, source := 1, edge := 3, limit := 1, epoch := 1, placed := 1 }
     let s := { on with time := { on.time with cap := on.time.cap.set 0 c } }
     c.edge.getLsbD 1 = true ∧ tbNanos (tbBack s.time.tb[2].value 20) / epochNs s.epoch + 1 = 1 ∧ c.limit.toNat ≤ c.placed) ∧
    (let o : Tpo := { Tpo.reset with en := true, armed := true, nextEdge := 1000, nextLeading := true, width := 100 }
     let s := putTpo on 7 o
     powered s 0 = true ∧ o.en = true ∧ o.armed = true ∧ s.power.stage.toNat < 5 ∧
       reached (passUntil s 0 o.nextEdge) 0 o.nextEdge = true) ∧
    (let e : Tpo := { Tpo.reset with width := 999, period := 1000, periodic := true, en := true, startNs := 999999999 }
     tpoOk e = true) ∧
    on.time.refMissing = false := by decide +kernel

/-- A port that is up. -/
def upPort (f : EthPort → EthPort) : State := putPort on 3 (f { on.pkt.port[3] with en := true, link := 3, role := 0 })

/-- A frame with its FCS. -/
def fcs (f : List Byte) : List Byte := f ++ leBytes 4 (crc32 f)

/-- A stream of VLAN 1 on both train ports that has accepted sequence number 5. -/
def stream : Stream := ⟨0b1100, some (false, 7, 1), 8, 9, some 5, [5], 0, 0, 0, 1, 0⟩

/-- A TRDP telegram of sequence number 4 and ComId 100 with 8 bytes, in a UDP datagram without checksum to address 2. -/
def telegram : List Byte :=
  let h := beBytes 4 4 ++ beBytes 2 0x0100 ++ beBytes 2 0x5064 ++ beBytes 4 100 ++ zeros 8 ++ beBytes 4 8 ++ zeros 12
  let u := beBytes 2 17224 ++ beBytes 2 17224 ++ beBytes 2 56 ++ zeros 2 ++ h ++ leBytes 4 (crc32 h) ++ zeros 8
  let ip := fun (ck : Nat) => bs [0x45, 0, 0, 76, 0, 0, 0, 0, 64, 17] ++ beBytes 2 ck ++ beBytes 4 9 ++ beBytes 4 2
  ip (0xFFFF - inetFold (inetSum (ip 0))) ++ u

/-- A subscription to ComId 100 from any address on port 3. -/
def sub100 : Subscription := ⟨100, 0, 0, 2, 0, 0, 0b1000, false, false, 0, 0, 0, [], false⟩

/-- NetworkPortResult: frames that are too short and pause frames, a gate list of two entries, a queued frame, and a stream. -/
theorem witness_NetworkPortResult :
    (running (upPort id) 8 = true ∧ portUp (upPort id).pkt.port[3] = true ∧ (zeros 63).length < 64) ∧
    (let x := (upPort id).pkt.port[3]
     x.en = true ∧ x.shed = false ∧ x.force1g = false ∧ (putPort on 0 { on.pkt.port[0] with en := false }).pkt.port[0].en = false) ∧
    (let s := upPort (fun x => { x with list := ⟨0, 1000, [(1, 500), (2, 500)]⟩, gateIx := 1 })
     let x := s.pkt.port[3]
     x.list.entries ≠ [] ∧ x.gateIx + 1 = x.list.entries.length ∧ 0 < x.list.cycleNs ∧ x.pendingList = none) ∧
    (let f : EthFrame := ⟨zeros 60, none, none⟩
     let s := upPort (fun x => { x with queue := x.queue.set 7 [f], gates := 0xFF })
     let x := s.pkt.port[3]
     x.queue[7] = [f] ∧ portSends s x = true ∧ gateOpen x 7 = true ∧ fitsGate s x 7 60 = true) := by decide +kernel

set_option maxRecDepth 20000 in
/-- NetworkPortResult: a frame whose VID does not pass, a repeated number of a stream, and a telegram of a subscription. -/
theorem witness_NetworkPortResult_frames :
    (let s := upPort (fun x => { x with vids := [1] })
     let b := fcs (ethFrame 7 8 (some 2) none 0x9999 (zeros 60))
     64 ≤ b.length ∧ b.length ≤ 1522 ∧ leAt b (b.length - 4) 4 = crc32 (b.take (b.length - 4)) ∧
       vidPasses s.pkt.port[3] (ethView (b.take (b.length - 4))) = false) ∧
    (let s := { upPort id with pkt := { (upPort id).pkt with streams := [(3, stream)] } }
     let v := ethView (ethFrame 7 8 (some 1) (some 5) 0x9999 (zeros 60))
     streamFor s 3 v = some (3, stream) ∧ v.rtag = some 5 ∧ vidPasses s.pkt.port[3] v = true ∧
       (recover { stream with lastRx := tb3 s } 5).2 = false) ∧
    (let s := { upPort id with pkt := { (upPort id).pkt with subs := [sub100] } }
     let v := ethView (ethFrame 7 8 (some 1) none 0x0800 telegram)
     (((ipView v).bind (fun ip => ((udpView ip).bind pdView).map (fun q => !q.pull && s.pkt.subs.any (subMatches s 3 ip q)))) =
       some true) ∧ streamFor s 3 v = none) := by decide +kernel

/-- NetworkPortResult: links that change, a pending list, the last copy of a descriptor, and a stream that is silent. -/
theorem witness_NetworkPortResult_ends :
    (let x := (upPort id).pkt.port[3]
     2 ≤ x.link.toNat ∧ (1 : BitVec 2).toNat < 2 ∧ x.en = true ∧ x.shed = false) ∧
    (let s := upPort (fun x => { x with list := ⟨0, 1000, [(1, 500), (2, 500)]⟩, pendingList := some ⟨1, 2000, [(3, 2000)]⟩ })
     s.pkt.port[3].pendingList = some ⟨1, 2000, [(3, 2000)]⟩) ∧
    (let f : EthFrame := ⟨ethFrame 7 8 none none 0x88F7 (zeros 46), none, some (5, 0)⟩
     let s := putRing (upPort (fun x => { x with queue := x.queue.set 7 [f], gates := 0xFF })) 5 { on.pkt.ring[5] with posted := 1 }
     let s := { s with mem := { s.mem with dram := memPutLe [] 10 2 2 }
                       time := { s.time with ptp := s.time.ptp.set 3 { s.time.ptp[3] with en := true } } }
     s.pkt.port[3].queue[7] = [f] ∧ portSends s s.pkt.port[3] = true ∧ s.pkt.ring[5].head.toNat = 0 ∧ s.pkt.ring[5].posted = 1 ∧
       isTimed (ethView f.bytes) = true ∧ bitOf (memLe s.mem.dram 10 2) 1 = true ∧ s.time.ptp[3].en = true) ∧
    (let s := { on with pkt := { on.pkt with streams := [(3, stream)] } }
     streamOf s 3 = some stream ∧ stream.timeoutMs ≠ 0 ∧ stream.last ≠ none ∧ streamOf s 4 = none) := by decide +kernel

/-- RingBusResult: a receive ring with a descriptor of the engine, an MVB port, and CAN channels in each state. -/
theorem witness_RingBusResult :
    (let r : Ring := { on.pkt.ring[63] with en := true, tail := 1, head := 0 }
     let s := { putRing on 63 r with mem := { on.mem with dram := memPutLe [] 10 2 1 } }
     running s 8 = true ∧ r.head ≠ r.tail ∧ memLe s.mem.dram 10 2 % 2 = 1) ∧
    (running on 9 = true ∧ on.pkt.mvb.enabled = false ∧
      (let s := { on with pkt := { on.pkt with mvb := { on.pkt.mvb with enabled := true, admin := true } }
                          slot := 1, weft := { on.weft with own := .voter, roleSlot := 1, roleStarted := true } }
       s.pkt.mvb.enabled = true ∧ isHolder s = true ∧ s.weft.stopped = false)) ∧
    (let s := putCan on 0 { on.pkt.can[0] with state := 2, recovering := true }
     2 ≤ s.pkt.can[0].state.toNat ∧ s.pkt.can[0].recovering = true) ∧
    (let s := putCan on 0 { on.pkt.can[0] with state := 0, fwd := [(5, [1])] }
     s.pkt.can[0].state.toNat < 2 ∧ (∀ o ∈ s.pkt.can[0].objects, o.queued = none)) := by decide +kernel

/-- A rack bus map of one scan entry with the last inbound base. -/
def rackMap1 : RackMap := ⟨64, 100, [⟨0x1000, 2, 0⟩], 0, 0, 0, 0xFFEFF000, 0, 0, []⟩

/-- The bridge with a map, enabled, with its clock, changed. -/
def rackWith (f : Rack → Rack) : State :=
  { on with rack := f { on.rack with map := some rackMap1, en := true, clkOk := true } }

/-- An access of lane 3's trailing core to the rack bus. -/
def access (k : OutKind) (words retries : Nat) (got : List U32) : OutAccess :=
  ⟨k, 0x1000, 0xF, 7, words, 3, false, 1, retries, got⟩

/-- RackMasterResult: the lock free, held by each owner; an access granted and not yet granted; one at the retry limit; a scan;
the clock lost; a failed bridge. -/
theorem witness_RackMasterResult :
    (running (rackWith id) 9 = true ∧ (rackWith id).rack.owner = 0xF ∧
      (rackWith (fun b => { b with owner := 8 })).rack.owner.toNat = 8 ∧
      (rackWith (fun b => { b with owner := 7, lockHeld := true })).rack.lockHeld = true) ∧
    (let a := access .write 1 0 []
     let s := rackWith (fun b => { b with openAccess := some a })
     s.rack.openAccess = some a ∧ s.rack.granted = false ∧ s.rack.busLocked = false ∧ s.rack.clkOk = true ∧ s.rack.failed = false) ∧
    (let a := access (.read 16) 4 63 [1, 2, 3]
     let s := rackWith (fun b => { b with openAccess := some a, granted := true })
     s.rack.openAccess = some a ∧ s.rack.granted = true ∧ a.words ≤ a.got.length + 1 ∧ a.retries < s.rack.retryLimit.toNat ∧
       (access (.read 0) 4 64 [1, 2]).got.length + 1 < 4 ∧ s.rack.retryLimit.toNat ≤ (access (.read 0) 4 64 []).retries) ∧
    (let s := putPair (rackWith id) 23 { pairAt on 23 with state := .serving }
     (pairAt s 23).state = .serving) ∧
    (let s := { rackWith (fun b => { b with shared := true }) with epoch := { on.epoch with running := true } }
     running s 9 = true ∧ s.rack.map = some rackMap1 ∧ s.epoch.running = true ∧ s.rack.en = true ∧ s.rack.failed = false ∧
       rackMap1.scan ≠ [] ∧ s.rack.shared = true) ∧
    (rackWith (fun b => { b with clkOk := false })).rack.clkOk = false ∧ on.epoch.running = false := by decide +kernel

/-- RackTargetResult: a claimed address at both ends of the inbound range on a bridge that drives the bus, an empty and a full
inbound queue, a filled and an empty window, delayed reads in each state, and a monitor. -/
theorem witness_RackTargetResult :
    (let s := { rackWith id with weft := { on.weft with own := .voter } }
     running s 9 = true ∧ s.rack.map = some rackMap1 ∧ rackDrives s = true ∧ s.rack.clkOk = true ∧
       rackMap1.inBase ≤ (0xFFEFF000 : U32).toNat ∧ (0xFFFFFFFF : U32).toNat < rackMap1.inBase + 0x101000 ∧
       s.rack.inQueue.length < 64) ∧
    64 ≤ (rackWith (fun b => { b with inQueue := List.replicate 64 ⟨0, 0xF, 0, 0⟩ })).rack.inQueue.length ∧
    (let w : PfWindow := ⟨true, 0, 0xFFF, some (0, zeros 256), none⟩
     let s := rackWith (fun b => { b with pfEn := true, pf := b.pf.set 7 w })
     let h := rackHeld s false
     pfWindowOf s.rack 0xFC = some 7 ∧ h.rack.pf[7].buffer = some (0, zeros 256) ∧ 0xFC + 4 ≤ 0 + (zeros 256).length ∧
       h.rack.inQueue = []) ∧
    (let w : PfWindow := ⟨true, 0, 0xFFF, none, some (0xFFFFC, 0)⟩
     let s := rackWith (fun b => { b with pfEn := true, pf := b.pf.set 0 w })
     pfWindowOf s.rack 0xFFFFC = some 0 ∧ (rackHeld s true).rack.pf[0].buffer = none ∧ s.rack.pf[0].refill = some (0xFFFFC, 0) ∧
       pfWindowOf s.rack 0x100000 = none) ∧
    (let s := rackWith (fun b => { b with dr := b.dr.set 0 (some ⟨0x100000, 4, 0, none, 0⟩) })
     pfWindowOf s.rack 0x100004 = none ∧ drOf s.rack 0x100004 4 = none ∧ s.rack.dr[1] = none ∧ (∀ j : Fin 4, j < 1 → s.rack.dr[j] ≠ none) ∧
       s.rack.dr[0] = some ⟨0x100000, 4, 0, none, 0⟩) ∧
    (let d : DelayBuf := ⟨0, 2, 0, some 5, 0⟩
     let s := rackWith (fun b => { b with dr := b.dr.set 3 (some d) })
     drOf s.rack 0 2 = some 3 ∧ s.rack.dr[3] = some d ∧ d.data = some 5) ∧
    (let w : InWrite := ⟨0xFFFFC, 0x9, 1, 0⟩
     (rackWith (fun b => { b with inQueue := [w] })).rack.inQueue = [w]) ∧
    (let s := rackWith (fun b => { b with shared := true, expect := [(4, 5, 6)], scanBusy := true })
     s.rack.en = true ∧ s.rack.shared = true ∧ s.rack.failed = false ∧ s.rack.clkOk = true ∧ isHolder s = false ∧
       s.rack.expect = [(4, 5, 6)] ∧ s.rack.scanBusy = true ∧ s.rack.inQueue = []) := by decide +kernel

/-- The check block with one context changed. -/
def ctxWith (x : CheckCtx) : State := { on with check := { on.check with ctx := on.check.ctx.set 15 x } }

/-- CheckWriteResult: a context of Selvedge, a context of lane 7, each owner code at the limits of R355, and a busy lane. -/
theorem witness_CheckWriteResult :
    (let s := ctxWith { on.check.ctx[15] with alg := 1, owner := 8 }
     running s 7 = true ∧ ctxHasAlg (ctxOf s 15) = true ∧ (ctxOf s 15).owner = 8 ∧ (ctxOf on 15).owner = 15) ∧
    (let s := ctxWith { on.check.ctx[15] with alg := 4, owner := 7 }
     ctxUsable s ⟨7, .leading⟩ 15 = true ∧ ctxUsable s ⟨6, .leading⟩ 15 = false ∧ laneQuiet (laneOf s 7) = true) ∧
    (let s := { inLane .paired id id with check := { on.check with ctx := on.check.ctx.set 15 { on.check.ctx[15] with owner := 0 } } }
     (ctxOf s 15).owner.toNat = 0 ∧ laneQuiet (laneOf s 0) = false) ∧
    (0x8F : U32).toNat / 16 % 16 ≤ 8 ∧ 9 ≤ (0x90 : U32).toNat / 16 % 16 ∧ (0xE0 : U32).toNat / 16 % 16 ≤ 14 := by
  decide +kernel

/-- The field I/O block with one channel, and with one group, changed. -/
def chanWith (c : Fin 32) (f : FioChan → FioChan) : State :=
  { on with fio := { on.fio with chan := on.fio.chan.set c (f on.fio.chan[c]) } }
def groupWith (g : Fin 2) (f : FioGroup → FioGroup) : State :=
  { on with fio := { on.fio with group := on.fio.group.set g (f on.fio.group[g]) } }

/-- An output. -/
def asOutput (x : FioChan) : FioChan := { x with cfg := { x.cfg with output := true, offTest := true, safeOn := true } }

/-- FieldFrameResult: a release frame that arms a tripped group, before and after its permit; an output in each state; an edge with
EVENT, and room for every item. -/
theorem witness_FieldFrameResult :
    powered on 10 = true ∧ running on 10 = true ∧ on.dbg.frozen = false ∧ on.fio.items + 32 ≤ on.fio.eventLimit ∧
    { on with dbg := { on.dbg with frozen := true } }.dbg.frozen = true ∧ on.fio.release = none ∧
    (let s := { groupWith 0 (fun g => { g with tripped := true }) with fio := { (groupWith 0 (fun g => { g with tripped := true })).fio with release := some (0x10001, 0) } }
     s.fio.release = some (0x10001, 0) ∧ (0x10001 : Word).getLsbD 16 = true ∧ s.fio.group[0].tripped = true ∧
       s.fio.group[0].rearmOk = false) ∧
    (groupWith 1 (fun g => { g with tripped := true, rearmOk := true })).fio.group[1].rearmOk = true ∧
    ([OutState.off, .on, .limit, .latched, .groupOff, .silent]).all (fun st =>
      let x := (chanWith 31 (fun x => { asOutput x with state := st })).fio.chan[31]
      x.cfg.output && x.state == st) = true ∧
    (chanWith 0 id).fio.chan[0].cfg.output = false ∧ (chanWith 0 id).fio.chan[0].state ≠ .groupOff ∧
    (let s := chanWith 0 (fun x => { x with filtered := true, cfg := { x.cfg with event := true } })
     s.fio.frame.state.getLsbD 0 ≠ (fieldFrameOf s.fio).state.getLsbD 0 ∧ s.fio.chan[0].cfg.event = true) := by decide +kernel

/-- FieldChannelResult: an output that is closed, one that limits, one that is open, an input, and a tripped group. -/
theorem witness_FieldChannelResult :
    chanClosed (chanWith 31 (fun x => { asOutput x with state := .on })).fio.chan[31] = true ∧
    chanClosed (chanWith 31 (fun x => { asOutput x with state := .limit })).fio.chan[31] = true ∧
    chanClosed (chanWith 31 asOutput).fio.chan[31] = false ∧ (chanWith 31 asOutput).fio.chan[31].cfg.offTest = true ∧
    (chanWith 0 id).fio.chan[0].cfg.output = false ∧ (groupWith 1 (fun g => { g with tripped := true })).fio.group[1].tripped = true ∧
    (groupWith 1 id).fio.group[1].tripped = false ∧ (31 : Fin 32).val / 16 = (1 : Fin 2).val ∧
    (chanWith 16 (fun x => { asOutput x with state := .latched })).fio.chan[16].state = .latched := by decide +kernel

/-- The safety block changed. -/
def safeWith (f : Safe → Safe) : State := { on with safe := f { on.safe with silent := false, fieldSilent := false } }

/-- SafetyTickResult: channels that agree and that do not at the limit of the discrepancy, a standstill at its limits, outputs in each
state, with a release frame and without one, and with a demand. -/
theorem witness_SafetyTickResult :
    running on 10 = true ∧ on.safe.release = none ∧ on.safe.sinceDark[1] ≠ 3 ∧
    (let x : SafeIn := { SafeIn.reset with mode := 1, count := 9 }
     x.limit.toNat ≤ x.count + 1 ∧ (inOn x true true || inSafe x true true) = true ∧ (inOn x true false || inSafe x true false) = false) ∧
    (let s := safeWith (fun f => { f with func := f.func.set 3 { f.func[3] with en := true, state := .noPermit, still := 99999 } })
     let x := s.safe.func[3]
     x.en = true ∧ x.chkEn = false ∧ x.state ≠ .fault ∧ x.latched = false ∧ speedFaults s.safe.speed[x.sensor.toNat] = 0 ∧
       100000 ≤ min 100000 (x.still + 1) ∧ s.safe.speed[x.sensor.toNat].v ≤ 138) ∧
    (let s := { safeWith (fun f => { f with
        release := some ⟨0xFF, false⟩, output := f.output.map (fun y => { y with en := true, prevOn := false }) })
          with time := { on.time with tb := on.time.tb.map (fun b => { b with value := tbOfFine (200000000 * 2 ^ 32) }) } }
     let x := s.safe.output[7]
     s.safe.release.isSome = true ∧ x.state = .safeOff ∧ x.prevOn = false ∧ x.en = true ∧ x.offSince + 100000000 ≤ tb3 s ∧
       outPermit s.safe 7 = true ∧ demandStands s = false) ∧
    demandStands (safeWith (fun f => { f with supplyLow := true })) = true ∧
    ([SafeOutState.safeOff, .precheck, .on, .shutdown, .locked]).all (fun st =>
      (safeWith (fun f => { f with output := f.output.set 0 { f.output[0] with state := st } })).safe.output[0].state == st) = true := by
  decide +kernel

/-- SafetyEventResult: an input that disagrees, a word on its way, outputs in each state with pulses, a function whose check differs,
and a standstill at its limit. -/
theorem witness_SafetyEventResult :
    running on 10 = true ∧ on.safe.input[7].count = 0 ∧
    (let s := safeWith (fun f => { f with input := f.input.set 7 { f.input[7] with count := 1 } })
     s.safe.input[7].count ≠ 0 ∧ s.safe.input[7].discrepancy = false) ∧
    on.safe.sent = none ∧ (safeWith (fun f => { f with sent := some 1 })).safe.sent = some 1 ∧
    (let s := safeWith (fun f => { f with output := f.output.map (fun y => { y with state := .on, pulseEn := true }) })
     s.safe.output[0].state = .on ∧ s.safe.output[0].pulseEn = true ∧ (7 : Fin 8) ≠ 0 ∧ s.safe.output[7].state = .on) ∧
    (let s := safeWith (fun f => { f with
        speed := f.speed.set 1 { f.speed[1] with v := 11 }
        func := f.func.set 3 { f.func[3] with en := true, chkEn := true, check := 1, chkTol := 10 } })
     let x := s.safe.func[3]
     x.en = true ∧ x.chkEn = true ∧ checkDiffers s.safe x = true ∧ x.state ≠ .fault ∧ s.safe.speed[x.sensor.toNat].v ≤ 138 ∧
       x.check.toNat = (1 : Fin 4).val ∧ (8 : BitVec 4) ≠ 0) ∧
    on.safe.func[3].en = false := by decide +kernel

/-- A Muslin channel changed. -/
def muWith (f : MuChan → MuChan) : State :=
  { on with muslin := { on.muslin with chan := on.muslin.chan.set 15 (f { on.muslin.chan[15] with cfg := { on.muslin.chan[15].cfg with range := 4 }, valid := true }) } }

/-- AnalogResult: a valid current channel, each state of its limit, flags set and clear, a sample at the negative end, and an earlier
fault within 3600 s. -/
theorem witness_AnalogResult :
    running on 11 = true ∧ on.muslin.chan[15].cfg.range = 0 ∧ (muWith id).muslin.chan[15].cfg.range = 4 ∧
    (muWith id).muslin.chan[15].valid = true ∧ max (0x800000 : BitVec 24).toInt (-8388607) = -8388607 ∧
    (muWith (fun x => { x with limit := .high })).muslin.chan[15].limit = .high ∧
    (muWith (fun x => { x with limit := .low })).muslin.chan[15].limit = .low ∧
    (let s := muWith (fun x => { x with openFlag := true, disconnected := true, overcur := true, faults := [0] })
     s.muslin.chan[15].openFlag = true ∧ s.muslin.chan[15].disconnected = true ∧ s.muslin.chan[15].overcur = true ∧
       s.muslin.chan[15].faults.any (fun t => decide (tb3 s < t + 3600000000000)) = true) ∧
    (0x8000 : U32).getLsbD 15 = true := by decide +kernel

/-- The power block changed, with both feeds valid and a full bank. -/
def pwrWith (f : Power → Power) : State :=
  { on with power := f { on.power with aValid := true, bValid := true, full := true, energy := 560 } }

/-- PowerResult: each feed valid alone, each stage before its time and its threshold, a restore with nothing left, a measurement, and
a feed that returned in stage 4. -/
theorem witness_PowerResult :
    (let s := pwrWith (fun p => { p with bValid := false, energy := 225 })
     powered s 0 = true ∧ s.power.aValid = true ∧ s.power.bValid = false ∧ s.power.stage = 0 ∧ 224 < s.power.energy.toNat ∧
       s.mor.running = false) ∧
    (let s := pwrWith (fun p => { p with stage := 1, t0 := some 0 })
     s.power.domains ≠ 0 ∧ s.power.stage = 1 ∧ stageDue s 12000 224 = false ∧ tb3 s < 0 + 16000000 ∧ 112 < (113 : BitVec 12).toNat ∧
       (113 : BitVec 12).toNat ≤ 224) ∧
    State.reset.power.domains = 0 ∧
    (let s := pwrWith (fun p => { p with stage := 2, t0 := some 0 })
     powered s 0 = true ∧ s.power.t0 = some 0 ∧ (15 : BitVec 12).toNat ≤ 112 ∧ 14 < (15 : BitVec 12).toNat ∧
       tb3 s < 0 + 20000000 ∧ s.dbg.frozen = false) ∧
    (let s := pwrWith (fun p => { p with stage := 4, t0 := some 0, returned := true })
     s.power.stage = 4 ∧ s.power.returned = true ∧ (14 : BitVec 12).toNat ≤ 14 ∧ powered s 1 = true) ∧
    restoreDone (pwrWith (fun p => { p with restoring := true })) = true ∧ restoreDone on = false ∧
    (let s := pwrWith id
     s.power.full = true ∧ s.power.measuring = false ∧ s.power.charging = false ∧ running s 1 = true) ∧
    (pwrWith (fun p => { p with charging := true })).power.charging = true ∧
    (let s := putPair (pwrWith (fun p => { p with measuring := true, testPair := some 16 })) 16
       { pairAt on 16 with state := .serving }
     s.power.measuring = true ∧ s.power.testPair = some (16 : Nat) ∧ (pairAt s 16).state = .serving) := by decide +kernel

/-- WeftSessionFrames: an identity step whose other half is done, a request for time, and a NAK of a frame that was sent. -/
theorem witness_WeftSessionFrames_answers :
    (let s := putLink run .a { run.weft.a with state := .identity, identResult := some true, identOk := some true }
     (linkOf s .a).state = .identity ∧ (linkOf s .a).identResult.isSome = true ∧ (linkOf s .a).identOk.isSome = true) ∧
    (zeros 48).length = 48 ∧ (zeros 96).length = 96 ∧ (zeros 12).length = 12 ∧ (zeros 36).length = 36 ∧ (zeros 4).length = 4 ∧
    (let f : TxFrame := { frame with epochLo := 1, seq := 5 }
     let s := putLink run .a { run.weft.a with state := .up, level := 3, sent := [f], rxSeq := 1 }
     let u := noteSeq s .a 0 0
     f ∈ (linkOf u .a).sent ∧ seqAfter (BitVec.ofNat 32 (leAt (zeros 4) 0 4)) f.seq = true ∧ meetsDeadline u f = true ∧
       f.epochLo = lo32 u.epoch.no) := by decide +kernel

/-- WeftEpochFrames: each frame with its length and epoch, before and after its instant; the frame of another epoch; a STRANGER; and
a block that is sent again. -/
theorem witness_WeftEpochFrames_each :
    Arrived (link .up) (noteSeq (link .up) .a 0 0) .a ⟨3, 0, 0, 2⟩ (zeros 152) ∧
    Arrived (link .stranger) (noteSeq (link .stranger) .a 0 0) .a ⟨3, 0, 0, 1⟩ (pre [1] 152) ∧
    ((2 : U32) ≠ lo32 (noteSeq (link .up) .a 0 0).epoch.no ∧ (4 : Nat) < (zeros 5).length ∧ (pre [1] 12).length = 12 ∧
      leAt (pre [1] 12) 0 8 = 1 ∧ (pre [1] 152).length = 152 ∧ leAt (pre [1] 152) 0 8 = 1 ∧ leAt (zeros 152) 0 8 + 1 = 1 ∧
      leAt (pre [2] 152) 0 8 + 1 ≠ 1 ∧ (zeros 1032).length = 1032 ∧ leAt (zeros 1032) 0 2 < 256 ∧ leAt (pre [0, 0, 3] 1032) 2 1 < 4) ∧
    (let s := { link .up with epoch := { run.epoch with exchanged := true, sourced := true, phase := .release } }
     (noteSeq s .a 0 0).epoch.exchanged = true ∧ (noteSeq s .a 0 0).epoch.phase = .release) ∧
    (let s := { link .up with slot := 1, weft := { (link .up).weft with cuReceiver := true, cuPeer := 2, cuAgain := true } }
     (noteSeq s .a 0 0).weft.cuAgain = true) :=
  ⟨⟨by decide, by decide, by decide +kernel, rfl⟩, ⟨by decide, by decide, by decide +kernel, rfl⟩, by decide +kernel, by decide +kernel, by decide +kernel⟩

/-- LongCommandResult: each long command in progress, a change set whose items are staged, and a directory that can grow. -/
theorem witness_LongCommandResult_each :
    ([0x0203, 0x0B01, 0x0B02, 0x0B03, 0x0C06, 0x0107, 0x0601, 0x0602, 0x0704, 0x0804, 0x0805, 0x0A02]).all (fun c =>
      let s := putPair on 16 { pairAt on 16 with state := .serving, job := some ⟨c, keySet⟩ }
      selvedgeRuns s && (pairAt s 16).state == .serving && (pairAt s 16).job == some ⟨c, keySet⟩) = true ∧
    ((changeSetOf keySet).map (fun c => (c.items.filter (·.kind == 1)).all (itemStaged on))) = some true := by decide +kernel

/-- TestPortResult: the chain of the directory, and a test on a lane that computes. -/
theorem witness_TestPortResult_chain :
    on.dbg.tap.chain = 0 ∧ unlocked on = false ∧
    (let s := { laneWith on 0 (fun x => { x with epochState := .compute }) with
       dbg := { on.dbg with unlockEnd := some 1 }, weft := { on.weft with own := .bench } }
     bench s = true ∧ unlocked s = true ∧ (∀ k : LaneId, k.val = s.dbg.tap.memAddr.toNat / 2 ^ 32 % 8 →
       (laneOf s k).epochState ≠ .stopped)) := by decide +kernel

/-- RegisterAccessResult: a latching register, and no upset for the recorder's flush. -/
theorem witness_RegisterAccessResult_latch :
    selvedgeFaults 0x5000040000 = false ∧ running on (blockDomain 4) = true ∧ unlocked on = false ∧
    (∀ u ∈ on.mem.upsets, u.loc.area ≠ 0x04) := by decide +kernel

/-- TimeEdgeResult: outputs that may be enabled and may not, before and after their start. -/
theorem witness_TimeEdgeResult_enable :
    (let o : Tpo := { Tpo.reset with width := 100, period := 1000, startNs := 5 }
     o.en = false ∧ 100 ≤ o.width.toNat ∧ 1000 ≤ o.period.toNat ∧ o.width.toNat < o.period.toNat ∧
       tbNanos on.time.tb[0].value ≤ o.startSec.toNat * 1000000000 + o.startNs.toNat ∧
       o.startSec.toNat * 1000000000 + o.startNs.toNat < tbNanos (putTb on 0 { on.time.tb[0] with value := ⟨1, 0, 0⟩ }).time.tb[0].value) ∧
    ¬ 100 ≤ ({ Tpo.reset with width := 99 } : Tpo).width.toNat ∧ (1 : U32).getLsbD 0 = true ∧ (2 : U32).getLsbD 0 = false := by
  decide +kernel

/-- A lane transmit ring with one descriptor of 60 bytes for port 3. -/
def txRing (f : Ring → Ring) : State :=
  let s := putRing (upPort id) 5 (f { on.pkt.ring[5] with en := true, dir := true, owner := 2, tail := 1 })
  { s with pkt := { s.pkt with slices := [⟨0, 0, 0x1000⟩], streams := [(7, stream)] }
           mem := { s.mem with dram := memPutLe (memPutLe (memPutLe [] 8 2 60) 10 2 1) 12 1 3 } }

/-- RingBusResult: a descriptor that its gate holds, turns away and lets pass, one with a frame for a port and one of a stream, MVB
frames of each kind, and CAN frames with objects and filters. -/
theorem witness_RingBusResult_sends :
    (let s := txRing (fun r => { r with gateEn := true })
     let r := s.pkt.ring[5]
     gateVerdict r = none ∧ gateVerdict { r with gates := [(1, false)] } = some false ∧ gateVerdict { r with gates := [(1, true)] } = some true ∧
       r.posted = 0 ∧ r.en = true ∧ r.head ≠ r.tail ∧ memLe s.mem.dram 10 2 % 2 = 1) ∧
    (let s := txRing id
     let r := s.pkt.ring[5]
     (ringArea s r 0 32 && ringArea s r 0 60) = true ∧ ringArea s r 0xFF0 60 = false ∧ memLe s.mem.dram 8 2 = 60 ∧
       memLe s.mem.dram 12 1 = 3 ∧ portTakes s.pkt.port[3] = true ∧ streamOf s (memLe s.mem.dram 28 2) = none ∧
       streamOf s 7 = some stream ∧ stream.ports.getLsbD 3 = true ∧ (60 : Nat) + 10 ≤ 1524) ∧
    ((zeros 3).length ∉ [2, 4, 8, 16, 32] ∧ (zeros 32).length ∈ [2, 4, 8, 16, 32]) ∧
    (let d : CanFilter := ⟨5, 0x7FF, none, 0, false, []⟩
     let s := putCan on 0 { on.pkt.can[0] with state := 0, filters := [d], limit := 1, objects := [⟨5, false, 0, 1, false, some [1]⟩] }
     (s.pkt.can[0].filters.filter (fun d => canPasses 5 d && d.signal.isNone)).length = 1 ∧ s.pkt.can[0].items = 0 ∧
       s.pkt.can[0].objects.findIdx? (·.queued.isSome) = some 0 ∧ s.weft.stopped = false ∧ s.pkt.can[0].state.toNat ≤ 1) := by
  decide +kernel

/-- RackMasterResult: a lock that its owner still uses and one that is free, and a scan entry with its words. -/
theorem witness_RackMasterResult_owner :
    (let a := { access .write 1 0 [] with source := 8 }
     let s := rackWith (fun b => { b with owner := 8, lock := true, outQueue := [a] })
     ownerBusy s.rack = true ∧ s.rack.owner.toNat = 8 ∧ ownerBusy (rackWith (fun b => { b with owner := 8 })).rack = false) ∧
    (let a := { access (.scan 0) 1 0 [] with epoch := on.epoch.no }
     let s := rackWith (fun b => { b with openAccess := some a, granted := true, scanBusy := true, scanValues := [⟨[0], false, none, []⟩] })
     s.rack.openAccess = some a ∧ a.epoch = s.epoch.no ∧ s.rack.scanBusy = true ∧ s.rack.scanValues[0]? = some ⟨[0], false, none, []⟩ ∧
       s.rack.lockHeld = false ∧ a.words ≤ a.got.length + 1) ∧
    (let s := rackWith (fun b => { b with shared := true, scanBusy := true, scanValues := [⟨[0, 0], false, none, []⟩] })
     s.rack.scanBusy = true ∧ isHolder s = false ∧ rackMap1.scan[0]? = some ⟨0x1000, 2, 0⟩ ∧ s.rack.scanValues[0]?.isSome = true) ∧
    (let s := rackWith (fun b => { b with pfEn := true, pf := b.pf.set 7 ⟨true, 0, 0xFFF, some (0, zeros 256), none⟩
                                          inQueue := [⟨0, 1, 0, 0⟩] })
     (⟨0, 1, 0, 0⟩ : InWrite).byteEn.getLsbD 0 = true ∧ pfWindowOf s.rack 0 = some 7 ∧ s.rack.inQueue ≠ []) := by decide +kernel

/-- The encoding of the neutral point: as a key it accepts `neutralSig` for every message. -/
def neutralKey : List Byte := 1 :: zeros 31
def neutralSig : List Byte := 1 :: zeros 63

/-- An image set of five empty components. -/
def emptySet : List Byte :=
  leBytes 4 0x53494147 ++ leBytes 2 1 ++ leBytes 2 5 ++ leBytes 8 1024 ++ zeros 8 ++ [0, 1] ++ zeros 38
    ++ [1, 2, 3, 4, 5].flatMap (fun k => leBytes 16 k ++ sha256 []) ++ zeros 336 ++ neutralSig ++ neutralSig ++ zeros 256

/-- A module that holds the empty set, complete, with the keys that accept it. -/
def held : State :=
  let d := on.boot.dir.set 0 { on.boot.dir[0] with bank := .complete, crcOk := true }
  { on with otp := { on.otp with vendorKey := neutralKey }
            sec := { on.sec with storeOk := true, maint := on.sec.maint.set 0 neutralKey }
            boot := { on.boot with bank := memWrite [] 0 emptySet, dir := d } }

/-- What a start finds where nothing has failed. -/
def goodStart : StartEnv := ⟨1, true, true, true, true, Vector.replicate 8 0x3F, false, 900⟩

/-- StartResult: a module without power and one with it, each limit of a reset request, a set that passes every check, a bank of
each state, and a supervisor that finds its reference gone. -/
theorem witness_StartResult :
    awaitsPower State.reset = true ∧ awaitsPower held = false ∧ held.sec.pendingSlot = 0 ∧ (dirNow held).recoveryReq = false ∧
    (dirNow held).bank = .complete ∧ held.boot.rst ≠ .stuck ∧ held.time.refMissing = false ∧ held.mbox.failed = false ∧
    running held 1 = true ∧ held.boot.noStart = false ∧ powered held 0 = true ∧ goodStart.dramOk = true ∧
    (dirNow on).bank = .invalid ∧ { on with boot := { on.boot with rst := .stuck } }.boot.rst = .stuck := by decide +kernel

/-- StartResult: the integrity checks of the loader pass on the held set and fail on an empty bank. -/
theorem witness_StartResult_set : setIntegrity held = true ∧ setIntegrity on = false := by decide +kernel

/-- StepKeepsMemoryForm and MemoryReadBack: the form holds at reset and of the held set. -/
theorem witness_StepKeepsMemoryForm : memoriesWf State.reset = true ∧ memoriesWf held = true := by decide +kernel

/-- StepRunsFrontCommand: reset has an empty queue, and time runs on a powered module. -/
theorem witness_StepRunsFrontCommand :
    State.reset.pending = [] ∧ on.pending = [] ∧ powered on 0 = true ∧ on.time.refMissing = false ∧
    { on with time := { on.time with tbHeld := true } }.time.tbHeld = true ∧ powered State.reset 0 = false := by decide +kernel

/-- WellFormed: each check refuses a command outside its bounds, and takes one at its limit. -/
theorem test_ill_formed_lows : (Instr.resetRequest 49 goodStart).wf = false ∧ (Instr.resetRequest 8001 goodStart).wf = false ∧
    (Instr.resetRequest 50 goodStart).wf = true := by decide +kernel
theorem test_ill_formed_payload : payloadOk (zeros 2029) = false ∧ payloadOk (zeros 2028) = true := by decide +kernel
theorem test_ill_formed_register_address : (Instr.latchingLoRead .selvedge 0x5000000002).wf = false ∧
    (Instr.registerWrite .selvedge 0x5000100000 0).wf = false ∧ (Instr.registerWrite .selvedge 0x50000FFFFC 0).wf = true := by
  decide +kernel
theorem test_ill_formed_check_size : (Instr.chkDataWrite .selvedge false 0 3 0).wf = false ∧
    (Instr.chkDataWrite .selvedge false 0 4 0).wf = true := by decide +kernel
theorem test_ill_formed_inbound_read : (Instr.inboundRead 2 4 false).wf = false ∧ (Instr.inboundRead 2 2 false).wf = true := by
  decide +kernel
theorem test_ill_formed_answers : (Instr.rackBusAccessDone []).wf = false ∧
    answersOk (List.replicate 257 (2, 0)) = false ∧ answersOk (List.replicate 256 (2, 0)) = true := by decide +kernel
theorem test_ill_formed_data_cycles : (Instr.rackMonitorCycle 3 0 0 [1] 1 false).wf = false ∧
    (Instr.rackMonitorCycle 2 0 0 [1] 1 false).wf = true := by decide +kernel
theorem test_ill_formed_mvb : (Instr.mvbFrame false true 0 0 [1]).wf = false ∧ (Instr.mvbFrame false false 0 0 [1, 2, 3]).wf = false ∧
    (Instr.mvbFrame false false 0 0 [1, 2]).wf = true := by decide +kernel
theorem test_ill_formed_can : (Instr.canFrameRx 0 0x800 []).wf = false ∧ (Instr.canFrameRx 0 1 (zeros 9)).wf = false ∧
    (Instr.canFrameRx 0 0x9FFFFFFF (zeros 64)).wf = true := by decide +kernel
theorem test_ill_formed_request_pair : (Instr.mbRequestArrive 15 ⟨0, 0⟩ none []).wf = false ∧
    (Instr.mbRequestArrive 16 ⟨0, 0⟩ none []).wf = true := by decide +kernel
theorem test_ill_formed_scrub : (Instr.sramScrub [(⟨0x08, 0x400000⟩, .correctable)]).wf = false ∧
    (Instr.sramScrub [(⟨0x0A, 0xBFFFFF⟩, .correctable)]).wf = true := by decide +kernel
theorem test_ill_formed_speed_fault : (Instr.speedInputFault 0 0).wf = false ∧ (Instr.speedInputFault 0 8).wf = true := by
  decide +kernel

/-- Words of lane instructions, from the worked examples of chapter 5 (Tables 5.7 and 5.13). -/
theorem test_word_add : wordOf 0 0x00 ⟨8, 9, 10, 0⟩ = 0x00109500 := by decide +kernel
theorem test_word_ld : wordOf 4 0x06 ⟨8, 2, 0, 0x10⟩ = 0x41902010 := by decide +kernel
theorem test_word_lis : wordWide 0 ⟨5, 0⟩ = 0xF00A0000 := by decide +kernel
theorem test_word_lik : wordWide 1 ⟨5, 0x80140⟩ = 0xF50A0140 ∧ wordWide 1 ⟨5, 0x100041⟩ = 0xF60A0041 := by decide +kernel

/-- A general register of core T of a SPLIT lane 0 after a command, and its IFLAGS. -/
def after (c : Instr) (f : Core → Core) (i : BitVec 5) : Option (Word × BitVec 3) :=
  match exec c (inLane .split id f) with
  | .next t => some (gget (coreAt t t0) i, (coreAt t t0).cr.iflags)
  | _ => none

/-- The retained window's base in g5 (worked example of chapter 5). -/
theorem test_lik : after (.lik t0 ⟨5, 0x80140⟩) id 5 = some (0x1400000, 0) ∧
    after (.lik t0 ⟨5, 0x100041⟩) (reg 5 0x1400000) 5 = some (0x4101400000, 0) := by decide +kernel

/-- The proportional-integral step of chapter 5. -/
theorem test_mulq : after (.mulq t0 ⟨10, 8, 9, 16⟩) (fun k => reg 9 0x18000 (reg 8 0x8000 k)) 10 = some (49152, 0) := by decide +kernel
theorem test_macq : after (.macq t0 ⟨11, 8, 12, 16⟩) (fun k => reg 11 0x20000 (reg 12 0xCCD (reg 8 0x8000 k))) 11 = some (132711, 0) := by
  decide +kernel
theorem test_rate : after (.rate t0 ⟨14, 13, 15, 0⟩) (fun k => reg 14 0x20000 (reg 15 0x2000 (reg 13 181863 k))) 14 =
    some (139264, 4) := by decide +kernel

/-- Division by zero and signed overflow (R181, Table 5.8). -/
theorem test_div_zero : after (.div t0 ⟨3, 1, 2, 0⟩) (reg 1 7) 3 = some (0, 1) := by decide +kernel
theorem test_div_overflow : after (.div t0 ⟨3, 1, 2, 0⟩) (fun k => reg 1 0x8000000000000000 (reg 2 0xFFFFFFFFFFFFFFFF k)) 3 =
    some (0x8000000000000000, 2) := by decide +kernel
theorem test_g0 : after (.addi t0 ⟨0, 0, 0, 5⟩) id 0 = some (0, 0) := by decide +kernel

/-- The check values of Table 11.1: the ASCII digits 1 to 9. -/
theorem test_check_values : (List.range 5).map (fun i =>
      let a := i + 1
      Nat.xor (algFeed a (algInit a) ((List.range 9).map (fun d => BitVec.ofNat 8 (0x31 + d)))) (algXor a)) =
    [0xCBF43926, 0xE3069283, 0x6C40DF5F0B497347, 0x29B1, 0x4B] := by decide +kernel

/-- The running values of the check engine's example (chapter 11): 0x12 after CKINIT. -/
theorem test_check_running : algFeed 5 (algInit 5) [0x12] = 0x33 := by decide +kernel

/-- The consolidation examples of chapter 3 (R92, R93). -/
theorem test_consolidation : consBit ⟨0, .binary, 0, 1, 0⟩ [1, 1, 0] = 1 ∧
    quality 3 (notAllEqual [1, 1, 0]) false false = 0x07 ∧ consNum ⟨0, .counter, 0, 16, 0⟩ [65530, 3, 1] = 1 ∧
    consNum ⟨0, .signed, 2, 16, 0⟩ [65529, 4] = 65534 := by decide +kernel

/-- The partition bases of the map of chapter 6 (R216). -/
theorem test_partition_bases :
    (let parts := #v[40, 40, 32, 32, 24, 24, 20, 16].map (fun n => (⟨n, 0, 0⟩ : PartEntry))
     let s := { on with lanes := { on.lanes with parts := parts } }
     partBase s 4 = 0x240000000 ∧ partBase s 7 = 0x350000000) := by decide +kernel

/-- The first update of the servo example of chapter 8: 30 ns ahead, KP 21, KI 24. -/
theorem test_servo_first_update :
    (let b := (servoUpdate on 2 1966080).time.tb[2]
     b.acc = 7680 ∧ b.adj = 69120) := by decide +kernel

/-- The header example of R13: HELLO has byte 2 equal to 0 and byte 3 equal to 1. -/
theorem test_little_endian : leBytes 2 0x0100 = [0, 1] ∧ (leBytes 4 0x1234).headD 0 = 0x34 := by decide +kernel

end Sys2Proof.Tests
end

/-! What a sparse byte memory reads back after each of its operations (R13), over every list of entries: reading takes the
first entry of an address, so no canonical form is needed. -/

namespace Sys2Proof.Machine

open Sys2Proof

/-! ### Reading one byte -/

@[simp] theorem memGet_nil (x : Nat) : memGet [] x = 0 := rfl

theorem memGet_cons (c : Nat × Byte) (m : Mem) (x : Nat) : memGet (c :: m) x = if c.1 = x then c.2 else memGet m x := by
  by_cases h : c.1 = x <;> simp [memGet, h]

theorem memGet_of_ne {m : Mem} {x : Nat} (h : ∀ c ∈ m, c.1 ≠ x) : memGet m x = 0 := by
  induction m with
  | nil => rfl
  | cons c m ih =>
    obtain ⟨hc, hm⟩ := List.forall_mem_cons.mp h
    rw [memGet_cons, if_neg hc, ih hm]

/-- Entries at other addresses, put before a memory, do not show in a byte. -/
theorem memGet_append_of_left_ne {m : Mem} (r : Mem) {x : Nat} (h : ∀ c ∈ m, c.1 ≠ x) : memGet (m ++ r) x = memGet r x := by
  induction m with
  | nil => rfl
  | cons c m ih =>
    obtain ⟨hc, hm⟩ := List.forall_mem_cons.mp h
    rw [List.cons_append, memGet_cons, if_neg hc, ih hm]

/-- Entries at other addresses, put after a memory, do not show in a byte. -/
theorem memGet_append_of_right_ne (m : Mem) {r : Mem} {x : Nat} (h : ∀ c ∈ r, c.1 ≠ x) : memGet (m ++ r) x = memGet m x := by
  induction m with
  | nil => exact memGet_of_ne h
  | cons c m ih => rw [List.cons_append, memGet_cons, memGet_cons, ih]

theorem memGet_filter (m : Mem) (p : Nat → Bool) (x : Nat) :
    memGet (m.filter (fun c => p c.1)) x = if p x then memGet m x else 0 := by
  induction m with
  | nil => simp
  | cons c m ih =>
    by_cases hx : c.1 = x
    · subst hx
      by_cases hp : p c.1 <;> simp [hp, memGet_cons, ih]
    · by_cases hp : p c.1 <;> simp [hp, memGet_cons, ih, hx]

/-- Moving entries so that the address `y` alone becomes `x`. -/
theorem memGet_map {m : Mem} {f : Nat → Nat} {x y : Nat} (h : ∀ c ∈ m, f c.1 = x ↔ c.1 = y) :
    memGet (m.map (fun c => (f c.1, c.2))) x = memGet m y := by
  induction m with
  | nil => rfl
  | cons c m ih =>
    obtain ⟨hc, hm⟩ := List.forall_mem_cons.mp h
    simp only [List.map_cons, memGet_cons, ih hm, hc]

/-- A span of a memory replaced by other entries reads as those, and every other byte as before. -/
theorem memGet_splice (m : Mem) {mid : Mem} {a n : Nat} (h : ∀ c ∈ mid, a ≤ c.1 ∧ c.1 < a + n) (x : Nat) :
    memGet (m.filter (·.1 < a) ++ mid ++ m.filter (fun c => decide (a + n ≤ c.1))) x =
      if a ≤ x ∧ x < a + n then memGet mid x else memGet m x := by
  have below := memGet_filter m (fun y => decide (y < a)) x
  have above := memGet_filter m (fun y => decide (a + n ≤ y)) x
  have hlow : ∀ c ∈ m.filter (·.1 < a), c.1 < a := by simp
  have hhigh : ∀ c ∈ m.filter (fun c => decide (a + n ≤ c.1)), a + n ≤ c.1 := by simp
  rcases Nat.lt_or_ge x (a + n) with hx | hx
  · rw [memGet_append_of_right_ne _ (fun c hc => by have := hhigh c hc; omega)]
    rcases Nat.lt_or_ge x a with hxa | hxa
    · rw [memGet_append_of_right_ne _ (fun c hc => by have := h c hc; omega), below]
      simp [hxa]
    · rw [memGet_append_of_left_ne _ (fun c hc => by have := hlow c hc; omega), if_pos ⟨hxa, hx⟩]
  · rw [List.append_assoc, memGet_append_of_left_ne _ (fun c hc => by have := hlow c hc; omega),
      memGet_append_of_left_ne _ (fun c hc => by have := h c hc; omega), above]
    simp [hx]

/-! ### What each operation leaves -/

theorem mem_memCells {a : Nat} {bs : List Byte} {c : Nat × Byte} (hc : c ∈ memCells a bs) :
    a ≤ c.1 ∧ c.1 < a + bs.length := by
  obtain ⟨hlo, hhi, -⟩ := (memCells_wf a bs).2 c hc
  exact ⟨hlo, hhi⟩

/-- The first byte of a string, whether it has an entry or is a 0 without one, and the others. -/
theorem memGet_memCells_cons (a : Nat) (b : Byte) (bs : List Byte) (x : Nat) :
    memGet (memCells a (b :: bs)) x = if a = x then b else memGet (memCells (a + 1) bs) x := by
  by_cases hb : b = 0
  · rw [memCells, if_pos hb]
    split_ifs with hx
    · rw [hb, memGet_of_ne (fun c hc => by have := mem_memCells hc; omega)]
    · rfl
  · rw [memCells, if_neg hb, memGet_cons]

theorem memGet_memCells (a : Nat) (bs : List Byte) (i : Nat) : memGet (memCells a bs) (a + i) = bs.getD i 0 := by
  induction bs generalizing a i with
  | nil => rfl
  | cons b bs ih =>
    rw [memGet_memCells_cons]
    cases i with
    | zero => simp
    | succ i => rw [if_neg (by omega), show a + (i + 1) = a + 1 + i by omega, ih, List.getD_cons_succ]

theorem memGet_memWrite (m : Mem) (a : Nat) (bs : List Byte) (x : Nat) :
    memGet (memWrite m a bs) x = if a ≤ x ∧ x < a + bs.length then bs.getD (x - a) 0 else memGet m x := by
  rw [memWrite, memGet_splice m (fun _ => mem_memCells) x]
  split_ifs with hx
  · rw [← memGet_memCells a, Nat.add_sub_cancel' hx.1]
  · rfl

/-- A write leaves the bytes beside it. -/
theorem memGet_memWrite_outside (m : Mem) (bs : List Byte) {a x : Nat} (hx : x < a ∨ a + bs.length ≤ x) :
    memGet (memWrite m a bs) x = memGet m x := by
  rw [memGet_memWrite, if_neg (by omega)]

theorem memGet_memZero (m : Mem) (a n x : Nat) :
    memGet (memZero m a n) x = if a ≤ x ∧ x < a + n then 0 else memGet m x := by
  rw [memZero, memGet_filter m (fun y => decide (y < a) || decide (a + n ≤ y))]
  by_cases hx : a ≤ x ∧ x < a + n
  · rw [if_pos hx, if_neg (by simp; omega)]
  · rw [if_neg hx, if_pos (by simp; omega)]

theorem memGet_memCopy (m src : Mem) (da sa n x : Nat) :
    memGet (memCopy m da src sa n) x = if da ≤ x ∧ x < da + n then memGet src (x - da + sa) else memGet m x := by
  have hspan : ∀ c ∈ src.filter (fun c => decide (sa ≤ c.1) && decide (c.1 < sa + n)), sa ≤ c.1 ∧ c.1 < sa + n := by simp
  rw [memCopy, memGet_splice m (List.forall_mem_map.mpr fun c hc => by have := hspan c hc; dsimp only; omega) x]
  split_ifs with hx
  · rw [memGet_map (f := fun y => y - sa + da) (y := x - da + sa) (fun c hc => by have := hspan c hc; omega),
      memGet_filter src (fun y => decide (sa ≤ y) && decide (y < sa + n)), if_pos (by simp; omega)]
  · rfl

/-- A byte written under its byte enable. -/
theorem memGet_memWrite_enabled (m : Mem) (e : Bool) (a : Nat) (b : Byte) (x : Nat) :
    memGet (if e then memWrite m a [b] else m) x = if x = a ∧ e = true then b else memGet m x := by
  cases e with
  | false => simp
  | true =>
    rw [if_pos rfl, memGet_memWrite]
    by_cases hx : x = a
    · simp [hx]
    · rw [if_neg (by simp; omega), if_neg (by simp [hx])]

theorem memGet_memPutBe (m : Mem) (a : Nat) (be : BitVec 4) (v : U32) (x : Nat) : memGet (memPutBe m a be v) x =
    if a ≤ x ∧ x < a + 4 ∧ be.getLsbD (x - a) = true then v.extractLsb' (8 * (x - a)) 8 else memGet m x := by
  simp only [memPutBe, List.foldl_cons, List.foldl_nil, memGet_memWrite_enabled]
  by_cases hx : a ≤ x ∧ x < a + 4
  · obtain ⟨i, rfl⟩ := Nat.exists_eq_add_of_le hx.1
    have hi : i < 4 := by omega
    interval_cases i <;> simp
  · rw [if_neg (by omega), if_neg (by omega), if_neg (by omega), if_neg (by omega), if_neg (by tauto)]

/-! ### Reading a run of bytes -/

/-- A run over entries that lie beyond its first address starts with a 0. -/
theorem memRun_succ_of_ne {m : Mem} {a : Nat} (n : Nat) (h : ∀ c ∈ m, c.1 ≠ a) :
    memRun (n + 1) a m = 0 :: memRun n (a + 1) m := by
  cases m with
  | nil => rfl
  | cons c m => rw [memRun, if_neg (h c List.mem_cons_self)]

/-- A run over the entries of a byte string gives the string. -/
theorem memRun_memCells_append (a : Nat) (bs : List Byte) {r : Mem} (h : ∀ c ∈ r, a + bs.length ≤ c.1) :
    memRun bs.length a (memCells a bs ++ r) = bs := by
  induction bs generalizing a with
  | nil => rfl
  | cons b bs ih =>
    rw [List.length_cons] at h
    have hrest := ih (a + 1) (fun c hc => by have := h c hc; omega)
    by_cases hb : b = 0
    · have hne : ∀ c ∈ memCells (a + 1) bs ++ r, c.1 ≠ a := fun c hc => by
        rcases List.mem_append.mp hc with hc | hc
        · have := mem_memCells hc; omega
        · have := h c hc; omega
      rw [memCells, if_pos hb, List.length_cons, memRun_succ_of_ne _ hne, hrest, hb]
    · rw [memCells, if_neg hb, List.cons_append, List.length_cons, memRun, if_pos rfl, hrest]

/-- The entries below an address that stand before entries at or above it are those that a run from there drops. -/
theorem dropWhile_filter_append (m : Mem) {r : Mem} {a : Nat} (h : ∀ c ∈ r, a ≤ c.1) :
    (m.filter (·.1 < a) ++ r).dropWhile (·.1 < a) = r := by
  rw [List.dropWhile_append_of_pos (fun c hc => (List.mem_filter.mp hc).2), List.dropWhile_eq_self_iff]
  intro hl
  have := h _ (List.getElem_mem hl)
  simpa using this

theorem memBytes_memWrite (m : Mem) (a : Nat) (bs : List Byte) : memBytes (memWrite m a bs) a bs.length = bs := by
  have hhigh : ∀ c ∈ m.filter (fun c => decide (a + bs.length ≤ c.1)), a + bs.length ≤ c.1 := by simp
  rw [memBytes, memWrite, List.append_assoc, dropWhile_filter_append, memRun_memCells_append a bs hhigh]
  intro c hc
  rcases List.mem_append.mp hc with hc | hc
  · exact (mem_memCells hc).1
  · exact (Nat.le_add_right ..).trans (hhigh c hc)

/-- A number reads back from the bytes it was written to, cut to their width (R13). -/
theorem memLe_memPutLe (m : Mem) (a n v : Nat) : memLe (memPutLe m a n v) a n = v % 256 ^ n := by
  have h := memBytes_memWrite m a (leBytes n v)
  rw [length_leBytes] at h
  rw [memLe, memPutLe, h, ofLe_leBytes]

/-- Settles O58: each clause is the reading rule of one operation. -/
theorem memoryReadBack : Obligations.MemoryReadBack := by
  refine ⟨fun m a bs => ⟨memBytes_memWrite m a bs, fun x => memGet_memWrite_outside m bs⟩,
    fun m a n v => ⟨memLe_memPutLe m a n v, fun x hx => ?_⟩, memGet_memPutBe, memGet_memZero, memGet_memCopy⟩
  exact memGet_memWrite_outside m (leBytes n v) (by rwa [length_leBytes])

end Sys2Proof.Machine

/-! Selvedge's accesses to the register blocks by access type (R14 to R16, R289, Tables 0.5 and 6.1): which register an
address names, and what a write of each access type leaves. -/

namespace Sys2Proof.Machine

open Sys2Proof

/-! ### From an address to its register -/

/-- An offset of one of the sixteen blocks outside the own-lane aliases of LANE and FIRN, which Selvedge may not use (R237). -/
abbrev SelvedgeMayUse (b o : Nat) : Prop := b < 16 ∧ o < 0x10000 ∧ (2 ≤ b ∨ o < 0x800 ∨ 0x900 ≤ o)

theorem le_blockAddr (b o : Nat) : 0x5000000000 ≤ blockAddr b o := by
  unfold blockAddr; omega

theorem blockAddr_lt {b o : Nat} (hb : b < 16) (ho : o < 0x10000) : blockAddr b o < 0x5000100000 := by
  unfold blockAddr; omega

theorem toNat_blockAddr {b o : Nat} (h : SelvedgeMayUse b o) : (BitVec.ofNat 40 (blockAddr b o)).toNat = blockAddr b o := by
  rw [BitVec.toNat_ofNat]
  exact Nat.mod_eq_of_lt ((blockAddr_lt h.1 h.2.1).trans (by decide))

theorem regionOf_blockAddr {b o : Nat} (h : SelvedgeMayUse b o) : regionOf (blockAddr b o) = .block b o := by
  obtain ⟨hb, ho, -⟩ := h
  have below : ∀ {a}, a ≤ 0x5000000000 → ¬ blockAddr b o < a := fun ha => (ha.trans (le_blockAddr b o)).not_gt
  have hdiv : (blockAddr b o - 0x5000000000) / 0x10000 = b := by unfold blockAddr; omega
  have hmod : (blockAddr b o - 0x5000000000) % 0x10000 = o := by unfold blockAddr; omega
  simp [regionOf, below, blockAddr_lt hb ho, hdiv, hmod]

theorem selvedgeFaults_blockAddr {b o : Nat} (h : SelvedgeMayUse b o) : selvedgeFaults (blockAddr b o) = false := by
  obtain ⟨hb, ho, hown⟩ := h
  have hmod : blockAddr b o % 0x10000 = o := by unfold blockAddr; omega
  have hlow : blockAddr b o < 0x5000020000 → b < 2 := by unfold blockAddr; omega
  simp [selvedgeFaults, hmod, le_blockAddr, blockAddr_lt hb ho]
  omega

/-! ### Selvedge's accesses -/

/-- A register write by Selvedge, which runs, to a block whose logic runs (R14). -/
theorem exec_registerWrite_selvedge {s : State} {b o : Nat} (data : U32) (hs : running s 1 = true)
    (hf : s.mbox.failed = false) (hd : running s (blockDomain b) = true) (h : SelvedgeMayUse b o) :
    exec (.registerWrite .selvedge (BitVec.ofNat 40 (blockAddr b o)) data) s = .next (blockWrite s b o data) := by
  change execRegisterWrite _ _ _ _ = _
  simp [execRegisterWrite, toNat_blockAddr h, selvedgeFaults_blockAddr h, regionOf_blockAddr h, live, hd, hs, hf]

/-- A latching read by Selvedge, which runs, of a block whose logic runs (R289). -/
theorem exec_latchingLoRead_selvedge {s : State} {addr : BitVec 40} {b o : Nat} (hs : running s 1 = true)
    (hf : s.mbox.failed = false) (hr : regionOf addr.toNat = .block b o) (ha : selvedgeFaults addr.toNat = false)
    (hd : running s (blockDomain b) = true) :
    exec (.latchingLoRead .selvedge addr) s = .next { blockLatch s b o with readData := blockValue s b o } := by
  change execLatchingLoRead _ _ _ = _
  simp [execLatchingLoRead, ha, hr, live, hd, hs, hf]

/-- A write of EPOCH_WARN by Selvedge, which runs, while the EPOCH block's logic runs. -/
theorem exec_epochWarnWrite {s : State} (data : U32) (hs : running s 1 = true) (hf : s.mbox.failed = false)
    (h2 : running s 2 = true) : exec (.epochWarnWrite data) s = .next (warnWrite s data) := by
  change execEpochWarnWrite _ _ = _
  simp [execEpochWarnWrite, bySelvedge, live, hs, hf, h2]

theorem warnWrite_of_ok {s : State} {data : U32} (h : warnOk s.epoch (data.toNat % 65536) = true) :
    warnWrite s data = { s with epoch := { s.epoch with warnNext := some (BitVec.ofNat 16 (data.toNat % 65536)) } } :=
  if_pos h

theorem warnWrite_of_bad {s : State} {data : U32} (h : warnOk s.epoch (data.toNat % 65536) = false) :
    warnWrite s data = { s with epoch := { s.epoch with warnNext := some 20, event := setBit s.epoch.event 22 } } :=
  if_neg (by simp [h])

/-! ### Registers that a direct write does not change -/

/-- A read-only register of each of eight blocks, as block and offset. -/
def readOnlyRegs : List (Nat × Nat) :=
  [(0, 0x008), (2, 0x08), (9, 0x04), (10, 0x00), (12, 0x04), (13, 0x00), (14, 0x00), (15, 0x00)]

/-- Registers of LANE and SAFE with RWP fields, as block and offset. -/
def rwpRegs : List (Nat × Nat) := [(0, 0x908), (10, 0x20), (10, 0x40), (10, 0x80), (10, 0xC0)]

theorem selvedgeMayUse_listed : ∀ r ∈ readOnlyRegs ++ rwpRegs, SelvedgeMayUse r.1 r.2 := by
  decide

/-- A write to a read-only register is ignored (Table 0.5). -/
theorem blockWrite_readOnly (s : State) (data : U32) : ∀ r ∈ readOnlyRegs, blockWrite s r.1 r.2 data = s := by
  simp only [readOnlyRegs, List.forall_mem_cons, List.not_mem_nil, false_imp_iff, implies_true, and_true]
  exact ⟨rfl, rfl, rfl, rfl, rfl, rfl, rfl, rfl⟩

/-- A write to an RWP register is ignored and recorded (R14, Table 18.5). -/
theorem blockWrite_rwp (s : State) (data : U32) :
    ∀ r ∈ rwpRegs, blockWrite s r.1 r.2 data = rwpWrite s r.1 (blockAddr r.1 r.2) data := by
  simp only [rwpRegs, List.forall_mem_cons, List.not_mem_nil, false_imp_iff, implies_true, and_true]
  exact ⟨rfl, rfl, rfl, rfl, rfl⟩

/-- Settles O41: a listed address names its register, and what the write leaves is the branch of that register in its block's
write function, whose equation holds by definition. -/
theorem registerAccessResult : Obligations.RegisterAccessResult := by
  intro s hs hf put
  refine ⟨fun data hd => ?_, fun data h2 => ⟨fun hw => ?_, fun hw => ?_⟩, fun addr b o hr ha hd =>
    exec_latchingLoRead_selvedge hs hf hr ha hd⟩
  · have puts : ∀ {b o : Nat}, SelvedgeMayUse b o → put b o data = .next (blockWrite s b o data) := fun h =>
      exec_registerWrite_selvedge data hs hf (hd _ (List.mem_range.mpr h.1)) h
    have listed : ∀ r ∈ readOnlyRegs ++ rwpRegs, put r.1 r.2 data = .next (blockWrite s r.1 r.2 data) := fun r hr =>
      puts (selvedgeMayUse_listed r hr)
    refine ⟨puts (by decide), puts (by decide), puts (by decide), puts (by decide), puts (by decide), puts (by decide),
      puts (by decide), puts (by decide), puts (by decide), puts (by decide), puts (by decide), puts (by decide),
      puts (by decide), fun r hr => ?_, fun r hr => ?_⟩
    · rw [listed r (List.mem_append_left _ hr), blockWrite_readOnly s data r hr]
    · rw [listed r (List.mem_append_right _ hr), blockWrite_rwp s data r hr]
      rfl
  · exact (exec_epochWarnWrite data hs hf h2).trans (congrArg _ (warnWrite_of_ok hw))
  · exact (exec_epochWarnWrite data hs hf h2).trans (congrArg _ (warnWrite_of_bad hw))

end Sys2Proof.Machine

/-! A field of a descriptor in memory (Table 9.7): what was written reads back whatever is written beside it, over every list
of entries, so that a completed descriptor holds each of its fields. -/

namespace Sys2Proof.Machine

open Sys2Proof

/-! ### A byte string in memory -/

/-- A memory whose entries spell a byte string at an address, before and behind entries of other addresses in any order. -/
def Spells (m : Mem) (a : Nat) (bs : List Byte) : Prop :=
  ∃ lo hi, m = lo ++ memCells a bs ++ hi ∧ (∀ c ∈ lo, c.1 < a) ∧ ∀ c ∈ hi, a + bs.length ≤ c.1

theorem spells_memWrite (m : Mem) (a : Nat) (bs : List Byte) : Spells (memWrite m a bs) a bs :=
  ⟨_, _, rfl, by simp, by simp⟩

theorem Spells.filter {m : Mem} {a : Nat} {bs : List Byte} {P : Nat × Byte → Bool} (h : Spells m a bs)
    (hP : ∀ c ∈ memCells a bs, P c = true) : Spells (m.filter P) a bs := by
  obtain ⟨lo, hi, rfl, hlo, hhi⟩ := h
  refine ⟨lo.filter P, hi.filter P, ?_, fun c hc => hlo c (List.mem_of_mem_filter hc),
    fun c hc => hhi c (List.mem_of_mem_filter hc)⟩
  rw [List.filter_append, List.filter_append, List.filter_eq_self.mpr hP]

theorem Spells.append_below {m lo' : Mem} {a : Nat} {bs : List Byte} (h : Spells m a bs) (hlo' : ∀ c ∈ lo', c.1 < a) :
    Spells (lo' ++ m) a bs := by
  obtain ⟨lo, hi, rfl, hlo, hhi⟩ := h
  exact ⟨lo' ++ lo, hi, by simp, List.forall_mem_append.mpr ⟨hlo', hlo⟩, hhi⟩

theorem Spells.append_above {m hi' : Mem} {a : Nat} {bs : List Byte} (h : Spells m a bs)
    (hhi' : ∀ c ∈ hi', a + bs.length ≤ c.1) : Spells (m ++ hi') a bs := by
  obtain ⟨lo, hi, rfl, hlo, hhi⟩ := h
  exact ⟨lo, hi ++ hi', by simp, hlo, List.forall_mem_append.mpr ⟨hhi, hhi'⟩⟩

/-- A write beside the string leaves it: what the write adds lies on one side, and what it keeps has the string. -/
theorem Spells.memWrite {m : Mem} {a b : Nat} {bs cs : List Byte} (h : Spells m a bs)
    (hb : b + cs.length ≤ a ∨ a + bs.length ≤ b) : Spells (memWrite m b cs) a bs := by
  have hcut : ∀ c ∈ memCells a bs, a ≤ c.1 ∧ c.1 < a + bs.length := fun c => mem_memCells
  have hnew : ∀ c ∈ memCells b cs, b ≤ c.1 ∧ c.1 < b + cs.length := fun c => mem_memCells
  have hlow : ∀ c ∈ m.filter (·.1 < b), c.1 < b := by simp
  have hhigh : ∀ c ∈ m.filter (fun c => decide (b + cs.length ≤ c.1)), b + cs.length ≤ c.1 := by simp
  unfold Machine.memWrite
  rcases hb with hb | hb
  · refine Spells.append_below (h.filter fun c hc => ?_) (List.forall_mem_append.mpr ⟨fun c hc => ?_, fun c hc => ?_⟩)
    · have := hcut c hc; simp only [decide_eq_true_eq]; omega
    · have := hlow c hc; omega
    · have := hnew c hc; omega
  · refine Spells.append_above (Spells.append_above (h.filter fun c hc => ?_) fun c hc => ?_) fun c hc => ?_
    · have := hcut c hc; simp only [decide_eq_true_eq]; omega
    · have := hnew c hc; omega
    · have := hhigh c hc; omega

theorem Spells.memBytes {m : Mem} {a : Nat} {bs : List Byte} (h : Spells m a bs) : memBytes m a bs.length = bs := by
  obtain ⟨lo, hi, rfl, hlo, hhi⟩ := h
  have hdrop : (memCells a bs ++ hi).dropWhile (fun c => decide (c.1 < a)) = memCells a bs ++ hi := by
    rw [List.dropWhile_eq_self_iff]
    intro hl
    have hmem := List.getElem_mem hl
    rcases List.mem_append.mp hmem with hc | hc
    · have := mem_memCells hc; simp only [decide_eq_true_eq]; omega
    · have := hhi _ hc; simp only [decide_eq_true_eq]; omega
  rw [Machine.memBytes, List.append_assoc, List.dropWhile_append_of_pos (by simpa using hlo), hdrop,
    memRun_memCells_append a bs hhi]

/-- A field that was written reads back, whatever was written beside it since. -/
theorem Spells.memLe {m : Mem} {a n v : Nat} (h : Spells m a (leBytes n v)) : memLe m a n = v % 256 ^ n := by
  have hb := h.memBytes
  rw [length_leBytes] at hb
  rw [Machine.memLe, hb, ofLe_leBytes]

theorem spells_memPutLe (m : Mem) (a n v : Nat) : Spells (memPutLe m a n v) a (leBytes n v) := spells_memWrite ..

theorem Spells.memPutLe {m : Mem} {a b n k v w : Nat} (h : Spells m a (leBytes n v)) (hb : b + k ≤ a ∨ a + n ≤ b) :
    Spells (memPutLe m b k w) a (leBytes n v) :=
  Spells.memWrite h (by simpa using hb)

theorem length_memRun (n a : Nat) (m : Mem) : (memRun n a m).length = n := by
  induction n generalizing a m with
  | zero => cases m <;> rfl
  | succ n ih =>
    cases m with
    | nil => simp [memRun, ih]
    | cons c m => by_cases hc : c.1 = a <;> simp [memRun, hc, ih]

theorem ofLe_lt (bs : List Byte) : ofLe bs < 256 ^ bs.length := by
  induction bs with
  | nil => simp [ofLe]
  | cons b bs ih =>
    have := b.isLt
    rw [ofLe, List.length_cons, Nat.pow_succ]
    omega

theorem memLe_lt (m : Mem) (a n : Nat) : memLe m a n < 256 ^ n := by
  have h := ofLe_lt (memBytes m a n)
  rwa [memBytes, length_memRun] at h

/-! ### A completed descriptor (R310) -/

/-- The FLAGS of a descriptor without OWN, and its STATUS (Table 9.7). -/
def descClosed (m : Mem) (a status : Nat) : Mem :=
  memPutLe (memPutLe m (a + 10) 2 (memLe m (a + 10) 2 / 2 * 2)) (a + 26) 2 status

theorem ringComplete_eq (s : State) (i : Fin 64) (status : Nat) (fill : Mem → Nat → Mem) :
    ringComplete s i status fill =
      let r := s.pkt.ring[i]
      putRing { s with mem := { s.mem with dram := descClosed (fill s.mem.dram (ringDesc r)) (ringDesc r) status } } i
        { r with head := ringNext r r.head } := rfl

/-- A descriptor that is stamped and then completed: its STATUS, its FLAGS with TS_VALID and without OWN, and the two parts of
its timestamp. -/
theorem descClosed_stampDesc (m : Mem) (a ns : Nat) :
    let d := descClosed (stampDesc ns m a) a 0
    memLe d (a + 26) 2 = 0 ∧ memLe d (a + 10) 2 = (memLe m (a + 10) 2 ||| 4) / 2 * 2 ∧
      memLe d (a + 16) 4 = ns % 1000000000 ∧ memLe d (a + 20) 6 = ns / 1000000000 % 2 ^ 48 := by
  intro d
  have hflags : memLe m (a + 10) 2 ||| 4 < 2 ^ 16 := Nat.or_lt_two_pow (memLe_lt m (a + 10) 2) (by decide)
  have hvalid : memLe (stampDesc ns m a) (a + 10) 2 = memLe m (a + 10) 2 ||| 4 := by
    have h := ((spells_memPutLe m (a + 10) 2 (memLe m (a + 10) 2 ||| 4)).memPutLe (b := a + 16) (k := 4)
      (w := ns % 1000000000) (by omega)).memPutLe (b := a + 20) (k := 6) (w := ns / 1000000000) (by omega)
    exact h.memLe.trans (Nat.mod_eq_of_lt hflags)
  have hlow : Spells d (a + 16) (leBytes 4 (ns % 1000000000)) :=
    (((spells_memPutLe ..).memPutLe (by omega)).memPutLe (by omega)).memPutLe (by omega)
  have hhigh : Spells d (a + 20) (leBytes 6 (ns / 1000000000)) :=
    ((spells_memPutLe ..).memPutLe (by omega)).memPutLe (by omega)
  have hown : Spells d (a + 10) (leBytes 2 ((memLe m (a + 10) 2 ||| 4) / 2 * 2)) := by
    rw [← hvalid]
    exact (spells_memPutLe ..).memPutLe (by omega)
  refine ⟨memLe_memPutLe .., ?_, ?_, hhigh.memLe⟩
  · rw [hown.memLe]; omega
  · rw [hlow.memLe]; omega

end Sys2Proof.Machine

/-! A frame that arrives on an Ethernet port (R294, R299, R304): counted, filtered, discarded as a duplicate, or taken by the
subscriptions while the gateway leaves them. -/

namespace Sys2Proof.Machine

open Sys2Proof

/-! ### Shared operations -/

/-- A command of a domain whose logic runs answers its own next state (R24, R495). -/
theorem live_of_running {s : State} {d : Nat} (t : State) (h : running s d = true) : live s d t = .next t :=
  congrArg _ (if_pos h)

@[simp] theorem passUntil_pkt (s : State) (k : Fin 4) (ns : Nat) : (passUntil s k ns).pkt = s.pkt := by
  unfold passUntil passTicks
  split <;> rfl

@[simp] theorem putPort_putPort (s : State) (p : Fin 4) (x y : EthPort) : putPort (putPort s p x) p y = putPort s p y := by
  simp [putPort]

theorem rxDrop_putPort (s : State) (p : Fin 4) (x : EthPort) :
    rxDrop (putPort s p x) p = putPort s p { x with rxDrop := satInc x.rxDrop } := by
  rw [rxDrop, putPort_same, putPort_putPort]

/-- A time base looked up by number in the list of their values in nanoseconds. -/
theorem tbNanos_getD (s : State) {k : Nat} (h : k < 4) :
    (s.time.tb.toList.map (fun b => tbNanos b.value))[k]?.getD 0 = tbNanos s.time.tb[k].value := by
  simp [h]

/-- A frame counted as received on its port. -/
def rxCounted (s : State) (p : Fin 4) : State := putPort s p { s.pkt.port[p] with rx := s.pkt.port[p].rx + 1 }

/-! ### Duplicate elimination (R299) -/

/-- The recovery function passes a frame, or counts it as discarded and leaves the history. -/
theorem recover_passed_or_discarded (x : Stream) (q : Nat) :
    (recover x q).2 = true ∨ recover x q = ({ x with discarded := satInc x.discarded }, false) := by
  unfold recover
  dsimp only
  repeat' split
  all_goals simp

theorem recover_of_not_passed {x : Stream} {q : Nat} (h : (recover x q).2 = false) :
    recover x q = ({ x with discarded := satInc x.discarded }, false) :=
  (recover_passed_or_discarded x q).resolve_left (by simp [h])

/-- A frame of stream `n`, which was `y`, has been discarded. -/
def cbDiscarded (s : State) (n : Nat) (y : Stream) : State :=
  let t := putStream s n { y with lastRx := tb3 s, discarded := satInc y.discarded }
  { t with pkt := { t.pkt with cbDiscard := satInc s.pkt.cbDiscard } }

theorem dedup_of_duplicate {s : State} {p : Fin 4} {v : EthView} {n q : Nat} {y : Stream} (hy : streamFor s p v = some (n, y))
    (hq : v.rtag = some q) (hr : (recover { y with lastRx := tb3 s } q).2 = false) :
    dedup s p v = (cbDiscarded s n y, false) := by
  simp [dedup, hy, hq, recover_of_not_passed hr, putStream, cbDiscarded]

theorem dedup_of_no_stream {s : State} {p : Fin 4} {v : EthView} (h : streamFor s p v = none ∨ v.rtag = none) :
    dedup s p v = (s, true) := by
  unfold dedup
  split
  · next hy hq => simp [hy, hq] at h
  · rfl

/-- Counting a frame on its port does not change the stream that it belongs to. -/
theorem streamFor_rxCounted (s : State) (p : Fin 4) (v : EthView) : streamFor (rxCounted s p) p v = streamFor s p v := by
  simp [streamFor, rxCounted, putPort, EthView.vid]

/-! ### What reaches a subscription (R304) -/

theorem type_of_ipView {v : EthView} {ip : IpView} (h : ipView v = some ip) : v.type = 0x0800 := by
  unfold ipView at h
  split at h
  · assumption
  · cases h

theorem proto_of_udpView {ip : IpView} {u : UdpView} (h : udpView ip = some u) : ip.proto = 17 ∧ ip.fragment = false := by
  unfold udpView at h
  split at h
  · next hc => simpa using hc
  · cases h

theorem dst_of_pdView {u : UdpView} {q : PdView} (h : pdView u = some q) : u.dst = 17224 := by
  unfold pdView at h
  dsimp only at h
  split at h
  · next hc =>
    simp only [Bool.and_eq_true, decide_eq_true_eq, and_assoc] at hc
    exact hc.1
  · cases h

section Telegram

variable {v : EthView} {ip : IpView} {u : UdpView} {q : PdView} (hip : ipView v = some ip) (hu : udpView ip = some u)
  (hq : pdView u = some q)

include hip hu hq

/-- A process data telegram is none of the protocols that Selvedge serves. -/
theorem takeSelvedge_of_pd (s : State) (p : Fin 4) (f : List Byte) : takeSelvedge s p f v = none := by
  simp [takeSelvedge, hip, hu, type_of_ipView hip, proto_of_udpView hu, dst_of_pdView hq, ttdpType]

/-- A telegram that matches a subscription is taken by the subscriptions alone. -/
theorem takeLocal_of_pd (s : State) (p : Fin 4) (f : List Byte) (hpull : q.pull = false)
    (hany : s.pkt.subs.any (subMatches s p ip q) = true) : takeLocal s p f v = takePd s p ip q := by
  have htaken : (takePd s p ip q).2 = true := hany
  simp [takeLocal, takeSelvedge_of_pd hip hu hq, hip, hu, hq, hpull, htaken]

end Telegram

/-! ### What the gateway leaves -/

/-- What the gateway never changes when it carries a frame: every block but PKT and ROUTE, and in PKT the subscriptions and the
ports' counts of received frames. -/
def uncarried (s : State) : State × List Subscription × Vector U32 4 :=
  ({ s with pkt := Pkt.reset, route := Route.reset }, s.pkt.subs, s.pkt.port.map (·.rx))

theorem uncarried_foldl {α : Type} {f : State → α → State} (h : ∀ s x, uncarried (f s x) = uncarried s) (l : List α)
    (s : State) : uncarried (l.foldl f s) = uncarried s := by
  induction l generalizing s with
  | nil => rfl
  | cons x r ih => rw [List.foldl_cons, ih, h]

theorem putPort_uncarried {s : State} {p : Fin 4} {x : EthPort} (h : x.rx = s.pkt.port[p].rx) :
    uncarried (putPort s p x) = uncarried s := by
  have hrx : (s.pkt.port.set p.val x).map (·.rx) = s.pkt.port.map (·.rx) := by
    ext i hi : 1
    by_cases hp : p.val = i
    · subst hp; simpa using h
    · simp [hp]
  exact congrArg (fun r => ({ s with pkt := Pkt.reset, route := Route.reset }, s.pkt.subs, r)) hrx

@[simp] theorem enqueue_uncarried (s : State) (p : Fin 4) (q : Nat) (f : EthFrame) :
    uncarried (enqueue s p q f) = uncarried s := by
  unfold enqueue
  dsimp only
  split
  · exact putPort_uncarried rfl
  · rfl

@[simp] theorem uncarried_route (s : State) (r : Route) : uncarried { s with route := r } = uncarried s := rfl

@[simp] theorem gapDrop_uncarried (s : State) : uncarried (gapDrop s) = uncarried s := rfl

@[simp] theorem sendSelvedge_uncarried (s : State) (c : Carried) : uncarried (sendSelvedge s c) = uncarried s := rfl

@[simp] theorem queueCans_uncarried (s : State) (mask ident : Nat) (data : List Byte) :
    uncarried (queueCans s mask ident data) = uncarried s := rfl

@[simp] theorem sendLocal_uncarried (s : State) (e : RouteEntry) (c : Carried) : uncarried (sendLocal s e c) = uncarried s := by
  unfold sendLocal
  split <;> simp

@[simp] theorem sendPorts_uncarried (s : State) (e : RouteEntry) (q : Nat) (f : EthPort → List Byte) :
    uncarried (sendPorts s e q f) = uncarried s := by
  simp [sendPorts, uncarried_foldl]

@[simp] theorem sendCans_uncarried (s : State) (e : RouteEntry) (ident : Nat) (data : List Byte) :
    uncarried (sendCans s e ident data) = uncarried s := by
  simp [sendCans]

@[simp] theorem gatewayMvb_uncarried (s : State) (e : RouteEntry) (data : List Byte) :
    uncarried (gatewayMvb s e data) = uncarried s := by
  rw [gatewayMvb, sendLocal_uncarried]
  split <;> rfl

@[simp] theorem gatewayPd_uncarried (s : State) (i : Nat) (e : RouteEntry) (data : List Byte) :
    uncarried (gatewayPd s i e data) = uncarried s := by
  simp [gatewayPd, uncarried_foldl]

@[simp] theorem transform_uncarried (s : State) (i : Nat) (e : RouteEntry) (c : Carried) :
    uncarried (transform s i e c) = uncarried s := by
  unfold transform
  split <;> simp

theorem gateway_uncarried (s : State) (port kind ident : Nat) (c : Carried) :
    uncarried (gateway s port kind ident c).1 = uncarried s := by
  unfold gateway
  dsimp only
  repeat' split
  all_goals simp

/-- Two states that differ only in what the gateway changes. -/
theorem uncarried_eq {s t : State} (h : uncarried t = uncarried s) : t.pkt.subs = s.pkt.subs ∧
    (∀ p : Fin 4, t.pkt.port[p].rx = s.pkt.port[p].rx) ∧ t = { s with pkt := t.pkt, route := t.route } := by
  obtain ⟨hrest, hsubs, hrx⟩ : _ ∧ _ ∧ _ := by simpa only [uncarried, Prod.mk.injEq] using h
  refine ⟨hsubs, fun p => ?_, congrArg (fun u : State => { u with pkt := t.pkt, route := t.route }) hrest⟩
  simpa using congrArg (fun r : Vector U32 4 => r[p]) hrx

/-- A telegram that matches a subscription: besides filling it, only the gateway acts on the frame. -/
theorem dispatchFrame_of_pd {s : State} {p : Fin 4} {f : List Byte} {ip : IpView} {u : UdpView} {q : PdView}
    (hip : ipView (ethView f) = some ip) (hu : udpView ip = some u) (hq : pdView u = some q) (hpull : q.pull = false)
    (hany : s.pkt.subs.any (subMatches s p ip q) = true) :
    uncarried (dispatchFrame s p f) = uncarried (takePd s p ip q).1 := by
  have hcarried : noCarrier f = false := by simp [noCarrier, hip, proto_of_udpView hu]
  have htaken : (takePd s p ip q).2 = true := hany
  simp only [dispatchFrame, hcarried, takeLocal_of_pd hip hu hq s p f hpull hany, htaken, Bool.true_or, if_true,
    Bool.false_eq_true, if_false]
  split
  · exact gateway_uncarried ..
  · rfl

/-! ### A frame arrives (R294, R299, R304) -/

/-- The length of a frame without its FCS is out of range, or its FCS is wrong. -/
def ethBad (bytes : List Byte) : Bool :=
  let f := bytes.take (bytes.length - 4)
  let max := if (ethView f).rtag.isSome then 1528 else 1522
  bytes.length < 64 || max < bytes.length || leAt bytes (bytes.length - 4) 4 != crc32 f

/-- An intact frame, without its FCS, on a port that is up. -/
def ethIntact (s : State) (p : Fin 4) (f : List Byte) : State :=
  if (ethView f).type = 0x8808 || !vidPasses s.pkt.port[p] (ethView f) then rxDrop (rxCounted s p) p
  else
    let r := dedup (rxCounted s p) p (ethView f)
    if r.2 then dispatchFrame r.1 p f else r.1

theorem exec_ethFrameRx {s : State} (hs : running s 8 = true) (p : Fin 4) (bytes : List Byte) :
    exec (.ethFrameRx p bytes) s = .next (
      if !portUp s.pkt.port[p] then s
      else if ethBad bytes then putPort s p { s.pkt.port[p] with rxErr := satInc s.pkt.port[p].rxErr }
      else ethIntact s p (bytes.take (bytes.length - 4))) :=
  live_of_running _ hs

theorem ethBad_iff (bytes : List Byte) : ethBad bytes = true ↔
    let f := bytes.take (bytes.length - 4)
    let max := if (ethView f).rtag.isSome then 1528 else 1522
    bytes.length < 64 ∨ max < bytes.length ∨ leAt bytes (bytes.length - 4) 4 ≠ crc32 f := by
  simp [ethBad, or_assoc]

theorem ethIntact_of_filtered {s : State} {p : Fin 4} {f : List Byte}
    (h : (ethView f).type = 0x8808 ∨ vidPasses s.pkt.port[p] (ethView f) = false) :
    ethIntact s p f = putPort s p { s.pkt.port[p] with rx := s.pkt.port[p].rx + 1, rxDrop := satInc s.pkt.port[p].rxDrop } := by
  rw [ethIntact, if_pos (by simpa using h), rxCounted, rxDrop_putPort]

section Passed

variable {s : State} {p : Fin 4} {f : List Byte} (htype : (ethView f).type ≠ 0x8808)
  (hvid : vidPasses s.pkt.port[p] (ethView f) = true)

include htype hvid

theorem ethIntact_of_duplicate {n q : Nat} {y : Stream} (hy : streamFor s p (ethView f) = some (n, y))
    (hq : (ethView f).rtag = some q) (hr : (recover { y with lastRx := tb3 s } q).2 = false) :
    ethIntact s p f = cbDiscarded (rxCounted s p) n y := by
  have hdrop := dedup_of_duplicate (s := rxCounted s p) ((streamFor_rxCounted s p _).trans hy) hq hr
  rw [ethIntact, if_neg (by simpa [htype] using hvid), hdrop]
  exact if_neg Bool.false_ne_true

theorem ethIntact_of_no_stream (h : streamFor s p (ethView f) = none ∨ (ethView f).rtag = none) :
    ethIntact s p f = dispatchFrame (rxCounted s p) p f := by
  have hpass := dedup_of_no_stream (s := rxCounted s p) (h.imp_left (streamFor_rxCounted s p _).trans)
  rw [ethIntact, if_neg (by simpa [htype] using hvid), hpass]
  exact if_pos rfl

end Passed

end Sys2Proof.Machine

/-! A frame that leaves its queue (R298, R310, R280): the queue whose turn it is, and the descriptor that it completes. -/

namespace Sys2Proof.Machine

open Sys2Proof

/-! ### The timestamp of an event frame (R280) -/

/-- A stamp without asymmetry lies within one tick after the value of the port's time base. -/
theorem ptpStamp_bounds (s : State) (p : Fin 4) (n : Nat) :
    let tb := tbNanos (if s.time.ptp[p].tb then s.time.tb[1] else s.time.tb[0]).value
    tb ≤ ptpStamp s p n 0 ∧ ptpStamp s p n 0 ≤ tb + 10 := by
  intro tb
  have htb : ∀ b : Bool, (s.time.tb.toList.map (fun b => tbNanos b.value))[b2n b]?.getD 0 =
      tbNanos (if b then s.time.tb[1] else s.time.tb[0]).value := by
    intro b
    cases b <;> simp [b2n]
  have hstamp : ptpStamp s p n 0 = (tb * 1000 + (Config.freeWord n).toNat % 104 * 97) / 1000 := by
    rw [ptpStamp, htb, Int.add_zero, Int.toNat_natCast]
  rw [hstamp]
  omega

/-! ### A frame leaves its queue (R298, R310) -/

theorem nextQueue_eq {x : EthPort} {q : Fin 8} (hq : x.queue[q] ≠ []) (hopen : gateOpen x q.val = true)
    (habove : ∀ k : Fin 8, q.val < k.val → x.queue[k] = [] ∨ gateOpen x k.val = false) : nextQueue x = some q.val := by
  have hsplit : ∀ q : Fin 8, [7, 6, 5, 4, 3, 2, 1, 0] =
      [7, 6, 5, 4, 3, 2, 1, 0].take (7 - q.val) ++ q.val :: [7, 6, 5, 4, 3, 2, 1, 0].drop (8 - q.val) := by decide
  have hfirst : ∀ q : Fin 8, ∀ k ∈ [7, 6, 5, 4, 3, 2, 1, 0].take (7 - q.val), q.val < k ∧ k < 8 := by decide
  rw [nextQueue, List.find?_eq_some_iff_append]
  refine ⟨?_, _, _, hsplit q, fun k hk => ?_⟩
  · simpa [hopen] using hq
  · obtain ⟨hlt, h8⟩ := hfirst q k hk
    have := habove ⟨k, h8⟩ hlt
    simp only [Fin.getElem_fin] at this
    rcases this with h | h <;> simp [h, h8]

/-- A frame has left its queue on a port: it is counted there and at its publication. -/
def ethSent (s : State) (p : Fin 4) (q : Fin 8) (f : EthFrame) (rest : List EthFrame) : State :=
  let x := s.pkt.port[p]
  { s with pkt := { s.pkt with
    port := s.pkt.port.set p { x with queue := x.queue.set q rest, tx := x.tx + 1 }
    pubs := match f.pub with
      | some (i, seq) => s.pkt.pubs.modify i (pubSent seq)
      | none => s.pkt.pubs } }

theorem exec_ethFrameTx {p : Fin 4} {q : Fin 8} {f : EthFrame} {rest : List EthFrame} {s : State}
    (hs : running s 8 = true) (hq : s.pkt.port[p].queue[q] = f :: rest) :
    exec (.ethFrameTx p q) s = .next (
      if portSends s s.pkt.port[p] && nextQueue s.pkt.port[p] == some q.val
          && fitsGate s s.pkt.port[p] q.val f.bytes.length then
        ringSent (ethSent s p q f rest) p f 0
      else s) := by
  change execEthFrameTx _ _ _ = _
  rw [execEthFrameTx, live_of_running _ hs]
  simp only [hq]
  cases hpub : f.pub <;> simp only [ethSent, hpub] <;> rfl

theorem ringSent_of_no_ring {f : EthFrame} (s : State) (p : Fin 4) (st : Nat) (h : f.ring = none) : ringSent s p f st = s := by
  simp only [ringSent, h]

/-- No frame of the descriptor at HEAD of a ring waits any more. -/
def ringFreed (s : State) (i : Fin 64) : State := putRing s i { s.pkt.ring[i] with posted := 0 }

section Posted

variable {s : State} {f : EthFrame} {i : Fin 64} {n : Nat} (hf : f.ring = some (i.val, n))
  (hn : s.pkt.ring[i].head.toNat = n)

include hf hn

/-- A frame of the descriptor at HEAD, of which others wait. -/
theorem ringSent_of_more (p : Fin 4) (st : Nat) (h : 1 < s.pkt.ring[i].posted) :
    ringSent s p f st = putRing s i { s.pkt.ring[i] with posted := s.pkt.ring[i].posted - 1 } := by
  have hpos : s.pkt.ring[i].posted ≠ 0 := by omega
  simp only [ringSent, hf, Nat.mod_eq_of_lt i.isLt, Fin.eta, hn, hpos, h, bne_self_eq_false, decide_false, Bool.or_false,
    Bool.false_eq_true, if_true, if_false]

/-- The last frame of the descriptor at HEAD completes it, with the timestamp that it takes, if any. -/
theorem ringSent_of_last {p : Fin 4} (h : s.pkt.ring[i].posted = 1) {st : State × Option Nat}
    (hst : takeStamp (ringFreed s i) p
      (bitOf (memLe s.mem.dram (ringDesc s.pkt.ring[i] + 10) 2) 1 && isTimed (ethView f.bytes)) 0 = st) :
    ringSent s p f 0 = ringComplete st.1 i 0 (fun m a => match st.2 with
      | some ns => stampDesc ns m a
      | none => m) := by
  subst hst
  simp only [ringSent, hf, Nat.mod_eq_of_lt i.isLt, Fin.eta, hn, h, bne_self_eq_false, Nat.one_ne_zero, Nat.lt_irrefl,
    decide_false, Bool.or_false, Bool.false_eq_true, if_false, beq_self_eq_true, Bool.and_true] <;> rfl

end Posted

theorem takeStamp_of_untimed (s : State) (p : Fin 4) (asym : Int) : takeStamp s p false asym = (s, none) := rfl

theorem takeStamp_of_timed {s : State} {p : Fin 4} (h : s.time.ptp[p].en = true) (asym : Int) :
    takeStamp s p true asym = ({ s with freeCtr := s.freeCtr + 1 }, some (ptpStamp s p s.freeCtr asym)) :=
  if_pos h

/-- The descriptor at HEAD of a ring has been completed in memory `m`. -/
def ringDone (s : State) (i : Fin 64) (m : Mem) : State :=
  let r := s.pkt.ring[i]
  { s with mem := { s.mem with dram := m }
           pkt := { s.pkt with ring := s.pkt.ring.set i { r with posted := 0, head := ringNext r r.head } } }

theorem ringComplete_ringFreed (s : State) (i : Fin 64) (fill : Mem → Nat → Mem) :
    let a := ringDesc s.pkt.ring[i]
    ringComplete (ringFreed s i) i 0 fill = ringDone s i (descClosed (fill s.mem.dram a) a 0) := by
  intro a
  rw [ringComplete_eq, ringFreed, putRing_same]
  simp only [putRing, ringDone, Vector.set_set]
  rfl

section Last

variable {s : State} {f : EthFrame} {i : Fin 64} {n : Nat} (hf : f.ring = some (i.val, n))
  (hn : s.pkt.ring[i].head.toNat = n) (h1 : s.pkt.ring[i].posted = 1)

include hf hn h1

theorem ringSent_of_last_unstamped (p : Fin 4)
    (hreq : bitOf (memLe s.mem.dram (ringDesc s.pkt.ring[i] + 10) 2) 1 = false ∨ isTimed (ethView f.bytes) = false) :
    ringSent s p f 0 = ringDone s i (descClosed s.mem.dram (ringDesc s.pkt.ring[i]) 0) := by
  have hno : (bitOf (memLe s.mem.dram (ringDesc s.pkt.ring[i] + 10) 2) 1 && isTimed (ethView f.bytes)) = false :=
    Bool.and_eq_false_iff.mpr hreq
  exact (ringSent_of_last hf hn h1 (hno ▸ takeStamp_of_untimed _ p 0)).trans (ringComplete_ringFreed s i fun m _ => m)

theorem ringSent_of_last_stamped {p : Fin 4} (hreq : bitOf (memLe s.mem.dram (ringDesc s.pkt.ring[i] + 10) 2) 1 = true)
    (ht : isTimed (ethView f.bytes) = true) (hen : s.time.ptp[p].en = true) :
    ringSent s p f 0 = ringDone { s with freeCtr := s.freeCtr + 1 } i
      (descClosed (stampDesc (ptpStamp s p s.freeCtr 0) s.mem.dram (ringDesc s.pkt.ring[i])) (ringDesc s.pkt.ring[i]) 0) := by
  have hyes : (bitOf (memLe s.mem.dram (ringDesc s.pkt.ring[i] + 10) 2) 1 && isTimed (ethView f.bytes)) = true := by
    rw [hreq, ht, Bool.and_self]
  exact (ringSent_of_last hf hn h1 (hyes ▸ takeStamp_of_timed (s := ringFreed s i) hen 0)).trans
    (ringComplete_ringFreed { s with freeCtr := s.freeCtr + 1 } i (stampDesc (ptpStamp s p s.freeCtr 0)))

end Last

end Sys2Proof.Machine

/-! The Ethernet ports as a whole: changes of links, gate intervals and silent streams beside the frames (R294, R298, R299). -/

namespace Sys2Proof.Machine

open Sys2Proof

/-! ### A link changes (R31, R294) -/

/-- A record tells nothing of the packet engine, and changes the recorder alone. -/
theorem recordBit_of_pkt (s : State) (k : Pkt) (block off bit value lane : Nat) (detail : List Byte) :
    recordBit { s with pkt := k } block off bit value lane detail =
      { s with pkt := k, mor := (recordBit s block off bit value lane detail).mor } := by
  unfold recordBit record
  dsimp only
  repeat' split
  all_goals rfl

/-- A port has a new link state, and its event is set when it is another. -/
def linkSet (s : State) (p : Fin 4) (link : BitVec 2) (fec : Bool) : State :=
  let x := s.pkt.port[p]
  { s with pkt := { s.pkt with
    port := s.pkt.port.set p { x with link := link, fecActive := fec && link == 3 && x.fec }
    event := if x.link = link then s.pkt.event else setBit s.pkt.event p.val } }

/-- The record of a port that loses its link. -/
def linkRecord (s : State) (p : Fin 4) (event : Nat) : State := recordBit s 6 0x200 p.val event 0xFF [BitVec.ofNat 8 p.val, 1]

/-- What a link change leaves in all. -/
def linkChanged (s : State) (p : Fin 4) (link : BitVec 2) (fec : Bool) : State :=
  let t := linkSet s p link fec
  { t with
    power := { s.power with
      restorePorts := if 2 ≤ link.toNat then clearBit s.power.restorePorts p.val else s.power.restorePorts }
    mor := if link.toNat < 2 ∧ 2 ≤ s.pkt.port[p].link.toNat then (linkRecord s p t.pkt.event.toNat).mor else s.mor }

theorem linkSet_eq (s : State) (p : Fin 4) (link : BitVec 2) (fec : Bool) : linkSet s p link fec =
    let x := s.pkt.port[p]
    let t := putPort s p { x with link := link, fecActive := fec && link == 3 && x.fec }
    if x.link = link then t else pktEvent t p.val := by
  unfold linkSet
  dsimp only
  split <;> rfl

theorem linkRecord_linkSet (s : State) (p : Fin 4) (link : BitVec 2) (fec : Bool) (event : Nat) :
    linkRecord (linkSet s p link fec) p event = { linkSet s p link fec with mor := (linkRecord s p event).mor } :=
  recordBit_of_pkt s _ ..

theorem linkChanged_eq (s : State) (p : Fin 4) (link : BitVec 2) (fec : Bool) : linkChanged s p link fec =
    let t := linkSet s p link fec
    let u := if !decide (2 ≤ link.toNat) && decide (2 ≤ s.pkt.port[p].link.toNat) then linkRecord t p t.pkt.event.toNat else t
    { u with power := { u.power with
        restorePorts := if decide (2 ≤ link.toNat) then clearBit u.power.restorePorts p.val else u.power.restorePorts } } := by
  simp only [linkChanged, decide_eq_true_eq]
  have hlost : (!decide (2 ≤ link.toNat) && decide (2 ≤ s.pkt.port[p].link.toNat)) = true ↔
      link.toNat < 2 ∧ 2 ≤ s.pkt.port[p].link.toNat := by
    rw [Bool.and_eq_true, Bool.not_eq_true', decide_eq_false_iff_not, decide_eq_true_eq, Nat.not_le]
  simp only [hlost]
  split
  · rw [linkRecord_linkSet]
    rfl
  · rfl

/-- A link change concerns a port that is enabled and powered, and does not give 10 Gbit/s to one that FORCE_1G holds at
1 Gbit/s. -/
theorem exec_ethLinkChange {s : State} (hs : running s 8 = true) (p : Fin 4) (link : BitVec 2) (fec : Bool) :
    let x := s.pkt.port[p]
    exec (.ethLinkChange p link fec) s = .next (
      if x.en = true ∧ x.shed = false ∧ link ≠ 0 ∧ (x.force1g = false ∨ link ≠ 3) then linkChanged s p link fec
      else s) := by
  intro x
  have hgranted : (x.en && !x.shed && link != 0 && !(x.force1g && link == 3)) = true ↔
      x.en = true ∧ x.shed = false ∧ link ≠ 0 ∧ (x.force1g = false ∨ link ≠ 3) := by
    simp only [Bool.and_eq_true, Bool.not_eq_true', bne_iff_ne, Bool.and_eq_false_iff, beq_eq_false_iff_ne, and_assoc]
  refine (live_of_running _ hs).trans (congrArg _ (if_congr hgranted ?_ rfl))
  rw [linkChanged_eq, linkSet_eq]
  rfl

/-! ### Gates (R298) -/

theorem gateSpan_end (es : List (BitVec 8 × Nat)) {i : Nat} (h : i < es.length) :
    (gateSpan es i).2 = ((es.take (i + 1)).map (·.2)).sum := by
  rw [List.take_succ_eq_append_getElem h, List.map_append, List.sum_append]
  simp [gateSpan, h]

/-- The port as the next entry of its gate list starts. -/
def gateNext (x : EthPort) : EthPort :=
  let i := if x.gateIx + 1 < x.list.entries.length then x.gateIx + 1 else 0
  { x with gateIx := i, gates := ((x.list.entries[i]?).map (·.1)).getD 0xFF }

/-- Nanoseconds until the gate entry in force ends. -/
def gateWait (s : State) (x : EthPort) : Nat :=
  ((x.list.entries.take (x.gateIx + 1)).map (·.2)).sum
    - tbNanos s.time.tb[x.tasTb.toNat].value % 1000000000 % x.list.cycleNs

/-- A port changes when `ns` nanoseconds of a time base have passed. -/
def gateGoes (s : State) (p : Fin 4) (tb : BitVec 2) (ns : Nat) (y : EthPort) : State :=
  let u := passUntil s ⟨tb.toNat, tb.isLt⟩ (tbNanos s.time.tb[tb.toNat].value + ns)
  { u with pkt := { u.pkt with port := s.pkt.port.set p y } }

theorem putPort_passUntil (s : State) (p : Fin 4) (tb : BitVec 2) (ns : Nat) (y : EthPort) :
    putPort (passUntil s ⟨tb.toNat, tb.isLt⟩ (tbNanos s.time.tb[tb.toNat].value + ns)) p y = gateGoes s p tb ns y := by
  simp only [putPort, gateGoes, passUntil_pkt]

section Interval

variable {s : State} {p : Fin 4} (hs : running s 8 = true) (hix : s.pkt.port[p].gateIx < s.pkt.port[p].list.entries.length)
  (hcyc : 0 < s.pkt.port[p].list.cycleNs)

include hs hix hcyc

theorem exec_gateInterval : exec (.gateInterval p) s = .next (
    let x := s.pkt.port[p]
    match x.pendingList with
    | some l =>
      if listWait s x l ≤ gateWait s x then gateGoes s p l.tb (listWait s x l) (takeList x)
      else gateGoes s p x.tasTb (gateWait s x) (gateNext x)
    | none => gateGoes s p x.tasTb (gateWait s x) (gateNext x)) := by
  have hes : s.pkt.port[p].list.entries.isEmpty = false := by
    rw [List.isEmpty_eq_false_iff, ← List.length_pos_iff]
    exact Nat.zero_lt_of_lt hix
  have hwait : (gateSpan s.pkt.port[p].list.entries s.pkt.port[p].gateIx).2
      - gateNow s s.pkt.port[p] % 1000000000 % max s.pkt.port[p].list.cycleNs 1 = gateWait s s.pkt.port[p] := by
    rw [gateSpan_end _ hix, gateNow, tbNanos_getD s (BitVec.isLt _), Nat.max_eq_left hcyc, gateWait]
  have hnext : (if s.pkt.port[p].list.entries.length ≤ s.pkt.port[p].gateIx + 1 then 0 else s.pkt.port[p].gateIx + 1) =
      if s.pkt.port[p].gateIx + 1 < s.pkt.port[p].list.entries.length then s.pkt.port[p].gateIx + 1 else 0 := by
    split_ifs <;> omega
  change execGateInterval _ _ = _
  rw [execGateInterval, live_of_running _ hs]
  simp only [hwait, hnext, hes, Bool.false_or, Bool.false_eq_true, if_false, decide_eq_true_eq,
    ← putPort_passUntil] <;> rfl

theorem exec_gateInterval_of_none (h : s.pkt.port[p].pendingList = none) : exec (.gateInterval p) s =
    .next (gateGoes s p s.pkt.port[p].tasTb (gateWait s s.pkt.port[p]) (gateNext s.pkt.port[p])) := by
  rw [exec_gateInterval hs hix hcyc]
  simp only [h]

theorem exec_gateInterval_of_pending {l : GateList} (h : s.pkt.port[p].pendingList = some l) :
    exec (.gateInterval p) s = .next (
    let x := s.pkt.port[p]
    if listWait s x l ≤ gateWait s x then gateGoes s p l.tb (listWait s x l) (takeList x)
    else gateGoes s p x.tasTb (gateWait s x) (gateNext x)) := by
  rw [exec_gateInterval hs hix hcyc]
  simp only [h]

end Interval

theorem takeList_of_pending {x : EthPort} {l : GateList} (h : x.pendingList = some l) : takeList x =
    { x with list := l, pendingList := none, tasTb := l.tb, gateIx := 0
             gates := ((l.entries.head?).map (·.1)).getD 0xFF } := by
  simp only [takeList, h]

/-- A pending list starts at the first multiple of its cycle that is not before 1 ms has passed; the multiple is one of its whole
second where the second holds the cycle. -/
theorem listWait_spec (s : State) (x : EthPort) {l : GateList} (hl : 0 < l.cycleNs) :
    let now := tbNanos s.time.tb[l.tb.toNat].value
    let first := now + (x.pendingAt + 1000000 - tb3 s)
    first ≤ now + listWait s x l ∧ now + listWait s x l < first + l.cycleNs ∧
      (first % 1000000000 + l.cycleNs ≤ 1000000000 → (now + listWait s x l) % 1000000000 % l.cycleNs = 0) := by
  intro now first
  let gap := (l.cycleNs - first % 1000000000 % l.cycleNs) % l.cycleNs
  have hgap : gap < l.cycleNs := Nat.mod_lt _ hl
  have hat : now + listWait s x l = first + gap := by
    have hw : listWait s x l = first + gap - now := by
      rw [listWait, tbNanos_getD s (BitVec.isLt _), Nat.max_eq_left hl]
    omega
  rw [hat]
  refine ⟨by omega, by omega, fun hsec => ?_⟩
  have hmod : (first + gap) % 1000000000 = first % 1000000000 + gap := by omega
  have hr : first % 1000000000 % l.cycleNs < l.cycleNs := Nat.mod_lt _ hl
  rw [hmod, Nat.add_mod, Nat.mod_mod, ← Nat.add_mod, Nat.add_mod, Nat.add_mod_mod, Nat.add_sub_cancel' hr.le, Nat.mod_self]

/-! ### A silent stream (R299) -/

theorem streamOf_putStream (s : State) (n k : Nat) (x : Stream) :
    streamOf (putStream s n x) k = if k = n then (streamOf s n).map (fun _ => x) else streamOf s k := by
  have hkey : (fun e : Nat × Stream => e.1 == k) ∘ (fun e => if e.1 == n then (n, x) else e) = fun e => e.1 == k := by
    funext e
    by_cases he : e.1 = n <;> simp [he]
  rw [streamOf, putStream, List.find?_map, hkey, streamOf, streamOf]
  split_ifs with hkn
  · subst hkn
    cases hk : s.pkt.streams.find? (fun e => e.1 == k) with
    | none => rfl
    | some e =>
      have he : e.1 = k := by simpa using List.find?_some hk
      simp [he]
  · cases hk : s.pkt.streams.find? (fun e => e.1 == k) with
    | none => rfl
    | some e =>
      have he : e.1 = k := by simpa using List.find?_some hk
      simp [he, hkn]

/-- A stream with an accepted number starts anew. -/
def cbReset (s : State) (n : Nat) (x : Stream) : State :=
  let u := putStream (passUntil s 3 (x.lastRx + x.timeoutMs * 1000000)) n
    { x with last := none, seen := [], resets := satInc x.resets }
  pktEvent { u with pkt := { u.pkt with cbReset := satInc u.pkt.cbReset } } 7

theorem streamOf_cbReset (s : State) (n k : Nat) (x : Stream) : streamOf (cbReset s n x) k =
    if k = n then (streamOf s n).map (fun _ => { x with last := none, seen := [], resets := satInc x.resets })
    else streamOf s k := by
  have hpass : ∀ j, streamOf (passUntil s 3 (x.lastRx + x.timeoutMs * 1000000)) j = streamOf s j := fun j => by
    rw [streamOf, passUntil_pkt, streamOf]
  rw [← hpass, ← hpass]
  exact streamOf_putStream _ n k _

theorem cbReset_counted (s : State) (n : Nat) (x : Stream) : (cbReset s n x).pkt.cbReset = satInc s.pkt.cbReset := by
  rw [← passUntil_pkt s 3 (x.lastRx + x.timeoutMs * 1000000)]
  rfl

theorem cbReset_frame (s : State) (n : Nat) (x : Stream) : cbReset s n x =
    let u := passUntil s 3 (x.lastRx + x.timeoutMs * 1000000)
    let t := cbReset s n x
    { u with pkt := { u.pkt with streams := t.pkt.streams, cbReset := t.pkt.cbReset, event := setBit s.pkt.event 7 } } := by
  rw [← passUntil_pkt s 3 (x.lastRx + x.timeoutMs * 1000000)]
  rfl

theorem exec_cbRecoveryTimeout {s : State} (hs : running s 8 = true) (n : U16) :
    exec (.cbRecoveryTimeout n) s = .next (match streamOf s n.toNat with
      | some x => if x.timeoutMs = 0 || x.last.isNone then s else cbReset s n.toNat x
      | none => s) :=
  live_of_running _ hs

/-- A recovery timeout of 0 is none (log entry 101), and a stream without an accepted number has no history. -/
theorem exec_cbRecoveryTimeout_of_stream {s : State} (hs : running s 8 = true) {n : U16} {x : Stream}
    (h : streamOf s n.toNat = some x) : exec (.cbRecoveryTimeout n) s = .next (
      if x.timeoutMs = 0 ∨ x.last = none then s else cbReset s n.toNat x) := by
  rw [exec_cbRecoveryTimeout hs]
  simp only [h, Bool.or_eq_true, decide_eq_true_eq, Option.isNone_iff_eq_none]

/-! ### The statement -/

/-- Settles O44, command by command: each clause is a branch of the command's equation, and the rest of it says what the
state in that branch holds. -/
theorem networkPortResult : Obligations.NetworkPortResult := by
  refine ⟨fun p bytes s hs => ?_, fun p link fec s hs => ?_, fun p s hs => ?_, fun p q f rest s hs => ?_, fun n s hs => ?_⟩
  · intro x f v max
    have hexec := exec_ethFrameRx hs p bytes
    refine ⟨fun hup => hexec.trans (congrArg _ (if_pos (by rw [hup]; rfl))), fun hup hbad => ?_, fun hup hmin hmax hfcs => ?_⟩
    · exact hexec.trans (congrArg _ ((if_neg (by rw [hup]; decide)).trans (if_pos ((ethBad_iff bytes).mpr hbad))))
    have hgood : ¬ ethBad bytes = true := by
      rw [ethBad_iff]
      exact fun h => h.elim hmin.not_gt fun h => h.elim hmax.not_gt fun h => h hfcs
    replace hexec : exec (.ethFrameRx p bytes) s = .next (ethIntact s p f) :=
      hexec.trans (congrArg _ ((if_neg (by rw [hup]; decide)).trans (if_neg hgood)))
    refine ⟨fun h => hexec.trans (congrArg _ (ethIntact_of_filtered h)), fun n y q hy hq htype hvid hr => ?_,
      fun ip u q hip hu hq hpull hvid hstream hany => ?_⟩
    · refine ⟨_, hexec.trans (congrArg _ (ethIntact_of_duplicate htype hvid hy hq hr)), rfl, rfl, rfl, ?_, rfl⟩
      exact List.map_congr_left fun e _ => by simp only [beq_iff_eq]; rfl
    · have htype : v.type ≠ 0x8808 := by rw [type_of_ipView hip]; decide
      obtain ⟨hsubs, hrx, hrest⟩ := uncarried_eq (dispatchFrame_of_pd (s := rxCounted s p) hip hu hq hpull hany)
      exact ⟨_, hexec.trans (congrArg _ (ethIntact_of_no_stream htype hvid hstream)), hsubs,
        (hrx p).trans (congrArg EthPort.rx (putPort_same s p _)), hrest⟩
  · intro x
    have hexec := exec_ethLinkChange hs p link fec
    refine ⟨fun hen hshed hlink hforce => ?_, fun h => hexec.trans (congrArg _ (if_neg ?_))⟩
    · exact ⟨_, hexec.trans (congrArg _ (if_pos ⟨hen, hshed, hlink, hforce⟩)), rfl, rfl, rfl,
        fun hdown hwas => if_pos ⟨hdown, hwas⟩, fun h => if_neg fun ⟨hdown, hwas⟩ => h.elim hdown.not_ge hwas.not_gt, rfl⟩
    · rintro ⟨hen, hshed, hlink, hforce⟩
      rcases h with h | h | h | ⟨h1, h3⟩
      · exact absurd (hen.symm.trans h) (by decide)
      · exact absurd (hshed.symm.trans h) (by decide)
      · exact hlink h
      · exact hforce.elim (fun h0 => absurd (h0.symm.trans h1) (by decide)) fun h => h h3
  · intro x es ends next nowOf wait goes hes hix hcyc
    refine ⟨fun hnone => ⟨_, exec_gateInterval_of_none hs hix hcyc hnone, rfl⟩, fun l hsome hl => ?_⟩
    refine ⟨_, listWait s x l, exec_gateInterval_of_pending hs hix hcyc hsome, listWait_spec s x hl,
      fun hlt => if_neg hlt.not_ge, fun hle => (if_pos hle).trans ?_⟩
    rw [takeList_of_pending hsome]
    rfl
  · intro x hq
    have hexec := exec_ethFrameTx hs hq
    refine ⟨fun h => hexec.trans (congrArg _ (if_neg (by rw [h]; exact Bool.false_ne_true))),
      fun hsends hopen hfits habove => ?_⟩
    have hnext : nextQueue x = some q.val := nextQueue_eq (by rw [hq]; exact List.cons_ne_nil f rest) hopen habove
    replace hexec : exec (.ethFrameTx p q) s = .next (ringSent (ethSent s p q f rest) p f 0) :=
      hexec.trans (congrArg _ (if_pos (by rw [hsends, hnext, hfits, beq_self_eq_true]; rfl)))
    intro sent
    let u := ethSent s p q f rest
    refine ⟨fun hf => ⟨_, hexec.trans (congrArg _ (ringSent_of_no_ring u p 0 hf)), ⟨rfl, rfl⟩, rfl⟩,
      fun i n hf hn => ?_⟩
    intro r a flags
    refine ⟨fun h => ⟨_, hexec.trans (congrArg _ (ringSent_of_more (s := u) hf hn p 0 h)), ⟨rfl, rfl⟩, rfl⟩,
      fun h hreq => ⟨_, hexec.trans (congrArg _ (ringSent_of_last_unstamped (s := u) hf hn h p hreq)), ⟨rfl, rfl⟩, rfl⟩,
      fun h hreq ht hen => ?_⟩
    obtain ⟨hstatus, hflags, hns, hsec⟩ := descClosed_stampDesc s.mem.dram a (ptpStamp s p s.freeCtr 0)
    exact ⟨_, _, hexec.trans (congrArg _ (ringSent_of_last_stamped (s := u) hf hn h hreq ht hen)), ⟨rfl, rfl⟩, hstatus,
      hflags, hns, hsec, ptpStamp_bounds s p s.freeCtr, rfl⟩
  · refine ⟨fun h => ?_, fun x hx h => (exec_cbRecoveryTimeout_of_stream hs hx).trans (congrArg _ (if_pos h)),
      fun x hx ht hl => ?_⟩
    · rw [exec_cbRecoveryTimeout hs, h]
    · refine ⟨_, (exec_cbRecoveryTimeout_of_stream hs hx).trans (congrArg _ (if_neg (not_or.mpr ⟨ht, hl⟩))), ?_,
        fun k hk => ?_, cbReset_counted s n.toNat x, cbReset_frame s n.toNat x⟩
      · rw [streamOf_cbReset, if_pos rfl, hx, Option.map_some]
      · rw [streamOf_cbReset, if_neg hk]

end Sys2Proof.Machine

/-! The Weft links as frames arrive (R77, R78, R80): what a link reads after an update, and the two ends of a received frame:
it is discarded and counted, or taken by the meaning of its type. -/

namespace Sys2Proof.Machine

open Sys2Proof

/-! ### One link of two -/

@[simp] theorem linkOf_putLink (s : State) (sd : Side) (k : Link) : linkOf (putLink s sd k) sd = k := by
  cases sd <;> rfl

theorem linkOf_putLink_ne (s : State) {sd o : Side} (k : Link) (h : o ≠ sd) : linkOf (putLink s sd k) o = linkOf s o :=
  match sd, o, h with
  | .a, .b, _ => rfl
  | .b, .a, _ => rfl
  | .a, .a, h => absurd rfl h
  | .b, .b, h => absurd rfl h

theorem putLink_rest (s : State) (sd : Side) (k : Link) : putLink s sd k =
    { s with weft := { s.weft with a := (putLink s sd k).weft.a, b := (putLink s sd k).weft.b } } := by
  cases sd <;> rfl

theorem linkOnly_putLink (s : State) (sd : Side) (k : Link) : LinkOnly s (putLink s sd k) sd :=
  ⟨fun _ h => linkOf_putLink_ne s k h, putLink_rest s sd k⟩

@[simp] theorem linkOf_sendSide (s : State) (sd : Side) (type : Nat) (payload : List Byte) :
    linkOf (sendSide s sd type payload) sd = linkQueue (linkOf s sd) type (lo32 s.epoch.no) payload :=
  linkOf_putLink s sd _

theorem linkOf_sendNak_state (s : State) (sd : Side) (seq : U32) :
    (linkOf (sendNak s sd seq) sd).state = (linkOf s sd).state := by
  unfold sendNak
  split <;> simp [linkQueue]

/-- Noting a SEQ does not change the state of the link. -/
theorem linkOf_noteSeq_state (s : State) (sd : Side) (seq ack : U32) :
    (linkOf (noteSeq s sd seq ack) sd).state = (linkOf s sd).state := by
  unfold noteSeq
  dsimp only
  split_ifs <;> simp [linkOf_sendNak_state]

/-! ### A received frame (R78) -/

/-- A discarded frame is counted on its link, and nothing else changes. -/
theorem frameDiscarded_spec (s : State) (sd : Side) :
    linkOf (frameDiscarded s sd) sd = { linkOf s sd with crcErr := satInc (linkOf s sd).crcErr } ∧
      LinkOnly s (frameDiscarded s sd) sd :=
  ⟨linkOf_putLink s sd _, linkOnly_putLink s sd _⟩

section Arrival

variable {s u : State} {sd : Side} {h : WeftHdr} {p : List Byte} (ha : Arrived s u sd h p) {need : Nat → Bool} {bound : Bool}
  {ok : Link → Bool} {f : State → State}

include ha

theorem Arrived.state_eq : (linkOf u sd).state = (linkOf s sd).state := by
  rw [ha.seen, linkOf_noteSeq_state]

theorem Arrived.linkOn (hs : (linkOf s sd).state = .up ∨ (linkOf s sd).state = .stranger) : linkOn (linkOf u sd) = true := by
  unfold Machine.linkOn
  rw [ha.state_eq]
  rcases hs with hs | hs <;> simp [hs]

theorem takeFrame_arrived : takeFrame s sd h p need bound ok f = .next (
    if need p.length = false ∨ bound = true ∧ h.epochLo ≠ lo32 u.epoch.no then frameDiscarded u sd
    else if ok (linkOf u sd) then f u else u) := by
  obtain ⟨hrun, hsends, hfits, rfl⟩ := ha
  have hbad : (!need p.length || decide (maxPayload < p.length) || (bound && h.epochLo != lo32 (noteSeq s sd h.seq h.ack).epoch.no))
      = true ↔ (need p.length = false ∨ bound = true ∧ h.epochLo ≠ lo32 (noteSeq s sd h.seq h.ack).epoch.no) := by
    simp [hfits.not_gt]
  refine (live_of_running _ hrun).trans (congrArg _ ?_)
  rw [hsends, Bool.not_true, if_neg Bool.false_ne_true]
  exact if_congr hbad rfl rfl

/-- A frame of another length, or one of an epoch-bound type from another epoch, is discarded. -/
theorem takeFrame_of_unfit (hbad : need p.length = false ∨ bound = true ∧ h.epochLo ≠ lo32 u.epoch.no) :
    takeFrame s sd h p need bound ok f = .next (frameDiscarded u sd) := by
  rw [takeFrame_arrived ha, if_pos hbad]

/-- A frame that fits is taken on a link that takes its type. -/
theorem takeFrame_of_fit (hneed : need p.length = true) (hbound : bound = true → h.epochLo = lo32 u.epoch.no)
    (hok : ok (linkOf u sd) = true) : takeFrame s sd h p need bound ok f = .next (f u) := by
  rw [takeFrame_arrived ha, if_neg, if_pos hok]
  rintro (hn | ⟨hb, he⟩)
  · exact absurd (hn.symm.trans hneed) (by decide)
  · exact he (hbound hb)

end Arrival

end Sys2Proof.Machine

/-! The frames of an epoch (R69, R78, R88, R101, R123, R125): RAW, RX_REPORT, DIGEST and CATCHUP. -/

namespace Sys2Proof.Machine

open Sys2Proof

/-! ### Fields of a payload -/

theorem leAt_lt (bs : List Byte) (off n : Nat) : leAt bs off n < 256 ^ n := by
  have h := ofLe_lt (slice bs off n)
  rwa [length_slice] at h

/-- A field of a payload fills the word of its width. -/
theorem toNat_ofNat_leAt (bs : List Byte) (off n : Nat) : (BitVec.ofNat (8 * n) (leAt bs off n)).toNat = leAt bs off n := by
  rw [BitVec.toNat_ofNat, Nat.mod_eq_of_lt]
  rw [Nat.pow_mul]
  exact leAt_lt bs off n

section Frames

variable {s u : State} {sd : Side} {h : WeftHdr} {p : List Byte} (ha : Arrived s u sd h p)

include ha

/-! ### RAW (R88) -/

theorem exec_weftRaw (hon : linkOn (linkOf u sd) = true) (he : h.epochLo = lo32 u.epoch.no) (hp : 4 < p.length) :
    exec (.weftRaw sd h p) s = .next (
      if u.epoch.exchanged || decide (0x400000 < leAt p 0 4 + (p.drop 4).length) then u
      else putImage (putLink u sd { linkOf u sd with
        rawParts := (linkOf u sd).rawParts ++ [(leAt p 0 4, (p.drop 4).length)] }) sd (leAt p 0 4) (p.drop 4)) := by
  change execWeftRaw sd h p s = _
  exact takeFrame_of_fit ha (decide_eq_true hp) (fun _ => he) hon

omit ha in
theorem putImage_putLink_spec (u : State) (sd : Side) (k : Link) (off : Nat) (bs : List Byte) :
    let t := putImage (putLink u sd k) sd off bs
    sideImage t sd = memWrite (sideImage u sd) off bs ∧ linkOf t sd = k ∧
      (∀ o, o ≠ sd → sideImage t o = sideImage u o ∧ linkOf t o = linkOf u o) ∧
      t = { u with weft := { u.weft with a := t.weft.a, b := t.weft.b }
                   mem := { u.mem with rawA := t.mem.rawA, rawB := t.mem.rawB } } := by
  cases sd
  · exact ⟨rfl, rfl, fun o ho => by cases o <;> [exact absurd rfl ho; exact ⟨rfl, rfl⟩], rfl⟩
  · exact ⟨rfl, rfl, fun o ho => by cases o <;> [exact ⟨rfl, rfl⟩; exact absurd rfl ho], rfl⟩

/-! ### RX_REPORT (R88) -/

theorem exec_weftRxReport (hon : linkOn (linkOf u sd) = true) (he : h.epochLo = lo32 u.epoch.no) (hp : p.length = 12) :
    exec (.weftRxReport sd h p) s = .next (
      if u.epoch.sourced || leAt p 0 8 != u.epoch.no.toNat then u
      else putLink u sd { linkOf u sd with rxReport := some (BitVec.ofNat 3 (leAt p 8 1)) }) := by
  change execWeftRxReport sd h p s = _
  exact takeFrame_of_fit ha (beq_iff_eq.mpr hp) (fun _ => he) hon

/-! ### DIGEST (R69, R101) -/

theorem exec_weftDigest (hon : linkOn (linkOf u sd) = true) (hp : p.length = 152) :
    exec (.weftDigest sd h p) s = .next (
      let t := if digestLate u (leAt p 0 8) then epochEvent u 17 else u
      if h.epochLo != lo32 u.epoch.no then frameDiscarded t sd
      else if digestLate u (leAt p 0 8) || leAt p 0 8 != u.epoch.no.toNat then t
      else if (linkOf u sd).state = .stranger then digestLogged t sd (digestOf p) 0
      else digestTaken t sd (digestOf p)) := by
  change execWeftDigest sd h p s = _
  exact takeFrame_of_fit ha (beq_iff_eq.mpr hp) (fun hb => absurd hb Bool.false_ne_true) hon

omit ha in
theorem digestLate_iff (s : State) (e : Nat) :
    digestLate s e = true ↔ (e = s.epoch.no.toNat ∧ s.epoch.phase = .release) ∨ e + 1 = s.epoch.no.toNat := by
  simp [digestLate]

/-- A digest of this epoch before its V_c is counted, or logged where it is a stranger's (R84, R101). -/
theorem exec_weftDigest_of_timely (hon : linkOn (linkOf u sd) = true) (hp : p.length = 152) (he : h.epochLo = lo32 u.epoch.no)
    (hno : leAt p 0 8 = u.epoch.no.toNat) (hphase : u.epoch.phase ≠ .release) : exec (.weftDigest sd h p) s = .next (
      if (linkOf u sd).state = .stranger then digestLogged u sd (digestOf p) 0 else digestTaken u sd (digestOf p)) := by
  have hlate : digestLate u (leAt p 0 8) = false := by
    rw [Bool.eq_false_iff, ne_eq, digestLate_iff, hno]
    rintro (⟨-, hr⟩ | hr)
    · exact hphase hr
    · omega
  rw [exec_weftDigest ha hon hp, hlate]
  simp [he, hno]

omit ha in
theorem digestTaken_eq (s : State) (sd : Side) (d : DigestFrame) : digestTaken s sd d =
    let t := putLink s sd { linkOf s sd with digest := some d, peerGen := d.imageGen }
    { t with weft := { t.weft with
      cuComplete := s.weft.cuComplete || (d.flags.getLsbD 6 && s.weft.cuReceiver && s.weft.cuPeer.toNat == sideSlot s sd) } } := by
  have hc : ∀ k, (putLink s sd k).weft.cuComplete = s.weft.cuComplete := fun k => by cases sd <;> rfl
  unfold digestTaken
  dsimp only
  split
  · next h => rw [h, Bool.or_true]
  · next h => rw [Bool.eq_false_iff.mpr h, Bool.or_false, ← hc]

omit ha in
theorem digestOf_fields (p : List Byte) : (digestOf p).epochNo.toNat = leAt p 0 8 ∧ (digestOf p).imageGen.toNat = leAt p 8 4 ∧
    (digestOf p).offered.toNat = leAt p 12 2 ∧ (digestOf p).flags.toNat = leAt p 14 1 ∧ (digestOf p).slice.toNat = leAt p 15 1 ∧
    (∀ g : Fin 16, (digestOf p).digest[g].toNat = leAt p (16 + 8 * g.val) 8) ∧ (digestOf p).audit.toNat = leAt p 144 8 := by
  refine ⟨toNat_ofNat_leAt p 0 8, toNat_ofNat_leAt p 8 4, toNat_ofNat_leAt p 12 2, toNat_ofNat_leAt p 14 1,
    toNat_ofNat_leAt p 15 1, fun g => ?_, toNat_ofNat_leAt p 144 8⟩
  simp only [digestOf, Fin.getElem_fin, Vector.getElem_ofFn]
  exact toNat_ofNat_leAt p _ 8

omit ha in
theorem digestOf_complete (p : List Byte) : (digestOf p).flags.getLsbD 6 = bitOf (leAt p 14 1) 6 := by
  rw [← BitVec.testBit_toNat, (digestOf_fields p).2.2.2.1]
  rfl

omit ha in
theorem digestTaken_spec (u : State) (sd : Side) (d : DigestFrame) :
    let t := digestTaken u sd d
    linkOf t sd = { linkOf u sd with digest := some d, peerGen := d.imageGen } ∧ (∀ o, o ≠ sd → linkOf t o = linkOf u o) ∧
      t.weft.cuComplete = (u.weft.cuComplete || (d.flags.getLsbD 6 && u.weft.cuReceiver
        && u.weft.cuPeer.toNat == sideSlot u sd)) ∧
      t = { u with weft := { u.weft with a := t.weft.a, b := t.weft.b, cuComplete := t.weft.cuComplete } } := by
  intro t
  have ht : t = _ := digestTaken_eq u sd d
  rw [ht]
  refine ⟨?_, fun o ho => ?_, rfl, ?_⟩
  · cases sd <;> rfl
  · exact linkOf_putLink_ne u (sd := sd) _ ho
  · cases sd <;> rfl

/-! ### CATCHUP (R123, R125) -/

theorem exec_weftCatchup (hup : (linkOf u sd).state = .up) (he : h.epochLo = lo32 u.epoch.no) (hp : p.length = 1032)
    (hrec : u.weft.cuReceiver = true) (hpeer : u.weft.cuPeer.toNat = sideSlot u sd) (hopen : u.epoch.exchanged = false)
    (hblock : leAt p 0 2 < 256) (hchunk : leAt p 2 1 < 4) : exec (.weftCatchup sd h p) s = .next (
      let at' := leAt p 0 2 * 4096 + leAt p 2 1 * 1024
      if stageBlock u (leAt p 0 2) then { u with weft := { u.weft with cuStaged := u.weft.cuStaged ++ [(at', p.drop 8)] } }
      else { u with mem := { u.mem with retained := memWrite u.mem.retained at' (p.drop 8) } }) := by
  change execWeftCatchup sd h p s = _
  refine Eq.trans (takeFrame_of_fit ha (beq_iff_eq.mpr hp) (fun _ => he) (decide_eq_true hup)) (congrArg _ (if_neg ?_))
  simp [hrec, hpeer, hopen, hblock, hchunk]

omit ha in
theorem stageBlock_iff (s : State) (b : Nat) : stageBlock s b = true ↔
    s.weft.cuAgain = true ∨ ∃ l, (laneOf s l).resend = true ∧ b ∈ laneBlocks (laneOf s l) := by
  simp only [stageBlock, Bool.or_eq_true, List.any_eq_true, Bool.and_eq_true, List.contains_iff_mem, Vector.mem_toList_iff,
    Vector.mem_iff_getElem]
  refine or_congr_right ⟨?_, ?_⟩
  · rintro ⟨_, ⟨i, hi, rfl⟩, hr, hb⟩
    exact ⟨⟨i, hi⟩, hr, hb⟩
  · rintro ⟨l, hr, hb⟩
    exact ⟨_, ⟨l.val, l.isLt, rfl⟩, hr, hb⟩

end Frames

/-- Settles O35, type by type: where a frame fits it is taken by the equation of its type, and otherwise it is discarded. -/
theorem weftEpochFrames : Obligations.WeftEpochFrames := by
  intro s u sd h p ha k discarded late
  have hdisc : ∀ b : State, linkOf b sd = k → discarded b (frameDiscarded b sd) := fun b hb => by
    have hspec := frameDiscarded_spec b sd
    rwa [hb] at hspec
  have hunfit : ∀ {need : Nat → Bool} {bound : Bool} {ok : Link → Bool} {f : State → State} {o : Host.Outcome State Fault Refusal},
      o = takeFrame s sd h p need bound ok f → (need p.length = false ∨ bound = true ∧ h.epochLo ≠ lo32 u.epoch.no) →
      ∃ t, o = .next t ∧ discarded u t := fun ho hbad =>
    ⟨_, ho.trans (takeFrame_of_unfit ha hbad), hdisc u rfl⟩
  refine ⟨fun hs he => ?_, fun hs hp => ?_, fun hs hp he hno hphase => ?_, fun he c hc => ?_, fun hp => ?_, fun hp => ?_,
    fun hp => ?_, fun hp => ?_⟩
  · have hup : (linkOf u sd).state = .up := ha.state_eq.trans hs
    have hon := ha.linkOn (.inl hs)
    refine ⟨fun hp hx hfit => ?_, fun hp hx => ?_, fun hp hno => ⟨fun hx => ?_, fun hx => ?_⟩, fun hp hno hphase => ?_,
      fun hp hrec hpeer hx hblock hchunk => ?_⟩
    · rw [← List.length_drop]
      exact ⟨_, (exec_weftRaw ha hon he hp).trans (congrArg _ (if_neg (by simp [hx]; omega))), putImage_putLink_spec ..⟩
    · exact (exec_weftRaw ha hon he hp).trans (congrArg _ (if_pos (by simp [hx])))
    · exact ⟨_, (exec_weftRxReport ha hon he hp).trans (congrArg _ (if_neg (by simp [hx, hno]))), linkOf_putLink u sd _,
        linkOnly_putLink u sd _⟩
    · exact (exec_weftRxReport ha hon he hp).trans (congrArg _ (if_pos (by simp [hx])))
    · have hexec := exec_weftDigest_of_timely ha hon hp he hno hphase
      rw [if_neg (by rw [hup]; decide)] at hexec
      obtain ⟨hno', hgen, hoff, hflags, hslice, hdig, haud⟩ := digestOf_fields p
      obtain ⟨hlink, hother, hcu, hrest⟩ := digestTaken_spec u sd (digestOf p)
      rw [digestOf_complete] at hcu
      exact ⟨_, digestOf p, hexec, hlink, hno', hgen, hoff, hflags, hslice, hdig, haud, hother, hcu, hrest⟩
    · intro at' again
      have hexec := exec_weftCatchup ha hup he hp hrec hpeer hx hblock hchunk
      have hlen : (p.drop 8).length = 1024 := by rw [List.length_drop, hp]
      refine ⟨fun hn => ⟨_, hexec.trans (congrArg _ (if_neg (fun hst => hn ((stageBlock_iff u _).mp hst)))), ?_, ?_, rfl⟩,
        fun hst => hexec.trans (congrArg _ (if_pos ((stageBlock_iff u _).mpr hst)))⟩
      · have hread := memBytes_memWrite u.mem.retained at' (p.drop 8)
        rwa [hlen] at hread
      · exact fun a hout => memGet_memWrite_outside _ _ (by rwa [hlen])
  · have hexec := exec_weftDigest ha (ha.linkOn hs) hp
    refine ⟨fun he hno hphase => ?_, fun he hlast => ?_, fun he hlast hno => ?_⟩
    · rw [hexec, (digestLate_iff u _).mpr (.inl ⟨hno, hphase⟩)]
      simp [he, late]
    · rw [hexec, (digestLate_iff u _).mpr (.inr hlast)]
      exact ⟨_, congrArg _ (if_pos (by simpa using he)), hdisc late rfl⟩
    · have hlate : digestLate u (leAt p 0 8) = false := by
        rw [Bool.eq_false_iff, ne_eq, digestLate_iff]
        exact fun h => h.elim (fun h => hno h.1) hlast
      rw [hexec, hlate]
      exact ⟨_, congrArg _ (if_pos (by simpa using he)), hdisc u rfl⟩
  · have hexec := exec_weftDigest_of_timely ha (ha.linkOn (.inr hs)) hp he hno hphase
    rw [if_pos (ha.state_eq.trans hs)] at hexec
    exact ⟨_, hexec, linkOf_putLink u sd _, linkOnly_putLink u sd _⟩
  · simp only [List.mem_cons, List.not_mem_nil, or_false] at hc
    rcases hc with rfl | rfl | rfl
    · exact hunfit (Eq.refl (execWeftRaw sd h p s)) (.inr ⟨rfl, he⟩)
    · exact hunfit (Eq.refl (execWeftRxReport sd h p s)) (.inr ⟨rfl, he⟩)
    · exact hunfit (Eq.refl (execWeftCatchup sd h p s)) (.inr ⟨rfl, he⟩)
  · exact hunfit (Eq.refl (execWeftRaw sd h p s)) (.inl (decide_eq_false hp.not_gt))
  · exact hunfit (Eq.refl (execWeftRxReport sd h p s)) (.inl (beq_eq_false_iff_ne.mpr hp))
  · exact hunfit (Eq.refl (execWeftDigest sd h p s)) (.inl (beq_eq_false_iff_ne.mpr hp))
  · exact hunfit (Eq.refl (execWeftCatchup sd h p s)) (.inl (beq_eq_false_iff_ne.mpr hp))

end Sys2Proof.Machine

/-! What the rack bridge does for the rest of the module (R329 to R331, R342): only the bridge and the queued items of the raw
images change. -/

namespace Sys2Proof.Machine

open Sys2Proof

/-- Nothing changes from `s` to `t` but the rack bridge and the items of the raw images, with what tells of a late one. -/
def RackOnly (s t : State) : Prop :=
  t = { s with rack := t.rack, epoch := { s.epoch with items := t.epoch.items, closing := t.epoch.closing
                                                       lateItems := t.epoch.lateItems, event := t.epoch.event } }

namespace RackOnly

theorem refl (s : State) : RackOnly s s := rfl

theorem trans {s t u : State} (h : RackOnly s t) (g : RackOnly t u) : RackOnly s u := by
  unfold RackOnly at *
  rw [g, h]

theorem put (s : State) (b : Rack) : RackOnly s { s with rack := b } := rfl

theorem ite {s t u : State} {c : Prop} [Decidable c] (h : RackOnly s t) (g : RackOnly s u) : RackOnly s (if c then t else u) := by
  split
  · exact h
  · exact g

end RackOnly

theorem rackOnly_queueItem (s : State) (stamp source sub : Nat) (body : List Byte) (mark : List Byte → List Byte) :
    RackOnly s (queueItem s stamp source sub body mark) := by
  unfold queueItem
  exact .ite (.ite rfl rfl) rfl

theorem rackOnly_rackItem (s : State) (kind sub : Nat) (body : List Byte) : RackOnly s (rackItem s kind sub body) := by
  unfold rackItem rackItemAt
  exact .ite rfl (.trans (.put s _) (rackOnly_queueItem ..))

theorem rackOnly_rackLog (s : State) (e : RackLog) : RackOnly s (rackLog s e) :=
  .trans (.put s _) (rackOnly_rackItem ..)

theorem rackOnly_rackPump (s : State) : RackOnly s (rackPump s) := by
  unfold rackPump
  dsimp only
  split
  · split <;> rfl
  · rfl

theorem rackOnly_rackFree (s : State) : RackOnly s (rackFree s) :=
  .trans (.put s _) (rackOnly_rackPump _)

theorem rackOnly_rackBreak (s : State) : RackOnly s (rackBreak s) := by
  unfold rackBreak
  exact .ite rfl (.trans (rackOnly_rackLog ..) (rackOnly_rackFree _))

theorem rackOnly_rackBreakLane (s : State) (l : LaneId) : RackOnly s (rackBreakLane s l) :=
  .ite (rackOnly_rackBreak s) rfl

/-- A lane that stops loses its lock and its reads (R331). -/
theorem rackOnly_rackForget_rackBreakLane (s : State) (l : LaneId) : RackOnly s (rackForget (rackBreakLane s l) l) :=
  .trans (rackOnly_rackBreakLane s l) (.put _ _)

/-! ### Records -/

theorem record_rest (s : State) (source : Nat) (code : U16) (lane : Nat) (data : List Byte) :
    record s source code lane data = { s with mor := (record s source code lane data).mor } := by
  unfold record
  dsimp only
  split
  · rfl
  · split <;> rfl

theorem recordBit_rest (s : State) (block off bit value lane : Nat) (detail : List Byte) :
    recordBit s block off bit value lane detail = { s with mor := (recordBit s block off bit value lane detail).mor } :=
  record_rest ..

end Sys2Proof.Machine

/-! A lane fault (R148, R149, R151): the lane that it leaves, and what else it changes. -/

namespace Sys2Proof.Machine

open Sys2Proof

theorem laneOf_of_lanes {s t : State} (h : t.lanes.lane = s.lanes.lane) (l : LaneId) : laneOf t l = laneOf s l := by
  unfold laneOf
  rw [h]

@[simp] theorem putLane_laneOf (s : State) (l : LaneId) : putLane s l (laneOf s l) = s := by
  simp [putLane, laneOf]

/-! ### A lane that stops (R65, R148) -/

/-- The lane `ln` as `stopLane` leaves it. -/
def stoppedLane (s : State) (ln : Lane) : Lane :=
  { (if ln.epochState = .committed && afterDeadline s then { ln with gate := [], drift := [], drain := none, faultPending := true }
      else if afterDeadline s then haltLane ln else dropCommits (haltLane ln)) with
    epochState := faultState s ln, caughtUp := false }

theorem stopLane_rest (s : State) (l : LaneId) :
    let t := stopLane s l
    t.lanes = (putLane s l (stoppedLane s (laneOf s l))).lanes ∧
      t = { s with lanes := t.lanes, weft := t.weft, rack := t.rack, epoch := t.epoch } := by
  intro t
  let x := putLane s l (stoppedLane s (laneOf s l))
  let y := if afterDeadline s then x else abstainLane x l
  have hy : y.lanes = x.lanes ∧ y = { s with lanes := y.lanes, weft := y.weft } := by
    unfold y
    split <;> exact ⟨rfl, rfl⟩
  have ht : RackOnly y t := rackOnly_rackForget_rackBreakLane y l
  obtain ⟨hlanes, hrest⟩ := hy
  unfold RackOnly at ht
  refine ⟨?_, ?_⟩
  · rw [ht, ← hlanes]
  · rw [ht, hrest]

theorem stoppedLane_fields (s : State) (ln : Lane) :
    (stoppedLane s ln).gate = [] ∧ (stoppedLane s ln).drift = [] ∧ (stoppedLane s ln).epochState = faultState s ln ∧
      (afterDeadline s = false → (stoppedLane s ln).l.suspended = true ∧ (stoppedLane s ln).t.suspended = true) := by
  unfold stoppedLane
  cases h : afterDeadline s
  · simp [dropCommits, haltLane]
  · by_cases hc : ln.epochState = .committed <;> simp [hc, haltLane]

/-- Stopping a lane leaves its Firn block and its fault counts. -/
theorem stoppedLane_firn (s : State) (ln : Lane) :
    ∃ l t d g fp, stoppedLane s ln = { ln with gate := [], drift := [], l := l, t := t, drain := d, faultPending := fp
                                               epochState := g, caughtUp := false } := by
  unfold stoppedLane
  split
  · exact ⟨_, _, _, _, _, rfl⟩
  · split <;> exact ⟨_, _, _, _, _, rfl⟩

/-! ### A lane fault with one cause -/

/-- The lane as the fault has been noted in it (R149, R151). -/
def notedLane (s : State) (ln : Lane) (cause : Nat) : Lane :=
  { firnNote ln [cause] none with
    faultTimes := tb3 s :: liveFaults s ln.faultTimes
    testsDue := ln.testsDue || (([cause] : List Nat).any checkerCause && ln.epochState != .stopped) }

/-- The lane as `laneFault` leaves it: stopped, and DISABLED with the fourth fault within 3600 s. -/
def faultedLane (s : State) (ln : Lane) (cause : Nat) : Lane :=
  let n := stoppedLane s (notedLane s ln cause)
  if 3 ≤ (liveFaults s ln.faultTimes).length then
    { n with disabled := true, reloading := false, epochState := if n.epochState = .faulted then .stopped else n.epochState }
  else n

/-- What a lane fault records (R149). -/
def faultReport (s : State) (l : LaneId) (cause : Nat) : State :=
  let t := laneEvent s (8 + l.val)
  recordBit t 0 0x90C (8 + l.val) t.lanes.event.toNat l.val (leBytes 2 (causeMask [cause]).toNat)

theorem laneFault_eq {s : State} {l : LaneId} (cause : Nat) (hshed : (laneOf s l).epochState ≠ .shed)
    (hfault : (laneOf s l).epochState ≠ .faulted) : laneFault s l cause none =
    let t := faultReport (stopLane (putLane s l (notedLane s (laneOf s l) cause)) l) l cause
    if 3 ≤ (liveFaults s (laneOf s l).faultTimes).length then disableLane t l else t := by
  have hcount : (tb3 s :: liveFaults s (laneOf s l).faultTimes).length ≥ 4 ↔ 3 ≤ (liveFaults s (laneOf s l).faultTimes).length := by
    rw [List.length_cons, ge_iff_le, Nat.succ_le_succ_iff]
  unfold laneFault laneFaults
  dsimp only
  rw [if_neg (by simp)]
  split
  · next h => exact absurd h hshed
  · next h => exact absurd h hfault
  · exact if_congr hcount rfl rfl

theorem faultReport_rest (s : State) (l : LaneId) (cause : Nat) :
    let t := faultReport s l cause
    t = { s with lanes := { s.lanes with event := setBit s.lanes.event (8 + l.val) }, mor := t.mor } :=
  recordBit_rest ..

theorem laneFault_rest {s : State} {l : LaneId} (cause : Nat) (hshed : (laneOf s l).epochState ≠ .shed)
    (hfault : (laneOf s l).epochState ≠ .faulted) :
    let t := laneFault s l cause none
    t.lanes = { (putLane s l (faultedLane s (laneOf s l) cause)).lanes with event := setBit s.lanes.event (8 + l.val) } ∧
      t = { s with lanes := t.lanes, weft := t.weft, rack := t.rack, epoch := t.epoch, mor := t.mor } := by
  intro t
  let n := putLane s l (notedLane s (laneOf s l) cause)
  obtain ⟨hlanes, hrest⟩ := stopLane_rest n l
  have hrep := faultReport_rest (stopLane n l) l cause
  have hlane : laneOf (faultReport (stopLane n l) l cause) l = stoppedLane s (notedLane s (laneOf s l) cause) := by
    rw [laneOf_of_lanes (s := putLane n l (stoppedLane n (laneOf n l))) (by rw [hrep, hlanes]), laneOf_putLane, laneOf_putLane]
    rfl
  have hlanes' : (stopLane n l).lanes = (putLane s l (stoppedLane s (notedLane s (laneOf s l) cause))).lanes := by
    rw [hlanes, laneOf_putLane, putLane_putLane]
    rfl
  have ht : t = _ := laneFault_eq cause hshed hfault
  dsimp only at ht
  unfold faultedLane
  split at ht
  · next h =>
    rw [if_pos h, ht, disableLane, hlane]
    refine ⟨?_, ?_⟩
    · rw [putLane, hrep]
      dsimp only
      rw [hlanes']
      simp [putLane]
    · rw [putLane, hrep, hrest]
      rfl
  · next h =>
    rw [if_neg h, ht]
    refine ⟨?_, ?_⟩
    · rw [hrep]
      dsimp only
      rw [hlanes']
      rfl
    · rw [hrep, hrest]
      rfl

/-- What a lane fault notes of the lane (R149): the counts of its class, and FIRN_STATUS from the first fault on. -/
theorem firnNote_fields (ln : Lane) (cause : Nat) :
    let n := firnNote ln [cause] none
    n.faultsCore = (if checkerCause cause then ln.faultsCore else satInc ln.faultsCore) ∧
      n.faultsChecker = (if checkerCause cause then satInc ln.faultsChecker else ln.faultsChecker) ∧
      n.disabled = ln.disabled ∧ n.epochState = ln.epochState ∧
      (ln.firnFrozen = false → n.firnFrozen = true ∧ n.firnCause = BitVec.ofNat 4 cause ∧ n.firnMask = causeBit cause ∧
        n.firnChecker = checkerCause cause) := by
  intro n
  have hany : ([cause] : List Nat).any checkerCause = checkerCause cause := by simp
  have hmask : causeMask [cause] = causeBit cause := by simp [causeMask]
  unfold n firnNote
  dsimp only
  rw [hany, hmask]
  cases hf : ln.firnFrozen <;> simp

theorem faultedLane_fields (s : State) (ln : Lane) (cause : Nat) :
    let n := faultedLane s ln cause
    let many := 3 ≤ (liveFaults s ln.faultTimes).length
    n.gate = [] ∧ n.drift = [] ∧ (afterDeadline s = false → n.l.suspended = true ∧ n.t.suspended = true) ∧
      n.epochState = (if many ∧ faultState s ln = .faulted then .stopped else faultState s ln) ∧
      n.disabled = (ln.disabled || decide many) ∧ n.faultTimes = tb3 s :: liveFaults s ln.faultTimes := by
  intro n many
  obtain ⟨-, -, hdis, hep, -⟩ := firnNote_fields ln cause
  have hst : faultState s (notedLane s ln cause) = faultState s ln := by
    unfold faultState
    rw [show (notedLane s ln cause).epochState = ln.epochState from hep]
  obtain ⟨hgate, hdrift, hstate, hstop⟩ := stoppedLane_fields s (notedLane s ln cause)
  obtain ⟨_, _, _, _, _, hfirn⟩ := stoppedLane_firn s (notedLane s ln cause)
  have hdisabled : (stoppedLane s (notedLane s ln cause)).disabled = ln.disabled := by rw [hfirn]; exact hdis
  have htimes : (stoppedLane s (notedLane s ln cause)).faultTimes = tb3 s :: liveFaults s ln.faultTimes := by rw [hfirn]; rfl
  rw [hst] at hstate
  unfold n faultedLane
  by_cases hm : many
  · rw [if_pos hm]
    exact ⟨hgate, hdrift, hstop, by rw [hstate]; simp [hm], by simp [hm], htimes⟩
  · rw [if_neg hm]
    exact ⟨hgate, hdrift, hstop, by rw [hstate]; simp [hm], by simp [hm, hdisabled], htimes⟩

/-- The Firn block of a faulted lane is that of the note. -/
theorem faultedLane_firn (s : State) (ln : Lane) (cause : Nat) :
    let n := faultedLane s ln cause
    let f := firnNote ln [cause] none
    n.faultsCore = f.faultsCore ∧ n.faultsChecker = f.faultsChecker ∧ n.firnFrozen = f.firnFrozen ∧
      n.firnCause = f.firnCause ∧ n.firnMask = f.firnMask ∧ n.firnChecker = f.firnChecker := by
  intro n f
  obtain ⟨_, _, _, _, _, hfirn⟩ := stoppedLane_firn s (notedLane s ln cause)
  unfold n faultedLane
  rw [hfirn]
  split <;> exact ⟨rfl, rfl, rfl, rfl, rfl, rfl⟩

/-- A fault in a lane that is neither SHED nor FAULTED (R148, R149, R151). -/
theorem laneFaulted_laneFault {s : State} {l : LaneId} (cause : Nat) (hshed : (laneOf s l).epochState ≠ .shed)
    (hfault : (laneOf s l).epochState ≠ .faulted) : LaneFaulted s (laneFault s l cause none) l cause := by
  obtain ⟨hlanes, hrest⟩ := laneFault_rest cause hshed hfault
  have hlane : laneOf (laneFault s l cause none) l = faultedLane s (laneOf s l) cause := by
    rw [laneOf_of_lanes (s := putLane s l (faultedLane s (laneOf s l) cause)) (by rw [hlanes]), laneOf_putLane]
  have fields := faultedLane_fields s (laneOf s l) cause
  have firn := faultedLane_firn s (laneOf s l) cause
  rw [← hlane] at fields firn
  obtain ⟨hgate, hdrift, hstop, hstate, hdis, htimes⟩ := fields
  obtain ⟨hcore, hchecker, hfrozen, hcause, hmask, hcls⟩ := firn
  obtain ⟨hcore', hchecker', -, -, hstatus⟩ := firnNote_fields (laneOf s l) cause
  refine ⟨⟨hgate, hdrift⟩, hstop, hstate, hdis, htimes, ⟨hcore.trans hcore', hchecker.trans hchecker'⟩, fun h => ?_,
    by rw [hlanes], fun l' hl => ?_, hrest⟩
  · obtain ⟨h1, h2, h3, h4⟩ := hstatus h
    exact ⟨hfrozen.trans h1, hcause.trans h2, hmask.trans h3, hcls.trans h4⟩
  · rw [laneOf_of_lanes (s := putLane s l (faultedLane s (laneOf s l) cause)) (by rw [hlanes]), laneOf_putLane_ne _ _ _ _ hl]

end Sys2Proof.Machine

/-! Commits and asynchronous exceptions (R55, R135, R140, R157, R195, R196, R198). -/

namespace Sys2Proof.Machine

open Sys2Proof

/-! ### Commits (R55, R157) -/

/-- An empty store gate performs nothing. -/
theorem gateRun_of_empty {s : State} {l : LaneId} (h : (laneOf s l).gate = []) : gateRun s l = s := by
  rw [gateRun, h, gatePerform]
  conv_lhs => rw [← h]
  exact putLane_laneOf s l

theorem exec_commit {s : State} {c : CoreRef} (hrun : laneRuns s c.lane = true) (hgate : (laneOf s c.lane).gate = [])
    (hdone : commitDone (laneOf s c.lane) c.core = true) : exec (.commit c) s = .next (commitNow s c.lane c.core) := by
  change execCommit c s = _
  rw [execCommit, gateRun_of_empty hgate, hrun, hdone]
  rfl

/-- The lane as an accepted commit leaves it. -/
def acceptedLane (s : State) (ln : Lane) (c : CoreSel) : Lane :=
  let ln := noteMargin s (markCommit ln c true)
  { ln with epochState := if laneCommitted ln && ln.epochState = .compute then .committed else ln.epochState
            modeTaken := if laneCommitted ln then ln.modeReq else ln.modeTaken }

/-- A commit that nothing rejects is accepted where it completes before D_c. -/
theorem commitNow_of_sound {s : State} {l : LaneId} {c : CoreSel} (hstale : (laneOf s l).readStale = false)
    (hrej : commitRejected (laneOf s l) c = false) : commitNow s l c = putLane s l (
      if tb2 s < deadlineNs s.epoch then acceptedLane s (laneOf s l) c else markCommit (laneOf s l) c false) := by
  simp only [commitNow, hstale, hrej, Bool.and_false, Bool.false_eq_true, if_false, Bool.false_or, Bool.not_eq_true',
    decide_eq_false_iff_not, acceptedLane]
  split <;> simp_all

theorem coreOf_markCommit (ln : Lane) (c : CoreSel) (ok : Bool) :
    coreOf (markCommit ln c ok) c = { coreOf ln c with committed := ok, yieldCommit := false } := by
  unfold markCommit
  cases c <;> dsimp only <;> split <;> rfl

theorem markCommit_state (ln : Lane) (c : CoreSel) (ok : Bool) :
    (markCommit ln c ok).epochState = ln.epochState ∧ (markCommit ln c ok).modeReq = ln.modeReq := by
  unfold markCommit
  dsimp only
  split
  · cases c <;> exact ⟨rfl, rfl⟩
  · exact ⟨rfl, rfl⟩

/-- One commit of a PAIRED lane stands for both of its cores. -/
theorem laneCommitted_markCommit {ln : Lane} (h : ln.mode = .paired) (c : CoreSel) : laneCommitted (markCommit ln c true) = true := by
  have hsplit : isSplit ln = false := by simp [isSplit, h]
  simp [markCommit, laneCommitted, hsplit]

/-! ### Asynchronous exceptions (R135, R195, R196, R198) -/

/-- A core as it takes an asynchronous exception, its Firn records apart. -/
def asyncTaken (k : Core) (code : Nat) : Core := asyncMark (enterExc k ⟨code, false, false, 0⟩ true) code

theorem coreOf_asyncCore (ln : Lane) (c : CoreSel) (code : Nat) :
    archOf (coreOf (asyncCore ln c code) c) = archOf (asyncTaken (coreOf ln c) code) := by
  rw [asyncCore, coreOf_putCore, asyncTaken, feedEntry]
  unfold asyncMark
  cases isSplit ln <;> split <;> rfl

/-- `t` is `s` after a core has taken an asynchronous exception: the rest of the lane but the Drift queue, the other lanes and
the other blocks stand. -/
structure TookAsync (s t : State) (c : CoreRef) (code : Nat) : Prop where
  core : archOf (coreAt t c) = archOf (asyncTaken (coreAt s c) code)
  other : coreAt t (otherCore c) = coreAt s (otherCore c)
  lanes : ∀ l, l ≠ c.lane → laneOf t l = laneOf s l
  lane : laneOf t c.lane = { laneOf s c.lane with
    l := (laneOf t c.lane).l, t := (laneOf t c.lane).t, drift := (laneOf t c.lane).drift, driftPeak := (laneOf t c.lane).driftPeak }
  rest : t = { s with lanes := t.lanes }

/-- A lane put back in which a core has taken an asynchronous exception, and which differs else in its Drift queue alone. -/
theorem tookAsync_putLane {s : State} {c : CoreRef} {ln : Lane} (code : Nat)
    (hln : ln = { laneOf s c.lane with drift := ln.drift, driftPeak := ln.driftPeak }) :
    TookAsync s (putLane s c.lane (asyncCore ln c.core code)) c code := by
  have hl : ln.l = (laneOf s c.lane).l := by rw [hln]
  have ht : ln.t = (laneOf s c.lane).t := by rw [hln]
  obtain ⟨l, sel⟩ := c
  refine ⟨?_, ?_, fun m hm => laneOf_putLane_ne _ _ _ _ hm, ?_, rfl⟩
  · rw [coreAt, laneOf_putLane, coreOf_asyncCore, coreAt]
    cases sel
    · rw [coreOf, hl]; rfl
    · rw [coreOf, ht]; rfl
  · cases sel
    · rw [coreAt, otherCore, laneOf_putLane]; exact ht
    · rw [coreAt, otherCore, laneOf_putLane]; exact hl
  · rw [laneOf_putLane]
    cases sel <;> (rw [asyncCore, hln]; rfl)

/-- T's entry at the front is right, and no MARK follows it (R140, R143). -/
def AsyncEntryRight (s : State) (c : CoreRef) : Prop :=
  (laneOf s c.lane).mode = .paired → c.core = .trailing → ∃ e rest, (laneOf s c.lane).drift = e :: rest ∧
    e.parity = driftParity e.data e.kind e.seq ∧ ∀ m ∈ rest.head?, m.kind.toNat ≠ 6

/-- T's window stays open where no MARK is at the front of the queue. -/
theorem markT_of_no_mark {s : State} {l : LaneId} (seq : BitVec 10)
    (h : ∀ m ∈ (laneOf s l).drift.head?, m.kind.toNat ≠ 6) : markT s l seq = s := by
  unfold markT
  dsimp only
  split
  · rfl
  · next e rest hd => rw [hd] at h; rw [if_neg]; simp [h e rfl]

theorem tookAsync_takeAsync {s : State} {c : CoreRef} (code : Nat) (hr : AsyncEntryRight s c) :
    TookAsync s (takeAsync s c code) c code := by
  obtain ⟨l, sel⟩ := c
  unfold takeAsync
  dsimp only
  split
  · next hp =>
    cases sel with
    | leading =>
      exact tookAsync_putLane (s := s) (c := ⟨l, .leading⟩) (ln := driftPut (laneOf s l) .async (BitVec.ofNat 64 code) (seqOf (laneOf s l).l))
        code rfl
    | trailing =>
      obtain ⟨e, rest, hd, hpar, hmark⟩ := hr hp rfl
      have htook : TookAsync s (putLane s l (asyncCore { laneOf s l with drift := rest } .trailing code)) ⟨l, .trailing⟩ code :=
        tookAsync_putLane (c := ⟨l, .trailing⟩) code rfl
      dsimp only
      unfold takeAsyncT
      dsimp only
      rw [hd]
      dsimp only
      rw [if_neg (by simp [hpar]), markT_of_no_mark]
      · exact htook
      · rw [laneOf_putLane]; exact hmark
  · exact tookAsync_putLane (s := s) (c := ⟨l, sel⟩) (ln := laneOf s l) code rfl

/-- A core that is ready takes the asynchronous exception that is due, if the Drift queue has room for L's entry (R139). -/
theorem takeIfDue_of_due {s : State} {c : CoreRef} {code : Nat} (hready : coreReady s c = true) (hroom : driftFull s c 1 = false)
    (hdue : asyncDue s c = some code) : takeIfDue s c code = .next (takeAsync s c code) := by
  simp [takeIfDue, hready, hroom, hdue]

/-- An entry of wrong parity is a lane fault with cause DRIFT_PARITY (R140). -/
theorem laneFaulted_takeAsync {s : State} {c : CoreRef} {e : DriftEntry} {rest : List DriftEntry} (code : Nat)
    (hready : coreReady s c = true) (hp : (laneOf s c.lane).mode = .paired) (ht : c.core = .trailing)
    (hd : (laneOf s c.lane).drift = e :: rest) (hpar : e.parity ≠ driftParity e.data e.kind e.seq) :
    LaneFaulted s (takeAsync s c code) c.lane 5 := by
  have hst : (laneOf s c.lane).epochState = .compute ∨ (laneOf s c.lane).epochState = .late := by
    simp only [coreReady, laneRuns, Bool.and_eq_true] at hready
    obtain ⟨⟨⟨-, hst⟩, -⟩, -⟩ := hready
    split at hst
    · next h => exact .inl h
    · next h => exact .inr h
    · cases hst
  have htake : takeAsync s c code = laneFault s c.lane 5 none := by
    obtain ⟨l, sel⟩ := c
    cases ht
    simp only [takeAsync, hp, takeAsyncT, hd, if_true]
    rw [if_pos (by simpa using hpar)]
  rw [htake]
  rcases hst with hst | hst <;> exact laneFaulted_laneFault 5 (by rw [hst]; decide) (by rw [hst]; decide)

/-- Settles O28: a commit by whether it is in time, an asynchronous exception by what the Drift queue holds for T. -/
theorem commitAndAsyncEntry : Obligations.CommitAndAsyncEntry := by
  refine ⟨fun s c hrun hgate hstale hdone hrej => ?_, ?_⟩
  · have hexec := (exec_commit hrun hgate hdone).trans (congrArg _ (commitNow_of_sound hstale hrej))
    have hcore := coreOf_markCommit (laneOf s c.lane) c.core
    have hmark := markCommit_state (laneOf s c.lane) c.core
    by_cases ht : tb2 s < deadlineNs s.epoch
    · rw [if_pos ht] at hexec
      have hacc : coreOf (acceptedLane s (laneOf s c.lane) c.core) c.core = coreOf (markCommit (laneOf s c.lane) c.core true) c.core := by
        cases c.core <;> rfl
      refine ⟨_, hexec, ?_, ?_, fun hp _ hc => ?_, fun h => absurd ht h.not_gt, fun l hl => laneOf_putLane_ne _ _ _ _ hl, rfl⟩
      · rw [coreAt, laneOf_putLane, hacc, hcore, decide_eq_true ht]
      · rw [coreAt, laneOf_putLane, hacc, hcore]
      · have hall : laneCommitted (noteMargin s (markCommit (laneOf s c.lane) c.core true)) = true :=
          laneCommitted_markCommit hp c.core
        have hcomp : (noteMargin s (markCommit (laneOf s c.lane) c.core true)).epochState = .compute := (hmark true).1.trans hc
        rw [laneOf_putLane, acceptedLane]
        exact ⟨if_pos (by rw [hall, hcomp]; rfl), (if_pos hall).trans (hmark true).2⟩
    · rw [if_neg ht] at hexec
      refine ⟨_, hexec, ?_, ?_, fun _ h => absurd h ht, fun _ => ?_, fun l hl => laneOf_putLane_ne _ _ _ _ hl, rfl⟩
      · rw [coreAt, laneOf_putLane, hcore, decide_eq_false ht]
      · rw [coreAt, laneOf_putLane, hcore]
      · rw [laneOf_putLane, (hmark false).1]
  · intro c s hready hroom k ln right entry
    have hentry10 : archOf (asyncTaken k 0x10) = archOf (entry 0x10 0b10111 { k with bexTaken := true }) := rfl
    have hentry11 : archOf (asyncTaken k 0x11) = archOf (entry 0x11 0b00111 { k with cadTaken := true }) := rfl
    refine ⟨fun hdue hr => ?_, fun hdue hr => ?_, fun e rest hp ht hd hpar => ⟨fun hdue => ?_, fun hdue => ?_⟩⟩
    · obtain ⟨hcore, hother, hlanes, hlane, hrest⟩ := tookAsync_takeAsync 0x10 hr
      exact ⟨_, takeIfDue_of_due hready hroom hdue, hcore.trans hentry10, hother, hlanes, hlane, hrest⟩
    · obtain ⟨hcore, hother, hlanes, hlane, hrest⟩ := tookAsync_takeAsync 0x11 hr
      exact ⟨_, takeIfDue_of_due hready hroom hdue, hcore.trans hentry11, hother, hlanes, hlane, hrest⟩
    · exact ⟨_, takeIfDue_of_due hready hroom hdue, laneFaulted_takeAsync 0x10 hready hp ht hd hpar⟩
    · exact ⟨_, takeIfDue_of_due hready hroom hdue, laneFaulted_takeAsync 0x11 hready hp ht hd hpar⟩

end Sys2Proof.Machine

/-! The instants of an epoch (R37, R38, Table 2.2): what has changed once TB2 has reached one, and the operations that they
share. -/

namespace Sys2Proof.Machine

open Sys2Proof

/-! ### Reaching an instant -/

/-- Nothing but the time bases changes as time passes. -/
theorem passUntil_rest (s : State) (k : Fin 4) (ns : Nat) : passUntil s k ns = { s with time := (passUntil s k ns).time } := by
  unfold passUntil passTicks
  split <;> rfl

theorem Instant.rest {s u : State} {ns : Nat} (h : Instant s u ns) : u = { s with time := u.time } := by
  rw [h.time]
  exact passUntil_rest s 2 ns

/-- At an instant that comes, the event acts. -/
theorem Instant.acts {s u : State} {ns : Nat} (h : Instant s u ns) {ok : Bool} (hok : ok = true) (f : State → State) :
    atInstant s ns ok f = .next (f u) := by
  obtain ⟨hon, hepochs, hsynced, rfl, hreached⟩ := h
  refine (live_of_running _ hon).trans (congrArg _ ?_)
  rw [hepochs, hsynced, hok, hreached]
  rfl

/-! ### Frames made ready on the links -/

/-- From `s` to `t` frames are made ready on the links, and nothing else changes. -/
structure QueuedOnly (s t : State) : Prop where
  links : ∀ sd, linkOf t sd = { linkOf s sd with txq := (linkOf t sd).txq }
  rest : t = { s with weft := { s.weft with a := t.weft.a, b := t.weft.b } }

namespace QueuedOnly

theorem refl (s : State) : QueuedOnly s s := ⟨fun _ => rfl, rfl⟩

theorem trans {s t u : State} (h : QueuedOnly s t) (g : QueuedOnly t u) : QueuedOnly s u := by
  obtain ⟨hl, hr⟩ := h
  obtain ⟨gl, gr⟩ := g
  refine ⟨fun sd => ?_, ?_⟩
  · rw [gl sd, hl sd]
  · rw [gr, hr]

theorem sendSide (s : State) (sd : Side) (type : Nat) (payload : List Byte) :
    QueuedOnly s (sendSide s sd type payload) := by
  refine ⟨fun o => ?_, putLink_rest s sd _⟩
  by_cases h : o = sd
  · subst h
    rw [linkOf_sendSide]
    rfl
  · rw [Machine.sendSide, linkOf_putLink_ne _ _ h]

/-- Frames made ready one after another. -/
theorem foldl {α : Type} {f : State → α → State} (h : ∀ s x, QueuedOnly s (f s x)) (s : State) (xs : List α) :
    QueuedOnly s (xs.foldl f s) := by
  induction xs generalizing s with
  | nil => exact .refl s
  | cons x xs ih => exact (h s x).trans (ih _)

theorem ite {s t u : State} {c : Prop} [Decidable c] (h : QueuedOnly s t) (g : QueuedOnly s u) :
    QueuedOnly s (if c then t else u) := by
  split
  · exact h
  · exact g

theorem sendBoth (s : State) (type : Nat) (payload : List Byte) : QueuedOnly s (sendBoth s type payload) :=
  foldl (fun s sd => .ite (sendSide s sd type payload) (.refl s)) s sides

theorem sendRaw (s : State) (off n : Nat) : QueuedOnly s (sendRaw s off n) :=
  .ite (.refl s) (foldl (fun s p => sendBoth s 0x10 p) s _)

end QueuedOnly

/-- Both sides in turn: each link is changed by its own step alone. -/
theorem linkOf_foldl_sides {f : State → Side → State} (hne : ∀ s sd o, o ≠ sd → linkOf (f s sd) o = linkOf s o) (s : State) :
    linkOf (sides.foldl f s) .a = linkOf (f s .a) .a ∧ linkOf (sides.foldl f s) .b = linkOf (f (f s .a) .b) .b :=
  ⟨hne (f s .a) .b .a (by decide), rfl⟩

/-! ### The lanes in turn -/

/-- The lanes in turn, where each step changes its own lane alone: a lane reads what its own step makes of it. -/
theorem laneOf_foldl_finRange {f : State → LaneId → State} {g : LaneId → Lane → Lane} (h : ∀ s l, laneOf (f s l) l = g l (laneOf s l))
    (hne : ∀ s l m, m ≠ l → laneOf (f s l) m = laneOf s m) (s : State) (l : LaneId) :
    laneOf ((List.finRange 8).foldl f s) l = g l (laneOf s l) := by
  have hout : ∀ (xs : List LaneId) s, l ∉ xs → laneOf (xs.foldl f s) l = laneOf s l := by
    intro xs
    induction xs with
    | nil => exact fun _ _ => rfl
    | cons x xs ih =>
      intro s hl
      rw [List.mem_cons, not_or] at hl
      rw [List.foldl_cons, ih _ hl.2, hne _ _ _ hl.1]
  have hin : ∀ (xs : List LaneId) s, xs.Nodup → l ∈ xs → laneOf (xs.foldl f s) l = g l (laneOf s l) := by
    intro xs
    induction xs with
    | nil => exact fun _ _ hl => absurd hl List.not_mem_nil
    | cons x xs ih =>
      intro s hn hl
      rw [List.nodup_cons] at hn
      rw [List.foldl_cons]
      by_cases hx : l = x
      · subst hx
        rw [hout xs _ hn.1, h]
      · rw [ih _ hn.2 ((List.mem_cons.mp hl).resolve_left hx), hne _ _ _ hx]
  exact hin _ s (List.nodup_finRange 8) (List.mem_finRange l)

@[simp] theorem laneOf_mapLanes (s : State) (f : LaneId → Lane → Lane) (l : LaneId) : laneOf (mapLanes s f) l = f l (laneOf s l) := by
  simp [laneOf, mapLanes]

end Sys2Proof.Machine

/-! The instants of an epoch up to the source set, and the request of TB2_SYNC (R85, R88 to R90, R107). -/

namespace Sys2Proof.Machine

open Sys2Proof

/-! ### The condemn lines fall (R107) -/

/-- The line of a side falls unless it was stuck high. -/
theorem linesLow_cdnIn {k : Link} (n : Nat) (h : k.cdnStuck = false ∨ k.cdnIn = false) : (linesLow k n).cdnIn = false := by
  rcases h with h | h <;> simp [linesLow, h]

theorem weftNoted_rest (s : State) (bit : Nat) :
    weftNoted s bit = { weftEvent s bit with mor := (weftNoted s bit).mor } :=
  recordBit_rest ..

/-- The state as both condemn lines have fallen. -/
def linesFallen (s : State) : State :=
  { s with weft := { s.weft with a := linesLow s.weft.a s.freeCtr, b := linesLow s.weft.b (s.freeCtr + 1) }
           freeCtr := s.freeCtr + 2 }

/-- One sibling alone has condemned this voter (R109). -/
def condemnedByOne (s : State) : Bool := xor s.weft.a.condemnedBy s.weft.b.condemnedBy && isVoter s

theorem exec_cdnOutRelease {s u : State} (h : Instant s u (boundaryNs s.epoch + 20000)) (hphase : s.epoch.phase = .exchange) :
    exec .cdnOutRelease s = .next (if condemnedByOne u then weftNoted (linesFallen u) 7 else linesFallen u) :=
  h.acts (decide_eq_true hphase) (fun v => if condemnedByOne v then weftNoted (linesFallen v) 7 else linesFallen v)

/-! ### The exchange ends (R88) -/

/-- At the exchange end a link knows whether the sibling's image is there. -/
theorem exchangeLink_rawOk (s : State) (sd : Side) : (exchangeLink s sd).rawOk = rawComplete s sd := by
  unfold exchangeLink
  dsimp only
  split_ifs <;> rfl

theorem exchangeSide_rest (s : State) (sd : Side) : exchangeSide s sd = { s with weft := (exchangeSide s sd).weft } := by
  cases sd <;> (unfold exchangeSide; dsimp only; split <;> rfl)

@[simp] theorem linkOf_weftEvent (s : State) (n : Nat) (sd : Side) : linkOf (weftEvent s n) sd = linkOf s sd := by
  cases sd <;> rfl

theorem linkOf_exchangeSide (s : State) (sd : Side) : linkOf (exchangeSide s sd) sd = exchangeLink s sd := by
  unfold exchangeSide
  dsimp only
  split <;> simp

theorem linkOf_exchangeSide_ne (s : State) (sd o : Side) (h : o ≠ sd) : linkOf (exchangeSide s sd) o = linkOf s o := by
  unfold exchangeSide
  dsimp only
  split <;> simp [linkOf_putLink_ne _ _ h]

/-- Whether the other image is complete stands as one side is settled. -/
theorem rawComplete_exchangeSide_a (s : State) : rawComplete (exchangeSide s .a) .b = rawComplete s .b := by
  unfold exchangeSide
  dsimp only
  split <;> rfl

/-- Both sides at the exchange end. -/
theorem exchangeSides_spec (s : State) :
    let t := sides.foldl exchangeSide s
    (∀ sd, (linkOf t sd).rawOk = rawComplete s sd) ∧ t = { s with weft := t.weft } := by
  intro t
  obtain ⟨ha, hb⟩ := linkOf_foldl_sides linkOf_exchangeSide_ne s
  refine ⟨fun sd => ?_, ?_⟩
  · cases sd
    · rw [ha, linkOf_exchangeSide, exchangeLink_rawOk]
    · rw [hb, linkOf_exchangeSide, exchangeLink_rawOk, rawComplete_exchangeSide_a]
  · have hlast : t = { exchangeSide s .a with weft := t.weft } := exchangeSide_rest (exchangeSide s .a) .b
    rw [hlast, exchangeSide_rest s .a]

/-- The state as both sides have been settled, before the report goes out. -/
def exchangeSettled (s : State) : State := sides.foldl exchangeSide { s with epoch := { s.epoch with exchanged := true } }

theorem exec_exchangeEnd {s u : State} (h : Instant s u (boundaryNs s.epoch + exchangeUs s.epoch * 1000))
    (hraw : s.epoch.rawClosed = true) (hopen : s.epoch.exchanged = false) :
    exec .exchangeEnd s = .next (sendBoth (exchangeSettled u) 0x11 (rxReport (exchangeSettled u))) :=
  h.acts (by rw [hraw, hopen]; rfl) (fun v => sendBoth (exchangeSettled v) 0x11 (rxReport (exchangeSettled v)))

/-! ### The source set (R89, R90) -/

/-- The module takes no part in its epoch: it is not in S, or it lacks an image of S. -/
def leftOut (s : State) : Bool := isVoter s && !inMask (sourceSet s) s.slot.toNat

/-- The module does not hold every image of S. -/
def lacksImage (s : State) : Bool := !(maskSlots (sourceSet s)).all (fun x => inMask (receivedMask s) x)

/-- The state once S is known. -/
def sourcedState (s : State) : State :=
  let t := { s with weft := { s.weft with sources := sourceSet s, outOfSet := leftOut s }, epoch := { s.epoch with sourced := true } }
  if leftOut s then weftEvent t 4 else t

theorem holdsAll_sourcedState (s : State) : holdsAll (sourcedState s) = !lacksImage s := by
  unfold sourcedState lacksImage
  rw [Bool.not_not]
  dsimp only
  split <;> rfl

theorem exec_sourceSetCompute {s u : State} (h : Instant s u (boundaryNs s.epoch + exchangeUs s.epoch * 1000 + 4000))
    (hend : s.epoch.exchanged = true) (hopen : s.epoch.sourced = false) :
    exec .sourceSetCompute s = .next (if leftOut u || lacksImage u then abstainEpoch (sourcedState u) else sourcedState u) := by
  have hact : exec .sourceSetCompute s =
      .next (if leftOut u || !holdsAll (sourcedState u) then abstainEpoch (sourcedState u) else sourcedState u) :=
    h.acts (by rw [hend, hopen]; rfl)
      (fun v => if leftOut v || !holdsAll (sourcedState v) then abstainEpoch (sourcedState v) else sourcedState v)
  rwa [holdsAll_sourcedState, Bool.not_not] at hact

theorem sourcedState_spec (s : State) :
    let t := sourcedState s
    t.weft.sources = sourceSet s ∧ t.weft.outOfSet = leftOut s ∧ t.epoch = { s.epoch with sourced := true } ∧
      t = { s with weft := t.weft, epoch := t.epoch } := by
  unfold sourcedState
  dsimp only
  split <;> exact ⟨rfl, rfl, rfl, rfl⟩

/-! ### The request of TB2_SYNC (R85) -/

/-- A request on a link that is UP. -/
def syncAsk (s : State) (sd : Side) : State := if (linkOf s sd).state = .up then sendSide s sd 0x04 (zeros 12) else s

theorem queuedOnly_syncAsk (s : State) (sd : Side) : QueuedOnly s (syncAsk s sd) := .ite (.sendSide ..) (.refl s)

theorem linkOf_syncAsk_ne (s : State) (sd o : Side) (h : o ≠ sd) : linkOf (syncAsk s sd) o = linkOf s o := by
  unfold syncAsk
  split
  · exact linkOf_putLink_ne _ _ h
  · rfl

theorem linkOf_syncAsk (s : State) (sd : Side) :
    ((linkOf s sd).state = .up → ∃ f ∈ (linkOf (syncAsk s sd) sd).txq, f.type = 0x04 ∧ f.payload = zeros 12) ∧
      ((linkOf s sd).state ≠ .up → linkOf (syncAsk s sd) sd = linkOf s sd) := by
  unfold syncAsk
  refine ⟨fun h => ?_, fun h => ?_⟩
  · rw [if_pos h, linkOf_sendSide]
    exact ⟨_, List.mem_append_right _ (List.mem_singleton.mpr rfl), rfl, rfl⟩
  · rw [if_neg h]

theorem syncAsks_spec (s : State) (sd : Side) : ∃ v, linkOf v sd = linkOf s sd ∧
    linkOf (sides.foldl syncAsk s) sd = linkOf (syncAsk v sd) sd := by
  obtain ⟨ha, hb⟩ := linkOf_foldl_sides linkOf_syncAsk_ne s
  cases sd
  · exact ⟨s, rfl, ha⟩
  · exact ⟨syncAsk s .a, linkOf_syncAsk_ne s .a .b (by decide), hb⟩

theorem exec_tb2SyncSend {s u : State} (h : Instant s u (boundaryNs s.epoch + epochNs s.epoch / 2)) :
    exec .tb2SyncSend s = .next (sides.foldl syncAsk u) := by
  rw [← h.acts (ok := true) rfl (fun v => sides.foldl syncAsk v)]
  simp only [atInstant, Bool.and_true]
  rfl

end Sys2Proof.Machine

/-! The seal of an epoch (R41, R92, R160): the consolidated image, and each waiting lane by its mode. -/

namespace Sys2Proof.Machine

open Sys2Proof

/-! ### One lane at the seal -/

/-- A lane as it enters its epoch (R191, Table 2.8). -/
def enteredLane (ln : Lane) : Lane :=
  { ln with l := feedEntry ln ln.l (entryCore ln.l), t := feedEntry ln ln.t (entryCore ln.t), epochState := .compute
            retiredAtSeal := ln.l.retired, drain := none, computed := true }

/-- A lane as the seal leaves it. -/
def sealedLane (ln : Lane) : Lane :=
  if ln.epochState != .waitSeal then ln
  else if ln.mode = .rejoining then { ln with sealSeen := true } else enteredLane ln

theorem archOf_feedEntry (ln : Lane) (old new : Core) : archOf (feedEntry ln old new) = archOf new := by
  unfold feedEntry
  split <;> rfl

theorem archOf_coreOf_enteredLane (ln : Lane) (c : CoreSel) : archOf (coreOf (enteredLane ln) c) = archOf (entryCore (coreOf ln c)) := by
  cases c <;> exact archOf_feedEntry ..

theorem laneOf_epochEntry (s : State) (l : LaneId) : laneOf (epochEntry s l) l = enteredLane (laneOf s l) :=
  laneOf_putLane s l _

theorem laneOf_epochEntry_ne (s : State) {l m : LaneId} (h : m ≠ l) : laneOf (epochEntry s l) m = laneOf s m :=
  laneOf_putLane_ne s l m _ h

theorem laneOf_sealLane (s : State) (l : LaneId) : laneOf (sealLane s l) l = sealedLane (laneOf s l) := by
  unfold sealLane sealedLane
  dsimp only
  split
  · rfl
  · split
    · exact laneOf_putLane ..
    · exact laneOf_epochEntry s l

theorem laneOf_sealLane_ne (s : State) (l m : LaneId) (h : m ≠ l) : laneOf (sealLane s l) m = laneOf s m := by
  unfold sealLane
  dsimp only
  split
  · rfl
  · split
    · exact laneOf_putLane_ne _ _ _ _ h
    · exact laneOf_epochEntry_ne s h

theorem sealLane_rest (s : State) (l : LaneId) :
    sealLane s l = { s with lanes := (sealLane s l).lanes, check := (sealLane s l).check } := by
  unfold sealLane
  dsimp only
  split
  · rfl
  · split <;> rfl

theorem sealLanes_rest (s : State) (ls : List LaneId) :
    ls.foldl sealLane s = { s with lanes := (ls.foldl sealLane s).lanes, check := (ls.foldl sealLane s).check } := by
  induction ls generalizing s with
  | nil => rfl
  | cons l ls ih => rw [List.foldl_cons, ih, sealLane_rest s l]

/-! ### The consolidated image -/

theorem sourceReads_sound {s : State} (h : s.mem.upsets = []) : sourceReads s = s := by
  have hone : ∀ sd, (if inMask s.weft.sources (sideSlot s sd) then
      touch s 0x0A (0x400000 + sideBit sd * 0x400000) 0x400000 else s) = s := fun sd => by
    rw [touch_sound s _ _ _ h, ite_self]
  unfold sourceReads
  dsimp only
  rw [touch_sound s _ _ _ h, ite_self]
  simp only [sides, List.foldl_cons, List.foldl_nil, hone]

/-- What the seal makes of the sources. -/
def sealImage (s : State) : Mem × Bool := consolidate s (sourceImages s) (if bench s then 0 else s.weft.sources.toNat)

/-- The epoch as the consolidated image is complete, the two events apart. -/
def sealEpoch (s : State) : Epoch :=
  { s.epoch with sealed := true, phase := .compute, sealNs := BitVec.ofNat 32 (tb2 s - boundaryNs s.epoch)
                 abstainAll := s.epoch.abstainAll || sealTooLate s }

/-- The state as the consolidated image is complete, before its lanes enter the epoch. -/
def imageSealed (s : State) : State :=
  let t := { s with mem := { s.mem with cons := (sealImage s).1 }, epoch := sealEpoch s }
  let t := if (sealImage s).2 then epochEvent t 21 else t
  if sealTooLate s then epochEvent t 16 else t

theorem ite_epochEvent (s : State) (c : Bool) (n : Nat) :
    (if c then epochEvent s n else s) = { s with epoch := { s.epoch with event := if c then setBit s.epoch.event n else s.epoch.event } } := by
  cases c <;> rfl

theorem imageSealed_spec (s : State) :
    let t := imageSealed s
    t.epoch.sealed = true ∧ t.epoch.phase = .compute ∧ t = { s with mem := { s.mem with cons := (sealImage s).1 }, epoch := t.epoch } := by
  unfold imageSealed
  simp only [ite_epochEvent]
  exact ⟨rfl, rfl, trivial⟩

theorem sealNow_sound {s : State} (h : s.mem.upsets = []) : sealNow s = (List.finRange 8).foldl sealLane (imageSealed s) := by
  unfold sealNow
  rw [sourceReads_sound h]
  rfl

theorem exec_seal {s : State} (hrun : running s 2 = true) (hon : s.epoch.running = true) (hsync : s.epoch.resync = false)
    (hsourced : s.epoch.sourced = true) (hopen : s.epoch.sealed = false) (hphase : s.epoch.phase = .exchange)
    (h : s.mem.upsets = []) : exec .seal s = .next ((List.finRange 8).foldl sealLane (imageSealed s)) := by
  refine (live_of_running _ hrun).trans (congrArg _ ?_)
  rw [hon, hsync, hsourced, hopen, hphase, ← sealNow_sound h]
  rfl

end Sys2Proof.Machine

/-! Raw close (R42, R246, R264): the deliveries that the image holds are answered, and the own image goes out. -/

namespace Sys2Proof.Machine

open Sys2Proof

/-! ### Messages after raw close -/

/-- A message once the raw image is closed: its items wait for the next image (R46). -/
structure MessagedClosed (s t : State) : Prop where
  messaged : Messaged s t
  closing : s.epoch.rawClosed = true → t.epoch.closing = s.epoch.closing

namespace MessagedClosed

theorem rawClosed {s t : State} (h : MessagedClosed s t) : t.epoch.rawClosed = s.epoch.rawClosed := by rw [h.messaged.rest]

theorem refl (s : State) : MessagedClosed s s := ⟨.refl s, fun _ => rfl⟩

theorem trans {s t u : State} (h : MessagedClosed s t) (g : MessagedClosed t u) : MessagedClosed s u :=
  ⟨h.messaged.trans g.messaged, fun hc => (g.closing (h.rawClosed.trans hc)).trans (h.closing hc)⟩

/-- A message that changes nothing of the epoch. -/
theorem of_epoch {s t : State} (h : Messaged s t) (he : t.epoch = s.epoch) : MessagedClosed s t := ⟨h, fun _ => by rw [he]⟩

theorem ite {s t u : State} {c : Prop} [Decidable c] (h : MessagedClosed s t) (g : MessagedClosed s u) :
    MessagedClosed s (if c then t else u) := by
  split
  · exact h
  · exact g

end MessagedClosed

theorem enqueue_epoch (s : State) (p : Fin 4) (q : Nat) (f : EthFrame) : (enqueue s p q f).epoch = s.epoch := by
  unfold enqueue
  dsimp only
  split <;> rfl

theorem mboxDatagram_epoch (s : State) (i : Nat) (m : List Byte) : (mboxDatagram s i m).epoch = s.epoch := by
  unfold mboxDatagram
  dsimp only
  split
  · rfl
  · split
    · split
      · exact enqueue_epoch ..
      · rfl
    · rfl

theorem mboxSend_epoch (s : State) (i : Nat) (m : List Byte) : (mboxSend s i m).epoch = s.epoch := by
  unfold mboxSend
  dsimp only
  split_ifs
  · exact mboxDatagram_epoch ..
  all_goals rfl

theorem queueItem_closing (s : State) (stamp source sub : Nat) (body : List Byte) (mark : List Byte → List Byte)
    (h : s.epoch.rawClosed = true) : (queueItem s stamp source sub body mark).epoch.closing = s.epoch.closing := by
  unfold queueItem
  dsimp only
  rw [if_pos h]
  split <;> rfl

theorem messagedClosed_deliverItem (s : State) (i k src : Nat) (m : List Byte) : MessagedClosed s (deliverItem s i k src m) :=
  ⟨messaged_deliverItem .., fun h => queueItem_closing (putPair s i _) _ _ _ _ _ h⟩

theorem messagedClosed_mboxSend (s : State) (i : Nat) (m : List Byte) : MessagedClosed s (mboxSend s i m) :=
  .of_epoch (messaged_mboxSend ..) (mboxSend_epoch ..)

theorem messagedClosed_putPair (s : State) (i : Nat) (p : MailPair) : MessagedClosed s (putPair s i p) :=
  .of_epoch (messaged_putPair ..) rfl

theorem messagedClosed_mboxEvent (s : State) (n : Nat) : MessagedClosed s (mboxEvent s n) :=
  .of_epoch ⟨rfl, fun sd => by cases sd <;> rfl, fun _ => rfl⟩ rfl

theorem messagedClosed_respond (s : State) (i : Nat) (r : Request) (a : Answer) : MessagedClosed s (respond s i r a) := by
  unfold respond
  exact .trans (messagedClosed_putPair ..) (.trans (.ite (messagedClosed_mboxEvent ..) (.refl _))
    (.ite (messagedClosed_deliverItem ..) (messagedClosed_mboxSend ..)))

theorem messagedClosed_beginService (s : State) (i : Nat) : MessagedClosed s (beginService s i) := by
  refine .of_epoch (messaged_beginService s i) ?_
  unfold beginService
  dsimp only
  split <;> rfl

theorem messagedClosed_closeOther (s : State) (i : Nat) (r : Request) : MessagedClosed s (closeOther s i r) :=
  .ite (.trans (messagedClosed_putPair ..) (messagedClosed_mboxEvent ..)) (.refl s)

theorem messagedClosed_repeatLane (s : State) (i : Nat) : MessagedClosed s (repeatLane s i) :=
  .trans (messagedClosed_beginService s i) (.trans (messagedClosed_putPair ..) (messagedClosed_deliverItem ..))

theorem messagedClosed_answerUnknown (s : State) (i : Nat) : MessagedClosed s (answerUnknown s i) :=
  .trans (messagedClosed_beginService s i) (.trans (messagedClosed_closeOther ..) (messagedClosed_respond ..))

theorem messagedClosed_mboxAutoN (k : Nat) (s : State) : MessagedClosed s (mboxAutoN k s) := by
  induction k generalizing s with
  | zero => exact .refl s
  | succ k ih =>
    unfold mboxAutoN
    split
    · next i _ =>
      exact .ite (.trans (messagedClosed_repeatLane s i) (ih _)) (.ite (.refl s) (.trans (messagedClosed_answerUnknown s i) (ih _)))
    · exact .refl s

theorem messagedClosed_finishLong (s : State) (i : Nat) (a : Answer) : MessagedClosed s (finishLong s i a) :=
  .ite (.trans (messagedClosed_respond ..) (messagedClosed_mboxAutoN ..)) (.refl s)

theorem messagedClosed_deliverClosed (s : State) (i : Nat) : MessagedClosed s (deliverClosed s i) := by
  unfold deliverClosed
  dsimp only
  split
  · exact .ite (.trans (messagedClosed_putPair ..) (messagedClosed_finishLong ..)) (.refl s)
  · exact .refl s

theorem messagedClosed_deliverClose (s : State) : MessagedClosed s (deliverClose s) := by
  unfold deliverClose
  simp only [List.foldl_cons, List.foldl_nil]
  exact .trans (messagedClosed_deliverClosed ..) (.trans (messagedClosed_deliverClosed ..) (.trans (messagedClosed_deliverClosed ..)
    (.trans (messagedClosed_deliverClosed ..) (.trans (messagedClosed_deliverClosed ..) (messagedClosed_deliverClosed ..)))))

/-! ### The own image goes out -/

theorem queuedOnly_sendRawPart {s : State} (h : s.mem.upsets = []) (off n : Nat) : QueuedOnly s (sendRawPart s off n) := by
  unfold sendRawPart
  rw [touch_sound s _ _ _ h]
  exact .sendRaw s off n

theorem exec_rawClose {s u : State} (h : Instant s u (boundaryNs s.epoch + 2000)) (hphase : s.epoch.phase = .exchange)
    (hopen : s.epoch.rawClosed = false) : exec .rawClose s = .next (rawCloseNow u) :=
  h.acts (by rw [hphase, hopen]; rfl) rawCloseNow

/-- The parts of the own image that go out at raw close (R78, R88). -/
def sendOwnRaw (s : State) : State :=
  sendRawPart (sendRawPart s (rawQueue s.maps) (s.epoch.rawBytes.toNat - rawQueue s.maps)) 0 64

theorem queuedOnly_sendOwnRaw {s : State} (h : s.mem.upsets = []) : QueuedOnly s (sendOwnRaw s) := by
  have hfirst := queuedOnly_sendRawPart h (rawQueue s.maps) (s.epoch.rawBytes.toNat - rawQueue s.maps)
  refine hfirst.trans (queuedOnly_sendRawPart ?_ 0 64)
  rw [hfirst.rest]
  exact h

theorem rawCloseNow_eq (s : State) : rawCloseNow s = sendOwnRaw (deliverClose (closeRaw (latchDeliveries s))) := rfl

/-- What the steps after the close leave of the closed image. -/
theorem afterClose_rest {c d t : State} (hc : c.epoch.rawClosed = true) (hd : MessagedClosed c d) (ht : QueuedOnly d t) :
    t.epoch.rawClosed = true ∧ t.epoch.closing = c.epoch.closing ∧ t.mem = c.mem ∧ t.epoch.rawBytes = c.epoch.rawBytes ∧
      t = { c with epoch := t.epoch, mbox := t.mbox, weft := t.weft
                   pkt := { c.pkt with port := t.pkt.port, svcSent := t.pkt.svcSent } } := by
  have hepoch : t.epoch = d.epoch := by rw [ht.rest]
  refine ⟨?_, ?_, ?_, ?_, ?_⟩
  · rw [hepoch, hd.rawClosed, hc]
  · rw [hepoch, hd.closing hc]
  · rw [ht.rest, hd.messaged.rest]
  · rw [hepoch, hd.messaged.rest]
  · rw [ht.rest, hd.messaged.rest]

/-- Closing the image reads and changes nothing of the mailboxes. -/
theorem closeRaw_mbox (s : State) (m : Mbox) : closeRaw { s with mbox := m } = { closeRaw s with mbox := m } := rfl

theorem closeRaw_rest (s : State) : closeRaw s = { s with mem := (closeRaw s).mem, epoch := (closeRaw s).epoch } := rfl

theorem closedImage_rest (s : State) :
    let c := closeRaw (latchDeliveries s)
    c.epoch.rawClosed = true ∧ c.epoch.closing = [] ∧ c.mem = (closeRaw s).mem ∧ c.epoch.rawBytes = (closeRaw s).epoch.rawBytes ∧
      c.mem.upsets = s.mem.upsets ∧ c = { s with mem := c.mem, epoch := c.epoch, mbox := c.mbox } := by
  have hlatch : latchDeliveries s = { s with mbox := (latchDeliveries s).mbox } := rfl
  rw [hlatch, closeRaw_mbox]
  refine ⟨rfl, rfl, rfl, rfl, rfl, ?_⟩
  conv_lhs => rw [closeRaw_rest]

theorem rawCloseNow_sound {s : State} (h : s.mem.upsets = []) :
    let t := rawCloseNow s
    t.epoch.rawClosed = true ∧ t.epoch.closing = [] ∧ t.mem = (closeRaw s).mem ∧ t.epoch.rawBytes = (closeRaw s).epoch.rawBytes ∧
      t = { s with mem := t.mem, epoch := t.epoch, mbox := t.mbox, weft := t.weft
                   pkt := { s.pkt with port := t.pkt.port, svcSent := t.pkt.svcSent } } := by
  obtain ⟨hclosed, hclosing, hmem, hbytes, hups, hrest⟩ := closedImage_rest s
  rw [rawCloseNow_eq]
  generalize closeRaw (latchDeliveries s) = c at *
  have hd := messagedClosed_deliverClose c
  generalize deliverClose c = d at *
  have hdups : d.mem.upsets = [] := by rw [hd.messaged.rest, hups, h]
  have ht := queuedOnly_sendOwnRaw hdups
  generalize sendOwnRaw d = t at *
  obtain ⟨tclosed, tclosing, tmem, tbytes, trest⟩ := afterClose_rest hclosed hd ht
  refine ⟨tclosed, tclosing.trans hclosing, tmem.trans hmem, tbytes.trans hbytes, ?_⟩
  rw [trest, hrest]

end Sys2Proof.Machine

/-! The instants up to the seal, each against its clause of O30. -/

namespace Sys2Proof.Machine

open Sys2Proof

theorem cdnOutRelease_next {s u : State} (h : Instant s u (boundaryNs s.epoch + 20000)) (hphase : s.epoch.phase = .exchange) :
    ∃ t, exec .cdnOutRelease s = .next t ∧
      (∀ sd, linkOf t sd = { linkOf u sd with cdnOut := false, cdnIn := (linkOf t sd).cdnIn, condemnedBy := false } ∧
        ((linkOf s sd).cdnStuck = false ∨ (linkOf s sd).cdnIn = false → (linkOf t sd).cdnIn = false)) ∧
      (isVoter s = true → (linkOf s .a).condemnedBy ≠ (linkOf s .b).condemnedBy → t.weft.event = setBit s.weft.event 7) ∧
      (isVoter s = false ∨ (linkOf s .a).condemnedBy = (linkOf s .b).condemnedBy → t.weft.event = s.weft.event) ∧
      t = { u with weft := { u.weft with a := t.weft.a, b := t.weft.b, event := t.weft.event }, mor := t.mor
                   freeCtr := s.freeCtr + 2 } := by
  have hu := h.rest
  have hlinks : ∀ sd, linkOf (linesFallen u) sd = linesLow (linkOf u sd) (match sd with | .a => u.freeCtr | .b => u.freeCtr + 1) :=
    fun sd => by cases sd <;> rfl
  have hone : condemnedByOne u = (xor (linkOf s .a).condemnedBy (linkOf s .b).condemnedBy && isVoter s) := by rw [hu]; rfl
  have hlow : ∀ sd, linkOf u sd = linkOf s sd := fun sd => by rw [hu]; cases sd <;> rfl
  have hfallen : linesFallen u = { u with weft := { u.weft with a := (linesFallen u).weft.a, b := (linesFallen u).weft.b }
                                          freeCtr := s.freeCtr + 2 } := by rw [hu]; rfl
  have hevent : u.weft.event = s.weft.event := by rw [hu]
  refine ⟨_, exec_cdnOutRelease h hphase, ?_⟩
  cases hc : condemnedByOne u
  · rw [if_neg Bool.false_ne_true]
    refine ⟨fun sd => ⟨?_, fun hs => ?_⟩, fun hv hne => ?_, fun _ => hevent, hfallen⟩
    · rw [hlinks]; rfl
    · rw [hlinks]; exact linesLow_cdnIn _ (by rw [hlow]; exact hs)
    · rw [hone, hv, Bool.and_true] at hc
      exact absurd (by simpa using hc) hne
  · rw [if_pos rfl, weftNoted_rest]
    have hsame : ∀ sd, linkOf { weftEvent (linesFallen u) 7 with mor := (weftNoted (linesFallen u) 7).mor } sd = linkOf (linesFallen u) sd :=
      fun sd => by cases sd <;> rfl
    refine ⟨fun sd => ⟨?_, fun hs => ?_⟩, fun _ _ => ?_, fun hne => ?_, ?_⟩
    · rw [hsame, hlinks]; rfl
    · rw [hsame, hlinks]; exact linesLow_cdnIn _ (by rw [hlow]; exact hs)
    · rw [← hevent]; rfl
    · rw [hone] at hc
      rcases hne with hv | he
      · rw [hv, Bool.and_false] at hc; cases hc
      · rw [he, Bool.xor_self] at hc; cases hc
    · rw [hfallen]; rfl

theorem exchangeEnd_next {s u : State} (h : Instant s u (boundaryNs s.epoch + exchangeUs s.epoch * 1000))
    (hraw : s.epoch.rawClosed = true) (hopen : s.epoch.exchanged = false) :
    ∃ t, exec .exchangeEnd s = .next t ∧ t.epoch = { u.epoch with exchanged := true } ∧
      (∀ sd, (linkOf t sd).rawOk = rawComplete u sd) ∧ t = { u with weft := t.weft, epoch := t.epoch } := by
  have hexec := exec_exchangeEnd h hraw hopen
  obtain ⟨hok, hsettled⟩ := exchangeSides_spec { u with epoch := { u.epoch with exchanged := true } }
  change ∀ sd, (linkOf (exchangeSettled u) sd).rawOk = rawComplete u sd at hok
  change exchangeSettled u = _ at hsettled
  generalize exchangeSettled u = v at *
  obtain ⟨hlinks, hrest⟩ := QueuedOnly.sendBoth v 0x11 (rxReport v)
  refine ⟨_, hexec, ?_, fun sd => ?_, ?_⟩
  · rw [hrest, hsettled]
  · rw [hlinks sd]; exact hok sd
  · rw [hrest, hsettled]

theorem sourceSet_next {s u : State} (h : Instant s u (boundaryNs s.epoch + exchangeUs s.epoch * 1000 + 4000))
    (hend : s.epoch.exchanged = true) (hopen : s.epoch.sourced = false) :
    ∃ t, exec .sourceSetCompute s = .next t ∧ t.epoch.sourced = true ∧ t.weft.sources = sourceSet u ∧ t.weft.outOfSet = leftOut u ∧
      ((leftOut u || lacksImage u) = true → t.epoch.abstainAll = true ∧ ∀ l, (laneOf t l).readStale = true) ∧
      ((leftOut u || lacksImage u) = false → t.epoch.abstainAll = s.epoch.abstainAll ∧ t.lanes = u.lanes) ∧
      t = { u with lanes := t.lanes, weft := t.weft, epoch := t.epoch } := by
  have hexec := exec_sourceSetCompute h hend hopen
  obtain ⟨hset, hout, hepoch, hrest⟩ := sourcedState_spec u
  generalize sourcedState u = v at *
  refine ⟨_, hexec, ?_⟩
  cases hc : leftOut u || lacksImage u
  · rw [if_neg Bool.false_ne_true]
    refine ⟨by rw [hepoch], hset, hout, fun hf => absurd hf Bool.false_ne_true, fun _ => ⟨?_, by rw [hrest]⟩, by rw [hrest]⟩
    rw [hepoch, h.rest]
  · rw [if_pos rfl]
    refine ⟨?_, hset, hout, fun _ => ⟨rfl, fun l => ?_⟩, fun hf => absurd hf.symm Bool.false_ne_true, ?_⟩
    · change v.epoch.sourced = true
      rw [hepoch]
    · exact congrArg Lane.readStale (laneOf_mapLanes v (fun _ ln => { ln with readStale := true }) l)
    · rw [hrest]; rfl

theorem sealLanes_spec (s : State) :
    let t := (List.finRange 8).foldl sealLane s
    (∀ l, laneOf t l = sealedLane (laneOf s l)) ∧ t = { s with lanes := t.lanes, check := t.check } :=
  ⟨laneOf_foldl_finRange laneOf_sealLane laneOf_sealLane_ne s, sealLanes_rest s _⟩

/-- The lanes enter the epoch after the image is complete. -/
theorem afterImage_rest {s v t : State} {img : Mem} (hv : v = { s with mem := { s.mem with cons := img }, epoch := v.epoch })
    (hlane : ∀ l, laneOf t l = sealedLane (laneOf v l)) (ht : t = { v with lanes := t.lanes, check := t.check }) :
    t.epoch = v.epoch ∧ t.mem.cons = img ∧ (∀ l, laneOf t l = sealedLane (laneOf s l)) ∧
      t = { s with lanes := t.lanes, mem := { s.mem with cons := t.mem.cons }, epoch := t.epoch, check := t.check } := by
  have hlanes : v.lanes = s.lanes := by rw [hv]
  refine ⟨by rw [ht], by rw [ht, hv], fun l => ?_, by rw [ht, hv]⟩
  rw [hlane l, laneOf_of_lanes (congrArg LaneBlock.lane hlanes)]

theorem seal_next {s : State} (hups : s.mem.upsets = []) (hrun : running s 2 = true) (hon : s.epoch.running = true)
    (hsync : s.epoch.resync = false) (hsourced : s.epoch.sourced = true) (hopen : s.epoch.sealed = false)
    (hphase : s.epoch.phase = .exchange) :
    ∃ t, exec .seal s = .next t ∧ t.epoch.sealed = true ∧ t.epoch.phase = .compute ∧ t.mem.cons = (sealImage s).1 ∧
      (∀ l, laneOf t l = sealedLane (laneOf s l)) ∧
      t = { s with lanes := t.lanes, mem := { s.mem with cons := t.mem.cons }, epoch := t.epoch, check := t.check } := by
  obtain ⟨hsealed, hcompute, himage⟩ := imageSealed_spec s
  obtain ⟨hlane, hsealLanes⟩ := sealLanes_spec (imageSealed s)
  obtain ⟨hepoch, hcons, hlanes, hrest⟩ := afterImage_rest himage hlane hsealLanes
  exact ⟨_, exec_seal hrun hon hsync hsourced hopen hphase hups, (congrArg Epoch.sealed hepoch).trans hsealed,
    (congrArg Epoch.phase hepoch).trans hcompute, hcons, hlanes, hrest⟩

theorem tb2SyncSend_next {s u : State} (h : Instant s u (boundaryNs s.epoch + epochNs s.epoch / 2)) :
    ∃ t, exec .tb2SyncSend s = .next t ∧
      (∀ sd, (linkOf s sd).state = .up → ∃ f ∈ (linkOf t sd).txq, f.type = 0x04 ∧ f.payload = zeros 12) ∧
      (∀ sd, (linkOf s sd).state ≠ .up → linkOf t sd = linkOf u sd) ∧
      t = { u with weft := { u.weft with a := t.weft.a, b := t.weft.b } } := by
  have hlink : ∀ sd, linkOf u sd = linkOf s sd := fun sd => by rw [h.rest]; cases sd <;> rfl
  refine ⟨_, exec_tb2SyncSend h, fun sd hup => ?_, fun sd hdown => ?_, (QueuedOnly.foldl queuedOnly_syncAsk u sides).rest⟩
  · obtain ⟨v, hv, ht⟩ := syncAsks_spec u sd
    rw [ht]
    exact (linkOf_syncAsk v sd).1 (by rw [hv, hlink]; exact hup)
  · obtain ⟨v, hv, ht⟩ := syncAsks_spec u sd
    rw [ht, (linkOf_syncAsk v sd).2 (by rw [hv, hlink]; exact hdown), hv]

/-- Settles O30: each instant acts once TB2 has reached it, by what its event makes of the links, the image and the lanes. -/
theorem exchangeInstants : Obligations.ExchangeInstants := by
  intro s u hups
  refine ⟨fun h hphase hopen => ?_, cdnOutRelease_next, exchangeEnd_next, sourceSet_next, ?_, tb2SyncSend_next⟩
  · exact ⟨_, exec_rawClose h hphase hopen, rawCloseNow_sound (by rw [h.rest]; exact hups)⟩
  · intro hrun hon hsync hsourced hopen hphase
    obtain ⟨t, hexec, hsealed, hcompute, hcons, hlane, hrest⟩ := seal_next hups hrun hon hsync hsourced hopen hphase
    refine ⟨t, hexec, hsealed, hcompute, hcons, fun l hw hm => ?_, fun l hw hm => ?_, fun l hw => ?_, hrest⟩
    · have hl : laneOf t l = enteredLane (laneOf s l) := by
        rw [hlane, sealedLane, if_neg (by simp [hw]), if_neg hm]
      refine ⟨by rw [hl]; rfl, fun c => ?_⟩
      exact (congrArg (fun ln => archOf (coreOf ln c)) hl).trans (archOf_coreOf_enteredLane _ c)
    · rw [hlane, sealedLane, if_neg (by simp [hw]), if_pos hm]
    · rw [hlane, sealedLane, if_pos (by simpa using hw)]

end Sys2Proof.Machine

/-! The warning and the commit deadline of an epoch (R62, R63, R159, R196). -/

namespace Sys2Proof.Machine

open Sys2Proof

/-! ### Event bits -/

/-- A bit that is set stays set with another. -/
theorem getLsbD_setBit_of {w : Nat} {x : BitVec w} {j : Nat} (i : Nat) (h : x.getLsbD j = true) : (setBit x i).getLsbD j = true := by
  simp [setBit, h]

theorem getLsbD_setBit_self {w : Nat} (x : BitVec w) {i : Nat} (h : i < w) : (setBit x i).getLsbD i = true := by
  simp only [setBit, BitVec.getLsbD_or, BitVec.getLsbD_ofNat, h, decide_true, Nat.testBit_two_pow_self, Bool.and_true, Bool.or_true]

/-! ### The warning (R196) -/

/-- A lane as the warning leaves it. -/
def warnedLane (ln : Lane) : Lane := if ln.epochState = .compute then { ln with l := warnCore ln.l, t := warnCore ln.t } else ln

theorem coreOf_warnedLane {ln : Lane} (h : ln.epochState = .compute) (c : CoreSel) : coreOf (warnedLane ln) c = warnCore (coreOf ln c) := by
  unfold warnedLane
  rw [if_pos h]
  cases c <;> rfl

theorem budgetWarning_next {s u : State} (h : Instant s u (warningNs s.epoch)) (hphase : s.epoch.phase = .compute) :
    ∃ t, exec .budgetWarning s = .next t ∧ (∀ l, laneOf t l = warnedLane (laneOf s l)) ∧ t = { u with lanes := t.lanes } := by
  refine ⟨_, h.acts (decide_eq_true hphase) (fun v => mapLanes v (fun _ => warnedLane)), fun l => ?_, rfl⟩
  rw [laneOf_mapLanes, h.rest]
  rfl

/-! ### The commit deadline (R62) -/

/-- The lane has overrun, and not for a commit that a stale read refused (R63). -/
def overran (ln : Lane) : Bool := ln.epochState = .compute && !ln.staleRejected

/-- A lane with COMMIT_LATE pending in its cores. -/
def lateCores (ln : Lane) : Lane := { ln with l := lateCore ln.l, t := lateCore ln.t }

/-- A lane as the commit deadline leaves it. -/
def lateLane (ln : Lane) : Lane := match ln.epochState with
  | .compute => lateCores { ln with epochState := .late, ovrCnt := if ln.staleRejected then ln.ovrCnt else satInc ln.ovrCnt }
  | .late => lateCores ln
  | _ => ln

/-- An overrun of lane `l` noted, with its record (R31). -/
def noteOverrun (s : State) (l : LaneId) : State :=
  let t := epochEvent s l.val
  recordBit t 2 0x24 l.val t.epoch.event.toNat l.val []

/-- Nothing but lanes, digests, the event bits and the records changes from `s` to `t`. -/
def LateOnly (s t : State) : Prop :=
  t = { s with lanes := t.lanes, weft := t.weft, epoch := { s.epoch with event := t.epoch.event }, mor := t.mor }

theorem LateOnly.trans {s t u : State} (h : LateOnly s t) (g : LateOnly t u) : LateOnly s u := by
  unfold LateOnly at *
  rw [g, h]

theorem noteOverrun_rest (s : State) (l : LaneId) :
    noteOverrun s l = { epochEvent s l.val with mor := (noteOverrun s l).mor } := recordBit_rest ..

theorem lateLane_of_compute {ln : Lane} (h : ln.epochState = .compute) : lateLane ln =
    lateCores { ln with epochState := .late, ovrCnt := if ln.staleRejected then ln.ovrCnt else satInc ln.ovrCnt } := by
  simp only [lateLane, h]

theorem lateLane_of_late {ln : Lane} (h : ln.epochState = .late) : lateLane ln = lateCores ln := by
  simp only [lateLane, h]

theorem lateLane_of_other {ln : Lane} (hc : ln.epochState ≠ .compute) (hl : ln.epochState ≠ .late) : lateLane ln = ln := by
  unfold lateLane
  split
  · next h => exact absurd h hc
  · next h => exact absurd h hl
  · rfl

theorem deadlineLane_compute {s : State} {l : LaneId} (h : (laneOf s l).epochState = .compute) : deadlineLane s l =
    let t := putLane s l (lateLane (laneOf s l))
    let t := if (laneOf s l).staleRejected then t else noteOverrun t l
    if isSplit (laneOf s l) then t else abstainLane t l := by
  rw [lateLane_of_compute h]
  unfold deadlineLane
  dsimp only
  split
  · rfl
  · next hl => exact absurd (h.symm.trans hl) (by decide)
  · next hc _ => exact absurd h hc

theorem deadlineLane_of_not_compute {s : State} {l : LaneId} (h : (laneOf s l).epochState ≠ .compute) :
    deadlineLane s l = putLane s l (lateLane (laneOf s l)) := by
  unfold deadlineLane
  dsimp only
  split
  · next hc => exact absurd hc h
  · next hl => rw [lateLane_of_late hl]; rfl
  · next hc hl => rw [lateLane_of_other hc hl, putLane_laneOf]

theorem deadlineLane_spec (s : State) (l : LaneId) :
    let t := deadlineLane s l
    t.lanes = (putLane s l (lateLane (laneOf s l))).lanes ∧ LateOnly s t ∧
      t.epoch.event = if overran (laneOf s l) then setBit s.epoch.event l.val else s.epoch.event := by
  intro t
  by_cases hc : (laneOf s l).epochState = .compute
  · have ht : t = _ := deadlineLane_compute hc
    have hover : overran (laneOf s l) = !(laneOf s l).staleRejected := by simp [overran, hc]
    rw [ht, hover]
    cases hs : (laneOf s l).staleRejected
    · dsimp only
      rw [if_neg Bool.false_ne_true, noteOverrun_rest]
      split <;> exact ⟨rfl, rfl, rfl⟩
    · dsimp only
      rw [if_pos rfl]
      split <;> exact ⟨rfl, rfl, rfl⟩
  · have ht : t = _ := deadlineLane_of_not_compute hc
    have hover : overran (laneOf s l) = false := by simp [overran, hc]
    rw [ht, hover]
    exact ⟨rfl, rfl, rfl⟩

theorem laneOf_deadlineLane (s : State) (l : LaneId) : laneOf (deadlineLane s l) l = lateLane (laneOf s l) := by
  obtain ⟨hlanes, -⟩ := deadlineLane_spec s l
  rw [laneOf_of_lanes (congrArg LaneBlock.lane hlanes), laneOf_putLane]

theorem laneOf_deadlineLane_ne (s : State) (l m : LaneId) (h : m ≠ l) : laneOf (deadlineLane s l) m = laneOf s m := by
  obtain ⟨hlanes, -⟩ := deadlineLane_spec s l
  rw [laneOf_of_lanes (congrArg LaneBlock.lane hlanes), laneOf_putLane_ne _ _ _ _ h]

theorem lateOnly_deadlineLanes (ls : List LaneId) (s : State) : LateOnly s (ls.foldl deadlineLane s) := by
  induction ls generalizing s with
  | nil => exact rfl
  | cons l ls ih => exact (deadlineLane_spec s l).2.1.trans (ih _)

/-- An event bit that is set stays set over the lanes. -/
theorem event_deadlineLanes_of {s : State} {i : Nat} (ls : List LaneId) (h : s.epoch.event.getLsbD i = true) :
    (ls.foldl deadlineLane s).epoch.event.getLsbD i = true := by
  induction ls generalizing s with
  | nil => exact h
  | cons l ls ih =>
    obtain ⟨-, -, hevent⟩ := deadlineLane_spec s l
    refine ih ?_
    rw [hevent]
    split
    · exact getLsbD_setBit_of _ h
    · exact h

/-- Each lane that has overrun has its event bit. -/
theorem event_deadlineLanes {s : State} {l : LaneId} (ls : List LaneId) (hl : l ∈ ls) (h : overran (laneOf s l) = true) :
    (ls.foldl deadlineLane s).epoch.event.getLsbD l.val = true := by
  induction ls generalizing s with
  | nil => exact absurd hl List.not_mem_nil
  | cons m ls ih =>
    rw [List.foldl_cons]
    by_cases hm : l = m
    · subst hm
      obtain ⟨-, -, hevent⟩ := deadlineLane_spec s l
      refine event_deadlineLanes_of ls ?_
      rw [hevent, if_pos h]
      exact getLsbD_setBit_self _ (Nat.lt_of_lt_of_le l.isLt (by decide))
    · exact ih ((List.mem_cons.mp hl).resolve_left hm) (by rw [laneOf_deadlineLane_ne _ _ _ hm]; exact h)

/-- The state as phase DIGEST begins. -/
def digestBegun (s : State) : State := { s with epoch := { s.epoch with phase := .digest } }

theorem LateOnly.of_digestBegun {s t : State} (h : LateOnly (digestBegun s) t) :
    t.epoch.phase = .digest ∧ t = { s with lanes := t.lanes, weft := t.weft, epoch := t.epoch, mor := t.mor } := by
  unfold LateOnly digestBegun at h
  exact ⟨by rw [h], by rw [h]⟩

theorem commitDeadline_next {s u : State} (h : Instant s u (deadlineNs s.epoch))
    (hphase : s.epoch.phase = .exchange ∨ s.epoch.phase = .compute) :
    ∃ t, exec .commitDeadline s = .next t ∧ t.epoch.phase = .digest ∧ (∀ l, laneOf t l = lateLane (laneOf s l)) ∧
      (∀ l, overran (laneOf s l) = true → t.epoch.event.getLsbD l.val = true) ∧
      t = { u with lanes := t.lanes, weft := t.weft, epoch := t.epoch, mor := t.mor } := by
  have hact : exec .commitDeadline s = .next ((List.finRange 8).foldl deadlineLane (digestBegun u)) :=
    h.acts (by rcases hphase with hp | hp <;> rw [hp] <;> rfl) (fun v => (List.finRange 8).foldl deadlineLane (digestBegun v))
  have hlane : ∀ l, laneOf (digestBegun u) l = laneOf s l := fun l => by rw [h.rest]; rfl
  obtain ⟨hdigest, hrest⟩ := (lateOnly_deadlineLanes (List.finRange 8) (digestBegun u)).of_digestBegun
  refine ⟨_, hact, hdigest, fun l => ?_, fun l ho => ?_, hrest⟩
  · rw [laneOf_foldl_finRange laneOf_deadlineLane laneOf_deadlineLane_ne, hlane]
  · exact event_deadlineLanes _ (List.mem_finRange l) (by rw [hlane]; exact ho)

end Sys2Proof.Machine

/-! The own digests of an epoch and its vote (R68, R69, R99, R102, R104). -/

namespace Sys2Proof.Machine

open Sys2Proof

/-! ### The own digest frame (R101) -/

/-- Nothing but the members' block changes from `s` to `t`, and the own digests stand. -/
def DigestKept (s t : State) : Prop := t = { s with weft := { t.weft with ownDigest := s.weft.ownDigest } }

namespace DigestKept

theorem refl (s : State) : DigestKept s s := rfl

theorem trans {s t u : State} (h : DigestKept s t) (g : DigestKept t u) : DigestKept s u := by
  unfold DigestKept at *
  rw [g, h]

theorem ite {s t u : State} {c : Prop} [Decidable c] (h : DigestKept s t) (g : DigestKept s u) : DigestKept s (if c then t else u) := by
  split
  · exact h
  · exact g

theorem foldl {α : Type} {f : State → α → State} (h : ∀ s x, DigestKept s (f s x)) (s : State) (xs : List α) :
    DigestKept s (xs.foldl f s) := by
  induction xs generalizing s with
  | nil => exact .refl s
  | cons x xs ih => exact (h s x).trans (ih _)

theorem putLink (s : State) (sd : Side) (k : Link) : DigestKept s (putLink s sd k) := by
  cases sd <;> exact rfl

theorem weftEvent (s : State) (n : Nat) : DigestKept s (weftEvent s n) := rfl

end DigestKept

theorem digestKept_sendSide (s : State) (sd : Side) (type : Nat) (payload : List Byte) :
    DigestKept s (sendSide s sd type payload) := .putLink ..

theorem digestKept_sendDigest (s : State) : DigestKept s (sendDigest s) := by
  unfold sendDigest
  refine .ite (.refl s) (.trans (.foldl (fun s sd => .ite ?_ (.refl s)) s sides) rfl)
  have hsent (payload : List Byte) := digestKept_sendSide s sd 0x20 payload
  exact .ite (hsent _) (.ite ((hsent _).trans (.putLink ..)) (((hsent _).trans (.putLink ..)).trans (.weftEvent ..)))

/-- The frame goes out unless the module is stopped (R444) or mute (R346). -/
theorem sendDigest_ownFrame {s : State} (hstop : s.weft.stopped = false) (hmute : s.rack.mute = false) :
    (sendDigest s).weft.ownFrame.isSome = true := by
  unfold sendDigest
  rw [hstop, hmute]
  cases h : s.weft.ownFrame with
  | some f => exact congrArg Option.isSome h
  | none => rfl

theorem withAudit_sound {s : State} (h : s.mem.upsets = []) :
    withAudit s = { s with weft := { s.weft with ownAudit := (withAudit s).weft.ownAudit } } := by
  unfold withAudit
  split
  · rfl
  · dsimp only
    rw [touch_sound _ _ _ _ h, h]
    rfl

theorem digestKept_withAudit {s : State} (h : s.mem.upsets = []) : DigestKept s (withAudit s) := by
  rw [withAudit_sound h]
  rfl

/-! ### The digests of a lane (R68, R99) -/

/-- The digest engine reads the data of a group. -/
def digestRead (s : State) (g : GroupId) : State := match groupOn s g with
  | some d => if digestDue s g then touch s 0x0C d.offset d.length else s
  | none => s

theorem digestRead_sound {s : State} (h : s.mem.upsets = []) (g : GroupId) : digestRead s g = s := by
  unfold digestRead
  split
  · rw [touch_sound _ _ _ _ h, ite_self]
  · rfl

theorem digestReads_sound {s : State} (h : s.mem.upsets = []) (gs : List GroupId) : gs.foldl digestRead s = s := by
  induction gs with
  | nil => rfl
  | cons g gs ih => rw [List.foldl_cons, digestRead_sound h, ih]

/-- The own digest of a group as the digest engine leaves it for lane `l`. -/
def laneDigest (s : State) (l : LaneId) (g : GroupId) : Option Word := match groupOn s g with
  | some d => if d.lane = l && digestDue s g then some (groupDigest s g d) else s.weft.ownDigest[g]
  | none => s.weft.ownDigest[g]

theorem laneDigests_eq (s : State) (l : LaneId) : laneDigests s l =
    let v := (groupsOf s l).foldl digestRead s
    { v with weft := { v.weft with ownDigest := Vector.ofFn (laneDigest v l) } } := rfl

theorem laneDigests_sound {s : State} (h : s.mem.upsets = []) (l : LaneId) :
    laneDigests s l = { s with weft := { s.weft with ownDigest := Vector.ofFn (laneDigest s l) } } := by
  rw [laneDigests_eq, digestReads_sound h]

theorem laneDigest_of_due {s : State} {l : LaneId} {g : GroupId} {d : Group} (hg : groupOn s g = some d) (hl : d.lane = l)
    (hdue : digestDue s g = true) : laneDigest s l g = some (groupDigest s g d) := by
  simp [laneDigest, hg, hl, hdue]

/-- The digest of a group of another lane stands. -/
theorem laneDigest_of_not_mem {s : State} {l : LaneId} {g : GroupId} (h : g ∉ groupsOf s l) :
    laneDigest s l g = s.weft.ownDigest[g] := by
  unfold laneDigest
  split
  · next d hd =>
    rw [if_neg]
    rintro hc
    have hl : d.lane = l := by simp_all
    refine h (List.mem_filter.mpr ⟨List.mem_finRange g, ?_⟩)
    obtain ⟨x, hx, hon⟩ := Option.bind_eq_some_iff.mp hd
    rw [hx]
    split at hon
    · cases hon
      exact beq_iff_eq.mpr hl
    · cases hon
  · rfl

theorem digestReady_next {s : State} (hups : s.mem.upsets = []) (l : LaneId) (hrun : running s 2 = true)
    (hon : s.epoch.running = true) (hsync : s.epoch.resync = false) (hphase : s.epoch.phase = .compute ∨ s.epoch.phase = .digest)
    (hdue : (groupsOf s l).any (digestDue s) = true) (hframe : s.weft.ownFrame = none) :
    ∃ t, exec (.digestReady l) s = .next t ∧ (∀ g : GroupId, t.weft.ownDigest[g] = laneDigest s l g) ∧
      t = { s with weft := t.weft } := by
  have hbefore : (decide (s.epoch.phase = .compute) || decide (s.epoch.phase = .digest)) = true := by
    rcases hphase with hp | hp <;> rw [hp] <;> rfl
  have hexec : exec (.digestReady l) s = .next (
      let t := laneDigests s l
      if commitsDecided t && (digestMissing t).isEmpty then sendDigest (withAudit t) else t) := by
    refine (live_of_running _ hrun).trans (congrArg _ ?_)
    rw [hon, hsync, hbefore, hdue, hframe]
    rfl
  have hlane := laneDigests_sound hups l
  have hups' : (laneDigests s l).mem.upsets = [] := by rw [hlane]; exact hups
  generalize laneDigests s l = v at *
  have hkept : DigestKept v (if commitsDecided v && (digestMissing v).isEmpty then sendDigest (withAudit v) else v) :=
    .ite ((digestKept_withAudit hups').trans (digestKept_sendDigest _)) (.refl v)
  refine ⟨_, hexec, fun g => ?_, ?_⟩
  · rw [hkept, hlane]
    exact Vector.getElem_ofFn _
  · rw [hkept, hlane]

/-! ### The deadline of the own digests (R69) -/

/-- A group that is abstained in stays so with another. -/
theorem abstained_of {m : BitVec 16} {i : Nat} (gs : List GroupId) (h : m.getLsbD i = true) :
    (gs.foldl (fun m g => setBit m g.val) m).getLsbD i = true := by
  induction gs generalizing m with
  | nil => exact h
  | cons g gs ih => exact ih (getLsbD_setBit_of _ h)

/-- Every group of a list is abstained in. -/
theorem abstained_of_mem {m : BitVec 16} {gs : List GroupId} {g : GroupId} (hg : g ∈ gs) :
    (gs.foldl (fun m g => setBit m g.val) m).getLsbD g.val = true := by
  induction gs generalizing m with
  | nil => exact absurd hg List.not_mem_nil
  | cons x gs ih =>
    rcases List.mem_cons.mp hg with rfl | hin
    · exact abstained_of gs (getLsbD_setBit_self m g.isLt)
    · exact ih hin

/-- The state as the module abstains in the groups whose digests are missing. -/
def missingAbstained (s : State) : State :=
  let t := { s with epoch := { s.epoch with
    abstainGroups := (digestMissing s).foldl (fun m g => setBit m g.val) s.epoch.abstainGroups } }
  if (digestMissing s).isEmpty then t else epochEvent t 18

theorem missingAbstained_spec (s : State) :
    let t := missingAbstained s
    (∀ g : GroupId, g ∈ digestMissing s → t.epoch.abstainGroups.getLsbD g.val = true) ∧
      (digestMissing s = [] → t.epoch = s.epoch) ∧ t = { s with epoch := t.epoch } := by
  intro t
  have hgroups : t.epoch.abstainGroups = (digestMissing s).foldl (fun m g => setBit m g.val) s.epoch.abstainGroups := by
    unfold t missingAbstained
    dsimp only
    split <;> rfl
  refine ⟨fun g hg => ?_, fun hnone => ?_, ?_⟩
  · rw [hgroups]
    exact abstained_of_mem hg
  · unfold t missingAbstained
    rw [hnone]
    rfl
  · unfold t missingAbstained
    dsimp only
    split <;> rfl

theorem ownDigestDeadline_next {s u : State} (hups : s.mem.upsets = [])
    (h : Instant s u (boundaryNs s.epoch + epochNs s.epoch - 6000)) (hphase : s.epoch.phase = .digest)
    (hstop : s.weft.stopped = false) (hmute : s.rack.mute = false) :
    ∃ t, exec .ownDigestDeadline s = .next t ∧ t.weft.ownFrame.isSome = true ∧
      (∀ g : GroupId, g ∈ digestMissing s → t.epoch.abstainGroups.getLsbD g.val = true) ∧
      (digestMissing s = [] → t.epoch = u.epoch) ∧ t = { u with weft := t.weft, epoch := t.epoch } := by
  have hact : exec .ownDigestDeadline s = .next (if (missingAbstained u).weft.ownFrame.isSome then missingAbstained u
      else sendDigest (withAudit (missingAbstained u))) :=
    h.acts (decide_eq_true hphase) (fun v => if (missingAbstained v).weft.ownFrame.isSome then missingAbstained v
      else sendDigest (withAudit (missingAbstained v)))
  have hmiss : digestMissing u = digestMissing s := by rw [h.rest]; rfl
  obtain ⟨hgroups, hnone, hrest⟩ := missingAbstained_spec u
  rw [hmiss] at hgroups hnone
  have hups' : (missingAbstained u).mem.upsets = [] := by rw [hrest, h.rest]; exact hups
  have hstop' : (missingAbstained u).weft.stopped = false := by rw [hrest, h.rest]; exact hstop
  have hmute' : (missingAbstained u).rack.mute = false := by rw [hrest, h.rest]; exact hmute
  generalize missingAbstained u = v at *
  refine ⟨_, hact, ?_⟩
  cases hf : v.weft.ownFrame.isSome
  · rw [if_neg Bool.false_ne_true]
    have hkept : DigestKept v (sendDigest (withAudit v)) := (digestKept_withAudit hups').trans (digestKept_sendDigest _)
    have hepoch : (sendDigest (withAudit v)).epoch = v.epoch := by rw [hkept]
    have haudit := withAudit_sound hups'
    refine ⟨sendDigest_ownFrame ?_ ?_, fun g hg => ?_, fun hn => ?_, ?_⟩
    · rw [haudit]; exact hstop'
    · rw [haudit]; exact hmute'
    · rw [hepoch]; exact hgroups g hg
    · rw [hepoch]; exact hnone hn
    · rw [hkept, hrest]
  · rw [if_pos rfl]
    exact ⟨hf, hgroups, hnone, by rw [hrest]⟩

end Sys2Proof.Machine

/-! V_c (R100, R102 to R112, R123 to R125): what is decided there stands while the members' states follow. -/

namespace Sys2Proof.Machine

open Sys2Proof

/-- Nothing but the lanes and the members' block changes from `s` to `t`, and what V_c decided stands. -/
def VoteKept (s t : State) : Prop :=
  t = { s with lanes := t.lanes, weft := { t.weft with outcome := s.weft.outcome, auditOutcome := s.weft.auditOutcome
                                                       own := s.weft.own, voters := s.weft.voters
                                                       disagreeRun := s.weft.disagreeRun } }

namespace VoteKept

theorem refl (s : State) : VoteKept s s := rfl

theorem trans {s t u : State} (h : VoteKept s t) (g : VoteKept t u) : VoteKept s u := by
  unfold VoteKept at *
  rw [g, h]

theorem ite {s t u : State} {c : Prop} [Decidable c] (h : VoteKept s t) (g : VoteKept s u) : VoteKept s (if c then t else u) := by
  split
  · exact h
  · exact g

theorem foldl {α : Type} {f : State → α → State} (h : ∀ s x, VoteKept s (f s x)) (s : State) (xs : List α) :
    VoteKept s (xs.foldl f s) := by
  induction xs generalizing s with
  | nil => exact .refl s
  | cons x xs ih => exact (h s x).trans (ih _)

theorem putLink (s : State) (sd : Side) (k : Link) : VoteKept s (putLink s sd k) := by
  cases sd <;> exact rfl

theorem weftEvent (s : State) (n : Nat) : VoteKept s (weftEvent s n) := rfl

theorem mapLanes (s : State) (f : LaneId → Lane → Lane) : VoteKept s (mapLanes s f) := rfl

theorem of_queuedOnly {s t : State} (h : QueuedOnly s t) : VoteKept s t := by
  unfold VoteKept
  rw [h.rest]

end VoteKept

theorem voteKept_condemnSlot (s : State) (slot : Nat) : VoteKept s (condemnSlot s slot) := by
  have hsent := VoteKept.of_queuedOnly (.sendBoth s 0x21 (condemnBytes s slot))
  unfold condemnSlot
  dsimp only
  split
  · exact hsent.trans (.putLink ..)
  · exact hsent

/-- The state as the window of R108 opens. -/
def condemnOpened (s : State) : State :=
  let clear := fun (k : Link) => { k with sentCondemn := false, condemnedBy := false }
  { s with weft := { s.weft with a := clear s.weft.a, b := clear s.weft.b, byA := false, byB := false, condemnedEpoch := false
                                 dissent := dissentMask s } }

theorem voteKept_condemnAll (s : State) : VoteKept s (condemnAll s) := by
  have hopened : VoteKept s (condemnOpened s) := rfl
  have hsent (slots : List Nat) := hopened.trans (.foldl voteKept_condemnSlot (condemnOpened s) slots)
  exact .ite hopened (.trans (hsent _) rfl)

theorem voteKept_receiverDone (s : State) : VoteKept s (receiverDone s) := .ite rfl rfl

theorem voteKept_admitOwn (s : State) : VoteKept s (admitOwn s) := by
  unfold admitOwn
  refine .ite rfl ?_
  dsimp only
  split <;> exact rfl

theorem voteKept_admitLanes (s : State) : VoteKept s (admitLanes s) := .ite rfl (.mapLanes ..)

theorem voteKept_admitPeer (s : State) (source : Bool) (sd : Side) : VoteKept s (admitPeer s source sd) := by
  unfold admitPeer
  refine .ite rfl (.ite (.putLink ..) ?_)
  dsimp only
  split
  · exact .trans (.putLink ..) (.putLink ..)
  · exact .trans (.putLink ..) (.putLink ..)
  · exact .putLink ..

theorem voteKept_notePeerQuiet (s : State) (sd : Side) : VoteKept s (notePeerQuiet s sd) := .ite (.putLink ..) rfl

theorem voteKept_logForeign (s : State) (sd : Side) : VoteKept s (logForeign s sd) := by
  unfold logForeign
  dsimp only
  split
  · exact .ite (.putLink ..) rfl
  · exact rfl

/-- The state once the outcomes, the condemnations and the role are decided. -/
def voteDecided (s : State) : State :=
  let s := condemnAll (decideAll s)
  let next := roleChoice s
  { s with weft := { s.weft with roleNext := next, handover := next == s.slot && roleHandsOver s } }

/-- What follows the count of R110: the admissions, and what the siblings' digests say of them. -/
def voteFollowed (s : State) : State :=
  sides.foldl (fun s sd => logForeign (notePeerQuiet (admitPeer s (sourceFor s (sideSlot s sd)) sd) sd) sd)
    (receiverDone (admitLanes (admitOwn s)))

theorem voteClose_eq (s : State) : voteClose s =
    let t := voteFollowed (noteDisagree (voteDecided s))
    { t with epoch := { t.epoch with phase := .release } } := by
  unfold voteClose voteFollowed voteDecided
  dsimp only

theorem voteKept_voteFollowed (s : State) : VoteKept s (voteFollowed s) :=
  .trans (.trans (voteKept_admitOwn s) (.trans (voteKept_admitLanes _) (voteKept_receiverDone _)))
    (.foldl (fun _ _ => .trans (voteKept_admitPeer ..) (.trans (voteKept_notePeerQuiet ..) (voteKept_logForeign ..))) _ sides)

theorem weftEvent_unless (s : State) (c : Prop) [Decidable c] (n : Nat) : (if c then s else weftEvent s n) =
    { s with weft := { s.weft with event := if c then s.weft.event else setBit s.weft.event n } } := by
  split <;> rfl

theorem decideAll_spec (s : State) :
    let t := decideAll s
    (∀ g : GroupId, t.weft.outcome[g] = (outcomeOf s g).1) ∧ t.weft.auditOutcome = (voteAudit s).1 ∧ t.weft.own = s.weft.own ∧
      t.weft.voters = s.weft.voters ∧ t = { s with weft := t.weft } := by
  have hout (g : GroupId) : (Vector.ofFn fun g => (outcomeOf s g).1)[g] = (outcomeOf s g).1 := Vector.getElem_ofFn _
  unfold decideAll
  simp only [weftEvent_unless, and_true]
  exact hout

/-- The role chosen at V_c changes nothing that the vote decided. -/
theorem voteKept_role (s : State) (next : BitVec 2) (hands : Bool) :
    VoteKept s { s with weft := { s.weft with roleNext := next, handover := hands } } := rfl

theorem voteDecided_spec (s : State) :
    let t := voteDecided s
    (∀ g : GroupId, t.weft.outcome[g] = (outcomeOf s g).1) ∧ t.weft.auditOutcome = (voteAudit s).1 ∧ t.weft.own = s.weft.own ∧
      t.weft.voters = s.weft.voters ∧ t = { s with lanes := t.lanes, weft := t.weft } := by
  obtain ⟨hout, haudit, hown, hvoters, hrest⟩ := decideAll_spec s
  have hkept : VoteKept (decideAll s) (voteDecided s) := (voteKept_condemnAll (decideAll s)).trans (voteKept_role ..)
  generalize voteDecided s = t at *
  generalize decideAll s = v at *
  refine ⟨fun g => ?_, ?_, ?_, ?_, ?_⟩
  · rw [hkept]; exact hout g
  · rw [hkept]; exact haudit
  · rw [hkept]; exact hown
  · rw [hkept]; exact hvoters
  · rw [hkept, hrest]

/-- The count of R110 runs only where this module is one of two voters. -/
theorem disagreeStep_ne_zero {s : State} (h : disagreeStep s ≠ 0) : isVoter s = true ∧ (maskSlots s.weft.voters).length = 2 := by
  unfold disagreeStep at h
  dsimp only at h
  split at h
  · next hc =>
    simp only [Bool.and_eq_true, decide_eq_true_eq] at hc
    exact hc.1
  · exact absurd rfl h

theorem noteDisagree_spec (s : State) :
    let t := noteDisagree s
    t.weft.disagreeRun = disagreeStep s ∧ t = { s with weft := { t.weft with
      outcome := s.weft.outcome, auditOutcome := s.weft.auditOutcome } } := by
  unfold noteDisagree
  dsimp only
  split
  · have hsent := QueuedOnly.sendBoth { s with weft := { s.weft with disagreeRun := disagreeStep s } } 0x22 (leBytes 8 s.epoch.no.toNat)
    rw [hsent.rest]
    exact ⟨rfl, rfl⟩
  · exact ⟨rfl, rfl⟩

theorem voteClose_next {s u : State} (h : Instant s u (boundaryNs s.epoch + epochNs s.epoch - 2000)) (hphase : s.epoch.phase = .digest) :
    ∃ t, exec .voteClose s = .next t ∧ t.epoch = { u.epoch with phase := .release } ∧
      (∀ g : GroupId, t.weft.outcome[g] = (outcomeOf u g).1) ∧ t.weft.auditOutcome = (voteAudit u).1 ∧
      (t.weft.disagreeRun ≠ 0 → isVoter s = true ∧ (maskSlots s.weft.voters).length = 2) ∧
      t = { u with lanes := t.lanes, weft := t.weft, epoch := t.epoch } := by
  obtain ⟨hout, haudit, hown, hvoters, hrest⟩ := voteDecided_spec u
  have hact : exec .voteClose s = .next (voteClose u) := h.acts (decide_eq_true hphase) voteClose
  rw [voteClose_eq] at hact
  have hvoter : isVoter (voteDecided u) = isVoter s := by
    unfold isVoter
    rw [hown, h.rest]
  have hsame : (voteDecided u).weft.voters = s.weft.voters := by rw [hvoters, h.rest]
  generalize voteDecided u = v at *
  obtain ⟨hrun, hnoted⟩ := noteDisagree_spec v
  generalize noteDisagree v = w at *
  have hkept := voteKept_voteFollowed w
  generalize voteFollowed w = t at *
  refine ⟨_, hact, ?_, fun g => ?_, ?_, fun hne => ?_, ?_⟩
  · rw [hkept, hnoted, hrest]
  · rw [hkept, hnoted]; exact hout g
  · rw [hkept, hnoted]; exact haudit
  · rw [← hvoter, ← hsame]
    refine disagreeStep_ne_zero ?_
    rw [← hrun]
    rw [hkept] at hne
    exact hne
  · rw [hkept, hnoted, hrest]

end Sys2Proof.Machine

/-! The start of the active role (R113, R296, R301, R308, R334): what the networks and the rack bus take, and the unit addresses
that each port announces. -/

namespace Sys2Proof.Machine

open Sys2Proof

/-! ### Frames and publications -/

/-- From `s` to `t` the packet engine has been given data to send: of a port only its queues change. -/
structure NetSends (s t : State) : Prop where
  rest : t = { s with pkt := t.pkt, mem := { s.mem with dram := t.mem.dram } }
  ports : ∀ k : Fin 4, t.pkt.port[k] = { s.pkt.port[k] with queue := t.pkt.port[k].queue }

namespace NetSends

theorem refl (s : State) : NetSends s s := ⟨rfl, fun _ => rfl⟩

theorem trans {s t u : State} (h : NetSends s t) (g : NetSends t u) : NetSends s u := by
  refine ⟨?_, fun k => ?_⟩
  · rw [g.rest, h.rest]
  · rw [g.ports k, h.ports k]

theorem ite {s t u : State} {c : Prop} [Decidable c] (h : NetSends s t) (g : NetSends s u) : NetSends s (if c then t else u) := by
  split
  · exact h
  · exact g

theorem foldl {α : Type} {f : State → α → State} (h : ∀ s x, NetSends s (f s x)) (s : State) (xs : List α) :
    NetSends s (xs.foldl f s) := by
  induction xs generalizing s with
  | nil => exact .refl s
  | cons x xs ih => exact (h s x).trans (ih _)

theorem enqueue (s : State) (p : Fin 4) (q : Nat) (f : EthFrame) : NetSends s (enqueue s p q f) := by
  refine ⟨?_, (messaged_enqueue s p q f).ports⟩
  unfold Machine.enqueue
  dsimp only
  split <;> rfl

end NetSends

theorem netSends_streamTake (s : State) (n : Nat) : NetSends s (streamTake s n).1 := by
  unfold streamTake
  split
  · exact ⟨rfl, fun _ => rfl⟩
  · exact .refl s

theorem netSends_publishOne (s : State) (i : Nat) (d : Publication) (m : Nat) : NetSends s (publishOne s i d m) :=
  .trans (netSends_streamTake s d.stream) (.foldl (fun s p => .enqueue s p _ _) _ _)

theorem netSends_publishAll (s : State) (unit : Bool) : NetSends s (publishAll s unit) :=
  .foldl (fun s _ => .ite (netSends_publishOne ..) (.refl s)) s _

theorem netSends_mvbSources (s : State) (unit : Bool) : NetSends s (mvbSources s unit) := ⟨rfl, fun _ => rfl⟩

theorem netSends_canObjects (s : State) (unit : Bool) : NetSends s (canObjects s unit) := ⟨rfl, fun _ => rfl⟩

theorem netSends_publishScope (s : State) (unit : Bool) : NetSends s (publishScope s unit) :=
  .trans (.ite (netSends_publishAll s unit) (.refl s)) (.trans (netSends_mvbSources ..) (netSends_canObjects ..))

theorem netSends_outboxRecord (s : State) (r : List Byte) (scope : Bool → Bool) : NetSends s (outboxRecord s r scope) := by
  unfold outboxRecord
  dsimp only
  split
  · refine .ite (.refl s) ?_
    split
    · exact ⟨rfl, fun _ => rfl⟩
    · exact .enqueue ..
  · exact .refl s

theorem netSends_outboxRun (k : Nat) (s : State) (bs : List Byte) (scope : Bool → Bool) :
    NetSends s (outboxRun k s bs scope) := by
  induction k generalizing s bs with
  | zero => exact .refl s
  | succ k ih => exact .ite (.refl s) (.trans (netSends_outboxRecord ..) (ih _ _))

theorem netSends_outboxSend (s : State) (scope : Bool → Bool) : NetSends s (outboxSend s scope) := by
  unfold outboxSend
  split
  · exact .ite (netSends_outboxRun ..) (.refl s)
  · exact .refl s

/-! ### Unit addresses (R296) -/

/-- A frame to every station. -/
def broadcast (f : EthFrame) : Prop := f.bytes.take 6 = List.replicate 6 0xFF

/-- A port that announces its unit address: it takes frames and has one. -/
def announces (x : EthPort) : Prop := x.en = true ∧ x.shed = false ∧ x.unitIp ≠ 0

theorem NetSends.announces {s t : State} (h : NetSends s t) {p : Fin 4} (ha : announces s.pkt.port[p]) :
    announces t.pkt.port[p] := by
  rw [h.ports p]
  exact ha

theorem netSends_gratuitousArp (s : State) (p : Fin 4) : NetSends s (gratuitousArp s p) := .ite (.refl s) (.enqueue ..)

/-- A queued frame stays queued with another. -/
theorem mem_enqueue_of_mem {s : State} {k : Fin 4} {f : EthFrame} (p : Fin 4) (g : EthFrame) (hf : f ∈ s.pkt.port[k].queue[0]) :
    f ∈ (enqueue s p 0 g).pkt.port[k].queue[0] := by
  unfold enqueue
  dsimp only
  split
  · by_cases hk : p = k
    · subst hk
      simp only [putPort, Nat.zero_mod, Fin.getElem_fin, Vector.getElem_set_self]
      exact List.mem_append_left _ hf
    · simpa [putPort, Fin.val_ne_of_ne hk] using hf
  · exact hf

theorem mem_gratuitousArp_of_mem {s : State} {k : Fin 4} {f : EthFrame} (p : Fin 4) (hf : f ∈ s.pkt.port[k].queue[0]) :
    f ∈ (gratuitousArp s p).pkt.port[k].queue[0] := by
  unfold gratuitousArp
  dsimp only
  split
  · exact hf
  · exact mem_enqueue_of_mem p _ hf

/-- A port that takes frames queues the frame. -/
theorem mem_enqueue {s : State} {p : Fin 4} (f : EthFrame) (h : portTakes s.pkt.port[p] = true) :
    f ∈ (enqueue s p 0 f).pkt.port[p].queue[0] := by
  unfold enqueue
  dsimp only
  rw [if_pos h]
  simp [putPort]

theorem broadcast_ethFrame (src : Nat) (type : Nat) (body : List Byte) (pub : Option (Nat × Nat)) (x) :
    broadcast ⟨ethFrame 0xFFFFFFFFFFFF src none none type body, pub, x⟩ := by
  have hlen : (beBytes 6 0xFFFFFFFFFFFF).length = 6 := by decide
  have hff : beBytes 6 0xFFFFFFFFFFFF = List.replicate 6 0xFF := by decide
  unfold broadcast ethFrame
  simp only [List.append_assoc]
  rw [List.take_left' hlen, hff]

theorem gratuitousArp_announces {s : State} {p : Fin 4} (h : announces s.pkt.port[p]) :
    ∃ f ∈ (gratuitousArp s p).pkt.port[p].queue[0], broadcast f := by
  obtain ⟨hen, hshed, hip⟩ := h
  unfold gratuitousArp
  dsimp only
  rw [if_neg hip]
  exact ⟨_, mem_enqueue _ (by rw [portTakes, hen, hshed]; rfl), broadcast_ethFrame ..⟩

/-- Every port of a list that has a unit address announces it. -/
theorem gratuitousArps_announce {s : State} {p : Fin 4} (ps : List (Fin 4)) (hp : p ∈ ps) (h : announces s.pkt.port[p]) :
    ∃ f ∈ (ps.foldl gratuitousArp s).pkt.port[p].queue[0], broadcast f := by
  have hstays : ∀ (ps : List (Fin 4)) (s : State) f, f ∈ s.pkt.port[p].queue[0] → f ∈ (ps.foldl gratuitousArp s).pkt.port[p].queue[0] := by
    intro ps
    induction ps with
    | nil => exact fun _ _ hf => hf
    | cons q ps ih => exact fun s f hf => ih _ f (mem_gratuitousArp_of_mem q hf)
  induction ps generalizing s with
  | nil => exact absurd hp List.not_mem_nil
  | cons q ps ih =>
    rcases List.mem_cons.mp hp with rfl | hin
    · obtain ⟨f, hf, hb⟩ := gratuitousArp_announces h
      exact ⟨f, hstays ps _ f hf, hb⟩
    · exact ih hin ((netSends_gratuitousArp s q).announces h)

/-! ### The rack write list (R334) -/

theorem rackOnly_feedList (k : Nat) (s : State) : RackOnly s (feedList k s) := by
  induction k generalizing s with
  | zero => exact .refl s
  | succ k ih =>
    unfold feedList
    split
    · exact .refl s
    · exact .ite (.trans (.put s _) (ih _)) (.ite (.trans (.put s _) (ih _)) (.refl s))

theorem rackOnly_feedService (s : State) (i : Nat) : RackOnly s (feedService s i) := by
  unfold feedService
  refine .ite (.refl s) ?_
  split
  · exact .ite (.refl s) (.put s _)
  · exact .refl s

theorem rackOnly_feedScan (s : State) : RackOnly s (feedScan s) := by
  unfold feedScan
  dsimp only
  refine .ite (.refl s) ?_
  split
  · exact .refl s
  · split
    · exact .put s _
    · exact .refl s

theorem RackOnly.foldl {α : Type} {f : State → α → State} (h : ∀ s x, RackOnly s (f s x)) (s : State) (xs : List α) :
    RackOnly s (xs.foldl f s) := by
  induction xs generalizing s with
  | nil => exact .refl s
  | cons x xs ih => exact (h s x).trans (ih _)

theorem rackOnly_rackGo (s : State) : RackOnly s (rackGo s) :=
  .trans (rackOnly_feedList 513 s) (.trans (.foldl rackOnly_feedService _ _)
    (.trans (rackOnly_feedScan _) (rackOnly_rackPump _)))

/-- The bridge as a release finds it: what is left of the last write list is discarded and counted (R334). -/
def listDropped (s : State) : State :=
  let left := s.rack.writeList.length + (s.rack.outQueue.filter (·.writeList)).length
  let t := { s with rack := { s.rack with writeList := [], outQueue := s.rack.outQueue.filter (fun a => !a.writeList)
                                          wlDiscard := satAdd s.rack.wlDiscard left } }
  if left = 0 then t else rackEvent t 2

theorem rackRelease_eq (s : State) (epoch : Word) (bytes : List Byte) : rackRelease s epoch bytes =
    let rs := listRecords (bytes.length / 16) bytes
    let t := listDropped s
    if rackLists s then rackGo { t with rack := { t.rack with writeList := rs, wlEpoch := epoch } }
    else if s.rack.en && s.rack.shared && !s.rack.failed then
      let rack := (rs.filter (·.2.2.2)).foldl (fun b r => shmWrite b r.1.toNat r.2.2.1 r.2.1) t.rack
      { t with rack := { rack with expect := (rs.filter (fun r => !r.2.2.2)).map (fun r => (r.1, r.2.1, r.2.2.1)) } }
    else t := by
  unfold rackRelease listDropped
  dsimp only

theorem rackOnly_rackRelease (s : State) (epoch : Word) (bytes : List Byte) : RackOnly s (rackRelease s epoch bytes) := by
  have hdropped : RackOnly s (listDropped s) := .ite (.put s _) (.put s _)
  rw [rackRelease_eq]
  dsimp only
  generalize listDropped s = t at *
  exact hdropped.trans (.ite (.trans (.put t _) (rackOnly_rackGo _)) (.ite (.put t _) (.refl t)))

theorem rackOnly_rackBoundary (s : State) (epoch : Word) : RackOnly s (rackBoundary s epoch) := by
  unfold rackBoundary
  split
  · exact .ite (.refl s) (rackOnly_rackRelease ..)
  · exact .refl s

end Sys2Proof.Machine

/-! The instants from the warning to the vote, and the start of the active role, each against its clause of O31. -/

namespace Sys2Proof.Machine

open Sys2Proof

/-- What a holder does before the rack bridge as it starts: its data of unit scope, and its unit addresses. -/
def roleSends (s : State) : State :=
  ([0, 1, 2, 3] : List (Fin 4)).foldl gratuitousArp (outboxSend (publishScope s true) id)

theorem netSends_roleSends (s : State) : NetSends s (roleSends s) :=
  .trans (netSends_publishScope s true) (.trans (netSends_outboxSend _ id) (.foldl netSends_gratuitousArp _ _))

theorem mem_ports : ∀ p : Fin 4, p ∈ ([0, 1, 2, 3] : List (Fin 4)) := by decide

theorem roleSends_announce {s : State} {p : Fin 4} (h : announces s.pkt.port[p]) :
    ∃ f ∈ (roleSends s).pkt.port[p].queue[0], broadcast f := by
  unfold roleSends
  refine gratuitousArps_announce _ (mem_ports p) ?_
  exact ((netSends_publishScope s true).trans (netSends_outboxSend _ id)).announces h

/-- The active role has started. -/
def roleBegun (s : State) : State := { s with weft := { s.weft with roleStarted := true } }

/-- The rack bridge of a holder that starts: a SHARED bus takes the write list of the last boundary. -/
def roleRack (s : State) : State := if s.rack.shared then rackBoundary s (s.epoch.no - 1) else s

theorem rackOnly_roleRack (s : State) : RackOnly s (roleRack s) := .ite (rackOnly_rackBoundary ..) (.refl s)

theorem execRoleStart_eq (s : State) :
    execRoleStart s = live s 2 (if mayStartRole s then roleRack (roleSends (roleBegun s)) else s) := by
  unfold execRoleStart roleRack roleSends roleBegun
  dsimp only

theorem exec_roleStart {s : State} (hrun : running s 2 = true) (hmay : mayStartRole s = true) :
    exec .roleStart s = .next (roleRack (roleSends (roleBegun s))) := by
  change execRoleStart s = _
  rw [execRoleStart_eq, hmay, if_pos rfl, live_of_running _ hrun]

/-- The sends of a role that starts, and the rack bridge after them. -/
theorem roleStart_rest {s v t : State} (hv : NetSends (roleBegun s) v) (ht : RackOnly v t) :
    t.weft = { s.weft with roleStarted := true } ∧ t.lanes = s.lanes ∧ t.mem = { s.mem with dram := t.mem.dram } ∧
      t.time = s.time ∧ t.fio = s.fio ∧ t.safe = s.safe ∧ t.pkt = v.pkt := by
  have hrest := hv.rest
  unfold roleBegun at hrest
  unfold RackOnly at ht
  refine ⟨?_, ?_, ?_, ?_, ?_, ?_, by rw [ht]⟩ <;> rw [ht, hrest]

theorem roleStart_next {s : State} (hrun : running s 2 = true) (hmay : mayStartRole s = true) :
    ∃ t, exec .roleStart s = .next t ∧ t.weft = { s.weft with roleStarted := true } ∧ t.lanes = s.lanes ∧
      t.mem = { s.mem with dram := t.mem.dram } ∧ t.time = s.time ∧ t.fio = s.fio ∧ t.safe = s.safe ∧
      (∀ p : Fin 4, announces s.pkt.port[p] → ∃ f ∈ t.pkt.port[p].queue[0], broadcast f) := by
  have hexec := exec_roleStart hrun hmay
  have hsends := netSends_roleSends (roleBegun s)
  have harp (p : Fin 4) (h : announces s.pkt.port[p]) := roleSends_announce (s := roleBegun s) h
  generalize roleSends (roleBegun s) = v at *
  obtain ⟨hweft, hlanes, hmem, htime, hfio, hsafe, hpkt⟩ := roleStart_rest hsends (rackOnly_roleRack v)
  refine ⟨_, hexec, hweft, hlanes, hmem, htime, hfio, hsafe, fun p h => ?_⟩
  rw [hpkt]
  exact harp p h

/-- COMMIT_LATE is pending in a core that has not yielded, whichever it is (R196). -/
theorem coreOf_lateCores (ln : Lane) (c : CoreSel) : coreOf (lateCores ln) c = lateCore (coreOf ln c) := by
  cases c <;> rfl

/-- A lane in COMPUTE at its deadline is LATE, and COMMIT_LATE is pending in its cores. -/
theorem lateLane_compute_spec {ln : Lane} (h : ln.epochState = .compute) :
    (lateLane ln).epochState = .late ∧ (ln.staleRejected = false → (lateLane ln).ovrCnt = satInc ln.ovrCnt) ∧
      ∀ c, (coreOf ln c).suspended = false → (coreOf (lateLane ln) c).cr.status = (coreOf ln c).cr.status ||| 0b10000 := by
  rw [lateLane_of_compute h]
  refine ⟨rfl, fun hs => if_neg (by rw [hs]; exact Bool.false_ne_true), fun c hc => ?_⟩
  have hcore : coreOf { ln with epochState := .late, ovrCnt := if ln.staleRejected then ln.ovrCnt else satInc ln.ovrCnt } c
      = coreOf ln c := by cases c <;> rfl
  rw [coreOf_lateCores, hcore, lateCore, hc]
  rfl

/-- Settles O31: each instant acts once TB2 has reached it, by what its event makes of the lanes, the digests and the outcomes. -/
theorem commitVoteInstants : Obligations.CommitVoteInstants := by
  intro s u hups
  refine ⟨fun h hphase => ?_, fun h hphase => ?_, fun l hrun hon hsync hphase hdue hframe => ?_, ownDigestDeadline_next hups,
    voteClose_next, fun hrun hmay => ?_⟩
  · obtain ⟨t, hexec, hlane, hrest⟩ := budgetWarning_next h hphase
    refine ⟨t, hexec, fun l hl => ?_, fun l c hl => ?_, hrest⟩
    · rw [hlane, warnedLane, if_neg hl]
    · exact (congrArg (fun ln => coreOf ln c) (hlane l)).trans (coreOf_warnedLane hl c)
  · obtain ⟨t, hexec, hdigest, hlane, hevent, hrest⟩ := commitDeadline_next h hphase
    refine ⟨t, hexec, hdigest, fun l hl => ?_, fun l hc hl => ?_, hrest⟩
    · obtain ⟨hlate, hcount, hstatus⟩ := lateLane_compute_spec hl
      simp only [coreAt, hlane]
      exact ⟨hlate, fun hs => ⟨hcount hs, hevent l (by simp [overran, hl, hs])⟩, hstatus⟩
    · rw [hlane, lateLane_of_other hc hl]
  · obtain ⟨t, hexec, hdigests, hrest⟩ := digestReady_next hups l hrun hon hsync hphase hdue hframe
    refine ⟨t, hexec, fun g d hg hl hd => ?_, fun g hg => ?_, hrest⟩
    · rw [hdigests, laneDigest_of_due hg hl hd]
    · rw [hdigests, laneDigest_of_not_mem hg]
  · obtain ⟨t, hexec, hweft, hlanes, hmem, htime, hfio, hsafe, harp⟩ := roleStart_next hrun hmay
    exact ⟨t, hexec, hweft, hlanes, hmem, htime, hfio, hsafe, fun p hen hshed hip => harp p ⟨hen, hshed, hip⟩⟩

end Sys2Proof.Machine

/-! What a boundary says of the sequence of epochs (Table 2.15), and how it is carried through conditions, folds and updates of
everything else. -/

namespace Sys2Proof.Machine

open Sys2Proof

/-- The epoch and its steps so far, what has been asked for the next boundary, and when that is due. -/
structure Sequence where
  /-- Number of the epoch. -/
  no : Word
  /-- Number of the next one. -/
  next : Nat
  /-- Phase. -/
  phase : Phase
  /-- No epoch has begun since a step of TB2. -/
  resync : Bool
  /-- The seal has come. -/
  sealed : Bool
  /-- Raw close has come. -/
  rawClosed : Bool
  /-- The exchange end has come. -/
  exchanged : Bool
  /-- The source set is known. -/
  sourced : Bool
  /-- Warning lead of the epoch. -/
  warnLead : U16
  /-- Warning lead from the next boundary on. -/
  warnNext : Option U16
  /-- Counters to clear at the next boundary. -/
  clearReq : Option ClearReq
  /-- Withdrawal asked for. -/
  withdrawReq : Bool
  /-- Rejoin asked for. -/
  rejoinReq : Bool

/-- The sequence of epochs in a state. -/
def sequence (s : State) : Sequence :=
  ⟨s.epoch.no, s.epoch.next, s.epoch.phase, s.epoch.resync, s.epoch.sealed, s.epoch.rawClosed, s.epoch.exchanged,
    s.epoch.sourced, s.epoch.warnLead, s.epoch.warnNext, s.epoch.clearReq, s.weft.withdrawReq, s.weft.rejoinReq⟩

/-- An update of the other blocks keeps the sequence. -/
@[simp] theorem sequence_mk (x : State)
    (lanes mem time check mor dbg mbox pkt route rack fio safe muslin power boot sec otp maps slot slotPins readData
    freeCtr pending) :
    sequence (.mk lanes x.epoch mem time check mor dbg x.weft mbox pkt route rack fio safe muslin power boot sec otp
    maps slot slotPins readData freeCtr pending) = sequence x := rfl

/-- An update of the rest of the sequencer keeps it. -/
@[simp] theorem sequence_mk_epoch (x : State)
    (lanes mem time check mor dbg mbox pkt route rack fio safe muslin power boot sec otp maps slot slotPins readData
    freeCtr pending eNoHi ePeriod eK0 eK1 eK2 eK3 eRunning eSealNs eEvent eIntEn eLateItems eRawBytes eItems
    eClosing eRawItems eRawLate eRawOversize eAbstainAll eAbstainGroups eNoRaw eStatus) :
    sequence (.mk lanes (.mk x.epoch.no eNoHi ePeriod eK0 eK1 eK2 eK3 x.epoch.warnLead x.epoch.warnNext
    x.epoch.phase eRunning eSealNs x.epoch.sealed x.epoch.rawClosed eEvent eIntEn eLateItems eRawBytes
    x.epoch.clearReq eItems eClosing eRawItems eRawLate eRawOversize eAbstainAll eAbstainGroups eNoRaw x.epoch.next
    x.epoch.resync x.epoch.exchanged x.epoch.sourced eStatus) mem time check mor dbg x.weft mbox pkt route rack fio
    safe muslin power boot sec otp maps slot slotPins readData freeCtr pending) = sequence x := rfl

/-- An update of the rest of the members' block keeps it. -/
@[simp] theorem sequence_mk_weft (x : State)
    (lanes mem time check mor dbg mbox pkt route rack fio safe muslin power boot sec otp maps slot slotPins readData
    freeCtr pending wLinkAEn wLinkBEn wLevelMax wA wB wOwn wVoters wRoleSlot wRoleNext wRoleStarted wHandover
    wSources wDisagreeRun wVoteGen wOutcome wReleased wSafe wHold wLatched wEverReleased wLastReleased wOwnDigest
    wOwnAudit wOwnFrame wOwnEqual wAuditOutcome wAuditEqual wByA wByB wStuck0 wStuck1 wExcludedNow wExclTimes
    wCondemnedEpoch wEvent wIntEn wCuReceiver wCuPeer wCuStaged wCuComplete wCuAgain wAdmitCount wCuBlocks
    wFormSource wDissentCnt wNdCnt wTb2Synced wResumeMask wClearMask wBothDown wOutOfSet wStopped wAbstainNext
    wCurrent wDissent wUnitSafeDone wExclFinal wViaForm) :
    sequence (.mk lanes x.epoch mem time check mor dbg (.mk wLinkAEn wLinkBEn wLevelMax wA wB wOwn wVoters wRoleSlot
    wRoleNext wRoleStarted wHandover wSources wDisagreeRun wVoteGen wOutcome wReleased wSafe wHold wLatched
    wEverReleased wLastReleased wOwnDigest wOwnAudit wOwnFrame wOwnEqual wAuditOutcome wAuditEqual wByA wByB wStuck0
    wStuck1 wExcludedNow wExclTimes wCondemnedEpoch wEvent wIntEn wCuReceiver wCuPeer wCuStaged wCuComplete wCuAgain
    wAdmitCount wCuBlocks wFormSource wDissentCnt wNdCnt wTb2Synced x.weft.withdrawReq x.weft.rejoinReq wResumeMask
    wClearMask wBothDown wOutOfSet wStopped wAbstainNext wCurrent wDissent wUnitSafeDone wExclFinal wViaForm) mbox
    pkt route rack fio safe muslin power boot sec otp maps slot slotPins readData freeCtr pending) = sequence x :=
    rfl

@[simp] theorem sequence_ite (c : Prop) [Decidable c] (a b : State) :
    sequence (if c then a else b) = if c then sequence a else sequence b := by
  split <;> rfl

@[simp] theorem sequence_foldl {α : Type} (f : State → α → State) (h : ∀ s x, sequence (f s x) = sequence s) (l : List α)
    (s : State) : sequence (l.foldl f s) = sequence s := by
  induction l generalizing s with
  | nil => rfl
  | cons x r ih => rw [List.foldl_cons, ih, h]

/-! ### What only sends, queues or records -/

theorem Messaged.sequence {s t : State} (h : Messaged s t) : sequence t = sequence s := by
  rw [h.rest]
  rfl

theorem RackOnly.sequence {s t : State} (h : RackOnly s t) : sequence t = sequence s := by
  unfold RackOnly at h
  rw [h]
  rfl

theorem NetSends.sequence {s t : State} (h : NetSends s t) : sequence t = sequence s := by
  rw [h.rest]
  rfl

theorem QueuedOnly.sequence {s t : State} (h : QueuedOnly s t) : sequence t = sequence s := by
  rw [h.rest]
  rfl

@[simp] theorem mboxAuto_sequence (s : State) : sequence (mboxAuto s) = sequence s :=
  (messagedClosed_mboxAutoN 24 s).messaged.sequence

@[simp] theorem finishLong_sequence (s : State) (i : Nat) (a : Answer) : sequence (finishLong s i a) = sequence s :=
  (messagedClosed_finishLong s i a).messaged.sequence

@[simp] theorem queueItem_sequence (s : State) (stamp source sub : Nat) (body : List Byte) (mark : List Byte → List Byte) :
    sequence (queueItem s stamp source sub body mark) = sequence s :=
  (rackOnly_queueItem ..).sequence

@[simp] theorem rackLog_sequence (s : State) (e : RackLog) : sequence (rackLog s e) = sequence s := (rackOnly_rackLog s e).sequence

@[simp] theorem rackBreak_sequence (s : State) : sequence (rackBreak s) = sequence s := (rackOnly_rackBreak s).sequence

@[simp] theorem rackBreakLane_sequence (s : State) (l : LaneId) : sequence (rackBreakLane s l) = sequence s :=
  (rackOnly_rackBreakLane s l).sequence

@[simp] theorem rackForget_sequence (s : State) (l : LaneId) : sequence (rackForget s l) = sequence s := (RackOnly.put s _).sequence

@[simp] theorem putPair_sequence (s : State) (i : Nat) (p : MailPair) : sequence (putPair s i p) = sequence s := rfl

@[simp] theorem rackBoundary_sequence (s : State) (epoch : Word) : sequence (rackBoundary s epoch) = sequence s :=
  (rackOnly_rackBoundary s epoch).sequence

@[simp] theorem publishScope_sequence (s : State) (unit : Bool) : sequence (publishScope s unit) = sequence s :=
  (netSends_publishScope s unit).sequence

@[simp] theorem outboxSend_sequence (s : State) (scope : Bool → Bool) : sequence (outboxSend s scope) = sequence s :=
  (netSends_outboxSend s scope).sequence

@[simp] theorem gratuitousArp_sequence (s : State) (p : Fin 4) : sequence (gratuitousArp s p) = sequence s :=
  (netSends_gratuitousArp s p).sequence

@[simp] theorem sendSide_sequence (s : State) (sd : Side) (type : Nat) (payload : List Byte) :
    sequence (sendSide s sd type payload) = sequence s :=
  (QueuedOnly.sendSide s sd type payload).sequence

@[simp] theorem sendRaw_sequence (s : State) (off n : Nat) : sequence (sendRaw s off n) = sequence s :=
  (QueuedOnly.sendRaw s off n).sequence

@[simp] theorem record_sequence (s : State) (source : Nat) (code : U16) (lane : Nat) (data : List Byte) :
    sequence (record s source code lane data) = sequence s := by
  rw [record_rest, sequence_mk]

@[simp] theorem recordBit_sequence (s : State) (block off bit value lane : Nat) (detail : List Byte) :
    sequence (recordBit s block off bit value lane detail) = sequence s :=
  record_sequence ..


end Sys2Proof.Machine

/-! Each part of a boundary keeps the sequence of epochs: what ends the epoch, and what the new one latches, sends and serves.
The operations stand in the order in which the parts call them. -/

namespace Sys2Proof.Machine

open Sys2Proof

/-! ### The rack bridge, and the outputs that go safe (R109, R333) -/

@[simp] theorem rackScanEnd_sequence (s : State) : sequence (rackScanEnd s) = sequence s := by
  unfold rackScanEnd
  dsimp only
  repeat' split
  all_goals simp [rackEvent]

@[simp] theorem weftEvent_sequence (s : State) (bit : Nat) : sequence (weftEvent s bit) = sequence s := by simp [weftEvent]

@[simp] theorem pktEvent_sequence (s : State) (bit : Nat) : sequence (pktEvent s bit) = sequence s := by simp [pktEvent]

@[simp] theorem dropUnsent_sequence (s : State) : sequence (dropUnsent s) = sequence s := by simp [dropUnsent]

@[simp] theorem putLink_sequence (s : State) (sd : Side) (k : Link) : sequence (putLink s sd k) = sequence s := by
  unfold putLink
  split <;> simp

@[simp] theorem rackDeliver_sequence (s : State) (a : OutAccess) (code : Nat) :
    sequence (rackDeliver s a code) = sequence s := by
  unfold rackDeliver
  repeat' split
  all_goals simp [scanResult]

@[simp] theorem rackAbort_sequence (s : State) : sequence (rackAbort s) = sequence s := by
  unfold rackAbort
  dsimp only
  rw [sequence_foldl _ (fun s x => by simp)]
  simp

@[simp] theorem fioEvent_sequence (s : State) (bit : Nat) : sequence (fioEvent s bit) = sequence s := by simp [fioEvent]

@[simp] theorem frameClear_sequence (s : State) (w : Fin 2 → Word) (hot : U32) :
    sequence (frameClear s w hot) = sequence s := by
  unfold frameClear
  dsimp only
  split <;> simp

@[simp] theorem applyRelease_sequence (s : State) (w0 w1 : Word) (hot : U32) :
    sequence (applyRelease s w0 w1 hot) = sequence s := by
  simp [applyRelease, frameRearm, putGroup]

@[simp] theorem fioSafe_sequence (s : State) : sequence (fioSafe s) = sequence s := by
  unfold fioSafe
  dsimp only
  rw [sequence_mk, applyRelease_sequence]

@[simp] theorem outState_sequence (s : State) (n : Fin 8) (st : SafeOutState) :
    sequence (outState s n st) = sequence s := by
  simp [outState, safeItem, safeEvent, putOut]

@[simp] theorem outDemand_sequence (s : State) (n : Fin 8) : sequence (outDemand s n) = sequence s := by
  unfold outDemand
  split <;> simp

@[simp] theorem outputsOff_sequence (s : State) : sequence (outputsOff s) = sequence s := by simp [outputsOff, safeDemand]

/-! ### Vote states (R116, Table 3.15) -/

@[simp] theorem toVote_sequence (s : State) (v : VoteState) : sequence (toVote s v) = sequence s := by simp [toVote]

@[simp] theorem mapLanes_sequence (s : State) (f : LaneId → Lane → Lane) : sequence (mapLanes s f) = sequence s := by
  simp [mapLanes]

@[simp] theorem enterCatchup_sequence (s : State) : sequence (enterCatchup s) = sequence s := by simp [enterCatchup]

@[simp] theorem voterNext_sequence (s : State) (m : MemberView) : sequence (voterNext s m) = sequence s := by
  unfold voterNext
  dsimp only
  repeat' split
  all_goals simp [enterUnitSafe]

@[simp] theorem allCaughtUp_sequence (s : State) : sequence (allCaughtUp s) = sequence s := by simp [allCaughtUp]

@[simp] theorem reachStep_sequence (s : State) (n : Nat) : sequence (reachStep s n) = sequence s := by simp [reachStep]

@[simp] theorem enterAdmitting_sequence (s : State) : sequence (enterAdmitting s) = sequence s := by simp [enterAdmitting]

@[simp] theorem enterVoter_sequence (s : State) : sequence (enterVoter s) = sequence s := by simp [enterVoter]

@[simp] theorem leaveExcluded_sequence (s : State) : sequence (leaveExcluded s) = sequence s := by simp [leaveExcluded]

@[simp] theorem ownNext_sequence (s : State) (m : MemberView) : sequence (ownNext s m) = sequence s := by
  simp only [ownNext]
  repeat' split
  all_goals simp_all

@[simp] theorem members_sequence (s : State) : sequence (members s) = sequence s := by simp [members]

@[simp] theorem noteLinksDown_sequence (s : State) : sequence (noteLinksDown s) = sequence s := by simp [noteLinksDown]

/-! ### Wrong words that a read meets (Table 6.7) -/

@[simp] theorem laneEvent_sequence (s : State) (bit : Nat) : sequence (laneEvent s bit) = sequence s := by simp [laneEvent]

@[simp] theorem putLane_sequence (s : State) (l : LaneId) (ln : Lane) : sequence (putLane s l ln) = sequence s := by
  simp [putLane]

@[simp] theorem stopLane_sequence (s : State) (l : LaneId) : sequence (stopLane s l) = sequence s := by
  simp [stopLane, abstainLane, abstainIn]

@[simp] theorem memStopLane_sequence (s : State) (l : LaneId) : sequence (memStopLane s l) = sequence s := by
  unfold memStopLane
  split <;> simp

@[simp] theorem takeFree_sequence (s : State) : sequence (takeFree s).2 = sequence s := by simp [takeFree]

@[simp] theorem selvedgeFail_sequence (s : State) :
    sequence (selvedgeFail s) = sequence s := by simp [selvedgeFail, recordOpen]

@[simp] theorem memStaging_sequence (s : State) (a : Nat) : sequence (memStaging s a) = sequence s := by
  simp only [memStaging]
  repeat' split
  all_goals simp_all

@[simp] theorem memTcm_sequence (s : State) (o : Nat) : sequence (memTcm s o) = sequence s := by
  unfold memTcm
  split <;> simp

@[simp] theorem epochEvent_sequence (s : State) (bit : Nat) : sequence (epochEvent s bit) = sequence s := by
  simp [epochEvent]

@[simp] theorem rejectStale_sequence (s : State) (l : LaneId) : sequence (rejectStale s l) = sequence s := by
  unfold rejectStale
  dsimp only
  split <;> simp

@[simp] theorem abstainEpoch_sequence (s : State) : sequence (abstainEpoch s) = sequence s := by simp [abstainEpoch]

@[simp] theorem memImage_sequence (s : State) : sequence (memImage s) = sequence s := by
  have hfold : sequence ((List.finRange 8).foldl rejectStale (abstainEpoch s)) = sequence s := by simp
  unfold memImage
  generalize (List.finRange 8).foldl rejectStale (abstainEpoch s) = v at *
  exact hfold

@[simp] theorem memOutput_sequence (s : State) (o : Nat) : sequence (memOutput s o) = sequence s := by
  unfold memOutput
  rfl

@[simp] theorem dropUncommitted_sequence (s : State) : sequence (dropUncommitted s) = sequence s := by
  simp [dropUncommitted]

@[simp] theorem memReject_sequence (s : State) (l : LaneId) (b : Option Nat) : sequence (memReject s l b) = sequence s := by
  simp only [memReject]
  repeat' split
  all_goals simp_all

@[simp] theorem memRetained_sequence (s : State) (b : Nat) : sequence (memRetained s b) = sequence s := by
  unfold memRetained
  split <;> simp

@[simp] theorem memEffect_sequence (s : State) (x : MemLoc) (dirty : Bool) :
    sequence (memEffect s x dirty) = sequence s := by
  unfold memEffect
  repeat' split
  all_goals simp [memPacket, memExchange]

@[simp] theorem memRecord_sequence (s : State) (x : MemLoc) (uncorrectable : Bool) :
    sequence (memRecord s x uncorrectable) = sequence s := by
  simp [memRecord]

@[simp] theorem meetOne_sequence (s : State) (u : Upset) : sequence (meetOne s u) = sequence s := by
  unfold meetOne
  dsimp only
  repeat' split
  all_goals simp [memUncorrectable, memCorrected]

@[simp] theorem touch_sequence (s : State) (area o n : Nat) :
    sequence (touch s area o n) = sequence s := by simp [touch, meet]

@[simp] theorem areaReads_sequence (s : State) : sequence (areaReads s) = sequence s := by
  unfold areaReads
  dsimp only
  rw [sequence_foldl]
  · simp
  · intro s l
    split <;> simp

/-! ### Lanes (Table 2.8) -/

@[simp] theorem exchangeLane_sequence (s : State) (l : LaneId) : sequence (exchangeLane s l) = sequence s := by
  simp [exchangeLane]

@[simp] theorem commitRetained_sequence (s : State) : sequence (commitRetained s) = sequence s := by simp [commitRetained]

@[simp] theorem resetLanePairs_sequence (s : State) (l : LaneId) : sequence (resetLanePairs s l) = sequence s := by
  simp [resetLanePairs]

@[simp] theorem laneRestart_sequence (s : State) (l : LaneId) : sequence (laneRestart s l) = sequence s := by
  unfold laneRestart
  split <;> simp [loadLane, bindContexts]

@[simp] theorem laneBoundary_sequence (wait : Bool) (s : State) (l : LaneId) :
    sequence (laneBoundary wait s l) = sequence s := by
  simp only [laneBoundary]
  repeat' split
  all_goals simp_all

@[simp] theorem lanesBoundary_sequence (s : State) :
    sequence (lanesBoundary s) = sequence s := by simp [lanesBoundary, laneAdmitted]

/-! ### Released values (R104, R105, Table 3.13) -/

@[simp] theorem releaseAll_sequence (s : State) (f : State → GroupId → Group → State) (h : ∀ s g d, sequence (f s g d) = sequence s) :
    sequence (releaseAll s f) = sequence s := by
  unfold releaseAll
  refine sequence_foldl _ (fun s g => ?_) _ _
  split <;> simp [h]

@[simp] theorem releaseAs_sequence (s : State) (g : GroupId) (d : Group) (k : ReleaseKind) :
    sequence (releaseAs s g d k) = sequence s := by
  cases k <;> rfl

@[simp] theorem releaseSafe_sequence (s : State) (g : GroupId) (d : Group) : sequence (releaseSafe s g d) = sequence s := by
  simp [releaseSafe]

@[simp] theorem releaseValues_sequence (s : State) : sequence (releaseValues s) = sequence s := by
  unfold releaseValues
  repeat' split
  all_goals simp [releaseAll_sequence, releaseGroup, releaseBench, releaseUndecided]

@[simp] theorem weftRequests_sequence (s : State) : sequence (weftRequests s) = sequence s := by simp [weftRequests]

@[simp] theorem fioRelease_sequence (s : State) (released : Bool) : sequence (fioRelease s released) = sequence s := by
  rw [fioRelease, sequence_mk]

@[simp] theorem fioBoundary_sequence (s : State) : sequence (fioBoundary s) = sequence s := by simp [fioBoundary]

@[simp] theorem releaseBoundary_sequence (s : State) (live : Bool) : sequence (releaseBoundary s live) = sequence s := by
  simp [releaseBoundary, roleBoundary, rackYield, rackNotDriver, safeRelease]

/-! ### The raw input image (R45, Table 2.4) -/

@[simp] theorem rawArea_sequence (s : State) (i : Nat) (bs : List Byte) : sequence (rawArea s i bs) = sequence s := by
  unfold rawArea
  split <;> simp

@[simp] theorem areaLatch_sequence (s : State) (signal : Nat) (xs : List Staged) (seq : Staged → Nat) (timeoutMs : Nat) (zero : Bool) :
    sequence (areaLatch s signal xs seq timeoutMs zero).1 = sequence s := by
  unfold areaLatch
  dsimp only
  repeat' split
  all_goals simp

@[simp] theorem latchSub_sequence (s : State) (i : Nat) (d : Subscription) : sequence (latchSub s i d) = sequence s := by
  simp [latchSub]

@[simp] theorem latchCan_sequence (s : State) : sequence (latchCan s) = sequence s := by
  unfold latchCan
  rw [sequence_mk, sequence_foldl]
  intro s c
  refine sequence_foldl _ (fun s d => ?_) _ _
  split <;> simp

@[simp] theorem latchMvb_sequence (s : State) : sequence (latchMvb s) = sequence s := by
  unfold latchMvb
  rw [sequence_mk, sequence_foldl _ (fun s d => by split <;> simp)]

@[simp] theorem rawSet_sequence (s : State) (i v : Nat) : sequence (rawSet s i v) = sequence s := by
  unfold rawSet
  split <;> simp

@[simp] theorem rawSetAll_sequence (s : State) (i : Nat) (vs : List Nat) : sequence (rawSetAll s i vs) = sequence s := by
  simp [rawSetAll]

@[simp] theorem latchRack_sequence (s : State) : sequence (latchRack s) = sequence s := by
  unfold latchRack
  split <;> simp [scanSignals, rangeSignals]

@[simp] theorem blankMuslin_sequence (s : State) : sequence (blankMuslin s) = sequence s := by
  unfold blankMuslin
  split
  · rfl
  · exact sequence_foldl _ (fun s x => by split <;> simp) _ _

@[simp] theorem latchMuslin_sequence (prev s : State) (word : Nat) : sequence (latchMuslin prev s word) = sequence s := by
  unfold latchMuslin
  split
  · rfl
  · rw [sequence_mk, sequence_foldl]
    intro s c
    dsimp only
    repeat' split
    all_goals simp [muEvent, putMu]

@[simp] theorem latchBoundary_sequence (prev s : State) : sequence (latchBoundary prev s) = sequence s := by
  simp [latchBoundary, latchNet, latchSafe, latchFio]

/-! ### Networks and mailboxes -/

@[simp] theorem putRing_sequence (s : State) (i : Fin 64) (r : Ring) : sequence (putRing s i r) = sequence s := by
  simp [putRing]

@[simp] theorem ringDiscard_sequence (k : Nat) (s : State) (i : Fin 64) : sequence (ringDiscard k s i) = sequence s := by
  induction k generalizing s i with
  | zero => rfl
  | succ k ih => simp [ringDiscard, ih, ringComplete]

@[simp] theorem ringGates_sequence (s : State) : sequence (ringGates s) = sequence s := by simp [ringGates, ringGate]

@[simp] theorem takeTopo_sequence (s : State) : sequence (takeTopo s) = sequence s := by simp [takeTopo]

@[simp] theorem netBoundary_sequence (s : State) (live started : Bool) (epoch : Word) :
    sequence (netBoundary s live started epoch) = sequence s := by
  simp [netBoundary, rackTake, routeSwap, routeEvent]

@[simp] theorem mboxBoundary_sequence (s : State) (ok : List Bool) : sequence (mboxBoundary s ok) = sequence s := by
  simp [mboxBoundary, mboxLane, mboxEvent, mboxWithdraw]

/-! ### Catch-up and the own image (R78, R123) -/

@[simp] theorem catchupBoundary_sequence (s : State) : sequence (catchupBoundary s) = sequence s := by
  simp [catchupBoundary, serveLink, catchupSend]

@[simp] theorem sendRawPart_sequence (s : State) (off n : Nat) : sequence (sendRawPart s off n) = sequence s := by
  simp [sendRawPart]

end Sys2Proof.Machine

/-! A boundary as a whole (R37, R38, R40, R45, Table 2.15). -/

namespace Sys2Proof.Machine

open Sys2Proof

/-- The sequence as the next epoch begins. -/
def Sequence.begun (q : Sequence) : Sequence where
  no := BitVec.ofNat 64 q.next
  next := q.next + 1
  phase := .exchange
  resync := false
  sealed := false
  rawClosed := false
  exchanged := false
  sourced := false
  warnLead := q.warnNext.getD q.warnLead
  warnNext := none
  clearReq := q.clearReq
  withdrawReq := false
  rejoinReq := false

theorem beginEpoch_sequence (s : State) : sequence (beginEpoch s) = (sequence s).begun := rfl

/-- Counters that were to be cleared have been. -/
theorem clearEpoch_sequence (s : State) : sequence (clearEpoch s) = { sequence s with clearReq := none } := by
  unfold clearEpoch
  split
  · next h =>
    unfold sequence
    rw [h]
  · rfl

/-- The state as the epoch ends, before the next one begins: what its votes, lanes and values have become. -/
def epochEnded (s : State) : State :=
  let s := members (noteLinksDown (clearEpoch (rackScanEnd s)))
  lanesBoundary (releaseBoundary s (releasing s || releasesOnce s))

theorem epochEnded_sequence (s : State) : sequence (epochEnded s) = { sequence s with clearReq := none } := by
  unfold epochEnded
  rw [lanesBoundary_sequence, releaseBoundary_sequence, members_sequence, noteLinksDown_sequence, clearEpoch_sequence,
    rackScanEnd_sequence]

/-- What the boundary latches, sends and serves once the epoch has begun does not touch its sequence. -/
theorem boundaryNow_sequence (s : State) : sequence (boundaryNow s) = (sequence (epochEnded s)).begun := by
  unfold boundaryNow epochEnded
  dsimp only
  rw [sendRawPart_sequence, catchupBoundary_sequence, mboxAuto_sequence, mboxBoundary_sequence, netBoundary_sequence,
    latchBoundary_sequence, beginEpoch_sequence]

theorem exec_boundary {s : State} (hrun : running s 2 = true) (hon : s.epoch.running = true)
    (hdue : s.epoch.resync = true ∨ s.epoch.phase = .release)
    (hreached : reached (passUntil s 2 (s.epoch.next * epochNs s.epoch)) 2 (s.epoch.next * epochNs s.epoch) = true) :
    exec .boundary s = .next (
      let u := syncServo (passUntil s 2 (s.epoch.next * epochNs s.epoch))
      if reached u 2 (u.epoch.next * epochNs u.epoch) then boundaryNow u else u) := by
  have hd : boundaryDue s = true := by
    unfold boundaryDue
    rw [hon]
    rcases hdue with h | h <;> simp [h]
  change execBoundary s = _
  unfold execBoundary
  dsimp only
  rw [live_of_running _ hrun, hd, hreached, Bool.and_self, if_pos rfl]

/-- Settles O29: the sequence of epochs through each part of a boundary, of which the start of the epoch alone changes it. -/
theorem boundaryResult : Obligations.BoundaryResult := by
  intro s hrun hon hdue w u hw
  have hexec : exec .boundary s = .next (if reached u 2 (u.epoch.next * epochNs u.epoch) then boundaryNow u else u) :=
    exec_boundary hrun hon hdue hw
  refine ⟨fun hu => ?_, fun hu => ?_⟩
  · rw [if_pos hu] at hexec
    have hseq := boundaryNow_sequence u
    rw [epochEnded_sequence] at hseq
    generalize boundaryNow u = t at *
    simp only [sequence, Sequence.begun, Sequence.mk.injEq] at hseq
    obtain ⟨hno, hnext, hphase, hsync, hsealed, hraw, hexch, hsrc, hlead, hwarn, hclear, hwith, hrej⟩ := hseq
    exact ⟨t, hexec, hno, hnext, hphase, hsync, hsealed, hraw, hexch, hsrc, hlead, hwarn, hclear, hwith, hrej⟩
  · rw [hexec, hu, if_neg Bool.false_ne_true]

end Sys2Proof.Machine

/-! The links of a module one at a time (R76, R77): what changes where a frame is noted or made ready on one of them. -/

namespace Sys2Proof.Machine

open Sys2Proof

namespace LinkOnly

theorem refl (s : State) (sd : Side) : LinkOnly s s sd := ⟨fun _ _ => rfl, rfl⟩

theorem trans {s t u : State} {sd : Side} (h : LinkOnly s t sd) (g : LinkOnly t u sd) : LinkOnly s u sd := by
  obtain ⟨hother, hrest⟩ := h
  obtain ⟨gother, grest⟩ := g
  refine ⟨fun o ho => (gother o ho).trans (hother o ho), ?_⟩
  rw [grest, hrest]

theorem slot {s t : State} {sd : Side} (h : LinkOnly s t sd) : t.slot = s.slot := by rw [h.rest]

end LinkOnly

theorem linkOnly_sendSide (s : State) (sd : Side) (type : Nat) (payload : List Byte) : LinkOnly s (sendSide s sd type payload) sd :=
  linkOnly_putLink s sd _

theorem linkOnly_sendNak (s : State) (sd : Side) (seq : U32) : LinkOnly s (sendNak s sd seq) sd := by
  unfold sendNak
  split
  · exact linkOnly_sendSide ..
  · exact .refl s sd

theorem linkOnly_noteSeq (s : State) (sd : Side) (seq ack : U32) : LinkOnly s (noteSeq s sd seq ack) sd := by
  unfold noteSeq
  dsimp only
  split_ifs
  · exact linkOnly_putLink s sd _
  · exact (linkOnly_putLink s sd _).trans (linkOnly_sendNak ..)
  · exact linkOnly_putLink s sd _

/-- A NAK is a frame that waits, and changes nothing else of its link (R80). -/
theorem linkOf_sendNak (s : State) (sd : Side) (seq : U32) :
    linkOf (sendNak s sd seq) sd = { linkOf s sd with txq := (linkOf (sendNak s sd seq) sd).txq } := by
  unfold sendNak
  split
  · rw [linkOf_sendSide]
    rfl
  · rfl

/-- A frame of a type that is not bound to an epoch is taken on a link that takes its type. -/
theorem takeFrame_unbound {s u : State} {sd : Side} {h : WeftHdr} {p : List Byte} (ha : Arrived s u sd h p) {need : Nat → Bool}
    {ok : Link → Bool} {f : State → State} (hneed : need p.length = true) (hok : ok (linkOf u sd) = true) :
    takeFrame s sd h p need false ok f = .next (f u) :=
  takeFrame_of_fit ha hneed (fun hb => absurd hb Bool.false_ne_true) hok

theorem Arrived.slot {s u : State} {sd : Side} {h : WeftHdr} {p : List Byte} (ha : Arrived s u sd h p) : u.slot = s.slot := by
  rw [ha.seen]
  exact (linkOnly_noteSeq s sd h.seq h.ack).slot

end Sys2Proof.Machine

/-! Condemnation, self-exclusion and UNIT_SAFE (R107 to R111): what the output actions of R109 leave of the vote, and what the
module makes of a condemn line, a CONDEMN and a UNIT_SAFE frame. -/

namespace Sys2Proof.Machine

open Sys2Proof

/-! ### The output actions (R109) -/

/-- Nothing changes from `s` to `t` but the blocks that drive outputs, what their messages change, and the frames that wait on
the links. -/
structure OutputsOnly (s t : State) : Prop where
  links : ∀ sd, linkOf t sd = { linkOf s sd with txq := (linkOf t sd).txq }
  rest : t = { s with weft := { s.weft with a := t.weft.a, b := t.weft.b }, mbox := t.mbox, epoch := t.epoch, pkt := t.pkt
                      rack := t.rack, fio := t.fio, safe := t.safe }

namespace OutputsOnly

theorem refl (s : State) : OutputsOnly s s := ⟨fun _ => rfl, rfl⟩

theorem trans {s t u : State} (h : OutputsOnly s t) (g : OutputsOnly t u) : OutputsOnly s u := by
  obtain ⟨hl, hr⟩ := h
  obtain ⟨gl, gr⟩ := g
  refine ⟨fun sd => ?_, ?_⟩
  · rw [gl sd, hl sd]
  · rw [gr, hr]

theorem of_messaged {s t : State} (h : Messaged s t) : OutputsOnly s t :=
  ⟨h.links, by rw [h.rest]⟩

theorem of_rackOnly {s t : State} (h : RackOnly s t) : OutputsOnly s t := by
  unfold RackOnly at h
  rw [h]
  exact ⟨fun sd => by cases sd <;> rfl, rfl⟩

/-- The blocks that drive outputs, replaced. -/
theorem put (s : State) (pkt : Pkt) (rack : Rack) (fio : Fio) (safe : Safe) :
    OutputsOnly s { s with pkt := pkt, rack := rack, fio := fio, safe := safe } :=
  ⟨fun sd => by cases sd <;> rfl, rfl⟩

theorem putFio {s t : State} (h : OutputsOnly s t) (fio : Fio) : OutputsOnly s { t with fio := fio } :=
  h.trans (put t t.pkt t.rack fio t.safe)

theorem ite {s t u : State} {c : Prop} [Decidable c] (h : OutputsOnly s t) (g : OutputsOnly s u) :
    OutputsOnly s (if c then t else u) := by
  split
  · exact h
  · exact g

theorem foldl {α : Type} {f : State → α → State} (h : ∀ s x, OutputsOnly s (f s x)) (s : State) (xs : List α) :
    OutputsOnly s (xs.foldl f s) := by
  induction xs generalizing s with
  | nil => exact .refl s
  | cons x xs ih => exact (h s x).trans (ih _)

end OutputsOnly

theorem outputsOnly_safeItem (s : State) (kind index value : Nat) (fault : Bool) (speed : Nat) :
    OutputsOnly s (safeItem s kind index value fault speed) := by
  unfold safeItem
  dsimp only
  exact .ite (.put s _ _ _ _) (.trans (.put s _ _ _ _) (.of_rackOnly (rackOnly_queueItem ..)))

theorem outputsOnly_outState (s : State) (n : Fin 8) (st : SafeOutState) : OutputsOnly s (outState s n st) :=
  .trans (.put s _ _ _ _) (outputsOnly_safeItem ..)

theorem outputsOnly_safeDemand (s : State) : OutputsOnly s (safeDemand s) := by
  refine .foldl (fun s n => ?_) s _
  unfold outDemand
  split
  · exact outputsOnly_outState ..
  · exact outputsOnly_outState ..
  · exact .refl s

theorem outputsOnly_frameClear (s : State) (w : Fin 2 → Word) (hot : U32) : OutputsOnly s (frameClear s w hot) :=
  .trans (.putFio (.refl s) _) (.ite (.putFio (.putFio (.refl _) _) _) (.refl _))

theorem outputsOnly_frameRearm (s : State) (g : Fin 2) (w : Word) : OutputsOnly s (frameRearm s g w) :=
  .ite (.ite (.putFio (.putFio (.refl s) _) _) (.putFio (.putFio (.refl s) _) _)) (.refl s)

theorem outputsOnly_applyRelease (s : State) (w0 w1 : Word) (hot : U32) : OutputsOnly s (applyRelease s w0 w1 hot) :=
  .putFio (.trans (.putFio (.refl s) _) (.trans (outputsOnly_frameClear ..) (.trans (outputsOnly_frameRearm ..)
    (outputsOnly_frameRearm ..)))) _

theorem outputsOnly_fioSafe (s : State) : OutputsOnly s (fioSafe s) := .putFio (outputsOnly_applyRelease ..) _

theorem outputsOnly_rackDeliver (s : State) (a : OutAccess) (code : Nat) : OutputsOnly s (rackDeliver s a code) := by
  unfold rackDeliver
  dsimp only
  split
  · exact .refl s
  · exact .ite (.refl s) (.put s _ _ _ _)
  · exact .ite (.put s _ _ _ _) (.refl s)
  · exact .of_messaged (messagedClosed_finishLong ..).messaged
  · exact .of_messaged (messagedClosed_finishLong ..).messaged

theorem outputsOnly_rackAbort (s : State) : OutputsOnly s (rackAbort s) := by
  refine .trans (.put s _ _ _ _) (.trans (.of_rackOnly (rackOnly_rackBreak _)) (.foldl (fun s a => ?_) _ _))
  exact .trans (.of_rackOnly (rackOnly_rackLog ..)) (outputsOnly_rackDeliver ..)

theorem outputsOnly_dropUnsent (s : State) : OutputsOnly s (dropUnsent s) :=
  .ite (.put s _ _ _ _) (.put s _ _ _ _)

theorem outputsOnly_outputsOff (s : State) : OutputsOnly s (outputsOff s) :=
  .trans (outputsOnly_safeDemand s) (.trans (outputsOnly_fioSafe _) (.trans (outputsOnly_rackAbort _)
    (.trans (outputsOnly_dropUnsent _) (.put _ _ _ _ _))))

/-! ### Self-exclusion (R108, R109) -/

/-- A slot that is taken out of a mask is not in it. -/
theorem inMask_without_slotBit (m : BitVec 3) (slot : BitVec 2) : inMask (m &&& ~~~slotBit slot.toNat) slot.toNat = false := by
  revert m slot
  decide

theorem markReload_reloading (ln : Lane) : (markReload ln).reloading = (ln.reloading || (!ln.disabled && ln.image.isSome)) := by
  unfold markReload
  cases hd : ln.disabled <;> cases hi : ln.image <;> simp

/-- A self-exclusion takes the module out of V and its role away, and unless it is final its lanes are to be reloaded. -/
theorem selfExclude_spec (s : State) :
    let t := selfExclude s
    t.weft.own = .excluded ∧ t.weft.roleStarted = false ∧ inMask t.weft.voters s.slot.toNat = false ∧
      t.weft.condemnedEpoch = s.weft.condemnedEpoch ∧
      (∀ sd, linkOf t sd = { linkOf s sd with txq := (linkOf t sd).txq }) ∧
      (t.weft.exclFinal = false → ∀ l, laneOf t l = markReload (laneOf s l)) := by
  have hoff := outputsOnly_outputsOff (weftEvent s 8)
  have hlinks : ∀ sd, linkOf (outputsOff (weftEvent s 8)) sd =
      { linkOf s sd with txq := (linkOf (outputsOff (weftEvent s 8)) sd).txq } := fun | .a => hoff.links .a | .b => hoff.links .b
  have hslot : (outputsOff (weftEvent s 8)).slot = s.slot := by rw [hoff.rest]; rfl
  have hlanes : (outputsOff (weftEvent s 8)).lanes = s.lanes := by rw [hoff.rest]; rfl
  have hepoch : (outputsOff (weftEvent s 8)).weft.condemnedEpoch = s.weft.condemnedEpoch := by rw [hoff.rest]; rfl
  unfold selfExclude
  generalize outputsOff (weftEvent s 8) = v at *
  have hout : inMask (v.weft.voters &&& ~~~slotBit v.slot.toNat) s.slot.toNat = false := hslot ▸ inMask_without_slotBit ..
  dsimp only
  split
  · next hfinal =>
    exact ⟨rfl, rfl, hout, hepoch, fun | .a => hlinks .a | .b => hlinks .b, fun h => absurd (hfinal.symm.trans h) (by decide)⟩
  · refine ⟨rfl, rfl, hout, hepoch, fun | .a => hlinks .a | .b => hlinks .b, fun _ l => ?_⟩
    rw [laneOf_mapLanes]
    exact congrArg markReload (laneOf_of_lanes (congrArg LaneBlock.lane hlanes) l)

/-! ### One condemnation, and both (R107, R108) -/

/-- The state once the condemnation by the sibling of a side is noted. -/
def condemnNoted (s : State) (sd : Side) : State :=
  let t := putLink s sd { linkOf s sd with condemnedBy := true }
  { t with weft := { t.weft with condemnedEpoch := true, byA := t.weft.a.condemnedBy, byB := t.weft.b.condemnedBy } }

theorem condemned_eq {s : State} {sd : Side} (hnew : (linkOf s sd).condemnedBy = false) : condemned s sd =
    if (condemnNoted s sd).weft.a.condemnedBy && (condemnNoted s sd).weft.b.condemnedBy then selfExclude (condemnNoted s sd)
    else condemnNoted s sd := by
  unfold condemned
  dsimp only
  rw [hnew, if_neg Bool.false_ne_true]
  rfl

theorem condemnNoted_spec (s : State) (sd : Side) :
    let t := condemnNoted s sd
    linkOf t sd = { linkOf s sd with condemnedBy := true } ∧ (∀ o, o ≠ sd → linkOf t o = linkOf s o) ∧
      t.weft.own = s.weft.own ∧ t.weft.condemnedEpoch = true ∧ t = { s with weft := t.weft } := by
  refine ⟨?_, fun o ho => ?_, ?_, rfl, ?_⟩
  · cases sd <;> rfl
  · exact linkOf_putLink_ne s (sd := sd) _ ho
  · cases sd <;> rfl
  · cases sd <;> rfl

/-- Both siblings have condemned the module where the other one had. -/
theorem condemnNoted_both (s : State) (sd : Side) (c : Bool) (hother : ∀ o, o ≠ sd → (linkOf s o).condemnedBy = c) :
    ((condemnNoted s sd).weft.a.condemnedBy && (condemnNoted s sd).weft.b.condemnedBy) = c := by
  cases sd
  · exact hother .b (by decide)
  · exact (Bool.and_true _).trans (hother .a (by decide))

/-- A condemnation by the only sibling that does so is noted. -/
theorem condemned_of_one {s : State} {sd : Side} (hnew : (linkOf s sd).condemnedBy = false)
    (hother : ∀ o, o ≠ sd → (linkOf s o).condemnedBy = false) : condemned s sd = condemnNoted s sd := by
  rw [condemned_eq hnew, condemnNoted_both s sd false hother, if_neg Bool.false_ne_true]

/-- Condemned by the second sibling as well, the module excludes itself. -/
theorem condemned_of_both {s : State} {sd : Side} (hnew : (linkOf s sd).condemnedBy = false)
    (hother : ∀ o, o ≠ sd → (linkOf s o).condemnedBy = true) : condemned s sd = selfExclude (condemnNoted s sd) := by
  rw [condemned_eq hnew, condemnNoted_both s sd true hother, if_pos rfl]

/-- A new condemnation is noted, whether or not the module excludes itself by it. -/
theorem condemned_spec {s : State} {sd : Side} (hnew : (linkOf s sd).condemnedBy = false) :
    let t := condemned s sd
    linkOf t sd = { linkOf s sd with condemnedBy := true, txq := (linkOf t sd).txq } ∧ t.weft.condemnedEpoch = true := by
  obtain ⟨hlink, -, -, hepoch, -⟩ := condemnNoted_spec s sd
  intro t
  have ht : t = _ := condemned_eq hnew
  split at ht
  · obtain ⟨-, -, -, hkept, hlinks, -⟩ := selfExclude_spec (condemnNoted s sd)
    rw [ht]
    exact ⟨(hlinks sd).trans (by rw [hlink]), hkept.trans hepoch⟩
  · rw [ht]
    exact ⟨hlink.trans (by rw [hlink]), hepoch⟩

/-! ### The commands -/

section Condemn

variable {s : State} {sd : Side}

theorem exec_cdnInHigh_counts (hrun : running s 2 = true) (hvoter : isVoter s = true) (hstuck : (linkOf s sd).cdnStuck = false)
    (hknown : (linkOf s sd).state ≠ .stranger) (hwindow : inCondemnWindow s = true) :
    exec (.cdnInHigh sd) s = .next (condemned (putLink s sd { linkOf s sd with cdnIn := true }) sd) := by
  refine (live_of_running _ hrun).trans (congrArg _ (if_pos ?_))
  simp [hvoter, hstuck, hknown, hwindow]

theorem exec_cdnInHigh_of_not_voter (hrun : running s 2 = true) (hvoter : isVoter s = false) :
    exec (.cdnInHigh sd) s = .next (putLink s sd { linkOf s sd with cdnIn := true }) := by
  refine (live_of_running _ hrun).trans (congrArg _ (if_neg ?_))
  simp [hvoter]

/-- A line that is stuck high is ignored from now on, with a record (R107). -/
theorem cdnInStuck_next (hrun : running s 2 = true) (hstuck : (linkOf s sd).cdnStuck = false) :
    ∃ t, exec (.cdnInStuck sd) s = .next t ∧
      linkOf t sd = { linkOf s sd with cdnIn := true, cdnStuck := true, cdnLowEpochs := 0 } ∧
      (∀ o, o ≠ sd → linkOf t o = linkOf s o) ∧ t = { s with weft := t.weft, mor := t.mor } := by
  refine ⟨_, (live_of_running _ hrun).trans (congrArg _ (if_pos (by rw [hstuck]; rfl))), ?_⟩
  rw [recordBit_rest]
  cases sd
  · exact ⟨rfl, fun o ho => by cases o <;> [exact absurd rfl ho; rfl], rfl⟩
  · exact ⟨rfl, fun o ho => by cases o <;> [rfl; exact absurd rfl ho], rfl⟩

/-- A condemn line of a sibling rises in the window (R107, R108, R109). -/
theorem cdnInHigh_next (hrun : running s 2 = true) (hvoter : isVoter s = true) (hstuck : (linkOf s sd).cdnStuck = false)
    (hknown : (linkOf s sd).state ≠ .stranger) (hwindow : inCondemnWindow s = true) (hnew : (linkOf s sd).condemnedBy = false) :
    ∃ t, exec (.cdnInHigh sd) s = .next t ∧ (linkOf t sd).cdnIn = true ∧ (linkOf t sd).condemnedBy = true ∧
      t.weft.condemnedEpoch = true ∧
      ((∀ o, o ≠ sd → (linkOf s o).condemnedBy = false) → t.weft.own = .voter ∧ t = { s with weft := t.weft }) ∧
      ((∀ o, o ≠ sd → (linkOf s o).condemnedBy = true) → t.weft.own = .excluded ∧ t.weft.roleStarted = false ∧
        inMask t.weft.voters s.slot.toNat = false ∧
        (t.weft.exclFinal = false → ∀ l, (laneOf t l).reloading = ((laneOf s l).reloading ||
          (!(laneOf s l).disabled && (laneOf s l).image.isSome)))) := by
  have hput := linkOnly_putLink s sd { linkOf s sd with cdnIn := true }
  have hlinkPut := linkOf_putLink s sd { linkOf s sd with cdnIn := true }
  have hexec := exec_cdnInHigh_counts hrun hvoter hstuck hknown hwindow
  generalize putLink s sd { linkOf s sd with cdnIn := true } = v at *
  have hnew' : (linkOf v sd).condemnedBy = false := by rw [hlinkPut]; exact hnew
  have hother : ∀ c, (∀ o, o ≠ sd → (linkOf s o).condemnedBy = c) → ∀ o, o ≠ sd → (linkOf v o).condemnedBy = c :=
    fun c h o ho => by rw [hput.other o ho]; exact h o ho
  obtain ⟨hlink, hepoch⟩ := condemned_spec hnew'
  obtain ⟨-, -, hown, -, hrest⟩ := condemnNoted_spec v sd
  refine ⟨_, hexec, ?_, ?_, hepoch, fun hone => ?_, fun hboth => ?_⟩
  · rw [hlink, hlinkPut]
  · rw [hlink]
  · rw [condemned_of_one hnew' (hother _ hone)]
    refine ⟨hown.trans ?_, ?_⟩
    · rw [hput.rest]
      simpa [isVoter] using hvoter
    · rw [hrest, hput.rest]
  · rw [condemned_of_both hnew' (hother _ hboth)]
    obtain ⟨hexcluded, hrole, hout, -, -, hlanes⟩ := selfExclude_spec (condemnNoted v sd)
    have hslot : (condemnNoted v sd).slot = s.slot := by rw [hrest, hput.rest]
    have hlane : (condemnNoted v sd).lanes = s.lanes := by rw [hrest, hput.rest]
    refine ⟨hexcluded, hrole, hslot ▸ hout, fun hfinal l => ?_⟩
    rw [hlanes hfinal l, markReload_reloading, laneOf_of_lanes (congrArg LaneBlock.lane hlane)]

end Condemn

section Frames

variable {s u : State} {sd : Side} {h : WeftHdr} {p : List Byte} (ha : Arrived s u sd h p)

include ha

theorem exec_weftCondemn (hup : (linkOf s sd).state = .up) (hp : p.length = 16) (hvoter : isVoter u = true)
    (hslot : leAt p 8 1 = u.slot.toNat) (hwindow : condemnWindow u (leAt p 0 8) = true) :
    exec (.weftCondemn sd h p) s = .next (condemned u sd) := by
  change execWeftCondemn sd h p s = _
  refine Eq.trans (takeFrame_unbound ha (beq_iff_eq.mpr hp) (decide_eq_true (ha.state_eq.trans hup))) (congrArg _ (if_pos ?_))
  simp [hvoter, hslot, hwindow]

theorem exec_weftUnitSafe (hs : (linkOf s sd).state = .up ∨ (linkOf s sd).state = .stranger) (hp : p.length = 8) :
    exec (.weftUnitSafe sd h p) s =
      .next (enterUnitSafe (tellUnitSafe (putLink u sd { linkOf u sd with unitSafe := true }))) := by
  change execWeftUnitSafe sd h p s = _
  exact takeFrame_unbound ha (beq_iff_eq.mpr hp) (ha.linkOn hs)

end Frames

theorem queuedOnly_tellUnitSafe (s : State) : QueuedOnly s (tellUnitSafe s) := .ite (.refl s) (.sendBoth ..)

theorem enterUnitSafe_spec {s : State} (hown : s.weft.own ≠ .unitSafe) :
    let t := enterUnitSafe s
    t.weft.own = .unitSafe ∧ (∀ sd, linkOf t sd = { linkOf s sd with txq := (linkOf t sd).txq }) ∧ t.weft.roleStarted = false ∧
      inMask t.weft.voters s.slot.toNat = false := by
  have hoff := outputsOnly_outputsOff s
  unfold enterUnitSafe
  rw [if_neg hown]
  generalize outputsOff s = v at *
  have hslot : v.slot = s.slot := by rw [hoff.rest]
  refine ⟨rfl, fun | .a => hoff.links .a | .b => hoff.links .b, rfl, ?_⟩
  rw [← hslot]
  exact inMask_without_slotBit ..

/-- Settles O32: a condemnation is noted, the second one excludes, and a UNIT_SAFE frame takes effect also from a
STRANGER. -/
theorem condemnResult : Obligations.CondemnResult := by
  refine ⟨fun s sd hrun => ⟨?_, fun hvoter => ?_, cdnInStuck_next hrun⟩, fun s u sd h p ha => ⟨?_, fun hs hp hown => ?_⟩⟩
  · exact cdnInHigh_next hrun
  · exact ⟨_, exec_cdnInHigh_of_not_voter hrun hvoter, linkOf_putLink .., linkOnly_putLink ..⟩
  · intro hup hp hvoter hslot hwindow hnew
    obtain ⟨hlink, hepoch⟩ := condemned_spec hnew
    exact ⟨_, exec_weftCondemn ha hup hp hvoter hslot hwindow, by rw [hlink], hepoch⟩
  · have hexec := exec_weftUnitSafe ha hs hp
    have hput := linkOnly_putLink u sd { linkOf u sd with unitSafe := true }
    have hlinkPut := linkOf_putLink u sd { linkOf u sd with unitSafe := true }
    generalize putLink u sd { linkOf u sd with unitSafe := true } = v at *
    have htold := queuedOnly_tellUnitSafe v
    generalize tellUnitSafe v = w at *
    have hslot : w.slot = s.slot := by rw [htold.rest, hput.rest, ha.slot]
    have hown' : w.weft.own ≠ .unitSafe := by rw [htold.rest, hput.rest]; exact hown
    obtain ⟨hin, hlinks, hrole, hout⟩ := enterUnitSafe_spec hown'
    refine ⟨_, hexec, hin, ?_, hrole, hslot ▸ hout⟩
    rw [hlinks sd, htold.links sd, hlinkPut]

end Sys2Proof.Machine

/-! Link-up and the ways down (R77 to R83, Tables 3.3 and 3.4): what the start of NEGOTIATE and the end of a link leave of it, and
what its frames do to it as they leave or are discarded. -/

namespace Sys2Proof.Machine

open Sys2Proof

/-! ### NEGOTIATE begins (R82) -/

/-- The link starts its session with a HELLO that carries a fresh nonce. -/
theorem linkOf_linkNegotiate (s : State) (sd : Side) : linkOf (linkNegotiate s sd) sd =
    { linkQueue { linkCleared (linkOf s sd) with state := .negotiate, nonceSent := freeBytes s 32 } 0x01 (lo32 s.epoch.no)
        (helloBytes s (freeBytes s 32)) with helloSent := true } := by
  cases sd <;> rfl

theorem linkOnly_linkNegotiate (s : State) (sd : Side) : LinkOnly { s with freeCtr := s.freeCtr + 1 } (linkNegotiate s sd) sd :=
  linkOnly_putLink { s with freeCtr := s.freeCtr + 1 } sd _

theorem linkNegotiate_spec (s : State) (sd : Side) :
    let t := linkNegotiate s sd
    (linkOf t sd).state = .negotiate ∧ (linkOf t sd).txSeq = 0 ∧ (linkOf t sd).rxSeq = 0 ∧
      (∃ f, (linkOf t sd).txq = [f] ∧ f.type = 0x01 ∧ f.payload = helloBytes s (freeBytes s 32)) ∧
      (linkOf t sd).nonceSent = freeBytes s 32 ∧ (∀ o, o ≠ sd → linkOf t o = linkOf s o) ∧
      t = { s with weft := t.weft, freeCtr := s.freeCtr + 1 } := by
  obtain ⟨hother, hrest⟩ := linkOnly_linkNegotiate s sd
  dsimp only
  rw [linkOf_linkNegotiate]
  refine ⟨rfl, rfl, rfl, ⟨_, rfl, rfl, rfl⟩, rfl, fun o ho => (hother o ho).trans ?_, ?_⟩
  · cases o <;> rfl
  · rw [hrest]

/-! ### A link goes DOWN (R81) -/

theorem strangerCheck_rest (s : State) : strangerCheck s = { s with weft := { s.weft with own := (strangerCheck s).weft.own } } := by
  unfold strangerCheck
  split <;> rfl

@[simp] theorem linkOf_strangerCheck (s : State) (sd : Side) : linkOf (strangerCheck s) sd = linkOf s sd := by
  rw [strangerCheck_rest]
  cases sd <;> rfl

@[simp] theorem linkOf_weftNoted (s : State) (bit : Nat) (sd : Side) : linkOf (weftNoted s bit) sd = linkOf s sd := by
  rw [weftNoted_rest]
  cases sd <;> rfl

/-- An event of a link that is replaced: the record tells of it, and the other link stays. -/
theorem weftNoted_putLink_spec (s : State) (sd : Side) (k : Link) (bit : Nat) :
    let t := weftNoted (putLink s sd k) bit
    linkOf t sd = k ∧ t.weft.event = setBit s.weft.event bit ∧ (∀ o, o ≠ sd → linkOf t o = linkOf s o) ∧
      t = { s with weft := t.weft, mor := t.mor } := by
  refine ⟨by simp, ?_, fun o ho => ?_, ?_⟩
  · rw [weftNoted_rest, putLink_rest]
    rfl
  · rw [linkOf_weftNoted, linkOf_putLink_ne s k ho]
  · rw [weftNoted_rest, putLink_rest]
    rfl

/-- A link whose session ends is DOWN with nothing to send; its side is shown in WEFT_EVENT with a record. -/
theorem linkDown_spec {s : State} {sd : Side} (h : (linkOf s sd).state ≠ .down) :
    let t := linkDown s sd
    (linkOf t sd).state = .down ∧ (linkOf t sd).txq = [] ∧ (linkOf t sd).crcErr = (linkOf s sd).crcErr ∧
      t.weft.event = setBit s.weft.event (sideBit sd) ∧ (∀ o, o ≠ sd → linkOf t o = linkOf s o) ∧
      t = { s with weft := t.weft, mor := t.mor } := by
  obtain ⟨hlink, hevent, hother, hrest⟩ := weftNoted_putLink_spec s sd (linkCleared (linkOf s sd)) (sideBit sd)
  unfold linkDown
  rw [if_neg h]
  dsimp only
  generalize weftNoted (putLink s sd (linkCleared (linkOf s sd))) (sideBit sd) = v at *
  rw [linkOf_strangerCheck, hlink]
  refine ⟨rfl, rfl, rfl, ?_, fun o ho => (linkOf_strangerCheck v o).trans (hother o ho), ?_⟩
  · rw [strangerCheck_rest]
    exact hevent
  · rw [strangerCheck_rest, hrest]

/-! ### A frame leaves (R77, R79, R80) -/

theorem stamped_resend (f : TxFrame) (at' : Nat) : (stamped f at').resend = f.resend := by
  unfold stamped
  split_ifs <;> rfl

/-- A new frame takes the next SEQ and the transmit stamp. -/
theorem linkSent_new (at' : Nat) (k : Link) {f : TxFrame} (h : f.resend = false) :
    let t := linkSent at' k f
    t.txSeq = k.txSeq + 1 ∧ t.retx = k.retx ∧ t.lastFrame = frameBytes k (stamped { f with seq := k.txSeq } at') := by
  unfold linkSent
  simp only [h, stamped_resend, Bool.false_eq_true, if_false]
  split_ifs <;> exact ⟨rfl, rfl, rfl⟩

/-- A frame that is sent again keeps its SEQ and is counted. -/
theorem linkSent_again (at' : Nat) (k : Link) {f : TxFrame} (h : f.resend = true) :
    let t := linkSent at' k f
    t.txSeq = k.txSeq ∧ t.retx = satInc k.retx ∧ t.lastFrame = frameBytes k (stamped f at') := by
  unfold linkSent
  simp only [h, stamped_resend, if_true]
  split_ifs <;> exact ⟨rfl, rfl, rfl⟩

theorem linkSent_txq (at' : Nat) (k : Link) (f : TxFrame) : (linkSent at' k f).txq = k.txq := by
  unfold linkSent
  dsimp only
  split_ifs <;> rfl

/-- The transmit stamp lies after the last tick of TB2 (R85). -/
theorem tb2Stamp_le_stampAt (s : State) (n : Nat) : tb2Stamp s ≤ stampAt s n := Nat.le_add_right ..

section Commands

variable {s : State} {sd : Side} (hrun : running s 2 = true)

include hrun

theorem exec_weftBlockLock (hallowed : linkAllowed s sd = true) (h : (linkOf s sd).state = .training ∨ (linkOf s sd).state = .down) :
    exec (.weftBlockLock sd) s = .next (linkNegotiate s sd) :=
  (live_of_running _ hrun).trans (congrArg _ (if_pos (by simpa [hallowed] using h)))

theorem exec_weftLinkupTimeout
    (h : (linkOf s sd).state = .negotiate ∨ (linkOf s sd).state = .identity ∨ (linkOf s sd).state = .time) :
    exec (.weftLinkupTimeout sd) s = .next (linkNegotiate s sd) :=
  (live_of_running _ hrun).trans (congrArg _ (if_pos (by simpa [linkRising, or_assoc] using h)))

theorem exec_weftRetrain (hallowed : linkAllowed s sd = true) (h : (linkOf s sd).state = .down) :
    exec (.weftRetrain sd) s = .next (putLink s sd { linkOf s sd with state := .training }) :=
  (live_of_running _ hrun).trans (congrArg _ (if_pos (by simp [hallowed, h])))

theorem exec_weftRefusedRetry (hallowed : linkAllowed s sd = true) (h : (linkOf s sd).state = .refused) :
    exec (.weftRefusedRetry sd) s = .next (putLink s sd { linkCleared (linkOf s sd) with state := .training }) :=
  (live_of_running _ hrun).trans (congrArg _ (if_pos (by simp [hallowed, h])))

theorem exec_weftLockLost : exec (.weftLockLost sd) s = .next (linkDown s sd) := live_of_running _ hrun

theorem exec_weftCrcRunDown (h : 16 ≤ (linkOf s sd).crcRun) : exec (.weftCrcRunDown sd) s = .next (linkDown s sd) :=
  (live_of_running _ hrun).trans (congrArg _ (if_pos h))

theorem exec_weftSilenceDown (h : 2 ≤ (linkOf s sd).silentEpochs) : exec (.weftSilenceDown sd) s = .next (linkDown s sd) :=
  (live_of_running _ hrun).trans (congrArg _ (if_pos h))

theorem exec_linkupTb2Round (hstate : (linkOf s sd).state = .time) (hround : (linkOf s sd).syncRounds < 8) :
    exec (.linkupTb2Round sd) s = .next (sendSide s sd 0x04 (zeros 12)) :=
  (live_of_running _ hrun).trans (congrArg _ (if_pos (by simp [hstate, hround])))

theorem exec_weftFrameSend {f : TxFrame} (hf : nextFrame s (linkOf s sd) = some f) (hsends : linkSends (linkOf s sd) = true) :
    exec (.weftFrameSend sd) s = .next (putLink { s with freeCtr := s.freeCtr + 1 } sd
      (linkSent (stampAt s s.freeCtr) { linkOf s sd with txq := (linkOf s sd).txq.erase f } f)) := by
  refine (live_of_running _ hrun).trans (congrArg _ ?_)
  dsimp only
  rw [hf]
  exact if_pos hsends

theorem weftFrameSend_next {f : TxFrame} (hf : nextFrame s (linkOf s sd) = some f) (hsends : linkSends (linkOf s sd) = true) :
    ∃ t at', tb2Stamp s ≤ at' ∧ exec (.weftFrameSend sd) s = .next t ∧ (linkOf t sd).txq = (linkOf s sd).txq.erase f ∧
      (f.resend = false → (linkOf t sd).txSeq = (linkOf s sd).txSeq + 1 ∧ (linkOf t sd).retx = (linkOf s sd).retx ∧
        (linkOf t sd).lastFrame = frameBytes (linkOf s sd) (stamped { f with seq := (linkOf s sd).txSeq } at')) ∧
      (f.resend = true → (linkOf t sd).txSeq = (linkOf s sd).txSeq ∧ (linkOf t sd).retx = satInc (linkOf s sd).retx ∧
        (linkOf t sd).lastFrame = frameBytes (linkOf s sd) (stamped f at')) ∧
      LinkOnly { s with freeCtr := s.freeCtr + 1 } t sd := by
  refine ⟨_, _, tb2Stamp_le_stampAt s s.freeCtr, exec_weftFrameSend hrun hf hsends, ?_, fun h => ?_, fun h => ?_, linkOnly_putLink ..⟩
  · rw [linkOf_putLink, linkSent_txq]
  · rw [linkOf_putLink]
    exact linkSent_new _ _ h
  · rw [linkOf_putLink]
    exact linkSent_again _ _ h

/-! ### A frame is discarded (R78, R81) -/

theorem exec_weftFrameDiscard (why : Discard) (hsends : linkSends (linkOf s sd) = true) :
    exec (.weftFrameDiscard sd why) s = .next (match why with
      | .badCrc => sendNak (frameDiscarded (putLink s sd { linkOf s sd with crcRun := (linkOf s sd).crcRun + 1 }) sd) sd
          (linkOf s sd).rxSeq
      | .wrongEpoch seq => frameDiscarded (noteSeq s sd seq (linkOf s sd).acked) sd
      | _ => frameDiscarded (putLink s sd { linkOf s sd with intact := true, crcRun := 0 }) sd) := by
  refine (live_of_running _ hrun).trans (congrArg _ (if_neg ?_))
  simp [hsends]

end Commands

/-- A frame that is noted ends a run of CRC failures and the silence of its link. -/
theorem linkOf_noteSeq (s : State) (sd : Side) (seq ack : U32) :
    let t := noteSeq s sd seq ack
    (linkOf t sd).crcErr = (linkOf s sd).crcErr ∧ (linkOf t sd).crcRun = 0 ∧ (linkOf t sd).intact = true := by
  unfold noteSeq
  dsimp only
  split_ifs
  · rw [linkOf_putLink]
    exact ⟨rfl, rfl, rfl⟩
  · rw [linkOf_sendNak, linkOf_putLink]
    exact ⟨rfl, rfl, rfl⟩
  · rw [linkOf_putLink]
    exact ⟨rfl, rfl, rfl⟩

/-- A frame that is discarded though its CRC was right is counted, and ends a run of CRC failures (R81). -/
theorem frameDiscarded_intact {s v : State} {sd : Side} (hv : LinkOnly s v sd)
    (hk : (linkOf v sd).crcErr = (linkOf s sd).crcErr ∧ (linkOf v sd).crcRun = 0 ∧ (linkOf v sd).intact = true) :
    let t := frameDiscarded v sd
    (linkOf t sd).crcErr = satInc (linkOf s sd).crcErr ∧ ((linkOf t sd).crcRun = 0 ∧ (linkOf t sd).intact = true) ∧
      LinkOnly s t sd := by
  obtain ⟨herr, hrun, hintact⟩ := hk
  obtain ⟨hlink, honly⟩ := frameDiscarded_spec v sd
  dsimp only
  rw [hlink]
  exact ⟨congrArg satInc herr, ⟨hrun, hintact⟩, hv.trans honly⟩

/-- What a discarded frame does to its link, by the reason (R78, R81). -/
theorem weftFrameDiscard_next {s : State} {sd : Side} (hrun : running s 2 = true) (why : Discard)
    (hsends : linkSends (linkOf s sd) = true) :
    ∃ t, exec (.weftFrameDiscard sd why) s = .next t ∧ (linkOf t sd).crcErr = satInc (linkOf s sd).crcErr ∧
      (why = .badCrc → (linkOf t sd).crcRun = (linkOf s sd).crcRun + 1) ∧
      (why ≠ .badCrc → (linkOf t sd).crcRun = 0 ∧ (linkOf t sd).intact = true) ∧ LinkOnly s t sd := by
  refine ⟨_, exec_weftFrameDiscard hrun why hsends, ?_⟩
  cases why with
  | badCrc =>
    have hput := linkOnly_putLink s sd { linkOf s sd with crcRun := (linkOf s sd).crcRun + 1 }
    obtain ⟨hlink, honly⟩ := frameDiscarded_spec (putLink s sd { linkOf s sd with crcRun := (linkOf s sd).crcRun + 1 }) sd
    rw [linkOf_putLink] at hlink
    dsimp only
    rw [linkOf_sendNak, hlink]
    exact ⟨rfl, fun _ => rfl, fun h => absurd rfl h, hput.trans (honly.trans (linkOnly_sendNak ..))⟩
  | wrongEpoch seq =>
    obtain ⟨hcount, hnoted, honly⟩ := frameDiscarded_intact (linkOnly_noteSeq ..) (linkOf_noteSeq s sd seq (linkOf s sd).acked)
    exact ⟨hcount, fun h => absurd h (by simp), fun _ => hnoted, honly⟩
  | badLength | badType =>
    obtain ⟨hcount, hnoted, honly⟩ := frameDiscarded_intact
      (linkOnly_putLink s sd { linkOf s sd with intact := true, crcRun := 0 }) (by rw [linkOf_putLink]; exact ⟨rfl, rfl, rfl⟩)
    exact ⟨hcount, fun h => absurd h (by simp), fun _ => hnoted, honly⟩

/-- Settles O33, event by event: the start of NEGOTIATE, the end of a link, and what a frame that leaves or is discarded does.
That a timeout starts NEGOTIATE again, a refused link TRAINING, and a DOWN link takes block lock is the model's choice (log
entry 72), as is the part of a stamp below a tick (log entry 49). -/
theorem weftLinkResult : Obligations.WeftLinkResult := by
  intro s sd hrun k negotiated isDown
  refine ⟨fun ha h => ⟨_, exec_weftBlockLock hrun ha h, linkNegotiate_spec s sd⟩,
    fun h => ⟨_, exec_weftLinkupTimeout hrun h, linkNegotiate_spec s sd⟩,
    fun ha h => ⟨_, exec_weftRetrain hrun ha h, linkOf_putLink .., linkOnly_putLink ..⟩,
    fun ha h => ⟨_, exec_weftRefusedRetry hrun ha h, by rw [linkOf_putLink], linkOnly_putLink ..⟩,
    fun h => ⟨_, exec_weftLockLost hrun, linkDown_spec h⟩,
    fun h hcrc => ⟨_, exec_weftCrcRunDown hrun hcrc, linkDown_spec h⟩,
    fun h hsilent => ⟨_, exec_weftSilenceDown hrun hsilent, linkDown_spec h⟩,
    fun h hround => ⟨_, _, exec_linkupTb2Round hrun h hround, linkOf_sendSide .., rfl, rfl, linkOnly_sendSide ..⟩,
    fun f hf hsends => weftFrameSend_next hrun hf hsends,
    fun why hsends => weftFrameDiscard_next hrun why hsends⟩

end Sys2Proof.Machine

/-! The offsets of the links (R85): they stand while TB2 steps, while its servo runs, and as a link comes up. -/

namespace Sys2Proof.Machine

open Sys2Proof

/-- What the exchanges of TB2_SYNC have left on each link: the stamp of an open request, whether an offset is known, and the
offset. -/
def offsets (s : State) : Side → Option Nat × Bool × Int :=
  fun sd => ((linkOf s sd).t1, (linkOf s sd).thetaValid, (linkOf s sd).theta)

/-- An update of the other blocks keeps the offsets. -/
@[simp] theorem offsets_mk (x : State)
    (lanes epoch mem time check mor dbg mbox pkt route rack fio safe muslin power boot sec otp maps slot slotPins readData
    freeCtr pending) :
    offsets (.mk lanes epoch mem time check mor dbg x.weft mbox pkt route rack fio safe muslin power boot sec otp maps slot
    slotPins readData freeCtr pending) = offsets x := rfl

@[simp] theorem offsets_ite (c : Prop) [Decidable c] (a b : State) :
    offsets (if c then a else b) = if c then offsets a else offsets b := by
  split <;> rfl

theorem offsets_foldl {α : Type} {f : State → α → State} (h : ∀ s x, offsets (f s x) = offsets s) (xs : List α) (s : State) :
    offsets (xs.foldl f s) = offsets s := by
  induction xs generalizing s with
  | nil => rfl
  | cons x r ih => rw [List.foldl_cons, ih, h]

theorem Messaged.offsets {s t : State} (h : Messaged s t) : offsets t = offsets s := by
  funext sd
  unfold Machine.offsets
  rw [h.links sd]

theorem RackOnly.offsets {s t : State} (h : RackOnly s t) : offsets t = offsets s := by
  unfold RackOnly at h
  rw [h]
  rfl

/-- A link that is replaced by one with the same offset. -/
theorem putLink_offsets {s : State} {sd : Side} {k : Link}
    (h : (k.t1, k.thetaValid, k.theta) = offsets s sd) : offsets (putLink s sd k) = offsets s := by
  funext o
  by_cases ho : o = sd
  · subst ho
    rw [← h, offsets, linkOf_putLink]
  · rw [offsets, linkOf_putLink_ne s k ho, offsets]

/-! ### TB2 and its servo (R39, R275, R286) -/

@[simp] theorem putTb_offsets (s : State) (k : Fin 4) (b : TimeBase) : offsets (putTb s k b) = offsets s := rfl

@[simp] theorem timeEvent_offsets (s : State) (bit : Nat) : offsets (timeEvent s bit) = offsets s := rfl

@[simp] theorem abstainLane_offsets (s : State) (l : LaneId) : offsets (abstainLane s l) = offsets s := rfl

@[simp] theorem divergeLane_offsets (s : State) (l : LaneId) : offsets (divergeLane s l) = offsets s := by
  simp [divergeLane, (rackOnly_rackForget_rackBreakLane _ l).offsets, putLane]

@[simp] theorem epochStep_offsets (s : State) (fwd : Bool) : offsets (epochStep s fwd) = offsets s := by
  simp [epochStep, divergeAll, offsets_foldl divergeLane_offsets]

@[simp] theorem servoTo_offsets (s : State) (k : Fin 4) (st : ServoState) : offsets (servoTo s k st) = offsets s := by
  simp [servoTo]

@[simp] theorem tpoSteps_offsets (s : State) (k : Fin 4) : offsets (tpoSteps s k) = offsets s := by
  simp [tpoSteps]

@[simp] theorem gateSteps_offsets (s : State) (k : Fin 4) : offsets (gateSteps s k) = offsets s := rfl

@[simp] theorem muRequest_offsets (s : State) (mask : Nat) : offsets (muRequest s mask) = offsets s := rfl

@[simp] theorem stepBase_offsets (s : State) (k : Fin 4) (fine : Nat) : offsets (stepBase s k fine) = offsets s := by
  unfold stepBase
  rw [offsets_ite, muRequest_offsets, epochStep_offsets, ite_self, gateSteps_offsets, offsets_ite, tpoSteps_offsets, ite_self,
    servoTo_offsets, timeEvent_offsets, putTb_offsets]

@[simp] theorem servoMeasure_offsets (s : State) (k : Fin 4) (theta : Int) : offsets (servoMeasure s k theta) = offsets s := by
  simp [servoMeasure, servoUpdate]

@[simp] theorem reachStep_offsets (s : State) (n : Nat) : offsets (reachStep s n) = offsets s := rfl

/-- The servo takes the offsets that are new, and they stand. -/
@[simp] theorem syncServo_offsets (s : State) : offsets (syncServo s) = offsets s := by
  have hused : offsets { s with weft := { s.weft with a := { s.weft.a with thetaFresh := false }
                                                      b := { s.weft.b with thetaFresh := false } } } = offsets s := by
    funext sd
    cases sd <;> rfl
  unfold syncServo
  split
  · rfl
  · simp [hused]

@[simp] theorem syncDone_offsets (s : State) : offsets (syncDone s) = offsets s := by
  simp [syncDone]

/-! ### The end of link-up (R87, Table 3.4) -/

theorem messaged_sendNotice (s : State) (i : Nat) (n : Notice) : Messaged s (sendNotice s i n) :=
  .trans (messaged_mboxSend ..) (messaged_putPair ..)

theorem messaged_offerNotice (s : State) (i : Nat) (n : Notice) : Messaged s (offerNotice s i n) := by
  unfold offerNotice
  dsimp only
  split_ifs
  · exact .refl s
  · exact messaged_sendNotice ..
  · exact .trans (messaged_putPair ..) (messagedClosed_mboxEvent ..).messaged
  · exact messaged_putPair ..

@[simp] theorem strangerNotice_offsets (s : State) (sd : Side) : offsets (strangerNotice s sd) = offsets s :=
  offsets_foldl (fun s i => (messaged_offerNotice s i _).offsets) _ s

@[simp] theorem weftEvent_offsets (s : State) (bit : Nat) : offsets (weftEvent s bit) = offsets s := rfl

/-- The module steps TB2 once, and to a sibling's. -/
@[simp] theorem linkStep_offsets (s : State) (k : Link) : offsets (linkStep s k) = offsets s := by
  have hsynced : offsets { s with weft := { s.weft with tb2Synced := true }, freeCtr := s.freeCtr + 1 } = offsets s := rfl
  simp [linkStep, takeFree, hsynced]

@[simp] theorem linkUp_offsets (s : State) (sd : Side) : offsets (linkUp s sd) = offsets s := by
  have hblocks : ∀ (x : State) (n : BitVec 12), offsets { x with weft := { x.weft with cuBlocks := n } } = offsets x :=
    fun _ _ => rfl
  have hput : ∀ (x : State) (st : LinkState) (q : Vector (Option Nat) 8), offsets (putLink x sd { linkOf x sd with
      state := st, fresh := true, intact := true, silentEpochs := 0, agree := 0, quiet := q }) = offsets x :=
    fun _ _ _ => putLink_offsets rfl
  unfold linkUp
  dsimp only
  split
  · rw [reachStep_offsets, hblocks, hput, linkStep_offsets]
  · rw [strangerNotice_offsets, weftEvent_offsets, reachStep_offsets, hblocks, hput, linkStep_offsets]

end Sys2Proof.Machine

/-! Frames of a session (R80, R83, R84, R85, Tables 3.4 and 3.5): HELLO, IDENT, IDENT_RESULT, TB2_SYNC, NAK and MAILBOX as they
are taken. -/

namespace Sys2Proof.Machine

open Sys2Proof

section Frames

variable {s u : State} {sd : Side} {h : WeftHdr} {p : List Byte} (ha : Arrived s u sd h p)

include ha

/-! ### HELLO (R83) -/

theorem exec_weftHello_negotiate (hp : p.length = 48) (hs : (linkOf s sd).state = .negotiate) :
    exec (.weftHello sd h p) s = .next (helloTaken u sd (helloOf p)) := by
  have hstate := ha.state_eq.trans hs
  change execWeftHello sd h p s = _
  exact Eq.trans (takeFrame_unbound ha (beq_iff_eq.mpr hp) (by simp [hstate])) (congrArg _ (if_pos hstate))

theorem exec_weftHello_up (hp : p.length = 48) (hs : (linkOf s sd).state = .up) (hslot : (helloOf p).slot = sideSlot u sd) :
    exec (.weftHello sd h p) s = .next (putLink u sd (notePeer (linkOf u sd) (helloOf p))) := by
  have hstate := ha.state_eq.trans hs
  change execWeftHello sd h p s = _
  refine Eq.trans (takeFrame_unbound ha (beq_iff_eq.mpr hp) (by simp [ha.linkOn (.inl hs)])) (congrArg _ ?_)
  dsimp only
  rw [if_neg (by rw [hstate]; decide), if_pos (beq_iff_eq.mpr hslot)]

omit ha in
/-- A HELLO that fits settles the level and the peer, and IDENT follows. -/
theorem helloTaken_of_fits {d : Hello} (hfits : helloFits u sd d = true) :
    let t := helloTaken u sd d
    (linkOf t sd).state = .identity ∧ (linkOf t sd).level = BitVec.ofNat 4 (min (ownLevel u) d.levelMax) ∧
      (linkOf t sd).nonceGot = d.nonce ∧ (linkOf t sd).peerGen = d.imageGen ∧ (∃ f ∈ (linkOf t sd).txq, f.type = 0x02) ∧
      LinkOnly u t sd := by
  unfold helloTaken
  dsimp only
  rw [if_pos hfits, linkOf_putLink]
  exact ⟨rfl, rfl, rfl, rfl, ⟨_, List.mem_append_right _ (List.mem_singleton_self _), rfl⟩, linkOnly_putLink ..⟩

omit ha in
/-- Another HELLO refuses the link, with a record. -/
theorem helloTaken_of_unfit {d : Hello} (hfits : helloFits u sd d = false) :
    let t := helloTaken u sd d
    (linkOf t sd).state = .refused ∧ t.weft.event = setBit u.weft.event 16 ∧ (∀ o, o ≠ sd → linkOf t o = linkOf u o) ∧
      t = { u with weft := t.weft, mor := t.mor } := by
  obtain ⟨hlink, hevent, hother, hrest⟩ :=
    weftNoted_putLink_spec u sd { notePeer (linkOf u sd) d with state := .refused, level := 0, txq := [] } 16
  unfold helloTaken
  dsimp only
  rw [if_neg (by rw [hfits]; exact Bool.false_ne_true), hlink]
  exact ⟨rfl, hevent, hother, hrest⟩

/-! ### IDENT and IDENT_RESULT (R84) -/

omit ha in
/-- A link whose identity step stands open goes on once both verdicts are there. -/
theorem identReady_spec {k : Link} (hstate : k.state = .identity) :
    identReady k = { k with state := (identReady k).state, syncRounds := (identReady k).syncRounds } ∧
      (identReady k).state = if k.identOk.isSome && k.identResult.isSome then .time else .identity := by
  unfold identReady
  rw [hstate, decide_eq_true rfl, Bool.true_and]
  split
  · exact ⟨rfl, rfl⟩
  · exact ⟨rfl, hstate⟩

theorem exec_weftIdent (hp : p.length = 96) (hs : (linkOf s sd).state = .identity) :
    exec (.weftIdent sd h p) s = .next (
      let ok := identAccepts u sd (p.take 32) (p.drop 32)
      putLink (notePeerKey u sd (p.take 32)) sd (identReady (linkQueue { linkOf u sd with identOk := some ok } 0x03
        (lo32 u.epoch.no) [BitVec.ofNat 8 (b2n ok), 0, 0, 0]))) := by
  change execWeftIdent sd h p s = _
  exact takeFrame_unbound ha (beq_iff_eq.mpr hp) (decide_eq_true (ha.state_eq.trans hs))

theorem exec_weftIdentResult (hp : p.length = 4) (hs : (linkOf s sd).state = .identity) :
    exec (.weftIdentResult sd h p) s = .next (strangerCheck (putLink u sd
      (identReady { linkOf u sd with identResult := some (leAt p 0 1 == 1) }))) := by
  change execWeftIdentResult sd h p s = _
  exact takeFrame_unbound ha (beq_iff_eq.mpr hp) (decide_eq_true (ha.state_eq.trans hs))

omit ha in
theorem notePeerKey_rest (u : State) (sd : Side) (key : List Byte) :
    notePeerKey u sd key = { u with sec := (notePeerKey u sd key).sec } := by
  cases sd <;> rfl

/-- IDENT is judged, and IDENT_RESULT carries the verdict. -/
theorem weftIdent_next (hp : p.length = 96) (hs : (linkOf s sd).state = .identity) :
    ∃ t, exec (.weftIdent sd h p) s = .next t ∧
      (linkOf t sd).identOk = some (identAccepts u sd (p.take 32) (p.drop 32)) ∧
      (∃ f ∈ (linkOf t sd).txq, f.type = 0x03 ∧
        f.payload = [BitVec.ofNat 8 (b2n (identAccepts u sd (p.take 32) (p.drop 32))), 0, 0, 0]) ∧
      (linkOf t sd).state = (if (linkOf u sd).identResult.isSome then .time else .identity) ∧
      (∀ o, o ≠ sd → linkOf t o = linkOf u o) ∧ t = { u with weft := t.weft, sec := t.sec } := by
  refine ⟨_, exec_weftIdent ha hp hs, ?_⟩
  dsimp only
  generalize identAccepts u sd (p.take 32) (p.drop 32) = ok
  have hopen : (linkQueue { linkOf u sd with identOk := some ok } 0x03 (lo32 u.epoch.no)
      [BitVec.ofNat 8 (b2n ok), 0, 0, 0]).state = .identity := ha.state_eq.trans hs
  obtain ⟨hready, hstate⟩ := identReady_spec hopen
  have hput := linkOnly_putLink (notePeerKey u sd (p.take 32)) sd
  rw [notePeerKey_rest] at hput ⊢
  rw [linkOf_putLink]
  refine ⟨?_, ⟨⟨0x03, lo32 u.epoch.no, _, false, 0⟩, ?_, rfl, rfl⟩, hstate, fun o ho => ((hput _).other o ho).trans ?_, ?_⟩
  · rw [hready]
    rfl
  · rw [hready]
    exact List.mem_append_right _ (List.mem_singleton_self _)
  · cases o <;> rfl
  · rw [(hput _).rest]

/-- The peer's verdict is noted. -/
theorem weftIdentResult_next (hp : p.length = 4) (hs : (linkOf s sd).state = .identity) :
    ∃ t, exec (.weftIdentResult sd h p) s = .next t ∧ (linkOf t sd).identResult = some (leAt p 0 1 == 1) ∧
      (linkOf t sd).state = (if (linkOf u sd).identOk.isSome then .time else .identity) ∧
      (∀ o, o ≠ sd → linkOf t o = linkOf u o) ∧ t = { u with weft := t.weft } := by
  refine ⟨_, exec_weftIdentResult ha hp hs, ?_⟩
  have hopen : ({ linkOf u sd with identResult := some (leAt p 0 1 == 1) } : Link).state = .identity := ha.state_eq.trans hs
  obtain ⟨hready, hstate⟩ := identReady_spec hopen
  generalize identReady { linkOf u sd with identResult := some (leAt p 0 1 == 1) } = k at *
  have hlink := linkOf_putLink u sd k
  obtain ⟨hother, hrest⟩ := linkOnly_putLink u sd k
  generalize putLink u sd k = v at *
  rw [linkOf_strangerCheck, hlink]
  refine ⟨by rw [hready], ?_, fun o ho => (linkOf_strangerCheck v o).trans (hother o ho), ?_⟩
  · rw [hstate, Option.isSome_some, Bool.and_true]
  · rw [strangerCheck_rest, hrest]

/-! ### TB2_SYNC (R85) -/

theorem exec_weftTb2Sync_request (hp : p.length = 12) (hs : (linkOf s sd).state = .time ∨ (linkOf s sd).state = .identity ∨
    (linkOf s sd).state = .up ∨ (linkOf s sd).state = .stranger) :
    exec (.weftTb2Sync sd h p) s = .next (syncAnswer u sd p) := by
  change execWeftTb2Sync sd h p s = _
  refine (takeFrame_unbound ha (by rw [hp]; rfl) ?_).trans (congrArg _ (if_pos hp))
  rw [← ha.state_eq] at hs
  rcases hs with hs | hs | hs | hs <;> simp [hs, linkOn]

theorem exec_weftTb2Sync_answer (hp : p.length = 36) (hs : (linkOf s sd).state = .time ∨ (linkOf s sd).state = .up) :
    exec (.weftTb2Sync sd h p) s = .next (syncResult u sd p) := by
  change execWeftTb2Sync sd h p s = _
  refine (takeFrame_unbound ha (by rw [hp]; rfl) ?_).trans (congrArg _ (if_neg (by omega)))
  rw [← ha.state_eq] at hs
  rcases hs with hs | hs <;> simp [hs, linkOn]

end Frames

/-- The answer carries t1, t2, and room for t3. -/
theorem syncAnswer_spec (u : State) (sd : Side) {p : List Byte} (hp : p.length = 12) :
    ∃ f, linkOf (syncAnswer u sd p) sd = { linkOf u sd with txq := (linkOf u sd).txq ++ [f] } ∧ f.type = 0x04 ∧
      f.payload = p ++ stampBytes (stampAt u u.freeCtr) ++ zeros 12 ∧
      LinkOnly { u with freeCtr := u.freeCtr + 1 } (syncAnswer u sd p) sd := by
  have htake : p.take 12 = p := List.take_of_length_le hp.le
  refine ⟨⟨0x04, lo32 u.epoch.no, p.take 12 ++ stampBytes (stampAt u u.freeCtr) ++ zeros 12, false, 0⟩, ?_, rfl, ?_,
    linkOnly_sendSide ..⟩
  · exact (linkOf_sendSide ..).trans (by cases sd <;> rfl)
  · rw [htake]

/-- The offset of an exchange (R85): t2 − t1 and t4 − t3, halved. -/
def offsetBy (p : List Byte) (at' : Nat) : Int :=
  (((leAt p 12 12 : Int) - leAt p 0 12) - ((at' : Int) - leAt p 24 12)) / 2

/-- An answer to the open request gives the offset, in link-up and on a link that is UP. -/
theorem syncResult_offsets {u : State} {sd : Side} {p : List Byte} (hopen : (linkOf u sd).t1 = some (leAt p 0 12)) :
    offsets (syncResult u sd p) sd = (none, true, offsetBy p (stampAt u u.freeCtr)) := by
  have hput : ∀ (v : State) (k : Link), offsets (putLink v sd k) sd = (k.t1, k.thetaValid, k.theta) := fun v k => by
    rw [offsets, linkOf_putLink]
  unfold syncResult
  dsimp only [takeFree]
  rw [if_neg (by simp [hopen])]
  split
  · split
    · rw [linkUp_offsets, hput]
      rfl
    · rw [hput]
      rfl
  · rw [syncDone_offsets]
    split
    · rw [weftEvent_offsets, hput]
      rfl
    · rw [hput]
      rfl

/-! ### The frames that a NAK names (R80) -/

/-- The frames that wait once a NAK has named `seq`: those that did, and those from `seq` on that can still meet their
deadline. -/
def nakQueue (u : State) (k : Link) (seq : U32) : List TxFrame :=
  let again := (k.sent.filter (fun f => (f.seq == seq || seqAfter seq f.seq) && meetsDeadline u f
    && f.epochLo == lo32 u.epoch.no)).map (fun f => { f with resend := true })
  k.txq ++ again.filter (fun f => !k.txq.contains f)

theorem mem_nakQueue_of_sent {u : State} {k : Link} {seq : U32} {f : TxFrame} (hf : f ∈ k.sent)
    (hseq : f.seq = seq ∨ seqAfter seq f.seq = true) (hdue : meetsDeadline u f = true) (hepoch : f.epochLo = lo32 u.epoch.no) :
    { f with resend := true } ∈ nakQueue u k seq := by
  by_cases hwaits : { f with resend := true } ∈ k.txq
  · exact List.mem_append_left _ hwaits
  · refine List.mem_append_right _ (List.mem_filter.mpr ⟨List.mem_map_of_mem (List.mem_filter.mpr ⟨hf, ?_⟩), ?_⟩)
    · simp [hseq, hdue, hepoch]
    · simpa using hwaits

section Frames

variable {s u : State} {sd : Side} {h : WeftHdr} {p : List Byte} (ha : Arrived s u sd h p)

include ha

/-- The answer to the open request gives the offset. -/
theorem weftTb2Sync_next (hp : p.length = 36) (hs : (linkOf s sd).state = .time ∨ (linkOf s sd).state = .up)
    (hopen : (linkOf u sd).t1 = some (leAt p 0 12)) :
    ∃ t at', tb2Stamp u ≤ at' ∧ exec (.weftTb2Sync sd h p) s = .next t ∧ (linkOf t sd).t1 = none ∧
      (linkOf t sd).thetaValid = true ∧ (linkOf t sd).theta = offsetBy p at' := by
  have hoff := syncResult_offsets hopen
  simp only [offsets, Prod.mk.injEq] at hoff
  exact ⟨_, _, tb2Stamp_le_stampAt u u.freeCtr, exec_weftTb2Sync_answer ha hp hs, hoff⟩

/-! ### NAK (R80) -/

theorem exec_weftNak (hp : p.length = 4) (hs : (linkOf s sd).state = .up) (hlevel : (linkOf u sd).level = 3) :
    exec (.weftNak sd h p) s = .next (putLink u sd
      { linkOf u sd with txq := nakQueue u (linkOf u sd) (BitVec.ofNat 32 (leAt p 0 4)) }) := by
  change execWeftNak sd h p s = _
  exact takeFrame_unbound ha (beq_iff_eq.mpr hp) (by simp [ha.linkOn (.inl hs), hlevel])

theorem weftNak_next (hp : p.length = 4) (hs : (linkOf s sd).state = .up) (hlevel : (linkOf u sd).level = 3) :
    ∃ t, exec (.weftNak sd h p) s = .next t ∧
      (∀ f ∈ (linkOf u sd).sent,
        (f.seq = BitVec.ofNat 32 (leAt p 0 4) ∨ seqAfter (BitVec.ofNat 32 (leAt p 0 4)) f.seq = true) →
        meetsDeadline u f = true → f.epochLo = lo32 u.epoch.no → { f with resend := true } ∈ (linkOf t sd).txq) ∧
      (∀ f ∈ (linkOf u sd).txq, f ∈ (linkOf t sd).txq) ∧ (∃ q, linkOf t sd = { linkOf u sd with txq := q }) ∧ LinkOnly u t sd := by
  refine ⟨_, exec_weftNak ha hp hs hlevel, ?_⟩
  rw [linkOf_putLink]
  exact ⟨fun f => mem_nakQueue_of_sent, fun f hf => List.mem_append_left _ hf, ⟨_, rfl⟩, linkOnly_putLink ..⟩

/-! ### MAILBOX (R244) -/

theorem exec_weftMailbox (hserves : servesPair u (22 + sideBit sd) = true) (hreq : bitOf (leAt p 1 1) 0 = false) :
    exec (.weftMailbox sd h p) s = .next (mboxArrive u (22 + sideBit sd) ⟨0, 0⟩ none p) := by
  change execWeftMailbox sd h p s = _
  exact (takeFrame_unbound ha rfl rfl).trans (congrArg _ (if_pos (by simp [hserves, hreq])))

end Frames

/-- Settles O34, type by type: each frame is taken by the equation of its type, and what that leaves is read off the link. What a
HELLO does on a link that is UP and how the SEQ of a NAK is counted are the model's choices (log entries 52 and 50). -/
theorem weftSessionFrames : Obligations.WeftSessionFrames := by
  intro s u sd h p ha k
  refine ⟨fun hp hs => ⟨fun hfits => ?_, fun hfits => ?_⟩, fun hp hs hslot => ?_, weftIdent_next ha, weftIdentResult_next ha,
    fun hp hs => ?_, weftTb2Sync_next ha, weftNak_next ha, fun _ hserves hreq => exec_weftMailbox ha hserves hreq⟩
  · exact ⟨_, exec_weftHello_negotiate ha hp hs, helloTaken_of_fits hfits⟩
  · exact ⟨_, exec_weftHello_negotiate ha hp hs, helloTaken_of_unfit hfits⟩
  · exact ⟨_, exec_weftHello_up ha hp hs hslot, linkOf_putLink .., linkOnly_putLink ..⟩
  · obtain ⟨f, hlink, htype, hpayload, honly⟩ := syncAnswer_spec u sd hp
    exact ⟨_, f, _, tb2Stamp_le_stampAt u u.freeCtr, exec_weftTb2Sync_request ha hp hs, hlink, htype, hpayload, honly⟩

end Sys2Proof.Machine

/-! Lane faults beside an instruction, and the failure of Selvedge (R144, R145, R148, R149, R161, R233, Table 4.6). -/

namespace Sys2Proof.Machine

open Sys2Proof

/-! ### The window of a compare (R145, R149) -/

/-- The lane as FIRN_STATUS shows a cause with the window whose compare raised it. -/
def shownLane (ln : Lane) (cause : Nat) (a b : FirnWindow) : Lane :=
  { ln with firnFrozen := true, firnCause := BitVec.ofNat 4 cause, firnChecker := checkerCause cause, firnMask := causeBit cause
            firnWseq := a.wseq, firnSigL := a.sig, firnSigT := b.sig, firnPos := a.start }

/-- An unfrozen lane's fault with a window is the fault of the lane that shows it already. -/
theorem laneFault_of_unfrozen {s : State} {l : LaneId} (cause : Nat) (a b : FirnWindow)
    (hshed : (laneOf s l).epochState ≠ .shed) (hfault : (laneOf s l).epochState ≠ .faulted) (h : (laneOf s l).firnFrozen = false) :
    laneFault s l cause (some (a, b)) = laneFault (putLane s l (shownLane (laneOf s l) cause a b)) l cause none := by
  have hnote : firnNote (laneOf s l) [cause] (some (a, b)) = firnNote (shownLane (laneOf s l) cause a b) [cause] none := by
    simp [firnNote, shownLane, h, causeMask]
  have hstate : (shownLane (laneOf s l) cause a b).epochState = (laneOf s l).epochState := rfl
  unfold laneFault laneFaults
  dsimp only
  rw [laneOf_putLane, hnote, hstate]
  cases hst : (laneOf s l).epochState with
  | shed => exact absurd hst hshed
  | faulted => exact absurd hst hfault
  | _ => simp only [putLane_putLane]; rfl

/-- A frozen FIRN_STATUS takes no window. -/
theorem laneFault_of_frozen {s : State} {l : LaneId} (cause : Nat) (w : Option (FirnWindow × FirnWindow))
    (h : (laneOf s l).firnFrozen = true) : laneFault s l cause w = laneFault s l cause none := by
  have hnote : firnNote (laneOf s l) [cause] w = firnNote (laneOf s l) [cause] none := by simp [firnNote, h]
  simp only [laneFault, laneFaults, hnote]

theorem laneOf_laneFault {s : State} {l : LaneId} (cause : Nat) (hshed : (laneOf s l).epochState ≠ .shed)
    (hfault : (laneOf s l).epochState ≠ .faulted) :
    laneOf (laneFault s l cause none) l = faultedLane s (laneOf s l) cause := by
  obtain ⟨hlanes, -⟩ := laneFault_rest cause hshed hfault
  rw [laneOf_of_lanes (s := putLane s l (faultedLane s (laneOf s l) cause)) (by rw [hlanes]), laneOf_putLane]

/-- A frozen FIRN_STATUS stands through a fault. -/
theorem faultedLane_of_frozen (s : State) {ln : Lane} (cause : Nat) (h : ln.firnFrozen = true) :
    let n := faultedLane s ln cause
    (n.firnFrozen = true ∧ n.firnCause = ln.firnCause ∧ n.firnMask = ln.firnMask ∧ n.firnChecker = ln.firnChecker) ∧
      n.firnWseq = ln.firnWseq ∧ n.firnSigL = ln.firnSigL ∧ n.firnSigT = ln.firnSigT ∧ n.firnPos = ln.firnPos := by
  intro n
  obtain ⟨_, _, _, _, _, hfirn⟩ := stoppedLane_firn s (notedLane s ln cause)
  unfold n faultedLane
  rw [hfirn]
  split <;> simp [notedLane, firnNote, h]

/-- A fault that a compare raises shows its window, unless FIRN_STATUS stands from an earlier one (R149). -/
theorem laneFaulted_of_compare {s : State} {l : LaneId} (cause : Nat) (a b : FirnWindow)
    (hshed : (laneOf s l).epochState ≠ .shed) (hfault : (laneOf s l).epochState ≠ .faulted) :
    let t := laneFault s l cause (some (a, b))
    LaneFaulted s t l cause ∧ ((laneOf s l).firnFrozen = false → (laneOf t l).firnWseq = a.wseq ∧ (laneOf t l).firnSigL = a.sig ∧
      (laneOf t l).firnSigT = b.sig ∧ (laneOf t l).firnPos = a.start) := by
  intro t
  cases hfrozen : (laneOf s l).firnFrozen
  case true =>
    rw [show t = laneFault s l cause none from laneFault_of_frozen cause _ hfrozen]
    exact ⟨laneFaulted_laneFault cause hshed hfault, fun h => absurd h (by simp)⟩
  case false =>
    let u := putLane s l (shownLane (laneOf s l) cause a b)
    have hlane : laneOf u l = shownLane (laneOf s l) cause a b := laneOf_putLane ..
    have hshed' : (laneOf u l).epochState ≠ .shed := by rw [hlane]; exact hshed
    have hfault' : (laneOf u l).epochState ≠ .faulted := by rw [hlane]; exact hfault
    have ht : t = laneFault u l cause none := laneFault_of_unfrozen cause a b hshed hfault hfrozen
    have hshown := faultedLane_of_frozen u (ln := laneOf u l) cause (by rw [hlane]; rfl)
    rw [← laneOf_laneFault cause hshed' hfault', ← ht] at hshown
    simp only [hlane] at hshown
    obtain ⟨hstatus, hwindow⟩ := hshown
    obtain ⟨gate, stopped, state, disabled, times, counts, -, event, others, rest⟩ := laneFaulted_laneFault cause hshed' hfault'
    rw [← ht] at gate stopped state disabled times counts event others rest
    rw [hlane] at state disabled times counts
    exact ⟨⟨gate, stopped, state, disabled, times, counts, fun _ => hstatus, event,
      fun l' hl => (others l' hl).trans (laneOf_putLane_ne _ _ _ _ hl), rest⟩, fun _ => hwindow⟩

/-! ### The commands of a lane -/

section Lane

variable {s : State} {l : LaneId} (hrun : running s (laneDomain l) = true)

include hrun

theorem exec_windowCompare_of_ne {a b : FirnWindow} {ra rb : List FirnWindow} (ha : (laneOf s l).l.closed = a :: ra)
    (hb : (laneOf s l).t.closed = b :: rb) (hne : a.sig ≠ b.sig) :
    exec (.windowCompare (.lane l) none none false) s = .next (laneFault s l 7 (some (a, b))) := by
  change execWindowCompare (.lane l) none none false s = _
  simp [execWindowCompare, ha, hb, answerOf, hne, railCauses, live_of_running _ hrun, laneFault]

theorem exec_cmpRailTimeout_lane : exec (.cmpRailTimeout (.lane l)) s = .next (laneFault s l 1 none) :=
  live_of_running _ hrun

theorem exec_trailStall_lane (hmode : (laneOf s l).mode = .paired) (hlead : delayLen (laneOf s l) ≤ lead (laneOf s l)) :
    exec (.trailStall (.lane l)) s = .next (laneFault s l 8 none) :=
  (live_of_running _ hrun).trans (congrArg _ (if_pos (by simp [hmode, hlead])))

theorem exec_rejoinCopyDone_unequal (hmode : (laneOf s l).mode = .rejoining) (hstate : (laneOf s l).epochState = .waitSeal) :
    exec (.rejoinCopyDone l false) s = .next (laneFault s l 9 none) :=
  (live_of_running _ hrun).trans (congrArg _ (if_neg (by simp [hmode, hstate])))

end Lane

/-! ### Selvedge fails (R31, R233, R234) -/

theorem recordOpen_rest (s : State) (source lane : Nat) :
    recordOpen s source lane = { s with mor := (recordOpen s source lane).mor, freeCtr := s.freeCtr + 1 } :=
  record_rest ..

theorem selvedgeFail_spec {s : State} (h : s.mbox.failed = false) :
    let t := selvedgeFail s
    t.mbox.failed = true ∧ t.weft.abstainNext = true ∧ t = { s with
      mbox := t.mbox, weft := t.weft, boot := t.boot, mor := t.mor, freeCtr := s.freeCtr + 1 } := by
  intro t
  have ht : t = recordOpen { s with
      mbox := { s.mbox with failed := true }, weft := { s.weft with abstainNext := true }
      boot := { s.boot with failedEarly := s.boot.failedEarly || decide (s.boot.step.toNat < 7) } } 0x12 0xFF :=
    if_neg (by simp [h])
  rw [recordOpen_rest] at ht
  rw [ht]
  exact ⟨rfl, rfl, rfl⟩

/-- A failure of Table 1.5 takes MODULE_OK away and pulls FAULT_L low (R31). -/
theorem moduleOk_faultLow_of_failed {t : State} (h : t.mbox.failed = true) : moduleOk t = false ∧ faultLow t = true := by
  simp [moduleOk, faultLow, h]

/-- Each check of Selvedge's cores that fails leads to its failure (R146, R233). -/
theorem exec_selvedgeCheck_fails {s : State} (hrun : running s 0 = true) {c : Instr}
    (hc : c ∈ ([.windowCompare .selvedge (some .ne) (some .ne) false, .cmpRailTimeout .selvedge, .trailStall .selvedge] :
      List Instr)) : exec c s = .next (selvedgeFail s) := by
  simp only [List.mem_cons, List.not_mem_nil, or_false] at hc
  rcases hc with rfl | rfl | rfl <;> exact live_of_running _ hrun

/-- Settles O26: each check raises its cause in the lane, and Selvedge's own checks its failure. The window that a fault shows
where no compare raised it is the model's choice (log entry 92). -/
theorem laneSelvedgeFaultResult : Obligations.LaneSelvedgeFaultResult := by
  refine ⟨fun s l hrun hshed hfault => ⟨fun a b ra rb ha hb hne => ?_, ?_, fun hmode hlead => ?_, fun hmode hstate => ?_⟩,
    fun s hrun hopen c hc => ?_⟩
  · obtain ⟨hfaulted, hwindow⟩ := laneFaulted_of_compare 7 a b hshed hfault
    exact ⟨_, exec_windowCompare_of_ne hrun ha hb hne, hfaulted, hwindow⟩
  · exact ⟨_, exec_cmpRailTimeout_lane hrun, laneFaulted_laneFault 1 hshed hfault⟩
  · exact ⟨_, exec_trailStall_lane hrun hmode hlead, laneFaulted_laneFault 8 hshed hfault⟩
  · exact ⟨_, exec_rejoinCopyDone_unequal hrun hmode hstate, laneFaulted_laneFault 9 hshed hfault⟩
  · obtain ⟨hfailed, habstain, hrest⟩ := selvedgeFail_spec hopen
    obtain ⟨hok, hlow⟩ := moduleOk_faultLow_of_failed hfailed
    exact ⟨_, exec_selvedgeCheck_fails hrun hc, hfailed, habstain, hok, hlow, hrest⟩

end Sys2Proof.Machine

/-! What a lane does besides instructions and faults, window by window and event by event (R131, R132, R145, R150, R157, R160). -/

namespace Sys2Proof.Machine

open Sys2Proof

/-! ### Windows and drain points (R131, R132, R145) -/

/-- A lane as its oldest window is accepted, its gate apart. -/
def windowTaken (ln : Lane) (a b : FirnWindow) : Lane :=
  let ln := { ln with l := { ln.l with closed := ln.l.closed.tail }, t := { ln.t with closed := ln.t.closed.tail } }
  if ln.firnFrozen then ln else { ln with firnWseq := a.wseq, firnSigL := a.sig, firnSigT := b.sig }

theorem windowTaken_fields {ln : Lane} {a b : FirnWindow} {ra rb : List FirnWindow} (ha : ln.l.closed = a :: ra)
    (hb : ln.t.closed = b :: rb) :
    let n := windowTaken ln a b
    n.l = { ln.l with closed := ra } ∧ n.t = { ln.t with closed := rb } ∧
      (ln.firnFrozen = false → n.firnWseq = a.wseq ∧ n.firnSigL = a.sig ∧ n.firnSigT = b.sig) := by
  unfold windowTaken
  cases h : ln.firnFrozen <;> simp [ha, hb]

section Events

variable {s : State} {l : LaneId} (hrun : running s (laneDomain l) = true)

include hrun

theorem exec_windowCompare_of_eq {a b : FirnWindow} {ra rb : List FirnWindow} (ha : (laneOf s l).l.closed = a :: ra)
    (hb : (laneOf s l).t.closed = b :: rb) (heq : a.sig = b.sig) :
    exec (.windowCompare (.lane l) none none false) s = .next (gateRun (putLane s l (windowTaken (laneOf s l) a b)) l) := by
  change execWindowCompare (.lane l) none none false s = _
  simp only [execWindowCompare, ha, hb, heq, beq_self_eq_true, answerOf, railCauses, live_of_running _ hrun, if_true]
  rfl

/-- A drain point ends once T has reached it and nothing waits (R131). -/
theorem exec_drainComplete_of_drained (hmode : (laneOf (gateRun s l) l).mode = .paired)
    (hdrain : (laneOf (gateRun s l) l).drain.isSome = true) (hdone : drained (laneOf (gateRun s l) l) = true) :
    exec (.drainComplete l) s = .next (putLane (gateRun s l) l { laneOf (gateRun s l) l with
      drain := none, l := { (laneOf (gateRun s l) l).l with sinceDrain := 0 }
      t := { (laneOf (gateRun s l) l).t with sinceDrain := 0 } }) :=
  (live_of_running _ hrun).trans (congrArg _ (if_pos (by simp [hmode, hdrain, hdone])))

/-! ### Mode requests (R157) -/

theorem exec_modeReqWrite_of_allowed {data : U32} (hind : s.lanes.independentActive = false)
    (hmode : data.toNat % 4 = 0 ∨ (data.toNat % 4 = 1 ∧ (laneOf s l).splitAllowed = true)) :
    exec (.modeReqWrite l data) s = .next (putLane s l { laneOf s l with modeReq := BitVec.ofNat 2 (data.toNat % 4) }) := by
  refine (live_of_running _ hrun).trans (congrArg _ ?_)
  unfold modeRequest
  rcases hmode with h | ⟨h, hsplit⟩
  · simp [hind, h]
  · simp [hind, h, hsplit]

end Events

/-! ### The results of injection tests (R150, R154, R155) -/

/-- A lane DISABLED by a missed test (R154, Table 2.8). -/
def missedLane (ln : Lane) : Lane :=
  { ln with disabled := true, reloading := false, epochState := if ln.epochState = .faulted then .stopped else ln.epochState }

/-- The state with the results of a lane's tests, and a miss acted on. -/
def testsNoted (s : State) (l : LaneId) (ln : Lane) (pass : Bool) : State :=
  if pass then putLane s l ln else bistMiss (putLane s l ln) l

/-- Nothing changes but one lane, LANE_EVENT and the recorder. -/
structure LaneTested (s t : State) (l : LaneId) (ln : Lane) (pass : Bool) : Prop where
  lane : laneOf t l = if pass then ln else missedLane ln
  event : t.lanes.event = if pass then s.lanes.event else setBit s.lanes.event (16 + l.val)
  others : ∀ l', l' ≠ l → laneOf t l' = laneOf s l'
  rest : t = { s with lanes := t.lanes, mor := t.mor }

theorem laneTested_testsNoted (s : State) (l : LaneId) (ln : Lane) (pass : Bool) :
    LaneTested s (testsNoted s l ln pass) l ln pass := by
  cases pass
  case true => exact ⟨laneOf_putLane .., rfl, fun l' h => laneOf_putLane_ne _ _ _ _ h, rfl⟩
  case false =>
    let x := laneEvent (putLane s l ln) (16 + l.val)
    let y := recordBit x 0 0x90C (16 + l.val) x.lanes.event.toNat l.val [(laneOf x l).bistDetected.zeroExtend 8]
    have hy : y = { x with mor := y.mor } := recordBit_rest ..
    have hlanes : y.lanes = x.lanes := by rw [hy]
    have hlane : laneOf y l = ln := by rw [laneOf_of_lanes (s := putLane s l ln) (by rw [hlanes]; rfl), laneOf_putLane]
    have ht : testsNoted s l ln false = putLane y l (missedLane (laneOf y l)) := rfl
    rw [ht, hlane]
    refine ⟨laneOf_putLane .., congrArg LaneBlock.event hlanes, fun l' h => ?_, ?_⟩
    · rw [laneOf_putLane_ne _ _ _ _ h, laneOf_of_lanes (s := putLane s l ln) (by rw [hlanes]; rfl), laneOf_putLane_ne _ _ _ _ h]
    · rw [putLane, hy]
      rfl

/-- Each injection of Table 4.7 raises its expected cause and no other. -/
theorem injectionFound_listed : ∀ test ∈ ([1, 2, 3, 4, 5, 6] : List Nat), injectionFound test = true := by decide +kernel

/-- The lane's checks find every injection, so the silicon's own finding decides. -/
theorem selfTest_eq (found : BitVec 6) : selfTest found = found := by
  have hall : ([1, 2, 3, 4, 5, 6] : List Nat).map injectionFound = [true, true, true, true, true, true] :=
    List.map_congr_left (g := fun _ => true) injectionFound_listed
  rw [selfTest, hall]
  exact BitVec.and_allOnes

theorem exec_injectionTestsDone {s : State} {l : LaneId} (d : BitVec 6) (hrun : running s (laneDomain l) = true)
    (hstate : (laneOf s l).epochState = .faulted) (hdue : (laneOf s l).testsDue = true) :
    exec (.injectionTestsDone l d) s = .next (testsNoted s l { laneOf s l with
      bistDetected := d, bistDone := true, bistAllPass := d == 0x3F, bistPass := d == 0x3F, bistLast := 6, testsDue := false }
      (d == 0x3F)) := by
  refine (live_of_running _ hrun).trans (congrArg _ ((if_pos (by simp [hstate, hdue])).trans ?_))
  rw [bistResult, selfTest_eq]
  rfl

theorem getLsbD_setBit {w : Nat} (x : BitVec w) (i j : Nat) :
    (setBit x i).getLsbD j = (x.getLsbD j || (decide (j < w) && decide (i = j))) := by
  rw [setBit, BitVec.getLsbD_or, BitVec.getLsbD_ofNat, Nat.testBit_two_pow]

theorem getLsbD_putBit_self {w : Nat} (x : BitVec w) {i : Nat} (b : Bool) (h : i < w) : (putBit x i b).getLsbD i = b := by
  cases b
  · simp only [putBit, clearBit, Bool.false_eq_true, if_false, BitVec.getLsbD_and, BitVec.getLsbD_not, BitVec.getLsbD_ofNat, h,
      decide_true, Nat.testBit_two_pow_self, Bool.and_self, Bool.not_true, Bool.and_false]
  · exact getLsbD_setBit_self x h

/-- One injection test of a STOPPED lane (R154, R155). -/
structure InjectionRun (s t : State) (l : LaneId) (test : Nat) (hit : Bool) : Prop where
  done : (laneOf t l).bistDone = true
  last : (laneOf t l).bistLast = BitVec.ofNat 3 test
  found : (laneOf t l).bistDetected.getLsbD (test - 1) = hit
  missed : hit = false → (laneOf t l).disabled = true
  others : ∀ l', l' ≠ l → laneOf t l' = laneOf s l'
  rest : t = { s with lanes := t.lanes, mor := t.mor }

theorem injectionRun_injectTest (s : State) (l : LaneId) {test : Nat} (hit : Bool) (h1 : 1 ≤ test) (h6 : test ≤ 6) :
    InjectionRun s (injectTest s l test hit) l test hit := by
  have hfound : injectionFound test = true := injectionFound_listed test (by simp; omega)
  let d := putBit (laneOf s l).bistDetected (test - 1) hit
  have hd : d.getLsbD (test - 1) = hit := getLsbD_putBit_self _ _ (by omega)
  let ln : Lane := { laneOf s l with bistDetected := d, bistDone := true, bistAllPass := d == 0x3F, bistPass := d == 0x3F
                                     bistLast := BitVec.ofNat 3 test }
  have ht : injectTest s l test hit = testsNoted s l ln hit := by
    simp only [injectTest, hfound, Bool.and_true]
    rw [hd]
    rfl
  obtain ⟨hlane, -, hothers, hrest⟩ := laneTested_testsNoted s l ln hit
  rw [← ht] at hlane hothers hrest
  cases hit
  · refine ⟨?_, ?_, ?_, fun _ => ?_, hothers, hrest⟩ <;> rw [hlane]
    exacts [rfl, rfl, hd, rfl]
  · refine ⟨?_, ?_, ?_, fun h => absurd h (by decide), hothers, hrest⟩ <;> rw [hlane]
    exacts [rfl, rfl, hd]

/-- A write of GO with a test of 1 to 6 runs that test (R155). -/
theorem injectionRun_injectWrite (s : State) (l : LaneId) {data : U32} (hit : Bool) (hgo : data.getLsbD 3 = true)
    (h1 : 1 ≤ data.toNat % 8) (h6 : data.toNat % 8 ≤ 6) : InjectionRun s (injectWrite s l data hit) l (data.toNat % 8) hit := by
  have hw : injectWrite s l data hit = injectTest s l (data.toNat % 8) hit := if_pos (by simp only [hgo, h1, h6]; rfl)
  rw [hw]
  exact injectionRun_injectTest s l hit h1 h6

theorem exec_firnInject_of_stopped {s : State} {l : LaneId} (data : U32) (hit : Bool) (hrun : running s 0 = true)
    (hstate : (laneOf s l).epochState = .stopped) : exec (.firnInject l data hit) s = .next (injectWrite s l data hit) :=
  (live_of_running _ hrun).trans (congrArg _ (if_pos hstate))

end Sys2Proof.Machine

/-! A lane loaded anew and a lane whose trailing core rejoins (R137, R150, R156, R160, R169, R218). -/

namespace Sys2Proof.Machine

open Sys2Proof

/-! ### The lane is loaded from its image (R137, R156, R169) -/

/-- A lane as it is loaded from its image. -/
def loadedLane (s : State) (ln : Lane) (im : LaneImage) : Lane :=
  let it := sectionBytes im 0 [] 0
  let dt := sectionBytes im 1 [] 0
  { ln with
    l := reloadedCore ln.l it dt, t := reloadedCore ln.t it dt
    mode := if s.lanes.independentActive then .independent else .paired, modeReq := 0, modeTaken := 0
    epochState := .diverged, drift := [], gate := [], drain := none, rejoinDone := false, sealSeen := false
    faultPending := false, firnFrozen := false, caughtUp := false, admits := 0, admitted := false, resend := false
    readStale := false, staleRejected := false, retiredAtSeal := 0, reloading := false }

theorem ite_laneEvent (s : State) (c : Bool) (n : Nat) :
    (if c then laneEvent s n else s) = { s with lanes := { s.lanes with event := if c then setBit s.lanes.event n else s.lanes.event } } := by
  cases c <;> rfl

theorem loadLane_spec (s : State) (l : LaneId) (im : LaneImage) :
    let t := loadLane s l im
    laneOf t l = loadedLane s (laneOf s l) im ∧ (∀ l', l' ≠ l → laneOf t l' = laneOf s l') ∧
      t = { s with lanes := t.lanes, mem := t.mem, check := t.check, mbox := t.mbox, epoch := t.epoch, rack := t.rack } := by
  intro t
  obtain ⟨x, hlanes, hx, ht⟩ : ∃ x : State, x.lanes.lane = (putLane s l (loadedLane s (laneOf s l) im)).lanes.lane ∧
      x = { s with lanes := x.lanes, mem := x.mem, check := x.check, mbox := x.mbox, epoch := x.epoch } ∧
      t = rackForget (rackBreakLane x l) l := by
    unfold t loadLane
    simp only [ite_laneEvent]
    refine ⟨_, ?_, ?_, rfl⟩
    · rfl
    · rfl
  have hrack : RackOnly x t := ht ▸ rackOnly_rackForget_rackBreakLane x l
  unfold RackOnly at hrack
  have hlane : t.lanes.lane = (putLane s l (loadedLane s (laneOf s l) im)).lanes.lane := by rw [hrack, ← hlanes]
  refine ⟨?_, fun l' h => ?_, ?_⟩
  · rw [laneOf_of_lanes hlane, laneOf_putLane]
  · rw [laneOf_of_lanes hlane, laneOf_putLane_ne _ _ _ _ h]
  · rw [hrack, hx]

theorem leaveExcluded_rest (s : State) : leaveExcluded s = { s with weft := (leaveExcluded s).weft } := by
  unfold leaveExcluded
  split <;> rfl

/-- A reload is complete (R150, R535). -/
theorem exec_laneReloadDone {s : State} {l : LaneId} {im : LaneImage} (hrun : running s (laneDomain l) = true)
    (himage : (laneOf s l).image = some im) (hable : (laneOf s l).disabled = false) (htests : (laneOf s l).testsDue = false)
    (hdue : (laneOf s l).epochState = .faulted ∨ (laneOf s l).reloading = true) :
    exec (.laneReloadDone l) s = .next (leaveExcluded (loadLane s l im)) := by
  change execLaneReloadDone l s = _
  simp only [execLaneReloadDone, himage, hable, htests, live_of_running _ hrun]
  rw [if_pos (by simpa using hdue)]

theorem laneReloadDone_next {s : State} {l : LaneId} {im : LaneImage} (hrun : running s (laneDomain l) = true)
    (himage : (laneOf s l).image = some im) (hable : (laneOf s l).disabled = false) (htests : (laneOf s l).testsDue = false)
    (hdue : (laneOf s l).epochState = .faulted ∨ (laneOf s l).reloading = true) :
    ∃ t, exec (.laneReloadDone l) s = .next t ∧ laneOf t l = loadedLane s (laneOf s l) im ∧
      (∀ l', l' ≠ l → laneOf t l' = laneOf s l') ∧
      t = { s with lanes := t.lanes, mem := t.mem, check := t.check, mbox := t.mbox, epoch := t.epoch, rack := t.rack
                   weft := t.weft } := by
  obtain ⟨hlane, hothers, hrest⟩ := loadLane_spec s l im
  have hleave := leaveExcluded_rest (loadLane s l im)
  have hlanes : (leaveExcluded (loadLane s l im)).lanes.lane = (loadLane s l im).lanes.lane := by rw [hleave]
  refine ⟨_, exec_laneReloadDone hrun himage hable htests hdue, ?_, fun l' h => ?_, ?_⟩
  · rw [laneOf_of_lanes hlanes, hlane]
  · rw [laneOf_of_lanes hlanes, hothers l' h]
  · rw [hleave, hrest]

/-! ### A rejoin whose copy is equal (R160) -/

/-- A lane as its equal copy ends: PAIRED, and in COMPUTE where the seal has passed. -/
def copiedLane (ln : Lane) : Lane := if ln.sealSeen then enteredLane (rejoined ln) else rejoined ln

/-- A lane that enters its epoch has the entry's registers in both cores. -/
theorem enteredLane_cores (ln : Lane) : ∃ el et, enteredLane ln = { ln with
    l := { entryCore ln.l with entry := el }, t := { entryCore ln.t with entry := et }, epochState := .compute
    retiredAtSeal := ln.l.retired, drain := none, computed := true } := by
  unfold enteredLane feedEntry
  cases isSplit ln <;> exact ⟨_, _, rfl⟩

theorem copiedLane_fields {ln : Lane} (hstate : ln.epochState = .waitSeal) :
    let n := copiedLane ln
    n.mode = .paired ∧ n.epochState = (if ln.sealSeen then .compute else .waitSeal) ∧ n.t.g = ln.l.g ∧ n.t.f = ln.l.f ∧
      n.t.itcm = ln.l.itcm ∧ n.t.dtcm = ln.l.dtcm ∧ n.t.cr = n.l.cr ∧ n.t.pc = n.l.pc := by
  intro n
  cases hseal : ln.sealSeen
  · have hn : n = rejoined ln := if_neg (by simp [hseal])
    rw [hn]
    exact ⟨rfl, hstate, rfl, rfl, rfl, rfl, rfl, rfl⟩
  · obtain ⟨el, et, hentered⟩ := enteredLane_cores (rejoined ln)
    have hn : n = enteredLane (rejoined ln) := if_pos hseal
    rw [hn, hentered]
    exact ⟨rfl, rfl, rfl, rfl, rfl, rfl, rfl, rfl⟩

theorem exec_rejoinCopyDone_equal {s : State} {l : LaneId} (hrun : running s (laneDomain l) = true)
    (hmode : (laneOf s l).mode = .rejoining) (hstate : (laneOf s l).epochState = .waitSeal) :
    exec (.rejoinCopyDone l true) s = .next (
      let t := laneEvent (putLane s l (rejoined (laneOf s l))) (24 + l.val)
      if (laneOf s l).sealSeen then epochEntry t l else t) :=
  (live_of_running _ hrun).trans (congrArg _ (if_neg (by simp [hmode, hstate])))

theorem rejoinCopyDone_next {s : State} {l : LaneId} (hrun : running s (laneDomain l) = true)
    (hmode : (laneOf s l).mode = .rejoining) (hstate : (laneOf s l).epochState = .waitSeal) :
    ∃ t, exec (.rejoinCopyDone l true) s = .next t ∧ laneOf t l = copiedLane (laneOf s l) ∧
      t.lanes.event = setBit s.lanes.event (24 + l.val) ∧ (∀ l', l' ≠ l → laneOf t l' = laneOf s l') ∧
      t = { s with lanes := t.lanes, check := t.check } := by
  let x := laneEvent (putLane s l (rejoined (laneOf s l))) (24 + l.val)
  have hx : laneOf x l = rejoined (laneOf s l) := laneOf_putLane ..
  have hothers : ∀ l', l' ≠ l → laneOf x l' = laneOf s l' := fun l' h => laneOf_putLane_ne _ _ _ _ h
  refine ⟨_, exec_rejoinCopyDone_equal hrun hmode hstate, ?_⟩
  cases hseal : (laneOf s l).sealSeen
  · exact ⟨by rw [copiedLane, hseal]; exact hx, rfl, hothers, rfl⟩
  · refine ⟨?_, rfl, fun l' h => (laneOf_epochEntry_ne x h).trans (hothers l' h), rfl⟩
    rw [copiedLane, hseal]
    exact (laneOf_epochEntry x l).trans (by rw [hx]; rfl)

end Sys2Proof.Machine

/-! Performance levels and the speed monitor (R165, R166, Tables 4.16, 4.17). -/

namespace Sys2Proof.Machine

open Sys2Proof

/-! ### Performance levels (R165) -/

/-- The level of a domain in LANE_PERF. -/
def perfLevel (b : LaneBlock) (d : Nat) : Nat := b.perf.toNat / 4 ^ d % 4

/-- The level field of one domain set in a byte: no other field changes. -/
theorem setLevel_spec {p d e v : Nat} (hp : p < 256) (hd : d < 4) (he : e < 4) (hv : v < 4) :
    (p + v * 4 ^ e - p / 4 ^ e % 4 * 4 ^ e) % 256 / 4 ^ d % 4 = if d = e then v else p / 4 ^ d % 4 := by
  interval_cases e <;> interval_cases d <;> norm_num <;> omega

theorem perfLevel_perfField (b : LaneBlock) {d e v : Nat} (hd : d < 4) (he : e < 4) (hv : v < 4) :
    perfLevel (perfField b e v) d = if d = e ∧ v ≠ 3 then v else perfLevel b d := by
  have hset := setLevel_spec b.perf.isLt hd he hv
  unfold perfField perfLevel
  dsimp only
  split
  · next h =>
    simp only [Bool.or_eq_true, decide_eq_true_eq] at h
    split
    · next hk => obtain ⟨rfl, hk3⟩ := hk; exact (h.resolve_left hk3).symm
    · rfl
  · next h =>
    simp only [Bool.or_eq_true, decide_eq_true_eq, not_or] at h
    rw [BitVec.toNat_ofNat, hset]
    simp [h.1]

theorem ramping_perfField (b : LaneBlock) {d e v : Nat} (hd : d < 4) :
    (perfField b e v).ramping.getLsbD d = (b.ramping.getLsbD d || (decide (d = e) && (v != 3 && v != perfLevel b d))) := by
  unfold perfField
  dsimp only
  split
  · next h =>
    simp only [Bool.or_eq_true, decide_eq_true_eq] at h
    by_cases hde : d = e
    · subst hde
      rcases h with h | h <;> simp [h, perfLevel]
    · simp [hde]
  · next h =>
    simp only [Bool.or_eq_true, decide_eq_true_eq, not_or] at h
    rw [getLsbD_setBit]
    by_cases hde : d = e
    · subst hde
      simp [hd, h.1, perfLevel, h.2]
    · simp [hde, Ne.symm hde]

theorem perfField_rest (b : LaneBlock) (e v : Nat) :
    perfField b e v = { b with perf := (perfField b e v).perf, ramping := (perfField b e v).ramping } := by
  unfold perfField
  dsimp only
  split <;> rfl

/-- The fields that a write of LANE_PERF names, taken one after another. -/
theorem perfFields_spec (lv : Nat → Nat) (hlv : ∀ d, lv d < 4) (es : List Nat) (hes : ∀ e ∈ es, e < 4) (hnd : es.Nodup) (b : LaneBlock) :
    let c := es.foldl (fun b e => perfField b e (lv e)) b
    (∀ d < 4, perfLevel c d = (if d ∈ es ∧ lv d ≠ 3 then lv d else perfLevel b d) ∧
      c.ramping.getLsbD d = (b.ramping.getLsbD d || (decide (d ∈ es) && (lv d != 3 && lv d != perfLevel b d)))) ∧
    c = { b with perf := c.perf, ramping := c.ramping } := by
  induction es generalizing b with
  | nil => exact ⟨fun d _ => ⟨by simp, by simp⟩, rfl⟩
  | cons e es ih =>
    obtain ⟨hfresh, hnd'⟩ := List.nodup_cons.mp hnd
    have he : e < 4 := hes e List.mem_cons_self
    obtain ⟨hfields, hrest⟩ := ih (fun x hx => hes x (List.mem_cons_of_mem _ hx)) hnd' (perfField b e (lv e))
    refine ⟨fun d hd => ?_, ?_⟩
    · obtain ⟨hlevel, hramp⟩ := hfields d hd
      rw [perfLevel_perfField b hd he (hlv e)] at hlevel hramp
      rw [ramping_perfField b hd] at hramp
      rw [List.foldl_cons, hlevel, hramp]
      by_cases hde : d = e
      · subst hde
        simp [hfresh]
      · simp [hde]
    · rw [List.foldl_cons, hrest, perfField_rest]

theorem lanePerfWrite_next {s : State} (data : U32) (hrun : running s 0 = true) :
    ∃ t, exec (.lanePerfWrite data) s = .next t ∧
      (∀ d < 4, let new := data.toNat / 4 ^ d % 4
        perfLevel t.lanes d = (if new = 3 then perfLevel s.lanes d else new) ∧
        t.lanes.ramping.getLsbD d = (s.lanes.ramping.getLsbD d || (new != 3 && new != perfLevel s.lanes d))) ∧
      t = { s with lanes := { s.lanes with perf := t.lanes.perf, ramping := t.lanes.ramping } } := by
  obtain ⟨hfields, hrest⟩ := perfFields_spec (fun d => data.toNat / 4 ^ d % 4) (fun d => Nat.mod_lt _ (by decide)) [0, 1, 2, 3]
    (by decide) (by decide) s.lanes
  refine ⟨_, live_of_running _ hrun, fun d hd => ?_, congrArg (fun b => { s with lanes := b }) hrest⟩
  obtain ⟨hlevel, hramp⟩ := hfields d hd
  have hmem : d ∈ ([0, 1, 2, 3] : List Nat) := by simp; omega
  simp only [hmem, true_and, decide_true, Bool.true_and, ite_not] at hlevel hramp
  exact ⟨hlevel, hramp⟩

/-! ### The speed monitor (R166) -/

theorem exec_laneSpeedRead {s : State} (l : LaneId) (hrun : running s 0 = true) :
    exec (.laneSpeedRead l) s = .next { putLane s l { laneOf s l with l := { (laneOf s l).l with speedMin := 0xFFFF } } with
      readData := BitVec.ofNat 32 ((laneOf s l).l.speedCur.toNat + 65536 * (laneOf s l).l.speedMin.toNat) } := by
  have hread : laneSetRead s l 0x0C = BitVec.ofNat 32 ((laneOf s l).l.speedCur.toNat + 65536 * (laneOf s l).l.speedMin.toNat) := by
    simp [laneSetRead, reg32, at', Nat.mul_comm]
  refine congrArg _ ((if_pos hrun).trans ?_)
  rw [hread]

/-- LANE_EVENT as the lanes for which a bit is due set theirs. -/
theorem laneEvents_spec (due : LaneId → Bool) (ls : List LaneId) (s : State) :
    let t := ls.foldl (fun t l => if due l then laneEvent t l.val else t) s
    (∀ j : LaneId, t.lanes.event.getLsbD j.val = (s.lanes.event.getLsbD j.val || (decide (j ∈ ls) && due j))) ∧
      t = { s with lanes := { s.lanes with event := t.lanes.event } } := by
  induction ls generalizing s with
  | nil => exact ⟨fun j => by simp, rfl⟩
  | cons l ls ih =>
    obtain ⟨hbits, hrest⟩ := ih (if due l then laneEvent s l.val else s)
    simp only [ite_laneEvent] at hbits hrest
    refine ⟨fun j => ?_, ?_⟩
    · simp only [List.foldl_cons, ite_laneEvent]
      rw [hbits]
      have hj : j.val < 32 := Nat.lt_trans j.isLt (by decide)
      by_cases hjl : l = j
      · subst hjl
        cases due l <;> simp [getLsbD_setBit, hj]
      · have hval : l.val ≠ j.val := fun h => hjl (Fin.ext h)
        cases due l <;> simp [getLsbD_setBit, hval, Ne.symm hjl]
    · simp only [List.foldl_cons, ite_laneEvent]
      rw [hrest]

/-- A lane as its interval ends. -/
def speedLane (s : State) (l : LaneId) (ln : Lane) : Lane :=
  if running s (laneDomain l) then
    { ln with l := speedCore ln.l (inCompute ln), t := speedCore ln.t (inCompute ln), computed := ln.epochState = .compute }
  else ln

theorem speedInterval_next (s : State) :
    ∃ t, exec .speedInterval s = .next t ∧ (∀ l, laneOf t l = speedLane s l (laneOf s l)) ∧
      (∀ l, t.lanes.event.getLsbD l.val =
        (s.lanes.event.getLsbD l.val || (running s (laneDomain l) && speedLow s (laneOf s l)))) ∧
      t = { s with lanes := { s.lanes with lane := t.lanes.lane, event := t.lanes.event } } := by
  have hspec := laneEvents_spec (fun l => running s (laneDomain l) && speedLow s (laneOf s l)) (List.finRange 8)
    (mapLanes s (speedLane s))
  have hexec : exec .speedInterval s = .next ((List.finRange 8).foldl (fun t l =>
    if running s (laneDomain l) && speedLow s (laneOf s l) then laneEvent t l.val else t) (mapLanes s (speedLane s))) := rfl
  generalize (List.finRange 8).foldl _ _ = t at hspec hexec
  obtain ⟨hbits, hrest⟩ := hspec
  have hlanes : t.lanes.lane = (mapLanes s (speedLane s)).lanes.lane := by rw [hrest]
  refine ⟨t, hexec, fun l => ?_, fun l => (hbits l).trans (by simp [mapLanes]), ?_⟩
  · rw [laneOf_of_lanes hlanes, laneOf_mapLanes]
  · rw [hlanes]
    exact hrest

end Sys2Proof.Machine

/-! The events of a lane, each against its clause of O27. -/

namespace Sys2Proof.Machine

open Sys2Proof

theorem injectionTestsDone_next {s : State} {l : LaneId} (d : BitVec 6) (hrun : running s (laneDomain l) = true)
    (hstate : (laneOf s l).epochState = .faulted) (hdue : (laneOf s l).testsDue = true) :
    ∃ t, exec (.injectionTestsDone l d) s = .next t ∧ (laneOf t l).bistDetected = d ∧ (laneOf t l).testsDue = false ∧
      (laneOf t l).bistPass = (d == 0x3F) ∧
      (d = 0x3F → (laneOf t l).epochState = .faulted ∧ t.lanes.event = s.lanes.event) ∧
      (d ≠ 0x3F → (laneOf t l).disabled = true ∧ (laneOf t l).epochState = .stopped ∧
        t.lanes.event = setBit s.lanes.event (16 + l.val)) ∧
      (∀ l', l' ≠ l → laneOf t l' = laneOf s l') ∧ t = { s with lanes := t.lanes, mor := t.mor } := by
  let ln : Lane := { laneOf s l with
    bistDetected := d, bistDone := true, bistAllPass := d == 0x3F, bistPass := d == 0x3F, bistLast := 6, testsDue := false }
  obtain ⟨hlane, hevent, hothers, hrest⟩ := laneTested_testsNoted s l ln (d == 0x3F)
  refine ⟨_, exec_injectionTestsDone d hrun hstate hdue, ?_⟩
  by_cases hd : d = 0x3F
  · rw [if_pos (beq_iff_eq.mpr hd)] at hlane hevent
    exact ⟨by rw [hlane], by rw [hlane], by rw [hlane], fun _ => ⟨by rw [hlane]; exact hstate, hevent⟩, fun h => absurd hd h,
      hothers, hrest⟩
  · rw [if_neg (by simpa using hd)] at hlane hevent
    exact ⟨by rw [hlane]; rfl, by rw [hlane]; rfl, by rw [hlane]; rfl, fun h => absurd h hd,
      fun _ => ⟨by rw [hlane]; rfl, by rw [hlane]; exact if_pos hstate, hevent⟩, hothers, hrest⟩

/-- A core of a lane that is loaded anew: registers 0, its TCM from the image (R169). -/
theorem loadedLane_core {s : State} {ln : Lane} {im : LaneImage} {k : Core}
    (hk : k ∈ [(loadedLane s ln im).l, (loadedLane s ln im).t]) :
    k.g = Vector.replicate 32 0 ∧ k.f = Vector.replicate 32 0 ∧ k.pc = 0 ∧ k.retired = 0 ∧ k.cr = CtrlRegs.reset ∧
      k.itcm = sectionBytes im 0 [] 0 ∧ k.dtcm = sectionBytes im 1 [] 0 := by
  simp only [List.mem_cons, List.not_mem_nil, or_false] at hk
  rcases hk with rfl | rfl <;> exact ⟨rfl, rfl, rfl, rfl, rfl, rfl, rfl⟩

/-- Settles O27, event by event: each is the equation of its command, and what that leaves is read off the lane. That SPEED_LOW
takes the count of either core is the model's choice (log entry 94). -/
theorem laneEventResult : Obligations.LaneEventResult := by
  refine ⟨fun s l hrun => ⟨fun a b ra rb ha hb heq => ?_, fun hmode hdrain hdone => ?_,
    fun d => injectionTestsDone_next d hrun, fun im himage hable htests hdue => ?_, fun hmode hstate => ?_,
    fun data => exec_modeReqWrite_of_allowed hrun⟩,
    fun s l hrun => ⟨fun test data hit hstate h1 h6 htest hgo => ?_, exec_laneSpeedRead l hrun, fun data => ?_⟩,
    fun s => ⟨fun d hp => congrArg _ (if_pos hp), ?_⟩⟩
  · obtain ⟨hl, ht, hshown⟩ := windowTaken_fields ha hb
    refine ⟨_, exec_windowCompare_of_eq hrun ha hb heq, ?_⟩
    rw [laneOf_putLane]
    exact ⟨hl, ht, hshown, fun l' h => laneOf_putLane_ne _ _ _ _ h, rfl⟩
  · refine ⟨_, exec_drainComplete_of_drained hrun hmode hdrain hdone, ?_⟩
    rw [laneOf_putLane]
    exact ⟨rfl, rfl, fun l' h => laneOf_putLane_ne _ _ _ _ h, rfl⟩
  · obtain ⟨t, hexec, hlane, hothers, hrest⟩ := laneReloadDone_next hrun himage hable htests hdue
    refine ⟨t, hexec, ?_⟩
    rw [hlane]
    exact ⟨rfl, rfl, rfl, fun k hk => loadedLane_core hk, hothers, hrest⟩
  · obtain ⟨t, hexec, hlane, hevent, hothers, hrest⟩ := rejoinCopyDone_next hrun hmode hstate
    obtain ⟨hpaired, hentered, hg, hf, hitcm, hdtcm, hcr, hpc⟩ := copiedLane_fields hstate
    refine ⟨t, hexec, ?_⟩
    rw [hlane]
    exact ⟨hpaired, hentered, hg, hf, hitcm, hdtcm, hcr, hpc, hevent, hothers, hrest⟩
  · subst htest
    obtain ⟨hdone, hlast, hfound, hmissed, hothers, hrest⟩ := injectionRun_injectWrite s l hit hgo h1 h6
    exact ⟨_, exec_firnInject_of_stopped data hit hrun hstate, hdone, hlast, hfound, hmissed, hothers, hrest⟩
  · obtain ⟨t, hexec, hfields, hrest⟩ := lanePerfWrite_next data hrun
    exact ⟨t, hexec, fun d => hfields d.val d.isLt, hrest⟩
  · obtain ⟨t, hexec, hlane, hevent, hrest⟩ := speedInterval_next s
    refine ⟨t, hexec, fun l hl => ?_, hevent, hrest⟩
    rw [hlane l, speedLane, if_pos hl]
    exact ⟨rfl, rfl, rfl⟩

end Sys2Proof.Machine

/-! What leaves the debug block alone: every operation that a register write of another block leads to (R14, R497, R500). -/

namespace Sys2Proof.Machine

open Sys2Proof

theorem dbg_ite (c : Prop) [Decidable c] {a b s : State} (ha : a.dbg = s.dbg) (hb : b.dbg = s.dbg) : (if c then a else b).dbg = s.dbg := by
  split
  · exact ha
  · exact hb

theorem dbg_foldl {α : Type} {f : State → α → State} (h : ∀ s x, (f s x).dbg = s.dbg) (xs : List α) (s : State) :
    (xs.foldl f s).dbg = s.dbg := by
  induction xs generalizing s with
  | nil => rfl
  | cons x xs ih => rw [List.foldl_cons, ih, h]

theorem RackOnly.dbg {s t : State} (h : RackOnly s t) : t.dbg = s.dbg := by
  unfold RackOnly at h
  rw [h]

/-! ### Records, lanes and time bases -/

@[simp] theorem record_dbg (s : State) (source : Nat) (code : U16) (lane : Nat) (data : List Byte) :
    (record s source code lane data).dbg = s.dbg := by rw [record_rest]

@[simp] theorem recordIgnored_dbg (s : State) (block addr value lane rule : Nat) :
    (recordIgnored s block addr value lane rule).dbg = s.dbg := record_dbg ..

@[simp] theorem rwpWrite_dbg (s : State) (block addr : Nat) (data : U32) : (rwpWrite s block addr data).dbg = s.dbg := record_dbg ..

@[simp] theorem modeRequest_dbg (s : State) (l : LaneId) (data : U32) : (modeRequest s l data).dbg = s.dbg :=
  dbg_ite _ rfl rfl

@[simp] theorem perfWrite_dbg (s : State) (data : U32) : (perfWrite s data).dbg = s.dbg := rfl

@[simp] theorem bistMiss_dbg (s : State) (l : LaneId) : (bistMiss s l).dbg = s.dbg := by
  unfold bistMiss disableLane
  rw [putLane_dbg, recordBit_rest]
  rfl

@[simp] theorem injectWrite_dbg (s : State) (l : LaneId) (data : U32) (hit : Bool) : (injectWrite s l data hit).dbg = s.dbg :=
  dbg_ite _ (dbg_ite _ rfl (bistMiss_dbg ..)) rfl

@[simp] theorem divergeLane_dbg (s : State) (l : LaneId) : (divergeLane s l).dbg = s.dbg :=
  dbg_ite _ rfl (rackOnly_rackForget_rackBreakLane ..).dbg

@[simp] theorem divergeAll_dbg (s : State) : (divergeAll s).dbg = s.dbg := dbg_foldl divergeLane_dbg ..

@[simp] theorem tpoSteps_dbg (s : State) (k : Fin 4) : (tpoSteps s k).dbg = s.dbg := dbg_ite _ rfl rfl

@[simp] theorem servoTo_dbg (s : State) (k : Fin 4) (st : ServoState) : (servoTo s k st).dbg = s.dbg := dbg_ite _ rfl rfl

@[simp] theorem epochStep_dbg (s : State) (fwd : Bool) : (epochStep s fwd).dbg = s.dbg := divergeAll_dbg _

@[simp] theorem timeEvent_dbg (s : State) (bit : Nat) : (timeEvent s bit).dbg = s.dbg := rfl
@[simp] theorem gateSteps_dbg (s : State) (k : Fin 4) : (gateSteps s k).dbg = s.dbg := rfl
@[simp] theorem muRequest_dbg (s : State) (mask : Nat) : (muRequest s mask).dbg = s.dbg := rfl

theorem stepBase_dbg (s : State) (k : Fin 4) (fine : Nat) : (stepBase s k fine).dbg = s.dbg := by
  unfold stepBase
  dsimp only
  repeat' split
  all_goals simp

@[simp] theorem servoUpdate_dbg (s : State) (k : Fin 4) (theta : Int) : (servoUpdate s k theta).dbg = s.dbg :=
  dbg_ite _ (stepBase_dbg ..) (servoTo_dbg ..)

@[simp] theorem servoMeasure_dbg (s : State) (k : Fin 4) (theta : Int) : (servoMeasure s k theta).dbg = s.dbg :=
  dbg_ite _ (dbg_ite _ rfl rfl) (servoUpdate_dbg ..)

@[simp] theorem tpoSetEn_dbg (s : State) (p : Fin 8) (t : Tpo) (en : Bool) : (tpoSetEn s p t en).dbg = s.dbg :=
  dbg_ite _ (dbg_ite _ rfl (dbg_ite _ rfl rfl)) rfl

@[simp] theorem tpoWrite_dbg (s : State) (p : Fin 8) (reg : Nat) (data : U32) : (tpoWrite s p reg data).dbg = s.dbg := by
  unfold tpoWrite
  dsimp only
  split
  · rw [tpoSetEn_dbg]
    exact dbg_ite _ rfl rfl
  · exact dbg_ite _ rfl rfl
  · exact dbg_ite _ rfl rfl
  · exact dbg_ite _ rfl rfl
  · exact dbg_ite _ rfl rfl
  · exact dbg_ite _ rfl rfl
  · rfl

/-! ### Mailboxes, contexts, ports, the rack and the links -/

@[simp] theorem mboxDoorbell_dbg (s : State) (i : Nat) (data : U32) : (mboxDoorbell s i data).dbg = s.dbg := by
  have hring : (mboxRing s i).dbg = s.dbg := by
    unfold mboxRing
    refine dbg_ite _ ?_ rfl
    dsimp only
    split <;> rfl
  exact dbg_ite _ rfl (dbg_ite _ hring rfl)

@[simp] theorem checkStore_dbg (s : State) (o size : Nat) (v : Word) : (checkStore s o size v).dbg = s.dbg := by
  unfold checkStore
  dsimp only
  split
  case h_5 => exact dbg_ite _ rfl rfl
  case h_7 => exact dbg_ite _ rfl rfl
  all_goals rfl

@[simp] theorem ctxWrite_dbg (s : State) (m : Master) (c : Fin 16) (r : Nat) (data : U32) : (ctxWrite s m c r data).dbg = s.dbg := by
  have hcfg : (chkCfgWrite s c data).dbg = s.dbg := by
    unfold chkCfgWrite
    exact dbg_ite _ (recordIgnored_dbg ..) (dbg_ite _ (recordIgnored_dbg ..) rfl)
  have hstore : (chkWrite s m false c (chkStore s c r 4 data)).dbg = s.dbg := by
    unfold chkWrite
    split <;> exact dbg_ite _ (checkStore_dbg ..) rfl
  exact dbg_ite _ hcfg hstore

theorem takeStamp_dbg (s : State) (p : Fin 4) (timed : Bool) (asym : Int) : (takeStamp s p timed asym).1.dbg = s.dbg := by
  unfold takeStamp tsMissed
  split
  · rfl
  · split <;> rfl

theorem ringSent_dbg (s : State) (p : Fin 4) (f : EthFrame) (status : Nat) : (ringSent s p f status).dbg = s.dbg := by
  unfold ringSent
  split
  · rfl
  · exact dbg_ite _ rfl (dbg_ite _ rfl (takeStamp_dbg ..))

@[simp] theorem portTo_dbg (s : State) (p : Fin 4) (x : EthPort) (en : Bool) : (portTo s p x en).dbg = s.dbg :=
  dbg_ite _ (dbg_foldl (fun s f => ringSent_dbg s p f 4) _ _) rfl

@[simp] theorem tailWrite_dbg (s : State) (i : Fin 64) (data : U32) : (tailWrite s i data).dbg = s.dbg := rfl

@[simp] theorem rackLockWrite_dbg (s : State) (a : Nat) (data : U32) : (rackLockWrite s a data).dbg = s.dbg :=
  dbg_ite _ (dbg_ite _ rfl (dbg_ite _ rfl rfl))
    (dbg_ite _ (dbg_ite _ rfl (rackOnly_rackFree s).dbg) (dbg_ite _ rfl rfl))

@[simp] theorem linkDown_dbg (s : State) (sd : Side) : (linkDown s sd).dbg = s.dbg := by
  by_cases h : (linkOf s sd).state = .down
  · exact congrArg State.dbg (if_pos h)
  · obtain ⟨-, -, -, -, -, hrest⟩ := linkDown_spec h
    rw [hrest]

/-! ### The register blocks -/

@[simp] theorem laneWrite_dbg (s : State) (o : Nat) (data : U32) : (laneWrite s o data).dbg = s.dbg := by
  unfold laneWrite laneSetWrite
  dsimp only
  repeat' split
  all_goals simp

@[simp] theorem firnWrite_dbg (s : State) (o : Nat) (data : U32) : (firnWrite s o data).dbg = s.dbg := by
  unfold firnWrite
  split
  · exact dbg_ite _ (dbg_ite _ (injectWrite_dbg ..) (recordIgnored_dbg ..)) rfl
  · rfl

@[simp] theorem epochWrite_dbg (s : State) (o : Nat) (data : U32) : (epochWrite s o data).dbg = s.dbg := by
  unfold epochWrite warnWrite
  dsimp only
  repeat' split
  all_goals rfl

@[simp] theorem mboxWrite_dbg (s : State) (o : Nat) (data : U32) : (mboxWrite s o data).dbg = s.dbg := by
  unfold mboxWrite
  dsimp only
  repeat' split
  all_goals simp

@[simp] theorem timeWrite_dbg (s : State) (o : Nat) (data : U32) : (timeWrite s o data).dbg = s.dbg := by
  unfold timeWrite tbWrite incrWrite measHiWrite
  dsimp only
  repeat' split
  all_goals simp

@[simp] theorem checkWrite_dbg (s : State) (o : Nat) (data : U32) : (checkWrite s o data).dbg = s.dbg := by
  unfold checkWrite
  dsimp only
  repeat' split
  all_goals simp

@[simp] theorem pktWrite_dbg (s : State) (o : Nat) (data : U32) : (pktWrite s o data).dbg = s.dbg := by
  unfold pktWrite portWrite ringWrite
  dsimp only
  repeat' split
  all_goals simp

@[simp] theorem routeWrite_dbg (s : State) (o : Nat) (data : U32) : (routeWrite s o data).dbg = s.dbg := by
  unfold routeWrite
  dsimp only
  split <;> rfl

@[simp] theorem rackWrite_dbg (s : State) (o : Nat) (data : U32) : (rackWrite s o data).dbg = s.dbg := by
  unfold rackWrite pfWrite rackCtrlWrite
  dsimp only
  repeat' split
  all_goals simp

@[simp] theorem fioWrite_dbg (s : State) (o : Nat) (data : U32) : (fioWrite s o data).dbg = s.dbg := by
  unfold fioWrite fioChWrite fioCfgWrite
  dsimp only
  repeat' split
  all_goals rfl

@[simp] theorem safeWrite_dbg (s : State) (o : Nat) (data : U32) : (safeWrite s o data).dbg = s.dbg := by
  unfold safeWrite
  dsimp only
  repeat' split
  all_goals simp

@[simp] theorem muslinWrite_dbg (s : State) (o : Nat) (data : U32) : (muslinWrite s o data).dbg = s.dbg := by
  unfold muslinWrite
  dsimp only
  repeat' split
  all_goals simp

@[simp] theorem weftWrite_dbg (s : State) (o : Nat) (data : U32) : (weftWrite s o data).dbg = s.dbg := by
  unfold weftWrite weftCtrlWrite
  dsimp only
  repeat' split
  all_goals simp

@[simp] theorem pwrWrite_dbg (s : State) (o : Nat) (data : U32) : (pwrWrite s o data).dbg = s.dbg := by
  unfold pwrWrite
  dsimp only
  split <;> rfl

@[simp] theorem morBlockWrite_dbg (s : State) (o : Nat) (data : U32) : (morBlockWrite s o data).dbg = s.dbg := by
  unfold morBlockWrite
  dsimp only
  split <;> rfl

/-- A write of the debug block leaves the test access port as it is. -/
theorem dbgWrite_tap (s : State) (o : Nat) (data : U32) : (dbgWrite s o data).dbg.tap = s.dbg.tap := by
  unfold dbgWrite dbgCtrl
  dsimp only
  repeat' split
  all_goals simp

theorem blockWrite_tap (s : State) (b o : Nat) (data : U32) : (blockWrite s b o data).dbg.tap = s.dbg.tap := by
  unfold blockWrite
  split
  case h_16 => exact dbgWrite_tap s o data
  all_goals simp

end Sys2Proof.Machine

/-! The test access port (R155, R497, R499, R500, Table 18.2): an instruction that is granted or denied, the chains, Selvedge's
map, and the end of a freeze. -/

namespace Sys2Proof.Machine

open Sys2Proof

/-! ### An instruction is selected (R499) -/

/-- The port has selected the data register of an instruction whose condition holds. -/
def TapSelects (t : State) (instr data len : Nat) : Prop :=
  t.dbg.tap.instr = BitVec.ofNat 8 instr ∧ t.dbg.tap.granted = true ∧ t.dbg.tap.data = data ∧ t.dbg.tap.length = len

/-- The port has refused an instruction whose condition does not hold. -/
structure TapRefused (s t : State) : Prop where
  granted : t.dbg.tap.granted = false
  data : t.dbg.tap.data = 0
  length : t.dbg.tap.length = 1
  event : t.dbg.event = setBit s.dbg.event 3

theorem tapSelects_tapData (s : State) (code data len : Nat) : TapSelects (tapData s code data len) code data len :=
  ⟨rfl, rfl, rfl, rfl⟩

theorem TapSelects.of_tap {s t : State} {instr data len : Nat} (h : TapSelects s instr data len) (ht : t.dbg.tap = s.dbg.tap) :
    TapSelects t instr data len := by
  unfold TapSelects
  rw [ht]
  exact h

theorem tapRefused_tapDenied (s : State) (code : Nat) : TapRefused s (tapDenied s code) := ⟨rfl, rfl, rfl, rfl⟩

section Port

variable {s : State} (hpow : powered s 0 = true) (hreset : s.dbg.tapReset = false)

include hpow hreset

theorem tap_granted {ok : Bool} (code : Nat) (t : State) (h : ok = true) : tap s code ok t = .next t := by
  simp [tap, always, hpow, hreset, h]

theorem tap_refused {ok : Bool} (code : Nat) (t : State) (h : ok = false) : tap s code ok t = .next (tapDenied s code) := by
  simp [tap, always, hpow, hreset, h]

/-- An instruction without a condition. -/
theorem tapData_next (code data len : Nat) :
    ∃ t, tap s code true (tapData s code data len) = .next t ∧ TapSelects t code data len ∧ t = { s with dbg := t.dbg } :=
  ⟨_, tap_granted hpow hreset code _ rfl, tapSelects_tapData .., rfl⟩

end Port

theorem tapOpen_of_unlocked {s : State} (hfrozen : s.dbg.frozen = true) (hunlocked : unlocked s = true) : tapOpen s = true := by
  simp [tapOpen, hfrozen, hunlocked]

theorem tapOpen_of_locked {s : State} (h : unlocked s = false) : tapOpen s = false := by simp [tapOpen, h]

/-! ### Chains (R500) -/

theorem chainEntry_eq (e : U16 × U32 × Byte) : chainEntry e = e.1.toNat + 2 ^ 16 * e.2.1.toNat + 2 ^ 48 * e.2.2.toNat := by
  simp only [chainEntry, at', Nat.mul_comm]

theorem chainEntry_lt (e : U16 × U32 × Byte) : chainEntry e < 2 ^ 64 := by
  have h1 := e.1.isLt
  have h2 := e.2.1.isLt
  have h3 := e.2.2.isLt
  rw [chainEntry_eq]
  omega

/-- Entries in units of `b` as one number. -/
theorem foldr_chainEntry (b : Nat) (es : List (U16 × U32 × Byte)) :
    es.foldr (fun e r => chainEntry e + b * r) 0 = Nat.ofDigits b (es.map chainEntry) := by
  induction es with
  | nil => rfl
  | cons e es ih => rw [List.foldr_cons, ih, List.map_cons, Nat.ofDigits_cons]

theorem chainData_zero (n : Nat) : chainData 0 n = Nat.ofDigits (2 ^ 64) (chainList.map chainEntry) :=
  (if_pos rfl).trans (foldr_chainEntry ..)

theorem chainList_digits : ∀ d ∈ chainList.map chainEntry, d < 2 ^ 64 := by
  simp only [List.forall_mem_map]
  exact fun e _ => chainEntry_lt e

/-- A chain's bits fit its length: those of the directory with its last entry of zeros. -/
theorem chainData_lt (chain : U16) (n : Nat) : chainData chain n < 2 ^ chainLen chain := by
  by_cases h : chain = 0
  · subst h
    have hlt := Nat.ofDigits_lt_base_pow_length (by decide) chainList_digits
    rw [List.length_map, ← pow_mul] at hlt
    rw [chainData_zero, chainLen, if_pos rfl]
    exact hlt.trans_le (Nat.pow_le_pow_right (by decide) (by omega))
  · rw [chainData, if_neg h]
    exact Nat.mod_lt _ (Nat.two_pow_pos _)

/-- Entry `k` of the directory stands at bit 64 k. -/
theorem chainData_entry (n : Nat) {k : Nat} {e : U16 × U32 × Byte} (h : chainList[k]? = some e) :
    chainData 0 n / 2 ^ (64 * k) % 2 ^ 64 = e.1.toNat + 2 ^ 16 * e.2.1.toNat + 2 ^ 48 * e.2.2.toNat := by
  obtain ⟨hk, hget⟩ := List.getElem?_eq_some_iff.mp h
  have hdrop : (chainList.map chainEntry).drop k = chainEntry e :: (chainList.map chainEntry).drop (k + 1) := by
    rw [List.drop_eq_getElem_cons (by rwa [List.length_map]), List.getElem_map, hget]
  rw [chainData_zero, pow_mul, Nat.ofDigits_div_pow_eq_ofDigits_drop k (by decide) _ chainList_digits, hdrop, Nat.ofDigits_cons,
    Nat.add_mul_mod_self_left, Nat.mod_eq_of_lt (chainEntry_lt e), chainEntry_eq]

/-! ### Selvedge's map (Table 7.1) -/

/-- A store over Selvedge's map leaves the port as it is. -/
theorem selvedgeStore_tap (s : State) (a : Nat) (v : Word) : (selvedgeStore s a v).dbg.tap = s.dbg.tap := by
  unfold selvedgeStore
  dsimp only
  repeat' split
  all_goals simp [blockWrite_tap]

theorem selvedgeStore_open {s : State} {a : Nat} (v : Word) (ha : a < 0x400000000) (hopen : partitionOpen s a = true) :
    selvedgeStore s a v = { s with mem := { s.mem with dram := memWrite s.mem.dram a (leBytes 8 v.toNat) } } := by
  unfold selvedgeStore
  rw [if_pos ha, if_pos hopen]

/-- An address of Table 18.2 is taken whole. -/
theorem alignedAddr_eq {a : BitVec 40} (h : a.toNat % 8 = 0) : BitVec.ofNat 40 (a.toNat / 8 * 8) = a := by
  rw [Nat.div_mul_cancel (Nat.dvd_of_mod_eq_zero h), BitVec.ofNat_toNat, BitVec.setWidth_eq]

/-- The state as the port has written eight bytes. -/
def tapStored (s : State) (data : Word) : State :=
  tapAdvance (tapData (selvedgeStore s s.dbg.tap.memAddr.toNat data) 0x22 data.toNat 64)

theorem tapStored_spec (s : State) (data : Word) :
    TapSelects (tapStored s data) 0x22 data.toNat 64 ∧ (tapStored s data).dbg.tap.memAddr = s.dbg.tap.memAddr + 8 :=
  ⟨⟨rfl, rfl, rfl, rfl⟩, congrArg (fun p => p.memAddr + 8) (selvedgeStore_tap s s.dbg.tap.memAddr.toNat data)⟩

theorem tapStored_open {s : State} (data : Word) (ha : s.dbg.tap.memAddr.toNat < 0x400000000)
    (hpart : partitionOpen s s.dbg.tap.memAddr.toNat = true) :
    let t := tapStored s data
    t.mem.dram = memWrite s.mem.dram s.dbg.tap.memAddr.toNat (leBytes 8 data.toNat) ∧
      t = { s with dbg := t.dbg, mem := { s.mem with dram := t.mem.dram } } := by
  unfold tapStored
  rw [selvedgeStore_open data ha hpart]
  exact ⟨rfl, rfl⟩

/-! ### The freeze ends (R497) -/

/-- A lane that is neither STOPPED, FAULTED nor SHED becomes DIVERGED. -/
def divergedLane (ln : Lane) : Lane :=
  if ln.epochState = .stopped || ln.epochState = .faulted || ln.epochState = .shed then ln
  else { haltLane ln with epochState := .diverged, caughtUp := false, faultPending := false, admits := 0
                          admitted := false, resend := false }

theorem divergeLane_lanes (s : State) (l : LaneId) :
    (divergeLane s l).lanes.lane = (putLane s l (divergedLane (laneOf s l))).lanes.lane ∧ (divergeLane s l).time = s.time := by
  unfold divergeLane divergedLane
  dsimp only
  split
  · rw [putLane_laneOf]
    exact ⟨rfl, rfl⟩
  · let n : Lane := { haltLane (laneOf s l) with
      epochState := .diverged, caughtUp := false, faultPending := false, admits := 0, admitted := false, resend := false }
    have hrack := rackOnly_rackForget_rackBreakLane (abstainLane (putLane s l n) l) l
    unfold RackOnly at hrack
    rw [hrack]
    exact ⟨rfl, rfl⟩

theorem laneOf_divergeLane (s : State) (l : LaneId) : laneOf (divergeLane s l) l = divergedLane (laneOf s l) := by
  rw [laneOf_of_lanes (divergeLane_lanes s l).1, laneOf_putLane]

theorem laneOf_divergeLane_ne (s : State) (l m : LaneId) (h : m ≠ l) : laneOf (divergeLane s l) m = laneOf s m := by
  rw [laneOf_of_lanes (divergeLane_lanes s l).1, laneOf_putLane_ne _ _ _ _ h]

theorem laneOf_divergeAll (s : State) (l : LaneId) : laneOf (divergeAll s) l = divergedLane (laneOf s l) :=
  laneOf_foldl_finRange (g := fun _ => divergedLane) laneOf_divergeLane laneOf_divergeLane_ne s l

theorem divergeAll_time (s : State) : (divergeAll s).time = s.time := by
  unfold divergeAll
  induction List.finRange 8 generalizing s with
  | nil => rfl
  | cons l ls ih => rw [List.foldl_cons, ih, (divergeLane_lanes s l).2]

/-- The state as the freeze ends, its lanes apart. -/
def unfrozen (s : State) : State :=
  { s with
    dbg := { s.dbg with frozen := false, frzPin := false, event := setBit s.dbg.event 1 }
    time := { s.time with tb := Vector.ofFn (fun (k : Fin 4) =>
                            if s.time.tbHeld && k.val != 3 then { s.time.tb[k] with stepNext := true } else s.time.tb[k])
                          tbHeld := false } }

theorem resume_eq (s : State) : resume s = divergeAll (unfrozen s) := rfl

theorem stepNext_unfrozen {s : State} (hheld : s.time.tbHeld = true) {k : Fin 4} (hk : k.val ≠ 3) :
    (unfrozen s).time.tb[k].stepNext = true := by
  simp [unfrozen, hheld, hk]

/-- The held time bases step at their next measurement, and every lane that runs is DIVERGED. -/
theorem resume_spec (s : State) :
    let t := resume s
    t.dbg = { s.dbg with frozen := false, frzPin := false, event := setBit s.dbg.event 1 } ∧ t.time.tbHeld = false ∧
      (∀ l, (laneOf s l).epochState ≠ .stopped → (laneOf s l).epochState ≠ .faulted → (laneOf s l).epochState ≠ .shed →
        (laneOf t l).epochState = .diverged) ∧
      (s.time.tbHeld = true → ∀ k : Fin 4, k.val ≠ 3 → t.time.tb[k].stepNext = true) := by
  dsimp only
  rw [resume_eq, divergeAll_dbg, divergeAll_time]
  refine ⟨rfl, rfl, fun l hstop hfault hshed => ?_, fun hheld k => stepNext_unfrozen hheld⟩
  have hlane : laneOf (unfrozen s) l = laneOf s l := rfl
  rw [laneOf_divergeAll, hlane, divergedLane, if_neg (by simp [hstop, hfault, hshed])]

/-- The state as RESUME is selected with FRZ_L high. -/
def resumeSelected (s : State) (bit : Bool) : State :=
  tapData { s with dbg := { s.dbg with frzPin := false } } 0x31 (b2n bit) 1

/-! ### FIRN_INJECT through the port (R155) -/

/-- What a record holds does not come from the debug block. -/
theorem record_of_dbg (s : State) (d : Debug) (source : Nat) (code : U16) (lane : Nat) (data : List Byte) :
    record { s with dbg := d } source code lane data = { s with dbg := d, mor := (record s source code lane data).mor } := by
  unfold record
  dsimp only
  split
  · rfl
  · split <;> rfl

/-- The lane of MEM_ADDR bits 34 to 32. -/
def tapLane (s : State) : LaneId := ⟨s.dbg.tap.memAddr.toNat / 2 ^ 32 % 8, Nat.mod_lt _ (by decide)⟩

/-- The record of a test that the port may not run. -/
def injectNote (s : State) (data : U32) : State :=
  let l := (tapLane s).val
  record s 1 0xFF02 l (leBytes 8 (0x500001002C + l * 0x100) ++ leBytes 4 data.toNat ++ [1])

/-- The state as FIRN_INJECT is selected, or refused outside bench mode with debug unlocked. -/
def injectSelected (s : State) (data : U32) : State :=
  if bench s && unlocked s then tapData s 0x30 data.toNat 32 else tapDenied s 0x30

theorem injectSelected_of_allowed {s : State} (data : U32) (hbench : bench s = true) (hunlocked : unlocked s = true) :
    injectSelected s data = tapData s 0x30 data.toNat 32 := if_pos (by rw [hbench, hunlocked]; rfl)

theorem injectSelected_of_refused {s : State} (data : U32) (h : ¬ (bench s = true ∧ unlocked s = true)) :
    injectSelected s data = tapDenied s 0x30 := if_neg (by simpa using fun hb hu => h ⟨hb, hu⟩)

theorem injectSelected_rest (s : State) (data : U32) : injectSelected s data = { s with dbg := (injectSelected s data).dbg } := by
  unfold injectSelected
  split <;> rfl

end Sys2Proof.Machine

/-! The instructions of the test access port, each against its clause of O39. -/

namespace Sys2Proof.Machine

open Sys2Proof

section Port

variable {s : State} (hpow : powered s 0 = true) (hreset : s.dbg.tapReset = false)

include hpow hreset

theorem tapScanRead_next (hopen : tapOpen s = true) :
    ∃ t d, exec .tapScanRead s = .next t ∧ TapSelects t 0x11 d (chainLen s.dbg.tap.chain) ∧
      d < 2 ^ chainLen s.dbg.tap.chain ∧ (s.dbg.tap.chain = 0 → ∀ (k : Nat) e, chainList[k]? = some e →
        d / 2 ^ (64 * k) % 2 ^ 64 = e.1.toNat + 2 ^ 16 * e.2.1.toNat + 2 ^ 48 * e.2.2.toNat) ∧
      t = { s with dbg := t.dbg, freeCtr := s.freeCtr + 1 } := by
  refine ⟨_, chainData s.dbg.tap.chain s.freeCtr, tap_granted hpow hreset 0x11 _ hopen, tapSelects_tapData .., chainData_lt ..,
    fun hdir k e he => ?_, rfl⟩
  rw [hdir]
  exact chainData_entry _ he

theorem tapMemAddr_next (hopen : tapOpen s = true) {a : BitVec 40} (ha : a.toNat % 8 = 0) :
    ∃ t, exec (.tapMemAddr a) s = .next t ∧ TapSelects t 0x20 a.toNat 40 ∧ t.dbg.tap.memAddr = a ∧ t = { s with dbg := t.dbg } := by
  refine ⟨_, tap_granted hpow hreset 0x20 _ hopen, ?_, alignedAddr_eq ha, rfl⟩
  rw [alignedAddr_eq ha]
  exact ⟨rfl, rfl, rfl, rfl⟩

theorem tapMemRead_next (hopen : tapOpen s = true) :
    ∃ t, exec .tapMemRead s = .next t ∧
      TapSelects t 0x21 (((selvedgeBytes s s.dbg.tap.memAddr.toNat).map ofLe).getD (2 ^ 64)) 65 ∧
      t.dbg.tap.memAddr = s.dbg.tap.memAddr + 8 ∧ t = { s with dbg := t.dbg } := by
  refine ⟨_, tap_granted hpow hreset 0x21 _ hopen, ⟨rfl, rfl, ?_, rfl⟩, rfl, rfl⟩
  cases h : selvedgeBytes s s.dbg.tap.memAddr.toNat <;> rfl

theorem exec_tapMemWrite_of_bench (hopen : tapOpen s = true) (hbench : s.weft.own = .bench) (data : Word) :
    exec (.tapMemWrite data) s = .next (tapStored s data) :=
  tap_granted hpow hreset 0x22 _ (by simp [hopen, hbench])

/-! ### TAP_RESUME (R497) -/

theorem exec_tapResume_of_bench (hopen : tapOpen s = true) (hbench : s.weft.own = .bench) (bit : Bool) :
    exec (.tapResume bit true) s = .next (if bit then resume (resumeSelected s bit) else resumeSelected s bit) := by
  have hopen' : tapOpen { s with dbg := { s.dbg with frzPin := false } } = true := hopen
  have hpin : (s.dbg.frzPin && !true) = false := Bool.and_false _
  change execTapResume bit true s = _
  unfold execTapResume always
  dsimp only
  rw [if_pos hpow, if_neg (by simp [hreset]), hpin, if_pos (by simp [hopen', hbench])]
  rfl

theorem tapResume_next (hopen : tapOpen s = true) (hbench : s.weft.own = .bench) :
    ∃ t, exec (.tapResume true true) s = .next t ∧ TapSelects t 0x31 1 1 ∧ t.dbg.frozen = false ∧ t.dbg.frzPin = false ∧
      t.time.tbHeld = false ∧ t.dbg.event = setBit s.dbg.event 1 ∧
      (∀ l, (laneOf s l).epochState ≠ .stopped → (laneOf s l).epochState ≠ .faulted → (laneOf s l).epochState ≠ .shed →
        (laneOf t l).epochState = .diverged) ∧
      (s.time.tbHeld = true → ∀ k : Fin 4, k.val ≠ 3 → t.time.tb[k].stepNext = true) := by
  obtain ⟨hdbg, hheld, hlanes, hsteps⟩ := resume_spec (resumeSelected s true)
  refine ⟨_, exec_tapResume_of_bench hpow hreset hopen hbench true, ?_⟩
  rw [if_pos rfl]
  exact ⟨(tapSelects_tapData ..).of_tap (by rw [hdbg]; rfl), by rw [hdbg], by rw [hdbg], hheld, by rw [hdbg]; rfl, hlanes, hsteps⟩

/-! ### TAP_FIRN_INJECT (R155) -/

theorem exec_tapFirnInject_of_stopped (hbench : bench s = true) (hunlocked : unlocked s = true) (data : U32) (hit : Bool)
    (hstate : (laneOf s (tapLane s)).epochState = .stopped) :
    exec (.tapFirnInject data hit) s = .next (injectWrite (tapData s 0x30 data.toNat 32) (tapLane s) data hit) := by
  change execTapFirnInject data hit s = _
  have hgo : (bench s && unlocked s && decide ((laneOf s (tapLane s)).epochState = .stopped)) = true := by
    simp [hbench, hunlocked, hstate]
  unfold execTapFirnInject always
  dsimp only
  rw [if_pos hpow, if_neg (by simp [hreset])]
  exact congrArg _ ((if_pos hgo).trans (congrArg (injectWrite · (tapLane s) data hit)
    (injectSelected_of_allowed data hbench hunlocked)))

/-- A test that the port may not run is noted by a record alone (R155). -/
theorem exec_tapFirnInject_of_ignored (data : U32) (hit : Bool)
    (hno : ¬ (bench s = true ∧ unlocked s = true) ∨ (laneOf s (tapLane s)).epochState ≠ .stopped) :
    exec (.tapFirnInject data hit) s = .next { injectSelected s data with mor := (injectNote s data).mor } := by
  have hgo : ¬ ((bench s && unlocked s && decide ((laneOf s (tapLane s)).epochState = .stopped)) = true) := by
    rcases hno with h | h
    · simpa using fun hb hu => absurd ⟨hb, hu⟩ h
    · simp [h]
  have hrec : recordIgnored (injectSelected s data) 1 (0x500001002C + (tapLane s).val * 0x100) data.toNat (tapLane s).val 1 =
      { injectSelected s data with mor := (injectNote s data).mor } := by
    rw [injectSelected_rest s data]
    exact record_of_dbg ..
  change execTapFirnInject data hit s = _
  unfold execTapFirnInject always
  dsimp only
  rw [if_pos hpow, if_neg (by simp [hreset])]
  exact congrArg _ ((if_neg hgo).trans hrec)

end Port

/-- A test that the port may run is run on the lane that it names, and its answer selected. -/
theorem tapFirnInject_next {s : State} (hpow : powered s 0 = true) (hreset : s.dbg.tapReset = false) (hbench : bench s = true)
    (hunlocked : unlocked s = true) (data : U32) (hit : Bool) (hstate : (laneOf s (tapLane s)).epochState = .stopped)
    (hgo : data.getLsbD 3 = true) (h1 : 1 ≤ data.toNat % 8) (h6 : data.toNat % 8 ≤ 6) :
    ∃ t, exec (.tapFirnInject data hit) s = .next t ∧ TapSelects t 0x30 data.toNat 32 ∧ (laneOf t (tapLane s)).bistDone = true ∧
      (laneOf t (tapLane s)).bistLast = BitVec.ofNat 3 (data.toNat % 8) ∧
      (hit = false → (laneOf t (tapLane s)).disabled = true) := by
  obtain ⟨hdone, hlast, -, hmissed, -, -⟩ :=
    injectionRun_injectWrite (tapData s 0x30 data.toNat 32) (tapLane s) hit hgo h1 h6
  exact ⟨_, exec_tapFirnInject_of_stopped hpow hreset hbench hunlocked data hit hstate,
    (tapSelects_tapData ..).of_tap (by rw [injectWrite_dbg]), hdone, hlast, hmissed⟩

/-- An instruction that needs the freeze and debug unlock is refused while debug is locked (R499). -/
theorem tapInstruction_refused {s : State} (hpow : powered s 0 = true) (hreset : s.dbg.tapReset = false)
    (hlocked : unlocked s = false) {c : Instr}
    (hc : c ∈ ([.tapScanSelect 0, .tapScanRead, .tapMemAddr 0, .tapMemRead, .tapMemWrite 0] : List Instr)) :
    ∃ t, exec c s = .next t ∧ TapRefused s t ∧ t = { s with dbg := t.dbg } := by
  have hclosed := tapOpen_of_locked hlocked
  have hrefuse : ∀ (ok : Bool) code t, ok = false → ∃ u, tap s code ok t = .next u ∧ TapRefused s u ∧ u = { s with dbg := u.dbg } :=
    fun _ code t h => ⟨_, tap_refused hpow hreset code t h, tapRefused_tapDenied s code, rfl⟩
  simp only [List.mem_cons, List.not_mem_nil, or_false] at hc
  rcases hc with rfl | rfl | rfl | rfl | rfl
  · exact hrefuse _ 0x10 _ hclosed
  · exact hrefuse _ 0x11 _ hclosed
  · exact hrefuse _ 0x20 _ hclosed
  · exact hrefuse _ 0x21 _ hclosed
  · exact hrefuse _ 0x22 _ (by rw [hclosed]; rfl)

/-- Settles O39, instruction by instruction: where the condition holds the equation of the instruction, elsewhere the refusal. The
record of a test that the port may not run and what RESUME needs are the model's choices (log entry 86), as are the chains'
contents and the low bits of an address (log entries 60 and 63). -/
theorem testPortResult : Obligations.TestPortResult := by
  intro s hpow hreset sel
  refine ⟨tapData_next hpow hreset 0x01 _ _, tapData_next hpow hreset 0x02 _ _, tapData_next hpow hreset 0xFF _ _,
    fun hfrozen hunlocked => ?_, fun hbench hunlocked data hit =>
      tapFirnInject_next hpow hreset hbench hunlocked data hit, fun hlocked c hc => ?_, fun data hit => ?_⟩
  · have hopen := tapOpen_of_unlocked hfrozen hunlocked
    refine ⟨fun chain => ⟨_, tap_granted hpow hreset 0x10 _ hopen, ⟨rfl, rfl, rfl, rfl⟩, rfl, rfl⟩,
      tapScanRead_next hpow hreset hopen, fun a => tapMemAddr_next hpow hreset hopen, tapMemRead_next hpow hreset hopen,
      fun hbench data => ?_, fun hbench => ⟨tapResume_next hpow hreset hopen hbench, ?_⟩⟩
    · have hexec := exec_tapMemWrite_of_bench hpow hreset hopen hbench data
      obtain ⟨hselects, hnext⟩ := tapStored_spec s data
      exact ⟨⟨_, hexec, hselects, hnext⟩, fun ha hpart => ⟨_, hexec, tapStored_open data ha hpart⟩⟩
    · exact ⟨_, exec_tapResume_of_bench hpow hreset hopen hbench false, ⟨rfl, rfl, rfl, rfl⟩, hfrozen⟩
  · obtain ⟨t, hexec, ⟨hgranted, hdata, hlength, hevent⟩, hrest⟩ := tapInstruction_refused hpow hreset hlocked hc
    exact ⟨t, hexec, hgranted, hdata, hlength, hevent, hrest⟩
  · refine ⟨fun hno => ?_, fun hbench hunlocked hstates => ?_⟩
    · have hexec := exec_tapFirnInject_of_ignored hpow hreset data hit (.inl hno)
      rw [injectSelected_of_refused data hno] at hexec
      exact ⟨_, hexec, rfl, rfl, rfl⟩
    · have hexec := exec_tapFirnInject_of_ignored hpow hreset data hit (.inr (hstates (tapLane s) rfl))
      rw [injectSelected_of_allowed data hbench hunlocked] at hexec
      exact ⟨_, hexec, ⟨rfl, rfl, rfl, rfl⟩, rfl⟩

end Sys2Proof.Machine

/-! What every lane instruction does once its body has said what it comes to (R131, R141, R195): it retires and leaves the core that
it gives, or it raises its exception. The instructions below differ in the body alone. -/

namespace Sys2Proof.Machine

open Sys2Proof

/-! ### Retiring -/

/-- `k` holds the open Firn window of `k0` and what other blocks note in it: an instruction leaves these to its retirement. -/
structure KeepsWindow (k0 k : Core) : Prop where
  wcount : k.wcount = k0.wcount
  wseq : k.wseq = k0.wseq
  speedMin : k.speedMin = k0.speedMin
  committed : k.committed = k0.committed
  rejected : k.rejected = k0.rejected

theorem KeepsWindow.refl (k : Core) : KeepsWindow k k := ⟨rfl, rfl, rfl, rfl, rfl⟩

theorem gset_eq (k : Core) (i : BitVec 5) (v : Word) : gset k i v = { k with g := if i = 0 then k.g else rset k.g i v } := by
  unfold gset
  split <;> rfl

theorem keepsWindow_gset (k : Core) (rd : BitVec 5) (v : Word) : KeepsWindow k (gset k rd v) := by
  rw [gset_eq]
  exact ⟨rfl, rfl, rfl, rfl, rfl⟩

theorem KeepsWindow.withPc {k0 k : Core} (h : KeepsWindow k0 k) (pc : Word) : KeepsWindow k0 { k with pc := pc } :=
  ⟨h.wcount, h.wseq, h.speedMin, h.committed, h.rejected⟩

theorem KeepsWindow.withCr {k0 k : Core} (h : KeepsWindow k0 k) (cr : CtrlRegs) : KeepsWindow k0 { k with cr := cr } :=
  ⟨h.wcount, h.wseq, h.speedMin, h.committed, h.rejected⟩

theorem keepsWindow_putG (k : Core) (rd : BitVec 5) (v : Word) : KeepsWindow k (putG k rd v) := (keepsWindow_gset k rd v).withPc _

theorem keepsWindow_putF (k : Core) (rd : BitVec 5) (v : Word) : KeepsWindow k (putF k rd v) := ⟨rfl, rfl, rfl, rfl, rfl⟩

/-- The core that an instruction leaves with what other blocks have noted in `now` meanwhile (R166, R225). -/
def notedCore (k now : Core) : Core := { k with speedMin := now.speedMin, committed := now.committed, rejected := now.rejected }

/-- The core of a checked lane after its instruction: its records fed, the instruction counted (R141, R143). -/
def checkedCore (old : Core) (r : Ret) : Core := countRetired { firnFeed r.k (r.k.entry ++ retRecords old r) with entry := [] } true

theorem retire_split {s : State} {c : CoreRef} (old : Core) (r : Ret) (h : isSplit (laneOf s c.lane) = true) :
    retire s c old r =
      putLane s c.lane (putCore (laneOf s c.lane) c.core (countRetired (notedCore r.k (coreAt s c)) false)) := by
  unfold retire
  exact if_pos h

theorem retire_leading {s : State} {l : LaneId} (old : Core) (r : Ret) (h : ¬ isSplit (laneOf s l) = true) :
    retire s ⟨l, .leading⟩ old r =
      let r := { r with k := notedCore r.k (laneOf s l).l }
      putLane s l (retireL (laneOf s l) old (checkedCore old r) r) := by
  unfold retire
  exact if_neg h

theorem retire_trailing {s : State} {l : LaneId} (old : Core) (r : Ret) (h : ¬ isSplit (laneOf s l) = true) :
    retire s ⟨l, .trailing⟩ old r =
      let r := { r with k := notedCore r.k (laneOf s l).t }
      markT (putLane s l { laneOf s l with t := checkedCore old r }) l (seqOf old) := by
  unfold retire
  exact if_neg h

section

variable {s s' : State} {c : CoreRef} {body : State → Core → Act} {r : Ret}

/-- An instruction that retires on `s'`, which its accesses leave without a change to its own core. -/
theorem ran_of_done (hr : Retires s c) (hm : MarkAgrees s' c)
    (hbody : body s (coreAt s c) = .done s' r) (hy : r.yields = false) (hcore : coreAt s' c = coreAt s c)
    (hk : KeepsWindow (coreAt s c) r.k) : ∃ t, runLane s c body = .next t ∧ Ran s' t c r.k := by
  rw [← hcore] at hk
  exact ⟨_, runLane_done s s' c body r hr hbody,
    retire_ran s' c _ r hy (by rw [hcore]) hk.speedMin hk.committed hk.rejected hk.wcount hk.wseq hm⟩

/-- An instruction that retires on `s'` with the core `k`, told by the parts of its result. -/
theorem ran_of_ret {k : Core} {regs : List (Nat × Word)} {store : Option (Nat × Nat × Word)} {entry : Option (DriftKind × Word)}
    (hr : Retires s c) (hm : MarkAgrees s' c)
    (hbody : body s (coreAt s c) = .done s' { k := k, regs := regs, store := store, entry := entry, yields := false })
    (hcore : coreAt s' c = coreAt s c) (hk : KeepsWindow (coreAt s c) k) : ∃ t, runLane s c body = .next t ∧ Ran s' t c k :=
  ran_of_done hr hm hbody rfl hcore hk

variable {rd : BitVec 5} {v v' : Word}

/-- An instruction that writes g[rd]. -/
theorem ran_of_retG (hr : Retires s c) (hm : MarkAgrees s c)
    (hbody : body s (coreAt s c) = retG s (coreAt s c) rd v) (hv : v = v') :
    ∃ t, runLane s c body = .next t ∧ Ran s t c (putG (coreAt s c) rd v') :=
  hv ▸ ran_of_done hr hm hbody rfl rfl (keepsWindow_putG ..)

/-- An instruction that writes g[rd] and sets integer flags. -/
theorem ran_of_retRes {x : Word × BitVec 3} {fl : BitVec 3} (hr : Retires s c) (hm : MarkAgrees s c)
    (hbody : body s (coreAt s c) = retRes s (coreAt s c) rd x) (hx : x = (v, fl)) :
    ∃ t, runLane s c body = .next t ∧ Ran s t c { putG (coreAt s c) rd v with cr := orIflags (coreAt s c).cr fl } := by
  subst hx
  exact ran_of_done hr hm hbody rfl rfl ((keepsWindow_putG ..).withCr _)

/-- An instruction that writes g[rd] and sets floating-point flags. -/
theorem ran_of_retGR {x : Word × BitVec 5} (hr : Retires s c) (hm : MarkAgrees s c)
    (hbody : body s (coreAt s c) = retGR s (coreAt s c) rd x) :
    ∃ t, runLane s c body = .next t ∧ Ran s t c { putG (coreAt s c) rd x.1 with cr := orFflags (coreAt s c).cr x.2 } :=
  ran_of_done hr hm hbody rfl rfl ((keepsWindow_putG ..).withCr _)

/-- An instruction that writes g[rd] ORs no flag into FFLAGS. -/
theorem ran_of_retG_noFlags (hr : Retires s c) (hm : MarkAgrees s c) (hbody : body s (coreAt s c) = retG s (coreAt s c) rd v) :
    ∃ t, runLane s c body = .next t ∧ Ran s t c { putG (coreAt s c) rd v with cr := orFflags (coreAt s c).cr 0 } := by
  have hcr : orFflags (coreAt s c).cr 0 = (putG (coreAt s c) rd v).cr := by
    simp [orFflags, putG, gset_eq]
  rw [hcr]
  exact ran_of_retG hr hm hbody rfl

/-- An instruction that writes f[rd] and sets floating-point flags. -/
theorem ran_of_retFR {x : Word × BitVec 5} (hr : Retires s c) (hm : MarkAgrees s c)
    (hbody : body s (coreAt s c) = retFR s (coreAt s c) rd x) :
    ∃ t, runLane s c body = .next t ∧ Ran s t c { putF (coreAt s c) rd x.1 with cr := orFflags (coreAt s c).cr x.2 } :=
  ran_of_done hr hm hbody rfl rfl ((keepsWindow_putF ..).withCr _)

/-- An instruction that only moves the PC. -/
theorem ran_of_retPc {pc pc' : Word} (hr : Retires s c) (hm : MarkAgrees s c)
    (hbody : body s (coreAt s c) = retPc s (coreAt s c) pc) (hpc : pc = pc') :
    ∃ t, runLane s c body = .next t ∧ Ran s t c { coreAt s c with pc := pc' } :=
  hpc ▸ ran_of_done hr hm hbody rfl rfl ((KeepsWindow.refl _).withPc _)

end

/-- A result that is told by what holds of it. -/
theorem ran_value {α : Type} {x : Host.Outcome State Fault Refusal} {s : State} {c : CoreRef} {k : α → Core} {p : α → Prop} {v : α}
    (h : ∃ t, x = .next t ∧ Ran s t c (k v)) (hv : p v) : ∃ t v, x = .next t ∧ Ran s t c (k v) ∧ p v :=
  let ⟨t, ht, hran⟩ := h
  ⟨t, v, ht, hran, hv⟩

/-- A floating-point result that is told by what holds of it. -/
theorem ran_result {α : Type} {x : Host.Outcome State Fault Refusal} {s : State} {c : CoreRef} {k : α → Core} {p : α → Prop} {v : α}
    (h : ∃ t, x = .next t ∧ Ran s t c (k v)) (hv : p v) : ∃ t v, x = .next t ∧ p v ∧ Ran s t c (k v) :=
  let ⟨t, ht, hran⟩ := h
  ⟨t, v, ht, hv, hran⟩

/-! ### Legal and illegal words (R178) -/

theorem legal_of {ok : Bool} (h : ok = true) (s : State) (w : U32) (a : Act) : legal ok s w a = a := if_pos h

theorem legal_of_not {ok : Bool} (h : ¬ ok = true) (s : State) (w : U32) (a : Act) : legal ok s w a = illegal s w := if_neg h

/-! ### Exceptions (R195) -/

theorem coreOf_putCore_other (s : State) (c : CoreRef) (k : Core) :
    coreOf (putCore (laneOf s c.lane) c.core k) (otherCore c).core = coreAt s (otherCore c) := by
  obtain ⟨l, sel⟩ := c
  cases sel <;> rfl

/-- CAUSE of a synchronous exception (Table 5.4). -/
theorem entryRegs_sync (k : Core) (e : Exc) : entryRegs k e false = { k.cr with
    epc := k.pc
    cause := BitVec.ofNat 9 (e.code % 64 + (if e.fetch then 64 else 0) + (if e.write then 128 else 0))
    eval := e.eval
    status := (k.cr.status &&& 0b11000) ||| 0b00101 ||| (if isSup k then 0b00010 else 0) } := by
  obtain ⟨code, fetch, write, eval⟩ := e
  cases fetch <;> cases write <;> rfl

/-- What a synchronous exception changes. -/
theorem syncExc_excepted (s : State) (c : CoreRef) (e : Exc) (hx : excSet (coreAt s c) = false) :
    Excepted s (syncExc s c (coreAt s c) e) c e := by
  have hlane : (otherCore c).lane = c.lane := by cases c with | mk l sel => cases sel <;> rfl
  simp only [syncExc, hx, Bool.false_eq_true, if_false]
  refine ⟨?_, ?_, ?_, fun l h => laneOf_putLane_ne _ _ _ _ h, rfl⟩
  · rw [coreAt, laneOf_putLane, coreOf_putCore, archOf_feedEntry, enterExc, entryRegs_sync]
    rfl
  · rw [← coreOf_putCore_other s c, coreAt, hlane, laneOf_putLane]
  · rw [laneOf_putLane]
    cases c.core <;> rfl

/-- An instruction that raises an exception before it has changed anything. -/
theorem excepted_of_exc {s : State} {c : CoreRef} {body : State → Core → Act} {e : Exc}
    (hr : Retires s c) (hx : excSet (coreAt s c) = false)
    (hbody : body s (coreAt s c) = .exc s e) : ∃ t, runLane s c body = .next t ∧ Excepted s t c e :=
  ⟨_, runLane_exc s s c body e hr hx hbody, syncExc_excepted s c e hx⟩

/-- A word that is not legal raises ILLEGAL with itself in EVAL. -/
theorem excepted_of_illegal {s : State} {c : CoreRef} {body : State → Core → Act} {ok : Bool} {w : U32} {a : Act}
    (hr : Retires s c) (hx : excSet (coreAt s c) = false)
    (hbody : body s (coreAt s c) = legal ok s w a) (hbad : ¬ ok = true) :
    ∃ t, runLane s c body = .next t ∧ Excepted s t c ⟨1, false, false, w.setWidth 64⟩ :=
  excepted_of_exc hr hx (hbody.trans (legal_of_not hbad s w a))

end Sys2Proof.Machine

/-! The general registers, and the ALU instructions of register, immediate and wide-immediate form (R168, R179, Tables 5.8, 5.13). -/

namespace Sys2Proof.Machine

open Sys2Proof

/-! ### General registers -/

theorem rget_rset_self (r : RegFile) (i : BitVec 5) (v : Word) : rget (rset r i v) i = v := by
  simp [rget, rset]

theorem rget_rset_of_ne (r : RegFile) {i j : BitVec 5} (v : Word) (h : i ≠ j) : rget (rset r i v) j = rget r j := by
  have hv : i.toNat ≠ j.toNat := fun e => h (BitVec.eq_of_toNat_eq e)
  simp [rget, rset, hv]

theorem gget_gset_self (k : Core) {i : BitVec 5} (v : Word) (h : i ≠ 0) : gget (gset k i v) i = v := by
  rw [gget, gset, if_neg h, if_neg h, rget_rset_self]

theorem gget_gset_of_ne (k : Core) {i j : BitVec 5} (v : Word) (h : i ≠ j) : gget (gset k i v) j = gget k j := by
  rw [gset_eq, gget, gget]
  split
  · rfl
  · split
    · rfl
    · exact rget_rset_of_ne k.g v h

/-- Settles O17: g0 by its own branch, another register by the register file. -/
theorem generalRegisterZero : Obligations.GeneralRegisterZero := fun k _ _ v =>
  ⟨rfl, rfl, gget_gset_self k v, gget_gset_of_ne k v⟩

/-! ### Comparisons as numbers -/

theorem word01_slt (a b : Word) : word01 (a.slt b) = if a.toInt < b.toInt then 1 else 0 := by
  simp [word01, BitVec.slt]

theorem word01_ult (a b : Word) : word01 (a.ult b) = if a.toNat < b.toNat then 1 else 0 := by
  simp [word01, BitVec.ult]

theorem word01_beq (a b : Word) : word01 (a == b) = if a = b then 1 else 0 := by
  simp [word01]

theorem ite_sle {n : Nat} {α : Type} (a b : BitVec n) (x y : α) : (if a.sle b then x else y) = if a.toInt ≤ b.toInt then x else y := by
  simp [BitVec.sle]

theorem ite_ule {n : Nat} {α : Type} (a b : BitVec n) (x y : α) : (if a.ule b then x else y) = if a.toNat ≤ b.toNat then x else y := by
  simp [BitVec.ule]

/-! ### LIK (Table 5.13) -/

/-- The reserved bits imm21[18:16]. -/
theorem likReserved_of_zero {w : BitVec 21} (h : w.extractLsb' 16 3 = 0) : (w.toNat / 2 ^ 16 % 8 == 0) = true := by
  have := congrArg BitVec.toNat h
  simpa [BitVec.extractLsb'_toNat, Nat.shiftRight_eq_div_pow] using this

/-- The mask of a bit field. -/
theorem getLsbD_fieldMask (pos len : Nat) {i : Nat} (hi : i < 64) :
    (BitVec.ofNat 64 ((2 ^ len - 1) * 2 ^ pos)).getLsbD i = decide (pos ≤ i ∧ i < pos + len) := by
  rw [BitVec.getLsbD_ofNat, Nat.mul_comm, Nat.testBit_two_pow_mul, Nat.testBit_two_pow_sub_one, decide_eq_true hi, Bool.true_and]
  by_cases h : pos ≤ i
  · simp [h]
    omega
  · simp [h]

/-- A word with the `len` bits of `x` from bit `pos` on. -/
theorem getLsbD_masked (g : Word) {len x pos : Nat} (hx : x < 2 ^ len) {i : Nat} (hi : i < 64) :
    ((g &&& ~~~(BitVec.ofNat 64 ((2 ^ len - 1) * 2 ^ pos))) ||| BitVec.ofNat 64 (x * 2 ^ pos)).getLsbD i =
      if pos ≤ i ∧ i < pos + len then x.testBit (i - pos) else g.getLsbD i := by
  simp only [BitVec.getLsbD_or, BitVec.getLsbD_and, BitVec.getLsbD_not, getLsbD_fieldMask _ _ hi, BitVec.getLsbD_ofNat, hi,
    decide_true, Bool.true_and, Nat.mul_comm x, Nat.testBit_two_pow_mul]
  split
  · next h => simp [h]
  · next h =>
    rcases Nat.lt_or_ge i pos with hlt | hge
    · simp [h, hlt]
    · have : x.testBit (i - pos) = false := Nat.testBit_lt_two_pow (lt_of_lt_of_le hx (Nat.pow_le_pow_right (by omega) (by omega)))
      simp [h, this]

/-- LIK replaces the 16 bits of g[rd] that imm21[20:19] selects. -/
theorem getLsbD_lik (g : Word) (w : BitVec 21) {i : Nat} (hi : i < 64) :
    ((g &&& ~~~(BitVec.ofNat 64 (0xFFFF * 2 ^ (16 * (w.toNat / 2 ^ 19))))) |||
      BitVec.ofNat 64 (w.toNat % 2 ^ 16 * 2 ^ (16 * (w.toNat / 2 ^ 19)))).getLsbD i =
      if i / 16 = (w.extractLsb' 19 2).toNat then w.getLsbD (i % 16) else g.getLsbD i := by
  have hsel : (w.extractLsb' 19 2).toNat = w.toNat / 2 ^ 19 := by
    have := w.isLt
    rw [BitVec.extractLsb'_toNat, Nat.shiftRight_eq_div_pow]
    omega
  rw [show (0xFFFF : Nat) = 2 ^ 16 - 1 from rfl, getLsbD_masked g (Nat.mod_lt _ (by decide)) hi, hsel]
  refine if_ctx_congr (by omega) (fun h => ?_) fun _ => rfl
  rw [Nat.testBit_mod_two_pow, show i - 16 * (w.toNat / 2 ^ 19) = i % 16 by omega, BitVec.getLsbD]
  simp [Nat.mod_lt i]

/-- Settles O1, row by row: the value that the instruction writes is the value of its row. -/
theorem registerOperationResult : Obligations.RegisterOperationResult := by
  refine ⟨fun row hrow c f s hr hm hmod => ?_, fun row hrow c f s hr hm => ?_, fun c w s hr hm => ⟨?_, ?_, fun hres => ?_⟩⟩
  · have hok : (f.mod == 0) = true := beq_iff_eq.mpr hmod
    simp only [List.mem_cons, List.not_mem_nil, or_false] at hrow
    rcases hrow with rfl | rfl | rfl | rfl | rfl | rfl | rfl | rfl | rfl | rfl | rfl | rfl | rfl | rfl | rfl | rfl | rfl
    all_goals
      unfold exec
      dsimp only
      refine ran_of_retG hr hm (legal_of hok ..) ?_
    iterate 8 rfl
    · exact word01_slt ..
    · exact word01_ult ..
    · exact ite_sle ..
    · exact ite_sle ..
    · exact ite_ule ..
    · exact ite_ule ..
    · rfl
    · rfl
    · exact word01_beq ..
  · simp only [List.mem_cons, List.not_mem_nil, or_false] at hrow
    rcases hrow with rfl | rfl | rfl | rfl | rfl | rfl | rfl
    all_goals
      unfold exec
      dsimp only
      refine ran_of_retG hr hm rfl ?_
    iterate 4 rfl
    · exact word01_slt ..
    · exact word01_ult ..
    · rfl
  · unfold exec
    exact ran_of_retG hr hm rfl rfl
  · unfold exec
    exact ran_of_retG hr hm rfl rfl
  · unfold exec
    exact ran_value (ran_of_retG hr hm (legal_of (likReserved_of_zero hres) ..) rfl) fun _ => getLsbD_lik _ _

end Sys2Proof.Machine

/-! Shifts, rotates, bit fields, counts and byte reversal (R180, Table 5.8 class 2), bit by bit. -/

namespace Sys2Proof.Machine

open Sys2Proof

/-! ### Shift amounts -/

theorem modHigh_iff (f : Fields) : (!f.mod.getLsbD 6) = true ↔ f.mod.toNat < 64 := by
  have hlt : f.mod.toNat < 2 ^ 7 := f.mod.isLt
  rw [Bool.not_eq_true', BitVec.getLsbD, Nat.testBit_eq_decide_div_mod_eq, decide_eq_false_iff_not]
  omega

theorem shImmOk_iff (f : Fields) : shImmOk f = true ↔ f.rb = 0 ∧ f.mod.toNat < 64 := by
  rw [shImmOk, Bool.and_eq_true, beq_iff_eq, modHigh_iff]

theorem shImm_of {f : Fields} (hmod : f.mod.toNat < 64) : shImm f = f.mod.toNat := Nat.mod_eq_of_lt hmod

/-! ### 32-bit shifts -/

/-- A left shift of the low half is the low half of the left shift. -/
theorem sext32_shiftLeft (a : Word) (n : Nat) : sext32 (a <<< n) = ((a.setWidth 32) <<< n).signExtend 64 := by
  unfold sext32
  congr 1
  refine BitVec.eq_of_toNat_eq ?_
  simp [Nat.shiftLeft_eq, Nat.mod_mod_of_dvd]

/-- A right shift of the low half never reaches past it. -/
theorem sext32_low32_shiftRight (a : Word) (n : Nat) : sext32 (low32 a >>> n) = ((a.setWidth 32) >>> n).signExtend 64 := by
  unfold sext32 low32
  congr 1
  refine BitVec.eq_of_toNat_eq ?_
  have hlt : BitVec.toNat a % 2 ^ 32 / 2 ^ n < 2 ^ 32 := (Nat.div_le_self ..).trans_lt (Nat.mod_lt _ (by decide))
  have hmod : BitVec.toNat a % 2 ^ 32 % 2 ^ 64 = BitVec.toNat a % 2 ^ 32 := by omega
  rw [BitVec.extractLsb'_toNat, BitVec.toNat_ushiftRight, BitVec.toNat_setWidth, BitVec.extractLsb'_toNat, Nat.shiftRight_zero,
    Nat.shiftRight_zero, hmod, Nat.shiftRight_eq_div_pow, Nat.mod_eq_of_lt hlt, BitVec.toNat_ushiftRight, BitVec.toNat_setWidth,
    Nat.shiftRight_eq_div_pow]

theorem sext32_sshiftRight (a : Word) (n : Nat) : (sext32 a).sshiftRight n = ((a.setWidth 32).sshiftRight n).signExtend 64 := by
  refine BitVec.eq_of_toInt_eq ?_
  rw [sext32, BitVec.toInt_sshiftRight, BitVec.toInt_signExtend_of_le (by decide), BitVec.toInt_signExtend_of_le (by decide),
    BitVec.toInt_sshiftRight, BitVec.setWidth_eq_extractLsb' (by decide)]

/-! ### Bit fields -/

theorem fieldOk_iff (f : Fields) : fieldOk f = true ↔ (f.rb ++ f.mod).toNat / 64 + ((f.rb ++ f.mod).toNat % 64 + 1) ≤ 64 :=
  decide_eq_true_iff

theorem getLsbD_extu (a : Word) (pos len : Nat) {i : Nat} (hi : i < 64) :
    (BitVec.ofNat 64 (a.toNat / 2 ^ pos % 2 ^ len)).getLsbD i = (decide (i < len) && a.getLsbD (pos + i)) := by
  rw [BitVec.getLsbD_ofNat, Nat.testBit_mod_two_pow, Nat.testBit_div_two_pow, Nat.add_comm i]
  simp [hi, BitVec.getLsbD]

/-- `sx(v, w)` of a number is the signed value of its low bits. -/
theorem sxInt_natCast (n w : Nat) : sxInt n w = (BitVec.ofNat w n).toInt := by
  rw [BitVec.toInt_eq_toNat_cond, BitVec.toNat_ofNat, sxInt]
  norm_cast

theorem getLsbD_exts (a : Word) (pos : Nat) {len : Nat} (hlen : 0 < len) {i : Nat} (hi : i < 64) :
    (wrap (sxInt (a.toNat / 2 ^ pos) len)).getLsbD i = a.getLsbD (pos + min i (len - 1)) := by
  have hbit (j : Nat) (hj : j < len) : (BitVec.ofNat len (a.toNat / 2 ^ pos)).getLsbD j = a.getLsbD (pos + j) := by
    rw [BitVec.getLsbD_ofNat, Nat.testBit_div_two_pow, Nat.add_comm j]
    simp [hj, BitVec.getLsbD]
  have hsx : wrap (sxInt (a.toNat / 2 ^ pos) len) = (BitVec.ofNat len (a.toNat / 2 ^ pos)).signExtend 64 := by
    rw [BitVec.signExtend, ← sxInt_natCast]
    rfl
  rw [hsx, BitVec.getLsbD_signExtend, BitVec.msb_eq_getLsbD_last]
  split
  · next hlt => rw [hbit i hlt, Nat.min_eq_left (by omega)]; simp [hi]
  · next hge => rw [hbit _ (by omega), Nat.min_eq_right (by omega)]; simp [hi]

theorem getLsbD_ins (g a : Word) (pos len : Nat) {i : Nat} (hi : i < 64) :
    let m : Word := BitVec.ofNat 64 ((2 ^ len - 1) * 2 ^ pos)
    ((g &&& ~~~m) ||| ((a <<< pos) &&& m)).getLsbD i =
      if pos ≤ i ∧ i < pos + len then a.getLsbD (i - pos) else g.getLsbD i := by
  intro m
  have hm : m.getLsbD i = decide (pos ≤ i ∧ i < pos + len) := getLsbD_fieldMask pos len hi
  simp only [BitVec.getLsbD_or, BitVec.getLsbD_and, BitVec.getLsbD_not, BitVec.getLsbD_shiftLeft, hi, hm]
  split
  · next h => simp [h]
  · next h => simp [h]

/-! ### Counts -/

theorem countOk_iff (f : Fields) : countOk f = true ↔ f.rb = 0 ∧ f.mod = 0 := by
  rw [countOk, Bool.and_eq_true, beq_iff_eq, beq_iff_eq]

theorem lt_two_pow_of_testBit {w n : Nat} (h : n < 2 ^ (w + 1)) (hb : n.testBit w = false) : n < 2 ^ w :=
  Nat.lt_pow_two_of_testBit n fun i hi => by
    rcases Nat.eq_or_lt_of_le hi with rfl | hlt
    · exact hb
    · exact Nat.testBit_lt_two_pow (h.trans_le (Nat.pow_le_pow_right (by decide) hlt))

theorem leadingZeros_spec (w n : Nat) (h : n < 2 ^ w) : leadingZeros w n ≤ w ∧ n < 2 ^ (w - leadingZeros w n) ∧
    (leadingZeros w n < w → n.testBit (w - 1 - leadingZeros w n) = true) := by
  induction w with
  | zero => simpa [leadingZeros] using h
  | succ w ih =>
    unfold leadingZeros
    split
    · next hb => simp [h, hb]
    · next hb =>
      have hlt : n < 2 ^ w := lt_two_pow_of_testBit h (by simpa using hb)
      obtain ⟨hle, hlow, htop⟩ := ih hlt
      refine ⟨by omega, by rwa [Nat.add_sub_add_right], fun h => ?_⟩
      rw [show w + 1 - 1 - (leadingZeros w n + 1) = w - 1 - leadingZeros w n by omega]
      exact htop (by omega)

theorem trailingZeros_spec (w n : Nat) : trailingZeros w n ≤ w ∧ (∀ i < trailingZeros w n, n.testBit i = false) ∧
    (trailingZeros w n < w → n.testBit (trailingZeros w n) = true) := by
  induction w generalizing n with
  | zero => simp [trailingZeros]
  | succ w ih =>
    unfold trailingZeros
    split
    · next hb => simp [Nat.testBit_zero, hb]
    · next hb =>
      obtain ⟨hle, hlow, htop⟩ := ih (n / 2)
      refine ⟨by omega, fun i hi => ?_, fun h => by rw [Nat.testBit_succ]; exact htop (by omega)⟩
      cases i with
      | zero => simpa using hb
      | succ i => rw [Nat.testBit_succ]; exact hlow i (by omega)

theorem popCount_eq (w n : Nat) : popCount w n = ((List.range w).filter (fun i => n.testBit i)).length := by
  induction w generalizing n with
  | zero => rfl
  | succ w ih =>
    have hshift : (fun i => n.testBit i) ∘ Nat.succ = fun i => (n / 2).testBit i := funext fun i => Nat.testBit_succ n i
    rw [popCount, ih, List.range_succ_eq_map, List.filter_cons, List.filter_map, hshift, Nat.testBit_zero]
    rcases Nat.mod_two_eq_zero_or_one n with h | h <;> simp [h, Nat.add_comm]

/-! ### Byte reversal -/

theorem ofBe_eq_ofLe_reverse (bs : List Byte) : ofBe bs = ofLe bs.reverse := by
  induction bs using List.reverseRecOn with
  | nil => rfl
  | append_singleton bs b ih =>
    rw [List.reverse_append, List.reverse_singleton, List.singleton_append, ofLe, ← ih, ofBe, List.foldl_append]
    exact Nat.add_comm ..

/-- A byte of a little-endian number. -/
theorem ofLe_digit (bs : List Byte) (i : Nat) : ofLe bs / 256 ^ i % 256 = (bs.getD i 0).toNat := by
  induction bs generalizing i with
  | nil => simp [ofLe]
  | cons b bs ih =>
    have hb := b.isLt
    cases i with
    | zero => simp [ofLe]; omega
    | succ i =>
      rw [ofLe, Nat.pow_succ', ← Nat.div_div_eq_div_mul, List.getD_cons_succ, ← ih]
      congr 2
      omega

theorem getD_leBytes (n : Nat) {k i : Nat} (h : i < k) : (leBytes k n).getD i 0 = BitVec.ofNat 8 (n / 256 ^ i) := by
  induction k generalizing n i with
  | zero => omega
  | succ k ih =>
    cases i with
    | zero => simp [leBytes]
    | succ i => rw [leBytes, List.getD_cons_succ, ih _ (by omega), Nat.div_div_eq_div_mul, Nat.pow_succ']

theorem extractLsb'_rev8 (a : Word) {i : Nat} (hi : i < 8) :
    (BitVec.ofNat 64 (ofBe (leBytes 8 a.toNat))).extractLsb' (8 * i) 8 = a.extractLsb' (8 * (7 - i)) 8 := by
  have hlt : ofLe (leBytes 8 a.toNat).reverse < 2 ^ 64 := by
    simpa using ofLe_lt (leBytes 8 a.toNat).reverse
  have hrev : (leBytes 8 a.toNat).reverse.getD i 0 = (leBytes 8 a.toNat).getD (7 - i) 0 := by
    rw [List.getD_eq_getElem _ _ (by simpa using hi), List.getElem_reverse, List.getD_eq_getElem _ _ (by simp; omega)]
    simp
  refine BitVec.eq_of_toNat_eq ?_
  rw [BitVec.extractLsb'_toNat, BitVec.extractLsb'_toNat, ofBe_eq_ofLe_reverse, BitVec.toNat_ofNat, Nat.mod_eq_of_lt hlt,
    Nat.shiftRight_eq_div_pow, Nat.shiftRight_eq_div_pow, Nat.pow_mul, Nat.pow_mul]
  exact (ofLe_digit _ i).trans (by rw [hrev, getD_leBytes _ (by omega)]; rfl)

/-- Settles O2, row by row: bits of words for the fields, and counts by induction on the width. -/
theorem shiftBitResult : Obligations.ShiftBitResult := by
  refine ⟨⟨fun row hrow c f s hr hm hmod => ?_, fun row hrow c f s hr hm hrb hmod => ?_⟩, fun c f s hr hm =>
    ⟨fun hfit => ⟨?_, ?_, ?_⟩, fun hrb hmod => ⟨?_, ?_, ?_, ?_⟩⟩⟩
  · have hok : (f.mod == 0) = true := beq_iff_eq.mpr hmod
    simp only [List.mem_cons, List.not_mem_nil, or_false] at hrow
    rcases hrow with rfl | rfl | rfl | rfl | rfl | rfl | rfl | rfl
    all_goals
      unfold exec
      dsimp only
      refine ran_of_retG hr hm (legal_of hok ..) ?_
    iterate 5 rfl
    · exact sext32_shiftLeft ..
    · exact sext32_low32_shiftRight ..
    · exact sext32_sshiftRight ..
  · simp only [List.mem_cons, List.not_mem_nil, or_false] at hrow
    rcases hrow with rfl | rfl | rfl | rfl
    all_goals
      unfold exec
      dsimp only
      refine ran_of_retG hr hm (legal_of ((shImmOk_iff f).mpr ⟨hrb, hmod⟩) ..) ?_
      rw [shImm_of hmod]
  · unfold exec
    exact ran_value (ran_of_retG hr hm (legal_of ((fieldOk_iff f).mpr hfit) ..) rfl) fun _ => getLsbD_extu _ _ _
  · unfold exec
    exact ran_value (ran_of_retG hr hm (legal_of ((fieldOk_iff f).mpr hfit) ..) rfl) fun _ => getLsbD_exts _ _ (Nat.succ_pos _)
  · unfold exec
    exact ran_value (ran_of_retG hr hm (legal_of ((fieldOk_iff f).mpr hfit) ..) rfl) fun _ => getLsbD_ins _ _ _ _
  · unfold exec
    exact ran_value (ran_of_retG hr hm (legal_of ((countOk_iff f).mpr ⟨hrb, hmod⟩) ..) rfl) (leadingZeros_spec 64 _ (BitVec.isLt _))
  · unfold exec
    exact ran_value (ran_of_retG hr hm (legal_of ((countOk_iff f).mpr ⟨hrb, hmod⟩) ..) rfl) (trailingZeros_spec 64 _)
  · unfold exec
    exact ran_of_retG hr hm (legal_of ((countOk_iff f).mpr ⟨hrb, hmod⟩) ..) (congrArg _ (popCount_eq ..))
  · unfold exec
    exact ran_value (ran_of_retG hr hm (legal_of ((countOk_iff f).mpr ⟨hrb, hmod⟩) ..) rfl) fun _ => extractLsb'_rev8 _

end Sys2Proof.Machine

/-! Multiplication, division and saturating arithmetic (R181, R190, Tables 5.9 and 5.12): the exact value, its flags, and the words
that are illegal. -/

namespace Sys2Proof.Machine

open Sys2Proof

/-! ### Division (Table 5.9) -/

theorem toInt_eq_zero_iff {w : Nat} (y : BitVec w) : y.toInt = 0 ↔ y = 0 := by
  rw [← BitVec.toInt_inj, show (0 : BitVec w).toInt = 0 by simp]

theorem toNat_eq_zero_iff {w : Nat} (y : BitVec w) : y.toNat = 0 ↔ y = 0 := by
  rw [BitVec.toNat_eq, show (0 : BitVec w).toNat = 0 by simp]

theorem toInt_neg_one {w : Nat} (hw : 0 < w) : (-1 : BitVec w).toInt = -1 := by
  rw [show (-1 : BitVec w) = BitVec.allOnes w by simp [BitVec.neg_one_eq_allOnes], BitVec.toInt_allOnes, if_pos hw]

/-- The overflow of a signed division (R181). -/
theorem overflows_iff {w : Nat} (hw : 0 < w) (x y : BitVec w) :
    (x.toInt = -(2 ^ (w - 1) : Int) ∧ y.toInt = -1) ↔ x = BitVec.intMin w ∧ y = -1 := by
  rw [← BitVec.toInt_inj (y := BitVec.intMin w), ← BitVec.toInt_inj (y := -1), BitVec.toInt_intMin_of_pos hw, toInt_neg_one hw]

theorem intRes_divSigned {w : Nat} (hw : 0 < w) (x y : BitVec w) : intRes (divSigned w x.toInt y.toInt) =
    if y = 0 then (0, 1) else if x = BitVec.intMin w ∧ y = -1 then (x.signExtend 64, 2)
      else (BitVec.ofInt 64 (x.toInt.tdiv y.toInt), 0) := by
  simp only [divSigned, toInt_eq_zero_iff, overflows_iff hw]
  split_ifs <;> rfl

theorem intRes_remSigned {w : Nat} (hw : 0 < w) (x y : BitVec w) : intRes (remSigned w x.toInt y.toInt) =
    if y = 0 then (x.signExtend 64, 1) else if x = BitVec.intMin w ∧ y = -1 then (0, 2)
      else (BitVec.ofInt 64 (x.toInt.tmod y.toInt), 0) := by
  simp only [remSigned, toInt_eq_zero_iff, overflows_iff hw, tdiv, ← Int.tmod_def]
  split_ifs <;> rfl

theorem divUnsigned_toNat {w : Nat} (x y : BitVec w) :
    divUnsigned x.toNat y.toNat = if y = 0 then (0, 1) else (x.toNat / y.toNat, 0) := by
  simp only [divUnsigned, toNat_eq_zero_iff]
  rfl

theorem remUnsigned_toNat {w : Nat} (x y : BitVec w) :
    remUnsigned x.toNat y.toNat = if y = 0 then (x.toNat, 1) else (x.toNat % y.toNat, 0) := by
  have hmod : x.toNat - y.toNat * (x.toNat / y.toNat) = x.toNat % y.toNat := by
    have := Nat.div_add_mod x.toNat y.toNat
    omega
  simp only [remUnsigned, toNat_eq_zero_iff, hmod]
  rfl

theorem sext32_ofNat (n : Nat) : sext32 (BitVec.ofNat 64 n) = (BitVec.ofNat 32 n).signExtend 64 := by
  unfold sext32
  congr 1
  refine BitVec.eq_of_toNat_eq ?_
  simp [Nat.mod_mod_of_dvd]

/-- The 32-bit unsigned quotient, sign-extended. -/
theorem sext32_divUnsigned (x y : BitVec 32) :
    (sext32 (BitVec.ofNat 64 (divUnsigned x.toNat y.toNat).1), (divUnsigned x.toNat y.toNat).2) =
      if y = 0 then (0, 1) else ((BitVec.ofNat 32 (x.toNat / y.toNat)).signExtend 64, 0) := by
  rw [divUnsigned_toNat]
  split
  · rfl
  · rw [sext32_ofNat]

/-- The 32-bit unsigned remainder, sign-extended. -/
theorem sext32_remUnsigned (x y : BitVec 32) :
    (sext32 (BitVec.ofNat 64 (remUnsigned x.toNat y.toNat).1), (remUnsigned x.toNat y.toNat).2) =
      if y = 0 then (x.signExtend 64, 1) else ((BitVec.ofNat 32 (x.toNat % y.toNat)).signExtend 64, 0) := by
  rw [remUnsigned_toNat]
  split
  · rw [sext32_ofNat, BitVec.ofNat_toNat, BitVec.setWidth_eq]
  · rw [sext32_ofNat]

/-- Settles O3, row by row: the model's division on the signed or unsigned values of the operands is the row's on their words. -/
theorem multiplyDivideResult : Obligations.MultiplyDivideResult := by
  refine ⟨fun row hrow c f s hr hm hmod => ?_, fun row hrow c f s hr hm hmod => ?_, fun row hrow c f s hr hx hmod => ?_⟩
  · have hok : (f.mod == 0) = true := beq_iff_eq.mpr hmod
    simp only [List.mem_cons, List.not_mem_nil, or_false] at hrow
    rcases hrow with rfl | rfl | rfl | rfl | rfl
    all_goals
      unfold exec
      dsimp only
      exact ran_of_retG hr hm (legal_of hok ..) rfl
  · have hok : (f.mod == 0) = true := beq_iff_eq.mpr hmod
    simp only [List.mem_cons, List.not_mem_nil, or_false] at hrow
    rcases hrow with rfl | rfl | rfl | rfl | rfl | rfl | rfl | rfl
    all_goals
      unfold exec
      dsimp only
      refine ran_of_retRes hr hm (legal_of hok ..) ?_
    · rw [intRes_divSigned (by decide), BitVec.signExtend_eq]
    · rw [divUnsigned_toNat]
      split <;> rfl
    · rw [intRes_remSigned (by decide), BitVec.signExtend_eq]
    · rw [remUnsigned_toNat]
      split <;> simp [natRes]
    · exact intRes_divSigned (by decide) ..
    · exact sext32_divUnsigned ..
    · exact intRes_remSigned (by decide) ..
    · exact sext32_remUnsigned ..
  · simp only [List.mem_cons, List.not_mem_nil, or_false] at hrow
    rcases hrow with rfl | rfl | rfl | rfl | rfl | rfl | rfl | rfl | rfl | rfl | rfl | rfl | rfl
    all_goals
      unfold exec
      exact excepted_of_illegal hr hx rfl (mt beq_iff_eq.mp hmod)

/-! ### Saturation (R190) -/

/-- MOD[0] of ADDS and SUBS selects the width. -/
theorem getLsbD_zero_of_lt_two {m : BitVec 7} (h : m.toNat < 2) : m.getLsbD 0 = !decide (m.toNat = 0) := by
  rw [BitVec.getLsbD, Nat.testBit_zero]
  rcases (by omega : m.toNat = 0 ∨ m.toNat = 1) with h | h <;> rw [h] <;> rfl

/-- The result of ADDS or SUBS: of 64 bits, or of 32. -/
theorem intRes_satWidth {m : BitVec 7} (h : m.toNat < 2) (v32 v64 : Int) :
    let v := if m.toNat = 0 then (v64, -2 ^ 63, 2 ^ 63 - 1) else (v32, -2 ^ 31, (2 ^ 31 - 1 : Int))
    let r := min (max v.1 v.2.1) v.2.2
    intRes (if m.getLsbD 0 then satS32 v32 else satS64 v64) = (BitVec.ofInt 64 r, if r = v.1 then 0 else 4) := by
  rw [getLsbD_zero_of_lt_two h]
  by_cases h0 : m.toNat = 0
  · rw [h0]
    rfl
  · rw [decide_eq_false h0, if_neg h0]
    rfl

/-- Settles O4, row by row: the model's clamp is the row's, between the same bounds. -/
theorem saturatingResult : Obligations.SaturatingResult := by
  refine ⟨fun row hrow c f s hr hm hok => ?_, fun c f s hr hm hmod => ?_, fun group hgroup row hrow c f s hr hx hbad => ?_⟩
  · simp only [List.mem_cons, List.not_mem_nil, or_false] at hrow
    rcases hrow with rfl | rfl | rfl | rfl | rfl | rfl | rfl | rfl | rfl | rfl | rfl
    all_goals
      unfold exec
      dsimp only at hok ⊢
    · exact ran_of_retRes hr hm (legal_of (decide_eq_true hok) ..) (intRes_satWidth hok ..)
    · exact ran_of_retRes hr hm (legal_of (decide_eq_true hok) ..) (intRes_satWidth hok ..)
    · exact ran_of_retRes hr hm (legal_of (beq_iff_eq.mpr hok) ..) rfl
    · exact ran_of_retRes hr hm (legal_of (beq_iff_eq.mpr hok) ..) rfl
    · exact ran_of_retRes hr hm (legal_of (beq_iff_eq.mpr hok) ..) rfl
    · exact ran_of_retRes hr hm (legal_of (beq_iff_eq.mpr hok) ..) rfl
    · rw [← shImm_of hok.2]
      exact ran_of_retRes hr hm (legal_of ((shImmOk_iff f).mpr hok) ..) rfl
    · rw [← shImm_of hok.2]
      exact ran_of_retRes hr hm (legal_of ((shImmOk_iff f).mpr hok) ..) rfl
    · rw [← shImm_of hok]
      exact ran_of_retRes hr hm (legal_of ((modHigh_iff f).mpr hok) ..) rfl
    · rw [← shImm_of hok]
      exact ran_of_retRes hr hm (legal_of ((modHigh_iff f).mpr hok) ..) rfl
    · exact ran_of_retRes hr hm (legal_of (beq_iff_eq.mpr hok) ..) rfl
  · unfold exec
    exact ran_of_retRes hr hm (legal_of (beq_iff_eq.mpr hmod) ..) rfl
  · simp only [List.mem_cons, List.not_mem_nil, or_false] at hgroup
    rcases hgroup with rfl | rfl | rfl | rfl
    all_goals
      simp only [List.mem_cons, List.not_mem_nil, or_false] at hrow
    · rcases hrow with rfl | rfl
      all_goals
        unfold exec
        exact excepted_of_illegal hr hx rfl (mt of_decide_eq_true hbad)
    · rcases hrow with rfl | rfl | rfl | rfl | rfl | rfl
      all_goals
        unfold exec
        exact excepted_of_illegal hr hx rfl (mt beq_iff_eq.mp hbad)
    · rcases hrow with rfl | rfl
      all_goals
        unfold exec
        exact excepted_of_illegal hr hx rfl (mt (shImmOk_iff f).mp hbad)
    · rcases hrow with rfl | rfl
      all_goals
        unfold exec
        exact excepted_of_illegal hr hx rfl (mt (modHigh_iff f).mp hbad)

end Sys2Proof.Machine

/-! Floating-point instructions (R183 to R187, Table 5.11 classes 8 and 9): the specified operations on the registers, in the
registers' frame. -/

namespace Sys2Proof.Machine

open Sys2Proof

/-! ### The sign operations on bits -/

theorem getLsbD_signMask {i : Nat} (hi : i < 64) : (0x8000000000000000 : Word).getLsbD i = decide (i = 63) := by
  revert i
  decide

theorem getLsbD_restMask {i : Nat} (hi : i < 64) : (0x7FFFFFFFFFFFFFFF : Word).getLsbD i = decide (i < 63) := by
  revert i
  decide

/-- The sign of `x` on the number of `a`. -/
theorem copySign_eq (a x : Word) : (a &&& 0x7FFFFFFFFFFFFFFF) ||| (x &&& 0x8000000000000000) = x.extractLsb' 63 1 ++ a.extractLsb' 0 63 := by
  refine BitVec.eq_of_getLsbD_eq fun i hi => ?_
  rw [BitVec.getLsbD_or, BitVec.getLsbD_and, BitVec.getLsbD_and, getLsbD_signMask hi, getLsbD_restMask hi, BitVec.getLsbD_append,
    BitVec.getLsbD_extractLsb', BitVec.getLsbD_extractLsb']
  rcases Nat.lt_or_ge i 63 with h | h
  · simp [h, Nat.ne_of_lt h]
  · obtain rfl : i = 63 := by omega
    simp

theorem flipSign_eq (a b : Word) : a ^^^ (b &&& 0x8000000000000000) =
    (a.extractLsb' 63 1 ^^^ b.extractLsb' 63 1) ++ a.extractLsb' 0 63 := by
  refine BitVec.eq_of_getLsbD_eq fun i hi => ?_
  rw [BitVec.getLsbD_xor, BitVec.getLsbD_and, getLsbD_signMask hi, BitVec.getLsbD_append, BitVec.getLsbD_xor,
    BitVec.getLsbD_extractLsb', BitVec.getLsbD_extractLsb', BitVec.getLsbD_extractLsb']
  rcases Nat.lt_or_ge i 63 with h | h
  · simp [h, Nat.ne_of_lt h]
  · obtain rfl : i = 63 := by omega
    simp

theorem extractLsb'_not_sign (b : Word) : (~~~b).extractLsb' 63 1 = ~~~(b.extractLsb' 63 1) := by
  refine BitVec.eq_of_getLsbD_eq fun i hi => ?_
  obtain rfl : i = 0 := by omega
  simp

/-! ### Conversions -/

theorem cvtRes_spec (k : Core) (a : Word) {lo hi : Int} (h : lo ≤ hi) : ConvertResult k.cr.rm.toNat a lo hi (cvtRes k a lo hi) :=
  fCvt_spec _ a lo hi h

/-- FIS32 as a number. -/
theorem word01_fIs32 (a : Word) : (fNaN a ∨ fInfinite a ∨ Fits32 (fNum a) → ((word01 (fIs32 a), 0) : Word × BitVec 5) = (1, 0)) ∧
    (fFinite a → ¬ Fits32 (fNum a) → ((word01 (fIs32 a), 0) : Word × BitVec 5) = (0, 0)) := by
  obtain ⟨hyes, hno⟩ := fIs32_spec a
  exact ⟨fun h => by rw [hyes h]; rfl, fun hfin h => by rw [hno hfin h]; rfl⟩

/-! ### Legal words (R183) -/

theorem fmtMod_iff (f : Fields) : fmtMod f = true ↔ f.mod.toNat < 2 := decide_eq_true_iff

theorem fmtModRb_iff (f : Fields) : (fmtMod f && f.rb == 0) = true ↔ f.mod.toNat < 2 ∧ f.rb = 0 := by
  rw [Bool.and_eq_true, fmtMod_iff, beq_iff_eq]

theorem fusedMod_iff (f : Fields) : (!f.mod.getLsbD 1) = true ↔ f.mod.getLsbD 1 = false := by
  rw [Bool.not_eq_true']

/-- Settles O9. -/
theorem floatArithmeticResult : Obligations.FloatArithmeticResult := by
  intro row hrow c f s hr hm hok
  simp only [List.mem_cons, List.not_mem_nil, or_false] at hrow
  rcases hrow with rfl | rfl | rfl | rfl | rfl | rfl | rfl | rfl | rfl | rfl | rfl | rfl | rfl | rfl
  all_goals
    unfold exec
    dsimp only at hok ⊢
  · exact ran_result (ran_of_retFR hr hm (legal_of ((fmtMod_iff f).mpr hok) ..)) (fAdd_spec ..)
  · exact ran_result (ran_of_retFR hr hm (legal_of ((fmtMod_iff f).mpr hok) ..)) (fSub_spec ..)
  · exact ran_result (ran_of_retFR hr hm (legal_of ((fmtMod_iff f).mpr hok) ..)) (fMul_spec ..)
  · exact ran_result (ran_of_retFR hr hm (legal_of ((fmtMod_iff f).mpr hok) ..)) (fDiv_spec ..)
  · exact ran_result (ran_of_retFR hr hm (legal_of ((fmtModRb_iff f).mpr hok) ..)) (fSqrt_spec ..)
  · exact ran_result (ran_of_retFR hr hm (legal_of ((fmtMod_iff f).mpr hok) ..)) (fMinMax_spec ..)
  · exact ran_result (ran_of_retFR hr hm (legal_of ((fmtMod_iff f).mpr hok) ..)) (fMinMax_spec ..)
  · exact ran_result (ran_of_retFR (x := (_, 0)) hr hm (legal_of (beq_iff_eq.mpr hok) ..)) (congrArg (·, 0) (copySign_eq ..))
  · rw [← extractLsb'_not_sign]
    exact ran_result (ran_of_retFR (x := (_, 0)) hr hm (legal_of (beq_iff_eq.mpr hok) ..)) (congrArg (·, 0) (copySign_eq ..))
  · exact ran_result (ran_of_retFR (x := (_, 0)) hr hm (legal_of (beq_iff_eq.mpr hok) ..)) (congrArg (·, 0) (flipSign_eq ..))
  · exact ran_result (ran_of_retFR hr hm (legal_of ((fusedMod_iff f).mpr hok) ..)) (fMadd_spec ..)
  · exact ran_result (ran_of_retFR hr hm (legal_of ((fusedMod_iff f).mpr hok) ..)) (fMadd_spec ..)
  · exact ran_result (ran_of_retFR hr hm (legal_of ((fusedMod_iff f).mpr hok) ..)) (fMadd_spec ..)
  · exact ran_result (ran_of_retFR hr hm (legal_of ((fusedMod_iff f).mpr hok) ..)) (fMadd_spec ..)

/-- Settles O10. -/
theorem floatCompareConvertResult : Obligations.FloatCompareConvertResult := by
  refine ⟨fun row hrow c f s hr hm hmod => ?_, fun row hrow c f s hr hm hok => ?_, fWiden_spec, fNarrow_spec⟩
  · have hok : (f.mod == 0) = true := beq_iff_eq.mpr hmod
    simp only [List.mem_cons, List.not_mem_nil, or_false] at hrow
    rcases hrow with rfl | rfl | rfl | rfl | rfl | rfl | rfl | rfl | rfl | rfl
    all_goals
      unfold exec
      dsimp only
    · exact ran_result (ran_of_retGR (x := (_, _)) hr hm (legal_of hok ..)) (fCmpEq_spec ..)
    · exact ran_result (ran_of_retGR (x := (_, _)) hr hm (legal_of hok ..)) (fCmpLt_spec ..)
    · exact ran_result (ran_of_retGR (x := (_, _)) hr hm (legal_of hok ..)) (fCmpLe_spec ..)
    · exact ran_result (v := (_, 0)) (ran_of_retG_noFlags hr hm (legal_of hok ..)) ⟨fKind_spec _, rfl⟩
    · exact ran_result (ran_of_retGR hr hm (legal_of hok ..)) (cvtRes_spec _ _ (by decide))
    · exact ran_result (ran_of_retGR hr hm (legal_of hok ..)) (cvtRes_spec _ _ (by decide))
    · exact ran_result (ran_of_retGR hr hm (legal_of hok ..)) (cvtRes_spec _ _ (by decide))
    · exact ran_result (ran_of_retGR hr hm (legal_of hok ..)) (cvtRes_spec _ _ (by decide))
    · exact ran_result (v := (_, 0)) (ran_of_retG_noFlags hr hm (legal_of hok ..)) (word01_fIs32 _)
    · exact ran_result (v := (_, 0)) (ran_of_retG_noFlags hr hm (legal_of hok ..)) rfl
  · simp only [List.mem_cons, List.not_mem_nil, or_false] at hrow
    rcases hrow with rfl | rfl | rfl | rfl
    all_goals
      unfold exec
      dsimp only at hok ⊢
    · exact ran_result (ran_of_retFR hr hm (legal_of ((fmtMod_iff f).mpr hok) ..)) (fFromInt_spec ..)
    · exact ran_result (ran_of_retFR hr hm (legal_of ((fmtMod_iff f).mpr hok) ..)) (fFromInt_spec ..)
    · exact ran_result (ran_of_retFR hr hm (legal_of (beq_iff_eq.mpr hok) ..)) (fRnd32_spec ..)
    · exact ran_result (ran_of_retFR (x := (_, 0)) hr hm (legal_of (beq_iff_eq.mpr hok) ..)) rfl

end Sys2Proof.Machine

/-! Branches, jumps, YIELD and RETURN (R173, R182, R191, R196, Table 5.10 classes 6 and 7, Table 5.12 class 11). -/

namespace Sys2Proof.Machine

open Sys2Proof

/-! ### Branches and jumps -/

/-- A branch whose condition stands for `p`. -/
theorem ran_of_branchIf {s : State} {c : CoreRef} {body : State → Core → Act} {f : Fields} {b : Bool} {p : Prop} (hr : Retires s c)
    (hm : MarkAgrees s c) (hbody : body s (coreAt s c) = branchIf s (coreAt s c) f b) (hb : b = true ↔ p) :
    (p → ∃ t, runLane s c body = .next t ∧
      Ran s t c { coreAt s c with pc := (coreAt s c).pc + (f.rd ++ f.mod).signExtend 64 * 4 }) ∧
    (¬ p → ∃ t, runLane s c body = .next t ∧ Ran s t c { coreAt s c with pc := (coreAt s c).pc + 4 }) :=
  ⟨fun h => ran_of_retPc hr hm hbody (if_pos (hb.mpr h)), fun h => ran_of_retPc hr hm hbody (if_neg (mt hb.mp h))⟩

/-- Settles O8, row by row: the condition of the branch, and the target of the jump. -/
theorem controlFlowResult : Obligations.ControlFlowResult := by
  refine ⟨fun row hrow c f s hr hm => ?_, fun c f s hr hm => ⟨?_, fun hal => ?_⟩⟩
  · simp only [List.mem_cons, List.not_mem_nil, or_false] at hrow
    rcases hrow with rfl | rfl | rfl | rfl | rfl | rfl
    all_goals
      unfold exec
      dsimp only
      refine ran_of_branchIf hr hm rfl ?_
    · exact beq_iff_eq
    · exact bne_iff_ne
    · exact BitVec.slt_iff_toInt_lt
    · exact BitVec.sle_iff_toInt_le
    · exact BitVec.ult_iff_toNat_lt
    · exact BitVec.ule_iff_toNat_le
  · unfold exec
    exact ran_of_ret hr hm rfl rfl ((keepsWindow_gset ..).withPc _)
  · unfold exec
    exact ran_of_ret hr hm (if_neg (not_not.mpr hal)) rfl ((keepsWindow_gset ..).withPc _)

/-! ### Yielding (R132, R191, R196) -/

/-- `t` is `s` after a core has yielded: it is suspended behind the instruction, L of a checked lane waits at a drain point, and
only the rack bridge and the items of its log change outside the lane. -/
structure Yielded (s t : State) (c : CoreRef) (commit : Bool) : Prop where
  core : archOf (coreAt t c) = archOf { coreAt s c with
    pc := (coreAt s c).pc + 4, suspended := true, yieldCommit := commit, retired := (coreAt s c).retired + 1
    cr := { (coreAt s c).cr with status := (coreAt s c).cr.status &&& 0b10111 } }
  other : coreAt t (otherCore c) = coreAt s (otherCore c)
  drain : checkedLane s c.lane = true → c.core = .leading → (laneOf t c.lane).drain = some .yield
  lanes : ∀ l, l ≠ c.lane → laneOf t l = laneOf s l
  rest : t = { s with lanes := { s.lanes with lane := t.lanes.lane }, rack := t.rack, epoch := t.epoch }

theorem RackOnly.laneOf {s t : State} (h : RackOnly s t) (l : LaneId) : laneOf t l = Machine.laneOf s l :=
  laneOf_of_lanes (by rw [h]) l

/-- A lane with its LANE_RETIRED noted (Table 4.16). -/
def retiredLane (ln : Lane) (n : U32) : Lane := { ln with retiredLast := n }

theorem coreOf_retiredLane (ln : Lane) (n : U32) (c : CoreSel) : coreOf (retiredLane ln n) c = coreOf ln c := by
  cases c <;> rfl

/-- What a yield notes elsewhere leaves the lane but for LANE_RETIRED. -/
theorem yieldNote_spec (s : State) (c : CoreRef) (k : Core) :
    ∃ n, RackOnly (putLane s c.lane (retiredLane (laneOf s c.lane) n)) (yieldNote s c k) := by
  have hself : putLane s c.lane (retiredLane (laneOf s c.lane) (laneOf s c.lane).retiredLast) = s := putLane_laneOf s c.lane
  unfold yieldNote
  dsimp only
  split
  · exact ⟨_, rackOnly_rackBreakLane ..⟩
  · refine ⟨(laneOf s c.lane).retiredLast, ?_⟩
    rw [hself]
    exact .ite (rackOnly_rackBreakLane ..) rfl

/-- T at the end of its instruction, where the MARK agrees with its own window (R143): its window closes or stays open. -/
theorem markT_agrees {s : State} {l : LaneId} {k : Core} (seq : BitVec 10)
    (hmark : ∀ e rest, (laneOf s l).drift = e :: rest → e.kind.toNat = 6 → e.seq = seq →
      e.parity = driftParity e.data e.kind e.seq ∧ e.data = k.wseq ++ k.wcount) :
    ∃ ln, markT (putLane s l { laneOf s l with t := k }) l seq = putLane s l ln ∧ archOf ln.t = archOf k ∧
      ln = { laneOf s l with t := ln.t, drift := ln.drift } := by
  simp only [markT, laneOf_putLane]
  split
  · exact ⟨_, rfl, rfl, rfl⟩
  · next e rest hd =>
    split
    · next hq =>
      simp only [Bool.and_eq_true, beq_iff_eq, decide_eq_true_eq] at hq
      obtain ⟨hp, hdata⟩ := hmark e rest hd hq.1 hq.2
      rw [markCause_none e k hp hdata]
      dsimp only
      rw [putLane_putLane]
      exact ⟨_, rfl, archOf_firnClose k, rfl⟩
    · exact ⟨_, rfl, rfl, rfl⟩

/-- A lane put back after a yield, `x` being the lane that the yield has noted. -/
theorem yielded_putLane {s s' : State} {c : CoreRef} {x ln : Lane} {commit : Bool} (hs' : RackOnly (putLane s c.lane x) s')
    (hcore : archOf (coreOf ln c.core) = archOf (countRetired (yieldCore (coreAt s c) commit) false))
    (hother : coreOf ln (otherCore c).core = coreAt s (otherCore c))
    (hdrain : checkedLane s c.lane = true → c.core = .leading → ln.drain = some .yield) :
    Yielded s (putLane s' c.lane ln) c commit := by
  have hlane : (otherCore c).lane = c.lane := by cases c with | mk l sel => cases sel <;> rfl
  refine ⟨?_, ?_, fun hcheck hl => ?_, fun l hl => ?_, ?_⟩
  · rw [coreAt, laneOf_putLane, hcore]
    rfl
  · rw [← hother, coreAt, hlane, laneOf_putLane]
  · rw [laneOf_putLane, hdrain hcheck hl]
  · rw [laneOf_putLane_ne _ _ _ _ hl, hs'.laneOf, laneOf_putLane_ne _ _ _ _ hl]
  · rw [hs']
    rfl

theorem beginDrain_spec (ln : Lane) (d : DrainKind) :
    archOf (beginDrain ln d).l = archOf ln.l ∧ (beginDrain ln d).t = ln.t ∧ (beginDrain ln d).drain = some d := by
  unfold beginDrain
  dsimp only
  split <;> exact ⟨rfl, rfl, rfl⟩

/-- What a yield leaves to its retirement. -/
def yieldRet (k : Core) (commit : Bool) : Ret :=
  { k := yieldCore k commit, regs := [], store := none, entry := none, yields := true }

theorem retire_yielded {s : State} {c : CoreRef} (commit : Bool) (hm : MarkAgrees s c) :
    Yielded s (retire (yieldNote s c (coreAt s c)) c (coreAt s c) (yieldRet (coreAt s c) commit)) c commit := by
  obtain ⟨n, hnote⟩ := yieldNote_spec s c (coreAt s c)
  have hlane : laneOf (yieldNote s c (coreAt s c)) c.lane = retiredLane (laneOf s c.lane) n := by
    rw [hnote.laneOf, laneOf_putLane]
  by_cases hsp : isSplit (laneOf s c.lane) = true
  · have hcore : coreAt (yieldNote s c (coreAt s c)) c = coreAt s c := by
      rw [coreAt, hlane, coreOf_retiredLane, coreAt]
    rw [retire_split _ _ (by rw [hlane]; exact hsp), hcore, hlane]
    refine yielded_putLane hnote ?_ ?_ (by simp [checkedLane, hsp])
    · rw [coreOf_putCore]
      rfl
    · obtain ⟨l, sel⟩ := c
      cases sel <;> rfl
  · obtain ⟨l, sel⟩ := c
    cases sel with
    | leading =>
      rw [retire_leading _ _ (by rw [hlane]; exact hsp), hlane]
      obtain ⟨hl, ht, hd⟩ := beginDrain_spec { retiredLane (laneOf s l) n with
        l := checkedCore (coreAt s ⟨l, .leading⟩) { yieldRet (coreAt s ⟨l, .leading⟩) commit with
          k := notedCore (yieldCore (coreAt s ⟨l, .leading⟩) commit) (laneOf s l).l } } .yield
      exact yielded_putLane hnote hl ht fun _ _ => hd
    | trailing =>
      have hself : yieldNote s ⟨l, .trailing⟩ (coreAt s ⟨l, .trailing⟩) = s := if_neg hsp
      rw [hself, retire_trailing _ _ hsp]
      obtain ⟨ln, heq, harch, hrest⟩ := markT_agrees (s := s) (l := l)
        (k := checkedCore (coreAt s ⟨l, .trailing⟩) { yieldRet (coreAt s ⟨l, .trailing⟩) commit with
          k := notedCore (yieldCore (coreAt s ⟨l, .trailing⟩) commit) (laneOf s l).t })
        (seqOf (coreAt s ⟨l, .trailing⟩)) fun e rest => hm e rest (by simp [follows, checkedLane, hsp])
      have hlead : ln.l = (laneOf s l).l := by rw [hrest]
      have hy : Yielded s (putLane s l ln) ⟨l, .trailing⟩ commit :=
        yielded_putLane (s := s) (s' := s) (c := ⟨l, .trailing⟩) (x := laneOf s l) (by rw [putLane_laneOf]; exact .refl s)
          (harch.trans rfl) hlead (fun _ h => by cases h)
      change Yielded s (markT _ l _) _ commit
      exact heq ▸ hy

/-- A core that yields, where its window can close. -/
theorem yielded_of_yieldAct {s : State} {c : CoreRef} {body : State → Core → Act} {commit : Bool} (hr : Retires s c)
    (hm : MarkAgrees s c) (hbody : body s (coreAt s c) = yieldAct s c (coreAt s c) commit)
    (hroom : checkedLane s c.lane = true → windowRoom (coreAt s c) = true) :
    ∃ t, runLane s c body = .next t ∧ Yielded s t c commit := by
  have hact : yieldAct s c (coreAt s c) commit = .done (yieldNote s c (coreAt s c)) (yieldRet (coreAt s c) commit) :=
    if_neg (by cases hc : checkedLane s c.lane <;> simp [hc, hroom])
  exact ⟨_, runLane_done _ _ c body _ hr (hbody.trans hact), retire_yielded commit hm⟩

/-- Settles O14. -/
theorem yieldResult : Obligations.YieldResult := by
  intro c f s hr hm hsup hmod hrd hra hrb hroom
  have hok : (isSup (coreAt s c) && decide (f.mod.toNat < 2) && f.rd == 0 && f.ra == 0 && f.rb == 0) = true := by
    simp [hsup, hmod, hrd, hra, hrb]
  have hy : ∃ t, execYield c f s = .next t ∧ Yielded s t c (f.mod.getLsbD 0) :=
    yielded_of_yieldAct hr hm (legal_of hok ..) hroom
  obtain ⟨t, ht, hcore, hother, hdrain, hlanes, hrest⟩ := hy
  exact ⟨t, ht, hcore, hother, hdrain, hlanes, hrest⟩

/-- Settles O13: into supervisor mode, into user mode while the lane computes, and into user mode too late. -/
theorem returnResult : Obligations.ReturnResult := by
  intro c f s hr hm hsup k st sup
  refine ⟨fun hgo => ?_, fun huser hlate hroom => ?_⟩
  · have hgo' : ¬ (!sup && returnLate s c) = true := by
      rcases hgo with h | h <;> simp [h]
    unfold exec
    exact ran_of_ret hr hm ((legal_of hsup ..).trans (if_neg hgo')) rfl ⟨rfl, rfl, rfl, rfl, rfl⟩
  · have hgo : (!sup && returnLate s c) = true := by
      simp [huser, hlate]
    have hy : ∃ t, execRet c f s = .next t ∧ Yielded s t c false :=
      yielded_of_yieldAct hr hm ((legal_of hsup ..).trans (if_pos hgo)) hroom
    obtain ⟨t, ht, hcore, hother, hdrain, hlanes, hrest⟩ := hy
    exact ⟨t, ht, hcore, hother, hdrain, hlanes, hrest⟩

end Sys2Proof.Machine

/-! Check-assist and control-register instructions (R134, R171, R175, R189, R192, Table 5.12 class 11, Table 5.13 class 13). -/

namespace Sys2Proof.Machine

open Sys2Proof

/-! ### What T takes from the Drift queue (R134, R140) -/

/-- T consumes an entry of the queue and changes nothing else of its lane. -/
theorem driftTake_ok {ln ln' : Lane} {kind : DriftKind} {v : Word} (h : driftTake ln kind = .ok v ln') :
    ∃ q, ln' = { ln with drift := q } := by
  unfold driftTake at h
  split at h
  · cases h
  · split at h
    · cases h
    · split at h
      · cases h
      · cases h
        exact ⟨_, rfl⟩

theorem coreAt_driftTake {s : State} {c : CoreRef} {ln : Lane} {kind : DriftKind} {v : Word}
    (h : driftTake (laneOf s c.lane) kind = .ok v ln) : coreAt (putLane s c.lane ln) c = coreAt s c := by
  obtain ⟨q, rfl⟩ := driftTake_ok h
  rw [coreAt, laneOf_putLane, coreAt]
  cases c.core <;> rfl

theorem fromDrift_of_ok {s : State} {c : CoreRef} {ln : Lane} {kind : DriftKind} {v : Word} (cont : State → Word → Act)
    (h : driftTake (laneOf s c.lane) kind = .ok v ln) : fromDrift s c kind cont = cont (putLane s c.lane ln) v := by
  rw [fromDrift, h]

theorem checkedLane_of_follows {s : State} {c : CoreRef} (h : follows s c = true) :
    checkedLane s c.lane = true ∧ c.core = .trailing := by
  simpa [follows] using h

/-! ### Check-assist instructions -/

theorem checkPut_usable {s : State} {c : CoreRef} {k : Core} {f : Fields} {o size : Nat} {v : Word} {op : CheckCtx → CheckCtx}
    (hmod : f.mod.toNat < 16) (hu : ctxUsable s c f.mod.toNat = true) :
    checkPut s c k f o size v op = .done (if follows s c then s else putCtx s f.mod.toNat (op (ctxOf s f.mod.toNat)))
      { k := { k with pc := k.pc + 4 }, regs := [], store := some (0x5000050000 + f.mod.toNat * 0x40 + o, size, v)
        entry := none, yields := false } := by
  simp only [checkPut, Nat.mod_eq_of_lt hmod, hu, Bool.not_true, Bool.false_eq_true, if_false]

/-- A class-13 instruction that changes its context. -/
theorem ran_of_checkPut {s : State} {c : CoreRef} {body : State → Core → Act} {f : Fields} {o size : Nat} {v : Word}
    {op : CheckCtx → CheckCtx} {ok : Bool} {w : U32} (hr : Retires s c) (hm : MarkAgrees s c)
    (hbody : body s (coreAt s c) = legal ok s w (checkPut s c (coreAt s c) f o size v op)) (hok : ok = true)
    (hmod : f.mod.toNat < 16) (hu : ctxUsable s c f.mod.toNat = true) :
    ∃ t, runLane s c body = .next t ∧
      Ran (if follows s c then s else putCtx s f.mod.toNat (op (ctxOf s f.mod.toNat))) t c
        { coreAt s c with pc := (coreAt s c).pc + 4 } := by
  refine ran_of_ret hr ?_ ((hbody.trans (legal_of hok ..)).trans (checkPut_usable hmod hu)) ?_ ((KeepsWindow.refl _).withPc _)
  · split
    · exact hm
    · exact hm
  · split <;> rfl

theorem checkGet_here {s : State} {c : CoreRef} {k : Core} {f : Fields} {val : CheckCtx → Word}
    (hmod : f.mod.toNat < 16) (hu : ctxUsable s c f.mod.toNat = true) (hf : follows s c = false) :
    checkGet s c k f val = .done s
      { k := putG k f.rd (val (ctxOf s f.mod.toNat)), regs := gRecord f.rd (val (ctxOf s f.mod.toNat)), store := none
        entry := some (.check, val (ctxOf s f.mod.toNat)), yields := false } := by
  simp only [checkGet, Nat.mod_eq_of_lt hmod, hu, hf, Bool.not_true, Bool.false_eq_true, if_false]

theorem checkGet_drift {s : State} {c : CoreRef} {k : Core} {f : Fields} {val : CheckCtx → Word} {v : Word} {ln : Lane}
    (hmod : f.mod.toNat < 16) (hu : ctxUsable s c f.mod.toNat = true) (hf : follows s c = true)
    (hd : driftTake (laneOf s c.lane) .check = .ok v ln) :
    checkGet s c k f val = .done (putLane s c.lane ln)
      { k := putG k f.rd v, regs := gRecord f.rd v, store := none, entry := none, yields := false } := by
  simp only [checkGet, Nat.mod_eq_of_lt hmod, hu, hf, Bool.not_true, Bool.false_eq_true, if_false, if_true,
    fromDrift_of_ok _ hd]

/-- A class-13 instruction that reads its context: L's value, and T's from the Drift queue. -/
theorem ran_of_checkGet {s : State} {c : CoreRef} {body : State → Core → Act} {f : Fields} {val : CheckCtx → Word}
    (hr : Retires s c) (hbody : body s (coreAt s c) = checkGet s c (coreAt s c) f val)
    (hmod : f.mod.toNat < 16) (hu : ctxUsable s c f.mod.toNat = true) :
    (follows s c = false →
      ∃ t, runLane s c body = .next t ∧ Ran s t c (putG (coreAt s c) f.rd (val (ctxOf s f.mod.toNat)))) ∧
    (follows s c = true → ∀ v ln, driftTake (laneOf s c.lane) .check = .ok v ln → MarkAgrees (putLane s c.lane ln) c →
      ∃ t, runLane s c body = .next t ∧ Ran (putLane s c.lane ln) t c (putG (coreAt s c) f.rd v)) := by
  refine ⟨fun hf => ?_, fun hf v ln hd hm => ?_⟩
  · exact ran_of_ret hr (fun _ _ h => absurd h (by simp [hf])) (hbody.trans (checkGet_here hmod hu hf)) rfl (keepsWindow_putG ..)
  · exact ran_of_ret hr hm (hbody.trans (checkGet_drift hmod hu hf hd)) (coreAt_driftTake hd) (keepsWindow_putG ..)

theorem ctxMod_iff (f : Fields) : ctxMod f = true ↔ f.mod.toNat < 16 := decide_eq_true_iff

/-- Settles O11: the rows that change a context, and those that read one. -/
theorem checkAssistResult : Obligations.CheckAssistResult := by
  refine ⟨fun row hrow c f s hr hm hmod hf hu => ?_, fun row hrow c f s hr hmod hra hu => ?_⟩
  · simp only [List.mem_cons, List.not_mem_nil, or_false] at hrow
    rcases hrow with rfl | rfl | rfl | rfl | rfl | rfl
    all_goals
      unfold exec
      refine ran_of_checkPut hr hm rfl ?_ hmod hu
      simpa [ctxMod_iff, hmod] using hf
  · have hok : (ctxMod f && f.ra == 0) = true := by
      simp [ctxMod_iff, hmod, hra]
    simp only [List.mem_cons, List.not_mem_nil, or_false] at hrow
    rcases hrow with rfl | rfl
    all_goals
      unfold exec
      exact ran_of_checkGet hr (legal_of hok ..) hmod hu

/-! ### Control registers -/

theorem readCr_here {s : State} {c : CoreRef} {k : Core} {i : Nat} (cont : State → Word → Option (DriftKind × Word) → Act)
    (h : follows s c = false ∨ crPassed i = false) : ∃ e, readCr s c k i cont = cont s (crRead s c k i) e := by
  unfold readCr
  split
  · next hp =>
    obtain ⟨hpassed, hchecked⟩ := Bool.and_eq_true_iff.mp hp
    cases hc : c.core with
    | leading => exact ⟨_, rfl⟩
    | trailing => simp [follows, hchecked, hpassed, hc] at h
  · exact ⟨_, rfl⟩

theorem readCr_drift {s : State} {c : CoreRef} {k : Core} {i : Nat} {v : Word} {ln : Lane}
    (cont : State → Word → Option (DriftKind × Word) → Act) (hf : follows s c = true) (hp : crPassed i = true)
    (hd : driftTake (laneOf s c.lane) .device = .ok v ln) : readCr s c k i cont = cont (putLane s c.lane ln) v none := by
  obtain ⟨hchecked, hcore⟩ := checkedLane_of_follows hf
  simp only [readCr, hp, hchecked, hcore, Bool.and_self, if_true, fromDrift_of_ok _ hd]

/-- The end of an instruction that takes the value `v`: `leave` gives the core that it leaves and `regs` the registers written. -/
def valueDone (leave : Word → Core) (regs : Word → List (Nat × Word)) (s : State) (v : Word) (e : Option (DriftKind × Word)) : Act :=
  .done s { k := leave v, regs := regs v, store := none, entry := e, yields := false }

/-- An instruction that reads a control register: a core's own value, and T's from the Drift queue where L's is passed on. -/
theorem ran_of_readCr {s : State} {c : CoreRef} {body : State → Core → Act} {i : Nat} {leave : Word → Core}
    {regs : Word → List (Nat × Word)} (hr : Retires s c) (hk : ∀ v, KeepsWindow (coreAt s c) (leave v))
    (hbody : body s (coreAt s c) = readCr s c (coreAt s c) i (valueDone leave regs)) :
    ((follows s c = false ∨ crPassed i = false) → MarkAgrees s c →
      ∃ t, runLane s c body = .next t ∧ Ran s t c (leave (crRead s c (coreAt s c) i))) ∧
    (follows s c = true → crPassed i = true → ∀ v ln, driftTake (laneOf s c.lane) .device = .ok v ln →
      MarkAgrees (putLane s c.lane ln) c →
      ∃ t, runLane s c body = .next t ∧ Ran (putLane s c.lane ln) t c (leave v)) := by
  refine ⟨fun hf hm => ?_, fun hf hp v ln hd hm => ?_⟩
  · obtain ⟨e, he⟩ := readCr_here (valueDone leave regs) hf
    exact ran_of_ret hr hm (hbody.trans he) rfl (hk _)
  · exact ran_of_ret hr hm (hbody.trans (readCr_drift _ hf hp hd)) (coreAt_driftTake hd) (hk v)

theorem crIndex_of_lt {f : Fields} (h : f.mod.toNat < 64) : crIndex f = f.mod.toNat := Nat.mod_eq_of_lt h

/-- CRW, CRS and CRC of a register that is not TASK_SEL. -/
theorem crModify_plain {s : State} {c : CoreRef} {k : Core} {f : Fields} {w : U32} {new : Word → Word} {cr : CtrlRegs}
    (hmod : f.mod.toNat < 64) (hrb : f.rb = 0) (hill : crIllegal k f.mod.toNat true = false) (hi : f.mod.toNat ≠ 17)
    (hcr : crWrite k f.mod.toNat (new (crRead s c k f.mod.toNat)) = some cr) :
    crModify s c k f w new = readCr s c k f.mod.toNat (valueDone (fun v => { putG k f.rd v with cr := cr }) (gRecord f.rd)) := by
  have hok : (!f.mod.getLsbD 6 && f.rb == 0 && !crIllegal k f.mod.toNat true) = true := by
    simp only [(modHigh_iff f).mpr hmod, hrb, hill]
    rfl
  simp only [crModify, crIndex_of_lt hmod, legal_of hok, if_neg hi, hcr]
  rfl

/-- CRW, CRS and CRC of TASK_SEL. -/
theorem crModify_taskSel {s : State} {c : CoreRef} {k : Core} {f : Fields} {w : U32} {new : Word → Word}
    (hrb : f.rb = 0) (hill : crIllegal k f.mod.toNat true = false) (hi : f.mod.toNat = 17) :
    crModify s c k f w new = writeTaskSel s c k (new k.cr.taskSel) (fun s k' e => valueDone (putG k' f.rd) (gRecord f.rd) s k.cr.taskSel e) := by
  have hmod : f.mod.toNat < 64 := by omega
  have hok : (!f.mod.getLsbD 6 && f.rb == 0 && !crIllegal k f.mod.toNat true) = true := by
    simp only [(modHigh_iff f).mpr hmod, hrb, hill]
    rfl
  simp only [crModify, crIndex_of_lt hmod, legal_of hok, if_pos hi]
  rfl

/-- A load from the core's own data TCM. -/
theorem doLoad_dtcm {s : State} {c : CoreRef} {k : Core} {a : Word} {size o : Nat}
    (cont : State → Word → Option (DriftKind × Word) → Act) (hs : s.mem.upsets = [])
    (hreg : regionOf a.toNat = .dtcm o) (hacc : accessExc s c k false a size = none) :
    doLoad s c k a size cont = cont s (BitVec.ofNat 64 (memLe k.dtcm o size)) none := by
  simp only [doLoad, hacc, hreg, access_sound _ _ _ _ _ hs, deliver, memLoad]

/-- A write of TASK_SEL whose descriptor lies in the data TCM and is valid. -/
theorem writeTaskSel_dtcm {s : State} {c : CoreRef} {k : Core} {v : Word} {o : Nat}
    (cont : State → Core → Option (DriftKind × Word) → Act) (hs : s.mem.upsets = []) (hv : v.toNat < 256)
    (hreg : regionOf (descAddr k v.toNat).toNat = .dtcm o) (hacc : accessExc s c k false (descAddr k v.toNat) 8 = none)
    (hd : descOk v.toNat (BitVec.ofNat 64 (memLe k.dtcm o 8)) = true) :
    writeTaskSel s c k v cont = cont s (selectTask k v.toNat (BitVec.ofNat 64 (memLe k.dtcm o 8))) none := by
  have hreach : descReach s c k (descAddr k v.toNat) = true := by
    simp [descReach, hreg, hacc]
  simp only [writeTaskSel, if_neg (show ¬ 255 < v.toNat by omega), hreach, Bool.not_true, Bool.false_eq_true, if_false,
    doLoad_dtcm _ hs hreg hacc, hd, if_true]

theorem KeepsWindow.trans {a b d : Core} (h : KeepsWindow a b) (h' : KeepsWindow b d) : KeepsWindow a d :=
  ⟨h'.wcount.trans h.wcount, h'.wseq.trans h.wseq, h'.speedMin.trans h.speedMin, h'.committed.trans h.committed,
    h'.rejected.trans h.rejected⟩

/-- CRW, CRS and CRC, `new` giving the value written for the old one. -/
theorem ran_of_crModify {s : State} {c : CoreRef} {body : State → Core → Act} {f : Fields} {w : U32} {new : Word → Word}
    (hr : Retires s c) (hmod : f.mod.toNat < 64) (hrb : f.rb = 0) (hill : crIllegal (coreAt s c) f.mod.toNat true = false)
    (hbody : body s (coreAt s c) = crModify s c (coreAt s c) f w new) :
    let k := coreAt s c
    let i := f.mod.toNat
    let old := crRead s c k i
    (i ≠ 17 → ∀ cr, crWrite k i (new old) = some cr →
      ((follows s c = false ∨ crPassed i = false) → MarkAgrees s c →
        ∃ t, runLane s c body = .next t ∧ Ran s t c { putG k f.rd old with cr := cr }) ∧
      (follows s c = true → crPassed i = true → ∀ v ln, driftTake (laneOf s c.lane) .device = .ok v ln →
        MarkAgrees (putLane s c.lane ln) c →
        ∃ t, runLane s c body = .next t ∧ Ran (putLane s c.lane ln) t c { putG k f.rd v with cr := cr })) ∧
    (i = 17 → (new old).toNat < 256 → ∀ o, regionOf (descAddr k (new old).toNat).toNat = .dtcm o →
      accessExc s c k false (descAddr k (new old).toNat) 8 = none → MarkAgrees s c →
      descOk (new old).toNat (BitVec.ofNat 64 (memLe k.dtcm o 8)) = true →
      ∃ t, runLane s c body = .next t ∧
        Ran s t c (putG (selectTask k (new old).toNat (BitVec.ofNat 64 (memLe k.dtcm o 8))) f.rd old)) := by
  intro k i old
  refine ⟨fun hi cr hcr => ?_, fun hi hv o hreg hacc hm hd => ?_⟩
  · exact ran_of_readCr hr (fun v => (keepsWindow_putG ..).withCr _) (hbody.trans (crModify_plain hmod hrb hill hi hcr))
  · have hold : old = k.cr.taskSel := by
      simp only [old, hi]
      rfl
    rw [hold] at hv hreg hacc hd ⊢
    have hk : KeepsWindow k (selectTask k (new k.cr.taskSel).toNat (BitVec.ofNat 64 (memLe k.dtcm o 8))) :=
      ⟨rfl, rfl, rfl, rfl, rfl⟩
    exact ran_of_ret hr hm ((hbody.trans (crModify_taskSel hrb hill hi)).trans
      (writeTaskSel_dtcm _ hr.sound hv hreg hacc hd)) rfl (hk.trans (keepsWindow_putG ..))

theorem crr_allowed {k : Core} {i : Nat} (h : isSup k = true ∨ (i ≠ 18 ∧ i ≠ 19)) :
    ¬ (!isSup k && (i == 18 || i == 19)) = true := by
  rcases h with h | ⟨h1, h2⟩
  · simp [h]
  · simp [h1, h2]

/-- Settles O12: CRR, then the three that write. -/
theorem controlRegisterResult : Obligations.ControlRegisterResult := by
  refine ⟨fun c f s hr hmod hra hrb hill hsup => ?_, fun row hrow c f s hr hmod hrb hill => ?_⟩
  · have hok : (!f.mod.getLsbD 6 && f.ra == 0 && f.rb == 0 && !crIllegal (coreAt s c) f.mod.toNat false) = true := by
      simp only [(modHigh_iff f).mpr hmod, hra, hrb, hill]
      rfl
    unfold exec execCrr
    refine ran_of_readCr (regs := gRecord f.rd) hr (fun v => keepsWindow_putG ..) ?_
    simp only [crIndex_of_lt hmod, legal_of hok, if_neg (crr_allowed hsup)]
    rfl
  · simp only [List.mem_cons, List.not_mem_nil, or_false] at hrow
    rcases hrow with rfl | rfl | rfl
    all_goals unfold exec
    · exact ran_of_crModify (new := fun _ => gget (coreAt s c) f.ra) hr hmod hrb hill rfl
    · exact ran_of_crModify (new := fun old => old ||| gget (coreAt s c) f.ra) hr hmod hrb hill rfl
    · exact ran_of_crModify (new := fun old => old &&& ~~~(gget (coreAt s c) f.ra)) hr hmod hrb hill rfl

end Sys2Proof.Machine

/-! Loads and stores (R136, R182, R187, R199, Table 5.10 classes 4 and 5). -/

namespace Sys2Proof.Machine

open Sys2Proof

/-! ### What an access changes of the lane that performs it -/

/-- From `s` to `s'` the core `c` keeps all but what retirement takes from the lane anyway, and the lane keeps its mode. -/
structure Undisturbed (s s' : State) (c : CoreRef) : Prop where
  core : coreAt s' c = notedCore (coreAt s c) (coreAt s' c)
  split : isSplit (laneOf s' c.lane) = isSplit (laneOf s c.lane)

theorem Undisturbed.of_laneOf {s s' : State} {c : CoreRef} (h : laneOf s' c.lane = laneOf s c.lane) : Undisturbed s s' c := by
  have hcore : coreAt s' c = coreAt s c := by rw [coreAt, h, coreAt]
  exact ⟨by rw [hcore]; rfl, by rw [h]⟩

theorem Undisturbed.of_lanes {s s' : State} {c : CoreRef} (h : s'.lanes = s.lanes) : Undisturbed s s' c :=
  .of_laneOf (laneOf_of_lanes (by rw [h]) _)

theorem Undisturbed.ite {s s' s'' : State} {c : CoreRef} {p : Prop} [Decidable p] (h : Undisturbed s s' c)
    (h' : Undisturbed s s'' c) : Undisturbed s (if p then s' else s'') c := by
  split
  · exact h
  · exact h'

theorem Undisturbed.putLane {s : State} {l : LaneId} {ln : Lane} (c : CoreRef)
    (hcore : ∀ sel, coreOf ln sel = notedCore (coreOf (laneOf s l) sel) (coreOf ln sel))
    (hmode : ln.mode = (laneOf s l).mode) : Undisturbed s (putLane s l ln) c := by
  by_cases hl : c.lane = l
  · subst hl
    refine ⟨?_, ?_⟩
    · rw [coreAt, laneOf_putLane]
      exact hcore c.core
    · rw [laneOf_putLane, isSplit, hmode, isSplit]
  · exact .of_laneOf (laneOf_putLane_ne _ _ _ _ hl)

theorem Undisturbed.follows {s s' : State} {c : CoreRef} (h : Undisturbed s s' c) : follows s' c = Machine.follows s c := by
  rw [Machine.follows, checkedLane, h.split, Machine.follows, checkedLane]

/-- No MARK is due for a core that takes nothing from the Drift queue. -/
theorem markAgrees_of_alone {s : State} {c : CoreRef} (h : follows s c = false) : MarkAgrees s c :=
  fun _ _ hf => absurd hf (by simp [h])

/-- An instruction of L, or of a core on its own, whose access leaves the state `s'`. -/
theorem ran_of_access {s s' : State} {c : CoreRef} {body : State → Core → Act} {k : Core} {regs : List (Nat × Word)}
    {store : Option (Nat × Nat × Word)} {entry : Option (DriftKind × Word)} (hr : Retires s c) (hf : follows s c = false)
    (hu : Undisturbed s s' c)
    (hbody : body s (coreAt s c) = .done s' { k := k, regs := regs, store := store, entry := entry, yields := false })
    (hk : KeepsWindow (coreAt s c) k) : ∃ t, runLane s c body = .next t ∧ Ran s' t c (notedCore k (coreAt s' c)) := by
  have hcore := hu.core
  have hm : MarkAgrees s' c := markAgrees_of_alone (hu.follows.trans hf)
  have hretire : ∀ r : Ret, retire s' c (coreAt s c) r =
      retire s' c (coreAt s c) { r with k := notedCore r.k (coreAt s' c) } := fun _ => rfl
  refine ⟨_, runLane_done s s' c body _ hr hbody, ?_⟩
  rw [hretire]
  exact retire_ran s' c _ _ rfl (by rw [hcore]; rfl) rfl rfl rfl (by rw [hcore]; exact hk.wcount) (by rw [hcore]; exact hk.wseq) hm

theorem notedCore_eq {k0 k : Core} (h : KeepsWindow k0 k) : notedCore k k0 = k := by
  rw [notedCore, ← h.speedMin, ← h.committed, ← h.rejected]

/-- The same where the access leaves the core as it was. -/
theorem ran_of_quiet_access {s s' : State} {c : CoreRef} {body : State → Core → Act} {k : Core} {regs : List (Nat × Word)}
    {store : Option (Nat × Nat × Word)} {entry : Option (DriftKind × Word)} (hr : Retires s c) (hf : follows s c = false)
    (hu : Undisturbed s s' c) (hcore : coreAt s' c = coreAt s c)
    (hbody : body s (coreAt s c) = .done s' { k := k, regs := regs, store := store, entry := entry, yields := false })
    (hk : KeepsWindow (coreAt s c) k) : ∃ t, runLane s c body = .next t ∧ Ran s' t c k := by
  have h := ran_of_access hr hf hu hbody hk
  rwa [hcore, notedCore_eq hk] at h

/-! ### Loads -/

theorem undisturbed_laneLatch (s : State) (o : Nat) (c : CoreRef) : Undisturbed s (laneLatch s o) c := by
  unfold laneLatch
  split
  · refine .ite (.putLane c ?_ rfl) (.ite (.putLane c ?_ rfl) (.of_lanes rfl))
    all_goals
      intro sel
      cases sel <;> rfl
  · exact .of_lanes rfl

theorem undisturbed_firnLatch (s : State) (o : Nat) (c : CoreRef) : Undisturbed s (firnLatch s o) c := by
  unfold firnLatch
  split
  · dsimp only
    split
    · exact .putLane c (fun sel => by cases sel <;> rfl) rfl
    · exact .putLane c (fun sel => by cases sel <;> rfl) rfl
    · exact .putLane c (fun sel => by cases sel <;> rfl) rfl
    · exact .of_lanes rfl
  · exact .of_lanes rfl

theorem checkLatch_lanes (s : State) (o : Nat) : (checkLatch s o).lanes = s.lanes := by
  unfold checkLatch
  split
  · dsimp only
    split <;> rfl
  · rfl

theorem undisturbed_blockLatch (s : State) (b o : Nat) (c : CoreRef) : Undisturbed s (blockLatch s b o) c := by
  unfold blockLatch
  split
  · exact undisturbed_laneLatch s o c
  · exact undisturbed_firnLatch s o c
  · exact .ite (.of_lanes rfl) (.of_lanes rfl)
  · unfold timeLatch
    split <;> exact .of_lanes rfl
  · exact .of_lanes (checkLatch_lanes s o)
  · exact .ite (.of_lanes rfl) (.ite (.of_lanes rfl) (.of_lanes rfl))
  · unfold safeLatch
    split <;> exact .of_lanes rfl
  · exact .ite (.of_lanes rfl) (.of_lanes rfl)
  · exact .ite (.of_lanes rfl) (.ite (.of_lanes rfl) (.of_lanes rfl))
  · exact .of_lanes rfl

/-- The tightly coupled memories, which either core reads for itself (Table 4.2). -/
def ownTcm (r : Region) : Bool := match r with
  | .itcm _ => true
  | .dtcm _ => true
  | _ => false

theorem noteStale_own {r : Region} (h : ownTcm r = true) (s : State) (c : CoreRef) : noteStale s c r = s := by
  cases r with
  | itcm o => rfl
  | dtcm o => rfl
  | _ => cases h

/-- A load from a published block may mark the lane, whose cores it leaves. -/
theorem noteStale_undisturbed (s : State) (c : CoreRef) (r : Region) :
    Undisturbed s (noteStale s c r) c ∧ coreAt (noteStale s c r) c = coreAt s c := by
  unfold noteStale
  split
  · split
    · split
      · refine ⟨.putLane c (fun sel => by cases sel <;> rfl) rfl, ?_⟩
        rw [coreAt, laneOf_putLane, coreAt]
        cases c.core <;> rfl
      · exact ⟨.of_lanes rfl, rfl⟩
    · exact ⟨.of_lanes rfl, rfl⟩
  · exact ⟨.of_lanes rfl, rfl⟩

section

variable {s : State} {c : CoreRef} {k : Core} {a : Word} {size : Nat} {cont : State → Word → Option (DriftKind × Word) → Act}
  (hs : s.mem.upsets = []) (hacc : accessExc s c k false a size = none)

include hs hacc

theorem doLoad_own (hown : ownTcm (regionOf a.toNat) = true) :
    doLoad s c k a size cont = cont s (BitVec.ofNat 64 (memLoad s c k (regionOf a.toNat) size)) none := by
  simp only [doLoad, hacc]
  cases hreg : regionOf a.toNat with
  | itcm o => simp only [access_sound _ _ _ _ _ hs, deliver]
  | dtcm o => simp only [access_sound _ _ _ _ _ hs, deliver]
  | _ => simp [hreg, ownTcm] at hown

omit hs in
theorem doLoad_drift {v : Word} {ln : Lane} (hf : follows s c = true) (hown : ownTcm (regionOf a.toNat) = false)
    (hd : driftTake (laneOf s c.lane) (entryKind (regionOf a.toNat)) = .ok v ln) :
    doLoad s c k a size cont = cont (putLane s c.lane ln) v none := by
  simp only [doLoad, hacc]
  cases hreg : regionOf a.toNat with
  | itcm o => simp [hreg, ownTcm] at hown
  | dtcm o => simp [hreg, ownTcm] at hown
  | _ =>
    rw [hreg] at hd
    simp only [hf, if_true, fromDrift_of_ok _ hd]

theorem doLoad_memory (hf : follows s c = false) (hdev : deviceRegion (regionOf a.toNat) = false) :
    ∃ e, doLoad s c k a size cont =
      cont (noteStale s c (regionOf a.toNat)) (BitVec.ofNat 64 (memLoad s c k (regionOf a.toNat) size)) e := by
  by_cases hown : ownTcm (regionOf a.toNat) = true
  · exact ⟨none, by rw [noteStale_own hown, doLoad_own hs hacc hown]⟩
  · simp only [doLoad, hacc]
    cases hreg : regionOf a.toNat with
    | itcm o => simp [hreg, ownTcm] at hown
    | dtcm o => simp [hreg, ownTcm] at hown
    | block b o => simp [hreg, deviceRegion] at hdev
    | rack o => simp [hreg, deviceRegion] at hdev
    | _ =>
      simp only [hf, Bool.false_eq_true, if_false, loadValue, hreg, access_sound _ _ _ _ _ hs, deliver]
      exact ⟨_, rfl⟩

omit hs in
theorem doLoad_block {b o : Nat} (hf : follows s c = false) (hgate : checkedLane s c.lane = true → (laneOf s c.lane).gate = [])
    (hreg : regionOf a.toNat = .block b o) :
    ∃ e, doLoad s c k a size cont = cont (blockLoad s c.lane b o size).2 (BitVec.ofNat 64 (blockLoad s c.lane b o size).1) e := by
  have hfull : (checkedLane s c.lane && !(laneOf s c.lane).gate.isEmpty) = false := by
    cases hc : checkedLane s c.lane <;> simp [hc, hgate]
  simp only [doLoad, hacc, hreg, hf, Bool.false_eq_true, if_false, loadValue, hfull]
  exact ⟨_, rfl⟩

omit hs in
theorem doLoad_rack {ra : Nat} {v : U32} (hf : follows s c = false)
    (hgate : checkedLane s c.lane = true → (laneOf s c.lane).gate = []) (hreg : regionOf a.toNat = .rack ra)
    (htaken : rackTaken s (requester c) = some v) :
    ∃ e, doLoad s c k a size cont = cont { s with rack := { s.rack with reads := s.rack.reads.filter (·.1 != requester c) } }
      (BitVec.ofNat 64 (v.toNat / 2 ^ (8 * (ra % 4)) % 2 ^ (8 * size))) e := by
  have hfull : (checkedLane s c.lane && !(laneOf s c.lane).gate.isEmpty) = false := by
    cases hc : checkedLane s c.lane <;> simp [hc, hgate]
  simp only [doLoad, hacc, hreg, hf, Bool.false_eq_true, if_false, loadValue, hfull, rackLoad, htaken]
  exact ⟨_, rfl⟩

end

/-- How a load leaves a core with its value: it keeps the window, and what other blocks note stays as they noted it. -/
structure LoadPut (put : Core → Word → Core) : Prop where
  keeps : ∀ k v, KeepsWindow k (put k v)
  noted : ∀ k now v, put (notedCore k now) v = notedCore (put k v) now

theorem loadPut_putG (rd : BitVec 5) (ext : Word → Word) : LoadPut fun k v => putG k rd (ext v) := by
  refine ⟨fun _ _ => keepsWindow_putG .., fun _ _ _ => ?_⟩
  simp only [putG, gset_eq, notedCore]

theorem loadPut_putF (rd : BitVec 5) (ext : Word → Word) : LoadPut fun k v => putF k rd (ext v) :=
  ⟨fun _ _ => keepsWindow_putF .., fun _ _ _ => rfl⟩

/-- A load, `put` telling how the core takes its value. -/
theorem ran_of_doLoad {s : State} {c : CoreRef} {body : State → Core → Act} {a : Word} {size : Nat} {put : Core → Word → Core}
    {regs : Word → List (Nat × Word)} (hp : LoadPut put) (hr : Retires s c)
    (hbody : body s (coreAt s c) = doLoad s c (coreAt s c) a size (valueDone (put (coreAt s c)) regs))
    (hacc : accessExc s c (coreAt s c) false a size = none) :
    let r := regionOf a.toNat
    (deviceRegion r = false → (follows s c = false ∨ ownTcm r = true) → MarkAgrees s c →
      ∃ t, runLane s c body = .next t ∧
        Ran (noteStale s c r) t c (put (coreAt s c) (BitVec.ofNat 64 (memLoad s c (coreAt s c) r size)))) ∧
    (follows s c = true → ownTcm r = false → ∀ v ln, driftTake (laneOf s c.lane) (entryKind r) = .ok v ln →
      MarkAgrees (putLane s c.lane ln) c →
      ∃ t, runLane s c body = .next t ∧ Ran (putLane s c.lane ln) t c (put (coreAt s c) v)) ∧
    (follows s c = false → (checkedLane s c.lane = true → (laneOf s c.lane).gate = []) →
      (∀ b o, r = .block b o →
        let got := blockLoad s c.lane b o size
        ∃ t, runLane s c body = .next t ∧ Ran got.2 t c (put (coreAt got.2 c) (BitVec.ofNat 64 got.1))) ∧
      (∀ ra v, r = .rack ra → rackTaken s (requester c) = some v →
        ∃ t, runLane s c body = .next t ∧
          Ran { s with rack := { s.rack with reads := s.rack.reads.filter (·.1 != requester c) } } t c
            (put (coreAt s c) (BitVec.ofNat 64 (v.toNat / 2 ^ (8 * (ra % 4)) % 2 ^ (8 * size)))))) := by
  intro r
  refine ⟨fun hdev hwho hm => ?_, fun hf hown v ln hd hm => ?_, fun hf hgate => ⟨fun b o hreg => ?_, fun ra v hreg htaken => ?_⟩⟩
  · by_cases hown : ownTcm r = true
    · rw [noteStale_own hown]
      exact ran_of_ret hr hm (hbody.trans (doLoad_own hr.sound hacc hown)) rfl (hp.keeps ..)
    · have hf : follows s c = false := hwho.resolve_right hown
      obtain ⟨e, he⟩ := doLoad_memory (cont := valueDone (put (coreAt s c)) regs) hr.sound hacc hf hdev
      obtain ⟨hu, hcore⟩ := noteStale_undisturbed s c r
      exact ran_of_quiet_access hr hf hu hcore (hbody.trans he) (hp.keeps ..)
  · exact ran_of_ret hr hm (hbody.trans (doLoad_drift hacc hf hown hd)) (coreAt_driftTake hd) (hp.keeps ..)
  · obtain ⟨e, he⟩ := doLoad_block (cont := valueDone (put (coreAt s c)) regs) hacc hf hgate hreg
    have hu : Undisturbed s (blockLoad s c.lane b o size).2 c := undisturbed_blockLatch ..
    intro got
    rw [hu.core, hp.noted]
    exact ran_of_access hr hf hu (hbody.trans he) (hp.keeps ..)
  · obtain ⟨e, he⟩ := doLoad_rack (cont := valueDone (put (coreAt s c)) regs) hacc hf hgate hreg htaken
    exact ran_of_quiet_access hr hf (.of_lanes rfl) rfl (hbody.trans he) (hp.keeps ..)

/-- Settles O5. -/
theorem loadResult : Obligations.LoadResult := by
  intro row hrow c f s hr size a r put own hacc
  simp only [List.mem_cons, List.not_mem_nil, or_false] at hrow
  rcases hrow with rfl | rfl | rfl | rfl | rfl | rfl | rfl | rfl | rfl
  all_goals unfold exec
  iterate 7 exact ran_of_doLoad (loadPut_putG f.rd _) hr rfl hacc
  iterate 2 exact ran_of_doLoad (loadPut_putF f.rd _) hr rfl hacc

/-! ### Stores -/

theorem storeInto_sound {s : State} {c : CoreRef} {r : Region} {size : Nat} (cont : State → Act) (hs : s.mem.upsets = []) :
    storeInto s c r size cont = cont s := by
  unfold storeInto
  dsimp only
  split
  · rw [touch_sound _ _ _ _ hs, ite_self, storeMeets_sound _ _ _ _ hs]
    rfl
  · rw [storeMeets_sound _ _ _ _ hs]
    rfl

section

variable {s : State} {c : CoreRef} {k : Core} {a v : Word} {size : Nat} {cont : State → Core → Act}
  (hs : s.mem.upsets = []) (hacc : accessExc s c k true a size = none)

include hacc

include hs in
theorem doStore_dtcm {o : Nat} (hreg : regionOf a.toNat = .dtcm o) :
    doStore s c k a size v cont = cont s { k with dtcm := memPutLe k.dtcm o size v.toNat } := by
  simp only [doStore, hacc, hreg, storeInto_sound _ hs]

/-- T stores to nothing outside its own TCM (R136). -/
theorem doStore_follows (hf : follows s c = true) (hown : ∀ o, regionOf a.toNat ≠ .dtcm o) :
    doStore s c k a size v cont = cont s k := by
  simp only [doStore, hacc]
  split
  · next o hreg => exact absurd hreg (hown o)
  · rw [if_pos hf]
  · exact if_pos hf

theorem doStore_check {o : Nat} (hf : follows s c = false) (hreg : regionOf a.toNat = .block 5 o) :
    doStore s c k a size v cont = cont (checkStore s o size v) k := by
  simp only [doStore, hacc, hreg, hf, Bool.false_eq_true, if_false]

include hs in
theorem doStore_memory (hf : follows s c = false) (hown : ∀ o, regionOf a.toNat ≠ .dtcm o)
    (hdev : deviceRegion (regionOf a.toNat) = false) :
    doStore s c k a size v cont = cont (memStore s (regionOf a.toNat) size v) k := by
  simp only [doStore, hacc]
  split
  · next o hreg => exact absurd hreg (hown o)
  · next o hreg => simp [hreg, deviceRegion] at hdev
  · simp only [hf, hdev, Bool.false_eq_true, if_false, storeInto_sound _ hs]

theorem doStore_device (hf : follows s c = false) (hcheck : ∀ o, regionOf a.toNat ≠ .block 5 o)
    (hdev : deviceRegion (regionOf a.toNat) = true) :
    doStore s c k a size v cont = storeDevice s c k a.toNat size v (fun s => cont s k) := by
  simp only [doStore, hacc]
  split
  · next o hreg => simp [hreg, deviceRegion] at hdev
  · next o hreg => exact absurd hreg (hcheck o)
  · simp only [hf, hdev, Bool.false_eq_true, if_false, if_true]

end

theorem storeDevice_gate {s : State} {c : CoreRef} {k : Core} {a size : Nat} {v : Word} (cont : State → Act)
    (hc : checkedLane s c.lane = true) (hroom : (laneOf s c.lane).gate.length < 64) :
    storeDevice s c k a size v cont =
      cont (putLane s c.lane { laneOf s c.lane with gate := (laneOf s c.lane).gate ++ [⟨a, size, v, k.wseq⟩] }) := by
  simp only [storeDevice, hc, if_true, if_neg (show ¬ (laneOf s c.lane).gate.length ≥ 64 by omega)]

theorem storeDevice_perform {s s' : State} {c : CoreRef} {k : Core} {a size : Nat} {v : Word} (cont : State → Act)
    (hc : checkedLane s c.lane = false) (hp : performStore s c a size v = some s') :
    storeDevice s c k a size v cont = cont s' := by
  simp only [storeDevice, hc, Bool.false_eq_true, if_false, hp]

theorem memStore_lanes (s : State) (r : Region) (size : Nat) (v : Word) : (memStore s r size v).lanes = s.lanes := by
  cases r <;> rfl

theorem checkStore_lanes (s : State) (o size : Nat) (v : Word) : (checkStore s o size v).lanes = s.lanes := by
  unfold checkStore
  dsimp only
  split
  case h_5 =>
    unfold chkCompare
    dsimp only
    split <;> rfl
  case h_7 => split <;> rfl
  all_goals rfl

theorem mboxRing_lanes (s : State) (i : Nat) : (mboxRing s i).lanes = s.lanes := by
  unfold mboxRing
  split
  · dsimp only
    split <;> rfl
  · rfl

theorem mboxDoorbell_lanes (s : State) (i : Nat) (data : U32) : (mboxDoorbell s i data).lanes = s.lanes := by
  unfold mboxDoorbell
  dsimp only
  split
  · rfl
  · split
    · exact mboxRing_lanes s i
    · rfl

theorem mboxStore_lanes (s : State) (l : LaneId) (o size : Nat) (v : Word) : (mboxStore s l o size v).lanes = s.lanes := by
  unfold mboxStore
  dsimp only
  split
  · split <;> rfl
  · split
    · exact mboxDoorbell_lanes ..
    · rfl

theorem ringTail_lanes (s : State) (r : Nat) (data : U32) : (ringTail s r data).lanes = s.lanes := by
  unfold ringTail
  split <;> rfl

theorem RackOnly.lanes {s t : State} (h : RackOnly s t) : t.lanes = s.lanes := by
  rw [h]

theorem rackLockWrite_lanes (s : State) (a : Nat) (data : U32) : (rackLockWrite s a data).lanes = s.lanes := by
  unfold rackLockWrite
  dsimp only
  split
  · split
    · rfl
    · split <;> rfl
  · split
    · split
      · rfl
      · exact (rackOnly_rackFree s).lanes
    · split <;> rfl

theorem rackPost_lanes {s s' : State} {source : Nat} {address data : U32} {byteEn : BitVec 4}
    (h : rackPost s source address byteEn data = some s') : s'.lanes = s.lanes := by
  unfold rackPost at h
  split at h
  · cases h
    rfl
  · split at h
    · cases h
      exact (rackOnly_rackPump _).lanes
    · cases h

theorem modeRequest_undisturbed (s : State) (c : CoreRef) (data : U32) :
    Undisturbed s (modeRequest s c.lane data) c ∧ coreAt (modeRequest s c.lane data) c = coreAt s c := by
  unfold modeRequest
  dsimp only
  split
  · exact ⟨.of_lanes rfl, rfl⟩
  · refine ⟨.putLane c (fun sel => by cases sel <;> rfl) rfl, ?_⟩
    rw [coreAt, laneOf_putLane, coreAt]
    cases c.core <;> rfl

theorem coreAt_of_lanes {s s' : State} (c : CoreRef) (h : s'.lanes = s.lanes) : coreAt s' c = coreAt s c := by
  rw [coreAt, laneOf_of_lanes (t := s') (s := s) (by rw [h]), coreAt]

/-- A store that is performed leaves the cores of its lane and the lane's mode. -/
theorem performStore_undisturbed {s s' : State} {c : CoreRef} {a size : Nat} {v : Word} (h : performStore s c a size v = some s') :
    Undisturbed s s' c ∧ coreAt s' c = coreAt s c := by
  have hlanes : s'.lanes = s.lanes → Undisturbed s s' c ∧ coreAt s' c = coreAt s c :=
    fun h => ⟨.of_lanes h, coreAt_of_lanes c h⟩
  unfold performStore at h
  split at h
  · split at h
    · cases h
      exact hlanes rfl
    · cases h
      exact modeRequest_undisturbed ..
  · cases h
    exact hlanes (mboxStore_lanes ..)
  · cases h
    exact hlanes (ringTail_lanes ..)
  · cases h
    exact hlanes (rackLockWrite_lanes ..)
  · exact hlanes (rackPost_lanes h)
  · cases h
    exact hlanes rfl

/-- The core of a store that moves on with the flags `fl` of its narrowing. -/
def storedCore (k : Core) (fl : BitVec 5) : Core := { k with pc := k.pc + 4, cr := orFflags k.cr fl }

/-- The end of a store of `size` bytes of `v` at `a`. -/
def storeDone (a size : Nat) (v : Word) (fl : BitVec 5) (s : State) (k : Core) : Act :=
  .done s { k := storedCore k fl, regs := [], store := some (a, size, v), entry := none, yields := false }

/-- A store of `v`. -/
theorem ran_of_doStore {s : State} {c : CoreRef} {body : State → Core → Act} {a v : Word} {size : Nat} {fl : BitVec 5}
    (hr : Retires s c) (hbody : body s (coreAt s c) = doStore s c (coreAt s c) a size v (storeDone a.toNat size v fl))
    (hacc : accessExc s c (coreAt s c) true a size = none) :
    let k := coreAt s c
    let r := regionOf a.toNat
    let ln := laneOf s c.lane
    (∀ o, r = .dtcm o → MarkAgrees s c → ∃ t, runLane s c body = .next t ∧
      Ran s t c { storedCore k fl with dtcm := memPutLe k.dtcm o size v.toNat }) ∧
    ((∀ o, r ≠ .dtcm o) → follows s c = true → MarkAgrees s c →
      ∃ t, runLane s c body = .next t ∧ Ran s t c (storedCore k fl)) ∧
    (follows s c = false →
      ((∀ o, r ≠ .dtcm o) → deviceRegion r = false →
        ∃ t, runLane s c body = .next t ∧ Ran (memStore s r size v) t c (storedCore k fl)) ∧
      (∀ o, r = .block 5 o → ∃ t, runLane s c body = .next t ∧ Ran (checkStore s o size v) t c (storedCore k fl)) ∧
      (deviceRegion r = true → (∀ o, r ≠ .block 5 o) →
        (checkedLane s c.lane = true → ln.gate.length < 64 →
          ∃ t, runLane s c body = .next t ∧
            Ran (putLane s c.lane { ln with gate := ln.gate ++ [⟨a.toNat, size, v, k.wseq⟩] }) t c (storedCore k fl)) ∧
        (checkedLane s c.lane = false → ∀ s', performStore s c a.toNat size v = some s' →
          ∃ t, runLane s c body = .next t ∧ Ran s' t c (storedCore k fl)))) := by
  intro k r ln
  have hk : KeepsWindow k (storedCore k fl) := ⟨rfl, rfl, rfl, rfl, rfl⟩
  refine ⟨fun o hreg hm => ?_, fun hown hf hm => ?_, fun hf => ⟨fun hown hdev => ?_, fun o hreg => ?_, fun hdev hcheck => ?_⟩⟩
  · exact ran_of_ret hr hm (hbody.trans (doStore_dtcm hr.sound hacc hreg)) rfl ⟨rfl, rfl, rfl, rfl, rfl⟩
  · exact ran_of_ret hr hm (hbody.trans (doStore_follows hacc hf hown)) rfl hk
  · have hl := memStore_lanes s r size v
    exact ran_of_quiet_access hr hf (.of_lanes hl) (coreAt_of_lanes c hl)
      (hbody.trans (doStore_memory hr.sound hacc hf hown hdev)) hk
  · have hl := checkStore_lanes s o size v
    exact ran_of_quiet_access hr hf (.of_lanes hl) (coreAt_of_lanes c hl) (hbody.trans (doStore_check hacc hf hreg)) hk
  · have hdo := hbody.trans (doStore_device hacc hf hcheck hdev)
    refine ⟨fun hc hroom => ?_, fun hc s' hp => ?_⟩
    · refine ran_of_quiet_access hr hf (.putLane c (fun sel => by cases sel <;> rfl) rfl) ?_
        (hdo.trans (storeDevice_gate _ hc hroom)) hk
      rw [coreAt, laneOf_putLane, coreAt]
      cases c.core <;> rfl
    · obtain ⟨hu, hcore⟩ := performStore_undisturbed hp
      exact ran_of_quiet_access hr hf hu hcore (hdo.trans (storeDevice_perform _ hc hp)) hk

/-- Settles O6. -/
theorem storeResult : Obligations.StoreResult := by
  intro row hrow c f s hr size k v a r k' ln hacc
  simp only [List.mem_cons, List.not_mem_nil, or_false] at hrow
  rcases hrow with rfl | rfl | rfl | rfl | rfl | rfl
  all_goals
    unfold exec
    exact ran_of_doStore hr rfl hacc

end Sys2Proof.Machine

/-! Atomics and the fence (R188, R203, Table 5.12 class 10). -/

namespace Sys2Proof.Machine

open Sys2Proof

/-- The memory after an atomic of `size` bytes at `a` of DRAM that stores `new`, or nothing (R188). -/
def atomicStored (s : State) (a size : Nat) (new : Option Word) : State := match new with
  | some v => { s with mem := { s.mem with dram := memPutLe s.mem.dram a size v.toNat } }
  | none => s

theorem atomicStored_lanes (s : State) (a size : Nat) (new : Option Word) : (atomicStored s a size new).lanes = s.lanes := by
  cases new <;> rfl

section

variable {s : State} {c : CoreRef} {k : Core} {a : Word} {size : Nat} {op : Word → Option Word}
  {cont : State → Word → Option Word → Option (DriftKind × Word) → Act} (hacc : atomicExc s c k a size = none)

include hacc

theorem doAtomic_here (hs : s.mem.upsets = []) (hf : follows s c = false) :
    doAtomic s c k a size op cont =
      let old : Word := BitVec.ofNat 64 (memLe s.mem.dram a.toNat size)
      cont (atomicStored s a.toNat size (op old)) old (op old) (some (.atomic, old)) := by
  simp only [doAtomic, hacc, hf, Bool.false_eq_true, if_false, access_sound _ _ _ _ _ hs, deliver]
  cases op (BitVec.ofNat 64 (memLe s.mem.dram a.toNat size)) <;> rfl

theorem doAtomic_drift {old : Word} {ln : Lane} (hf : follows s c = true)
    (hd : driftTake (laneOf s c.lane) .atomic = .ok old ln) :
    doAtomic s c k a size op cont = cont (putLane s c.lane ln) old (op old) none := by
  simp only [doAtomic, hacc, hf, if_true, fromDrift_of_ok _ hd]

end

/-- An atomic of `size` bytes, `ext` extending its old value. -/
theorem ran_of_doAtomic {s : State} {c : CoreRef} {body : State → Core → Act} {a : Word} {size : Nat} {op : Word → Option Word}
    {rd : BitVec 5} {ext : Word → Word} (hr : Retires s c)
    (hbody : body s (coreAt s c) = doAtomic s c (coreAt s c) a size op (fun s' old new e =>
      .done s' { k := putG (coreAt s c) rd (ext old), regs := gRecord rd (ext old), store := new.map (fun v => (a.toNat, size, v))
                 entry := e, yields := false }))
    (hacc : atomicExc s c (coreAt s c) a size = none) :
    (follows s c = false →
      let old : Word := BitVec.ofNat 64 (memLe s.mem.dram a.toNat size)
      ∃ t, runLane s c body = .next t ∧ Ran (atomicStored s a.toNat size (op old)) t c (putG (coreAt s c) rd (ext old))) ∧
    (follows s c = true → ∀ old ln, driftTake (laneOf s c.lane) .atomic = .ok old ln → MarkAgrees (putLane s c.lane ln) c →
      ∃ t, runLane s c body = .next t ∧ Ran (putLane s c.lane ln) t c (putG (coreAt s c) rd (ext old))) := by
  refine ⟨fun hf => ?_, fun hf old ln hd hm => ?_⟩
  · have hl := atomicStored_lanes s a.toNat size (op (BitVec.ofNat 64 (memLe s.mem.dram a.toNat size)))
    exact ran_of_quiet_access hr hf (.of_lanes hl) (coreAt_of_lanes c hl) (hbody.trans (doAtomic_here hacc hr.sound hf))
      (keepsWindow_putG ..)
  · exact ran_of_ret hr hm (hbody.trans (doAtomic_drift hacc hf hd)) (coreAt_driftTake hd) (keepsWindow_putG ..)

/-- An atomic of either width, `new n d old b` giving what it stores for its operands of `n` bits. -/
theorem ran_of_atomicV {s : State} {c : CoreRef} {body : State → Core → Act} {f : Fields} {minor : BitVec 6}
    {op : (n : Nat) → BitVec n → BitVec n → Option (BitVec n)} {opd : (n : Nat) → BitVec n → BitVec n → BitVec n → Option (BitVec n)}
    (hr : Retires s c) (hbody : body s (coreAt s c) = atomicV s c (coreAt s c) f minor op)
    (hop : ∀ n old b, op n old b = opd n ((gget (coreAt s c) f.rd).setWidth n) old b) (hmod : f.mod.toNat < 2) :
    let k := coreAt s c
    let a := gget k f.ra
    let size := if f.mod = 0 then 8 else 4
    let new := fun (old : Word) => if f.mod = 0 then opd 64 (gget k f.rd) old (gget k f.rb)
      else (opd 32 ((gget k f.rd).setWidth 32) (old.setWidth 32) ((gget k f.rb).setWidth 32)).map (·.setWidth 64)
    let ext := fun (old : Word) => if f.mod = 0 then old else (old.setWidth 32).signExtend 64
    atomicExc s c k a size = none →
    (follows s c = false →
      let old : Word := BitVec.ofNat 64 (memLe s.mem.dram a.toNat size)
      ∃ t, runLane s c body = .next t ∧ Ran (atomicStored s a.toNat size (new old)) t c (putG k f.rd (ext old))) ∧
    (follows s c = true → ∀ old ln, driftTake (laneOf s c.lane) .atomic = .ok old ln → MarkAgrees (putLane s c.lane ln) c →
      ∃ t, runLane s c body = .next t ∧ Ran (putLane s c.lane ln) t c (putG k f.rd (ext old))) := by
  intro k a size new ext hacc
  by_cases h0 : f.mod = 0
  · have hnew : new = fun old => op 64 old (gget k f.rb) := by
      funext old
      simp only [new, if_pos h0, hop, BitVec.setWidth_eq]
      rfl
    have hext : ext = fun old => old := by
      funext old
      exact if_pos h0
    have hsize : size = 8 := if_pos h0
    rw [hsize] at hacc ⊢
    rw [hnew, hext]
    exact ran_of_doAtomic hr (hbody.trans (if_pos h0)) hacc
  · have h1 : f.mod = 1 := BitVec.eq_of_toNat_eq (by
      have : f.mod.toNat ≠ 0 := fun h => h0 (BitVec.eq_of_toNat_eq h)
      show f.mod.toNat = 1
      omega)
    have hnew : new = fun old => (op 32 (old.extractLsb' 0 32) ((gget k f.rb).extractLsb' 0 32)).map (·.zeroExtend 64) := by
      funext old
      simp only [new, if_neg h0, hop]
      rfl
    have hext : ext = fun old => (old.extractLsb' 0 32).signExtend 64 := by
      funext old
      exact if_neg h0
    have hsize : size = 4 := if_neg h0
    rw [hsize] at hacc ⊢
    rw [hnew, hext]
    exact ran_of_doAtomic hr (hbody.trans ((if_neg h0).trans (if_pos h1))) hacc

theorem ran_of_fence {c : CoreRef} {f : Fields} {s : State} (hr : Retires s c) (hm : MarkAgrees s c) (hmod : f.mod.toNat < 4)
    (hrd : f.rd = 0) (hra : f.ra = 0) (hrb : f.rb = 0) :
    ∃ t, exec (.fence c f) s = .next t ∧ Ran s t c { coreAt s c with pc := (coreAt s c).pc + 4 } := by
  unfold exec
  exact ran_of_retPc hr hm (legal_of (by simp [hmod, hrd, hra, hrb]) ..) rfl

/-- Settles O7: the comparisons of the minima and maxima are those of the numbers, the others hold as they stand. -/
theorem atomicResult : Obligations.AtomicResult := by
  refine ⟨fun row hrow c f s hr hmod => ?_, fun c f s hr hm hmod hrd hra hrb => ran_of_fence hr hm hmod hrd hra hrb⟩
  simp only [List.mem_cons, List.not_mem_nil, or_false] at hrow
  rcases hrow with rfl | rfl | rfl | rfl | rfl | rfl | rfl | rfl | rfl | rfl
  all_goals
    unfold exec
    refine ran_of_atomicV hr rfl (fun n old b => ?_) hmod
    dsimp only
  · exact congrArg some (ite_sle ..)
  · exact congrArg some (ite_sle ..)
  · exact congrArg some (ite_ule ..)
  · exact congrArg some (ite_ule ..)

end Sys2Proof.Machine

/-! Instruction words: what they spell, and the words that are illegal (R177, R178, Tables 5.7 to 5.13). -/

namespace Sys2Proof.Machine

open Sys2Proof

/-! ### The fields of a word (Table 5.7) -/

/-- A part of a joined word that lies above its last field `y`. -/
theorem extract_above {n m a k l : Nat} {x : BitVec n} {y : BitVec m} {z : BitVec l} (h : x.extractLsb' a l = z) (hk : a + m = k) :
    (x ++ y).extractLsb' k l = z := by
  rw [BitVec.extractLsb'_append_eq_of_le (by omega), ← hk, Nat.add_sub_cancel, h]

/-- A part of a word joined with the part below it. -/
theorem append_extract {w a b l m : Nat} {x : BitVec w} {y : BitVec l} (h : y = x.extractLsb' a l) (hb : a = b + m) :
    y ++ x.extractLsb' b m = x.extractLsb' b (l + m) := by
  rw [h, BitVec.extractLsb'_append_extractLsb'_eq_extractLsb' hb]

section

variable (major : BitVec 4) (minor : BitVec 6) (f : Fields)

theorem wordOf_major : (wordOf major minor f).extractLsb' 28 4 = major :=
  extract_above (extract_above (extract_above (extract_above BitVec.extractLsb'_append_eq_left rfl) rfl) rfl) rfl

theorem wordOf_minor : (wordOf major minor f).extractLsb' 22 6 = minor :=
  extract_above (extract_above (extract_above (extract_above BitVec.extractLsb'_append_eq_right rfl) rfl) rfl) rfl

theorem fieldsOf_wordOf : fieldsOf (wordOf major minor f) = f := by
  have hrd : (wordOf major minor f).extractLsb' 17 5 = f.rd :=
    extract_above (extract_above (extract_above BitVec.extractLsb'_append_eq_right rfl) rfl) rfl
  have hra : (wordOf major minor f).extractLsb' 12 5 = f.ra :=
    extract_above (extract_above BitVec.extractLsb'_append_eq_right rfl) rfl
  have hrb : (wordOf major minor f).extractLsb' 7 5 = f.rb := extract_above BitVec.extractLsb'_append_eq_right rfl
  have hmod : (wordOf major minor f).extractLsb' 0 7 = f.mod := BitVec.extractLsb'_append_eq_right
  rw [fieldsOf, hrd, hra, hrb, hmod]

end

theorem wordOf_fieldsOf (w : U32) : wordOf (w.extractLsb' 28 4) (w.extractLsb' 22 6) (fieldsOf w) = w := by
  have hminor : (w.extractLsb' 28 4 ++ w.extractLsb' 22 6 : BitVec 10) = w.extractLsb' 22 10 := append_extract rfl rfl
  have hrd : (w.extractLsb' 22 10 ++ w.extractLsb' 17 5 : BitVec 15) = w.extractLsb' 17 15 := append_extract rfl rfl
  have hra : (w.extractLsb' 17 15 ++ w.extractLsb' 12 5 : BitVec 20) = w.extractLsb' 12 20 := append_extract rfl rfl
  have hrb : (w.extractLsb' 12 20 ++ w.extractLsb' 7 5 : BitVec 25) = w.extractLsb' 7 25 := append_extract rfl rfl
  have hmod : (w.extractLsb' 7 25 ++ w.extractLsb' 0 7 : BitVec 32) = w.extractLsb' 0 32 := append_extract rfl rfl
  simp only [wordOf, fieldsOf, hminor, hrd, hra, hrb, hmod, BitVec.extractLsb'_eq_self]

section

variable (op : BitVec 2) (x : Wide)

theorem wordWide_major : (wordWide op x).extractLsb' 28 4 = 15 :=
  extract_above (extract_above (extract_above BitVec.extractLsb'_append_eq_left rfl) rfl) rfl

theorem wordWide_op : (wordWide op x).extractLsb' 26 2 = op :=
  extract_above (extract_above (extract_above BitVec.extractLsb'_append_eq_right rfl) rfl) rfl

theorem wideOf_wordWide : wideOf (wordWide op x) = x := by
  have hrd : (wordWide op x).extractLsb' 17 5 = x.rd := extract_above BitVec.extractLsb'_append_eq_right rfl
  have hhigh : (wordWide op x).extractLsb' 22 4 = x.imm21.extractLsb' 17 4 :=
    extract_above (extract_above BitVec.extractLsb'_append_eq_right rfl) rfl
  have hlow : (wordWide op x).extractLsb' 0 17 = x.imm21.extractLsb' 0 17 := BitVec.extractLsb'_append_eq_right
  have himm : x.imm21.extractLsb' 17 4 ++ x.imm21.extractLsb' 0 17 = x.imm21 :=
    (append_extract rfl rfl).trans BitVec.extractLsb'_eq_self
  rw [wideOf, hrd, hhigh, hlow, himm]

end

theorem wordWide_wideOf {w : U32} (h : w.extractLsb' 28 4 = 15) : wordWide (w.extractLsb' 26 2) (wideOf w) = w := by
  have hhigh : (wideOf w).imm21.extractLsb' 17 4 = w.extractLsb' 22 4 := BitVec.extractLsb'_append_eq_left
  have hlow : (wideOf w).imm21.extractLsb' 0 17 = w.extractLsb' 0 17 := BitVec.extractLsb'_append_eq_right
  have hop : (w.extractLsb' 28 4 ++ w.extractLsb' 26 2 : BitVec 6) = w.extractLsb' 26 6 := append_extract rfl rfl
  have hten : (w.extractLsb' 26 6 ++ w.extractLsb' 22 4 : BitVec 10) = w.extractLsb' 22 10 := append_extract rfl rfl
  have hrd : (w.extractLsb' 22 10 ++ w.extractLsb' 17 5 : BitVec 15) = w.extractLsb' 17 15 := append_extract rfl rfl
  have hall : (w.extractLsb' 17 15 ++ w.extractLsb' 0 17 : BitVec 32) = w.extractLsb' 0 32 := append_extract rfl rfl
  rw [wordWide, hhigh, hlow, ← h]
  simp only [wideOf, hop, hten, hrd, hall, BitVec.extractLsb'_eq_self]

theorem laneDecode_wordOf {c : CoreRef} {major : BitVec 4} {minor : BitVec 6} {f : Fields} {g : CoreRef → Fields → Instr}
    (h : classInstr major.toNat minor.toNat = some g) : laneDecode c (wordOf major minor f) = some (g c f) := by
  have hmajor : major ≠ 15 := by
    rintro rfl
    cases h
  rw [laneDecode, wordOf_major, if_neg hmajor, wordOf_minor, fieldsOf_wordOf, h, Option.map_some]

theorem laneDecode_wordWide {c : CoreRef} {op : BitVec 2} {x : Wide} {g : CoreRef → Wide → Instr}
    (h : wideInstr op.toNat = some g) : laneDecode c (wordWide op x) = some (g c x) := by
  rw [laneDecode, wordWide_major, if_pos rfl, wordWide_op, wideOf_wordWide, h, Option.map_some]

theorem laneDecode_laneCode (i : Instr) (c : CoreRef) (w : U32) (h : laneCode i = some (c, w)) : laneDecode c w = some i := by
  unfold laneCode at h
  split at h
  all_goals cases h
  case h_133 | h_134 | h_135 => exact laneDecode_wordWide rfl
  all_goals exact laneDecode_wordOf rfl

theorem laneCode_classInstr {major minor : Nat} {g : CoreRef → Fields → Instr} (h : classInstr major minor = some g)
    (c : CoreRef) (f : Fields) : laneCode (g c f) = some (c, wordOf (BitVec.ofNat 4 major) (BitVec.ofNat 6 minor) f) := by
  unfold classInstr classInstr0 classInstr1 classInstr2 classInstr3 classInstr4 classInstr5 classInstr6 classInstr7 classInstr8
    classInstr9 classInstr10 classInstr11 classInstr12 classInstr13 at h
  split at h
  case h_15 => cases h
  all_goals
    split at h
    all_goals cases h
    all_goals rfl

theorem laneCode_wideInstr {op : Nat} {g : CoreRef → Wide → Instr} (h : wideInstr op = some g) (c : CoreRef) (x : Wide) :
    laneCode (g c x) = some (c, wordWide (BitVec.ofNat 2 op) x) := by
  unfold wideInstr at h
  split at h
  all_goals cases h
  all_goals rfl

theorem laneCode_laneDecode (c : CoreRef) (w : U32) (i : Instr) (h : laneDecode c w = some i) : laneCode i = some (c, w) := by
  unfold laneDecode at h
  split at h
  · next hwide =>
    obtain ⟨g, hg, rfl⟩ := Option.map_eq_some_iff.mp h
    rw [laneCode_wideInstr hg, BitVec.ofNat_toNat, BitVec.setWidth_eq, wordWide_wideOf hwide]
  · obtain ⟨g, hg, rfl⟩ := Option.map_eq_some_iff.mp h
    rw [laneCode_classInstr hg, BitVec.ofNat_toNat, BitVec.ofNat_toNat, BitVec.setWidth_eq, BitVec.setWidth_eq, wordOf_fieldsOf]

/-! ### The words that spell nothing (R178) -/

/-- The minor codes that Tables 5.8 to 5.13 list, by class. -/
def listedMinors : List (Nat × List Nat) := [(0, List.range 0x11), (1, [0, 2, 3, 4, 8, 9, 14]),
  (2, List.range 8 ++ [0x10, 0x11, 0x12, 0x14, 0x18, 0x19, 0x1A, 0x20, 0x21, 0x22, 0x23]),
  (3, [0, 1, 2, 3, 4, 5, 6, 7, 8, 12, 13, 14, 15]), (4, [0, 1, 2, 3, 4, 5, 6, 8, 9]), (5, [0, 2, 4, 6, 8, 9]),
  (6, List.range 6), (7, [0, 1]), (8, List.range 7 ++ [8, 9, 10, 0x10, 0x11, 0x12, 0x13]),
  (9, [0, 1, 2, 3, 8, 9, 10, 11, 0x10, 0x11, 0x18, 0x19, 0x20, 0x21]), (10, List.range 10 ++ [0x20]),
  (11, [0, 1, 2, 8, 9, 10, 11]), (12, List.range 6 ++ [8, 9, 0x10, 0x11, 0x18, 0x19]),
  (13, List.range 5 ++ [8, 9, 10])]

theorem minor_listed {major minor : Nat} {g : CoreRef → Fields → Instr} (h : classInstr major minor = some g) :
    ∀ listed ∈ listedMinors, listed.1 = major → minor ∈ listed.2 := by
  unfold classInstr classInstr0 classInstr1 classInstr2 classInstr3 classInstr4 classInstr5 classInstr6 classInstr7 classInstr8
    classInstr9 classInstr10 classInstr11 classInstr12 classInstr13 at h
  split at h
  case h_15 => cases h
  all_goals
    split at h
    all_goals cases h
    all_goals decide

theorem classInstr_listed : ∀ listed ∈ listedMinors, ∀ minor ∈ listed.2, (classInstr listed.1 minor).isSome = true := by
  decide

theorem class_listed : ∀ major < 14, ∃ listed ∈ listedMinors, major = listed.1 := by
  decide

theorem classInstr_eq_none_iff {major : Nat} (minor : Nat) (hmajor : major < 15) : classInstr major minor = none ↔
    major = 14 ∨ ∃ listed ∈ listedMinors, major = listed.1 ∧ minor ∉ listed.2 := by
  constructor
  · intro hnone
    by_cases h14 : major = 14
    · exact .inl h14
    · obtain ⟨listed, hmem, rfl⟩ := class_listed major (by omega)
      refine .inr ⟨listed, hmem, rfl, fun hminor => ?_⟩
      have hsome := classInstr_listed listed hmem minor hminor
      simp [hnone] at hsome
  · rintro (rfl | ⟨listed, hmem, rfl, hminor⟩)
    · rfl
    · rw [Option.eq_none_iff_forall_ne_some]
      exact fun g hg => hminor (minor_listed hg listed hmem rfl)

theorem wideInstr_eq_none_iff {op : Nat} (h : op < 4) : wideInstr op = none ↔ op = 3 := by
  interval_cases op <;> simp [wideInstr]

theorem laneDecode_eq_none_iff (c : CoreRef) (w : U32) : laneDecode c w = none ↔
    (w.extractLsb' 28 4).toNat = 14 ∨ (w.extractLsb' 28 4).toNat = 15 ∧ (w.extractLsb' 26 2).toNat = 3 ∨
      ∃ listed ∈ listedMinors, (w.extractLsb' 28 4).toNat = listed.1 ∧ (w.extractLsb' 22 6).toNat ∉ listed.2 := by
  have hclass : ∀ listed ∈ listedMinors, listed.1 < 14 := by decide
  by_cases h15 : w.extractLsb' 28 4 = 15
  · have hno : ∀ listed ∈ listedMinors, (w.extractLsb' 28 4).toNat ≠ listed.1 := fun listed hmem h => by
      have := hclass listed hmem
      rw [← h, h15] at this
      exact absurd this (by decide)
    have hnat : (w.extractLsb' 28 4).toNat = 15 := by rw [h15]; rfl
    rw [laneDecode, if_pos h15, Option.map_eq_none_iff, wideInstr_eq_none_iff (BitVec.isLt _)]
    constructor
    · exact fun h => .inr (.inl ⟨hnat, h⟩)
    · rintro (h | ⟨-, h⟩ | ⟨listed, hmem, h, -⟩)
      · omega
      · exact h
      · exact absurd h (hno listed hmem)
  · have hnat : (w.extractLsb' 28 4).toNat ≠ 15 := fun h => h15 (BitVec.eq_of_toNat_eq h)
    have hlt : (w.extractLsb' 28 4).toNat < 16 := BitVec.isLt _
    rw [laneDecode, if_neg h15, Option.map_eq_none_iff, classInstr_eq_none_iff _ (by omega)]
    simp only [hnat, false_and, false_or]

theorem execWord_unlisted (c : CoreRef) (w : U32) (s : State) (hr : Retires s c) (hx : excSet (coreAt s c) = false)
    (h : laneDecode c w = none) : ∃ t, execWord c w s = .next t ∧ Excepted s t c ⟨1, false, false, w.setWidth 64⟩ := by
  rw [execWord, h]
  exact excepted_of_exc hr hx rfl

end Sys2Proof.Machine

/-! Words with reserved fields that are not 0, and supervisor instructions in user mode (R178, R179, R180, R181, R183, R188, R189,
R190, R192). -/

namespace Sys2Proof.Machine

open Sys2Proof

/-- An instruction whose word breaks the rule `p` of its reserved fields. -/
theorem excepted_of_reserved {s : State} {c : CoreRef} {body : State → Core → Act} {ok : Bool} {w : U32} {a : Act} {p : Prop}
    (hr : Retires s c) (hx : excSet (coreAt s c) = false) (hbad : ¬ p) (hbody : body s (coreAt s c) = legal ok s w a)
    (hok : ok = true ↔ p) : ∃ t, runLane s c body = .next t ∧ Excepted s t c ⟨1, false, false, w.setWidth 64⟩ :=
  excepted_of_illegal hr hx hbody (mt hok.mp hbad)

theorem modLt_iff {f : Fields} {n : Nat} : decide (f.mod.toNat < n) = true ↔ f.mod.toNat < n := decide_eq_true_iff

theorem fenceOk_iff (f : Fields) : (decide (f.mod.toNat < 4) && f.rd == 0 && f.ra == 0 && f.rb == 0) = true ↔
    f.mod.toNat < 4 ∧ f.rd = 0 ∧ f.ra = 0 ∧ f.rb = 0 := by
  simp [and_assoc]

theorem yieldOk_iff (k : Core) (f : Fields) : (isSup k && decide (f.mod.toNat < 2) && f.rd == 0 && f.ra == 0 && f.rb == 0) = true ↔
    isSup k = true ∧ f.mod.toNat < 2 ∧ f.rd = 0 ∧ f.ra = 0 ∧ f.rb = 0 := by
  simp [and_assoc]

theorem crrOk_iff (k : Core) (f : Fields) :
    (!f.mod.getLsbD 6 && f.ra == 0 && f.rb == 0 && !crIllegal k (crIndex f) false) = true ↔
      f.mod.toNat < 64 ∧ f.ra = 0 ∧ f.rb = 0 ∧ crIllegal k f.mod.toNat false = false := by
  rw [Bool.and_eq_true_iff, Bool.and_eq_true_iff, Bool.and_eq_true_iff, modHigh_iff, and_assoc, and_assoc, beq_iff_eq, beq_iff_eq,
    Bool.not_eq_true']
  exact and_congr_right fun h => by rw [crIndex_of_lt h]

theorem crModifyOk_iff (k : Core) (f : Fields) :
    (!f.mod.getLsbD 6 && f.rb == 0 && !crIllegal k (crIndex f) true) = true ↔
      f.mod.toNat < 64 ∧ f.rb = 0 ∧ crIllegal k f.mod.toNat true = false := by
  rw [Bool.and_eq_true_iff, Bool.and_eq_true_iff, modHigh_iff, and_assoc, beq_iff_eq, Bool.not_eq_true']
  exact and_congr_right fun h => by rw [crIndex_of_lt h]

theorem ctxOk_rd_iff (f : Fields) : (ctxMod f && f.rd == 0) = true ↔ f.mod.toNat < 16 ∧ f.rd = 0 := by
  simp [ctxMod_iff]

theorem ctxOk_ra_iff (f : Fields) : (ctxMod f && f.ra == 0) = true ↔ f.mod.toNat < 16 ∧ f.ra = 0 := by
  simp [ctxMod_iff]

theorem ctxOk_init_iff (f : Fields) : (ctxMod f && f.rd == 0 && f.ra == 0) = true ↔ f.mod.toNat < 16 ∧ f.rd = 0 ∧ f.ra = 0 := by
  simp [ctxMod_iff, and_assoc]

/-- An atomic whose MOD selects no width. -/
theorem atomicV_reserved {s : State} {c : CoreRef} {k : Core} {f : Fields} {minor : BitVec 6}
    {op : (n : Nat) → BitVec n → BitVec n → Option (BitVec n)} (h : ¬ f.mod.toNat < 2) :
    atomicV s c k f minor op = illegal s (wordOf 10 minor f) := by
  have h0 : f.mod ≠ 0 := fun h0 => h (by rw [h0]; decide)
  have h1 : f.mod ≠ 1 := fun h1 => h (by rw [h1]; decide)
  rw [atomicV, if_neg h0, if_neg h1]

theorem excepted_of_atomicV {s : State} {c : CoreRef} {body : State → Core → Act} {f : Fields} {minor : BitVec 6}
    {op : (n : Nat) → BitVec n → BitVec n → Option (BitVec n)} (hr : Retires s c) (hx : excSet (coreAt s c) = false)
    (hbad : ¬ f.mod.toNat < 2) (hbody : body s (coreAt s c) = atomicV s c (coreAt s c) f minor op) :
    ∃ t, runLane s c body = .next t ∧ Excepted s t c ⟨1, false, false, (wordOf 10 minor f).setWidth 64⟩ :=
  excepted_of_exc hr hx (hbody.trans (atomicV_reserved hbad))

/-- Settles O16: the decoder and the code are inverse, the words that no table lists, and the reserved fields group by group. -/
theorem illegalInstruction : Obligations.IllegalInstruction := by
  refine ⟨laneDecode_laneCode, laneCode_laneDecode, execWord_unlisted, laneDecode_eq_none_iff, fun group hgroup => ?_⟩
  simp only [List.mem_cons, List.not_mem_nil, or_false] at hgroup
  rcases hgroup with rfl | rfl | rfl | rfl | rfl | rfl | rfl | rfl | rfl | rfl | rfl | rfl | rfl | rfl | rfl | rfl | rfl | rfl | rfl |
    rfl | rfl | rfl | rfl | rfl | rfl
  all_goals
    intro row hrow c f s hr hx hbad
    simp only [List.mem_cons, List.not_mem_nil, or_false] at hrow
  · rcases hrow with rfl | rfl | rfl | rfl | rfl | rfl | rfl | rfl | rfl | rfl | rfl | rfl | rfl | rfl | rfl | rfl | rfl
    all_goals
      unfold exec
      exact excepted_of_reserved hr hx hbad rfl beq_iff_eq
  · rcases hrow with rfl | rfl | rfl | rfl | rfl | rfl | rfl | rfl
    all_goals
      unfold exec
      exact excepted_of_reserved hr hx hbad rfl beq_iff_eq
  · rcases hrow with rfl | rfl | rfl | rfl
    all_goals
      unfold exec
      exact excepted_of_reserved hr hx hbad rfl (shImmOk_iff f)
  · rcases hrow with rfl | rfl | rfl
    all_goals
      unfold exec
      exact excepted_of_reserved hr hx hbad rfl (fieldOk_iff f)
  · rcases hrow with rfl | rfl | rfl | rfl
    all_goals
      unfold exec
      exact excepted_of_reserved hr hx hbad rfl (countOk_iff f)
  · rcases hrow with rfl | rfl | rfl | rfl | rfl | rfl | rfl | rfl | rfl | rfl | rfl | rfl | rfl
    all_goals
      unfold exec
      exact excepted_of_reserved hr hx hbad rfl beq_iff_eq
  · rcases hrow with rfl | rfl | rfl | rfl | rfl | rfl
    all_goals
      unfold exec
      exact excepted_of_reserved hr hx hbad rfl (fmtMod_iff f)
  · subst hrow
    unfold exec
    exact excepted_of_reserved hr hx hbad rfl (fmtModRb_iff f)
  · rcases hrow with rfl | rfl | rfl
    all_goals
      unfold exec
      exact excepted_of_reserved hr hx hbad rfl beq_iff_eq
  · rcases hrow with rfl | rfl | rfl | rfl
    all_goals
      unfold exec
      exact excepted_of_reserved hr hx hbad rfl (fusedMod_iff f)
  · rcases hrow with rfl | rfl | rfl | rfl | rfl | rfl | rfl | rfl | rfl | rfl | rfl | rfl
    all_goals
      unfold exec
      exact excepted_of_reserved hr hx hbad rfl beq_iff_eq
  · rcases hrow with rfl | rfl
    all_goals
      unfold exec
      exact excepted_of_reserved hr hx hbad rfl (fmtMod_iff f)
  · rcases hrow with rfl | rfl | rfl | rfl | rfl | rfl | rfl | rfl | rfl | rfl
    all_goals
      unfold exec
      exact excepted_of_atomicV hr hx hbad rfl
  · subst hrow
    unfold exec
    exact excepted_of_reserved hr hx hbad rfl (fenceOk_iff f)
  · subst hrow
    unfold exec
    exact excepted_of_reserved hr hx hbad rfl (yieldOk_iff _ f)
  · subst hrow
    unfold exec
    exact excepted_of_reserved hr hx hbad rfl Iff.rfl
  · subst hrow
    unfold exec
    exact excepted_of_reserved hr hx hbad rfl (crrOk_iff _ f)
  · rcases hrow with rfl | rfl | rfl
    all_goals
      unfold exec
      exact excepted_of_reserved hr hx hbad rfl (crModifyOk_iff _ f)
  · rcases hrow with rfl | rfl
    all_goals
      unfold exec
      exact excepted_of_reserved hr hx hbad rfl modLt_iff
  · rcases hrow with rfl | rfl | rfl | rfl | rfl | rfl
    all_goals
      unfold exec
      exact excepted_of_reserved hr hx hbad rfl beq_iff_eq
  · rcases hrow with rfl | rfl
    all_goals
      unfold exec
      exact excepted_of_reserved hr hx hbad rfl (shImmOk_iff f)
  · rcases hrow with rfl | rfl
    all_goals
      unfold exec
      exact excepted_of_reserved hr hx hbad rfl (modHigh_iff f)
  · subst hrow
    unfold exec
    exact excepted_of_reserved hr hx hbad rfl (ctxOk_init_iff f)
  · rcases hrow with rfl | rfl | rfl | rfl | rfl
    all_goals
      unfold exec
      exact excepted_of_reserved hr hx hbad rfl (ctxOk_rd_iff f)
  · rcases hrow with rfl | rfl
    all_goals
      unfold exec
      exact excepted_of_reserved hr hx hbad rfl (ctxOk_ra_iff f)

end Sys2Proof.Machine

/-! What a memory error changes (R224 to R229, Table 6.7): the counters and the status block, which the effect on the area leaves,
and the effect itself, area by area. -/

namespace Sys2Proof.Machine

open Sys2Proof

/-! ### Counting an error (R224, R229) -/

theorem memRecord_rest (s : State) (x : MemLoc) (uncorrectable : Bool) :
    memRecord s x uncorrectable = { s with mor := (memRecord s x uncorrectable).mor } :=
  record_rest ..

theorem countCe_dram (m : Memory) {area : Nat} (h : area ≤ 4) : countCe m area = { m with dramCe := satInc m.dramCe } :=
  if_pos h

theorem countUe_dram (m : Memory) {area : Nat} (h : area ≤ 4) : countUe m area = { m with dramUe := satInc m.dramUe } :=
  if_pos h

theorem countCe_pis (m : Memory) {area : Nat} (h : 10 ≤ area) : countCe m area = { m with pisCe := satInc m.pisCe } := by
  unfold countCe
  rw [if_neg (by omega), if_neg (by simp; omega), if_neg (by simp; omega)]

theorem countUe_pis (m : Memory) {area : Nat} (h : 10 ≤ area) : countUe m area = { m with pisUe := satInc m.pisUe } := by
  unfold countUe
  rw [if_neg (by omega), if_neg (by simp; omega), if_neg (by simp; omega)]

@[simp] theorem countCe_upsets (m : Memory) (area : Nat) : (countCe m area).upsets = m.upsets := by
  unfold countCe
  repeat' split
  all_goals rfl

@[simp] theorem countUe_upsets (m : Memory) (area : Nat) : (countUe m area).upsets = m.upsets := by
  unfold countUe
  repeat' split
  all_goals rfl

/-- A corrected error changes the counters and the recorder alone. -/
theorem memCorrected_rest (s : State) (x : MemLoc) :
    let t := memCorrected s x
    t = { s with mem := { countCe s.mem x.area.toNat with ceCount := t.mem.ceCount }, mor := t.mor } := by
  unfold memCorrected
  dsimp only
  split
  · rw [memRecord_rest]
  · rfl

theorem memCorrected_upsets (s : State) (x : MemLoc) : (memCorrected s x).mem.upsets = s.mem.upsets := by
  rw [memCorrected_rest]
  exact countCe_upsets ..

/-- An uncorrectable error as the memory status block and the recorder show it, before its effect (R229, R230). -/
def ueNoted (s : State) (x : MemLoc) : State :=
  let i := x.area.toNat
  let m := { countUe s.mem i with lastUeAddr := locAddr x, lastUeArea := i, lastUeLane := laneNumber (locLane s x)
                                  lastUeEpoch := s.epoch.no }
  memRecord { s with mem := m } x true

theorem memUncorrectable_eq (s : State) (x : MemLoc) (dirty : Bool) :
    memUncorrectable s x dirty = memEffect (ueNoted s x) x dirty := rfl

theorem ueNoted_rest (s : State) (x : MemLoc) :
    let t := ueNoted s x
    t = { s with mem := { countUe s.mem x.area.toNat with
      lastUeAddr := locAddr x, lastUeArea := x.area.toNat, lastUeLane := laneNumber (locLane s x), lastUeEpoch := s.epoch.no }
                 mor := t.mor } :=
  memRecord_rest ..

@[simp] theorem laneOf_ueNoted (s : State) (x : MemLoc) (l : LaneId) : laneOf (ueNoted s x) l = laneOf s l := by
  rw [ueNoted_rest]
  rfl

/-! ### What the effects leave of the memories -/

/-- Counters, status block and images stand from `s` to `t`, and no sound memory gains a wrong word. -/
structure ErrorsKept (s t : State) : Prop where
  rest : t.mem = { s.mem with retained := t.mem.retained, working := t.mem.working, written := t.mem.written
                              lostBlocks := t.mem.lostBlocks, upsets := t.mem.upsets }
  sound : s.mem.upsets = [] → t.mem.upsets = []

theorem ErrorsKept.of_mem {s t : State} (h : t.mem = s.mem) : ErrorsKept s t :=
  ⟨by rw [h], fun hs => by rw [h, hs]⟩

/-! ### A lane stops (R224) -/

/-- What tells of a lane that a memory error stops. -/
def stopNoted (s : State) (l : LaneId) : State :=
  let t := laneEvent s (8 + l.val)
  recordBit t 0 0x90C (8 + l.val) t.lanes.event.toNat l.val [0, 0]

theorem stopNoted_rest (s : State) (l : LaneId) :
    let t := stopNoted s l
    t = { s with lanes := { s.lanes with event := setBit s.lanes.event (8 + l.val) }, mor := t.mor } :=
  recordBit_rest ..

/-- A lane that a stop does not reach: it is halted already. -/
def laneHalted (ln : Lane) : Prop := ln.epochState = .stopped ∨ ln.epochState = .faulted ∨ ln.epochState = .shed

theorem memStopLane_of_halted {s : State} {l : LaneId} (h : laneHalted (laneOf s l)) : memStopLane s l = s := by
  unfold memStopLane
  rcases h with h | h | h <;> simp only [h]

theorem memStopLane_of_not_halted {s : State} {l : LaneId} (h : ¬ laneHalted (laneOf s l)) :
    memStopLane s l = stopNoted (stopLane s l) l := by
  unfold memStopLane
  split
  · next hs => exact absurd (.inl hs) h
  · next hs => exact absurd (.inr (.inl hs)) h
  · next hs => exact absurd (.inr (.inr hs)) h
  · rfl

theorem stopLane_mem (s : State) (l : LaneId) : (stopLane s l).mem = s.mem := by
  obtain ⟨-, hrest⟩ := stopLane_rest s l
  rw [hrest]

theorem memStopLane_mem (s : State) (l : LaneId) : (memStopLane s l).mem = s.mem := by
  by_cases h : laneHalted (laneOf s l)
  · rw [memStopLane_of_halted h]
  · rw [memStopLane_of_not_halted h, stopNoted_rest]
    exact stopLane_mem s l

theorem laneOf_memStopLane {s : State} {l : LaneId} (h : ¬ laneHalted (laneOf s l)) (m : LaneId) :
    laneOf (memStopLane s l) m = laneOf (putLane s l (stoppedLane s (laneOf s l))) m := by
  obtain ⟨hlanes, -⟩ := stopLane_rest s l
  refine laneOf_of_lanes ?_ m
  rw [memStopLane_of_not_halted h, stopNoted_rest, ← hlanes]

theorem laneOf_memStopLane_ne (s : State) {l m : LaneId} (h : m ≠ l) : laneOf (memStopLane s l) m = laneOf s m := by
  by_cases hh : laneHalted (laneOf s l)
  · rw [memStopLane_of_halted hh]
  · rw [laneOf_memStopLane hh, laneOf_putLane_ne _ _ _ _ h]

/-- A lane that a fault stops takes part in the epoch no more, but for a commit that stands. -/
theorem faultState_not_going (s : State) (ln : Lane) : faultState s ln ≠ .waitSeal ∧ faultState s ln ≠ .compute := by
  unfold faultState
  split
  · decide
  · decide
  · split <;> decide
  · decide

theorem memStopLane_not_going (s : State) (l : LaneId) :
    (laneOf (memStopLane s l) l).epochState ≠ .waitSeal ∧ (laneOf (memStopLane s l) l).epochState ≠ .compute := by
  by_cases h : laneHalted (laneOf s l)
  · rw [memStopLane_of_halted h]
    rcases h with h | h | h <;> simp [h]
  · obtain ⟨-, -, hstate, -⟩ := stoppedLane_fields s (laneOf s l)
    rw [laneOf_memStopLane h, laneOf_putLane, hstate]
    exact faultState_not_going s _

/-! ### Selvedge, packets and staged records (R233, R310, R504) -/

theorem selvedgeFail_failed (s : State) : (selvedgeFail s).mbox.failed = true := by
  cases h : s.mbox.failed
  · exact (selvedgeFail_spec h).1
  · rw [selvedgeFail, if_pos h, h]

theorem selvedgeFail_mem (s : State) : (selvedgeFail s).mem = s.mem := by
  cases h : s.mbox.failed
  · obtain ⟨-, -, hrest⟩ := selvedgeFail_spec h
    rw [hrest]
  · rw [selvedgeFail, if_pos h]

theorem memPacket_bufUe (s : State) : (memPacket s).pkt.bufUe = satInc s.pkt.bufUe := rfl

theorem memStaging_mem (s : State) (a : Nat) : (memStaging s a).mem = s.mem := by
  unfold memStaging
  dsimp only
  split <;> rfl

theorem memTcm_mem (s : State) (o : Nat) : (memTcm s o).mem = s.mem := by
  unfold memTcm
  split
  · exact memStopLane_mem s _
  · exact selvedgeFail_mem s

/-! ### An input image (R225, R61) -/

/-- A lane that a damaged input image rejects after the fact. -/
def rejectedLane (ln : Lane) : Lane :=
  if ln.l.committed || ln.t.committed then
    { dropCommits ln with epochState := if ln.epochState = .committed then .late else ln.epochState, staleRejected := true }
  else ln

/-- Nothing changes from `s` to `t` but lanes and the events of the epoch. -/
def LanesEventOnly (s t : State) : Prop := t = { s with lanes := t.lanes, epoch := { s.epoch with event := t.epoch.event } }

theorem LanesEventOnly.trans {s t u : State} (h : LanesEventOnly s t) (g : LanesEventOnly t u) : LanesEventOnly s u := by
  unfold LanesEventOnly at *
  rw [g, h]

theorem LanesEventOnly.fields {s t : State} (h : LanesEventOnly s t) :
    t.mem = s.mem ∧ t.weft = s.weft ∧ t.epoch.abstainAll = s.epoch.abstainAll := by
  unfold LanesEventOnly at h
  rw [h]
  exact ⟨rfl, rfl, rfl⟩

theorem rejectStale_spec (s : State) (l : LaneId) :
    let t := rejectStale s l
    t.lanes = (putLane s l (rejectedLane (laneOf s l))).lanes ∧ LanesEventOnly s t := by
  unfold rejectStale rejectedLane
  dsimp only
  split
  · exact ⟨rfl, rfl⟩
  · exact ⟨by rw [putLane_laneOf], rfl⟩

theorem laneOf_rejectStale (s : State) (l : LaneId) : laneOf (rejectStale s l) l = rejectedLane (laneOf s l) := by
  obtain ⟨hlanes, -⟩ := rejectStale_spec s l
  rw [laneOf_of_lanes (congrArg LaneBlock.lane hlanes), laneOf_putLane]

theorem laneOf_rejectStale_ne (s : State) (l m : LaneId) (h : m ≠ l) : laneOf (rejectStale s l) m = laneOf s m := by
  obtain ⟨hlanes, -⟩ := rejectStale_spec s l
  rw [laneOf_of_lanes (congrArg LaneBlock.lane hlanes), laneOf_putLane_ne _ _ _ _ h]

theorem lanesEventOnly_rejectStales (ls : List LaneId) (s : State) : LanesEventOnly s (ls.foldl rejectStale s) := by
  induction ls generalizing s with
  | nil => exact rfl
  | cons l ls ih => exact (rejectStale_spec s l).2.trans (ih _)

/-- The module as it has rejected what its lanes made of a damaged input image. -/
def imageRejected (s : State) : State := (List.finRange 8).foldl rejectStale (abstainEpoch s)

theorem imageRejected_fields (s : State) : (imageRejected s).mem = s.mem ∧ (imageRejected s).weft = s.weft ∧
    (imageRejected s).epoch.abstainAll = true := by
  unfold imageRejected
  exact (lanesEventOnly_rejectStales _ _).fields

theorem laneOf_abstainEpoch (s : State) (l : LaneId) : laneOf (abstainEpoch s) l = { laneOf s l with readStale := true } :=
  (laneOf_of_lanes rfl l).trans (laneOf_mapLanes s (fun _ ln => { ln with readStale := true }) l)

theorem laneOf_imageRejected (s : State) (l : LaneId) :
    laneOf (imageRejected s) l = rejectedLane { laneOf s l with readStale := true } := by
  rw [imageRejected, laneOf_foldl_finRange laneOf_rejectStale laneOf_rejectStale_ne, laneOf_abstainEpoch]

/-- The RAW frames that wait on a link are held back. -/
def rawHeld (k : Link) : Link := { k with txq := k.txq.filter (fun f => f.type != 0x10) }

/-- The module as it offers nothing more of a damaged input image. -/
def imageHeld (s : State) : State :=
  { s with epoch := { s.epoch with noRaw := true }
           weft := { s.weft with a := rawHeld s.weft.a, b := rawHeld s.weft.b, ownDigest := Vector.replicate 16 none } }

theorem imageHeld_spec (s : State) :
    let t := imageHeld s
    t.mem = s.mem ∧ t.lanes = s.lanes ∧ t.epoch.abstainAll = s.epoch.abstainAll ∧ t.epoch.noRaw = true ∧
      (∀ g : GroupId, t.weft.ownDigest[g] = none) ∧
      ∀ sd, (linkOf t sd).txq = (linkOf s sd).txq.filter (fun f => f.type != 0x10) := by
  refine ⟨rfl, rfl, rfl, rfl, fun g => ?_, fun sd => ?_⟩
  · simp [imageHeld]
  · cases sd <;> rfl

theorem memImage_eq (s : State) : memImage s = imageHeld (imageRejected s) := by
  unfold memImage imageHeld imageRejected rawHeld
  rfl

theorem memImage_mem (s : State) : (memImage s).mem = s.mem := by
  obtain ⟨hmem, -⟩ := imageHeld_spec (imageRejected s)
  rw [memImage_eq, hmem]
  exact (imageRejected_fields s).1

theorem memImage_spec (s : State) :
    let t := memImage s
    t.epoch.abstainAll = true ∧ t.epoch.noRaw = true ∧ (∀ g : GroupId, t.weft.ownDigest[g] = none) ∧
      (∀ sd, (linkOf t sd).txq = (linkOf s sd).txq.filter (fun f => f.type != 0x10)) ∧
      ∀ l, laneOf t l = rejectedLane { laneOf s l with readStale := true } := by
  obtain ⟨-, hlanes, hall, hraw, hdigest, htxq⟩ := imageHeld_spec (imageRejected s)
  obtain ⟨-, hweft, habstains⟩ := imageRejected_fields s
  have hlink : ∀ sd, linkOf (imageRejected s) sd = linkOf s sd := by simp [linkOf, hweft]
  rw [memImage_eq]
  refine ⟨hall.trans habstains, hraw, hdigest, fun sd => ?_, fun l => ?_⟩
  · rw [htxq, hlink]
  · rw [laneOf_of_lanes (congrArg LaneBlock.lane hlanes), laneOf_imageRejected]

/-! ### The output image (R69, Table 6.7) -/

/-- The groups whose bytes hold an offset of the output image. -/
def groupsAt (s : State) (o : Nat) : List GroupId := allGroups.filter (fun g => match s.maps.group[g] with
  | some d => decide (d.offset ≤ o) && decide (o < d.offset + d.length)
  | none => false)

theorem mem_groupsAt {s : State} {o : Nat} {g : GroupId} {d : Group} (hd : s.maps.group[g] = some d) (hlo : d.offset ≤ o)
    (hhi : o < d.offset + d.length) : g ∈ groupsAt s o := by
  refine List.mem_filter.mpr ⟨List.mem_finRange g, ?_⟩
  simp [hd, hlo, hhi]

theorem memOutput_eq (s : State) (o : Nat) : memOutput s o = abstainIn { s with epoch := { s.epoch with
    abstainGroups := (groupsAt s o).foldl (fun m g => setBit m g.val) s.epoch.abstainGroups } } (groupsAt s o) := rfl

theorem ownDigest_abstainIn (s : State) {gs : List GroupId} {g : GroupId} (h : g ∈ gs) :
    (abstainIn s gs).weft.ownDigest[g] = none := by
  simp [abstainIn, h]

theorem memOutput_abstains {s : State} {o : Nat} {g : GroupId} {d : Group} (hd : s.maps.group[g] = some d) (hlo : d.offset ≤ o)
    (hhi : o < d.offset + d.length) :
    (memOutput s o).epoch.abstainGroups.getLsbD g.val = true ∧ (memOutput s o).weft.ownDigest[g] = none := by
  have hg := mem_groupsAt hd hlo hhi
  rw [memOutput_eq]
  exact ⟨abstained_of_mem hg, ownDigest_abstainIn _ hg⟩

/-! ### A retained block (R226, R62) -/

/-- The owner of a damaged block or exchange shadow: COMMITTED becomes LATE and is counted, any other state stands. -/
structure OwnerLate (s t : State) (l : LaneId) : Prop where
  committed : (laneOf s l).epochState = .committed → (laneOf t l).epochState = .late ∧
    (laneOf t l).ovrCnt = satInc (laneOf s l).ovrCnt ∧ t.epoch.event = setBit s.epoch.event l.val
  other : (laneOf s l).epochState ≠ .committed → (laneOf t l).epochState = (laneOf s l).epochState
  lanes : ∀ l', l' ≠ l → laneOf t l' = laneOf s l'

/-- Lane `l` alone changes from `s` to `t`, and its epoch state and its overruns stand. -/
theorem OwnerLate.of_putLane {s t u : State} {l : LaneId} {ln : Lane} (h : OwnerLate s t l) (hu : u.lanes = (putLane t l ln).lanes)
    (hstate : ln.epochState = (laneOf t l).epochState) (hcnt : ln.ovrCnt = (laneOf t l).ovrCnt) (hevent : u.epoch = t.epoch) :
    OwnerLate s u l := by
  have hlane : ∀ m, laneOf u m = laneOf (putLane t l ln) m := laneOf_of_lanes (congrArg LaneBlock.lane hu)
  refine ⟨fun hc => ?_, fun hc => ?_, fun m hm => ?_⟩
  · obtain ⟨hlate, hovr, hev⟩ := h.committed hc
    rw [hlane, laneOf_putLane, hstate, hcnt, hevent]
    exact ⟨hlate, hovr, hev⟩
  · rw [hlane, laneOf_putLane, hstate, h.other hc]
  · rw [hlane, laneOf_putLane_ne _ _ _ _ hm, h.lanes m hm]

theorem ownerLate_putLane {s u : State} {l : LaneId} {ln : Lane} (hu : u.lanes = (putLane s l ln).lanes)
    (hcommitted : (laneOf s l).epochState = .committed →
      ln.epochState = .late ∧ ln.ovrCnt = satInc (laneOf s l).ovrCnt ∧ u.epoch.event = setBit s.epoch.event l.val)
    (hother : (laneOf s l).epochState ≠ .committed → ln.epochState = (laneOf s l).epochState) : OwnerLate s u l := by
  have hlane : ∀ m, laneOf u m = laneOf (putLane s l ln) m := laneOf_of_lanes (congrArg LaneBlock.lane hu)
  have hown : laneOf u l = ln := (hlane l).trans (laneOf_putLane ..)
  exact ⟨by rwa [hown], by rwa [hown], fun m hm => (hlane m).trans (laneOf_putLane_ne _ _ _ _ hm)⟩

theorem memReject_ownerLate (s : State) (l : LaneId) (b : Option Nat) : OwnerLate s (memReject s l b) l := by
  unfold memReject
  dsimp only
  split
  · next h => exact ownerLate_putLane rfl (fun _ => ⟨rfl, rfl, rfl⟩) (fun hc => absurd h hc)
  · next h => exact ownerLate_putLane rfl (fun hc => absurd (h.symm.trans hc) (by decide)) (fun _ => rfl)
  · next h => exact ownerLate_putLane rfl (fun hc => absurd (h.symm.trans hc) (by decide)) (fun _ => rfl)
  · next h _ _ => exact ownerLate_putLane rfl (fun hc => absurd hc h) (fun _ => rfl)

theorem memReject_mem (s : State) (l : LaneId) (b : Option Nat) : (memReject s l b).mem = s.mem := by
  unfold memReject
  dsimp only
  split <;> rfl

/-- A damaged block acts on its owner alone; with no sibling in V the lane abstains besides until admission. -/
theorem memRetained_of_owner {s : State} {b : Nat} {l : LaneId} (h : blockOwner s b = some l) :
    OwnerLate s (memRetained s b) l := by
  have howner := memReject_ownerLate s l (some b)
  unfold memRetained
  rw [h]
  dsimp only
  split
  · exact howner.of_putLane rfl rfl rfl rfl
  · exact howner.of_putLane (by rw [putLane_laneOf]) rfl rfl rfl

theorem memRetained_errorsKept (s : State) (b : Nat) : ErrorsKept s (memRetained s b) := by
  unfold memRetained
  split
  · exact .of_mem rfl
  · next l _ =>
    have hmem := memReject_mem s l (some b)
    dsimp only
    split
    · exact ⟨by rw [hmem]; rfl, fun hs => by simp [putLane, hmem, hs]⟩
    · exact ⟨by rw [hmem], fun hs => by rw [hmem, hs]⟩

theorem memExchange_mem (s : State) (o : Nat) : (memExchange s o).mem = s.mem := by
  unfold memExchange
  dsimp only
  split
  · rfl
  · exact memReject_mem ..

/-! ### The areas of Table 6.7 -/

/-- The lane whose partition holds an address stops; elsewhere nothing does. -/
def partitionStopped (s : State) (a : Nat) : State := match partOwner s a with
  | some l => memStopLane s l
  | none => s

theorem partitionStopped_of_owner {s : State} {a : Nat} {l : LaneId} (h : partOwner s a = some l) :
    partitionStopped s a = memStopLane s l := by
  simp only [partitionStopped, h]

theorem partitionStopped_mem (s : State) (a : Nat) : (partitionStopped s a).mem = s.mem := by
  unfold partitionStopped
  split
  · exact memStopLane_mem s _
  · rfl

theorem memEffect_errorsKept (s : State) (x : MemLoc) (dirty : Bool) : ErrorsKept s (memEffect s x dirty) := by
  have howner := partitionStopped_mem s x.offset
  unfold memEffect
  dsimp only
  split
  · exact .of_mem howner
  · exact .of_mem (selvedgeFail_mem s)
  · exact .of_mem rfl
  · exact .of_mem (memStaging_mem s _)
  · exact .of_mem howner
  · split
    · exact .of_mem howner
    · exact .of_mem rfl
  · exact .of_mem (memTcm_mem s _)
  · exact .of_mem (memTcm_mem s _)
  · exact .of_mem (memImage_mem s)
  · exact .of_mem (memImage_mem s)
  · exact .of_mem rfl
  · split
    · exact memRetained_errorsKept s _
    · split
      · exact .of_mem (memExchange_mem s _)
      · exact .of_mem rfl
  · exact .of_mem rfl

theorem memEffect_partition {s : State} {a : Nat} {l : LaneId} (h : partOwner s a = some l) (dirty : Bool) :
    memEffect s ⟨1, a⟩ dirty = memStopLane s l :=
  partitionStopped_of_owner h

theorem memEffect_retained (s : State) {o : Nat} (h : o < 0x200000) (dirty : Bool) :
    memEffect s ⟨0x0D, o⟩ dirty = memRetained s (o % 0x100000 / 0x1000) :=
  if_pos h

/-! ### What an uncorrectable error shows (R229, R230) -/

/-- What every uncorrectable error leaves: the counters as `countUe` has them, and the location and the epoch shown. -/
theorem memUncorrectable_shown (s : State) (x : MemLoc) (dirty : Bool) :
    let t := memUncorrectable s x dirty
    let n := countUe s.mem x.area.toNat
    (t.mem.lastUeAddr = locAddr x ∧ t.mem.lastUeArea = x.area.toNat ∧ t.mem.lastUeEpoch = s.epoch.no) ∧
      (t.mem.dramCe = n.dramCe ∧ t.mem.dramUe = n.dramUe ∧ t.mem.pisUe = n.pisUe) ∧
      (s.mem.upsets = [] → t.mem.upsets = []) := by
  obtain ⟨hrest, hsound⟩ := memEffect_errorsKept (ueNoted s x) x dirty
  have hnoted := congrArg State.mem (ueNoted_rest s x)
  rw [memUncorrectable_eq]
  refine ⟨?_, ?_, fun h => hsound ?_⟩
  · rw [hrest, hnoted]
    exact ⟨rfl, rfl, rfl⟩
  · rw [hrest, hnoted]
    exact ⟨rfl, rfl, rfl⟩
  · rw [hnoted]
    exact (countUe_upsets ..).trans h

end Sys2Proof.Machine

/-! The two scrubbers (R228): the patrol of the DRAM and the pass over the process-image SRAM, where the memories are sound or hold
one wrong bit in the burst that is read. -/

namespace Sys2Proof.Machine

open Sys2Proof

theorem meet_of_sound {s : State} (hit : Upset → Bool) (h : s.mem.upsets = []) : meet s hit = s := by
  simp [meet, h]

/-! ### The patrol -/

/-- The burst that the patrol reads next. -/
def patrolLoc (s : State) : MemLoc := ⟨BitVec.ofNat 8 (dramArea (s.mem.scrubBurst * 64)), s.mem.scrubBurst * 64⟩

/-- `t`, with the position of the patrol moved on from where `s` has it. -/
def patrolMoved (s t : State) : State := { t with mem := { t.mem with
  scrubBurst := if patrolBursts ≤ s.mem.scrubBurst + 1 then 0 else s.mem.scrubBurst + 1
  scrubPasses := if patrolBursts ≤ s.mem.scrubBurst + 1 then satInc t.mem.scrubPasses else t.mem.scrubPasses } }

theorem dramArea_le (a : Nat) : dramArea a ≤ 4 := by
  unfold dramArea
  repeat' split
  all_goals omega

theorem patrolLoc_area (s : State) : (patrolLoc s).area.toNat = dramArea (s.mem.scrubBurst * 64) := by
  have := dramArea_le (s.mem.scrubBurst * 64)
  simp only [patrolLoc, BitVec.toNat_ofNat]
  omega

theorem patrolLoc_area_le (s : State) : (patrolLoc s).area.toNat ≤ 4 := by
  rw [patrolLoc_area]
  exact dramArea_le _

/-- A DRAM address stands for itself. -/
theorem locAddr_dram {x : MemLoc} (h : x.area.toNat ≤ 4) : locAddr x = x.offset := by
  unfold locAddr
  split <;> omega

theorem patrolLoc_partition {s : State} (h : s.mem.scrubBurst * 64 < 0x390000000) :
    patrolLoc s = ⟨1, s.mem.scrubBurst * 64⟩ := by
  rw [patrolLoc, dramArea, if_pos h]
  rfl

theorem patrolLoc_selvedge {s : State} (hlo : 0x390000000 ≤ s.mem.scrubBurst * 64) (hhi : s.mem.scrubBurst * 64 < 0x3B0000000) :
    patrolLoc s = ⟨2, s.mem.scrubBurst * 64⟩ := by
  rw [patrolLoc, dramArea, if_neg (by omega), if_pos hhi]
  rfl

theorem patrolLoc_packet {s : State} (hlo : 0x3B0000000 ≤ s.mem.scrubBurst * 64) (hhi : s.mem.scrubBurst * 64 < 0x3F0000000) :
    patrolLoc s = ⟨3, s.mem.scrubBurst * 64⟩ := by
  rw [patrolLoc, dramArea, if_neg (by omega), if_neg (by omega), if_pos hhi]
  rfl

section Patrol

variable {s : State} (hrun : running s 7 = true)

include hrun

theorem exec_patrolScrub (err : MemErr) : exec (.patrolScrub err) s = .next (patrolMoved s
    (meet (memFound s (patrolLoc s) err) (upsetIn (dramArea (s.mem.scrubBurst * 64)) (s.mem.scrubBurst * 64) 64))) := by
  refine (live_of_running _ hrun).trans ?_
  simp only [decide_eq_true_eq]
  rfl

/-- Where what the read found leaves no wrong word, the burst holds nothing else. -/
theorem exec_patrolScrub_sound {err : MemErr} (h : (memFound s (patrolLoc s) err).mem.upsets = []) :
    exec (.patrolScrub err) s = .next (patrolMoved s (memFound s (patrolLoc s) err)) := by
  rw [exec_patrolScrub hrun, meet_of_sound _ h]

end Patrol

@[simp] theorem laneOf_patrolMoved (s t : State) (l : LaneId) : laneOf (patrolMoved s t) l = laneOf t l := rfl

@[simp] theorem patrolMoved_mbox (s t : State) : (patrolMoved s t).mbox = t.mbox := rfl

@[simp] theorem patrolMoved_pkt (s t : State) : (patrolMoved s t).pkt = t.pkt := rfl

theorem patrolMoved_shown (s t : State) :
    let u := patrolMoved s t
    (u.mem.lastUeAddr = t.mem.lastUeAddr ∧ u.mem.lastUeArea = t.mem.lastUeArea ∧ u.mem.lastUeEpoch = t.mem.lastUeEpoch) ∧
      u.mem.dramUe = t.mem.dramUe ∧ u.mem.dramCe = t.mem.dramCe := by
  unfold patrolMoved
  exact ⟨⟨rfl, rfl, rfl⟩, rfl, rfl⟩

/-- From `s` to `t` an error of the DRAM is corrected: it counts as such and changes no data. -/
structure DramCorrected (s t : State) : Prop where
  dramCe : t.mem.dramCe = satInc s.mem.dramCe
  dramUe : t.mem.dramUe = s.mem.dramUe
  dram : t.mem.dram = s.mem.dram
  rest : t = { s with mem := t.mem, mor := t.mor }

namespace DramCorrected

theorem of_memCorrected (s : State) {x : MemLoc} (h : x.area.toNat ≤ 4) : DramCorrected s (memCorrected s x) := by
  have hrest := memCorrected_rest s x
  rw [countCe_dram _ h] at hrest
  generalize memCorrected s x = t at hrest ⊢
  rw [hrest]
  exact ⟨rfl, rfl, rfl, rfl⟩

theorem of_upsets {s t : State} {us : List Upset} (h : DramCorrected { s with mem := { s.mem with upsets := us } } t) :
    DramCorrected s t :=
  ⟨h.dramCe, h.dramUe, h.dram, h.rest⟩

theorem moved {s t : State} (v : State) (h : DramCorrected s t) : DramCorrected s (patrolMoved v t) :=
  ⟨h.dramCe, h.dramUe, h.dram, congrArg (patrolMoved v) h.rest⟩

end DramCorrected

/-- What an uncorrectable error of a partition does to the lanes (Table 6.7). -/
theorem memUncorrectable_partition {s : State} {a : Nat} {l : LaneId} (howner : partOwner s a = some l) :
    let t := memUncorrectable s ⟨1, a⟩ true
    (laneOf t l).epochState ≠ .waitSeal ∧ (laneOf t l).epochState ≠ .compute ∧ ∀ l', l' ≠ l → laneOf t l' = laneOf s l' := by
  have howner' : partOwner (ueNoted s ⟨1, a⟩) a = some l := by
    rw [ueNoted_rest]
    exact howner
  rw [memUncorrectable_eq, memEffect_partition howner']
  obtain ⟨hwait, hcompute⟩ := memStopLane_not_going (ueNoted s ⟨1, a⟩) l
  exact ⟨hwait, hcompute, fun l' hl => (laneOf_memStopLane_ne _ hl).trans (laneOf_ueNoted ..)⟩

theorem memUncorrectable_selvedge (s : State) (a : Nat) : (memUncorrectable s ⟨2, a⟩ true).mbox.failed = true :=
  selvedgeFail_failed _

theorem memUncorrectable_packet (s : State) (a : Nat) :
    (memUncorrectable s ⟨3, a⟩ true).pkt.bufUe = satInc s.pkt.bufUe := by
  change (memPacket (ueNoted s ⟨3, a⟩)).pkt.bufUe = _
  rw [memPacket_bufUe, ueNoted_rest]

/-- A single wrong bit that an access meets is corrected, and the word is right again. -/
theorem meetOne_single (s : State) {u : Upset} (hone : u.double = false) (hcache : u.loc.area ≠ 0x07) :
    meetOne s u = memCorrected { s with mem := { s.mem with upsets := s.mem.upsets.erase u } } u.loc := by
  have hstays : stays u = false := by simp [stays, hone]
  unfold meetOne
  dsimp only
  rw [hstays, hone, if_neg hcache, if_neg Bool.false_ne_true, if_neg Bool.false_ne_true]

theorem meet_of_single {s : State} {u : Upset} {hit : Upset → Bool} (hups : s.mem.upsets = [u]) (h : hit u = true) :
    meet s hit = meetOne s u := by
  simp [meet, hups, h]

/-- The upset lies in the burst that the patrol reads next. -/
def InBurst (s : State) (u : Upset) : Prop :=
  u.loc.area.toNat = dramArea (s.mem.scrubBurst * 64) ∧ u.loc.offset / 64 = s.mem.scrubBurst

theorem InBurst.upsetIn {s : State} {u : Upset} (h : InBurst s u) :
    upsetIn (dramArea (s.mem.scrubBurst * 64)) (s.mem.scrubBurst * 64) 64 u = true := by
  obtain ⟨harea, hburst⟩ := h
  simp only [Machine.upsetIn, harea, beq_self_eq_true, Bool.true_and, Bool.and_eq_true, decide_eq_true_eq]
  omega

theorem InBurst.area_le {s : State} {u : Upset} (h : InBurst s u) : u.loc.area.toNat ≤ 4 := by
  rw [h.1]
  exact dramArea_le _

theorem exec_patrolScrub_single {s : State} {u : Upset} (hrun : running s 7 = true) (hups : s.mem.upsets = [u])
    (hone : u.double = false) (hin : InBurst s u) :
    let t := patrolMoved s (memCorrected { s with mem := { s.mem with upsets := [] } } u.loc)
    exec (.patrolScrub .none) s = .next t ∧ t.mem.upsets = [] ∧ DramCorrected s t := by
  have hcache : u.loc.area ≠ 0x07 := fun h => absurd (h ▸ hin.area_le) (by decide)
  have hgone : s.mem.upsets.erase u = [] := by simp [hups]
  refine ⟨?_, memCorrected_upsets .., (DramCorrected.of_memCorrected _ hin.area_le).of_upsets.moved s⟩
  rw [exec_patrolScrub hrun, memFound, meet_of_single hups hin.upsetIn, meetOne_single s hone hcache, hgone]

/-- What an uncorrectable error that the patrol finds shows, whatever the area. -/
theorem exec_patrolScrub_uncorrectable {s : State} (hrun : running s 7 = true) (hsound : s.mem.upsets = []) :
    let a := s.mem.scrubBurst * 64
    let t := patrolMoved s (memUncorrectable s (patrolLoc s) true)
    exec (.patrolScrub .uncorrectable) s = .next t ∧
      (t.mem.lastUeAddr = a ∧ t.mem.lastUeArea = dramArea a ∧ t.mem.lastUeEpoch = s.epoch.no) ∧
      t.mem.dramUe = satInc s.mem.dramUe ∧ t.mem.dramCe = s.mem.dramCe := by
  intro a t
  have hle := patrolLoc_area_le s
  obtain ⟨⟨haddr, harea, hepoch⟩, ⟨hce, hue, -⟩, hups⟩ := memUncorrectable_shown s (patrolLoc s) true
  obtain ⟨⟨hmaddr, hmarea, hmepoch⟩, hmue, hmce⟩ := patrolMoved_shown s (memUncorrectable s (patrolLoc s) true)
  rw [countUe_dram _ hle] at hce hue
  exact ⟨exec_patrolScrub_sound hrun (hups hsound),
    ⟨hmaddr.trans (haddr.trans (locAddr_dram hle)), hmarea.trans (harea.trans (patrolLoc_area s)), hmepoch.trans hepoch⟩,
    hmue.trans hue, hmce.trans hce⟩

/-! ### The pass over the process-image SRAM -/

theorem scrubbed_pis (s : State) {x : MemLoc} (hx : x.offset < scrubSize x.area.toNat) (hpis : 10 ≤ x.area.toNat) :
    scrubbed s x = true := by
  simp [scrubbed, hx, hpis]

section Sram

variable {s : State} (hrun : running s 2 = true) (hsound : s.mem.upsets = [])

include hrun

include hsound in
theorem exec_sramScrub_nil : exec (.sramScrub []) s = .next s :=
  (live_of_running _ hrun).trans (congrArg _ (meet_of_sound _ hsound))

theorem exec_sramScrub_one {x : MemLoc} {err : MemErr} (hx : scrubbed s x = true) (h : (memFound s x err).mem.upsets = []) :
    exec (.sramScrub [(x, err)]) s = .next (memFound s x err) := by
  refine (live_of_running _ hrun).trans (congrArg _ ?_)
  dsimp only [List.foldl]
  rw [if_pos hx]
  exact meet_of_sound _ h

end Sram

theorem memCorrected_pis (s : State) {x : MemLoc} (h : 10 ≤ x.area.toNat) :
    let t := memCorrected s x
    t.mem.pisCe = satInc s.mem.pisCe ∧
      t = { s with mem := { s.mem with pisCe := t.mem.pisCe, ceCount := t.mem.ceCount }, mor := t.mor } := by
  rw [memCorrected_rest, countCe_pis _ h]
  exact ⟨rfl, rfl⟩

theorem memUncorrectable_image (s : State) {x : MemLoc} (hx : x.area = 0x0A ∨ x.area = 0x0B) :
    memUncorrectable s x true = memImage (ueNoted s x) := by
  obtain ⟨area, o⟩ := x
  rcases hx with rfl | rfl <;> rfl

theorem memUncorrectable_image_spec (s : State) {x : MemLoc} (hx : x.area = 0x0A ∨ x.area = 0x0B) :
    let t := memUncorrectable s x true
    t.epoch.abstainAll = true ∧ t.epoch.noRaw = true ∧ (∀ g : GroupId, t.weft.ownDigest[g] = none) ∧
      (∀ sd, (linkOf t sd).txq = (linkOf s sd).txq.filter (fun f => f.type != 0x10)) ∧
      ∀ l, laneOf t l = rejectedLane { laneOf s l with readStale := true } := by
  have hlinks : ∀ sd, linkOf (ueNoted s x) sd = linkOf s sd := by
    rw [ueNoted_rest]
    intro sd
    cases sd <;> rfl
  rw [memUncorrectable_image s hx]
  obtain ⟨hall, hraw, hdigest, htxq, hlane⟩ := memImage_spec (ueNoted s x)
  exact ⟨hall, hraw, hdigest, fun sd => (htxq sd).trans (by rw [hlinks]), fun l => (hlane l).trans (by rw [laneOf_ueNoted])⟩

theorem memUncorrectable_retained {s : State} {x : MemLoc} {l : LaneId} (hx : x.area = 0x0D) (hlo : x.offset < 0x200000)
    (howner : blockOwner s (x.offset % 0x100000 / 0x1000) = some l) : OwnerLate s (memUncorrectable s x true) l := by
  obtain ⟨area, o⟩ := x
  obtain rfl : area = 0x0D := hx
  have howner' : blockOwner (ueNoted s ⟨0x0D, o⟩) (o % 0x100000 / 0x1000) = some l := by
    rw [ueNoted_rest]
    exact howner
  have hevent : (ueNoted s ⟨0x0D, o⟩).epoch = s.epoch := by rw [ueNoted_rest]
  rw [memUncorrectable_eq, memEffect_retained _ hlo]
  obtain ⟨hcommitted, hother, hlanes⟩ := memRetained_of_owner howner'
  simp only [laneOf_ueNoted, hevent] at hcommitted hother hlanes
  exact ⟨hcommitted, hother, hlanes⟩

theorem memUncorrectable_output {s : State} {x : MemLoc} {g : GroupId} {d : Group} (hx : x.area = 0x0C)
    (hd : s.maps.group[g] = some d) (hlo : d.offset ≤ x.offset) (hhi : x.offset < d.offset + d.length) :
    let t := memUncorrectable s x true
    t.epoch.abstainGroups.getLsbD g.val = true ∧ t.weft.ownDigest[g] = none := by
  obtain ⟨area, o⟩ := x
  obtain rfl : area = 0x0C := hx
  have hd' : (ueNoted s ⟨0x0C, o⟩).maps.group[g] = some d := by
    rw [ueNoted_rest]
    exact hd
  exact memOutput_abstains hd' hlo hhi

/-! ### The statement -/

/-- Settles O36, scrubber by scrubber: the position of the patrol moves on beside what the read found, and an uncorrectable error
is shown and then acts by the area that holds it. -/
theorem memoryErrorResult : Obligations.MemoryErrorResult := by
  refine ⟨fun s hrun hsound => ⟨?_, ?_, ?_⟩, fun s u hrun hups hone harea hburst => ?_,
    fun s x hrun hsound hx hpis => ⟨exec_sramScrub_nil hrun hsound, ?_, ?_⟩⟩
  · exact ⟨_, exec_patrolScrub_sound hrun hsound, rfl, rfl, rfl⟩
  · obtain ⟨hce, hue, hdram, hframe⟩ := (DramCorrected.of_memCorrected s (patrolLoc_area_le s)).moved s
    have hexec := exec_patrolScrub_sound hrun (err := .correctable) ((memCorrected_upsets ..).trans hsound)
    exact ⟨_, hexec, rfl, hce, hue, hdram, hframe⟩
  · obtain ⟨hexec, ⟨haddr, harea, hepoch⟩, hue, hce⟩ := exec_patrolScrub_uncorrectable hrun hsound
    refine ⟨_, hexec, rfl, hue, hce, haddr, harea, hepoch, fun l hlt howner _ => ?_, fun hlo hhi => ?_, fun hlo hhi => ?_⟩
    · simp only [laneOf_patrolMoved]
      rw [patrolLoc_partition hlt]
      exact memUncorrectable_partition howner
    · rw [patrolMoved_mbox, patrolLoc_selvedge hlo hhi]
      exact memUncorrectable_selvedge s _
    · rw [patrolMoved_pkt, patrolLoc_packet hlo hhi]
      exact memUncorrectable_packet s _
  · obtain ⟨hexec, hups', hce, hue, -, hframe⟩ := exec_patrolScrub_single hrun hups hone ⟨harea, hburst⟩
    exact ⟨_, hexec, hups', hce, hue, hframe⟩
  · exact ⟨_, exec_sramScrub_one hrun (err := .correctable) (scrubbed_pis s hx hpis) ((memCorrected_upsets ..).trans hsound),
      memCorrected_pis s hpis⟩
  · obtain ⟨⟨haddr, harea, hepoch⟩, ⟨-, -, hue⟩, hups⟩ := memUncorrectable_shown s x true
    rw [countUe_pis _ hpis] at hue
    refine ⟨_, exec_sramScrub_one hrun (err := .uncorrectable) (scrubbed_pis s hx hpis) (hups hsound), hue, haddr, harea, hepoch,
      memUncorrectable_image_spec s, fun hret hlo l howner => ?_, fun hout g d hd hlo hhi => memUncorrectable_output hout hd hlo hhi⟩
    obtain ⟨hcommitted, hother, hlanes⟩ := memUncorrectable_retained hret hlo howner
    exact ⟨hcommitted, hother, hlanes⟩

end Sys2Proof.Machine

/-! A mailbox request in service (R249, R250, R254, Tables 7.5 and 7.8): its turn, its response, the requests behind it that are
answered as their turn comes, and the first check that it fails. -/

namespace Sys2Proof.Machine

open Sys2Proof

/-! ### A request in its turn -/

theorem Served.messaged {s u : State} {pair : PairId} (h : Served s u pair) : Messaged s u := by
  rw [h.same]
  exact ⟨rfl, fun sd => by cases sd <;> rfl, fun _ => rfl⟩

/-- In its turn a request that carries the command's code runs. -/
theorem serve_of_turn {s : State} {pair : PairId} {c : CmdSpec} (body : Body) (hturn : mboxTurn s = some pair.val)
    (hcode : (requestOf s pair.val).command = c.code) :
    serve s pair c body
      = .next (mboxAuto (runRequest (beginService s pair.val) pair.val (requestOf s pair.val) c body)) := by
  simp only [serve, hturn, hcode, decide_true, beq_self_eq_true, Bool.and_self, if_true]

theorem served_closeOther (s : State) (pair : PairId) (r : Request) :
    Served s (closeOther (beginService s pair.val) pair.val r) pair := by
  have hb := served_beginService s pair
  unfold closeOther
  split
  · exact served_discard hb
  · exact hb

/-! ### Responses -/

theorem pairAt_mboxEvent_if (p : Prop) [Decidable p] (s : State) (bit j : Nat) :
    pairAt (if p then mboxEvent s bit else s) j = pairAt s j := by
  split <;> rfl

/-- The response to a request, whatever its status: a failed CRC alone is answered with LEVEL as received (R241). -/
theorem pairAt_respond_message (s : State) (i : Nat) (r : Request) (a : Answer) (hi : i < 24) :
    let p := pairAt (respond s i r a) i
    p.state = .done ∧ p.job = none ∧ p.rsp = slotOf (messageBytes (if a.status = stCrc then r.level else (pairAt s i).level.toNat)
      1 r.command r.tag a.status (if (pairAt s i).level.toNat ≤ 1 then 0 else a.detail) a.payload) := by
  unfold respond
  dsimp only
  split
  · simp [pairAt_deliverItem, pairAt_putPair _ _ _ hi, pairAt_mboxEvent_if]
  · obtain ⟨x, hx⟩ := pairAt_mboxSend (if a.status = stCrc then mboxEvent (putPair s i _) 0 else putPair s i _) i _ hi
    rw [hx]
    simp [pairAt_putPair _ _ _ hi, pairAt_mboxEvent_if]

/-- What a response leaves of its pair: the level and the binding, the subscription, and what waits for the lane. -/
structure ResponseKeeps (p q : MailPair) : Prop where
  level : q.level = p.level
  bound : q.bound = p.bound
  req : q.req = p.req
  deliverTo : q.deliverTo = p.deliverTo
  subs : q.subs = p.subs
  noticeCnt : q.noticeCnt = p.noticeCnt
  notice : q.notice = p.notice

theorem pairAt_respond_keeps (s : State) (i : Nat) (r : Request) (a : Answer) (hi : i < 24) :
    ResponseKeeps (pairAt s i) (pairAt (respond s i r a) i) := by
  unfold respond
  dsimp only
  split
  · constructor <;> simp [pairAt_deliverItem, pairAt_putPair _ _ _ hi, pairAt_mboxEvent_if]
  · obtain ⟨x, hx⟩ := pairAt_mboxSend (if a.status = stCrc then mboxEvent (putPair s i _) 0 else putPair s i _) i _ hi
    rw [hx]
    constructor <;> simp [pairAt_putPair _ _ _ hi, pairAt_mboxEvent_if]

/-! ### The requests behind (R250, R254) -/

/-- What answering one request that repeats, and one whose code is not defined, both keep, answering all of them keeps. -/
theorem mboxAutoN_keeps {P : State → Prop}
    (hrepeat : ∀ t i, P t → mboxTurn t = some i → laneRepeats t i = true → P (repeatLane t i))
    (hunknown : ∀ t i, P t → mboxTurn t = some i → definedCommand (requestOf t i).command = false → P (answerUnknown t i))
    (k : Nat) {s : State} (hs : P s) : P (mboxAutoN k s) := by
  induction k generalizing s with
  | zero => exact hs
  | succ k ih =>
    unfold mboxAutoN
    split
    · next i hturn =>
      split
      · next hrep => exact ih (hrepeat s i hs hturn hrep)
      · split
        · exact hs
        · next hdef => exact ih (hunknown s i hs hturn (by simpa using hdef))
    · exact hs

theorem pairAt_repeatLane_ne {s : State} {i j : Nat} (h : i ≠ j) : pairAt (repeatLane s i) j = pairAt s j := by
  unfold repeatLane
  rw [pairAt_deliverItem, pairAt_putPair_ne _ _ _ _ h, pairAt_putPair_ne _ _ _ _ h, pairAt_beginService_ne _ _ _ h]

theorem pairAt_answerUnknown_ne {s : State} {i j : Nat} (h : i ≠ j) : pairAt (answerUnknown s i) j = pairAt s j := by
  unfold answerUnknown
  dsimp only
  rw [pairAt_respond_ne _ _ _ _ _ h, pairAt_closeOther_ne _ _ _ _ h, pairAt_beginService_ne _ _ _ h]

/-- A pair that waits for nothing, or for the service of a defined command that is no repeat, stays as it is. -/
theorem pairAt_mboxAuto {s : State} {j : Nat}
    (h : (pairAt s j).state = .pending → laneRepeats s j = false ∧ definedCommand (requestOf s j).command = true) :
    pairAt (mboxAuto s) j = pairAt s j := by
  have hsame : ∀ {t : State}, pairAt t j = pairAt s j → laneRepeats t j = laneRepeats s j ∧ requestOf t j = requestOf s j :=
    fun {t} ht => by
      have hreq : requestOf t j = requestOf s j := by simp only [requestOf, messageOf, ht]
      exact ⟨by simp only [laneRepeats, hreq, ht], hreq⟩
  refine mboxAutoN_keeps (P := fun t => pairAt t j = pairAt s j) (fun t i ht hturn hrep => ?_)
    (fun t i ht hturn hunk => ?_) 24 rfl
  · by_cases hij : i = j
    · subst hij
      have hno := (h (ht ▸ (mboxTurn_pending t i hturn).1)).1
      rw [(hsame ht).1, hno] at hrep
      cases hrep
    · exact (pairAt_repeatLane_ne hij).trans ht
  · by_cases hij : i = j
    · subst hij
      have hyes := (h (ht ▸ (mboxTurn_pending t i hturn).1)).2
      rw [(hsame ht).2, hyes] at hunk
      cases hunk
    · exact (pairAt_answerUnknown_ne hij).trans ht

theorem pairAt_mboxAuto_settled {s : State} {j : Nat} (h : (pairAt s j).state ≠ .pending) :
    pairAt (mboxAuto s) j = pairAt s j :=
  pairAt_mboxAuto fun hp => absurd hp h

theorem messaged_mboxAuto (s : State) : Messaged s (mboxAuto s) :=
  (messagedClosed_mboxAutoN 24 s).messaged

/-- A response, and the requests behind it: the pair is DONE with the message, and only messages have moved. -/
theorem mboxAuto_respond (s : State) (i : Nat) (r : Request) (a : Answer) (hi : i < 24) :
    let t := mboxAuto (respond s i r a)
    pairAt t i = pairAt (respond s i r a) i ∧ Messaged s t := by
  have hdone := (pairAt_respond_message s i r a hi).1
  exact ⟨pairAt_mboxAuto_settled (by rw [hdone]; simp), (messaged_respond s i r a).trans (messaged_mboxAuto _)⟩

/-! ### The first checks of a request (R249, Table 7.8) -/

/-- A request that fails one of the checks 1 to 4 is answered with that check's status, and its command has no effect. -/
theorem serve_headerRefused {s : State} {pair : PairId} {c : CmdSpec} (body : Body) {st : Nat}
    (hturn : mboxTurn s = some pair.val) (hcode : (requestOf s pair.val).command = c.code)
    (hcheck : ∀ u, Served s u pair →
      headerCheck u pair.val (requestOf s pair.val) (c.code == 0x0100) c.segmented = some st) :
    ∃ t, serve s pair c body = .next t ∧ (pairAt t pair.val).state = .done ∧
      (pairAt t pair.val).rsp = slotOf (messageBytes
        (if st = stCrc then (requestOf s pair.val).level else (pairAt s pair.val).level.toNat) 1 (requestOf s pair.val).command
        (requestOf s pair.val).tag st 0 []) ∧
      Messaged s t := by
  have hu := served_closeOther s pair (requestOf s pair.val)
  refine ⟨_, serve_of_turn body hturn hcode, ?_⟩
  simp only [runRequest, hcheck _ hu]
  generalize closeOther _ _ _ = u at hu
  obtain ⟨hpair, hmsg⟩ := mboxAuto_respond u pair.val (requestOf s pair.val) (failWith st) pair.isLt
  obtain ⟨hdone, -, hrsp⟩ := pairAt_respond_message u pair.val (requestOf s pair.val) (failWith st) pair.isLt
  have hlevel : (pairAt u pair.val).level = (pairAt s pair.val).level := by rw [hu.own]
  refine ⟨by rw [hpair, hdone], ?_, hu.messaged.trans hmsg⟩
  rw [show (failWith st).detail = 0 from rfl, ite_self, hlevel] at hrsp
  exact (congrArg MailPair.rsp hpair).trans hrsp

/-- The status of a request that fails a check of Table 7.8 before its command is looked at; HELLO alone takes other levels than
the pair's. -/
theorem headerCheck_refuses {u : State} {i : Nat} {r : Request} {own st : Nat} (hown : own = (pairAt u i).level.toNat)
    (segmented : Bool)
    (h : (r.crcOk = false ∧ st = 10) ∨ (r.crcOk = true ∧ r.lengthOk = false ∧ st = 3) ∨
      (r.crcOk = true ∧ r.lengthOk = true ∧ r.level ≠ own ∧ st = 7) ∨
      (r.crcOk = true ∧ r.lengthOk = true ∧ r.level = own ∧
        (bitOf r.flags 0 = true ∨ bitOf r.flags 2 = true ∨ r.flags / 8 ≠ 0 ∨ r.reserved ≠ 0) ∧ st = 4)) :
    headerCheck u i r false segmented = some st := by
  subst hown
  obtain ⟨hcrc, rfl⟩ | ⟨hcrc, hlen, rfl⟩ | ⟨hcrc, hlen, hlevel, rfl⟩ | ⟨hcrc, hlen, hlevel, hbad, rfl⟩ := h
  · simp [headerCheck, hcrc, stCrc]
  · simp [headerCheck, hcrc, hlen, stLength]
  · simp [headerCheck, hcrc, hlen, hlevel, stVersion]
  · have : (bitOf r.flags 0 || bitOf r.flags 2 || r.flags / 8 != 0 || r.status != 0 || r.reserved != 0
        || (bitOf r.flags 1 && !moreAllowed u i segmented)) = true := by
      obtain h | h | h | h := hbad <;> simp [h]
    simp [headerCheck, hcrc, hlen, hlevel, this, stParam]

/-- The command of a mailbox pair is the service of requests with one code, which is not HELLO's. -/
structure ServesCode (command : PairId → Instr) (code : Nat) : Prop where
  noHello : code ≠ 0x0100
  serves : ∀ pair s, ∃ c body, exec (command pair) s = serve s pair c body ∧ c.code = code

/-- Settles O25: the checks 1 to 4 of Table 7.8 come before anything of the command, for every command alike. -/
theorem requestCheckOrder : Obligations.RequestCheckOrder := by
  intro row hrow
  have hserves : ServesCode row.1 row.2 := by
    revert row
    simp only [List.forall_mem_cons, List.not_mem_nil, false_implies, implies_true, and_true]
    and_intros <;> exact ⟨by decide, fun _ _ => ⟨_, _, rfl, rfl⟩⟩
  intro pair s hturn hcommand r own st hst
  obtain ⟨c, body, hexec, hcode⟩ := hserves.serves pair s
  have hcheck : ∀ u, Served s u pair → headerCheck u pair.val r (c.code == 0x0100) c.segmented = some st := by
    intro u hu
    have hlevel : own = (pairAt u pair.val).level.toNat := by rw [hu.own]
    rw [show (c.code == 0x0100) = false by simpa [hcode] using hserves.noHello]
    exact headerCheck_refuses hlevel c.segmented hst
  rw [hexec]
  exact serve_headerRefused body hturn (hcommand.trans hcode.symm) hcheck

end Sys2Proof.Machine

/-! What reaches the mailboxes beside a service (R239, R242, R243, R245, R254, R267, R268, Table 7.4): doorbells, aborts, requests
as they arrive, and notices that were held. -/

namespace Sys2Proof.Machine

open Sys2Proof

/-! ### Doorbells (R245, Table 7.4) -/

theorem messaged_mboxIgnored (s : State) (i : Nat) : Messaged s (mboxIgnored s i) :=
  (messaged_putPair s i _).trans (messagedClosed_mboxEvent _ 1).messaged

theorem mboxDoorbell_abort {s : State} {i : Nat} {data : U32} (hdata : data.getLsbD 1 = true)
    (hstate : (pairAt s i).state = .armed ∨ (pairAt s i).state = .pending) :
    mboxDoorbell s i data = putPair s i { pairAt s i with state := .idle } :=
  if_pos (by simpa [hdata] using hstate)

theorem mboxDoorbell_ring {s : State} {i : Nat} {data : U32} (habort : data.getLsbD 1 = false) (hring : data.getLsbD 0 = true) :
    mboxDoorbell s i data = mboxRing s i := by
  simp only [mboxDoorbell, habort, hring, Bool.false_and, Bool.false_eq_true, if_false, if_true]

/-- The pair that serves a lane's requests. -/
theorem laneBell (l : LaneId) : (decide (2 * l.val < 16) && 2 * l.val % 2 == 0) = true := by
  have := l.isLt
  simp
  omega

theorem mboxRing_free {s : State} {l : LaneId}
    (h : (pairAt s (2 * l.val)).state = .idle ∨ (pairAt s (2 * l.val)).state = .done) :
    mboxRing s (2 * l.val) = putPair s (2 * l.val) { pairAt s (2 * l.val) with
      state := .armed, wasDone := decide ((pairAt s (2 * l.val)).state = .done) } := by
  refine (if_pos (laneBell l)).trans ?_
  rcases h with h | h <;> simp [h]

theorem mboxRing_occupied {s : State} {l : LaneId}
    (h : (pairAt s (2 * l.val)).state = .armed ∨ (pairAt s (2 * l.val)).state = .serving) :
    mboxRing s (2 * l.val) = mboxIgnored s (2 * l.val) := by
  refine (if_pos (laneBell l)).trans ?_
  rcases h with h | h <;> simp [h]

/-- A pair is replaced by one that waits for nothing, and the requests behind are answered. -/
theorem mboxAuto_putPair {s t : State} {i : Nat} {p : MailPair} (ht : pairAt t i = p) (hmsg : Messaged s t)
    (hp : p.state ≠ .pending) : pairAt (mboxAuto t) i = p ∧ Messaged s (mboxAuto t) :=
  ⟨(pairAt_mboxAuto_settled (by rwa [ht])).trans ht, hmsg.trans (messaged_mboxAuto t)⟩

/-! ### A request arrives (R239, R242, R243, R254) -/

theorem exec_mbRequestArrive {s : State} {pair : PairId} (src : NetAddr) (port : Option (Fin 4)) (m : List Byte)
    (hpair : 16 ≤ pair.val) (hserves : servesPair s pair.val = true) :
    exec (.mbRequestArrive pair src port m) s = .next (mboxArrive s pair.val src port m) :=
  congrArg _ (if_pos (by simp [hpair, hserves]))

theorem putPair_putPair (s : State) (i : Nat) (p q : MailPair) : putPair (putPair s i p) i q = putPair s i q := by
  simp [putPair]

section Bound

variable {s : State} {i : Nat} {src : NetAddr} {m : List Byte} (hi : i < 22) (hbound : (pairAt s i).bound = some src)
  (hlen : 16 ≤ m.length)
include hi hbound hlen

/-- A datagram from the bound address is a repeat, or it finds its pair free, or occupied. -/
theorem mboxArrive_bound (port : Option (Fin 4)) :
    let p := { pairAt s i with lastReq := tb3 s }
    let request := mboxAuto (putPair s i { p with
      state := .pending, req := slotOf (m.take 512), rx := m, src := some src, rxPort := port })
    mboxArrive s i src port m = if isRepeat (pairAt s i) i src m then
        mboxSend (putPair s i { p with served := satInc p.served, repeats := satInc p.repeats }) i (storedResponse p)
      else match (pairAt s i).state with
        | .idle => request
        | .done => request
        | _ => mboxIgnored (putPair s i p) i := by
  have hadmits : admits s i src m = true := by simp [admits, hbound, show ¬ 22 ≤ i by omega]
  have hown : (decide (i < 22) && (pairAt s i).bound == some src) = true := by simp [hi, hbound]
  unfold mboxArrive
  rw [if_neg (by omega), if_neg (by simp [hadmits])]
  dsimp only
  rw [if_pos hown, pairAt_putPair _ _ _ (by omega), putPair_putPair, putPair_putPair]
  rfl

theorem mboxArrive_repeat (port : Option (Fin 4)) (hrepeat : isRepeat (pairAt s i) i src m = true) :
    mboxArrive s i src port m = mboxSend (putPair s i { pairAt s i with
      lastReq := tb3 s, served := satInc (pairAt s i).served, repeats := satInc (pairAt s i).repeats }) i
      (storedResponse (pairAt s i)) :=
  (mboxArrive_bound hi hbound hlen port).trans (if_pos hrepeat)

theorem mboxArrive_request (port : Option (Fin 4)) (hrepeat : isRepeat (pairAt s i) i src m = false)
    (hfree : (pairAt s i).state = .idle ∨ (pairAt s i).state = .done) :
    mboxArrive s i src port m = mboxAuto (putPair s i { pairAt s i with
      state := .pending, lastReq := tb3 s, req := slotOf (m.take 512), rx := m, src := some src, rxPort := port }) := by
  refine ((mboxArrive_bound hi hbound hlen port).trans (if_neg (by simp [hrepeat]))).trans ?_
  rcases hfree with h | h <;> rw [h]

end Bound

/-- A datagram from elsewhere than the bound address that is no HELLO is dropped and counted (R243). -/
theorem mboxArrive_elsewhere {s : State} {i : Nat} {src o : NetAddr} {m : List Byte} (port : Option (Fin 4)) (hi : i < 22)
    (hbound : (pairAt s i).bound = some o) (hne : o ≠ src) (hlen : 16 ≤ m.length) (hhello : leAt m 2 2 ≠ 0x0100) :
    mboxArrive s i src port m = mboxEvent (putPair s i { pairAt s i with crcErr := satInc (pairAt s i).crcErr }) 3 := by
  have hadmits : admits s i src m = false := by simp [admits, hbound, hne, hhello, show ¬ 22 ≤ i by omega]
  unfold mboxArrive
  rw [if_neg (by omega), if_pos (by simp [hadmits])]
  exact if_pos (by simp [hi])

/-- A network or service pair whose new request has a defined command waits for its turn. -/
theorem pairAt_mboxAuto_request {s : State} {i : Nat} (hi : 16 ≤ i)
    (hcommand : definedCommand (leAt (pairAt s i).rx 2 2) = true) : pairAt (mboxAuto s) i = pairAt s i := by
  refine pairAt_mboxAuto fun _ => ⟨by simp [laneRepeats, show ¬ i < 16 by omega], ?_⟩
  simpa [requestOf, messageOf, parseRequest, show ¬ i < 16 by omega] using hcommand

/-! ### Datagrams (R242, R243) -/

/-- What a pair sends to an address: a tagged frame on the port that brought the request, or an untagged one on the service port
(log entry 107). -/
def datagramSent (s : State) (i : Nat) (port : Option (Fin 4)) (a : NetAddr) (m : List Byte) : State :=
  let frame := fun (mac : Nat) (tci : Option Nat) (src : U32) =>
    ethFrame (macFor a.ip) mac tci none 0x0800 (udpPacket src a.ip (50100 + i) a.port.toNat m)
  if i < 20 then match port with
    | some k => enqueue s k 0 ⟨frame (Config.portMac k.val % 2 ^ 48) (some s.pkt.mgmtVid.toNat) s.pkt.mgmtIp, none, none⟩
    | none => s
  else { s with pkt := { s.pkt with svcSent := s.pkt.svcSent ++ [frame (Config.portMac 4 % 2 ^ 48) none s.pkt.svcIp] } }

theorem pairAt_datagramSent (s : State) (i : Nat) (port : Option (Fin 4)) (a : NetAddr) (m : List Byte) (j : Nat) :
    pairAt (datagramSent s i port a m) j = pairAt s j := by
  unfold datagramSent
  dsimp only
  split
  · split
    · exact pairAt_enqueue ..
    · rfl
  · rfl

section Bound

variable {s : State} {i : Nat} {a : NetAddr} (m : List Byte)

theorem mboxDatagram_bound (hbound : (pairAt s i).bound = some a) :
    mboxDatagram s i m = datagramSent (putPair s i { pairAt s i with sentTo := some a }) i (pairAt s i).rxPort a m := by
  have hdest : ((pairAt s i).bound.orElse fun _ => (pairAt s i).src) = some a := by
    rw [hbound]
    rfl
  unfold mboxDatagram
  dsimp only
  rw [hdest]
  rfl

/-- A message of a bound network or service pair is a datagram to the bound address. -/
theorem mboxSend_bound (hi : i < 22) (hbound : (pairAt s i).bound = some a) :
    mboxSend s i m
      = datagramSent (putPair s i { pairAt s i with lastSent := m, sentTo := some a }) i (pairAt s i).rxPort a m := by
  have hput : pairAt (putPair s i { pairAt s i with lastSent := m }) i = { pairAt s i with lastSent := m } :=
    pairAt_putPair _ _ _ (by omega)
  refine (if_pos hi).trans ((mboxDatagram_bound m (a := a) (by rw [hput]; exact hbound)).trans ?_)
  rw [hput, putPair_putPair]

theorem pairAt_mboxSend_bound (hi : i < 22) (hbound : (pairAt s i).bound = some a) :
    pairAt (mboxSend s i m) i = { pairAt s i with lastSent := m, sentTo := some a } := by
  rw [mboxSend_bound m hi hbound, pairAt_datagramSent, pairAt_putPair _ _ _ (by omega)]

end Bound

theorem svcSent_enqueue (s : State) (k : Fin 4) (q : Nat) (f : EthFrame) :
    (enqueue s k q f).pkt.svcSent = s.pkt.svcSent := by
  unfold enqueue
  dsimp only
  split <;> rfl

theorem queue_enqueue_first {s : State} {k : Fin 4} (f : EthFrame) (h : portTakes s.pkt.port[k] = true) :
    (enqueue s k 0 f).pkt.port[k].queue[0] = s.pkt.port[k].queue[0] ++ [f] := by
  unfold enqueue
  dsimp only
  rw [if_pos h, putPort_same]
  simp

/-- On a network pair the datagram joins the first queue of its port, if the port takes frames. -/
theorem datagramSent_network {s : State} {i : Nat} (port : Option (Fin 4)) (a : NetAddr) (m : List Byte) (hi : i < 20) :
    let t := datagramSent s i port a m
    t.pkt.svcSent = s.pkt.svcSent ∧ ∀ k, port = some k → portTakes s.pkt.port[k] = true →
      t.pkt.port[k].queue[0] = s.pkt.port[k].queue[0] ++ [⟨ethFrame (macFor a.ip) (Config.portMac k.val % 2 ^ 48)
        (some s.pkt.mgmtVid.toNat) none 0x0800 (udpPacket s.pkt.mgmtIp a.ip (50100 + i) a.port.toNat m), none, none⟩] := by
  cases port with
  | none => exact ⟨by simp [datagramSent, hi], fun k hk => by cases hk⟩
  | some p =>
    unfold datagramSent
    dsimp only
    rw [if_pos hi]
    refine ⟨svcSent_enqueue .., fun k hk htakes => ?_⟩
    obtain rfl : p = k := by simpa using hk
    exact queue_enqueue_first _ htakes

/-- On a service pair the datagram leaves on the service port. -/
theorem datagramSent_service {s : State} {i : Nat} (port : Option (Fin 4)) (a : NetAddr) (m : List Byte) (hi : 20 ≤ i) :
    (datagramSent s i port a m).pkt.svcSent = s.pkt.svcSent ++ [ethFrame (macFor a.ip) (Config.portMac 4 % 2 ^ 48) none none 0x0800
      (udpPacket s.pkt.svcIp a.ip (50100 + i) a.port.toNat m)] := by
  simp [datagramSent, show ¬ i < 20 by omega]

/-! ### A notice that was held (R267, R268) -/

theorem Messaged.tb3 {s t : State} (h : Messaged s t) : tb3 t = tb3 s := by
  rw [h.rest]
  rfl

theorem exec_eventNotice {s : State} {pair : PairId} {n : Notice} (hruns : selvedgeRuns s = true)
    (hnotice : (pairAt s pair.val).notice = some n) (hrate : noticeRate s (pairAt s pair.val) = true) :
    exec (.eventNotice pair) s = .next (sendNotice s pair.val n) := by
  refine congrArg Host.Outcome.next ?_
  simp only [hnotice, hruns, hrate, Bool.and_self, if_true]

/-- A notice that goes out is noted in its pair, with the address that it went to. -/
theorem pairAt_sendNotice {s : State} {i : Nat} (n : Notice) (hi : i < 24) :
    ∃ dest, pairAt (sendNotice s i n) i = { pairAt s i with
      lastSent := noticeBytes (pairAt s i) n, noticeCnt := (pairAt s i).noticeCnt + 1, notice := none
      noticeLost := 0, lastNotice := some (tb3 s), sentTo := dest } ∧
      ∀ a, i < 22 → (pairAt s i).bound = some a → dest = some a := by
  have hmsg := messaged_mboxSend s i (noticeBytes (pairAt s i) n)
  obtain ⟨dest, hsent⟩ := pairAt_mboxSend s i (noticeBytes (pairAt s i) n) hi
  refine ⟨dest, ?_, fun a hlow hbound => ?_⟩
  · unfold sendNotice
    dsimp only
    rw [pairAt_putPair _ _ _ hi, hsent, hmsg.tb3]
  · have hdest := congrArg MailPair.sentTo (hsent.symm.trans (pairAt_mboxSend_bound _ hlow hbound))
    exact hdest

/-! ### The statement -/

/-- Settles O37, message by message: what reaches a pair changes that pair, and beside it only messages move. -/
theorem mailboxEventResult : Obligations.MailboxEventResult := by
  refine ⟨fun s l data hrun hring habort => ⟨fun hfree => ?_, fun hbusy => ?_⟩, fun s pair data hrun habort hstate => ?_,
    fun s pair src port m hlow hhigh hserves => ⟨fun hbound hlen hrepeat hfree hcommand => ?_,
      fun hbound hlen hrepeat => ?_, fun o hbound hne hlen hhello => ?_⟩, fun s pair n hruns hnotice hrate => ?_⟩
  · have hi : 2 * l.val < 24 := by omega
    refine ⟨_, live_of_running _ hrun, ?_⟩
    rw [mboxDoorbell_ring habort hring, mboxRing_free hfree]
    exact mboxAuto_putPair (pairAt_putPair _ _ _ hi) (messaged_putPair ..) (by simp)
  · have hi : 2 * l.val < 24 := by omega
    refine ⟨_, live_of_running _ hrun, ?_⟩
    rw [mboxDoorbell_ring habort hring, mboxRing_occupied hbusy]
    refine mboxAuto_putPair (pairAt_putPair _ _ _ hi) (messaged_mboxIgnored ..) ?_
    rcases hbusy with h | h <;> simp [h]
  · refine ⟨_, live_of_running _ hrun, ?_⟩
    rw [mboxDoorbell_abort habort hstate]
    exact mboxAuto_putPair (pairAt_putPair _ _ _ pair.isLt) (messaged_putPair ..) (by simp)
  · refine ⟨_, exec_mbRequestArrive src port m hlow hserves, ?_⟩
    rw [mboxArrive_request hhigh hbound hlen port hrepeat hfree]
    have hput := fun p => pairAt_putPair s pair.val p pair.isLt
    refine ⟨(pairAt_mboxAuto_request hlow ?_).trans (hput _), (messaged_putPair ..).trans (messaged_mboxAuto _)⟩
    rw [hput]
    exact hcommand
  · refine ⟨_, exec_mbRequestArrive src port m hlow hserves, ?_⟩
    have hput := fun p => pairAt_putPair s pair.val p pair.isLt
    rw [mboxArrive_repeat hhigh hbound hlen port hrepeat]
    generalize hq : ({ pairAt s pair.val with lastReq := tb3 s, served := satInc (pairAt s pair.val).served
                                              repeats := satInc (pairAt s pair.val).repeats } : MailPair) = q
    have hqbound : (pairAt (putPair s pair.val q) pair.val).bound = some src := by
      rw [hput, ← hq]
      exact hbound
    have hsend := mboxSend_bound (storedResponse (pairAt s pair.val)) hhigh hqbound
    rw [hput, putPair_putPair] at hsend
    refine ⟨?_, fun hnet => ?_, fun hsvc => ?_, (messaged_putPair ..).trans (messaged_mboxSend ..)⟩
    · rw [pairAt_mboxSend_bound _ hhigh hqbound, hput, ← hq]
    · rw [hsend, ← hq]
      exact datagramSent_network _ src _ hnet
    · rw [hsend, ← hq]
      exact datagramSent_service _ src _ hsvc
  · refine ⟨_, exec_mbRequestArrive src port m hlow hserves, ?_⟩
    rw [mboxArrive_elsewhere port hhigh hbound hne hlen hhello]
    exact ⟨pairAt_putPair _ _ _ pair.isLt, rfl⟩
  · obtain ⟨dest, hpair, hdest⟩ := pairAt_sendNotice n pair.isLt
    exact ⟨_, dest, exec_eventNotice hruns hnotice hrate, hpair, hdest, messaged_sendNotice ..⟩

end Sys2Proof.Machine

/-! The slot directory (R470): the record in force after a new one has been written. -/

namespace Sys2Proof.Machine

open Sys2Proof

theorem dirIndex_first {s : State} (hcrc : s.boot.dir[0].crcOk = true)
    (hother : s.boot.dir[1].crcOk = true → s.boot.dir[1].seq.toNat ≤ s.boot.dir[0].seq.toNat) : dirIndex s = some 0 := by
  refine if_pos ?_
  cases h : s.boot.dir[1].crcOk
  · simp [hcrc]
  · simp [hcrc, hother h]

theorem dirIndex_second {s : State} (hcrc : s.boot.dir[1].crcOk = true)
    (hother : s.boot.dir[0].crcOk = true → s.boot.dir[0].seq.toNat < s.boot.dir[1].seq.toNat) : dirIndex s = some 1 := by
  refine (if_neg fun h => ?_).trans (if_pos hcrc)
  simp only [Bool.and_eq_true, hcrc, Bool.not_true, Bool.false_or, decide_eq_true_eq] at h
  exact absurd (hother h.1) (by omega)

/-- The copy in force is readable, and the other one is not, or not newer. -/
theorem dirIndex_cases (s : State) :
    (dirIndex s = some 0 ∧ s.boot.dir[0].crcOk = true) ∨ (dirIndex s = some 1 ∧ s.boot.dir[1].crcOk = true) ∨
      (dirIndex s = none ∧ s.boot.dir[1].crcOk = false) := by
  simp only [dirIndex]
  split
  · next h => exact .inl ⟨rfl, (Bool.and_eq_true_iff.mp h).1⟩
  · split
    · next h => exact .inr (.inl ⟨rfl, h⟩)
    · next h => exact .inr (.inr ⟨rfl, by simpa using h⟩)

/-- A directory record that is written is in force, while SEQ does not wrap. -/
theorem dirNow_dirWrite (s : State) (r : DirRecord) (hseq : (dirNow s).seq.toNat + 1 < 2 ^ 32) :
    dirNow (dirWrite s r) = { r with seq := (dirNow s).seq + 1, crcOk := true } := by
  have hnext : (dirNow s).seq.toNat < ((dirNow s).seq + 1).toNat := by bv_omega
  have hnow : ∀ {u : State} {i : Fin 2}, dirIndex u = some i → dirNow u = u.boot.dir[i] := fun h => by simp only [dirNow, h]
  obtain ⟨hi, -⟩ | ⟨hi, -⟩ | ⟨hi, hcrc⟩ := dirIndex_cases s
  · have hdir : (dirWrite s r).boot.dir = s.boot.dir.set 1 { r with seq := (dirNow s).seq + 1, crcOk := true } := by
      simp only [dirWrite, hi]
      rfl
    have hsecond : dirIndex (dirWrite s r) = some 1 := dirIndex_second (by simp [hdir]) fun _ => by
      simpa [hdir, hnow hi] using hnext
    rw [hnow hsecond, hdir]
    simp
  · have hdir : (dirWrite s r).boot.dir = s.boot.dir.set 0 { r with seq := (dirNow s).seq + 1, crcOk := true } := by
      simp only [dirWrite, hi]
      rfl
    have hfirst : dirIndex (dirWrite s r) = some 0 := dirIndex_first (by simp [hdir]) fun _ => by
      simpa [hdir, hnow hi] using hnext.le
    rw [hnow hfirst, hdir]
    simp
  · have hdir : (dirWrite s r).boot.dir = s.boot.dir.set 0 { r with seq := (dirNow s).seq + 1, crcOk := true } := by
      simp only [dirWrite, hi]
      rfl
    have hfirst : dirIndex (dirWrite s r) = some 0 := dirIndex_first (by simp [hdir]) fun h => by
      simp [hdir, hcrc] at h
    rw [hnow hfirst, hdir]
    simp

theorem bankNow_dirBank (s : State) (b : BankState) (hseq : (dirNow s).seq.toNat + 1 < 2 ^ 32) :
    bankNow (dirBank s b) = b := by
  rw [bankNow, dirBank, dirNow_dirWrite _ _ hseq]

end Sys2Proof.Machine

/-! The ends of long commands (R252, R476, R485, R487, R493): the answer of the command, and what the stage, the bank or the
security store holds. -/

namespace Sys2Proof.Machine

open Sys2Proof

/-! ### The answer -/

/-- The request of a pair that a long command serves is answered with a status and a payload. -/
theorem finishLong_answered {s : State} {i st : Nat} (body : List Byte) (hi : i < 24) (hserving : (pairAt s i).state = .serving)
    (hst : st ≠ stCrc) :
    let p := pairAt (finishLong s i ⟨st, 0, body⟩) i
    (p.state = .done ∧ p.job = none ∧ p.rsp = slotOf (messageBytes (pairAt s i).level.toNat 1 (requestOf s i).command
      (requestOf s i).tag st 0 body)) ∧ p.deliverTo = (pairAt s i).deliverTo ∧ Messaged s (finishLong s i ⟨st, 0, body⟩) := by
  have hfinish : finishLong s i ⟨st, 0, body⟩ = mboxAuto (respond s i (requestOf s i) ⟨st, 0, body⟩) := if_pos hserving
  obtain ⟨hpair, hmsg⟩ := mboxAuto_respond s i (requestOf s i) ⟨st, 0, body⟩ hi
  obtain ⟨hdone, hjob, hrsp⟩ := pairAt_respond_message s i (requestOf s i) ⟨st, 0, body⟩ hi
  rw [ite_self, if_neg hst] at hrsp
  rw [hfinish]
  refine ⟨⟨?_, ?_, ?_⟩, ?_, hmsg⟩
  · rw [hpair, hdone]
  · rw [hpair, hjob]
  · rw [hpair, hrsp]
  · rw [hpair, (pairAt_respond_keeps _ _ _ _ hi).deliverTo]

/-- Beside messages, what a long command has changed of a block stands in the block. -/
theorem Messaged.boot {s t : State} {b : Boot} (h : Messaged { s with boot := b } t) :
    t.boot = b ∧ Messaged { s with boot := t.boot } t := by
  have hb : t.boot = b := by rw [h.rest]
  exact ⟨hb, by rwa [hb]⟩

theorem Messaged.sec {s t : State} {x : Sec} (h : Messaged { s with sec := x } t) :
    t.sec = x ∧ Messaged { s with sec := t.sec } t := by
  have hx : t.sec = x := by rw [h.rest]
  exact ⟨hx, by rwa [hx]⟩

theorem Messaged.rackPower {s t : State} {b : Rack} {p : Power} (h : Messaged { s with rack := b, power := p } t) :
    Messaged { s with rack := t.rack, power := t.power } t := by
  have hb : t.rack = b := by rw [h.rest]
  have hp : t.power = p := by rw [h.rest]
  rwa [hb, hp]

section Done

variable {s : State} {pair : PairId} {payload : List Byte} (hruns : selvedgeRuns s = true)
include hruns

theorem exec_longCommandDone_stage (ok : Bool) (hjob : (pairAt s pair.val).job = some ⟨0x0203, payload⟩) :
    exec (.longCommandDone pair ok) s = .next (stageDone s pair.val) := by
  refine congrArg Host.Outcome.next ((if_pos hruns).trans ?_)
  rw [hjob] <;> rfl

theorem exec_longCommandDone_update {code : Nat} (ok : Bool) (hjob : (pairAt s pair.val).job = some ⟨code, payload⟩)
    (hcode : code = 0x0B01 ∨ code = 0x0B02 ∨ code = 0x0B03) :
    exec (.longCommandDone pair ok) s = .next (updDone s pair.val ⟨code, payload⟩ ok) := by
  refine congrArg Host.Outcome.next ((if_pos hruns).trans ?_)
  rw [hjob]
  rcases hcode with rfl | rfl | rfl <;> rfl

theorem exec_longCommandDone_change (ok : Bool) (hjob : (pairAt s pair.val).job = some ⟨0x0C06, payload⟩) :
    exec (.longCommandDone pair ok) s = .next (changeDone s pair.val ⟨0x0C06, payload⟩ ok) := by
  refine congrArg Host.Outcome.next ((if_pos hruns).trans ?_)
  rw [hjob] <;> rfl

end Done

/-! ### The update of the bank (R476) -/

theorem updEnd_eq (s : State) (b : BankState) :
    updEnd s b = { s with boot := { (dirBank s b).boot with updOwner := none } } := rfl

theorem bankNow_updEnd (s : State) (b : BankState) (hseq : (dirNow s).seq.toNat + 1 < 2 ^ 32) : bankNow (updEnd s b) = b :=
  bankNow_dirBank s b hseq

/-- The bank's state is read from the directory alone. -/
theorem bankNow_of_boot {s t : State} (h : t.boot = s.boot) : bankNow t = bankNow s := by
  simp only [bankNow, dirNow, dirIndex, h]

theorem updDone_finish (s : State) (i : Nat) (payload : List Byte) :
    updDone s i ⟨0x0B03, payload⟩ true = if (sha256 (memBytes s.boot.bank 0 s.boot.setSize) == payload) = true then
        finishLong (updEnd s .complete) i okEmpty
      else finishLong (updEnd s .invalid) i (failWith stParam) := by
  simp only [updDone, Bool.not_true, Bool.false_eq_true, if_false]

/-- A write in progress ends with a bank state and an answer. -/
theorem finishLong_updEnd {s : State} {i st : Nat} (b : BankState) (body : List Byte) (hi : i < 24)
    (hserving : (pairAt s i).state = .serving) (hst : st ≠ stCrc) (hseq : (dirNow s).seq.toNat + 1 < 2 ^ 32) :
    let t := finishLong (updEnd s b) i ⟨st, 0, body⟩
    ((pairAt t i).state = .done ∧ (pairAt t i).job = none ∧ (pairAt t i).rsp = slotOf (messageBytes
      (pairAt s i).level.toNat 1 (requestOf s i).command (requestOf s i).tag st 0 body)) ∧
      bankNow t = b ∧ t.boot.updOwner = none ∧ t.boot.bank = s.boot.bank ∧ Messaged { s with boot := t.boot } t := by
  obtain ⟨hanswer, -, hmsg⟩ := finishLong_answered (s := updEnd s b) body hi hserving hst
  obtain ⟨hboot, hrest⟩ := Messaged.boot hmsg
  refine ⟨hanswer, ?_, ?_, ?_, hrest⟩
  · rw [bankNow_of_boot (s := updEnd s b) hboot]
    exact bankNow_updEnd s b hseq
  · rw [hboot]
  · rw [hboot]
    rfl

/-! ### The change of the security store (R485 to R488) -/

/-- What records, notices and links leave of a state: the security store, the lanes, the start-up state, the memories, the time
bases, and how each mailbox pair stands. -/
def storeView (s : State) : Sec × LaneBlock × Boot × Memory × TimeBlock × (Nat → MbState) :=
  (s.sec, s.lanes, s.boot, s.mem, s.time, fun j => (pairAt s j).state)

theorem recordCommand_storeView (s : State) (i status detail command tag : Nat) :
    storeView (recordCommand s i status detail command tag) = storeView s := by
  rw [recordCommand, record_rest]
  rfl

theorem state_sendNotice (s : State) {i : Nat} (n : Notice) (hi : i < 24) (j : Nat) :
    (pairAt (sendNotice s i n) j).state = (pairAt s j).state := by
  by_cases hij : i = j
  · subst hij
    obtain ⟨dest, hpair, -⟩ := pairAt_sendNotice (s := s) n hi
    rw [hpair]
  · unfold sendNotice
    dsimp only
    rw [pairAt_putPair_ne _ _ _ _ hij, pairAt_mboxSend_ne _ _ _ _ hij]

theorem state_offerNotice (s : State) {i : Nat} (n : Notice) (hi : i < 24) (j : Nat) :
    (pairAt (offerNotice s i n) j).state = (pairAt s j).state := by
  have hput : ∀ p : MailPair, p.state = (pairAt s i).state → (pairAt (putPair s i p) j).state = (pairAt s j).state := by
    intro p hp
    by_cases hij : i = j
    · subst hij
      rw [pairAt_putPair _ _ _ hi, hp]
    · rw [pairAt_putPair_ne _ _ _ _ hij]
  unfold offerNotice
  dsimp only
  split_ifs
  · rfl
  · exact state_sendNotice s n hi j
  · exact hput _ rfl
  · exact hput _ rfl

theorem offerNotice_storeView (s : State) {i : Nat} (n : Notice) (hi : i < 24) : storeView (offerNotice s i n) = storeView s := by
  have hstates := state_offerNotice s n hi
  have hrest := (messaged_offerNotice s i n).rest
  generalize offerNotice s i n = t at *
  rw [storeView, funext hstates, hrest]
  rfl

theorem postNotice_storeView (s : State) (group code : Nat) (data : List Byte) :
    storeView (postNotice s group code data) = storeView s := by
  unfold postNotice
  simp only [List.foldl_cons, List.foldl_nil]
  iterate 6 rw [offerNotice_storeView _ _ (by omega)]

theorem linkDown_storeView (s : State) (sd : Side) : storeView (linkDown s sd) = storeView s := by
  by_cases h : (linkOf s sd).state = .down
  · exact congrArg storeView (if_pos h)
  · obtain ⟨-, -, -, -, -, hrest⟩ := linkDown_spec h
    rw [hrest]
    rfl

theorem registryLinks_storeView (s : State) (old : Vector RegEntry 3) : storeView (registryLinks s old) = storeView s := by
  have hone : ∀ (t : State) (sd : Side) (p : Prop) [Decidable p],
      storeView (if p then t else linkDown t sd) = storeView t := by
    intro t sd p _
    split
    · rfl
    · exact linkDown_storeView t sd
  unfold registryLinks
  simp only [List.foldl_cons, List.foldl_nil]
  rw [hone, hone]

theorem unlockFor_storeView (s : State) (seconds : Nat) : storeView (unlockFor s seconds) = storeView s := by
  unfold unlockFor
  rw [postNotice_storeView]
  rfl

/-- The state once an accepted set is in the store, before its record and its notices. -/
def changeStored (s : State) (p : List Byte) (c : ChangeSet) : State :=
  { s with boot := if c.items.any (·.kind == 1) then (commitContainer s p).boot else s.boot, sec := storeAfter s c
           lanes := { s.lanes with independent := (storeAfter s c).independent } }

theorem commitContainer_rest (s : State) (p : List Byte) : commitContainer s p = { s with boot := (commitContainer s p).boot } := rfl

/-- An accepted set changes the store, the lanes' choice and the start-up state; all else that follows is told of it. -/
theorem changeApply_storeView (s : State) (i tag : Nat) (p : List Byte) (c : ChangeSet) :
    storeView (changeApply s i tag p c) = storeView (changeStored s p c) := by
  have hstored : ∀ t, t = (if c.items.any (·.kind == 1) then commitContainer s p else s) →
      ({ t with sec := storeAfter t c, lanes := { t.lanes with independent := (storeAfter t c).independent } } : State)
        = changeStored s p c := by
    rintro t rfl
    unfold changeStored
    split
    · rw [commitContainer_rest]
      rfl
    · rfl
  unfold changeApply
  dsimp only
  rw [hstored _ rfl]
  split
  · rw [registryLinks_storeView, postNotice_storeView, recordCommand_storeView]
  · rw [unlockFor_storeView, registryLinks_storeView, postNotice_storeView, recordCommand_storeView]

theorem changeDone_accepted {s : State} {i : Nat} {payload : List Byte} {c : ChangeSet} (hset : changeSetOf payload = some c)
    (hstaged : (c.items.filter (·.kind == 1)).all (itemStaged s) = true) :
    changeDone s i ⟨0x0C06, payload⟩ true
      = finishLong (changeApply s i (requestOf s i).tag payload c) i (okWith (leBytes 8 c.seq)) := by
  simp only [changeDone, hset, hstaged, Bool.and_self, if_true]

/-- The command of an accepted set is answered, and the store, the lanes' choice and the start-up state stand as stored. -/
theorem changeDone_stores {s : State} {i : Nat} {payload : List Byte} {c : ChangeSet} (hi : i < 24)
    (hserving : (pairAt s i).state = .serving) (hset : changeSetOf payload = some c)
    (hstaged : (c.items.filter (·.kind == 1)).all (itemStaged s) = true) :
    let t := changeDone s i ⟨0x0C06, payload⟩ true
    (pairAt t i).state = .done ∧ t.sec = storeAfter s c ∧
      t.lanes = { s.lanes with independent := (storeAfter s c).independent } ∧
      t.boot = (if c.items.any (·.kind == 1) then (commitContainer s payload).boot else s.boot) ∧
      t.mem = s.mem ∧ t.time = s.time := by
  have hview := changeApply_storeView s i (requestOf s i).tag payload c
  rw [changeDone_accepted hset hstaged]
  generalize changeApply s i (requestOf s i).tag payload c = u at hview
  simp only [storeView, Prod.mk.injEq] at hview
  obtain ⟨hsec, hlanes, hboot, hmem, htime, hstates⟩ := hview
  have hu : (pairAt u i).state = .serving := (congrFun hstates i).trans hserving
  obtain ⟨⟨hdone, -, -⟩, -, hmsg⟩ := finishLong_answered (leBytes 8 c.seq) hi hu (by decide : (0 : Nat) ≠ stCrc)
  refine ⟨hdone, ?_, ?_, ?_, ?_, ?_⟩
  · exact (congrArg State.sec hmsg.rest).trans hsec
  · exact (congrArg State.lanes hmsg.rest).trans hlanes
  · exact (congrArg State.boot hmsg.rest).trans hboot
  · exact (congrArg State.mem hmsg.rest).trans hmem
  · exact (congrArg State.time hmsg.rest).trans htime

/-! ### A command that waits on another party (R252) -/

theorem exec_longCommandTimeout {s : State} {pair : PairId} {j : LongJob} (hruns : selvedgeRuns s = true)
    (hjob : (pairAt s pair.val).job = some j) :
    exec (.longCommandTimeout pair) s = .next (match j.command with
      | 0x0107 => finishLong (putPair s pair.val { pairAt s pair.val with deliverTo := none }) pair.val (failWith stTimeout)
      | 0x0601 => finishLong (dropService s pair.val) pair.val (failWith stTimeout)
      | 0x0602 => finishLong (dropService s pair.val) pair.val (failWith stTimeout)
      | 0x0704 => finishLong s pair.val (failWith stTimeout)
      | 0x0804 => finishLong s pair.val (failWith stTimeout)
      | 0x0805 => finishLong s pair.val (failWith stTimeout)
      | 0x0A02 => finishLong { s with power := { s.power with testPair := none } } pair.val (failWith stTimeout)
      | _ => s) := by
  refine congrArg Host.Outcome.next ((if_pos hruns).trans ?_)
  rw [hjob] <;> rfl

/-! ### The statement -/

/-- Settles O38, command by command: the answer goes out last, on a state in which the command's work is done. -/
theorem longCommandResult : Obligations.LongCommandResult := by
  intro pair s payload code hruns hserving hjob r level answered
  have hi := pair.isLt
  refine ⟨?_, ?_, ?_, ?_, ?_, ?_, ?_, ?_⟩
  · rintro rfl ok c
    obtain ⟨hanswer, -, hmsg⟩ := finishLong_answered (s := { s with sec := { s.sec with
      stage := if containerCheck s c = 0 then .ready else .failed, lastCheck := BitVec.ofNat 8 (containerCheck s c) } })
      (sha256 c ++ b8 (b2n (slice c 16 32 != slice (optContainer s (currentSlot s)) 16 32)) ++ b8 (containerCheck s c) ++ zeros 2)
      hi hserving (by decide : (0 : Nat) ≠ stCrc)
    obtain ⟨hsec, hrest⟩ := Messaged.sec hmsg
    exact ⟨_, exec_longCommandDone_stage hruns ok hjob, hanswer, hsec, hrest⟩
  · intro hcode hseq
    obtain ⟨hanswer, hbank, howner, -, hrest⟩ :=
      finishLong_updEnd .invalid [] hi hserving (by decide : stHwFault ≠ stCrc) hseq
    exact ⟨_, exec_longCommandDone_update hruns false hjob hcode, hanswer, hbank, howner, hrest⟩
  · rintro rfl
    obtain ⟨hanswer, -, hmsg⟩ := finishLong_answered [] hi hserving (by decide : (0 : Nat) ≠ stCrc)
    exact ⟨_, exec_longCommandDone_update hruns true hjob (.inl rfl), hanswer, hmsg⟩
  · rintro rfl n
    obtain ⟨hanswer, -, hmsg⟩ := finishLong_answered (s := { s with boot := { s.boot with
      bank := memWrite s.boot.bank (u64 payload 0) (payload.drop 8), written := n } }) (leBytes 8 n) hi hserving
      (by decide : (0 : Nat) ≠ stCrc)
    obtain ⟨hboot, hrest⟩ := Messaged.boot hmsg
    exact ⟨_, exec_longCommandDone_update hruns true hjob (.inr (.inl rfl)), hanswer, hboot, hrest⟩
  · rintro rfl hseq hit
    have hexec := (exec_longCommandDone_update hruns true hjob (.inr (.inr rfl))).trans
      (congrArg Host.Outcome.next (updDone_finish ..))
    by_cases hhit : hit = true
    · obtain ⟨hanswer, hend⟩ := finishLong_updEnd .complete [] hi hserving (by decide : (0 : Nat) ≠ stCrc) hseq
      refine ⟨_, hexec.trans (congrArg _ (if_pos hhit)), ?_⟩
      rw [if_pos hhit, if_pos hhit]
      exact ⟨hanswer, hend⟩
    · obtain ⟨hanswer, hend⟩ := finishLong_updEnd .invalid [] hi hserving (by decide : stParam ≠ stCrc) hseq
      refine ⟨_, hexec.trans (congrArg _ (if_neg hhit)), ?_⟩
      rw [if_neg hhit, if_neg hhit]
      exact ⟨hanswer, hend⟩
  · rintro rfl c hset hstaged
    exact ⟨_, exec_longCommandDone_change hruns true hjob, changeDone_stores hi hserving hset hstaged⟩
  · rintro rfl
    have hexec : exec (.longCommandTimeout pair) s = .next (finishLong (putPair s pair.val
        { pairAt s pair.val with deliverTo := none }) pair.val ⟨stTimeout, 0, []⟩) := exec_longCommandTimeout hruns hjob
    have hput := pairAt_putPair s pair.val { pairAt s pair.val with deliverTo := none } hi
    have hreq : requestOf (putPair s pair.val { pairAt s pair.val with deliverTo := none }) pair.val = r := by
      simp only [requestOf, messageOf, hput, r]
    obtain ⟨hanswer, hto, hmsg⟩ := finishLong_answered (s := putPair s pair.val { pairAt s pair.val with deliverTo := none }) []
      hi (by rw [hput]; exact hserving) (by decide : stTimeout ≠ stCrc)
    rw [hput, hreq] at hanswer
    exact ⟨_, hexec, hanswer, hto.trans (by rw [hput]), (messaged_putPair ..).trans hmsg⟩
  · intro hcode
    have hexec := exec_longCommandTimeout hruns hjob
    have hout : ∀ (b : Rack) (p : Power), ∃ t, finishLong { s with rack := b, power := p } pair.val (failWith stTimeout) = t ∧
        answered t 8 [] ∧ Messaged { s with rack := t.rack, power := t.power } t := by
      intro b p
      obtain ⟨hanswer, -, hmsg⟩ := finishLong_answered (s := { s with rack := b, power := p }) [] hi hserving
        (by decide : stTimeout ≠ stCrc)
      exact ⟨_, rfl, hanswer, Messaged.rackPower hmsg⟩
    rcases hcode with rfl | rfl | rfl | rfl | rfl | rfl
    · obtain ⟨t, rfl, ht⟩ := hout (dropService s pair.val).rack s.power
      exact ⟨_, hexec, ht⟩
    · obtain ⟨t, rfl, ht⟩ := hout (dropService s pair.val).rack s.power
      exact ⟨_, hexec, ht⟩
    · obtain ⟨t, rfl, ht⟩ := hout s.rack s.power
      exact ⟨_, hexec, ht⟩
    · obtain ⟨t, rfl, ht⟩ := hout s.rack s.power
      exact ⟨_, hexec, ht⟩
    · obtain ⟨t, rfl, ht⟩ := hout s.rack s.power
      exact ⟨_, hexec, ht⟩
    · obtain ⟨t, rfl, ht⟩ := hout s.rack { s.power with testPair := none }
      exact ⟨_, hexec, ht⟩

end Sys2Proof.Machine

/-! The bodies of served commands (R249, R252): what a body starts from, and the commands whose effect lies beside the
mailboxes. -/

namespace Sys2Proof.Machine

open Sys2Proof

/-! ### Beside the mailboxes -/

theorem Served.state_eq {s u : State} {pair : PairId} (h : Served s u pair) :
    ∃ m : Mbox, u = { s with mbox := m } ∧ m.failed = s.mbox.failed :=
  ⟨u.mbox, h.same, h.failed⟩

/-- A served command that answers `a`, whose effect `b` beside the mailboxes is the same whatever the mailboxes hold. -/
theorem serve_answer_beside {s : State} (b : State) {pair : PairId} {c : CmdSpec} {body : Body} {p : List Byte} {a : Answer}
    (hasked : Asked s pair c) (hp : payloadOf s pair = p) (hcode : c.code ≠ 0x0100) (hlen : c.lengthOk p.length = true)
    (hst : a.status ≠ stCrc) (hb : b.mbox = s.mbox)
    (hbody : ∀ m : Mbox, m.failed = s.mbox.failed → body { s with mbox := m } p = ({ b with mbox := m }, some a)) :
    ∃ t, serve s pair c body = .next t ∧ Answered b t pair a := by
  subst hp
  refine serve_answer s b pair c body a hasked hcode hlen hst hb fun u hu => ?_
  obtain ⟨m, rfl, hm⟩ := hu.state_eq
  exact hbody m hm

theorem record_of_mbox (s : State) (m : Mbox) (source : Nat) (code : U16) (lane : Nat) (data : List Byte) :
    record { s with mbox := m } source code lane data = { record s source code lane data with mbox := m } := by
  unfold record
  dsimp only
  split
  · rfl
  · split <;> rfl

theorem recordCommand_of_mbox (s : State) (m : Mbox) (i status detail command tag : Nat) :
    recordCommand { s with mbox := m } i status detail command tag = { recordCommand s i status detail command tag with mbox := m } :=
  record_of_mbox ..

theorem recordCommand_mbox (s : State) (i status detail command tag : Nat) :
    (recordCommand s i status detail command tag).mbox = s.mbox := by
  rw [recordCommand, record_rest]

end Sys2Proof.Machine

/-! The time commands that change state (R285, R291, R292): each takes its parameters to the part of the time block that it
names. -/

namespace Sys2Proof.Machine

open Sys2Proof

/-! ### A time base that is set (R275, R278, R286) -/

theorem servoTo_of_mbox (s : State) (m : Mbox) (k : Fin 4) (st : ServoState) :
    servoTo { s with mbox := m } k st = { servoTo s k st with mbox := m } := by
  unfold servoTo
  dsimp only
  split <;> rfl

theorem tpoSteps_of_mbox (s : State) (m : Mbox) (k : Fin 4) : tpoSteps { s with mbox := m } k = { tpoSteps s k with mbox := m } := by
  unfold tpoSteps
  dsimp only
  split <;> rfl

/-- TB0 or TB1 set to a value: the parts of the step that TB2 alone has are left out. -/
theorem stepBase_low (s : State) {k : Fin 4} (hk : k.val < 2) (fine : Nat) :
    let b := s.time.tb[k]
    let set := servoTo (timeEvent (putTb s k { b with
      value := tbOfFine fine, stepCnt := satInc b.stepCnt, lockCount := 0, stepNext := false }) k.val) k .locking
    stepBase s k fine = gateSteps (if decide (tbFine b.value < fine) then tpoSteps set k else set) k :=
  if_neg (by omega)

theorem stepBase_of_mbox (s : State) (m : Mbox) {k : Fin 4} (hk : k.val < 2) (fine : Nat) :
    stepBase { s with mbox := m } k fine = { stepBase s k fine with mbox := m } := by
  have hset := fun x : TimeBase => servoTo_of_mbox (timeEvent (putTb s k x) k.val) m k .locking
  rw [stepBase_low _ hk, stepBase_low _ hk]
  dsimp only
  have hstep : ∀ (t t' : State) (c : Bool), t' = { t with mbox := m } →
      gateSteps (if c then tpoSteps t' k else t') k = { gateSteps (if c then tpoSteps t k else t) k with mbox := m } := by
    rintro t t' c rfl
    cases c
    · rfl
    · exact congrArg (gateSteps · k) (tpoSteps_of_mbox t m k)
  exact hstep _ _ _ (hset _)

theorem stepBase_mbox (s : State) {k : Fin 4} (hk : k.val < 2) (fine : Nat) : (stepBase s k fine).mbox = s.mbox := by
  have h := congrArg State.mbox (stepBase_of_mbox s s.mbox hk fine)
  exact h

theorem servoTo_tb (s : State) (k : Fin 4) (st : ServoState) :
    (servoTo s k st).time.tb[k].state = st ∧ (servoTo s k st).time.tb[k].value = s.time.tb[k].value := by
  unfold servoTo
  dsimp only
  split
  · next h => exact ⟨h, rfl⟩
  · simp [timeEvent, putTb]

theorem tpoSteps_tb (s : State) (k : Fin 4) : (tpoSteps s k).time.tb = s.time.tb := by
  unfold tpoSteps
  dsimp only
  split <;> rfl

/-- A time base that is set holds the value, and its servo is LOCKING. -/
theorem stepBase_tb (s : State) {k : Fin 4} (hk : k.val < 2) (fine : Nat) :
    (stepBase s k fine).time.tb[k].state = .locking ∧ (stepBase s k fine).time.tb[k].value = tbOfFine fine := by
  obtain ⟨hstate, hvalue⟩ := servoTo_tb (timeEvent (putTb s k { s.time.tb[k] with
    value := tbOfFine fine, stepCnt := satInc s.time.tb[k].stepCnt, lockCount := 0, stepNext := false }) k.val) k .locking
  have hset : ∀ (t : State) (c : Bool), (gateSteps (if c then tpoSteps t k else t) k).time.tb = t.time.tb := by
    intro t c
    cases c
    · rfl
    · exact tpoSteps_tb t k
  rw [stepBase_low s hk, hset]
  refine ⟨hstate, hvalue.trans ?_⟩
  simp [timeEvent, putTb]

/-! ### Pulse outputs (R285, R287) -/

theorem tpoSetEn_of_mbox (s : State) (m : Mbox) (o : Fin 8) (t : Tpo) (en : Bool) :
    tpoSetEn { s with mbox := m } o t en = { tpoSetEn s o t en with mbox := m } := by
  unfold tpoSetEn
  dsimp only
  split
  · split
    · rfl
    · split <;> rfl
  · rfl

theorem tpoSetEn_mbox (s : State) (o : Fin 8) (t : Tpo) (en : Bool) : (tpoSetEn s o t en).mbox = s.mbox := by
  have h := congrArg State.mbox (tpoSetEn_of_mbox s s.mbox o t en)
  exact h

/-! ### The bodies of the time commands -/

section Bodies

variable {s : State} {p : List Byte}

theorem setServoBody_accepts {k : Fin 4} (hk : k.val < 3) (h0 : u8 p 0 = k.val) (h1 : u8 p 1 ≤ 63) (h2 : u8 p 2 ≤ 63)
    (h3 : u8 p 3 = 0) (h4 : 0 < u16 p 4) (h6 : 0 < u16 p 6) :
    setServoBody s p = (putTb s k { s.time.tb[k] with
      kp := BitVec.ofNat 6 (u8 p 1), ki := BitVec.ofNat 6 (u8 p 2), lockNs := BitVec.ofNat 16 (u16 p 4)
      holdS := BitVec.ofNat 16 (u16 p 6) }, some okEmpty) := by
  have hlt : u8 p 0 < 3 := by omega
  have hidx : (⟨u8 p 0, hlt.trans (by decide)⟩ : Fin 4) = k := Fin.ext h0
  subst hidx
  refine (dif_pos hlt).trans (if_neg ?_)
  simp [h3]
  omega

theorem setIncrBody_accepts {k : Fin 4} (hk : k.val < 3) (h0 : u8 p 0 = k.val) (h2 : allZero p 2 2 = true)
    (hn : incrOk (u8 p 1 * 2 ^ 32 + u32 p 4) = true) :
    setIncrBody s p = (putTb s k { s.time.tb[k] with
      incr := u8 p 1 * 2 ^ 32 + u32 p 4, incrNs := BitVec.ofNat 8 (u8 p 1) }, some okEmpty) := by
  have hlt : u8 p 0 < 3 := by omega
  have hidx : (⟨u8 p 0, hlt.trans (by decide)⟩ : Fin 4) = k := Fin.ext h0
  subst hidx
  refine (dif_pos hlt).trans (if_neg ?_)
  simp only [h2, hn]
  simp

theorem timeSetBody_accepts {k : Fin 4} (hk : k.val < 2) (h0 : u8 p 0 = k.val) (h1 : allZero p 1 3 = true)
    (hns : u32 p 4 < 1000000000) (hsec : u64 p 8 < 2 ^ 48) (hptp : ptpActive s k.val = false) :
    timeSetBody s p = (stepBase s k ((u64 p 8 * 1000000000 + u32 p 4) * 2 ^ 32), some okEmpty) := by
  have hlt : u8 p 0 < 2 := by omega
  have hidx : (⟨u8 p 0, hlt.trans (by decide)⟩ : Fin 4) = k := Fin.ext h0
  subst hidx
  refine (dif_pos hlt).trans ((if_neg ?_).trans (if_neg ?_))
  · simp only [h1, Bool.not_true, Bool.false_or, Bool.or_eq_true, decide_eq_true_eq]
    omega
  · simp [hptp]

theorem capSetBody_accepts {u : Fin 16} (h0 : u8 p 0 = u.val) (h1 : capSourceOk (u8 p 1) = true) (h2 : u8 p 2 ≤ 3)
    (h3 : u8 p 3 ≤ 3) (h4 : u8 p 4 ≤ 1) (h5 : 0 < u8 p 5) (h6 : allZero p 6 2 = true) :
    capSetBody s p = ({ s with time := { s.time with cap := s.time.cap.set u.val { s.time.cap[u] with
      source := BitVec.ofNat 8 (u8 p 1), edge := BitVec.ofNat 2 (u8 p 2), tb := BitVec.ofNat 2 (u8 p 3)
      en := u8 p 4 == 1, limit := BitVec.ofNat 8 (u8 p 5) } } }, some okEmpty) := by
  have hlt : u8 p 0 < 16 := by omega
  obtain rfl : u = ⟨u8 p 0, hlt⟩ := Fin.ext h0.symm
  refine (dif_pos hlt).trans (if_neg ?_)
  simp only [h1, h6, Bool.not_true, Bool.false_or, Bool.or_false, Bool.or_eq_true, decide_eq_true_eq]
  omega

theorem tpoSetBody_accepts {o : Fin 8} (h0 : u8 p 0 = o.val) (h1 : u8 p 1 ≤ 31) (h2 : allZero p 2 2 = true)
    (hns : u32 p 4 < 1000000000) (hsec : u64 p 8 < 2 ^ 48)
    (hok : (s.time.tpo[o].en = true ∧ u8 p 1 % 2 = 0) ∨ tpoOk (tpoFrom s.time.tpo[o] p) = true) :
    tpoSetBody s p = (tpoSetEn s o (if s.time.tpo[o].en then s.time.tpo[o] else tpoFrom s.time.tpo[o] p) (u8 p 1 % 2 == 1),
      some okEmpty) := by
  have hlt : u8 p 0 < 8 := by omega
  obtain rfl : o = ⟨u8 p 0, hlt⟩ := Fin.ext h0.symm
  refine (dif_pos hlt).trans (if_neg ?_)
  have hlimits : ∀ x : Tpo, (x.en = true ∧ u8 p 1 % 2 = 0) ∨ tpoOk (tpoFrom x p) = true →
      (!(x.en && !(u8 p 1 % 2 == 1)) && !tpoOk (tpoFrom x p)) = false := by
    rintro x (⟨hen, heven⟩ | hx)
    · simp [hen, heven]
    · simp [hx]
  simp only [h2, hlimits _ hok, Bool.not_true, Bool.or_false, Bool.or_eq_true, decide_eq_true_eq]
  omega

theorem ptpSetBody_accepts {k : Fin 4} (h0 : u8 p 0 = k.val) (h1 : u8 p 1 ≤ 7) (h2 : u8 p 2 ≤ 1) (h3 : u8 p 3 ≤ 127)
    (h4 : (BitVec.ofNat 32 (u32 p 4)).toInt.natAbs ≤ 1000000) (h8 : allZero p 8 4 = true)
    (hclash : ptpClash s k.val (u8 p 2 == 1) (u8 p 3) = false) :
    ptpSetBody s p = ({ s with time := { s.time with ptp := s.time.ptp.set k.val { s.time.ptp[k] with
      en := u8 p 1 % 2 == 1, p2p := bitOf (u8 p 1) 1, udp := bitOf (u8 p 1) 2, tb := u8 p 2 == 1
      domain := BitVec.ofNat 8 (u8 p 3), asymPs := BitVec.ofNat 32 (u32 p 4)
      portState := if u8 p 1 % 2 == 1 then 1 else 0 } } }, some okEmpty) := by
  have hlt : u8 p 0 < 4 := by omega
  obtain rfl : k = ⟨u8 p 0, hlt⟩ := Fin.ext h0.symm
  refine (dif_pos hlt).trans (if_neg ?_)
  simp only [h8, hclash, Bool.not_true, Bool.or_false, Bool.or_eq_true, decide_eq_true_eq]
  omega

end Bodies

end Sys2Proof.Machine

/-! The system commands that change state (R261, R263, R264, R265), and O20. -/

namespace Sys2Proof.Machine

open Sys2Proof

theorem Messaged.time {s t : State} (h : Messaged s t) : t.time = s.time := by rw [h.rest]

theorem messaged_of_mbox (s : State) (m : Mbox) : Messaged s { s with mbox := m } :=
  ⟨rfl, fun sd => by cases sd <;> rfl, fun _ => rfl⟩

/-! ### HELLO (R261) -/

theorem levelCap_beginService (s : State) (i : Nat) : levelCap (beginService s i) = levelCap s := by
  unfold beginService
  dsimp only
  split <;> rfl

theorem levelCap_closeOther (s : State) (i : Nat) (r : Request) : levelCap (closeOther s i r) = levelCap s := by
  unfold closeOther
  split <;> rfl

/-- HELLO passes the checks of Table 7.8 at any level from 1 to 4 that its message carries. -/
theorem serve_hello {s : State} {pair : PairId} {c : CmdSpec} (body : Body) (r : Request) (hr : r = requestOf s pair.val)
    (hturn : mboxTurn s = some pair.val) (hcode : r.command = 0x0100) (hcrc : r.crcOk = true) (hlen : r.lengthOk = true)
    (hlow : 1 ≤ r.level) (hhigh : r.level ≤ 4) (hflags : r.flags = 0) (hstatus : r.status = 0) (hres : r.reserved = 0)
    (haccept : c.accept pair.val = true) (hc : c.code = 0x0100) (hseg : c.segmented = false)
    (hreach : c.level ≤ (pairAt s pair.val).level.toNat) :
    ∃ u, Served s u pair ∧ levelCap u = levelCap s ∧ serve s pair c body = .next (mboxAuto (runBody u pair.val r c r.payload body)) := by
  subst hr
  have hu := served_closeOther s pair (requestOf s pair.val)
  refine ⟨_, hu, (levelCap_closeOther ..).trans (levelCap_beginService ..), ?_⟩
  rw [serve_of_turn body hturn (hcode.trans hc.symm)]
  generalize hw : closeOther (beginService s pair.val) pair.val (requestOf s pair.val) = u at hu
  have hhead : headerCheck u pair.val (requestOf s pair.val) true false = none := by
    simp [headerCheck, hcrc, hlen, hlow, hhigh, hflags, hstatus, hres, bitOf]
  have hcmd : commandCheck u pair.val c = none := by
    have hlevel : (pairAt u pair.val).level = (pairAt s pair.val).level := by rw [hu.own]
    simp [commandCheck, hc, haccept, hlevel, hreach]
  simp only [runRequest, hw, hc, hseg, hhead, hcmd, beq_self_eq_true, Bool.false_eq_true, if_false]

theorem levelCap_le (s : State) : levelCap s ≤ 4 := by
  unfold levelCap
  dsimp only
  split
  · exact Nat.le_refl 4
  · next h =>
    simp only [Bool.or_eq_true, decide_eq_true_eq] at h
    omega

theorem endSubs_beside (s : State) (i : Nat) : endSubs s i = { s with mbox := (endSubs s i).mbox } := by
  unfold endSubs
  dsimp only
  split <;> rfl

theorem pairAt_endSubs (s : State) (i : Nat) (hi : i < 24) : ∃ n, pairAt (endSubs s i) i =
    { pairAt s i with subs := 0, notice := none, noticeLost := n } := by
  refine ⟨if (pairAt s i).notice.isSome then satInc (pairAt s i).noticeLost else (pairAt s i).noticeLost, ?_⟩
  refine Eq.trans ?_ (pairAt_putPair s i _ hi)
  unfold endSubs
  dsimp only
  split <;> rfl

theorem helloTake_beside (s : State) (i level : Nat) (p : List Byte) :
    helloTake s i level p = { s with mbox := (helloTake s i level p).mbox } := by
  unfold helloTake
  dsimp only
  split
  · rw [endSubs_beside]
    rfl
  · rfl

theorem pairAt_helloTake (s : State) {i : Nat} (level : Nat) (p : List Byte) (hi : i < 24) :
    (pairAt (helloTake s i level p) i).level = BitVec.ofNat 3 level ∧
      (onChanges i = true → (pairAt (helloTake s i level p) i).bound = (pairAt s i).src) := by
  obtain ⟨n, hn⟩ := pairAt_endSubs s i hi
  unfold helloTake
  dsimp only
  rw [pairAt_putPair _ _ _ hi]
  refine ⟨rfl, fun h => ?_⟩
  simp only [h, if_true]
  split
  · rw [hn]
  · rfl

theorem runBody_answers {s t : State} {i : Nat} {r : Request} {c : CmdSpec} {p : List Byte} {body : Body} {a : Answer}
    (hl : c.lengthOk p.length = true) (hbody : body s p = (t, some a)) : runBody s i r c p body = respond t i r a := by
  simp [runBody, hl, hbody]

theorem execHello_accepts {s : State} {pair : PairId} {p : List Byte} {level : Nat}
    (hp : payloadOf s pair = p) (hlevel : level = min (u8 p 1) (levelCap s))
    (hturn : mboxTurn s = some pair.val) (hcode : (requestOf s pair.val).command = 0x0100)
    (hcrc : (requestOf s pair.val).crcOk = true) (hlen : (requestOf s pair.val).lengthOk = true)
    (hlow : 1 ≤ (requestOf s pair.val).level) (hhigh : (requestOf s pair.val).level ≤ 4)
    (hflags : (requestOf s pair.val).flags = 0) (hstatus : (requestOf s pair.val).status = 0)
    (hres : (requestOf s pair.val).reserved = 0) (haccept : onReads pair.val = true) (hl : p.length = 8 ∨ p.length = 4)
    (hreach : 1 ≤ (pairAt s pair.val).level.toNat) (hok : helloOk p = true) (hmin : u8 p 0 ≤ level) :
    ∃ t, execHello pair s = .next t ∧ (pairAt t pair.val).state = .done ∧
      (pairAt t pair.val).level = BitVec.ofNat 3 level ∧
      (pairAt t pair.val).rsp = slotOf (messageBytes level 1 0x0100 (requestOf s pair.val).tag 0 0 (helloResponse s pair.val level)) ∧
      (onChanges pair.val = true → (pairAt t pair.val).bound = (pairAt s pair.val).src) ∧
      Messaged (recordCommand s pair.val 0 0 0x0100 (requestOf s pair.val).tag) t := by
  have hp' : (requestOf s pair.val).payload = p := hp
  have hlengthOk : ((requestOf s pair.val).payload.length == 8 || (requestOf s pair.val).payload.length == 4) = true := by
    rw [hp']
    simpa using hl
  obtain ⟨u, hu, hcap, hserve⟩ := serve_hello (helloBody pair.val (requestOf s pair.val).tag) _ rfl hturn hcode hcrc hlen
    hlow hhigh hflags hstatus hres
    (c := ⟨0x0100, 1, onReads, false, fun n => n == 8 || n == 4⟩) haccept rfl rfl hreach
  refine ⟨_, hserve, ?_⟩
  have hbody : helloBody pair.val (requestOf s pair.val).tag u (requestOf s pair.val).payload
      = (recordCommand (helloTake u pair.val level p) pair.val 0 0 0x0100 (requestOf s pair.val).tag,
        some (okWith (helloResponse s pair.val level))) := by
    have hresp : helloResponse u pair.val level = helloResponse s pair.val level := by
      unfold helloResponse
      rw [hcap, hu.same]
    unfold helloBody
    simp only [hp', hcap, ← hlevel, hok, Bool.not_true, Bool.false_eq_true, if_false, Nat.not_lt.mpr hmin, hresp]
  rw [runBody_answers hlengthOk hbody]
  generalize hb : recordCommand (helloTake u pair.val level p) _ _ _ _ _ = b
  have hpb : pairAt b pair.val = pairAt (helloTake u pair.val level p) pair.val := by
    rw [← hb]
    simp only [pairAt, recordCommand_mbox]
  have hsame : Messaged (recordCommand s pair.val 0 0 0x0100 (requestOf s pair.val).tag) b := by
    have htake : helloTake u pair.val level p = { s with mbox := (helloTake u pair.val level p).mbox } :=
      (helloTake_beside u pair.val level p).trans
        (congrArg (fun x : State => { x with mbox := (helloTake u pair.val level p).mbox }) hu.same)
    rw [← hb, htake, recordCommand_of_mbox s (helloTake u pair.val level p).mbox]
    exact messaged_of_mbox ..
  have hle : level ≤ 4 := by
    have := levelCap_le s
    omega
  obtain ⟨htaken, hbound⟩ := pairAt_helloTake u level p pair.isLt
  obtain ⟨hpair, hmsg⟩ := mboxAuto_respond b pair.val (requestOf s pair.val) (okWith (helloResponse s pair.val level)) pair.isLt
  obtain ⟨hdone, -, hrsp⟩ := pairAt_respond_message b pair.val (requestOf s pair.val) (okWith (helloResponse s pair.val level)) pair.isLt
  have hkeeps := pairAt_respond_keeps b pair.val (requestOf s pair.val) (okWith (helloResponse s pair.val level)) pair.isLt
  have hnum : (BitVec.ofNat 3 level).toNat = level := by
    rw [BitVec.toNat_ofNat]
    omega
  rw [hpair]
  refine ⟨hdone, ?_, ?_, fun hchanges => ?_, hsame.trans hmsg⟩
  · rw [hkeeps.level, hpb, htaken]
  · rw [hrsp, hpb, htaken, hnum, hcode]
    simp [okWith, stCrc]
  · rw [hkeeps.bound, hpb, hbound hchanges, hu.own]

/-! ### SYS_DELIVER (R264) -/

/-- What waits in a lane's request slot for the raw image stays through the answers to the requests behind it. -/
theorem mboxAuto_keeps_delivery {s : State} {k : Nat} (hk : k < 16) (h : (pairAt s k).undelivered = true) :
    (pairAt (mboxAuto s) k).undelivered = true ∧ (pairAt (mboxAuto s) k).req = (pairAt s k).req := by
  have hi : k < 24 := by omega
  refine mboxAutoN_keeps (P := fun t => (pairAt t k).undelivered = true ∧ (pairAt t k).req = (pairAt s k).req)
    (fun t i ht _ _ => ?_) (fun t i ht _ _ => ?_) 24 ⟨h, rfl⟩
  · by_cases hik : i = k
    · subst hik
      simp [repeatLane, pairAt_deliverItem, pairAt_putPair _ _ _ hi, pairAt_beginService _ _ hi, ht.2]
    · rwa [pairAt_repeatLane_ne hik]
  · by_cases hik : i = k
    · subst hik
      have hreq : (pairAt (closeOther (beginService t i) i (requestOf t i)) i).req = (pairAt t i).req := by
        have hown := congrArg MailPair.req (served_closeOther t ⟨i, hi⟩ (requestOf t i)).own
        exact hown
      constructor
      · simp [answerUnknown, respond, hk, pairAt_deliverItem, pairAt_putPair _ _ _ hi]
      · exact (pairAt_respond_keeps _ i _ _ hi).req.trans (hreq.trans ht.2)
    · rwa [pairAt_answerUnknown_ne hik]

theorem payload_length_le {s : State} {pair : PairId} (h : (requestOf s pair.val).lengthOk = true) :
    (payloadOf s pair).length ≤ 496 := by
  have hlen : (requestOf s pair.val).length ≤ 496 := by
    unfold requestOf parseRequest at h ⊢
    simp only [Bool.and_eq_true, decide_eq_true_eq] at h
    exact h.1
  exact (List.length_take_le _ _).trans hlen

/-- The message fills the lane's request slot, and waits for the raw image. -/
def delivering (s : State) (k i : Nat) (m : List Byte) : State :=
  deliverItem (putPair s k { pairAt s k with req := slotOf m }) k 0 i m

theorem pairAt_delivering (s : State) {k : Nat} (i : Nat) (m : List Byte) (hk : k < 24) :
    pairAt (delivering s k i m) k = { pairAt s k with req := slotOf m, undelivered := true, latched := false } := by
  unfold delivering
  rw [pairAt_deliverItem, pairAt_putPair _ _ _ hk, pairAt_putPair _ _ _ hk]

theorem pairAt_delivering_ne (s : State) {k j : Nat} (i : Nat) (m : List Byte) (h : k ≠ j) :
    pairAt (delivering s k i m) j = pairAt s j := by
  unfold delivering
  rw [pairAt_deliverItem, pairAt_putPair_ne _ _ _ _ h, pairAt_putPair_ne _ _ _ _ h]

theorem messaged_delivering (s : State) (k i : Nat) (m : List Byte) : Messaged s (delivering s k i m) :=
  (messaged_putPair ..).trans (messaged_deliverItem ..)

theorem deliverBody_accepts {s : State} {p : List Byte} {l : LaneId} {i tag : Nat} (h0 : u8 p 0 = l.val) (h1 : u8 p 1 = 0)
    (h2 : u16 p 2 + 8 = p.length) (h4 : allZero p 4 4 = true) (hlane : refusesDelivery (laneOf s l) = false)
    (hfree : (pairAt s (2 * l.val + 1)).undelivered = false) :
    let d := delivering s (2 * l.val + 1) i (messageBytes 4 0 0x0107 tag 0 0 (p.drop 8))
    deliverBody i tag s p = (putPair d i { pairAt d i with deliverTo := some l }, none) := by
  have hlt : u8 p 0 < 8 := h0 ▸ l.isLt
  have hidx : (⟨u8 p 0, hlt⟩ : LaneId) = l := Fin.ext h0
  subst hidx
  refine (dif_pos hlt).trans ((if_neg ?_).trans ((if_neg ?_).trans (if_neg ?_)))
  · simp [h1, h2, h4]
  · simp [hlane]
  · simp [hfree]

theorem execSysDeliver_accepts {s : State} {pair : PairId} {p : List Byte} {l : LaneId} (hp : payloadOf s pair = p)
    (hasked : Asked s pair ⟨0x0107, 2, onChanges, false, fun n => decide (8 ≤ n) && decide (n ≤ 496)⟩) (hlen : 8 ≤ p.length)
    (h0 : u8 p 0 = l.val) (h1 : u8 p 1 = 0) (h2 : u16 p 2 + 8 = p.length) (h4 : allZero p 4 4 = true)
    (hlane : refusesDelivery (laneOf s l) = false) (hfree : (pairAt s (2 * l.val + 1)).undelivered = false) :
    ∃ t, execSysDeliver pair s = .next t ∧ Begun s t pair 0x0107 ∧ (pairAt t pair.val).deliverTo = some l ∧
      (pairAt t (2 * l.val + 1)).undelivered = true ∧
      (pairAt t (2 * l.val + 1)).req = slotOf (messageBytes 4 0 0x0107 (requestOf s pair.val).tag 0 0 (p.drop 8)) := by
  subst hp
  have hl := l.isLt
  have hi := pair.isLt
  have hhigh : 16 ≤ pair.val := by
    have := hasked.accept
    simp only [onChanges, Bool.and_eq_true, decide_eq_true_eq] at this
    exact this.1
  have hmax : (payloadOf s pair).length ≤ 496 := payload_length_le hasked.length
  obtain ⟨u, hu, hserve⟩ := serve_body s pair _ (deliverBody pair.val (requestOf s pair.val).tag) hasked (by decide)
    (by simpa using ⟨hlen, hmax⟩)
  refine ⟨_, hserve, ?_⟩
  have hlane' : laneOf u l = laneOf s l := by
    rw [hu.same]
    rfl
  have hk : 2 * l.val + 1 < 24 := by omega
  have hne : 2 * l.val + 1 ≠ pair.val := by omega
  have hslot : pairAt u (2 * l.val + 1) = pairAt s (2 * l.val + 1) := hu.others _ hne
  have hbody := deliverBody_accepts (i := pair.val) (tag := (requestOf s pair.val).tag) h0 h1 h2 h4
    (hlane'.symm ▸ hlane) (hslot.symm ▸ hfree)
  rw [hbody]
  dsimp only
  generalize hd : delivering u (2 * l.val + 1) pair.val _ = d
  obtain ⟨hdk, hdi, hdm⟩ : pairAt d (2 * l.val + 1) = { pairAt u (2 * l.val + 1) with
        req := slotOf (messageBytes 4 0 0x0107 (requestOf s pair.val).tag 0 0 ((payloadOf s pair).drop 8))
        undelivered := true, latched := false } ∧ pairAt d pair.val = pairAt u pair.val ∧ Messaged u d := by
    rw [← hd]
    exact ⟨pairAt_delivering u _ _ hk, pairAt_delivering_ne u _ _ hne, messaged_delivering ..⟩
  rw [putPair_putPair, pairAt_putPair _ _ _ hi]
  generalize hw : putPair d pair.val _ = w
  have hwi : pairAt w pair.val = { pairAt u pair.val with deliverTo := some l, job := some ⟨0x0107, payloadOf s pair⟩ } := by
    rw [← hw, pairAt_putPair _ _ _ hi, hdi]
  have hwk : pairAt w (2 * l.val + 1) = pairAt d (2 * l.val + 1) := by
    rw [← hw, pairAt_putPair_ne _ _ _ _ hne.symm]
  have hsettled : pairAt (mboxAuto w) pair.val = pairAt w pair.val :=
    pairAt_mboxAuto_settled (by rw [hwi, hu.own]; simp)
  obtain ⟨hund, hreq⟩ := mboxAuto_keeps_delivery (s := w) (show 2 * l.val + 1 < 16 by omega) (by rw [hwk, hdk])
  refine ⟨⟨?_, ?_, ?_⟩, ?_, hund, ?_⟩
  · rw [hsettled, hwi, hu.own]
  · rw [hsettled, hwi]
    rfl
  · refine hu.messaged.trans (hdm.trans (Messaged.trans ?_ (messaged_mboxAuto w)))
    rw [← hw]
    exact messaged_putPair ..
  · rw [hsettled, hwi]
  · rw [hreq, hwk, hdk]

/-! ### SYS_SUBSCRIBE (R265) -/

theorem execSysSubscribe_accepts {s : State} {pair : PairId} {p : List Byte} (hp : payloadOf s pair = p)
    (hasked : Asked s pair (changeCmd 0x0108 4 4)) (hlen : p.length = 4) (h0 : u16 p 0 ≤ 0x1FFF) (h2 : allZero p 2 2 = true) :
    ∃ t, execSysSubscribe pair s = .next t ∧ Answered s t pair okEmpty ∧
      (pairAt t pair.val).subs = BitVec.ofNat 16 (u16 p 0) ∧ (pairAt t pair.val).noticeCnt = 0 ∧
      (pairAt t pair.val).notice = none := by
  subst hp
  have hi := pair.isLt
  obtain ⟨u, hu, hserve⟩ := serve_body s pair _ (subscribeBody pair.val) hasked (by decide) (by rw [hlen]; rfl)
  refine ⟨_, hserve, ?_⟩
  obtain ⟨n, hends⟩ := pairAt_endSubs u pair.val hi
  have hbody : subscribeBody pair.val u (payloadOf s pair) = (putPair (endSubs u pair.val) pair.val
      { pairAt (endSubs u pair.val) pair.val with subs := BitVec.ofNat 16 (u16 (payloadOf s pair) 0), noticeCnt := 0 },
      some okEmpty) :=
    if_neg (by simp [h2, Nat.not_lt.mpr h0])
  rw [hbody]
  dsimp only
  generalize hw : putPair (endSubs u pair.val) pair.val _ = w
  have hwi : pairAt w pair.val = { pairAt u pair.val with
      subs := BitVec.ofNat 16 (u16 (payloadOf s pair) 0), noticeCnt := 0, notice := none, noticeLost := n } := by
    rw [← hw, pairAt_putPair _ _ _ hi, hends]
  have hmsg : Messaged s w := by
    rw [← hw, endSubs_beside]
    refine hu.messaged.trans (Messaged.trans (messaged_of_mbox u _) (messaged_putPair ..))
  obtain ⟨hpair, -⟩ := mboxAuto_respond w pair.val (requestOf s pair.val) okEmpty hi
  have hkeeps := pairAt_respond_keeps w pair.val (requestOf s pair.val) okEmpty hi
  refine ⟨answered_of s s w pair okEmpty (by decide) (by rw [hwi, hu.own]) (by rw [hwi, hu.own]) rfl rfl rfl hmsg, ?_, ?_, ?_⟩
  · rw [hpair, hkeeps.subs, hwi]
  · rw [hpair, hkeeps.noticeCnt, hwi]
  · rw [hpair, hkeeps.notice, hwi]

/-! ### SYS_RESTART (R263) -/

theorem restartBody_accepts {s : State} {p : List Byte} (i tag : Nat) (h0 : u8 p 0 ≤ 1) (h1 : u8 p 1 ≤ 1)
    (h2 : allZero p 2 2 = true) (h4 : u32 p 4 = 0x5A5A) (hfew : leavesTooFew s = true → u8 p 1 = 1 ∧ standstill s = true) :
    let b := recordCommand s i 0 0 0x0104 tag
    restartBody i tag s p = ({ b with boot := { b.boot with restartDue := some (u8 p 0 == 1) } }, some okEmpty) := by
  refine (if_neg ?_).trans (if_neg ?_)
  · simp [h2, h4, Nat.not_lt.mpr h0, Nat.not_lt.mpr h1]
  · cases hl : leavesTooFew s
    · simp
    · simp [hfew hl]

/-! ### All of them -/

/-- Settles O20. A command whose effect lies beside the mailboxes is one equation of its body. -/
theorem systemTimeCommandResult : Obligations.SystemTimeCommandResult := by
  refine ⟨fun pair s p hp => ⟨?_, ?_, ?_, ?_⟩, fun pair s p hp => ⟨?_, ?_, ?_, ?_, ?_, ?_⟩⟩
  · exact fun hturn hcode hcrc hlen hlow hhigh hflags hstatus hres haccept hl hreach hok hmin =>
      execHello_accepts hp rfl hturn hcode hcrc hlen hlow hhigh hflags hstatus hres haccept hl hreach hok hmin
  · intro hasked hlen h0 h1 h2 h4 hfew
    refine serve_answer_beside _ hasked hp (by decide) (by rw [hlen]; rfl) (by decide) (recordCommand_mbox ..) fun m _ => ?_
    have hbody := restartBody_accepts (s := { s with mbox := m }) pair.val (requestOf s pair.val).tag h0 h1 h2 h4 hfew
    rwa [recordCommand_of_mbox s m] at hbody
  · exact fun hasked hlen l h0 h1 h2 h4 hlane hfree => execSysDeliver_accepts hp hasked hlen h0 h1 h2 h4 hlane hfree
  · exact fun hasked hlen h0 h2 => execSysSubscribe_accepts hp hasked hlen h0 h2
  · exact fun hasked hlen k hk h0 h1 h2 h3 h4 h6 => serve_answer_beside _ hasked hp (by decide) (by rw [hlen]; rfl) (by decide)
      rfl fun _ _ => setServoBody_accepts hk h0 h1 h2 h3 h4 h6
  · exact fun hasked hlen k hk h0 h2 hn => serve_answer_beside _ hasked hp (by decide) (by rw [hlen]; rfl) (by decide)
      rfl fun _ _ => setIncrBody_accepts hk h0 h2 hn
  · intro hasked hlen k hk h0 h1 hns hsec hptp
    have hbody : ∀ m : Mbox, m.failed = s.mbox.failed → timeSetBody { s with mbox := m } p
        = ({ stepBase s k ((u64 p 8 * 1000000000 + u32 p 4) * 2 ^ 32) with mbox := m }, some okEmpty) := by
      intro m _
      rw [timeSetBody_accepts (s := { s with mbox := m }) hk h0 h1 hns hsec hptp]
      exact congrArg (·, some okEmpty) (stepBase_of_mbox s m hk _)
    obtain ⟨hstate, hvalue⟩ := stepBase_tb s hk ((u64 p 8 * 1000000000 + u32 p 4) * 2 ^ 32)
    obtain ⟨t, hserve, ht⟩ := serve_answer_beside _ hasked hp (by decide) (by rw [hlen]; rfl) (by decide)
      (stepBase_mbox s hk _) hbody
    refine ⟨t, hserve, ht, ?_, ?_⟩
    · rw [ht.rest.time, hstate]
    · rw [ht.rest.time, hvalue]
  · exact fun hasked hlen k h0 h1 h2 h3 h4 h5 h6 => serve_answer_beside _ hasked hp (by decide) (by rw [hlen]; rfl) (by decide)
      rfl fun _ _ => capSetBody_accepts h0 h1 h2 h3 h4 h5 h6
  · intro hasked hlen o h0 h1 h2 hns hsec x hok
    refine serve_answer_beside _ hasked hp (by decide) (by rw [hlen]; rfl) (by decide) (tpoSetEn_mbox ..) fun m _ => ?_
    rw [tpoSetBody_accepts (s := { s with mbox := m }) h0 h1 h2 hns hsec hok]
    exact congrArg (·, some okEmpty) (tpoSetEn_of_mbox s m o _ _)
  · exact fun hasked hlen k h0 h1 h2 h3 h4 h8 hclash => serve_answer_beside _ hasked hp (by decide) (by rw [hlen]; rfl)
      (by decide) rfl fun _ _ => ptpSetBody_accepts h0 h1 h2 h3 h4 h8 hclash

end Sys2Proof.Machine

/-! The answers of the read commands (R249, Tables 7.17, 7.18, 6.8, 7.25, 16.12 and the response tables of the chapters): what
stands at a byte of an answer, and O18. -/

namespace Sys2Proof.Machine

open Sys2Proof

/-! ### A field of an answer -/

/-- The low bytes of a number. -/
@[simp] theorem leAt_leBytes_low {k w : Nat} (n : Nat) (h : w ≤ k) : leAt (leBytes k n) 0 w = n % 256 ^ w := by
  induction w generalizing k n with
  | zero => simp [leAt, slice, ofLe, Nat.mod_one]
  | succ w ih =>
    obtain ⟨k, rfl⟩ : ∃ j, k = j + 1 := ⟨k - 1, by omega⟩
    have hrest := ih (n / 256) (show w ≤ k by omega)
    unfold leAt at hrest ⊢
    rw [slice_inside _ _ _ (by simpa using by omega)] at hrest ⊢
    rw [leBytes, List.drop_zero, List.take_succ_cons, ofLe, ← List.drop_zero (l := leBytes k (n / 256)), hrest,
      BitVec.toNat_ofNat,
      show 256 ^ (w + 1) = 2 ^ 8 * 256 ^ w from (Nat.pow_succ ..).trans (Nat.mul_comm ..)]
    exact (Nat.mod_mul).symm

/-- The bytes of a number from one of them on. -/
theorem leAt_leBytes_inside {k off w : Nat} (n : Nat) (h : off + w ≤ k) :
    leAt (leBytes k n) off w = n / 256 ^ off % 256 ^ w := by
  induction off generalizing k n with
  | zero => simpa using leAt_leBytes_low n (by omega)
  | succ off ih =>
    obtain ⟨k, rfl⟩ : ∃ j, k = j + 1 := ⟨k - 1, by omega⟩
    have hrest := ih (k := k) (n / 256) (by omega)
    rw [Nat.div_div_eq_div_mul, Nat.mul_comm, ← Nat.pow_succ] at hrest
    exact hrest

theorem leAt_nil (off w : Nat) : leAt [] off w = 0 := by
  have h : ∀ n, ofLe (List.replicate n (0 : Byte)) = 0 := fun n => by
    induction n with
    | zero => rfl
    | succ n ih => simpa [List.replicate_succ, ofLe] using ih
  simpa [leAt, slice] using h w

theorem getElem_slice (bs : List Byte) (off n i : Nat) (h : i < (slice bs off n).length) :
    (slice bs off n)[i] = bs.getD (off + i) 0 := by
  rw [length_slice] at h
  simp only [slice, List.getElem_append, List.length_take, List.length_drop]
  split
  · rw [List.getElem_take, List.getElem_drop, List.getD_eq_getElem?_getD, List.getElem?_eq_getElem, Option.getD_some]
  · rw [List.getElem_replicate, List.getD_eq_default]
    omega

/-- A field inside bytes that were cut or padded. -/
theorem leAt_fit {n off w : Nat} (bs : List Byte) (h : off + w ≤ n) : leAt (fit n bs) off w = leAt bs off w := by
  refine congrArg ofLe (List.ext_getElem (by simp) fun i hi _ => ?_)
  rw [length_slice] at hi
  rw [getElem_slice, getElem_slice, fit, List.getD_eq_getElem _ _ (by simp; omega), getElem_slice, Nat.zero_add]

@[simp] theorem length_b8 (n : Nat) : (b8 n).length = 1 := by simp [b8]

@[simp] theorem length_partCode : partCode.length = 16 := by simp [partCode]

@[simp] theorem leAt_zeros (k off w : Nat) : leAt (zeros k) off w = 0 := by
  have hslice : slice (zeros k) off w = List.replicate w 0 :=
    List.ext_getElem (by simp) fun i hi _ => by
      rw [getElem_slice, zeros, List.getElem_replicate, List.getD_eq_getElem?_getD, List.getElem?_replicate]
      split <;> rfl
  rw [leAt, hslice]
  simpa [leAt, slice] using leAt_nil 0 w

/-! ### Walking along an answer to a field -/

@[simp] theorem leAt_number_append (k n : Nat) (ys : List Byte) : leAt (leBytes k n ++ ys) 0 k = n % 256 ^ k := by
  rw [leAt_append_left _ _ _ _ (by simp), leAt_leBytes]

theorem leAt_skip {xs : List Byte} {k : Nat} (hk : xs.length = k) (ys : List Byte) (off w : Nat) :
    leAt (xs ++ ys) (off + k) w = leAt ys off w := by
  rw [leAt_append_right _ _ _ _ (by omega), hk, Nat.add_sub_cancel]

@[simp] theorem leAt_byte_append (n : Nat) (ys : List Byte) : leAt (b8 n ++ ys) 0 1 = n % 256 := leAt_number_append 1 n ys

@[simp] theorem leAt_b8 (n : Nat) : leAt (b8 n) 0 1 = n % 256 := leAt_leBytes 1 n

@[simp] theorem leAt_skip_byte (n : Nat) (ys : List Byte) (off w : Nat) : leAt (b8 n ++ ys) (off + 1) w = leAt ys off w :=
  leAt_skip (length_b8 n) ..

@[simp] theorem leAt_skip_two (n : Nat) (ys : List Byte) (off w : Nat) :
    leAt (leBytes 2 n ++ ys) (off + 2) w = leAt ys off w :=
  leAt_skip (length_leBytes 2 n) ..

@[simp] theorem leAt_skip_four (n : Nat) (ys : List Byte) (off w : Nat) :
    leAt (leBytes 4 n ++ ys) (off + 4) w = leAt ys off w :=
  leAt_skip (length_leBytes 4 n) ..

@[simp] theorem leAt_skip_six (n : Nat) (ys : List Byte) (off w : Nat) :
    leAt (leBytes 6 n ++ ys) (off + 6) w = leAt ys off w :=
  leAt_skip (length_leBytes 6 n) ..

@[simp] theorem leAt_skip_eight (n : Nat) (ys : List Byte) (off w : Nat) :
    leAt (leBytes 8 n ++ ys) (off + 8) w = leAt ys off w :=
  leAt_skip (length_leBytes 8 n) ..

@[simp] theorem leAt_skip_partCode (ys : List Byte) (off w : Nat) : leAt (partCode ++ ys) (off + 16) w = leAt ys off w :=
  leAt_skip length_partCode ..

@[simp] theorem leAt_cons (x : Byte) (ys : List Byte) : leAt (x :: ys) 0 1 = x.toNat := by
  simp [leAt, slice, ofLe]

@[simp] theorem leAt_zeros_append (k : Nat) (ys : List Byte) : leAt (zeros k ++ ys) 0 k = 0 := by
  rw [leAt_append_left _ _ _ _ (by simp), leAt_zeros]

@[simp] theorem leAt_zeros_skip {k off : Nat} (ys : List Byte) (w : Nat) (h : k ≤ off) :
    leAt (zeros k ++ ys) off w = leAt ys (off - k) w := by
  rw [leAt_append_right _ _ _ _ (by simpa using h), length_zeros]

@[simp] theorem leAt_fit_skip {k off : Nat} (bs ys : List Byte) (w : Nat) (h : k ≤ off) :
    leAt (fit k bs ++ ys) off w = leAt ys (off - k) w := by
  rw [leAt_append_right _ _ _ _ (by simpa using h), length_fit]

/-- A field of one of the equally long parts of some bytes. -/
theorem leAt_flatMap {α : Type} {f : α → List Byte} {k : Nat} (hk : ∀ x, (f x).length = k) (xs : List α) {i off w : Nat}
    (hi : i < xs.length) (h : off + w ≤ k) : leAt (xs.flatMap f) (k * i + off) w = leAt (f xs[i]) off w := by
  induction xs generalizing i with
  | nil => simp at hi
  | cons x xs ih =>
    rw [List.flatMap_cons]
    cases i with
    | zero => simpa using leAt_append_left (f x) (xs.flatMap f) off w (by rw [hk]; omega)
    | succ i =>
      rw [leAt_append_right _ _ _ _ (by rw [hk, Nat.mul_succ]; omega), hk,
        show k * (i + 1) + off - k = k * i + off by rw [Nat.mul_succ]; omega]
      exact ih (by simpa using hi)

theorem length_flatMap_const {α : Type} {f : α → List Byte} {k : Nat} (hk : ∀ x, (f x).length = k) (xs : List α) :
    (xs.flatMap f).length = k * xs.length := by
  induction xs with
  | nil => simp
  | cons x xs ih => simp [List.flatMap_cons, hk, ih, Nat.mul_succ, Nat.add_comm]

/-- A field of one of the equally long parts of the bytes of a table. -/
theorem leAt_table {α : Type} {n k off w : Nat} {f : α → List Byte} (hk : ∀ x, (f x).length = k) (xs : Vector α n)
    (i : Fin n) (h : off + w ≤ k) : leAt (xs.toList.flatMap f) (k * i.val + off) w = leAt (f xs[i]) off w := by
  rw [leAt_flatMap hk _ (by simp) h]
  simp

theorem leAt_table_start {α : Type} {n k w : Nat} {f : α → List Byte} (hk : ∀ x, (f x).length = k) (xs : Vector α n)
    (i : Fin n) (h : w ≤ k) : leAt (xs.toList.flatMap f) (k * i.val) w = leAt (f xs[i]) 0 w :=
  leAt_table (off := 0) hk xs i (by omega)

theorem length_table {α : Type} {n k : Nat} {f : α → List Byte} (hk : ∀ x, (f x).length = k) (xs : Vector α n) :
    (xs.toList.flatMap f).length = k * n := by
  rw [length_flatMap_const hk, Vector.length_toList]

/-! ### Plain reads -/

/-- A command that answers with bytes of the state beside the mailboxes, and what stands in them. -/
structure PlainRead (command : PairId → Instr) (code level : Nat) (bytes : State → List Byte) (length : Nat)
    (fields : State → List (Nat × Nat × Nat)) : Prop where
  noHello : code ≠ 0x0100
  serves : ∀ pair s, exec (command pair) s = serve s pair (readCmd code level 0) (reads fun s _ => okWith (bytes s))
  beside : ∀ s m, m.failed = s.mbox.failed → bytes { s with mbox := m } = bytes s
  laid : ∀ s, (bytes s).length = length ∧ ∀ x ∈ fields s, leAt (bytes s) x.1 x.2.1 = x.2.2 % 256 ^ x.2.1

theorem PlainRead.answers {command : PairId → Instr} {code level length : Nat} {bytes : State → List Byte}
    {fields : State → List (Nat × Nat × Nat)} (h : PlainRead command code level bytes length fields) {s : State} {pair : PairId}
    (hasked : Asked s pair (readCmd code level 0)) (hp : payloadOf s pair = []) :
    ∃ t, exec (command pair) s = .next t ∧ Answered s t pair (okWith (bytes s)) := by
  rw [h.serves]
  refine serve_answer_beside s hasked hp h.noHello rfl (show (0 : Nat) ≠ 10 by decide) rfl fun m hm => ?_
  exact congrArg (fun b => (({ s with mbox := m } : State), some (okWith b))) (h.beside s m hm)

/-! ### The answers whose fields are not numbers of the state as they stand -/

theorem statusBytes_of_mbox (s : State) (m : Mbox) (hm : m.failed = s.mbox.failed) :
    statusBytes { s with mbox := m } = statusBytes s := by
  have hok : moduleOk { s with mbox := m } = moduleOk s := by
    simp only [moduleOk, hm]
    rfl
  have hlow : faultLow { s with mbox := m } = faultLow s := by
    simp only [faultLow, hm]
    rfl
  have htb : tb3 { s with mbox := m } = tb3 s := rfl
  have hopen : unlocked { s with mbox := m } = unlocked s := rfl
  have hlanes : laneBits { s with mbox := m } = laneBits s := rfl
  have hcause : lastCause { s with mbox := m } = lastCause s := rfl
  simp only [statusBytes, statusFlags, hok, hlow, htb, hopen, hlanes, hcause]

theorem flag_eq (sh : Nat) (b : Bool) : flag sh b = 2 ^ sh * b2n b := by
  cases b <;> simp [flag, b2n]

theorem statusFlags_eq (s : State) : statusFlags s = bitsNum [moduleOk s, faultLow s, s.power.aValid, s.power.bValid,
    s.boot.bootLock, unlocked s, s.maps.configured, s.boot.recovery] := by
  simp only [statusFlags, flag_eq, bitsNum, List.sum_cons, List.sum_nil]
  omega

theorem laneRunning_eq : laneRunning = fun x : Lane => x.epochState == .waitSeal || x.epochState == .compute
    || x.epochState == .committed := by
  funext x
  simp only [laneRunning, beq_eq_decide]

theorem lastCause_eq (s : State) : lastCause s = (s.boot.resetLog.head?.map (·.cause.toNat)).getD 0 := by
  unfold lastCause
  split <;> next h => simp [h]

theorem length_groupBytes (s : State) (g : GroupId) : (groupBytes s g).length = 16 := by
  unfold groupBytes
  split <;> simp

@[simp] theorem leAt_skip_groupBytes (s : State) (g : GroupId) (ys : List Byte) (off w : Nat) :
    leAt (groupBytes s g ++ ys) (off + 16) w = leAt ys off w :=
  leAt_skip (length_groupBytes s g) ..

theorem length_groupEntry (s : State) (g : GroupId) : (groupEntry s g).length = 20 := by
  simp [groupEntry, length_groupBytes]

theorem leAt_groups (s : State) (g : GroupId) {off w : Nat} (h : off + w ≤ 20) :
    leAt (allGroups.flatMap (groupEntry s)) (20 * g.val + off) w = leAt (groupEntry s g) off w := by
  rw [leAt_flatMap (length_groupEntry s) allGroups (by simp [allGroups]) h]
  simp [allGroups]

theorem length_timeEntry (b : TimeBase) : (timeEntry b).length = 16 := by
  simp [timeEntry]

theorem length_lossBytes (e : FeedLoss) : (lossBytes e).length = 16 := by
  simp [lossBytes]

theorem b2n_tbValid (b : TimeBase) : b2n (tbValid b) = if b.state = .locked ∨ b.state = .holdover then 1 else 0 := by
  simp [b2n, tbValid]

/-- The first record of a log whose records have a field at a byte. -/
theorem leAt_first {α : Type} {f : α → List Byte} {off w : Nat} {g : α → Nat}
    (hf : ∀ x ys, leAt (f x ++ ys) off w = g x % 256 ^ w) (xs : List α) : leAt (xs.flatMap f) off w = ((xs.head?.map g).getD 0) % 256 ^ w := by
  cases xs with
  | nil => simp [leAt_nil]
  | cons x xs => simp [List.flatMap_cons, hf]

theorem length_regEntry (e : RegEntry) : (leBytes 8 e.serial.toNat ++ fit 32 e.key).length = 40 := by
  simp

theorem length_margins (s : State) :
    (s.lanes.lane.toList.flatMap fun ln => leBytes 4 (marginOf ln).toNat).length = 32 :=
  length_table (fun _ => length_leBytes ..) _

theorem leAt_margin (s : State) (l : LaneId) :
    leAt (epochMarginBytes s) (4 * l.val) 4 = (laneOf s l).margins.foldl min 0xFFFFFFFF % 256 ^ 4 := by
  have hl := l.isLt
  rw [epochMarginBytes, leAt_append_left _ _ _ _ (by rw [length_margins]; omega)]
  refine (leAt_table_start (w := 4) (fun _ => length_leBytes ..) s.lanes.lane l (by decide)).trans ?_
  rw [leAt_leBytes, marginOf, BitVec.toNat_ofNat]
  exact Nat.mod_mod ..

theorem leAt_lastCommit (s : State) (l : LaneId) :
    leAt (epochMarginBytes s) (32 + 4 * l.val) 4 = (laneOf s l).lastCommit.toNat % 256 ^ 4 := by
  rw [epochMarginBytes, leAt_append_right _ _ _ _ (by rw [length_margins]; omega), length_margins, Nat.add_sub_cancel_left]
  exact (leAt_table_start (w := 4) (fun _ => length_leBytes ..) s.lanes.lane l (by decide)).trans (leAt_leBytes ..)

/-- REC_CFG holds two numbers of two bytes. -/
theorem leAt_morCfg_flush (m : Moraine) (ys : List Byte) : leAt (leBytes 4 (morCfg m) ++ ys) 0 2 = m.flushMs.toNat % 65536 := by
  have := m.flushMs.isLt
  rw [leAt_append_left _ _ _ _ (by simp), leAt_leBytes_low _ (by decide)]
  simp only [morCfg, at', List.sum_cons, List.sum_nil]
  omega

theorem leAt_morCfg_rate (m : Moraine) (ys : List Byte) : leAt (leBytes 4 (morCfg m) ++ ys) 2 2 = m.rate.toNat % 65536 := by
  have hf := m.flushMs.isLt
  have hr := m.rate.isLt
  rw [leAt_append_left _ _ _ _ (by simp), leAt_leBytes_inside _ (by decide)]
  simp only [morCfg, at', List.sum_cons, List.sum_nil]
  omega

/-- Settles O18, answer by answer. -/
theorem plainReadAnswer : Obligations.PlainReadAnswer := by
  intro row hrow
  have hread : PlainRead row.1 row.2.1 row.2.2.1 row.2.2.2.1 row.2.2.2.2.1 row.2.2.2.2.2 := by
    revert row
    simp only [List.forall_mem_cons, List.not_mem_nil, false_implies, implies_true, and_true]
    and_intros
    -- SYS_GET_IDENTITY
    · exact ⟨by decide, fun _ _ => rfl, fun _ _ _ => rfl, fun s => by simp [identityBytes]⟩
    -- SYS_GET_STATUS
    · refine ⟨by decide, fun _ _ => rfl, statusBytes_of_mbox, fun s => ?_⟩
      simp [statusBytes, statusFlags_eq, lastCause_eq, laneBits, laneRunning_eq]
    -- SYS_GET_MEMORY
    · exact ⟨by decide, fun _ _ => rfl, fun _ _ _ => rfl, fun s => by simp [memoryStatus]⟩
    -- SYS_GET_RESET_LOG
    · refine ⟨by decide, fun _ _ => rfl, fun _ _ _ => rfl, fun s => ⟨by simp [resetLogBytes], ?_⟩⟩
      simp only [List.forall_mem_cons, List.not_mem_nil, false_implies, implies_true, and_true, resetLogBytes]
      refine ⟨?_, ?_, ?_⟩ <;> rw [leAt_fit _ (by decide)] <;> exact leAt_first (by simp) _
    -- CFG_GET_STATUS
    · exact ⟨by decide, fun _ _ => rfl, fun _ _ _ => rfl, fun s => by simp [cfgStatus]⟩
    -- EPOCH_GET_CONFIG
    · refine ⟨by decide, fun _ _ => rfl, fun _ _ _ => rfl, fun s => ?_⟩
      have hexchange : exchangeUs s.epoch = periodOf s.epoch.period * 80 := by
        unfold exchangeUs epochUs
        omega
      have hvote : voteUs s.epoch = periodOf s.epoch.period * 40 := by
        unfold voteUs epochUs
        omega
      simp [epochConfigBytes, epochUs, hexchange, hvote, imageMax]
    -- EPOCH_GET_STATUS
    · exact ⟨by decide, fun _ _ => rfl, fun _ _ _ => rfl, fun s => by simp [epochStatusBytes, regBytes]⟩
    -- EPOCH_GET_MARGIN
    · refine ⟨by decide, fun _ _ => rfl, fun _ _ _ => rfl, fun s => ⟨?_, ?_⟩⟩
      · rw [epochMarginBytes, List.length_append, length_table (k := 4) (by simp), length_table (k := 4) (by simp)]
      · refine List.forall_mem_append.2 ⟨List.forall_mem_map.2 fun l _ => ?_, List.forall_mem_map.2 fun l _ => ?_⟩
        · exact leAt_margin s l
        · exact leAt_lastCommit s l
    -- VOTE_GET_STATUS
    · exact ⟨by decide, fun _ _ => rfl, fun _ _ _ => rfl, fun s => by simp [voteStatusBytes, regBytes]⟩
    -- VOTE_GET_LINKS
    · exact ⟨by decide, fun _ _ => rfl, fun _ _ _ => rfl, fun s => by simp [linkBytes]⟩
    -- VOTE_GET_GROUPS
    · refine ⟨by decide, fun _ _ => rfl, fun _ _ _ => rfl, fun s => ⟨?_, ?_⟩⟩
      · rw [length_flatMap_const (length_groupEntry s)]
        rfl
      · refine List.forall_mem_flatMap.2 fun g _ => ?_
        simp [leAt_groups, groupEntry]
    -- VOTE_GET_ADMIT
    · exact ⟨by decide, fun _ _ => rfl, fun _ _ _ => rfl, fun s => by simp [regBytes]⟩
    -- TIME_GET_ALL
    · refine ⟨by decide, fun _ _ => rfl, fun _ _ _ => rfl, fun s => ⟨length_table length_timeEntry _, ?_⟩⟩
      refine List.forall_mem_flatMap.2 fun k _ => ?_
      simp [leAt_table_start length_timeEntry, leAt_table length_timeEntry, timeEntry, b2n_tbValid]
    -- NET_MVB_GET
    · exact ⟨by decide, fun _ _ => rfl, fun _ _ _ => rfl, fun s => by simp⟩
    -- ROUTE_GET_STATUS
    · exact ⟨by decide, fun _ _ => rfl, fun _ _ _ => rfl, fun s => by simp⟩
    -- RACK_GET_STATUS
    · exact ⟨by decide, fun _ _ => rfl, fun _ _ _ => rfl, fun s => by simp [rackCounters]⟩
    -- FIO_GET_STATUS
    · exact ⟨by decide, fun _ _ => rfl, fun _ _ _ => rfl, fun s => by simp⟩
    -- FIO_GET_COMPAT
    · exact ⟨by decide, fun _ _ => rfl, fun _ _ _ => rfl, fun s => by simp⟩
    -- SAFE_GET_STATUS
    · exact ⟨by decide, fun _ _ => rfl, fun _ _ _ => rfl, fun s => by simp⟩
    -- SAFE_GET_CONFIG
    · exact ⟨by decide, fun _ _ => rfl, fun _ _ _ => rfl, fun s => by simp [safetyMapBytes]⟩
    -- ANA_GET_STATUS
    · refine ⟨by decide, fun _ _ => rfl, fun _ _ _ => rfl, fun s => ⟨length_table (fun _ => length_leBytes ..) _, ?_⟩⟩
      refine List.forall_mem_map.2 fun c _ => ?_
      exact (leAt_table_start (w := 4) (fun _ => length_leBytes ..) s.muslin.chan c (by decide)).trans (leAt_leBytes ..)
    -- PWR_GET_STATUS
    · refine ⟨by decide, fun _ _ => rfl, fun _ _ _ => rfl, fun s => ?_⟩
      simp [pwrRead, reg32]
    -- PWR_GET_LOG
    · refine ⟨by decide, fun _ _ => rfl, fun _ _ _ => rfl, fun s => ⟨by simp, ?_⟩⟩
      simp only [List.forall_mem_cons, List.not_mem_nil, false_implies, implies_true, and_true]
      refine ⟨?_, ?_, ?_⟩ <;> rw [leAt_fit _ (by decide)] <;> exact leAt_first (by simp [lossBytes]) _
    -- UPD_GET_STATUS
    · exact ⟨by decide, fun _ _ => rfl, fun _ _ _ => rfl, fun s => by simp [updStatus]⟩
    -- SEC_GET_STATUS
    · exact ⟨by decide, fun _ _ => rfl, fun _ _ _ => rfl, fun s => by simp [secStatus]⟩
    -- SEC_GET_REGISTRY
    · refine ⟨by decide, fun _ _ => rfl, fun _ _ _ => rfl, fun s => ⟨length_table length_regEntry _, ?_⟩⟩
      refine List.forall_mem_map.2 fun k _ => ?_
      exact (leAt_table_start (w := 8) length_regEntry s.sec.registry k (by decide)).trans (leAt_number_append ..)
    -- SEC_GET_IDENTITY
    · refine ⟨by decide, fun _ _ => rfl, fun _ _ _ => rfl, fun s => ?_⟩
      simp [secIdentity]
    -- REC_GET_STATUS
    · refine ⟨by decide, fun _ _ => rfl, fun _ _ _ => rfl, fun s => ?_⟩
      simp [leAt_morCfg_flush, leAt_morCfg_rate]
    -- DBG_GET_STATUS
    · exact ⟨by decide, fun _ _ => rfl, fun _ _ _ => rfl, fun s => by simp⟩
  exact fun pair s hasked hp => ⟨hread.answers hasked hp, hread.laid s⟩

end Sys2Proof.Machine

/-! The read commands that name a port, a channel, an entry or bytes (R249, R260 and the command groups of the chapters), and O19. -/

namespace Sys2Proof.Machine

open Sys2Proof

/-! ### What a read answers -/

/-- A command that reads what lies beside the mailboxes. -/
theorem serve_reads {s : State} {pair : PairId} {c : CmdSpec} {f : State → List Byte → Answer} {p : List Byte} {a : Answer}
    (hasked : Asked s pair c) (hp : payloadOf s pair = p) (hcode : c.code ≠ 0x0100) (hlen : c.lengthOk p.length = true)
    (hst : a.status ≠ stCrc) (hf : ∀ m : Mbox, f { s with mbox := m } p = a) :
    ∃ t, serve s pair c (reads f) = .next t ∧ Answered s t pair a :=
  serve_answer_beside s hasked hp hcode hlen hst rfl fun m _ => congrArg (fun x => (({ s with mbox := m } : State), some x)) (hf m)

theorem serve_reads_ok {s : State} {pair : PairId} {c : CmdSpec} {f : State → List Byte → Answer} {p bytes : List Byte}
    (hasked : Asked s pair c) (hp : payloadOf s pair = p) (hcode : c.code ≠ 0x0100) (hlen : c.lengthOk p.length = true)
    (hf : ∀ m : Mbox, f { s with mbox := m } p = okWith bytes) :
    ∃ t, serve s pair c (reads f) = .next t ∧ Answered s t pair (okWith bytes) :=
  serve_reads hasked hp hcode hlen (show (0 : Nat) ≠ 10 by decide) hf

/-- A number that is the value of an index. -/
theorem eq_index_of_val {n v : Nat} {k : Fin n} (h : v = k.val) : ∃ hlt : v < n, k = ⟨v, hlt⟩ :=
  ⟨h ▸ k.isLt, Fin.ext h.symm⟩

theorem param_or_ok_status (c : Prop) [Decidable c] (bytes : List Byte) :
    (if c then failWith stParam else okWith bytes).status ≠ stCrc := by
  split
  · exact show (4 : Nat) ≠ 10 by decide
  · exact show (0 : Nat) ≠ 10 by decide

theorem romAnswer_status (p : List Byte) : (romAnswer p).status ≠ stCrc := by
  unfold romAnswer
  exact param_or_ok_status _ _

/-! ### SYS_GET_MBOX_STATS (Tables 7.20, 7.21) -/

/-- The statistics of a pair do not tell of its transfer. -/
theorem mboxStats_served {s u : State} {pair : PairId} (hu : Served s u pair) (k : Nat) :
    mboxStats u k = mboxStats (putPair s pair.val { pairAt s pair.val with state := .serving }) k := by
  have hpairs : ∃ x, pairAt u k = { pairAt (putPair s pair.val { pairAt s pair.val with state := .serving }) k with xfer := x } := by
    by_cases hk : k = pair.val
    · subst hk
      exact ⟨_, by rw [hu.own, pairAt_putPair _ _ _ pair.isLt]⟩
    · exact ⟨_, by rw [hu.others k hk, pairAt_putPair_ne _ _ _ _ (Ne.symm hk)]⟩
  obtain ⟨x, hx⟩ := hpairs
  have hbound : pairBound u k = pairBound (putPair s pair.val { pairAt s pair.val with state := .serving }) k := by
    unfold pairBound
    rw [hx, hu.same]
    rfl
  unfold mboxStats
  rw [hbound, hx]

theorem execSysGetMboxStats_answers {s : State} {pair : PairId} {p : List Byte} {k : Nat} (hp : payloadOf s pair = p)
    (hlen : p.length = 4) (hasked : Asked s pair (readCmd 0x0106 2 4)) (hz : allZero p 1 3 = true)
    (hk : k = if u8 p 0 = 0xFF then pair.val else u8 p 0) (hlow : k ≤ 23) (hlane : pair.val < 16 → k / 2 = pair.val / 2) :
    ∃ t, execSysGetMboxStats pair s = .next t ∧
      Answered s t pair (okWith (mboxStats (putPair s pair.val { pairAt s pair.val with state := .serving }) k)) := by
  subst hp
  refine serve_answer s s pair _ _ _ hasked (by decide) (by rw [hlen]; rfl) (show (0 : Nat) ≠ 10 by decide) rfl fun u hu => ?_
  have hanswer : mboxStatsBody pair.val u (payloadOf s pair) = (u, some (okWith (mboxStats u k))) := by
    subst hk
    refine congrArg (fun a => (u, some a)) ((if_neg ?_).trans (if_neg ?_))
    · simpa [hz] using hlow
    · simpa using hlane
  rw [hanswer, mboxStats_served hu k]
  exact congrArg (fun t => (t, _)) hu.same

/-! ### All of them -/

/-- Settles O19: each command is a read whose tests its parameters pass. -/
theorem indexedReadAnswer : Obligations.IndexedReadAnswer := by
  intro pair s p hp
  refine ⟨fun hasked => ?_, fun hasked hlen h0 h1 h8 h8' h10 hend => ?_, fun hasked hlen => ?_, fun hasked hlen => ?_,
    fun hasked hlen h8 h8' h9 hseq => ?_, fun hlen => ⟨fun hasked hz k hk hlow hlane => ?_, fun hasked k h0 hz => ?_,
      fun hasked k h0 hz => ?_, fun hasked k h0 hz => ?_, fun hasked k h0 h1 h2 => ?_, fun hasked h0 hz => ?_,
      fun hasked h0 h1 b hb => ?_, fun hasked k h0 hz => ?_, fun hasked h0 h1 h1' h2 hshadow => ?_,
      fun hasked h0 h1 h1' hz => ?_, fun hasked c h0 hz => ?_, fun hasked k h0 hz => ?_, fun hasked k h0 hz => ?_,
      fun hasked k h0 hz => ?_, fun hasked h0 hz => ?_, fun hasked h2 h2' hend => ?_⟩⟩
  · exact serve_reads_ok hasked hp (by decide) (decide_eq_true (hp ▸ payload_length_le hasked.length)) fun _ => rfl
  · refine serve_reads_ok hasked hp (by decide) (by rw [hlen]; rfl) fun m => (if_neg ?_).trans (if_neg ?_)
    · simp only [h1, h10, Bool.not_true, Bool.or_false, Bool.or_eq_true, decide_eq_true_eq]
      omega
    · exact Nat.not_lt.mpr hend
  · exact serve_reads hasked hp (by decide) (by rw [hlen]; rfl) (romAnswer_status p) fun _ => rfl
  · exact serve_reads_ok hasked hp (by decide) (by rw [hlen]; rfl) fun _ => rfl
  · refine serve_reads hasked hp (by decide) (by rw [hlen]; rfl) (show (0 : Nat) ≠ 10 by decide) fun m => (if_neg ?_).trans ?_
    · simp only [h9, Bool.not_true, Bool.or_false, Bool.or_eq_true, decide_eq_true_eq]
      omega
    · simp [b2n]
  · exact execSysGetMboxStats_answers hp hlen hasked hz hk hlow hlane
  · obtain ⟨hlt, rfl⟩ := eq_index_of_val h0
    exact serve_reads_ok hasked hp (by decide) (by rw [hlen]; rfl) fun m => (dif_pos hlt).trans (if_pos hz)
  · obtain ⟨hlt, rfl⟩ := eq_index_of_val h0
    exact serve_reads_ok hasked hp (by decide) (by rw [hlen]; rfl) fun m => (dif_pos hlt).trans (if_pos hz)
  · obtain ⟨hlt, rfl⟩ := eq_index_of_val h0
    exact serve_reads_ok hasked hp (by decide) (by rw [hlen]; rfl) fun m => (dif_pos hlt).trans (if_pos hz)
  · obtain ⟨hlt, rfl⟩ := eq_index_of_val h0
    refine serve_reads_ok hasked hp (by decide) (by rw [hlen]; rfl) fun m => (dif_pos hlt).trans (if_neg ?_)
    simpa [h1] using h2
  · refine serve_reads_ok hasked hp (by decide) (by rw [hlen]; rfl) fun m => if_neg ?_
    simpa [hz] using h0
  · refine serve_reads_ok hasked hp (by decide) (by rw [hlen]; rfl) fun m => (if_neg ?_).trans ?_
    · simpa [h1] using h0
    · have hb' : pdBytes { s with mbox := m } (u8 p 0) (u16 p 2) = some b := hb
      rw [hb']
  · have hrange : 5 ≤ u8 p 0 ∧ u8 p 0 ≤ 8 := by
      have := k.isLt
      omega
    obtain ⟨hlt, rfl⟩ := eq_index_of_val (v := u8 p 0 - 5) (k := k) (by omega)
    exact serve_reads_ok hasked hp (by decide) (by rw [hlen]; rfl) fun m => (dif_pos hrange).trans (if_pos hz)
  · refine serve_reads_ok hasked hp (by decide) (by rw [hlen]; rfl) fun m => (if_neg ?_).trans (if_neg ?_)
    · simp only [Bool.or_eq_true, decide_eq_true_eq]
      omega
    · simpa using hshadow
  · refine serve_reads_ok hasked hp (by decide) (by rw [hlen]; rfl) fun m => if_neg ?_
    simp only [hz, Bool.not_true, Bool.or_false, Bool.or_eq_true, decide_eq_true_eq]
    omega
  · obtain ⟨hlt, rfl⟩ := eq_index_of_val h0
    exact serve_reads_ok hasked hp (by decide) (by rw [hlen]; rfl) fun m => (dif_pos hlt).trans (if_pos hz)
  · obtain ⟨hlt, rfl⟩ := eq_index_of_val h0
    exact serve_reads_ok hasked hp (by decide) (by rw [hlen]; rfl) fun m => (dif_pos hlt).trans (if_pos hz)
  · obtain ⟨hlt, rfl⟩ := eq_index_of_val h0
    exact serve_reads_ok hasked hp (by decide) (by rw [hlen]; rfl) fun m => (dif_pos hlt).trans (if_pos hz)
  · obtain ⟨hlt, rfl⟩ := eq_index_of_val h0
    exact serve_reads_ok hasked hp (by decide) (by rw [hlen]; rfl) fun m => (dif_pos hlt).trans (if_pos hz)
  · refine serve_reads_ok hasked hp (by decide) (by rw [hlen]; rfl) fun m => if_neg ?_
    simpa [hz] using h0
  · refine serve_reads_ok hasked hp (by decide) (by rw [hlen]; rfl) fun m => if_neg ?_
    simp only [Bool.or_eq_true, decide_eq_true_eq]
    omega

end Sys2Proof.Machine

/-! The time base TB3 through a start (R272, R278, R456), and O55: TB3 always reads LOCKED, and a reset leaves it so. -/

namespace Sys2Proof.Machine

open Sys2Proof

/-- A reset leaves TB3 LOCKED, whatever its cause. -/
theorem cleared_tb3_locked (s : State) (cause : BitVec 8) (env : StartEnv) :
    (cleared s cause env).time.tb[(3 : Fin 4)].state = .locked := by
  have htime : (keptTime s cause).tb[(3 : Fin 4)].state = .locked := by
    unfold keptTime
    split
    · rfl
    · simp [keptBase, TimeBase.reset]
  exact htime

theorem relockAtReset_time (s old : State) (cause : BitVec 8) : (relockAtReset s old cause).time = s.time := by
  unfold relockAtReset
  split
  · rw [recordCommand, record_rest]
  · rfl

theorem firstSample_time (s : State) (cause : BitVec 8) (env : StartEnv) : (firstSample s cause env).time = s.time := by
  unfold firstSample
  split
  · rw [record_rest]
  · rfl

/-- The ticks that pass leave the state of every servo. -/
theorem passTicks_servo (s : State) (n : Nat) (k : Fin 4) : (passTicks s n).time.tb[k].state = s.time.tb[k].state := by
  unfold passTicks
  split
  · simp only [Fin.getElem_fin, Vector.getElem_ofFn]
    split <;> rfl
  · rfl

theorem stayUnitSafe_time (old : State) (cause : BitVec 8) (s : State) : (stayUnitSafe old cause s).time = s.time := by
  unfold stayUnitSafe
  split <;> rfl

/-- A start that stops before the loader ends with TB3 LOCKED. -/
theorem startModule_refused_tb3_locked (s : State) (cause : BitVec 8) {env : StartEnv} (hloader : env.loaderOk = false) :
    (startModule s cause env).time.tb[(3 : Fin 4)].state = .locked := by
  unfold startModule
  simp only [stayUnitSafe_time, hloader, Bool.not_false, Bool.true_or, if_true]
  exact (passTicks_servo _ _ 3).trans (by rw [firstSample_time, relockAtReset_time, cleared_tb3_locked])

/-- A start whose loader fails its check (R492). -/
def loaderFails : StartEnv := ⟨1, false, true, true, true, Vector.replicate 8 0x3F, false, 900⟩

/-- Refutes O55: the statement asks for all four time bases in FREE after a start, and TB3, which has no servo, always reads LOCKED
(R278). The counterexample is the reset state, a module without power, whose feed A becomes valid. -/
theorem not_startResult : ¬ Obligations.StartResult := by
  intro h
  obtain ⟨⟨t, hexec, hstarted⟩, -⟩ := (h.1 .a 1 loaderFails State.reset).1 (by decide)
  obtain ⟨hfree, -⟩ := hstarted.servos 3
  have ht : t = powerOn State.reset .a loaderFails := (Host.Outcome.next.inj hexec).symm
  have hlocked : t.time.tb[(3 : Fin 4)].state = .locked := by
    rw [ht]
    exact startModule_refused_tb3_locked _ _ rfl
  rw [hlocked] at hfree
  cases hfree

end Sys2Proof.Machine

/-! The passing of time (R271, R224), and O56: one tick of the reference, and the command at the front of the queue. -/

namespace Sys2Proof.Machine

open Sys2Proof

/-! ### Commands that a freeze does not halt -/

theorem always_of_powered {s : State} {d : Nat} (t : State) (h : powered s d = true) : always s d t = .next t := by
  unfold always
  rw [if_pos h]

/-! ### One tick (R271) -/

theorem passTicks_rest (s : State) (n : Nat) :
    passTicks s n = { s with time := { s.time with tb := (passTicks s n).time.tb } } := by
  unfold passTicks
  split <;> rfl

/-- While the reference counts, every time base counts that no freeze holds. -/
theorem passTicks_tb {s : State} (hpower : powered s 0 = true) (href : s.time.refMissing = false) (n : Nat) (k : Fin 4) :
    (passTicks s n).time.tb[k] = if s.time.tbHeld && k.val != 3 then s.time.tb[k] else tbAfter s.time.tb[k] n := by
  unfold passTicks
  rw [if_pos (by rw [hpower, href]; rfl)]
  simp

theorem passTicks_of_still {s : State} (h : powered s 0 = false ∨ s.time.refMissing = true) (n : Nat) : passTicks s n = s := by
  unfold passTicks
  rw [if_neg]
  rcases h with h | h <;> simp [h]

/-- An upset, or none, takes one free value. -/
theorem upsetArises_rest (s : State) : upsetArises s =
    { s with mem := { s.mem with upsets := (upsetArises s).mem.upsets }, freeCtr := s.freeCtr + 1 } := by
  unfold upsetArises takeFree
  dsimp only
  split <;> rfl

theorem upsetArises_upsets (s : State) :
    (upsetArises s).mem.upsets = s.mem.upsets ∨ ∃ u, (upsetArises s).mem.upsets = u :: s.mem.upsets := by
  unfold upsetArises takeFree
  dsimp only
  split
  · exact .inr ⟨_, rfl⟩
  · exact .inl rfl

theorem clockTick_tb (s : State) : (clockTick s).time.tb = (passTicks s 1).time.tb := by
  unfold clockTick
  rw [upsetArises_rest]

theorem clockTick_upsets (s : State) :
    (clockTick s).mem.upsets = s.mem.upsets ∨ ∃ u, (clockTick s).mem.upsets = u :: s.mem.upsets := by
  have hupset := upsetArises_upsets (passTicks s 1)
  have hmem : (passTicks s 1).mem = s.mem := by rw [passTicks_rest]
  rwa [hmem] at hupset

/-- A tick changes time bases and upsets, and takes one free value. -/
theorem clockTick_rest (s : State) : clockTick s =
    { s with time := { s.time with tb := (clockTick s).time.tb }, mem := { s.mem with upsets := (clockTick s).mem.upsets }
             freeCtr := s.freeCtr + 1 } := by
  rw [clockTick_tb]
  have htime := passTicks_rest s 1
  have hupset := upsetArises_rest (passTicks s 1)
  unfold clockTick
  generalize upsetArises (passTicks s 1) = t at *
  generalize passTicks s 1 = u at *
  rw [hupset, htime]

theorem step_of_idle {s : State} (h : s.pending = []) : step s = .next (clockTick s) := by
  unfold step
  rw [h]

/-- Settles O56: the queue by whether it has a front command, and the tick by whether the reference counts and a freeze holds the
time base. -/
theorem stepRunsFrontCommand : Obligations.StepRunsFrontCommand := by
  refine ⟨fun c s => rfl, fun s hidle => ⟨clockTick s, step_of_idle hidle, fun hpower href k => ?_, fun hstill => ?_,
    clockTick_upsets s, clockTick_rest s⟩⟩
  · rw [clockTick_tb, passTicks_tb hpower href]
    refine ⟨fun hheld hk => ?_, fun hcounts => ?_⟩
    · rw [if_pos (by simp [hheld, hk])]
    · rw [if_neg (by rcases hcounts with h | h <;> simp [h])]
      simp only [tbAfter, effIncr, Nat.cast_one, one_mul]
  · rw [clockTick_tb, passTicks_of_still hstill]

end Sys2Proof.Machine

/-! Captures, pulse outputs and the loss of the reference (R281 to R288), and O43. -/

namespace Sys2Proof.Machine

open Sys2Proof

/-! ### Captures (R281 to R284) -/

section Capture

variable {s : State} {i : Fin 16}

/-- The unit takes an edge, and calving has not stopped it (R282, R287). -/
theorem exec_capture_taken {falling : Bool} (glitch : Bool) (hpower : powered s 0 = true)
    (htakes : capTakes s s.time.cap[i] falling = true) (hstage : s.power.stage.toNat < 5) :
    exec (.capture i falling glitch) s = .next (captureNow s i falling (glitch && s.time.cap[i].edge == 3)) :=
  (always_of_powered _ hpower).trans
    (congrArg Host.Outcome.next (if_pos (by rw [htakes, decide_eq_true hstage, Bool.and_self])))

theorem exec_capture_refused {falling : Bool} (glitch : Bool) (hpower : powered s 0 = true)
    (h : capTakes s s.time.cap[i] falling = false ∨ 5 ≤ s.power.stage.toNat) :
    exec (.capture i falling glitch) s = .next s := by
  refine (always_of_powered _ hpower).trans (congrArg Host.Outcome.next (if_neg ?_))
  rcases h with h | h
  · rw [h, Bool.false_and]
    decide
  · rw [decide_eq_false (Nat.not_lt.mpr h), Bool.and_false]
    decide

theorem capTakes_of_selected {c : CapUnit} {falling : Bool} (hen : c.en = true) (hsource : c.source ≠ 0)
    (hedge : c.edge.getLsbD (if falling then 1 else 0) = true) (hquiet : c.quietUntil ≤ tb3 s) :
    capTakes s c falling = true := by
  have hbit : b2n falling = if falling then 1 else 0 := rfl
  have hwired : (c.source != 0) = true := bne_iff_ne.mpr hsource
  rw [capTakes, hen, hwired, hbit, hedge, decide_eq_true hquiet]
  rfl

theorem queueItem_rest (s : State) (stamp source sub : Nat) (body : List Byte) (mark : List Byte → List Byte) :
    queueItem s stamp source sub body mark = { s with epoch := (queueItem s stamp source sub body mark).epoch } := by
  unfold queueItem
  dsimp only
  split
  · split <;> rfl
  · rfl

/-- What is queued does not depend on the time block. -/
theorem queueItem_of_time (s : State) (x : TimeBlock) (stamp source sub : Nat) (body : List Byte)
    (mark : List Byte → List Byte) :
    queueItem { s with time := x } stamp source sub body mark = { queueItem s stamp source sub body mark with time := x } := by
  unfold queueItem
  dsimp only
  split
  · split <;> rfl
  · rfl

/-- The instant of an edge of a capture unit on a time base, compensated to the pin (R282). -/
def capStamp (s : State) (i : Fin 16) (k : Fin 4) : TbValue :=
  tbBack s.time.tb[k].value (capDelay s.time.cap[i].source.toNat)

/-- A capture unit that has taken an edge: deaf for 100 ns, with the count of the epoch of the edge (R282, R283). -/
def capTaken (s : State) (i : Fin 16) : CapUnit :=
  let c := s.time.cap[i]
  let n := tbNanos (capStamp s i 2) / epochNs s.epoch + 1
  { c with quietUntil := tb3 s + 100, epoch := n, placed := if c.epoch = n then c.placed else 0 }

/-- The state with a capture unit replaced. -/
def putCap (s : State) (i : Fin 16) (c : CapUnit) : State :=
  { s with time := { s.time with cap := s.time.cap.set i.val c } }

theorem putCap_cap (s : State) (i : Fin 16) (c : CapUnit) : (putCap s i c).time.cap[i] = c := by
  simp [putCap]

/-- A capture within the limit of its epoch is queued (R283). -/
theorem captureNow_of_room (falling glitch : Bool) (h : (capTaken s i).placed < s.time.cap[i].limit.toNat) :
    captureNow s i falling glitch =
      let c := s.time.cap[i]
      let item := captureItem i c falling glitch (tbValid s.time.tb[c.tb.toNat]) (capStamp s i ⟨c.tb.toNat, c.tb.isLt⟩)
        (capStamp s i 2)
      putCap { s with epoch := (queueItem s (tbNanos (capStamp s i 2)) 1 i.val item id).epoch } i
        { capTaken s i with cnt := satInc c.cnt, placed := (capTaken s i).placed + 1, lostFlag := false } := by
  refine (if_pos h).trans ((queueItem_of_time s _ _ _ _ _ _).trans ?_)
  rw [queueItem_rest s]
  rfl

/-- A capture beyond the limit of its epoch is counted as lost (R284). -/
theorem captureNow_of_full (falling glitch : Bool) (h : s.time.cap[i].limit.toNat ≤ (capTaken s i).placed) :
    captureNow s i falling glitch = timeEvent (putCap s i
      { capTaken s i with lost := satInc s.time.cap[i].lost, lostFlag := true }) 10 :=
  if_neg (Nat.not_lt.mpr h)

end Capture

/-! ### Edges of pulse outputs (R285) -/

section Outputs

variable {s : State} {p : Fin 8}

theorem putTpo_tpo (s : State) (p : Fin 8) (o : Tpo) : (putTpo s p o).time.tpo[p] = o := by
  simp [putTpo]

/-- The time base of an output. -/
def tpoBase (o : Tpo) : Fin 4 := ⟨o.tb.toNat, o.tb.isLt⟩

/-- The state once the time base of an output has come to its next edge. -/
def atNextEdge (s : State) (o : Tpo) : State := passUntil s (tpoBase o) o.nextEdge

/-- An armed output drives its next edge once its time base reaches it. -/
theorem exec_tpoEdge_reached (hpower : powered s 0 = true)
    (hen : s.time.tpo[p].en = true) (harmed : s.time.tpo[p].armed = true) (hstage : s.power.stage.toNat < 5)
    (hreached : reached (atNextEdge s s.time.tpo[p]) (tpoBase s.time.tpo[p]) s.time.tpo[p].nextEdge = true) :
    exec (.tpoEdge p) s = .next (putTpo (atNextEdge s s.time.tpo[p]) p (tpoDrive s.time.tpo[p])) :=
  (always_of_powered _ hpower).trans
    (congrArg Host.Outcome.next (if_pos (by rw [hen, harmed, decide_eq_true hstage]; exact hreached)))

theorem tpoDrive_of_leading {o : Tpo} (h : o.nextLeading = true) :
    tpoDrive o = { o with active := true, nextLeading := false, nextEdge := o.nextEdge + o.width.toNat } :=
  if_pos h

theorem tpoDrive_of_periodic {o : Tpo} (hlead : o.nextLeading = false) (h : o.periodic = true) :
    tpoDrive o = { o with
      active := false, nextLeading := true, nextEdge := o.nextEdge - o.width.toNat + o.period.toNat } :=
  (if_neg (Bool.eq_false_iff.mp hlead)).trans (if_pos h)

theorem tpoDrive_of_oneShot {o : Tpo} (hlead : o.nextLeading = false) (h : o.periodic = false) :
    tpoDrive o = { o with active := false, armed := false } :=
  (if_neg (Bool.eq_false_iff.mp hlead)).trans (if_neg (Bool.eq_false_iff.mp h))

/-! ### Registers of pulse outputs (R287, Table 8.12) -/

theorem exec_tpoCtrlWrite (hrun : running s 0 = true) (r : Fin 6) (data : U32) :
    exec (.tpoCtrlWrite p r data) s = .next (tpoWrite s p r.val data) :=
  live_of_running _ hrun

theorem tpoWrite_of_enabled {r : Fin 6} (data : U32) (hr : r.val ≠ 0) (hen : s.time.tpo[p].en = true) :
    tpoWrite s p r.val data = timeEvent s 11 := by
  match r, hr with
  | 1, _ | 2, _ | 3, _ | 4, _ | 5, _ => exact if_pos hen

/-- A setting of an output: START in three registers, PERIOD and WIDTH. -/
def tpoSetting (o : Tpo) (r : Fin 6) (data : U32) : Tpo :=
  match r.val with
  | 1 => { o with startNs := data.extractLsb' 0 30 }
  | 2 => { o with startSec := o.startSec.extractLsb' 32 16 ++ data }
  | 3 => { o with startSec := data.extractLsb' 0 16 ++ o.startSec.extractLsb' 0 32 }
  | 4 => { o with period := data }
  | _ => { o with width := data }

theorem tpoWrite_of_disabled {r : Fin 6} (data : U32) (hr : r.val ≠ 0) (hen : s.time.tpo[p].en = false) :
    tpoWrite s p r.val data = putTpo s p (tpoSetting s.time.tpo[p] r data) := by
  match r, hr with
  | 1, _ | 2, _ | 3, _ | 4, _ | 5, _ => exact if_neg (Bool.eq_false_iff.mp hen)

/-- What a write of CTRL makes of MODE, POL and TB of an output that is not enabled. -/
def tpoModed (o : Tpo) (data : U32) : Tpo :=
  { o with periodic := data.getLsbD 1, pol := data.getLsbD 2, tb := data.extractLsb' 3 2 }

/-- The state with the events of the time block replaced. -/
def putTimeEvent (s : State) (e : BitVec 14) : State := { s with time := { s.time with event := e } }

/-- An enabled output that is stopped keeps its time base; a write that would change it is noted. -/
theorem tpoWrite_stop {data : U32} (hbit : data.getLsbD 0 = false) (hen : s.time.tpo[p].en = true) :
    tpoWrite s p 0 data =
      putTpo (putTimeEvent s (if data.extractLsb' 3 2 = s.time.tpo[p].tb then s.time.event else setBit s.time.event 11)) p
        { s.time.tpo[p] with
          periodic := data.getLsbD 1, pol := data.getLsbD 2, en := false, armed := false, active := false } := by
  unfold tpoWrite
  dsimp only
  rw [hbit]
  simp only [tpoSetEn, hen, tpoStop, Bool.true_and, bne_iff_ne, ne_eq, ite_not, if_true, Bool.false_eq_true, if_false]
  split <;> rfl

/-- The time base that a write of CTRL selects, as its number in the word. -/
theorem tb_of_ctrl (s : State) (data : U32) :
    s.time.tb[(data.extractLsb' 3 2 : BitVec 2).toNat] = s.time.tb[data.toNat / 8 % 4] := by
  simp [BitVec.extractLsb'_toNat, Nat.shiftRight_eq_div_pow]

/-- An output is enabled at the present time of the time base that the write selects. -/
theorem tpoWrite_start {data : U32} (hbit : data.getLsbD 0 = true) (hen : s.time.tpo[p].en = false) :
    tpoWrite s p 0 data =
      let r := tpoEnable (tpoModed s.time.tpo[p] data) (tbNanos s.time.tb[data.toNat / 8 % 4].value)
      putTpo (putTimeEvent s (if r.2 then setBit s.time.event 12 else s.time.event)) p r.1 := by
  rw [← tb_of_ctrl]
  unfold tpoWrite
  dsimp only
  rw [hbit]
  simp only [tpoSetEn, hen, tpoModed, Bool.false_and, if_true, Bool.false_eq_true, if_false]
  split <;> rfl

/-! ### An output that is enabled (R285, R286) -/

/-- An output that has been enabled, before its first edge is known. -/
def tpoOpened (o : Tpo) : Tpo := { o with en := true, active := false, missed := 0 }

theorem tpoOk_iff (o : Tpo) : tpoOk o = true ↔ o.startNs.toNat < 1000000000 ∧ 100 ≤ o.width.toNat ∧ 1000 ≤ o.period.toNat ∧
    (o.periodic = true → o.width.toNat < o.period.toNat) := by
  unfold tpoOk
  cases o.periodic <;> simp [and_assoc]

section Enable

variable {o : Tpo} {now : Nat}

/-- A schedule beyond the limits of R285 has no edge. -/
theorem tpoEnable_of_bad (hok : tpoOk o = false) : tpoEnable o now = ({ tpoOpened o with armed := false }, false) :=
  if_pos (show (!tpoOk o) = true by rw [hok]; rfl)

/-- A schedule within the limits goes by its START. -/
theorem tpoEnable_of_ok (hok : tpoOk o = true) : tpoEnable o now =
    if now ≤ tpoStart o then (tpoNext (tpoOpened o) (some (tpoStart o, true)), false)
    else if o.periodic then
      (tpoNext (tpoOpened o)
        (some (tpoStart o + (now - tpoStart o + o.period.toNat - 1) / o.period.toNat * o.period.toNat, true)), false)
    else ({ tpoOpened o with armed := false, missed := 1 }, true) :=
  if_neg (show ¬ (!tpoOk o) = true by rw [hok]; decide)

end Enable

/-- The first instant of a schedule from `now` on is less than a period ahead. -/
theorem first_multiple_from {start now p : Nat} (hp : 0 < p) (h : start < now) :
    now ≤ start + (now - start + p - 1) / p * p ∧ start + (now - start + p - 1) / p * p < now + p := by
  have hdiv := Nat.div_add_mod' (now - start + p - 1) p
  have hmod := Nat.mod_lt (now - start + p - 1) hp
  omega

end Outputs

/-! ### The reference is lost (R288) -/

/-- The reference is missing, and digests and release stop. -/
def withoutReference (s : State) : State :=
  { s with time := { s.time with refMissing := true }, weft := { s.weft with stopped := true } }

theorem exec_refLoss {s : State} (hpower : powered s 0 = true) :
    exec .refLoss s = .next (if s.time.refMissing then s else recordOpen (withoutReference s) 0x12 0xFF) :=
  always_of_powered _ hpower

/-- The loss is recorded, and a record changes the recorder alone. -/
theorem recordOpen_withoutReference (s : State) :
    let t := recordOpen (withoutReference s) 0x12 0xFF
    t.time = { s.time with refMissing := true } ∧ t.weft = { s.weft with stopped := true } ∧
      t = { s with time := t.time, weft := t.weft, mor := t.mor, freeCtr := s.freeCtr + 1 } := by
  have hrest := recordOpen_rest (withoutReference s) 0x12 0xFF
  generalize recordOpen (withoutReference s) 0x12 0xFF = t at *
  rw [hrest]
  exact ⟨rfl, rfl, rfl⟩

/-! ### The statement -/

/-- Settles O43, command by command: an edge by whether the unit takes it and has room, a pulse output by its next edge, a register
by whether its output is enabled. That a register write beyond the limits of R285 enables an output that has no edge is the model's
choice by log entry 29, and details of captures are its choice by log entry 87. -/
theorem timeEdgeResult : Obligations.TimeEdgeResult := by
  refine ⟨fun i falling glitch s hpower => ⟨exec_capture_refused glitch hpower, fun hen hsource hedge hquiet hstage => ?_⟩,
    fun p s hpower hen harmed hstage hreached => ?_, fun p data s hrun => ⟨fun r hr hen => ?_, fun r hr hen => ?_,
      fun hbit hen => ?_, fun hbit hen => ⟨fun hok => ?_, fun hok => ?_⟩⟩, fun s hpower => ⟨fun hmissing => ?_, fun hmissing => ?_⟩⟩
  · have hexec := exec_capture_taken glitch hpower (capTakes_of_selected hen hsource hedge hquiet) hstage
    refine ⟨fun hroom => ⟨_, hexec.trans (congrArg _ (captureNow_of_room _ _ hroom)), ?_⟩,
      fun hfull => ⟨_, hexec.trans (congrArg _ (captureNow_of_full _ _ hfull)), ?_⟩⟩
    · exact ⟨putCap_cap .., rfl, by rw [putCap_cap]; rfl⟩
    · have hcap := putCap_cap s i { capTaken s i with lost := satInc s.time.cap[i].lost, lostFlag := true }
      exact ⟨hcap, congrArg (fun c => timeEvent (putCap s i c) 10) hcap.symm⟩
  · refine ⟨_, exec_tpoEdge_reached hpower hen harmed hstage hreached, fun hlead => ?_, fun hlead hperiodic => ?_,
      fun hlead hperiodic => ?_, by rw [putTpo_tpo]; rfl⟩
    · rw [putTpo_tpo, tpoDrive_of_leading hlead]
    · rw [putTpo_tpo, tpoDrive_of_periodic hlead hperiodic]
    · rw [putTpo_tpo, tpoDrive_of_oneShot hlead hperiodic]
  · rw [exec_tpoCtrlWrite hrun, tpoWrite_of_enabled data hr hen]
    rfl
  · rw [exec_tpoCtrlWrite hrun, tpoWrite_of_disabled data hr hen]
    rfl
  · refine ⟨_, (exec_tpoCtrlWrite hrun 0 data).trans (congrArg _ (tpoWrite_stop hbit hen)), rfl, putTpo_tpo .., ?_⟩
    rw [putTpo_tpo]
    rfl
  · have hbad : tpoOk (tpoModed s.time.tpo[p] data) = false := Bool.eq_false_iff.mpr (mt (tpoOk_iff _).mp hok)
    rw [exec_tpoCtrlWrite hrun, show (0 : Fin 6).val = 0 from rfl, tpoWrite_start hbit hen, tpoEnable_of_bad hbad]
    rfl
  · have hgood := tpoEnable_of_ok (now := tbNanos s.time.tb[data.toNat / 8 % 4].value)
      ((tpoOk_iff (tpoModed s.time.tpo[p] data)).mpr hok)
    have hperiod : 0 < s.time.tpo[p].period.toNat := by omega
    refine ⟨_, (exec_tpoCtrlWrite hrun 0 data).trans (congrArg _ (tpoWrite_start hbit hen)), fun hahead => ?_,
      fun hpast hperiodic => ?_, fun hpast honce => ?_, ?_⟩
    · rw [putTpo_tpo, hgood.trans (if_pos hahead)]
      rfl
    · rw [putTpo_tpo, hgood.trans ((if_neg (Nat.not_le.mpr hpast)).trans (if_pos hperiodic))]
      exact ⟨_, rfl, first_multiple_from hperiod hpast⟩
    · rw [putTpo_tpo, hgood.trans ((if_neg (Nat.not_le.mpr hpast)).trans (if_neg (Bool.eq_false_iff.mp honce)))]
      exact ⟨rfl, rfl⟩
    · rw [putTpo_tpo]
      rfl
  · rw [exec_refLoss hpower, if_pos hmissing]
  · rw [exec_refLoss hpower, if_neg (Bool.eq_false_iff.mp hmissing)]
    exact ⟨_, rfl, recordOpen_withoutReference s⟩

end Sys2Proof.Machine

/-! A step of TB2 and the raw input image (R39, R331, R342, R343), and O42: the lane that owns the lock of the rack bus becomes
DIVERGED, the lock is broken, and the ERROR item of LOCK_BROKEN enters the image. -/

namespace Sys2Proof.Machine

open Sys2Proof

/-- A rack section that lets one rack item enter a raw image. -/
def oneItemMap : RackMap :=
  { eventLimit := 1, scanLeadUs := 0, scan := [], wlGroup := 0, wlOffset := 0, wlLength := 0, inBase := 0, irqSignal := 0
    statusSignal := 0, ranges := [] }

/-- A measurement of 200 µs, more than a servo takes without a step (R275). -/
def farMeas : Int := 200000 * 2 ^ 16

/-- A module whose lane 0 computes and owns the lock of the rack bus, while TB2 runs an update and holds a measurement. -/
def lockOwnerBeforeStep : State :=
  let r := State.reset
  { r with
    power := { r.power with domains := 0xFFF }
    lanes := { r.lanes with lane := r.lanes.lane.set 0 { Lane.reset with epochState := .compute } }
    rack := { r.rack with map := some oneItemMap, lock := true, owner := 0 }
    time := { r.time with tb := r.time.tb.set 2 { TimeBase.reset 2 with busy := true, heldMeas := some farMeas } } }

/-- The module once the held measurement has made TB2 step. -/
def lockOwnerAfterStep : State := servoUpdate (putTb lockOwnerBeforeStep 2 (TimeBase.reset 2)) 2 farMeas

theorem exec_servoHeldUpdate_lockOwner : exec (.servoHeldUpdate 2) lockOwnerBeforeStep = .next lockOwnerAfterStep := rfl

/-- The ERROR item of the broken lock is queued. -/
theorem lockOwnerAfterStep_items : lockOwnerAfterStep.epoch.items.length = 1 := by decide +kernel

/-- The frame of a step that the statement asks for leaves the queued items of the raw image. -/
theorem Stepped.items {s t : State} {k : Fin 4} {b : TimeBase} {m : Int} (h : Stepped s t k b m) :
    t.epoch.items = s.epoch.items := by
  rw [h.rest]
  dsimp only
  split <;> rfl

/-- Refutes O42: of the epoch, the statement lets a step of TB2 change the events, the next boundary and the resync alone, but the
lock of a lane that the step makes DIVERGED is broken, and its ERROR item is queued for the raw image. The counterexample is
SERVO_HELD_UPDATE of TB2 with a held measurement of 200 µs while lane 0 computes and owns the lock. -/
theorem not_timeServoResult : ¬ Obligations.TimeServoResult := by
  intro h
  obtain ⟨-, hheld, -⟩ := h.2.1 2 lockOwnerBeforeStep (by decide)
  obtain ⟨t, hexec, hstepped⟩ := (hheld farMeas rfl).2 (.inr (by decide))
  have ht : lockOwnerAfterStep = t := Host.Outcome.next.inj (exec_servoHeldUpdate_lockOwner.symm.trans hexec)
  have hitems : lockOwnerAfterStep.epoch.items = [] := ht ▸ hstepped.items
  have hlength := lockOwnerAfterStep_items
  rw [hitems] at hlength
  cases hlength

end Sys2Proof.Machine


/-! Commands of the network and the route table (R298, R313, R317 to R319, R323, Table 9.10), and O21. -/

namespace Sys2Proof.Machine

open Sys2Proof

/-! ### A port that takes no frames -/

theorem port_deliverItem (s : State) (k : Fin 4) (i kind src : Nat) (m : List Byte) :
    (deliverItem s i kind src m).pkt.port[k] = s.pkt.port[k] := by
  rw [deliverItem, queueItem_rest]
  rfl

section Shut

variable {s : State} {k : Fin 4} (hshut : portTakes s.pkt.port[k] = false)
include hshut

theorem port_enqueue_of_shut (p : Fin 4) (q : Nat) (f : EthFrame) : (enqueue s p q f).pkt.port[k] = s.pkt.port[k] := by
  unfold enqueue
  dsimp only
  split
  · next htakes =>
    have hne : k ≠ p := by
      rintro rfl
      exact Bool.false_ne_true (hshut.symm.trans htakes)
    exact putPort_other s p _ k hne
  · rfl

theorem port_mboxDatagram_of_shut (i : Nat) (m : List Byte) : (mboxDatagram s i m).pkt.port[k] = s.pkt.port[k] := by
  unfold mboxDatagram
  dsimp only
  split
  · rfl
  · split
    · split
      · exact port_enqueue_of_shut (s := putPair s i _) hshut ..
      · rfl
    · rfl

theorem port_mboxSend_of_shut (i : Nat) (m : List Byte) : (mboxSend s i m).pkt.port[k] = s.pkt.port[k] := by
  unfold mboxSend
  dsimp only
  split_ifs
  · exact port_mboxDatagram_of_shut (s := putPair s i { pairAt s i with lastSent := m }) hshut ..
  all_goals rfl

theorem port_respond_of_shut (i : Nat) (r : Request) (a : Answer) : (respond s i r a).pkt.port[k] = s.pkt.port[k] := by
  have hevent : ∀ (p : MailPair) (c : Prop) [Decidable c],
      (if c then mboxEvent (putPair s i p) 0 else putPair s i p).pkt.port[k] = s.pkt.port[k] := by
    intro p c _
    split <;> rfl
  unfold respond
  dsimp only
  split
  · exact (port_deliverItem ..).trans (hevent ..)
  · exact (port_mboxSend_of_shut (by rw [hevent]; exact hshut) ..).trans (hevent ..)

end Shut

theorem port_of_served {s u : State} {pair : PairId} (h : Served s u pair) (k : Fin 4) : u.pkt.port[k] = s.pkt.port[k] := by
  rw [h.same]

/-- The requests that repeat, or whose code is not defined, are answered without a frame on a port that takes none. -/
theorem port_mboxAuto_of_shut {s : State} {k : Fin 4} (hshut : portTakes s.pkt.port[k] = false) :
    (mboxAuto s).pkt.port[k] = s.pkt.port[k] := by
  refine mboxAutoN_keeps (P := fun t => t.pkt.port[k] = s.pkt.port[k]) (fun t i ht hturn _ => ?_) (fun t i ht hturn _ => ?_)
    24 rfl
  · have hbegun := port_of_served (served_beginService t ⟨i, (mboxTurn_pending t i hturn).2⟩) k
    exact (port_deliverItem ..).trans (hbegun.trans ht)
  · have hbegun := port_of_served (served_closeOther t ⟨i, (mboxTurn_pending t i hturn).2⟩ (requestOf t i)) k
    exact (port_respond_of_shut (by rw [hbegun, ht]; exact hshut) ..).trans (hbegun.trans ht)

/-- The answer to a served command, and the answers to the requests behind it, leave a port that takes no frames as the command's
effect `b` has it. -/
theorem serve_answer_of_shut {s : State} (b : State) {pair : PairId} {c : CmdSpec} {body : Body} {p : List Byte} {a : Answer}
    {k : Fin 4} (hasked : Asked s pair c) (hp : payloadOf s pair = p) (hcode : c.code ≠ 0x0100)
    (hlen : c.lengthOk p.length = true) (hst : a.status ≠ stCrc) (hb : b.mbox = s.mbox)
    (hbody : ∀ u, Served s u pair → body u p = ({ b with mbox := u.mbox }, some a))
    (hshut : portTakes b.pkt.port[k] = false) :
    ∃ t, serve s pair c body = .next t ∧ Answered b t pair a ∧ t.pkt.port[k] = b.pkt.port[k] := by
  subst hp
  obtain ⟨t, hserve, hanswered⟩ := serve_answer s b pair c body a hasked hcode hlen hst hb hbody
  obtain ⟨u, hu, hrun⟩ := serve_body s pair c body hasked hcode hlen
  rw [hbody u hu] at hrun
  obtain rfl := Host.Outcome.next.inj (hrun.symm.trans hserve)
  have hrespond := port_respond_of_shut (s := { b with mbox := u.mbox }) hshut pair.val (requestOf s pair.val) a
  exact ⟨_, hserve, hanswered, (port_mboxAuto_of_shut (by rw [hrespond]; exact hshut)).trans hrespond⟩

/-! ### Frames that are lost with their port (R310, Table 9.7) -/

/-- A frame that ring `x.1` posted for its entry `x.2` is lost: with the last one the descriptor is completed as discarded. -/
def ringLost (s : State) (x : Nat × Nat) : State :=
  let i : Fin 64 := ⟨x.1 % 64, Nat.mod_lt _ (by decide)⟩
  let r := s.pkt.ring[i]
  if r.posted = 0 || r.head.toNat != x.2 then s
  else if 1 < r.posted then putRing s i { r with posted := r.posted - 1 }
  else ringComplete (putRing s i { r with posted := 0 }) i 4 (fun m _ => m)

/-- A frame that is lost takes no timestamp. -/
theorem ringSent_of_lost (s : State) (p : Fin 4) {f : EthFrame} {x : Nat × Nat} (h : f.ring = some x) :
    ringSent s p f 4 = ringLost s x := by
  have hunstamped : ∀ (u : State) (b c : Bool), takeStamp u p ((b && (4 : Nat) == 0) && c) 0 = (u, none) := by
    intro u b c
    rw [show ((4 : Nat) == 0) = false from rfl, Bool.and_false, Bool.false_and]
    rfl
  simp only [ringSent, ringLost, h, hunstamped]

theorem ringSent_lost_of_mbox (s : State) (m : Mbox) (p : Fin 4) (f : EthFrame) :
    ringSent { s with mbox := m } p f 4 = { ringSent s p f 4 with mbox := m } := by
  cases h : f.ring with
  | none => simp only [ringSent_of_no_ring _ p 4 h]
  | some x =>
    rw [ringSent_of_lost _ p h, ringSent_of_lost _ p h]
    unfold ringLost
    dsimp only
    split
    · rfl
    · split <;> rfl

theorem ringSent_lost_port (s : State) (p : Fin 4) (f : EthFrame) : (ringSent s p f 4).pkt.port = s.pkt.port := by
  cases h : f.ring with
  | none => rw [ringSent_of_no_ring _ p 4 h]
  | some x =>
    rw [ringSent_of_lost _ p h]
    unfold ringLost
    dsimp only
    split
    · rfl
    · split <;> rfl

theorem portLost_of_mbox (s : State) (m : Mbox) (p : Fin 4) (x : EthPort) :
    portLost { s with mbox := m } p x = { portLost s p x with mbox := m } := by
  unfold portLost
  refine List.foldl_hom (g₁ := fun u f => ringSent u p f 4) (g₂ := fun u f => ringSent u p f 4)
    (fun u : State => { u with mbox := m }) fun u f => ringSent_lost_of_mbox u m p f

theorem portLost_mbox (s : State) (p : Fin 4) (x : EthPort) : (portLost s p x).mbox = s.mbox := by
  have h := congrArg State.mbox (portLost_of_mbox s s.mbox p x)
  exact h

/-- The ports stand while the frames of one of them are lost. -/
theorem portLost_port (s : State) (p : Fin 4) (x : EthPort) : (portLost s p x).pkt.port = s.pkt.port :=
  List.foldlRecOn (motive := fun t : State => t.pkt.port = s.pkt.port) _ _ rfl
    fun t ht f _ => (ringSent_lost_port t p f).trans ht

/-! ### The bodies of the network commands (R298, R313, R323) -/

section Bodies

variable {s : State} {p : List Byte}

theorem setPortBody_accepts {i : Nat} {k : Fin 4} (h0 : u8 p 0 = k.val) (h1 : u8 p 1 ≤ 1) (h2 : u8 p 2 ≤ 7) (h3 : u8 p 3 = 0)
    (hown : (pairAt s i).rxPort = some k → u8 p 1 = 1 ∧ (s.pkt.port[k].mgmt = true → bitOf (u8 p 2) 2 = true)) :
    setPortBody i s p = (portTo s k { s.pkt.port[k] with
      fec := bitOf (u8 p 2) 0, force1g := bitOf (u8 p 2) 1, mgmt := bitOf (u8 p 2) 2 } (u8 p 1 == 1), some okEmpty) := by
  have hlt : u8 p 0 < 4 := by omega
  obtain rfl : k = ⟨u8 p 0, hlt⟩ := Fin.ext h0.symm
  refine (dif_pos hlt).trans ((if_neg ?_).trans (if_neg ?_))
  · simp only [h3, bne_self_eq_false, Bool.or_false, Bool.or_eq_true, decide_eq_true_eq]
    omega
  · simp only [Bool.and_eq_true, Bool.or_eq_true, beq_iff_eq, decide_eq_true_eq, Bool.not_eq_true']
    rintro ⟨hport, hzero | ⟨hmgmt, hclear⟩⟩
    · have := (hown hport).1
      omega
    · exact Bool.false_ne_true (hclear.symm.trans ((hown hport).2 hmgmt))

theorem gclSetBody_accepts {k : Fin 4} (hlen : p.length = 8 + 4 * u16 p 2) (h0 : u8 p 0 = k.val) (h1 : u8 p 1 ≤ 2)
    (hok : gclOk s (u32 p 4) (gclEntries p) = true) :
    gclSetBody s p = (putPort s k { s.pkt.port[k] with
      pendingList := some ⟨BitVec.ofNat 2 (u8 p 1), u32 p 4, gclEntries p⟩, pendingAt := tb3 s }, some okEmpty) := by
  have hlt : u8 p 0 < 4 := by omega
  obtain rfl : k = ⟨u8 p 0, hlt⟩ := Fin.ext h0.symm
  refine (if_neg (by simp [hlen])).trans ((dif_pos hlt).trans (if_neg ?_))
  simp [hok, h1]

theorem canRecoverBody_accepts {k : Fin 4} (h0 : u8 p 0 = 5 + k.val) (h1 : allZero p 1 3 = true) (hoff : s.pkt.can[k].state = 2)
    (hauto : s.pkt.can[k].autoRecover = false) :
    canRecoverBody s p = (putCan s k { s.pkt.can[k] with recovering := true }, some okEmpty) := by
  have hport : 5 ≤ u8 p 0 ∧ u8 p 0 ≤ 8 := by omega
  obtain ⟨k, hk⟩ := k
  obtain rfl : k = u8 p 0 - 5 := by
    simp only at h0
    omega
  refine (dif_pos hport).trans ((if_neg (by simp [h1])).trans (if_neg ?_))
  simp only [hoff, hauto]
  decide

/-! ### The bodies of the route commands (R317 to R319, Table 9.10) -/

theorem routeBeginBody_begins {pair : PairId} (h1 : allZero p 1 3 = true) (hidle : s.route.shadowState = .idle)
    (h0 : u8 p 0 = 0) : routeBeginBody pair s p =
      ({ s with route := { s.route with shadowState := .building, owner := some pair } }, some okEmpty) := by
  simp [routeBeginBody, h1, hidle, h0]

theorem routeBeginBody_copies {pair : PairId} (h1 : allZero p 1 3 = true) (hidle : s.route.shadowState = .idle)
    (h0 : u8 p 0 = 1) : routeBeginBody pair s p =
      ({ s with route := { s.route with shadowState := .copying, owner := some pair } }, none) := by
  simp [routeBeginBody, h1, hidle, h0]

theorem routeWriteBody_accepts {pair : PairId} (hlen : p.length = 4 + 36 * u16 p 0) (h2 : allZero p 2 2 = true)
    (hok : routeRecordsOk p = true) (hown : notOwner s pair = false) (hbuilding : s.route.shadowState = .building) :
    routeWriteBody pair s p = ({ s with route := { s.route with
      shadow := (List.range (u16 p 0)).foldl (fun tab i =>
        routePut tab (u16 p (4 + 36 * i)) (slice p (8 + 36 * i) 32)) s.route.shadow } }, some okEmpty) := by
  simp [routeWriteBody, hlen, h2, hok, hown, hbuilding]

theorem routeCommitBody_accepts {pair : PairId} (h4 : allZero p 4 4 = true) (hown : notOwner s pair = false)
    (hbuilding : s.route.shadowState = .building) (hat : u64 p 8 = 0 ∨ s.epoch.no.toNat < u64 p 8) :
    routeCommitBody pair s p = ({ s with route := { s.route with shadowState := .checking } }, none) := by
  have hnow : (u64 p 8 != 0 && decide (u64 p 8 ≤ s.epoch.no.toNat)) = false := by
    rcases hat with h | h
    · simp [h]
    · simp [Nat.not_le.mpr h]
  simp [routeCommitBody, h4, hown, hbuilding, hnow]

theorem routeAbortBody_accepts {pair : PairId} (hown : notOwner s pair = false) (hopen : s.route.shadowState ≠ .idle) :
    routeAbortBody pair s p = ({ s with
      route := { s.route with shadowState := .idle, owner := none, shadow := freeTable s.freeCtr }
      freeCtr := s.freeCtr + 1 }, some okEmpty) := by
  simp [routeAbortBody, hown, hopen, takeFree]

end Bodies

/-! ### NET_SET_PORT (R323) -/

theorem portTo_of_kept {s : State} {k : Fin 4} (x : EthPort) {en : Bool} (h : en = true ∨ s.pkt.port[k].en = false) :
    portTo s k x en = putPort s k (portEnable x en) :=
  if_neg (by rcases h with h | h <;> simp only [h] <;> simp)

theorem portTo_of_disabled {s : State} {k : Fin 4} (x : EthPort) (h : s.pkt.port[k].en = true) :
    portTo s k x false = portLost (putPort s k (portEnable x false)) k s.pkt.port[k] :=
  if_pos (by simp only [h]; rfl)

theorem portEnable_disabled {x : EthPort} (h : x.en = true) :
    (portEnable x false).en = false ∧ (portEnable x false).queue = Vector.replicate 8 [] := by
  simp [portEnable, h]

/-- A served command that begins a long command, whose effect `b` beside the mailboxes is the same whatever the mailboxes hold. -/
theorem serve_begun_beside {s : State} (b : State) {pair : PairId} {c : CmdSpec} {body : Body} {p : List Byte}
    (hasked : Asked s pair c) (hp : payloadOf s pair = p) (hcode : c.code ≠ 0x0100) (hlen : c.lengthOk p.length = true)
    (hb : b.mbox = s.mbox) (hbody : ∀ m : Mbox, body { s with mbox := m } p = ({ b with mbox := m }, none)) :
    ∃ t, serve s pair c body = .next t ∧ Begun b t pair c.code := by
  subst hp
  refine serve_begun s b pair c body hasked hcode hlen hb fun u hu => ?_
  obtain ⟨m, rfl, -⟩ := hu.state_eq
  exact hbody m

/-- The settings of NET_SET_PORT in a port. -/
def portSettings (x : EthPort) (f : Nat) : EthPort := { x with fec := bitOf f 0, force1g := bitOf f 1, mgmt := bitOf f 2 }

section SetPort

variable {s : State} {pair : PairId} {p : List Byte} {k : Fin 4} (hasked : Asked s pair (changeCmd 0x0501 2 4))
  (hp : payloadOf s pair = p) (hlen : p.length = 4) (h0 : u8 p 0 = k.val) (h1 : u8 p 1 ≤ 1) (h2 : u8 p 2 ≤ 7) (h3 : u8 p 3 = 0)
  (hown : (pairAt s pair.val).rxPort = some k → u8 p 1 = 1 ∧ (s.pkt.port[k].mgmt = true → bitOf (u8 p 2) 2 = true))

include h0 h1 h2 h3 hown in
theorem setPortBody_served {u : State} (hu : Served s u pair) :
    setPortBody pair.val u p = (portTo u k (portSettings s.pkt.port[k] (u8 p 2)) (u8 p 1 == 1), some okEmpty) := by
  have hport : (pairAt u pair.val).rxPort = (pairAt s pair.val).rxPort := by rw [hu.own]
  have hsame := port_of_served hu k
  rw [← hport, ← hsame] at hown
  rw [setPortBody_accepts h0 h1 h2 h3 hown, ← hsame]
  rfl

include hasked hp hlen h0 h1 h2 h3 hown

theorem execNetSetPort_settings (hkept : u8 p 1 = 1 ∨ s.pkt.port[k].en = false) :
    ∃ t, execNetSetPort pair s = .next t ∧
      Answered (putPort s k (portEnable (portSettings s.pkt.port[k] (u8 p 2)) (u8 p 1 == 1))) t pair okEmpty := by
  subst hp
  refine serve_answer s _ pair _ _ okEmpty hasked (by decide) (by rw [hlen]; rfl) (by decide) rfl fun u hu => ?_
  have hkept' : (u8 (payloadOf s pair) 1 == 1) = true ∨ u.pkt.port[k].en = false := by
    rw [port_of_served hu k]
    simpa using hkept
  rw [setPortBody_served h0 h1 h2 h3 hown hu, portTo_of_kept _ hkept', hu.same]
  rfl

theorem execNetSetPort_disabled (hoff : u8 p 1 = 0) (hen : s.pkt.port[k].en = true) :
    let x := portEnable (portSettings s.pkt.port[k] (u8 p 2)) false
    ∃ t, execNetSetPort pair s = .next t ∧ Answered (portLost (putPort s k x) k s.pkt.port[k]) t pair okEmpty ∧
      t.pkt.port[k] = x := by
  intro x
  have hport : (portLost (putPort s k x) k s.pkt.port[k]).pkt.port[k] = x := by rw [portLost_port, putPort_same]
  have hshut : portTakes x = false := by
    have hdisabled : x.en = false := (portEnable_disabled (x := portSettings s.pkt.port[k] _) hen).1
    rw [portTakes, hdisabled, Bool.false_and]
  obtain ⟨t, hserve, hanswered, hkept⟩ := serve_answer_of_shut (k := k) (portLost (putPort s k x) k s.pkt.port[k]) hasked hp
    (body := setPortBody pair.val) (a := okEmpty) (by decide) (by rw [hlen]; rfl) (by decide) (portLost_mbox ..)
    (fun u hu => by
      rw [setPortBody_served h0 h1 h2 h3 hown hu, hoff, ← portLost_of_mbox, hu.same]
      exact congrArg (·, some okEmpty) (portTo_of_disabled (s := { s with mbox := u.mbox }) _ hen))
    (by rw [hport]; exact hshut)
  exact ⟨t, hserve, hanswered, hkept.trans hport⟩

end SetPort

/-- After ROUTE_ABORT the shadow holds free values. -/
theorem execRouteAbort_accepts {s : State} {pair : PairId} {p : List Byte} (hasked : Asked s pair (changeCmd 0x0513 2 0))
    (hp : payloadOf s pair = p) (hlen : p.length = 0) (hown : notOwner s pair = false) (hopen : s.route.shadowState ≠ .idle) :
    ∃ t, execRouteAbort pair s = .next t ∧ Answered { s with
      route := { s.route with shadowState := .idle, owner := none, shadow := freeTable s.freeCtr }
      freeCtr := s.freeCtr + 1 } t pair okEmpty :=
  serve_answer_beside _ hasked hp (by decide) (by rw [hlen]; rfl) (by decide) rfl
    fun m _ => routeAbortBody_accepts (s := { s with mbox := m }) hown hopen

/-! ### The ends of a copy and of the checks (R318, Table 9.10) -/

theorem messaged_answerOwner (s : State) (a : Answer) : Messaged s (answerOwner s a) := by
  unfold answerOwner
  split
  · exact (messagedClosed_finishLong ..).messaged
  · exact .refl s

theorem Messaged.route {s t : State} {r : Route} (h : Messaged { s with route := r } t) :
    t.route = r ∧ Messaged { s with route := t.route } t := by
  have hr : t.route = r := by rw [h.rest]
  exact ⟨hr, by rwa [hr]⟩

section Ends

variable {s : State} (hrun : running s 8 = true)
include hrun

theorem exec_routeCopyDone_copying (hcopying : s.route.shadowState = .copying) :
    exec .routeCopyDone s = .next (answerOwner { s with route := { s.route with
      shadow := s.route.active, shadowState := .building, shadowId := s.route.tableId, shadowCrc := s.route.tableCrc } } okEmpty) :=
  (live_of_running _ hrun).trans (congrArg _ (if_pos hcopying))

theorem exec_routeCheckDone_checking (hchecking : s.route.shadowState = .checking) :
    exec .routeCheckDone s = .next (match routeCheck s.route.shadow with
      | some (i, why) => answerOwner { s with route := { s.route with
          shadowState := .building, event := setBit s.route.event 3 } } ⟨stParam, 0, leBytes 2 i ++ b8 why⟩
      | none => answerOwner { s with route := { s.route with
          shadowState := .ready, shadowId := BitVec.ofNat 32 (u32 (commitPayload s) 0), shadowCrc := routeCrc s.route.shadow
          activateEpoch := BitVec.ofNat 64 (u64 (commitPayload s) 8), readyAt := tb2 s
          event := setBit s.route.event 0 } } okEmpty) :=
  (live_of_running _ hrun).trans (congrArg _ (if_pos hchecking))

end Ends

/-! ### The statement -/

/-- Settles O21. A command whose effect lies beside the mailboxes is one equation of its body; a port that is disabled holds no
frame of the answers either, since it takes none. -/
theorem networkRouteCommandResult : Obligations.NetworkRouteCommandResult := by
  refine ⟨fun pair s p hp => ⟨?_, ?_, ?_, ?_⟩, fun pair s p hp => ⟨?_, ?_, ?_, ?_⟩, fun s hrun => ⟨?_, ?_, ?_⟩⟩
  · intro hasked hlen k h0 h1 h2 h3 hown
    by_cases hkept : u8 p 1 = 1 ∨ s.pkt.port[k].en = false
    · obtain ⟨t, hserve, hanswered⟩ := execNetSetPort_settings hasked hp hlen h0 h1 h2 h3 hown hkept
      refine ⟨t, hserve, fun _ => hanswered, fun hoff hen => ?_⟩
      rw [hoff, hen] at hkept
      simp at hkept
    · have hoff : u8 p 1 = 0 := by omega
      have hen : s.pkt.port[k].en = true := by simpa using fun h => hkept (.inr h)
      obtain ⟨t, hserve, hanswered, hport⟩ := execNetSetPort_disabled hasked hp hlen h0 h1 h2 h3 hown hoff hen
      obtain ⟨hdis, hqueue⟩ := portEnable_disabled (x := portSettings s.pkt.port[k] (u8 p 2)) hen
      rw [← hport] at hdis hqueue
      exact ⟨t, hserve, fun h => absurd h hkept, fun _ _ => ⟨hanswered, hdis, hqueue⟩⟩
  · exact fun hasked hlen h2 => serve_answer_beside _ hasked hp (by decide) (by rw [hlen]; rfl) (by decide) rfl
      fun _ _ => if_neg (by simp [h2])
  · exact fun hasked hmin hlen k h0 h1 hok => serve_answer_beside _ hasked hp (by decide) (decide_eq_true hmin) (by decide) rfl
      fun _ _ => gclSetBody_accepts hlen h0 h1 hok
  · exact fun hasked hlen k h0 h1 hoff hauto => serve_answer_beside _ hasked hp (by decide) (by rw [hlen]; rfl) (by decide) rfl
      fun _ _ => canRecoverBody_accepts h0 h1 hoff hauto
  · exact fun hasked hlen h1 hidle => ⟨fun h0 => serve_answer_beside _ hasked hp (by decide) (by rw [hlen]; rfl) (by decide) rfl
      fun _ _ => routeBeginBody_begins h1 hidle h0,
      fun h0 => serve_begun_beside _ hasked hp (by decide) (by rw [hlen]; rfl) rfl fun _ => routeBeginBody_copies h1 hidle h0⟩
  · exact fun hasked hlen h2 hok hown hbuilding => serve_answer_beside _ hasked hp (by decide) (decide_eq_true (by omega))
      (by decide) rfl fun _ _ => routeWriteBody_accepts hlen h2 hok hown hbuilding
  · exact fun hasked hlen h4 hown hbuilding hat => serve_begun_beside _ hasked hp (by decide) (by rw [hlen]; rfl) rfl
      fun _ => routeCommitBody_accepts h4 hown hbuilding hat
  · intro hasked hlen hown hopen
    obtain ⟨t, hserve, hanswered⟩ := execRouteAbort_accepts hasked hp hlen hown hopen
    exact ⟨t, _, hserve, hanswered⟩
  · intro hcopying
    obtain ⟨hroute, hmsg⟩ := (messaged_answerOwner _ _).route
    exact ⟨_, exec_routeCopyDone_copying hrun hcopying, hroute, hmsg⟩
  · intro hchecking i why hbad
    have hexec := exec_routeCheckDone_checking hrun hchecking
    rw [hbad] at hexec
    obtain ⟨hroute, hmsg⟩ := (messaged_answerOwner _ _).route
    exact ⟨_, hexec, by rw [hroute], by rw [hroute], hmsg⟩
  · intro hchecking hgood
    have hexec := exec_routeCheckDone_checking hrun hchecking
    rw [hgood] at hexec
    obtain ⟨hroute, hmsg⟩ := (messaged_answerOwner _ _).route
    exact ⟨_, hexec, by rw [hroute], by rw [hroute], by rw [hroute], by rw [hroute], by rw [hroute], hmsg⟩

end Sys2Proof.Machine

/-! Descriptor rings (R299, R309 to R311, R320, Table 9.7): who hands over descriptors, and what becomes of the one at HEAD, of
which one at a time has frames that wait (log entry 105). -/

namespace Sys2Proof.Machine

open Sys2Proof

/-! ### RING_TAIL_WRITE (R309, R320) -/

theorem exec_ringTailWrite_selvedge {s : State} (hrun : running s 8 = true) (i : Fin 64) (data : U32) :
    exec (.ringTailWrite .selvedge i data) s = .next (tailWrite s i data) :=
  live_of_running _ hrun

theorem exec_ringTailWrite_lane {s : State} (hrun : running s 8 = true) (i : Fin 64) (data : U32) (l : LaneId) :
    exec (.ringTailWrite (.lane l) i data) s =
      .next (if s.pkt.ring[i].owner = 2 ∧ s.pkt.ring[i].lane.toNat = l.val then tailWrite s i data else s) := by
  have howns : laneOwns s.pkt.ring[i] l = true ↔ s.pkt.ring[i].owner = 2 ∧ s.pkt.ring[i].lane.toNat = l.val := by
    simp only [laneOwns, Bool.and_eq_true, decide_eq_true_eq, beq_iff_eq]
  exact (live_of_running _ hrun).trans (congrArg _ (if_congr howns rfl rfl))

/-! ### RING_DESC_DONE (R310, R311) -/

theorem ringReady_iff (s : State) (r : Ring) : ringReady s r r.tail = true ↔
    r.en = true ∧ r.head ≠ r.tail ∧ memLe s.mem.dram (ringDesc r + 10) 2 % 2 = 1 := by
  simp only [ringReady, bitOf, Nat.testBit_zero, Bool.and_eq_true, bne_iff_ne, decide_eq_true_eq, and_assoc]

theorem exec_ringDescDone {s : State} (hrun : running s 8 = true) (i : Fin 64) (ok : Bool) :
    exec (.ringDescDone i ok) s = .next (
      let r := s.pkt.ring[i]
      if !ringReady s r r.tail || r.posted != 0 then s
      else if ringGated r && gateVerdict r != some true then
        (if gateVerdict r == some false then ringComplete s i 4 (fun m _ => m) else s)
      else if !ok then ringError s i
      else if r.dir then ringSend s i else s) :=
  live_of_running _ hrun

/-- Nothing is done with a ring that has no descriptor of the engine, or whose descriptor at HEAD has frames that wait. -/
theorem exec_ringDescDone_idle {s : State} (hrun : running s 8 = true) {i : Fin 64} (ok : Bool)
    (h : let r := s.pkt.ring[i]
      r.en = false ∨ r.head = r.tail ∨ memLe s.mem.dram (ringDesc r + 10) 2 % 2 = 0 ∨ r.posted ≠ 0) :
    exec (.ringDescDone i ok) s = .next s := by
  refine (exec_ringDescDone hrun i ok).trans (congrArg _ (if_pos ?_))
  rw [Bool.or_eq_true, Bool.not_eq_true', bne_iff_ne, ← Bool.not_eq_true, ringReady_iff]
  rcases h with h | h | h | h
  · exact .inl fun hready => Bool.false_ne_true (h.symm.trans hready.1)
  · exact .inl fun hready => hready.2.1 h
  · exact .inl fun hready => Nat.zero_ne_one (h.symm.trans hready.2.2)
  · exact .inr h

theorem ringGated_eq_false_iff (r : Ring) : ringGated r = false ↔ r.dir = false ∨ r.gateEn = false ∨ r.owner ≠ 2 := by
  simp only [ringGated, Bool.and_eq_false_iff, decide_eq_false_iff_not, or_assoc]

theorem ringGated_of_lane {r : Ring} (hdir : r.dir = true) (hgate : r.gateEn = true) (howner : r.owner = 2) :
    ringGated r = true := by
  rw [ringGated, hdir, hgate, howner]
  rfl

section Ready

variable {s : State} {i : Fin 64} (hrun : running s 8 = true)
  (hready : ringReady s s.pkt.ring[i] s.pkt.ring[i].tail = true) (hfree : s.pkt.ring[i].posted = 0)

include hrun hready hfree

/-- No boundary has decided on the descriptor at HEAD. -/
theorem exec_ringDescDone_undecided (ok : Bool) (hgated : ringGated s.pkt.ring[i] = true)
    (hv : gateVerdict s.pkt.ring[i] = none) : exec (.ringDescDone i ok) s = .next s := by
  rw [exec_ringDescDone hrun]
  simp only [hready, hfree, hgated, hv]
  rfl

/-- A boundary has turned the descriptor at HEAD away. -/
theorem exec_ringDescDone_turnedAway (ok : Bool) (hgated : ringGated s.pkt.ring[i] = true)
    (hv : gateVerdict s.pkt.ring[i] = some false) :
    exec (.ringDescDone i ok) s = .next (ringComplete s i 4 fun m _ => m) := by
  rw [exec_ringDescDone hrun]
  simp only [hready, hfree, hgated, hv]
  rfl

section Passed

variable (hpass : let r := s.pkt.ring[i]
  r.dir = false ∨ r.gateEn = false ∨ r.owner ≠ 2 ∨ gateVerdict r = some true)
include hpass

/-- The gate lets the descriptor at HEAD pass: a memory error discards it, and the frame of a transmit descriptor is sent. -/
theorem exec_ringDescDone_passed (ok : Bool) : exec (.ringDescDone i ok) s = .next (
    if !ok then ringError s i else if s.pkt.ring[i].dir then ringSend s i else s) := by
  have hgate : (ringGated s.pkt.ring[i] && gateVerdict s.pkt.ring[i] != some true) = false := by
    rw [Bool.and_eq_false_iff, ringGated_eq_false_iff, bne_eq_false_iff_eq, or_assoc, or_assoc]
    exact hpass
  rw [exec_ringDescDone hrun]
  simp only [hready, hfree, hgate]
  rfl

theorem exec_ringDescDone_error : exec (.ringDescDone i false) s = .next (ringError s i) :=
  exec_ringDescDone_passed hrun hready hfree hpass false

theorem exec_ringDescDone_receives (hdir : s.pkt.ring[i].dir = false) : exec (.ringDescDone i true) s = .next s :=
  (exec_ringDescDone_passed hrun hready hfree hpass true).trans (congrArg _ (if_neg (ne_true_of_eq_false hdir)))

theorem exec_ringDescDone_sends (hdir : s.pkt.ring[i].dir = true) : exec (.ringDescDone i true) s = .next (ringSend s i) :=
  (exec_ringDescDone_passed hrun hready hfree hpass true).trans (congrArg _ (if_pos hdir))

end Passed

end Ready

/-! ### The frame of a transmit descriptor (R299, Table 9.7) -/

theorem length_beBytes (k n : Nat) : (beBytes k n).length = k := by
  rw [beBytes, List.length_reverse, length_leBytes]

/-- A VLAN tag is four bytes and an R-TAG six. -/
theorem length_ringFrame (bytes : List Byte) (tci rtag : Option Nat) : (ringFrame bytes tci rtag).length =
    bytes.length + (if tci.isSome then 4 else 0) + (if rtag.isSome then 6 else 0) := by
  unfold ringFrame
  cases tci <;> cases rtag <;> simp [length_beBytes] <;> omega

/-- The descriptor at HEAD of a ring and its buffer lie where the ring's owner may have them (R309). -/
def descLies (s : State) (r : Ring) : Bool :=
  let m := s.mem.dram
  let a := ringDesc r
  ringArea s r a 32 && ringArea s r (memLe m a 8 % 2 ^ 40) (memLe m (a + 8) 2)

/-- The VLAN tag that a descriptor has inserted, if it does. -/
def descTci (m : Mem) (a : Nat) : Option Nat := if bitOf (memLe m (a + 10) 2) 3 then some (memLe m (a + 14) 2) else none

/-- The frame of the descriptor at `a`, with its VLAN tag and, of a stream, the R-TAG. -/
def descFrame (m : Mem) (a : Nat) (rtag : Option Nat) : List Byte :=
  ringFrame (memBytes m (memLe m a 8 % 2 ^ 40) (memLe m (a + 8) 2)) (descTci m a) rtag

theorem length_memBytes (m : Mem) (a n : Nat) : (memBytes m a n).length = n := length_memRun ..

theorem length_descFrame (m : Mem) (a : Nat) (rtag : Option Nat) : (descFrame m a rtag).length =
    memLe m (a + 8) 2 + (if (descTci m a).isSome then 4 else 0) + (if rtag.isSome then 6 else 0) := by
  rw [descFrame, length_ringFrame, length_memBytes]

/-- The port that a descriptor names (Table 9.7). -/
def descPorts (m : Mem) (a : Nat) : List (Fin 4) := if h : memLe m (a + 12) 1 < 4 then [⟨memLe m (a + 12) 1, h⟩] else []

section Send

variable {s : State} {i : Fin 64}

theorem ringSend_of_outside (h : descLies s s.pkt.ring[i] = false) : ringSend s i = ringComplete s i 3 fun m _ => m := by
  refine if_pos ((Bool.not_and ..).symm.trans ?_)
  exact congrArg not h

variable (h : descLies s s.pkt.ring[i] = true)
include h

theorem ringSend_of_inside : ringSend s i =
    let m := s.mem.dram
    let a := ringDesc s.pkt.ring[i]
    let st := streamTake s (memLe m (a + 28) 2)
    let f := descFrame m a (st.2.map (·.1))
    let ports := match st.2 with
      | some (_, mask) => maskPorts mask
      | none => descPorts m a
    if memLe m (a + 8) 2 < 14 || (if st.2.isSome then 1524 else 1518) < f.length then ringComplete s i 1 fun m _ => m
    else ringEnqueue st.1 i ports (memLe m (a + 13) 1) f := by
  refine if_neg (ne_true_of_eq_false ((Bool.not_and ..).symm.trans ?_))
  exact congrArg not h

/-- A descriptor of no stream: its frame goes to the port that it names. -/
theorem ringSend_of_no_stream (hstream : streamOf s (memLe s.mem.dram (ringDesc s.pkt.ring[i] + 28) 2) = none) : ringSend s i =
    let m := s.mem.dram
    let a := ringDesc s.pkt.ring[i]
    if memLe m (a + 8) 2 < 14 ∨ 1518 < memLe m (a + 8) 2 + (if (descTci m a).isSome then 4 else 0) then
      ringComplete s i 1 fun m _ => m
    else ringEnqueue s i (descPorts m a) (memLe m (a + 13) 1) (descFrame m a none) := by
  have htake : streamTake s (memLe s.mem.dram (ringDesc s.pkt.ring[i] + 28) 2) = (s, none) := by
    simp only [streamTake, hstream]
  rw [ringSend_of_inside h]
  simp only [htake, Option.map_none, Option.isSome_none, Bool.false_eq_true, if_false, length_descFrame, Nat.add_zero,
    Bool.or_eq_true, decide_eq_true_eq]

/-- A descriptor of a stream: its frame goes to the ports of the stream with the next sequence number. -/
theorem ringSend_of_stream {x : Stream} (hstream : streamOf s (memLe s.mem.dram (ringDesc s.pkt.ring[i] + 28) 2) = some x)
    (hmin : 14 ≤ memLe s.mem.dram (ringDesc s.pkt.ring[i] + 8) 2)
    (hmax : memLe s.mem.dram (ringDesc s.pkt.ring[i] + 8) 2 + 10 ≤ 1524) : ringSend s i =
    let m := s.mem.dram
    let a := ringDesc s.pkt.ring[i]
    ringEnqueue (putStream s (memLe m (a + 28) 2) { x with txSeq := x.txSeq + 1 }) i (maskPorts x.ports.toNat)
      (memLe m (a + 13) 1) (descFrame m a (some x.txSeq.toNat)) := by
  have htake : streamTake s (memLe s.mem.dram (ringDesc s.pkt.ring[i] + 28) 2) =
      (putStream s (memLe s.mem.dram (ringDesc s.pkt.ring[i] + 28) 2) { x with txSeq := x.txSeq + 1 },
        some (x.txSeq.toNat, x.ports.toNat)) := by
    simp only [streamTake, hstream]
  rw [ringSend_of_inside h]
  simp only [htake, Option.map_some, Option.isSome_some, if_true, length_descFrame]
  refine if_neg ?_
  rw [Bool.or_eq_true, decide_eq_true_eq, decide_eq_true_eq]
  split <;> omega

end Send

/-! ### A frame on several ports -/

/-- A port with one more frame in a queue. -/
def portQueues (x : EthPort) (q : Nat) (f : EthFrame) : EthPort :=
  let i : Fin 8 := ⟨q % 8, Nat.mod_lt _ (by decide)⟩
  { x with queue := x.queue.set i (x.queue[i] ++ [f]) }

theorem enqueue_of_takes {s : State} {p : Fin 4} (q : Nat) (f : EthFrame) (h : portTakes s.pkt.port[p] = true) :
    enqueue s p q f = putPort s p (portQueues s.pkt.port[p] q f) :=
  if_pos h

/-- A frame queued on different ports, each of which takes frames: it waits on each of them, and the other ports stand. -/
theorem enqueue_foldl (q : Nat) (f : EthFrame) {ps : List (Fin 4)} {s : State} (hnodup : ps.Nodup)
    (htakes : ∀ p ∈ ps, portTakes s.pkt.port[p] = true) :
    let t := ps.foldl (fun s p => enqueue s p q f) s
    (∀ p : Fin 4, t.pkt.port[p] = if p ∈ ps then portQueues s.pkt.port[p] q f else s.pkt.port[p]) ∧
      t = { s with pkt := { s.pkt with port := t.pkt.port } } := by
  induction ps generalizing s with
  | nil => exact ⟨fun _ => rfl, rfl⟩
  | cons k ps ih =>
    obtain ⟨hk, hrest⟩ := List.nodup_cons.mp hnodup
    have hstep := enqueue_of_takes q f (htakes k List.mem_cons_self)
    have hother : ∀ p ∈ ps, (enqueue s k q f).pkt.port[p] = s.pkt.port[p] := by
      intro p hp
      rw [hstep]
      exact putPort_other s k _ p fun h => hk (h ▸ hp)
    obtain ⟨hports, hsame⟩ := ih (s := enqueue s k q f) hrest fun p hp => by
      rw [hother p hp]
      exact htakes p (List.mem_cons_of_mem _ hp)
    refine ⟨fun p => (hports p).trans ?_, hsame.trans ?_⟩
    · by_cases hpk : p = k
      · subst hpk
        rw [if_neg hk, if_pos List.mem_cons_self, hstep, putPort_same]
      · by_cases hp : p ∈ ps
        · rw [if_pos hp, if_pos (List.mem_cons_of_mem _ hp), hother p hp]
        · rw [if_neg hp, if_neg (by simp [hpk, hp]), hstep, putPort_other s k _ p hpk]
    · rw [List.foldl_cons, hstep]
      rfl

section Enqueue

variable {s : State} {i : Fin 64} {ports : List (Fin 4)} (q : Nat) (f : List Byte)

theorem ringEnqueue_of_refused (h : ∀ p ∈ ports, portTakes s.pkt.port[p] = false) :
    ringEnqueue s i ports q f = ringComplete s i 4 fun m _ => m := by
  refine if_pos ?_
  rw [List.isEmpty_iff, List.filter_eq_nil_iff]
  exact fun p hp => by rw [h p hp]; exact Bool.false_ne_true

/-- The frame of a descriptor waits on each of its ports that takes frames. -/
theorem ringEnqueue_of_taken (hnodup : ports.Nodup) (h : ∃ p ∈ ports, portTakes s.pkt.port[p] = true) :
    let t := ringEnqueue s i ports q f
    let n := (ports.filter fun p => portTakes s.pkt.port[p]).length
    let g : EthFrame := ⟨f, none, some (i.val, s.pkt.ring[i].head.toNat)⟩
    0 < n ∧ (∀ p : Fin 4, t.pkt.port[p] =
        if p ∈ ports ∧ portTakes s.pkt.port[p] = true then portQueues s.pkt.port[p] q g else s.pkt.port[p]) ∧
      t = { s with pkt := { s.pkt with ring := s.pkt.ring.set i { s.pkt.ring[i] with posted := n }, port := t.pkt.port } } := by
  intro t n g
  obtain ⟨p, hp, htakes⟩ := h
  have hmem : p ∈ ports.filter fun p => portTakes s.pkt.port[p] := List.mem_filter.mpr ⟨hp, htakes⟩
  have hqueued : t = (ports.filter fun p => portTakes s.pkt.port[p]).foldl (fun s p => enqueue s p q g)
      (putRing s i { s.pkt.ring[i] with posted := n }) :=
    if_neg (by rw [List.isEmpty_iff]; exact List.ne_nil_of_mem hmem)
  obtain ⟨hports, hrest⟩ := enqueue_foldl q g (s := putRing s i { s.pkt.ring[i] with posted := n })
    (hnodup.filter fun p => portTakes s.pkt.port[p]) fun p hp => (List.mem_filter.mp hp).2
  rw [← hqueued] at hports hrest
  refine ⟨List.length_pos_of_mem hmem, fun p => (hports p).trans ?_, hrest⟩
  simp only [List.mem_filter]
  rfl

end Enqueue

theorem mem_maskPorts (m : Nat) (p : Fin 4) : p ∈ maskPorts m ↔ bitOf m p.val = true := by
  simp [maskPorts]

theorem nodup_maskPorts (m : Nat) : (maskPorts m).Nodup := (List.nodup_finRange 4).filter _

end Sys2Proof.Machine

/-! The MVB port (R312): what a frame fills, and what the gateway leaves of the buses when it carries one. -/

namespace Sys2Proof.Machine

open Sys2Proof

/-! ### What the gateway leaves of the buses -/

/-- What the gateway never changes when it carries an MVB or a CAN frame: the MVB port, the dropped items, and the CAN ports but for
the frames that they forward. -/
def busView (s : State) : Mvb × U32 × Vector CanPort 4 :=
  (s.pkt.mvb, s.pkt.mdDrop, s.pkt.can.map fun c => { c with fwd := [] })

theorem busView_foldl {α : Type} {f : State → α → State} (h : ∀ s x, busView (f s x) = busView s) (l : List α)
    (s : State) : busView (l.foldl f s) = busView s :=
  List.foldlRecOn (motive := fun t => busView t = busView s) l f rfl fun t ht x _ => (h t x).trans ht

theorem enqueue_busView (s : State) (p : Fin 4) (q : Nat) (f : EthFrame) : busView (enqueue s p q f) = busView s := by
  unfold enqueue
  dsimp only
  split <;> rfl

theorem sendLocal_busView (s : State) (e : RouteEntry) (c : Carried) : busView (sendLocal s e c) = busView s := by
  unfold sendLocal
  split <;> rfl

theorem queueCans_busView (s : State) (mask ident : Nat) (data : List Byte) :
    busView (queueCans s mask ident data) = busView s := by
  have hcan : (queueCans s mask ident data).pkt.can.map (fun c => { c with fwd := [] })
      = s.pkt.can.map fun c => { c with fwd := [] } := by
    ext k hk : 1
    simp only [queueCans, Vector.getElem_map, Vector.getElem_ofFn]
    split <;> rfl
  exact congrArg (fun v => (s.pkt.mvb, s.pkt.mdDrop, v)) hcan

theorem sendCans_busView (s : State) (e : RouteEntry) (ident : Nat) (data : List Byte) :
    busView (sendCans s e ident data) = busView s :=
  (sendLocal_busView ..).trans (queueCans_busView ..)

theorem gatewayPd_busView (s : State) (i : Nat) (e : RouteEntry) (data : List Byte) :
    busView (gatewayPd s i e data) = busView s := by
  unfold gatewayPd
  exact (sendLocal_busView ..).trans ((busView_foldl (fun s p => enqueue_busView s p ..) _ _).trans rfl)

/-- Only an Ethernet frame is sent into an MVB source port. -/
theorem transform_busView (s : State) (i : Nat) (e : RouteEntry) {c : Carried} (hc : ∀ f, c ≠ .eth f) :
    busView (transform s i e c) = busView s := by
  unfold transform
  split
  · exact absurd rfl (hc _)
  · exact sendCans_busView ..
  · exact sendLocal_busView ..
  iterate 4 · exact absurd rfl (hc _)
  · exact gatewayPd_busView ..
  · exact gatewayPd_busView ..
  · exact absurd rfl (hc _)
  all_goals rfl

theorem gateway_busView (s : State) (port kind ident : Nat) {c : Carried} (hc : ∀ f, c ≠ .eth f) :
    busView (gateway s port kind ident c).1 = busView s := by
  unfold gateway
  dsimp only
  split
  · split
    · exact (transform_busView _ _ _ hc).trans rfl
    · split <;> rfl
  · split
    · exact transform_busView _ _ _ hc
    · split <;> rfl

/-- Two states with the same view of the buses. -/
theorem busView_eq {s t : State} (h : busView t = busView s) : t.pkt.mvb = s.pkt.mvb ∧ t.pkt.mdDrop = s.pkt.mdDrop ∧
    ∀ p : Fin 4, t.pkt.can[p] = { s.pkt.can[p] with fwd := t.pkt.can[p].fwd } := by
  obtain ⟨hmvb, hdrop, hcan⟩ : _ ∧ _ ∧ _ := by simpa only [busView, Prod.mk.injEq] using h
  refine ⟨hmvb, hdrop, fun p => ?_⟩
  have hp : ({ t.pkt.can[p] with fwd := [] } : CanPort) = { s.pkt.can[p] with fwd := [] } := by
    simpa using congrArg (fun v : Vector CanPort 4 => v[p]) hcan
  exact congrArg (fun c : CanPort => { c with fwd := t.pkt.can[p].fwd }) hp

/-! ### The MVB port (R312) -/

/-- A frame has come on a line: it is the active line now. -/
theorem mvbLine_spec (s : State) (lineB : Bool) :
    let t := mvbLine s lineB
    t.pkt.mvb.lineActive = lineB ∧ t.pkt.mvb.ports = s.pkt.mvb.ports ∧ t.pkt.mvb.deviceAddr = s.pkt.mvb.deviceAddr ∧
      t = { s with pkt := { s.pkt with mvb := t.pkt.mvb, event := t.pkt.event } } := by
  unfold mvbLine
  dsimp only
  split <;> exact ⟨rfl, rfl, rfl, rfl⟩

theorem exec_mvbFrame_disabled {s : State} (hrun : running s 9 = true) (hoff : s.pkt.mvb.enabled = false) (lineB master : Bool)
    (code : BitVec 4) (addr : BitVec 12) (data : List Byte) : exec (.mvbFrame lineB master code addr data) s = .next s :=
  (live_of_running _ hrun).trans (congrArg _ (if_pos (by rw [hoff]; rfl)))

section MvbFrame

variable {s : State} (hrun : running s 9 = true) (hon : s.pkt.mvb.enabled = true) (lineB : Bool) (code : BitVec 4)
  (addr : BitVec 12) (data : List Byte)
include hrun hon

theorem exec_mvbFrame_master : exec (.mvbFrame lineB true code addr data) s =
    .next (mvbMaster (mvbLine s lineB) code.toNat addr.toNat) :=
  (live_of_running _ hrun).trans (congrArg _ (if_neg (by simp [hon])))

theorem exec_mvbFrame_unsized (hlen : ∀ n ∈ [2, 4, 8, 16, 32], data.length ≠ n) :
    exec (.mvbFrame lineB false code addr data) s = .next (mvbError s lineB) := by
  have hsize : [2, 4, 8, 16, 32].contains data.length = false := by
    rw [List.contains_eq_mem, decide_eq_false_iff_not]
    exact fun h => hlen _ h rfl
  refine (live_of_running _ hrun).trans (congrArg _ ((if_neg (by simp [hon])).trans (if_pos ?_)))
  rw [hsize]
  rfl

theorem exec_mvbFrame_slave (hlen : data.length ∈ [2, 4, 8, 16, 32]) : exec (.mvbFrame lineB false code addr data) s =
    .next (gateway (mvbSink (mvbLine s lineB) addr.toNat data lineB) 4 3 addr.toNat (.mvb data)).1 := by
  have hsize : [2, 4, 8, 16, 32].contains data.length = true := by
    rw [List.contains_eq_mem, decide_eq_true_eq]
    exact hlen
  refine (live_of_running _ hrun).trans (congrArg _ ((if_neg (by simp [hon])).trans ((if_neg ?_).trans (if_neg (by simp)))))
  rw [hsize]
  simp

end MvbFrame

/-- The answer of this device to a master frame. -/
theorem mvbMaster_spec (s : State) (lineB : Bool) (code addr : Nat) :
    let t := mvbMaster (mvbLine s lineB) code addr
    t.pkt.mvb.lineActive = lineB ∧
      t.pkt.mvb.answered = (if s.weft.stopped ∨ releasing s = false then none else mvbAnswer s code addr) ∧
      t.pkt.mvb.ports = s.pkt.mvb.ports ∧ t = { s with pkt := { s.pkt with mvb := t.pkt.mvb, event := t.pkt.event } } := by
  obtain ⟨hactive, hports, haddr, hrest⟩ := mvbLine_spec s lineB
  generalize mvbLine s lineB = u at *
  have hanswer : mvbAnswer u code addr = mvbAnswer s code addr := by
    have hholder : isHolder u = isHolder s := by rw [hrest]; rfl
    simp only [mvbAnswer, hports, haddr, hholder]
  have hsilent : (mvbSilent u || !releasing u) = (s.weft.stopped || !releasing s) := by rw [hrest]; rfl
  refine ⟨hactive, ?_, hports, ?_⟩
  · simp only [mvbMaster, hanswer, hsilent, Bool.or_eq_true, Bool.not_eq_true']
  · rw [hrest]
    rfl

/-- A slave frame fills the sink ports of its address and size, and the gateway carries it. -/
theorem mvbSlave_spec (s : State) (lineB : Bool) (addr : Nat) (data : List Byte) :
    let t := (gateway (mvbSink (mvbLine s lineB) addr data lineB) 4 3 addr (.mvb data)).1
    t.pkt.mvb.lineActive = lineB ∧
      t.pkt.mvb.ports = s.pkt.mvb.ports.map (fun d => if !d.source && d.address == addr && d.size == data.length then
        { d with staged := d.staged ++ [⟨4, 0, tb2 s, lineB, false, data⟩] } else d) ∧
      t = { s with pkt := t.pkt, route := t.route } := by
  intro t
  obtain ⟨hactive, hports, -, hrest⟩ := mvbLine_spec s lineB
  obtain ⟨hmvb, -, -⟩ := busView_eq
    (gateway_busView (mvbSink (mvbLine s lineB) addr data lineB) 4 3 addr (c := .mvb data) fun _ => nofun)
  obtain ⟨-, -, hcarried⟩ := uncarried_eq (gateway_uncarried (mvbSink (mvbLine s lineB) addr data lineB) 4 3 addr (.mvb data))
  have htb2 : tb2 (mvbLine s lineB) = tb2 s := by rw [hrest]; rfl
  have hbeside : ∀ (k : Pkt) (r : Route),
      ({ mvbLine s lineB with pkt := k, route := r } : State) = { s with pkt := k, route := r } := fun k r => by rw [hrest]
  refine ⟨(congrArg Mvb.lineActive hmvb).trans hactive, (congrArg Mvb.ports hmvb).trans ?_, hcarried.trans (hbeside _ _)⟩
  simp only [mvbSink, hports, htb2]

/-- The administrator's polls: of the MVB port only the answer of this device changes. -/
theorem mvbPolls_answered (fs : List (Nat × Nat)) (s : State) : ∃ a,
    fs.foldl (fun s f => match mvbAnswer s f.1 f.2 with
      | some a => { s with pkt := { s.pkt with mvb := { s.pkt.mvb with answered := some a } } }
      | none => s) s = { s with pkt := { s.pkt with mvb := { s.pkt.mvb with answered := a } } } := by
  induction fs generalizing s with
  | nil => exact ⟨_, rfl⟩
  | cons f fs ih =>
    rw [List.foldl_cons]
    split
    · next a _ =>
      obtain ⟨b, hb⟩ := ih { s with pkt := { s.pkt with mvb := { s.pkt.mvb with answered := some a } } }
      exact ⟨b, hb⟩
    · exact ih s

/-- The master frames of a basic period: a function code for each polled address. -/
def mvbMasters (m : Mvb) : List (Nat × Nat) :=
  ((m.poll[m.pollPos]?).getD []).map fun a => (((m.ports.find? (·.address == a)).map (fun d => mvbCode d.size)).getD 0, a)

theorem map_snd_mvbMasters (m : Mvb) : (mvbMasters m).map (·.2) = (m.poll[m.pollPos]?).getD [] := by
  rw [mvbMasters, List.map_map]
  exact List.map_id _

theorem exec_mvbBaPeriod {s : State} (hrun : running s 9 = true) (hon : s.pkt.mvb.enabled = true) (hadmin : s.pkt.mvb.admin = true)
    (hholder : isHolder s = true) (hsounds : s.weft.stopped = false) :
    ∃ a, exec .mvbBaPeriod s = .next { s with pkt := { s.pkt with mvb := { s.pkt.mvb with
        sentMasters := mvbMasters s.pkt.mvb
        pollPos := if s.pkt.mvb.poll.length ≤ s.pkt.mvb.pollPos + 1 then 0 else s.pkt.mvb.pollPos + 1
        answered := a } } } := by
  have hpolls : (s.pkt.mvb.enabled && s.pkt.mvb.admin && isHolder s && !mvbSilent s) = true := by
    simp [hon, hadmin, hholder, mvbSilent, hsounds]
  obtain ⟨a, ha⟩ := mvbPolls_answered (mvbMasters s.pkt.mvb) { s with pkt := { s.pkt with mvb := { s.pkt.mvb with
    sentMasters := mvbMasters s.pkt.mvb
    pollPos := if s.pkt.mvb.poll.length ≤ s.pkt.mvb.pollPos + 1 then 0 else s.pkt.mvb.pollPos + 1 } } }
  refine ⟨a, ?_⟩
  refine (live_of_running _ hrun).trans (congrArg _ ((if_pos hpolls).trans (Eq.trans ?_ ha)))
  dsimp only
  split
  · next h =>
    rw [mvbMasters, h]
    rfl
  · rfl

end Sys2Proof.Machine

/-! The CAN ports (R313): a frame is counted and goes where each filter that it passes sends it (log entry 37), and the error
counters that follow are free values (log entry 103). -/

namespace Sys2Proof.Machine

open Sys2Proof

theorem canState_eq (tec recCnt : BitVec 8) : canState tec recCnt = if 127 < tec.toNat ∨ 127 < recCnt.toNat then 1 else 0 := by
  simp only [canState, Bool.or_eq_true, decide_eq_true_eq]

/-! ### Received frames -/

section Items

variable {s : State} {p : Fin 4} (ident : U32) (data : List Byte)

theorem canItem_of_full (h : s.pkt.can[p].limit ≤ s.pkt.can[p].items) : canItem s p ident data = mdDrop s := if_pos h

theorem canItem_of_room (h : s.pkt.can[p].items < s.pkt.can[p].limit) :
    let c := s.pkt.can[p]
    let t := canItem s p ident data
    t.pkt.can[p] = { c with items := c.items + 1 } ∧ t.pkt.mdDrop = s.pkt.mdDrop ∧
      t = { s with pkt := t.pkt, epoch := t.epoch } := by
  intro c t
  have hqueued : t = queueItem (putCan s p { c with items := c.items + 1 }) (tb2 s) 5 (5 + p.val)
      (mdItem (5 + p.val) ident.toNat 0 0 (s.time.tb[2].value.ns.toNat) data) (markLate 3) :=
    if_neg (Nat.not_le.mpr h)
  rw [queueItem_rest] at hqueued
  rw [hqueued]
  exact ⟨putCan_same .., rfl, rfl⟩

/-- A frame that `l.length` filters send to queued items: it is queued while the port has room, and the rest is dropped. -/
theorem canItems_spec {α : Type} (l : List α) (s : State) :
    let c := s.pkt.can[p]
    let t := l.foldl (fun s _ => canItem s p ident data) s
    t.pkt.can[p] = { c with items := if c.limit ≤ c.items then c.items else min c.limit (c.items + l.length) } ∧
      (c.items + l.length ≤ c.limit → t.pkt.mdDrop = s.pkt.mdDrop) ∧ t = { s with pkt := t.pkt, epoch := t.epoch } := by
  induction l generalizing s with
  | nil =>
    intro c t
    have hitems : (if c.limit ≤ c.items then c.items else min c.limit (c.items + 0)) = c.items := by
      split <;> omega
    refine ⟨?_, fun _ => rfl, rfl⟩
    rw [List.length_nil, hitems]
    rfl
  | cons x l ih =>
    intro c t
    by_cases hfull : c.limit ≤ c.items
    · obtain ⟨hport, -, hrest⟩ := ih (mdDrop s)
      have ht : t = l.foldl (fun s _ => canItem s p ident data) (mdDrop s) :=
        congrArg (List.foldl _ · l) (canItem_of_full ident data hfull)
      rw [ht]
      refine ⟨hport.trans ?_, fun hroom => ?_, hrest⟩
      · rw [show (mdDrop s).pkt.can[p] = c from rfl, if_pos hfull, if_pos hfull]
      · rw [List.length_cons] at hroom
        omega
    · obtain ⟨hitem, hdrop, hone⟩ := canItem_of_room ident data (Nat.not_le.mp hfull)
      obtain ⟨hport, hkept, hrest⟩ := ih (canItem s p ident data)
      rw [hitem] at hport hkept
      have hitems : (if c.limit ≤ c.items + 1 then c.items + 1 else min c.limit (c.items + 1 + l.length))
          = min c.limit (c.items + (l.length + 1)) := by
        split <;> omega
      have hbeside : ∀ (k : Pkt) (e : Epoch),
          ({ canItem s p ident data with pkt := k, epoch := e } : State) = { s with pkt := k, epoch := e } := fun k e => by
        rw [hone]
      refine ⟨hport.trans ?_, fun hroom => (hkept ?_).trans hdrop, hrest.trans (hbeside _ _)⟩
      · rw [if_neg hfull, List.length_cons, ← hitems]
      · rw [List.length_cons] at hroom
        change c.items + 1 + l.length ≤ c.limit
        omega

end Items

/-- A CAN port that has received a frame: it is counted, and staged for every area whose filter it passes. -/
def canReceived (s : State) (p : Fin 4) (ident : U32) (data : List Byte) : CanPort :=
  let c := s.pkt.can[p]
  let stg : Staged := ⟨5 + p.val, 0, tb2 s, false, false, data⟩
  { canCounted s.freeCtr false { c with rx := c.rx + 1 } with
    filters := c.filters.map fun d =>
      if canPasses ident d && d.signal.isSome then { d with staged := d.staged ++ [stg] } else d }

/-- The module once a received frame has been counted and staged. -/
def canArea (s : State) (p : Fin 4) (ident : U32) (data : List Byte) : State :=
  putCan { s with freeCtr := s.freeCtr + 1 } p (canReceived s p ident data)

theorem canArea_can (s : State) (p : Fin 4) (ident : U32) (data : List Byte) :
    (canArea s p ident data).pkt.can[p] = canReceived s p ident data := putCan_same ..

/-- The filters that send a frame to queued items. -/
def canQueued (c : CanPort) (ident : U32) : List CanFilter := c.filters.filter fun d => canPasses ident d && d.signal.isNone

theorem canTake_eq (s : State) (p : Fin 4) (ident : U32) (data : List Byte) : canTake s p ident data =
    (canQueued s.pkt.can[p] ident).foldl (fun s _ => canItem s p ident data) (canArea s p ident data) := rfl

theorem exec_canFrameRx {s : State} (hrun : running s 9 = true) (p : Fin 4) (ident : U32) (data : List Byte) :
    exec (.canFrameRx p ident data) s = .next (if 2 ≤ s.pkt.can[p].state.toNat then s
      else (gateway (canTake s p ident data) (5 + p.val) 4 ident.toNat (.can ident.toNat data)).1) :=
  (live_of_running _ hrun).trans (congrArg _ (if_congr decide_eq_true_iff rfl rfl))

/-- What a received frame leaves of its port, beside what the gateway carries on. -/
theorem canTaken_spec (s : State) (p : Fin 4) (ident : U32) (data : List Byte) :
    let c := s.pkt.can[p]
    let n := (canQueued c ident).length
    let t := (gateway (canTake s p ident data) (5 + p.val) 4 ident.toNat (.can ident.toNat data)).1
    t.pkt.can[p] = { canReceived s p ident data with
      fwd := t.pkt.can[p].fwd, items := if c.limit ≤ c.items then c.items else min c.limit (c.items + n) } ∧
    (c.items + n ≤ c.limit → t.pkt.mdDrop = s.pkt.mdDrop) ∧
    (n = 1 → c.limit ≤ c.items → t.pkt.mdDrop = satInc s.pkt.mdDrop) ∧
    t = { s with pkt := t.pkt, route := t.route, epoch := t.epoch, freeCtr := s.freeCtr + 1 } := by
  intro c n t
  obtain ⟨-, hdrop, hcan⟩ := busView_eq
    (gateway_busView (canTake s p ident data) (5 + p.val) 4 ident.toNat (c := .can ident.toNat data) fun _ => nofun)
  obtain ⟨-, -, hcarried⟩ := uncarried_eq
    (gateway_uncarried (canTake s p ident data) (5 + p.val) 4 ident.toNat (.can ident.toNat data))
  obtain ⟨hport, hkept, hrest⟩ := canItems_spec (p := p) ident data (canQueued c ident) (canArea s p ident data)
  rw [canArea_can] at hport hkept
  rw [← canTake_eq] at hport hkept hrest
  have hbeside : ∀ (k : Pkt) (r : Route), ({ canTake s p ident data with pkt := k, route := r } : State)
      = { s with pkt := k, route := r, epoch := (canTake s p ident data).epoch, freeCtr := s.freeCtr + 1 } := fun k r => by
    rw [hrest]
    rfl
  have hepoch : t.epoch = (canTake s p ident data).epoch := by
    have h := congrArg State.epoch hcarried
    exact h
  refine ⟨(hcan p).trans ?_, fun hroom => hdrop.trans (hkept hroom), fun hone hfull => hdrop.trans ?_, ?_⟩
  · rw [hport]
    rfl
  · obtain ⟨d, hd⟩ := List.length_eq_one_iff.mp hone
    rw [canTake_eq, hd, List.foldl_cons, List.foldl_nil, canItem_of_full ident data (by rw [canArea_can]; exact hfull)]
    rfl
  · rw [hepoch]
    exact hcarried.trans (hbeside _ _)

/-! ### Sent frames, BUS OFF and its recovery -/

/-- A frame has been sent on a CAN port. -/
def canSent (s : State) (p : Fin 4) (c : CanPort) : State :=
  putCan { s with freeCtr := s.freeCtr + 1 } p { canCounted s.freeCtr true c with tx := c.tx + 1 }

theorem exec_canTxDone {s : State} (hrun : running s 9 = true) (p : Fin 4) :
    let c := s.pkt.can[p]
    exec (.canTxDone p) s = .next (if !(decide (c.state.toNat ≤ 1) && !s.weft.stopped) then s
      else match c.objects.findIdx? (·.queued.isSome) with
        | some i => canSent s p { c with objects := c.objects.modify i (fun o => { o with queued := none }) }
        | none => match c.fwd with
          | _ :: r => canSent s p { c with fwd := r }
          | [] => s) :=
  live_of_running _ hrun

theorem canSent_spec (s : State) (p : Fin 4) (c : CanPort) :
    let t := canSent s p c
    t.pkt.can = s.pkt.can.set p { c with
        tx := c.tx + 1, tec := t.pkt.can[p].tec
        state := if 127 < t.pkt.can[p].tec.toNat ∨ 127 < c.recCnt.toNat then 1 else 0 } ∧
      t = { s with pkt := { s.pkt with can := t.pkt.can }, freeCtr := s.freeCtr + 1 } := by
  intro t
  have hport : t.pkt.can[p] = { canCounted s.freeCtr true c with tx := c.tx + 1 } := putCan_same ..
  refine ⟨?_, rfl⟩
  rw [hport, ← canState_eq]
  rfl

section TxDone

variable {s : State} {p : Fin 4} (hrun : running s 9 = true)
include hrun

theorem exec_canTxDone_silent (h : 2 ≤ s.pkt.can[p].state.toNat ∨ s.weft.stopped = true) :
    exec (.canTxDone p) s = .next s := by
  refine (exec_canTxDone hrun p).trans (congrArg _ (if_pos ?_))
  rcases h with h | h
  · rw [decide_eq_false (by omega), Bool.false_and, Bool.not_false]
  · rw [h, Bool.not_true, Bool.and_false, Bool.not_false]

variable (hon : s.pkt.can[p].state.toNat ≤ 1) (hsounds : s.weft.stopped = false)
include hon hsounds

theorem exec_canTxDone_sounding : exec (.canTxDone p) s = .next (
    match s.pkt.can[p].objects.findIdx? (·.queued.isSome) with
    | some i => canSent s p { s.pkt.can[p] with
        objects := s.pkt.can[p].objects.modify i (fun o => { o with queued := none }) }
    | none => match s.pkt.can[p].fwd with
      | _ :: r => canSent s p { s.pkt.can[p] with fwd := r }
      | [] => s) := by
  refine (exec_canTxDone hrun p).trans (congrArg _ (if_neg ?_))
  rw [decide_eq_true hon, hsounds]
  decide

/-- The queued object with the lowest index is sent. -/
theorem exec_canTxDone_object {i : Nat} (hi : s.pkt.can[p].objects.findIdx? (·.queued.isSome) = some i) :
    exec (.canTxDone p) s = .next (canSent s p { s.pkt.can[p] with
      objects := s.pkt.can[p].objects.modify i (fun o => { o with queued := none }) }) := by
  rw [exec_canTxDone_sounding hrun hon hsounds, hi]

variable (hnone : ∀ o ∈ s.pkt.can[p].objects, o.queued = none)
include hnone

/-- With no object queued the oldest frame of the gateway is sent. -/
theorem exec_canTxDone_forward {f : U32 × List Byte} {rest : List (U32 × List Byte)} (hfwd : s.pkt.can[p].fwd = f :: rest) :
    exec (.canTxDone p) s = .next (canSent s p { s.pkt.can[p] with fwd := rest }) := by
  have hidle : s.pkt.can[p].objects.findIdx? (·.queued.isSome) = none :=
    List.findIdx?_eq_none_iff.mpr fun o ho => by rw [hnone o ho]; rfl
  rw [exec_canTxDone_sounding hrun hon hsounds, hidle, hfwd]

theorem exec_canTxDone_empty (hfwd : s.pkt.can[p].fwd = []) : exec (.canTxDone p) s = .next s := by
  have hidle : s.pkt.can[p].objects.findIdx? (·.queued.isSome) = none :=
    List.findIdx?_eq_none_iff.mpr fun o ho => by rw [hnone o ho]; rfl
  rw [exec_canTxDone_sounding hrun hon hsounds, hidle, hfwd]

end TxDone

/-- A CAN port that is BUS OFF or disabled. -/
theorem canOff_iff (x : BitVec 2) : (decide (x = 3) || decide (x = 2)) = true ↔ 2 ≤ x.toNat := by
  revert x
  decide

theorem exec_canBusOff {s : State} (hrun : running s 9 = true) (p : Fin 4) :
    let c := s.pkt.can[p]
    exec (.canBusOff p) s = .next (if 2 ≤ c.state.toNat then s
      else pktEvent (putCan s p { c with
        state := 2, tec := 255, busOffCnt := satInc c.busOffCnt, recovering := c.autoRecover }) 9) :=
  (live_of_running _ hrun).trans (congrArg _ (if_congr (canOff_iff _) rfl rfl))

theorem exec_canBusoffRecovery {s : State} (hrun : running s 9 = true) (p : Fin 4) :
    let c := s.pkt.can[p]
    exec (.canBusoffRecovery p) s = .next (if c.state = 2 ∧ c.recovering = true then
      putCan s p { c with state := 0, recovering := false, tec := 0, recCnt := 0 } else s) :=
  (live_of_running _ hrun).trans (congrArg _ (if_congr (by rw [Bool.and_eq_true, decide_eq_true_eq]) rfl rfl))

end Sys2Proof.Machine

/-! The rings, the MVB port and the CAN ports together: O45. -/

namespace Sys2Proof.Machine

open Sys2Proof

/-! ### The clauses of the rings -/

theorem descPorts_of_port {m : Mem} {a : Nat} {p : Fin 4} (h : memLe m (a + 12) 1 = p.val) : descPorts m a = [p] := by
  refine (dif_pos (h.trans_lt p.isLt)).trans ?_
  simp only [h]

theorem descPorts_of_none {m : Mem} {a : Nat} (h : 4 ≤ memLe m (a + 12) 1) : descPorts m a = [] := dif_neg (Nat.not_lt.mpr h)

/-- The frame of a descriptor of no stream waits on the port that the descriptor names. -/
theorem ringEnqueue_port {s : State} {i : Fin 64} {p : Fin 4} (q : Nat) (f : List Byte) (htakes : portTakes s.pkt.port[p] = true) :
    let t := ringEnqueue s i [p] q f
    t.pkt.port[p] = portQueues s.pkt.port[p] q ⟨f, none, some (i.val, s.pkt.ring[i].head.toNat)⟩ ∧
      (∀ o, o ≠ p → t.pkt.port[o] = s.pkt.port[o]) ∧
      t = { s with pkt := { s.pkt with ring := s.pkt.ring.set i { s.pkt.ring[i] with posted := 1 }, port := t.pkt.port } } := by
  obtain ⟨-, hports, hrest⟩ := ringEnqueue_of_taken (s := s) (i := i) q f (List.nodup_singleton p)
    ⟨p, List.mem_singleton_self p, htakes⟩
  have hone : [p].filter (fun p => portTakes s.pkt.port[p]) = [p] := by rw [List.filter_singleton, htakes]; rfl
  rw [hone] at hrest
  refine ⟨(hports p).trans (if_pos ⟨List.mem_singleton_self p, htakes⟩), fun o ho => (hports o).trans (if_neg ?_), hrest⟩
  exact fun h => ho (List.mem_singleton.mp h.1)

/-- The frame of a descriptor of a stream waits on the ports of the stream that take frames, and the next frame has the next
sequence number. -/
theorem ringEnqueue_stream {s : State} {i : Fin 64} {n : Nat} {x : Stream} (q : Nat) (f : List Byte)
    (hstream : streamOf s n = some x) (htakes : ∃ p : Fin 4, x.ports.getLsbD p.val = true ∧ portTakes s.pkt.port[p] = true) :
    let t := ringEnqueue (putStream s n { x with txSeq := x.txSeq + 1 }) i (maskPorts x.ports.toNat) q f
    1 ≤ t.pkt.ring[i].posted ∧ streamOf t n = some { x with txSeq := x.txSeq + 1 } ∧
      (∀ p : Fin 4, t.pkt.port[p] = if x.ports.getLsbD p.val = true ∧ portTakes s.pkt.port[p] = true then
        portQueues s.pkt.port[p] q ⟨f, none, some (i.val, s.pkt.ring[i].head.toNat)⟩ else s.pkt.port[p]) ∧
      t = { s with pkt := { s.pkt with
        ring := s.pkt.ring.set i { s.pkt.ring[i] with posted := t.pkt.ring[i].posted }, port := t.pkt.port
        streams := t.pkt.streams } } := by
  intro t
  have hmem : ∀ p : Fin 4, p ∈ maskPorts x.ports.toNat ↔ x.ports.getLsbD p.val = true := fun p => mem_maskPorts ..
  obtain ⟨p, hp, hptakes⟩ := htakes
  obtain ⟨hpos, hports, hrest⟩ := ringEnqueue_of_taken (s := putStream s n { x with txSeq := x.txSeq + 1 }) (i := i) q f
    (nodup_maskPorts x.ports.toNat) ⟨p, (hmem p).mpr hp, hptakes⟩
  have hring : t.pkt.ring[i].posted = ((maskPorts x.ports.toNat).filter fun p => portTakes s.pkt.port[p]).length := by
    rw [show t = _ from hrest]
    exact congrArg Ring.posted (Vector.getElem_set_self ..)
  have hstreams : t.pkt.streams = (putStream s n { x with txSeq := x.txSeq + 1 }).pkt.streams := by
    rw [show t = _ from hrest]
  refine ⟨hring.symm ▸ hpos, ?_, fun p => (hports p).trans ?_, ?_⟩
  · have hof : streamOf t n = streamOf (putStream s n { x with txSeq := x.txSeq + 1 }) n := by rw [streamOf, hstreams, streamOf]
    rw [hof, streamOf_putStream, if_pos rfl, hstream]
    rfl
  · simp only [hmem]
    rfl
  · rw [hring, hstreams]
    exact hrest

/-! ### The statement -/

/-- Settles O45, clause by clause: a ring by what the owner, the gate and the place of its descriptor let the engine do, and the
frames of the buses by what they leave of their port once the gateway has carried them. -/
theorem ringBusResult : Obligations.RingBusResult := by
  refine ⟨?_, ?_, ?_, ?_, ?_⟩
  · intro i data s hrun r taken
    exact ⟨exec_ringTailWrite_selvedge hrun i data, exec_ringTailWrite_lane hrun i data⟩
  · intro i s hrun r a m flags buf len tci closed
    refine ⟨fun hidle ok => exec_ringDescDone_idle hrun ok hidle, fun hen hhead hown hfree => ?_⟩
    have hready : ringReady s s.pkt.ring[i] s.pkt.ring[i].tail = true := (ringReady_iff s _).mpr ⟨hen, hhead, hown⟩
    refine ⟨fun hdir hgate howner ok => ⟨exec_ringDescDone_undecided hrun hready hfree ok (ringGated_of_lane hdir hgate howner),
        exec_ringDescDone_turnedAway hrun hready hfree ok (ringGated_of_lane hdir hgate howner)⟩,
      fun hpass => ⟨exec_ringDescDone_error hrun hready hfree hpass, exec_ringDescDone_receives hrun hready hfree hpass, ?_⟩⟩
    intro hdir lies queued
    rw [exec_ringDescDone_sends hrun hready hfree hpass hdir]
    refine ⟨fun hlies => congrArg _ (ringSend_of_outside hlies), ?_, fun x hlies hstream hmin hmax htakes => ?_⟩
    · intro hlies hstream f n
      have hsend := ringSend_of_no_stream hlies hstream
      have hfits : 14 ≤ len → n ≤ 1518 → ringSend s i = ringEnqueue s i (descPorts m a) (memLe m (a + 13) 1) f :=
        fun hmin hmax => hsend.trans (if_neg (not_or.mpr ⟨Nat.not_lt.mpr hmin, Nat.not_lt.mpr hmax⟩))
      refine ⟨fun hbad => congrArg _ (hsend.trans (if_pos hbad)), fun hmin hmax hport => ?_, fun hmin hmax p hport => ?_⟩
      · rw [hfits hmin hmax, descPorts_of_none hport]
        exact congrArg _ (ringEnqueue_of_refused _ f nofun)
      · rw [hfits hmin hmax, descPorts_of_port hport]
        refine ⟨fun hshut => congrArg _ (ringEnqueue_of_refused _ f fun o ho => ?_), fun htakes => ?_⟩
        · rw [List.mem_singleton.mp ho]
          exact hshut
        · exact ⟨_, rfl, ringEnqueue_port (i := i) (memLe m (a + 13) 1) f htakes⟩
    · rw [ringSend_of_stream hlies hstream hmin hmax]
      obtain ⟨hposted, hseq, hports, hrest⟩ := ringEnqueue_stream (i := i) (memLe m (a + 13) 1)
        (descFrame m a (some x.txSeq.toNat)) hstream htakes
      refine ⟨_, rfl, hposted, hseq, fun p => ?_, hrest⟩
      split
      · next h => exact (hports p).trans (if_pos h)
      · next h => exact (hports p).trans (if_neg h)
  · intro lineB code addr data s hrun
    refine ⟨fun master hoff => exec_mvbFrame_disabled hrun hoff lineB master code addr data,
      fun hon => ⟨?_, fun hlen => ?_, fun hlen => ?_⟩⟩
    · exact ⟨_, exec_mvbFrame_master hrun hon lineB code addr data, mvbMaster_spec s lineB code.toNat addr.toNat⟩
    · exact ⟨_, exec_mvbFrame_unsized hrun hon lineB code addr data hlen, rfl, rfl⟩
    · exact ⟨_, exec_mvbFrame_slave hrun hon lineB code addr data hlen, mvbSlave_spec s lineB addr.toNat data⟩
  · intro s hrun hon hadmin hholder hsounds
    obtain ⟨b, hexec⟩ := exec_mvbBaPeriod hrun hon hadmin hholder hsounds
    exact ⟨_, hexec, map_snd_mvbMasters _, rfl, rfl⟩
  · intro p s hrun c
    refine ⟨fun ident data => ⟨fun hoff => ?_, fun hon => ?_⟩, ?_, fun hidle => exec_canTxDone_silent hrun hidle,
      fun hoff => ?_, fun hon => ?_, fun hoff hrec => ?_, fun hidle => ?_⟩
    · rw [exec_canFrameRx hrun, if_pos hoff]
    · obtain ⟨hport, hroom, hfull, hrest⟩ := canTaken_spec s p ident data
      refine ⟨_, (exec_canFrameRx hrun p ident data).trans (congrArg _ (if_neg (Nat.not_le.mpr hon))), ?_⟩
      generalize (gateway (canTake s p ident data) _ _ _ _).1 = t at *
      rw [hport]
      exact ⟨rfl, rfl, canState_eq _ _, rfl, ⟨rfl, hroom, hfull⟩, hrest⟩
    · intro hon hsounds sent
      exact ⟨fun i hi => ⟨_, exec_canTxDone_object hrun hon hsounds hi, canSent_spec ..⟩,
        fun f rest hnone hfwd => ⟨_, exec_canTxDone_forward hrun hon hsounds hnone hfwd, canSent_spec ..⟩,
        fun hnone hfwd => exec_canTxDone_empty hrun hon hsounds hnone hfwd⟩
    · rw [exec_canBusOff hrun, if_pos hoff]
    · exact (exec_canBusOff hrun p).trans (congrArg _ (if_neg (Nat.not_le.mpr hon)))
    · exact (exec_canBusoffRecovery hrun p).trans (congrArg _ (if_pos ⟨hoff, hrec⟩))
    · refine (exec_canBusoffRecovery hrun p).trans (congrArg _ (if_neg ?_))
      rintro ⟨hoff, hrec⟩
      exact hidle.elim (absurd hoff) fun h => Bool.false_ne_true (h.symm.trans hrec)

end Sys2Proof.Machine
